-- ==== Sys2Proof/Word.lean ====
section
/-! DEFINITION. The word and byte types of the terminal: every register is 32 bits wide (R7), frames, images and
messages are strings of bytes. -/
namespace Sys2Proof

/-- A register's content (R7). -/
abbrev Word := BitVec 32

/-- A byte of a frame, an image, a message or a memory. -/
abbrev Byte := BitVec 8

/-- A string of bytes, first byte first. -/
abbrev Bytes := List Byte

end Sys2Proof
end

