-- ==== Sys2Proof/Syntax.lean ====
section
/-! DEFINITION. The commands the terminal takes from outside, one constructor of `Instr` per row of the opcode table, and
what their operands are made of. The table gives no operands; each constructor carries what its rule says happens
outside the terminal (the access, the frame, the level, the measurement), see log entry 3. -/
namespace Sys2Proof

/-- Where a register access comes from (R15): the host, the chain or the supervisor, whose accesses include the
register-write records of the image (R388). -/
inductive Source where
  | host | chain | sup
  deriving DecidableEq, Repr

/-- The six kinds of reset (R58), in the order of R61: the higher stands first. -/
inductive ResetKind where
  | cold | dip | pin | watchdog | chain | domain
  deriving DecidableEq, Repr

/-- What a flash answers to the read of its header (R49, R51): no answer, or the bytes read. -/
inductive FlashRead where
  | noAnswer
  | bytes (b : Bytes)
  deriving DecidableEq, Repr

/-- The straps sampled at a reset release (R47) and the chain address straps (R510). -/
structure Straps where
  imgsel : BitVec 2
  bootHold : Bool
  chainAddr : BitVec 6
  deriving DecidableEq, Repr

/-- What the terminal measures at a tick edge: the phase of the edge against the target edge in nanoseconds (R20), the
16 junction sensors and the case temperature in degrees Celsius and the power of the previous tick in milliwatts
(R464), and what the tick's budgets of R22 allowed: the plan records and the circuits reached (none: all), and whether
the governor, the gate check and the tally window were late. -/
structure TickInputs where
  phaseNs : Int
  junction : List Int
  caseTemp : Int
  powerMw : Option Nat
  shiftDone : Option Nat
  circDone : Option Nat
  govLate : Bool
  gateLate : Bool
  tallyLate : Bool
  deriving DecidableEq, Repr

/-- A dataset compared by the best master clock algorithm of IEEE 1588-2019 (R394). -/
structure PtpDataset where
  priority1 : BitVec 8
  clockClass : BitVec 8
  accuracy : BitVec 8
  variance : BitVec 16
  priority2 : BitVec 8
  grandmaster : BitVec 64
  stepsRemoved : BitVec 16
  deriving DecidableEq, Repr

/-- A PTP port identity: the clockIdentity and the port number. -/
structure PtpId where
  clock : BitVec 64
  port : BitVec 16
  deriving DecidableEq, Repr

/-- The kinds of PTP message the boundary clock handles (R393); an answer names the port that asked. -/
inductive PtpKind where
  | announce (d : PtpDataset)
  | sync
  | followUp (originNs : Nat)
  | delayReq
  | delayResp (receiveNs : Nat) (asker : PtpId)
  | pdelayReq
  | pdelayResp (receiveNs : Nat) (asker : PtpId)
  | pdelayRespFollowUp (originNs : Nat) (asker : PtpId)
  | other
  deriving DecidableEq, Repr

/-- A PTP message received on a local port: its domain, sequence number and sender, its correctionField in units of 2^-16 ns,
two's complement, and its kind. Its arrival is the command's: the MAC stamps it then (R359). -/
structure PtpMessage where
  domain : BitVec 8
  seq : BitVec 16
  sender : BitVec 64
  senderPort : BitVec 16
  correction : BitVec 64
  kind : PtpKind
  deriving DecidableEq, Repr

/-- What the CMIS memory of an optic shows (R549): the revision (0x40 for 4.0), the data-path activation time, the
serial number, whether a transmit output control is advertised and how many half-decibel steps above the default it
allows, the lane powers (0.1 µW) and biases (2 µA). -/
structure CmisData where
  revision : BitVec 8
  tOptMs : BitVec 16
  serial : Bytes
  control : Bool
  maxSteps : Nat
  txPower : List Nat
  bias : List Nat
  deriving DecidableEq, Repr

/-- The measurements of an assay run (R494): the derated slack S in tenths of a picosecond; the eye openings of local
lanes (lane, 1/128 steps); the pre-FEC error counts of line receive lanes (side * 4 + seam, count); the lanes passed
over; the transmit lanes of the active side's optic (lane, power, bias, bias limit); the keep's retries per write in
0.001 % for each die. -/
structure AssayMeasure where
  slack : Int
  eyes : List (Fin 512 × Nat)
  line : List (Fin 8 × Nat)
  skipped : Nat
  optics : List (Fin 4 × Nat × Nat × Nat)
  keepA : Nat
  keepB : Nat
  deriving DecidableEq, Repr

/-- The fault sources of R504. -/
inductive FaultSource where
  | sramCe | sramUe | ddrUe | keepWr | lane | seam | optic | tick | margin
  deriving DecidableEq, Repr

/-- A PTP message the boundary clock sends (R393): two-step only; times in nanoseconds, corrections in units of 2^-16 ns. -/
inductive PtpSend where
  | announce (d : PtpDataset)
  | sync
  | followUp (originNs : Nat) (correction : Int)
  | delayReq
  | delayResp (dest : BitVec 64) (toPort : BitVec 16) (receiveNs : Nat) (correction : Int)
  | pdelayReq
  | pdelayResp (dest : BitVec 64) (toPort : BitVec 16) (receiveNs : Nat) (correction : Int)
  | pdelayRespFollowUp (dest : BitVec 64) (toPort : BitVec 16) (originNs : Nat) (correction : Int)
  deriving DecidableEq, Repr

/-- A codeword as it is received from the line: its symbols, first symbol first (R75). -/
abbrev Codeword := List (BitVec 10)

/-- The head of a line management message (R140): the seam of the active side and the FC of the frame that carries it,
the TN it is addressed to, SEQ and ACK_REQ. -/
structure LmmHead where
  seam : Fin 4
  fc : BitVec 48
  tn : BitVec 12
  seq : BitVec 8
  ackReq : Bool
  deriving DecidableEq, Repr

/-- How the read of a frame from packet SRAM goes (R505): well, or with an uncorrectable error, found before a part of the
frame has left or after. -/
inductive SramRead where
  | good | badBefore | badAfter
  deriving DecidableEq, Repr

/-- A queue that may spill into the deep buffer (R319): a local queue, or a sub-queue of an allocation queue. -/
inductive QueueRef where
  | loc (port : Fin 512) (q : Fin 8)
  | alloc (a : Fin 1024) (q : Fin 8)
  deriving DecidableEq, Repr

/-- A write of PORT_MDIO_CMD that starts a command (R354): its source, the slot and the value. -/
structure MdioStart where
  src : Source
  slot : Fin 2
  value : Word
  deriving DecidableEq, Repr

/-- What CMIS and the presence land show of the cold side's optic in a canary run (R411). -/
structure CanaryOptic where
  present : Bool
  answered : Bool
  pathActive : Bool
  alarm : Bool
  deriving DecidableEq, Repr

/-- A host request on BAR0 (R519): the member and the device address, and for a write the value. -/
structure Bar0Access where
  member : Fin 64
  addr : BitVec 25
  write : Option Word
  deriving DecidableEq, Repr

/-- The commands: one constructor per row of the opcode table, in the families of the spec's chapters. -/
inductive Instr where
  /-- TICK_EDGE (R18). -/
  | tickEdge (i : TickInputs)
  /-- LOCAL_TICK_COUNT_EXPIRY (R19). -/
  | localTickCountExpiry (i : TickInputs)
  /-- GOV_LATE_COMPLETE (R23). -/
  | govLateComplete
  /-- SCHED_PLAN (R300). -/
  | schedPlan
  /-- SUP_LOOPS (R22). -/
  | supLoops
  /-- TICK_OVERRUN (R24): the block's code and the microseconds from budget end to completion, none where the work was
  abandoned. -/
  | tickOverrun (block : Fin 7) (lateUs : Option (BitVec 16))
  /-- REG_WRITE (R12): the source, the address, the value, and the bits whose own source sets them in the same cycle
  (R13). -/
  | regWrite (src : Source) (addr value setSame : Word)
  /-- REG_MISALIGNED (R8): an access of `bytes` bytes at `addr`. -/
  | regMisaligned (src : Source) (addr : Word) (bytes : Nat) (write : Bool)
  /-- RC_CLEARING_READ (R14): the increments that fall in the cycle of the read. -/
  | rcClearingRead (src : Source) (addr : Word) (inc : Word)
  /-- LR_LOW_WORD_READ (R15): the increments that fall in the cycle of the read. -/
  | lrLowWordRead (src : Source) (addr : Word) (inc : Word)
  /-- COLD_RESET (R58). -/
  | coldReset
  /-- DIP_RESET (R71): the VIN sample in millivolts. -/
  | dipReset (vinMv : BitVec 16)
  /-- PIN_RESET (R58). -/
  | pinReset
  /-- WATCHDOG_RESET (R58): the supervisor watchdog, or the REFCLK case of R57. -/
  | watchdogReset (refclk : Bool)
  /-- CHAIN_RESET (R58): the value written to GEN_RESET_CMD. -/
  | chainReset (code : Word)
  /-- DOMAIN_RESET (R576): the value written to GEN_DOMAIN_RESET. -/
  | domainReset (mask : BitVec 21)
  /-- DOMAIN_RESET_RELEASE (R59): the domain, and the bytes of the image cache that DRAM upsets have changed (section, byte offset in
  its body, value). -/
  | domainResetRelease (domain : Fin 21) (upsets : List (Nat × Nat × Byte))
  /-- RESET_RELEASE (R56): the straps, what each flash answers to the read of its header, the LPDDR4X packages that fail
  training (R321), and the reference inputs that are there at step 3 (R57). -/
  | resetRelease (straps : Straps) (flashA flashB : FlashRead) (ddrFail refs : BitVec 4)
  /-- IMAGE_VERIFY_DONE (R50): the bytes read of the candidate; none where the read failed (R51). -/
  | imageVerifyDone (read : FlashRead)
  /-- RELEASE (R53): a write of 1 to GEN_BOOT_CTRL.RELEASE. -/
  | release
  /-- IMAGE_APPLY (R43). -/
  | imageApply
  /-- IMG_RECORD_BUSY_WAIT (R45): whether the 10 ms have run out. -/
  | imgRecordBusyWait (expired : Bool)
  /-- EV_REFCLK_LOSS (R57): the reference input. -/
  | evRefclkLoss (input : Fin 4)
  /-- REFCLK_RETRY (R57): whether the line reference is there at the retry. -/
  | refclkRetry (present : Bool)
  /-- REFCLK_MEASURE (R547): the deviation of each input in ppm; none where it is absent. -/
  | refclkMeasure (ppm : List (Option Int))
  /-- EV_VIN_WARN (R64): VIN in millivolts. -/
  | evVinWarn (vinMv : BitVec 16)
  /-- VIN_WARN_REPEAT (R69). -/
  | vinWarnRepeat (vinMv : BitVec 16)
  /-- EV_VIN_RECOVER (R68): VIN, the microseconds from t_w to resumption and the lowest VIN sampled in the
  episode. -/
  | evVinRecover (vinMv : BitVec 16) (durationUs : Word) (lowestMv : BitVec 16)
  /-- VAUX_LOSS (R541). -/
  | vauxLoss
  /-- VIN_OVERCURRENT_DISCONNECT (R539). -/
  | vinOvercurrentDisconnect
  /-- SIDE_DOMAIN_UP (R92). -/
  | sideDomainUp (side : Fin 2)
  /-- SIDE_DOMAIN_DOWN (R92). -/
  | sideDomainDown (side : Fin 2)
  /-- SYNC_SIGHTING (R87): the bit offset within the evaluation period and the 5,440 bits received from there. -/
  | syncSighting (side : Fin 2) (seam : Fin 4) (offset : Fin 13273600) (word : Codeword)
  /-- CANDIDATE_EXAMINE (R90): the candidate's bit offset and the 5,440 bits received there one frame later. -/
  | candidateExamine (side : Fin 2) (seam : Fin 4) (offset : Fin 13273600) (word : Codeword)
  /-- EVAL_PERIOD_END (R91). -/
  | evalPeriodEnd (side : Fin 2) (seam : Fin 4)
  /-- DOWNSTREAM_FRAME (R94): the codewords received (those after the last one listed carry only idle fill without
  error) and how long after the tick edge the sync word arrived, in nanoseconds (R121). -/
  | downstreamFrame (side : Fin 2) (seam : Fin 4) (words : List Codeword) (lateNs : BitVec 32)
  /-- LOS_DECLARE (R99): the signal-detect land's level and whether the energy detector shows loss, for 1 µs. -/
  | losDeclare (side : Fin 2) (seam : Fin 4) (sdLand : Bool) (energyLoss : Bool)
  /-- LOS_CLEAR (R99): the same, for 125 µs. -/
  | losClear (side : Fin 2) (seam : Fin 4) (sdLand : Bool) (energyLoss : Bool)
  /-- SD_WINDOW_END (R100). -/
  | sdWindowEnd (side : Fin 2) (seam : Fin 4)
  /-- SF_WINDOW_END (R100). -/
  | sfWindowEnd (side : Fin 2) (seam : Fin 4)
  /-- UPSTREAM_BURST (R127): the next burst placed on the seam of the active side leaves. -/
  | upstreamBurst (seam : Fin 4)
  /-- ANNOUNCE (R145): the burst of an announce window leaves. -/
  | announce (seam : Fin 4)
  /-- RANGING_REPLY (R144): the burst of a directed ranging window leaves. -/
  | rangingReply (seam : Fin 4)
  /-- ASSIGN_TN (R144): IDSER and NEW_TN. -/
  | assignTn (m : LmmHead) (idser : BitVec 64) (newTn : BitVec 12)
  /-- RANGING_TIME (R147). -/
  | rangingTime (m : LmmHead) (eqd : BitVec 26) (effFc : BitVec 48) (now : Bool)
  /-- ALLOC_ASSIGN (R149). -/
  | allocAssign (m : LmmHead) (allocId : BitVec 14) (remove : Bool) (index : BitVec 3)
  /-- DEACTIVATE (R144). -/
  | deactivate (m : LmmHead)
  /-- EXPEL (R144). -/
  | expel (m : LmmHead) (idser : BitVec 64) (enable : Bool)
  /-- HOLD (R144). -/
  | hold (m : LmmHead) (release : Bool)
  /-- KEY_EPOCH (R434). -/
  | keyEpoch (m : LmmHead) (up : Bool) (epoch : Word) (switchFc : BitVec 48)
  /-- BURST_PROFILE (R142). -/
  | burstProfile (m : LmmHead) (profile : BitVec 3) (preamble : BitVec 10) (pattern : Word) (delimiter : BitVec 64)
  /-- DOZE_GRANT (R153). -/
  | dozeGrant (m : LmmHead) (state : BitVec 3) (period aware : BitVec 16)
  /-- ECHO_REQUEST (R142): the data as a number, most significant byte first. -/
  | echoRequest (m : LmmHead) (data : BitVec 288)
  /-- RESUME_ACK (R436). -/
  | resumeAck (m : LmmHead) (dsEpoch usEpoch : Word)
  /-- TIME_OF_DAY (R392). -/
  | timeOfDay (m : LmmHead) (markFc : BitVec 48) (seconds : BitVec 64) (ns : Word) (frac : BitVec 16)
  /-- ACK (R122): a message of type `type` and SEQ received in frame `fc` for the identity is to be acknowledged. -/
  | ack (ident : Fin 128) (type seq : BitVec 8) (fc : BitVec 48)
  /-- JOIN_TIMEOUT (R144). -/
  | joinTimeout (ident : Fin 128)
  /-- RESUME_TIMEOUT (R144). -/
  | resumeTimeout (ident : Fin 128)
  /-- UNEXPEL (R144). -/
  | unexpel (ident : Fin 128)
  /-- DOZE_REQUEST (R152): the ladder state and the period the supervisor wants. -/
  | dozeRequest (ident : Fin 128) (state : BitVec 3) (period : BitVec 16)
  /-- DOZE_WAKE (R156). -/
  | dozeWake (ident : Fin 128)
  /-- DOZE_TIMER (R155). -/
  | dozeTimer
  /-- BOND_GAP_TIMER_EXPIRY (R160). -/
  | bondGapTimerExpiry (ident : Fin 128)
  /-- CIRC_ENABLE (R184). -/
  | circEnable (circuit : Fin 1024)
  /-- CIRC_DISABLE (R185). -/
  | circDisable (circuit : Fin 1024)
  /-- CIRC_PACKET (R177): a packet from its control word on; none takes the next one the classifier has handed over. -/
  | circPacket (packet : Option (Fin 1024 × Bytes))
  /-- SUBMIT (R207): the port and the frame (without FCS); none takes the oldest SUBMIT the classifier has handed over. -/
  | submit (msg : Option (Fin 512 × Bytes))
  /-- JOURNAL_WRITE_VERIFIED (R210): the oldest write of the slot not yet verified is verified on both dies, or on the
  survivor. -/
  | journalWriteVerified (slot : Fin 8192)
  /-- EV_TALLY_SPLIT (R211): the slot, the dies its PENDING write failed on (bit 0 die A), and those on which STATE BAD
  cannot be written. -/
  | evTallySplit (slot : Fin 8192) (dies unwritable : BitVec 2)
  /-- DELIVER (R218): the identity and the frame from the head end; none as for SUBMIT. -/
  | deliver (msg : Option (Fin 128 × Bytes))
  /-- TALLY_RESEND_HE (R215): the resends chosen for a flow. -/
  | tallyResendHe (flow : Fin 2048)
  /-- DELIVER_TO_RECIPIENT (R219): the first sendings of a flow. -/
  | deliverToRecipient (flow : Fin 2048)
  /-- TALLY_RESEND_LOCAL (R219): the resends chosen for a flow. -/
  | tallyResendLocal (flow : Fin 2048)
  /-- RECEIPT_FROM_HEAD_END (R217). -/
  | receiptFromHeadEnd (msg : Option (Fin 128 × Bytes))
  /-- RECEIPT_FROM_RECIPIENT (R220). -/
  | receiptFromRecipient (msg : Option (Fin 512 × Bytes))
  /-- REFUSE_FROM_HEAD_END (R217). -/
  | refuseFromHeadEnd (msg : Option (Fin 128 × Bytes))
  /-- STATUS (R196). -/
  | status (msg : Option (Fin 512 × Bytes))
  /-- EV_TALLY_STALL (R221). -/
  | evTallyStall (flow : Fin 2048)
  /-- FLOW_CLOSE (R190). -/
  | flowClose (flow : Fin 2048)
  /-- PURGE (R226). -/
  | purge (flow : Fin 2048)
  /-- JOURNAL_SCAN (R223): the copies the scan finds invalid, and those on which the slot's last mark had not been written,
  by die and slot. -/
  | journalScan (torn unmarked : List (Fin 2 × Fin 8192))
  /-- CLASSIFY_FRAME (R252): the next frame that waits at a pipeline. -/
  | classifyFrame (pipe : Fin 4)
  /-- EXC_FORWARD (R267): the oldest record of the exception ring. -/
  | excForward
  /-- RULE_WRITE (R245): the value written to CLS_RULE_CMD. -/
  | ruleWrite (pipe : Fin 4) (value : Word)
  /-- RULE_READ (R242). -/
  | ruleRead (pipe : Fin 4) (value : Word)
  /-- FDB_INSERT_STATIC (R262). -/
  | fdbInsertStatic
  /-- FDB_INSERT_DYNAMIC (R262). -/
  | fdbInsertDynamic
  /-- FDB_DELETE (R258). -/
  | fdbDelete
  /-- FDB_LOOKUP (R258). -/
  | fdbLookup
  /-- FDB_DELETE_BY_DEST (R256). -/
  | fdbDeleteByDest
  /-- FDB_SWEEP (R261). -/
  | fdbSweep
  /-- VLAN_WRITE (R254): the value written to CLS_VLAN_CMD. -/
  | vlanWrite (value : Word)
  /-- VLAN_READ (R254). -/
  | vlanRead (value : Word)
  /-- PORT_FRAME_START (R272): a frame boundary of the port, and how the read of the frame that starts goes. -/
  | portFrameStart (port : Fin 512) (read : SramRead)
  /-- PAUSE (R293): a good PAUSE frame with time T. -/
  | pause (port : Fin 512) (t : BitVec 16)
  /-- PFC (R295): a good PFC frame, its priority enable vector and its eight times, priority 0 first. -/
  | pfc (port : Fin 512) (enable : BitVec 8) (times : List (BitVec 16))
  /-- PAUSE_EXPIRY (R293): of the port's PAUSE, or of a priority. -/
  | pauseExpiry (port : Fin 512) (pri : Option (Fin 8))
  /-- LANE_PAUSE_DROP (R296): the first circuit packet of the paused lane has waited more than 1 ms. -/
  | lanePauseDrop (port : Fin 512)
  /-- GATE_COMMIT (R289): the value written to SCHED_GATE_CTRL. -/
  | gateCommit (port : Fin 512) (value : Word)
  /-- GATE_LIST_START (R291). -/
  | gateListStart (port : Fin 512)
  /-- GCL_WRITE (R289): the value written to SCHED_GCL_CMD. -/
  | gclWrite (value : Word)
  /-- GCL_READ (R289). -/
  | gclRead (value : Word)
  /-- POLICER_WRITE (R283): the value written to SCHED_POL_CMD. -/
  | policerWrite (value : Word)
  /-- POLICER_READ (R282). -/
  | policerRead (value : Word)
  /-- POLICER_READ_CLEAR (R282). -/
  | policerReadClear (value : Word)
  /-- TUB_TAKE (R311): the agent, the length of its data, and whether the length is known at the time of taking. -/
  | tubTake (agent : BitVec 6) (len : BitVec 16) (known : Bool)
  /-- TUB_FREE (R313): the agent, a handle, and whether the chain that follows it is freed too. -/
  | tubFree (agent : BitVec 6) (handle : Word) (chain : Bool)
  /-- TUB_HAND_OVER (R309): the first tub of a frame and the receiving agent. -/
  | tubHandOver (handle : Word) (agent : BitVec 6)
  /-- RING_POST (R316). -/
  | ringPost (ring : Fin 8) (handle : Word)
  /-- RING_FILL (R316): the producer and the frame it fills posted tubs with. -/
  | ringFill (ring : Fin 8) (producer : BitVec 6) (frame : Bytes)
  /-- SPILL (R319). -/
  | spill (queue : QueueRef)
  /-- REFILL (R319). -/
  | refill (queue : QueueRef)
  /-- WND_DOORBELL (R333): the channel, and the 64-bit writes (address, value) its owner has made before it (R323,
  R332). -/
  | wndDoorbell (channel : Fin 64) (writes : List (BitVec 64 × BitVec 64))
  /-- WND_DESCRIPTOR_FETCH (R326). -/
  | wndDescriptorFetch (channel : Fin 64)
  /-- WND_DESCRIPTOR_COMPLETE (R328). -/
  | wndDescriptorComplete (channel : Fin 64)
  /-- WND_BURST (R330): the request lines as sampled. -/
  | wndBurst (req : BitVec 32)
  /-- EV_WND_ERROR (R331): the channel, and whether SRAM (rather than DRAM) reports the error. -/
  | evWndError (channel : Fin 64) (sram : Bool)
  /-- WND_CHANNEL_DISABLE (R333): EN written 0. -/
  | wndChannelDisable (channel : Fin 64)
  /-- PORT_MODE_WRITE (R339): a write of PORT_CFG. -/
  | portModeWrite (port : Fin 512) (value : Word)
  /-- MAC_RX_FRAME (R341): the frame from its destination address through its FCS (none: the next one a loopback returns,
  R377), whether a PCS error lies in it, and the RS-FEC codewords corrected and uncorrectable since the last one. -/
  | macRxFrame (port : Fin 512) (frame : Option Bytes) (codeErr : Bool) (fecCorr fecUncorr : Nat)
  /-- LINK_UP (R345). -/
  | linkUp (port : Fin 512)
  /-- LINK_DOWN (R345). -/
  | linkDown (port : Fin 512)
  /-- LPI_ENTER (R349). -/
  | lpiEnter (port : Fin 512)
  /-- LPI_EXIT (R351). -/
  | lpiExit (port : Fin 512)
  /-- LLDP_SEND (R350). -/
  | lldpSend (port : Fin 512)
  /-- LLDP_RECEIVE (R352): the Receive Tw of the EEE TLV, if the LLDPDU carries one. -/
  | lldpReceive (port : Fin 512) (rxTw : Option (BitVec 16))
  /-- LLDP_TTL_EXPIRY (R350). -/
  | lldpTtlExpiry (port : Fin 512)
  /-- MDIO_ADDRESS (R354): the write that starts it, or the next command the bus takes. -/
  | mdioAddress (bus : Fin 8) (start : Option MdioStart)
  /-- MDIO_WRITE (R354). -/
  | mdioWrite (bus : Fin 8) (start : Option MdioStart)
  /-- MDIO_READ (R356): what the PHY answers; none where it does not drive the turnaround. -/
  | mdioRead (bus : Fin 8) (start : Option MdioStart) (answer : Option (BitVec 16))
  /-- MDIO_READ_INCREMENT (R354). -/
  | mdioReadIncrement (bus : Fin 8) (start : Option MdioStart) (answer : Option (BitVec 16))
  /-- MDIO_ADDRESS_WRITE (R355). -/
  | mdioAddressWrite (bus : Fin 8) (start : Option MdioStart)
  /-- MDIO_ADDRESS_READ (R355). -/
  | mdioAddressRead (bus : Fin 8) (start : Option MdioStart) (answer : Option (BitVec 16))
  /-- PARTNER_LPI (R351): whether the partner enters or leaves LPI. -/
  | partnerLpi (port : Fin 512) (enter : Bool)
  /-- LOCAL_FAULT (R346): whether it is the remote fault, and whether it is present. -/
  | localFault (port : Fin 512) (remote present : Bool)
  /-- LANE_TRAIN (R365). -/
  | laneTrain (lane : Fin 532)
  /-- RETRAIN_WINDOW (R366). -/
  | retrainWindow
  /-- LANE_WAKE (R369): whether the receiver detects energy. -/
  | laneWake (lane : Fin 532) (energy : Bool)
  /-- LANE_NO_ENERGY (R368): whether a wake falls in the same cycle (R385). -/
  | laneNoEnergy (lane : Fin 532) (wake : Bool)
  /-- SLIP (R372): the value written to LANE_ALIGN. -/
  | slip (lane : Fin 532) (value : Word)
  /-- EYE_SCAN_START (R373): the value written to LANE_EYE_CTRL. -/
  | eyeScanStart (lane : Fin 532) (value : Word)
  /-- EYE_SCAN_DONE (R373): the disagreements counted. -/
  | eyeScanDone (lane : Fin 532) (errors : Nat)
  /-- LANE_CFG_WRITE (R375): the value written to LANE_CFG. -/
  | laneCfgWrite (lane : Fin 532) (value : Word)
  /-- RECEIVER_DETECT (R378): whether a far-end termination is found. -/
  | receiverDetect (lane : Fin 532) (found : Bool)
  /-- EV_LANE_SHORT (R379). -/
  | evLaneShort (lane : Fin 532)
  /-- SHORT_RETRY (R379): whether the limit is reached again. -/
  | shortRetry (lane : Fin 532) (limited : Bool)
  /-- LANE_RETIRE (R381): whether a lasting fault is declared (otherwise its bit is written 1). -/
  | laneRetire (lane : Fin 532) (declared : Bool)
  /-- LANE_UNRETIRE (R383). -/
  | laneUnretire (lane : Fin 532)
  /-- PRBS_CHECKER_LOCK (R374): the bits the checker has checked and the errors among them since it was last heard of. -/
  | prbsCheckerLock (lane : Fin 532) (bits errors : Nat)
  /-- PRBS_CHECKER_LOCK_LOSS (R374): the same, up to the loss. -/
  | prbsCheckerLockLoss (lane : Fin 532) (bits errors : Nat)
  /-- TIME_INC_WRITE (R387): a write of TIME_INC_HI. -/
  | timeIncWrite (src : Source) (value : Word)
  /-- OWNER_CHANGE (R388): a write of TIME_CTRL. -/
  | ownerChange (src : Source) (value : Word)
  /-- TIME_NOW_READ (R389): a read of TIME_NOW_NS. -/
  | timeNowRead (src : Source)
  /-- TIME_ADJ (R398): a write of TIME_ADJ_NS. -/
  | timeAdj (src : Source) (value : Word)
  /-- HOLDOVER_ENTER (R399). -/
  | holdoverEnter
  /-- PTP_MESSAGE (R393): the local port and the message. -/
  | ptpMessage (port : Fin 512) (m : PtpMessage)
  /-- PPS_IN_EDGE (R395): whether the edge rises. -/
  | ppsInEdge (rising : Bool)
  /-- PPS_OUT_PULSE (R396): whether PPS_OUT rises (at a whole second) or falls. -/
  | ppsOutPulse (rise : Bool)
  /-- CANARY_RUN (R409). -/
  | canaryRun
  /-- EV_CANARY (R412): what the optic check found. -/
  | evCanary (optic : CanaryOptic)
  /-- CANARY_ABORT (R414). -/
  | canaryAbort
  /-- SEAM_ELIGIBLE (R415). -/
  | seamEligible (seam : Fin 4)
  /-- SIDE_FAILED (R415): a failed seam has stayed failed for HOLD_MS. -/
  | sideFailed
  /-- MANUAL (R417): PROT_CMD is written with CMD 1. -/
  | manual
  /-- FORCED (R417): CMD 2. -/
  | forced
  /-- LOCKOUT (R417): CMD 3. -/
  | lockout
  /-- CLEAR (R417): CMD 4. -/
  | clear
  /-- PROTECTION_SWITCH (R419). -/
  | protectionSwitch
  /-- EV_PROT_SWITCH (R419). -/
  | evProtSwitch
  /-- EV_PROT_SWITCH_FAIL (R420). -/
  | evProtSwitchFail
  /-- WAIT_TO_RESTORE_EXPIRY (R422). -/
  | waitToRestoreExpiry
  /-- OPROOT_COMMIT (R423). -/
  | oprootCommit
  /-- KEY_DERIVED (R429). -/
  | keyDerived
  /-- KEY_RETIRE (R434). -/
  | keyRetire (ident : Fin 128)
  /-- UNWRAP (R443): the value written to CIPH_UNWRAP_CMD, and whether the keep fails to write the key. -/
  | unwrap (value : Word) (keepFails : Bool)
  /-- ERASE (R443). -/
  | erase (value : Word)
  /-- REKEY (R440). -/
  | rekey
  /-- LADDER_ENTRY (R459): an entry to the target state of R446, where that is deeper than the present one. -/
  | ladderEntry
  /-- LADDER_EXIT (R447): an exit to the target state, where that is shallower. -/
  | ladderExit
  /-- WAKE_N (R449). -/
  | wakeN
  /-- WAKE_TIMER_EXPIRY (R449). -/
  | wakeTimerExpiry
  /-- WAKE (R449): the wake source and the domain it wakes, if it wakes one. -/
  | wake (source : Fin 8) (domain : Option (Fin 23))
  /-- DOMAIN_ACCESS_WAKE (R457): the domain and the access that stalls. -/
  | domainAccessWake (domain : Fin 23) (src : Source) (addr : Word) (write : Option Word)
  /-- EV_PWR_WAKE_FAIL (R457). -/
  | evPwrWakeFail (domain : Fin 23)
  /-- DOMAIN_DROP (R456): the domain, and a vote placed in the same cycle. -/
  | domainDrop (domain : Fin 23) (votePlaced : Bool)
  /-- HOST_VOTE_WRITE (R405): the value written to PWR_VOTE_0. -/
  | hostVoteWrite (src : Source) (value : Word)
  /-- L4_OVERTEMP (R448): the case temperature. -/
  | l4Overtemp (caseTemp : Int)
  /-- SHED_END (R468). -/
  | shedEnd
  /-- EV_FIREDAMP (R471): two consecutive sets of samples of the 16 junction sensors, 10 µs apart (R470). -/
  | evFiredamp (first second : List Int)
  /-- FIREDAMP_CLEAR (R472): the highest sensor reading of the last RESUME_S seconds. -/
  | firedampClear (highest : Int)
  /-- PW_WRITE (R477): a write of a register coded PW. -/
  | pwWrite (src : Source) (addr value : Word)
  /-- KEEP_MOUNT (R478): entry copies found torn, by die and entry: their write was not
  verified when keep power was lost; and whether the newest record was torn so. -/
  | keepMount (torn : List (Fin 2 × Fin 4096)) (tornRecord : Bool)
  /-- SCRUB (R481): what the read of the unit finds on the die. -/
  | scrub (die : Fin 2) (uncorrectable : Bool) (otherBad : Bool) (writePending : Bool)
  /-- EV_KEEP_REMAP (R482): the die, the failed unit, and whether the other die's copy of it is also bad. -/
  | evKeepRemap (die : Fin 2) (unit : Fin 32768) (otherBad : Bool)
  /-- RECORD_EVENT (R488): the event code, the source (0 hardware, 1 supervisor, 2 boot ROM) and the payload. -/
  | recordEvent (code : BitVec 16) (source : Fin 3) (payload : Bytes)
  /-- ASSAY_RUN (R493): whether a run is due by time (or asked for by RUN). -/
  | assayRun (requested : Bool)
  /-- EV_ASSAY_RESULT (R495): the run's measurements. -/
  | evAssayResult (m : AssayMeasure)
  /-- SLACK_SAMPLE (R497): S in tenths of a picosecond. -/
  | slackSample (slack : Int)
  /-- HOUR_COUNT (R501): the hour's highest case temperature. -/
  | hourCount (caseTemp : Int)
  /-- FAULT_EVENT (R503): the source and the instance. -/
  | faultEvent (source : FaultSource) (inst : BitVec 16)
  /-- BANK_REMAP (R505): the SRAM bank whose tubs are all free. -/
  | bankRemap (bank : Fin 384)
  /-- CHAIN_FRAME_RECEIVE (R515): the port it arrives on (0 east, 1 west) and its bytes, CRC included. -/
  | chainFrameReceive (port : Fin 2) (frame : Bytes)
  /-- READ (R521): a READ consumed. -/
  | read (src : Fin 64) (tag : BitVec 16) (addr : Word)
  /-- WRITE (R521): a WRITE consumed. -/
  | write (src : Fin 64) (tag : BitVec 16) (addr data : Word)
  /-- POSTED (R519): a POSTED consumed, or acted on as a broadcast. -/
  | posted (addr data : Word)
  /-- READ_RESP (R520): at the banksman. -/
  | readResp (src : Fin 64) (tag : BitVec 16) (data : Word) (status : BitVec 8)
  /-- WRITE_RESP (R520). -/
  | writeResp (src : Fin 64) (tag : BitVec 16) (status : BitVec 8)
  /-- HOST_REQUEST_TIMEOUT (R520): of the request to a member. -/
  | hostRequestTimeout (member : Fin 64)
  /-- BAR0_ACCESS (R519): the access, of how many bytes. -/
  | bar0Access (a : Bar0Access) (bytes : Nat)
  /-- BAR2_WRITE (R518). -/
  | bar2Write (addr : BitVec 25) (value : Word) (bytes : Nat)
  /-- EVENT_FWD (R522): a record forwarded by a member, at the banksman. -/
  | eventFwd (src : Fin 64) (gap : Bool) (record : Bytes)
  /-- EXC_FWD (R522). -/
  | excFwd (src : Fin 64) (record : Bytes)
  /-- RECORD_FORWARD (R525). -/
  | recordForward
  /-- TIME (R523): a TIME frame received (its SRC and payload); none where the second has elapsed and one is sent. -/
  | time (received : Option (Fin 64 × Bytes))
  /-- BANKSMAN_UNREACHABLE (R524). -/
  | banksmanUnreachable
  /-- ALERT (R526): an ALERT received (its SRC and CAUSE), at the banksman; none where the member's own masked causes have changed
  or the second has elapsed. -/
  | alert (received : Option (Fin 64 × Word))
  /-- KEEPALIVE (R513). -/
  | keepalive (port : Fin 2)
  /-- EV_CHAIN_PORT (R513): the port has had HOLD_MS of good frames (`up`), or a gap or a loss of block lock ends its
  service. -/
  | evChainPort (port : Fin 2) (up : Bool)
  /-- WAKE_E (R528). -/
  | wakeE
  /-- WAKE_W (R528). -/
  | wakeW
  /-- HOST_LINK_UP (R517): the speed (1 to 4) and the lanes in use. -/
  | hostLinkUp (speed : BitVec 3) (width : BitVec 4)
  /-- EV_HOST_LINK (R529): the link goes down. -/
  | evHostLink
  /-- LAND_READBACK (R543): the output by its bit of GEN_LAND_SHORT, and whether it reads back as driven. -/
  | landReadback (output : Fin 27) (agrees : Bool)
  /-- LAND_SHORT_RETRY (R543): the four readbacks of the 10 µs. -/
  | landShortRetry (output : Fin 27) (readbacks : List Bool)
  /-- OPTIC_INSERT (R550): the side, and what CMIS shows. -/
  | opticInsert (side : Fin 2) (cmis : CmisData)
  /-- OPTIC_REMOVE (R550). -/
  | opticRemove (side : Fin 2)
  /-- CMIS_POLL (R549): the side, whether INT_N is low, and the lane powers and biases of Page 11h. -/
  | cmisPoll (side : Fin 2) (intLow : Bool) (txPower bias : List Nat)
  /-- CMIS_TIMEOUT (R550). -/
  | cmisTimeout (side : Fin 2)
  /-- LED_FRAME (R554). -/
  | ledFrame
  /-- PERST_N (R553): the level. -/
  | perstN (low : Bool)
  /-- VIO_READY (R538). -/
  | vioReady
  /-- POWER_TRANSITION_COMPLETE (R461): the domain whose transition completes; none for the ladder's. -/
  | powerTransitionComplete (domain : Option (Fin 23))
  /-- PTP_SYNC_INTERVAL (R393): the port, and whether the Announce interval (rather than the Sync interval) elapses. -/
  | ptpSyncInterval (port : Fin 512) (announce : Bool)
  deriving DecidableEq, Repr

end Sys2Proof
end

