-- ==== Sys2Proof/Decode.lean ====
section
/-! DEFINITION. The reader of commands from bits. The opcode table gives no row any bits: the terminal has no instruction
words, and its commands are accesses, frames, messages, pin levels and times (log entry 1). -/
namespace Sys2Proof

/-- The command a word of `nbits` bits spells by the table's bits: none, for no row of the table gives bits. -/
def decodeTableWord (_nbits _w : Nat) : Option Instr := none

end Sys2Proof
end

