-- ==== Sys2Proof/Machine/Flags.lean ====
section
/-! DEFINITION. Bit fields, big-endian byte strings, saturating counts and serial-number arithmetic: the computations the
register tables and message layouts of the spec rest on (R4, R5, R6). -/
namespace Sys2Proof.Machine

/-- Bits `hi` to `lo` of a word (R4). -/
def fld (w : Word) (hi lo : Nat) : Nat := (w.toNat / 2 ^ lo) % 2 ^ (hi + 1 - lo)

/-- Bit `i` of a word. -/
def bitOf (w : Word) (i : Nat) : Bool := w.toNat / 2 ^ i % 2 == 1

/-- The mask of bits `hi` to `lo`. -/
def maskOf (hi lo : Nat) : Word := BitVec.ofNat 32 (2 ^ (hi + 1) - 2 ^ lo)

/-- A word whose bits `hi` to `lo` are replaced by the low bits of `v`. -/
def putFld (w : Word) (hi lo v : Nat) : Word :=
  (w &&& ~~~ maskOf hi lo) ||| (BitVec.ofNat 32 ((v % 2 ^ (hi + 1 - lo)) * 2 ^ lo))

/-- One as a bit of a number. -/
def b2n (b : Bool) : Nat := if b then 1 else 0

/-- `v` as the field of a word from bit `lo` on. -/
def at' (lo v : Nat) : Nat := v * 2 ^ lo

/-- A word from a sum of fields. -/
def word (n : Nat) : Word := BitVec.ofNat 32 n

/-- The most significant byte first (R5): `v` in `n` bytes. -/
def beBytes : Nat → Nat → Bytes
  | 0, _ => []
  | n + 1, v => BitVec.ofNat 8 (v / 256 ^ n) :: beBytes n v

/-- The number a byte string spells, most significant byte first. -/
def beNat (b : Bytes) : Nat := b.foldl (fun a x => a * 256 + x.toNat) 0

/-- Two's complement of `v` in `n` bits, as a number. -/
def twos (n : Nat) (v : Int) : Nat := (v % (2 ^ n : Int)).toNat

/-- The signed value of the `n`-bit two's complement number `v`. -/
def signed (n v : Nat) : Int := if v < 2 ^ (n - 1) then (v : Int) else (v : Int) - 2 ^ n

/-- `v` clipped to the signed range of `n` bits. -/
def clipSigned (n : Nat) (v : Int) : Int :=
  if v < -(2 ^ (n - 1) : Int) then -(2 ^ (n - 1) : Int)
  else if v > (2 ^ (n - 1) : Int) - 1 then (2 ^ (n - 1) : Int) - 1 else v

/-- Bytes `i` to `i + n - 1` of a string. -/
def slice (b : Bytes) (i n : Nat) : Bytes := (b.drop i).take n

/-- The big-endian field of `n` bytes at byte offset `i`. -/
def beAt (b : Bytes) (i n : Nat) : Nat := beNat (slice b i n)

/-- Zero bytes. -/
def zeros (n : Nat) : Bytes := List.replicate n 0

/-- A 32-bit counter after `n` more events: it saturates at 0xFFFF_FFFF. -/
def satAdd (w : Word) (n : Nat) : Word :=
  if w.toNat + n < 2 ^ 32 then BitVec.ofNat 32 (w.toNat + n) else BitVec.allOnes 32

/-- `v` kept below `2 ^ n` by saturation. -/
def satTo (n v : Nat) : Nat := if v < 2 ^ n then v else 2 ^ n - 1

/-- Serial-number arithmetic of RFC 1982 in `n` bits (R6): whether `a` is below `b`. A value exactly half the number
space away counts as below. -/
def serialBelow (n a b : Nat) : Bool :=
  let d := (b + 2 ^ n - a % 2 ^ n) % 2 ^ n
  d != 0 && d ≤ 2 ^ (n - 1)

/-- The bits of a byte, most significant first. -/
def byteBits (b : Byte) : List Bool := [b.getLsbD 7, b.getLsbD 6, b.getLsbD 5, b.getLsbD 4, b.getLsbD 3, b.getLsbD 2,
  b.getLsbD 1, b.getLsbD 0]

/-- The bits of a byte string in the order they are transmitted (R5). -/
def bitsOf (b : Bytes) : List Bool := b.flatMap byteBits

/-- The number a bit string spells, first bit most significant. -/
def bitsNat (b : List Bool) : Nat := b.foldl (fun a x => 2 * a + b2n x) 0

/-- `v` as `n` bits, most significant first. -/
def natBits : Nat → Nat → List Bool
  | 0, _ => []
  | n + 1, v => (v / 2 ^ n % 2 == 1) :: natBits n v

/-- Whole bytes from a bit string; an incomplete byte at the end is dropped. -/
def packBits : List Bool → Bytes
  | a :: b :: c :: d :: e :: f :: g :: h :: t => BitVec.ofNat 8 (bitsNat [a, b, c, d, e, f, g, h]) :: packBits t
  | _ => []

end Sys2Proof.Machine
end

