-- ==== Sys2Proof/Machine/Codes.lean ====
section
/-! DEFINITION. The cyclic redundancy codes the spec names, one shift register over the bits of a byte string. -/
namespace Sys2Proof.Machine

/-- One bit through the register of an `n`-bit code with generator `poly`, most significant bit first. -/
def crcBit (n poly r : Nat) (b : Bool) : Nat :=
  let top := r / 2 ^ (n - 1) % 2 == 1
  let r' := (2 * r) % 2 ^ n
  if top != b then r' ^^^ poly else r'

/-- The register after a bit string. -/
def crcBits (n poly init : Nat) (bs : List Bool) : Nat := bs.foldl (crcBit n poly) init

/-- A byte's bits, least significant first (the order a reflected code takes them in). -/
def byteBitsLsb (b : Byte) : List Bool := (byteBits b).reverse

/-- An `n`-bit number with its bits in the other order. -/
def reflect : Nat → Nat → Nat
  | 0, _ => 0
  | n + 1, v => (v % 2) * 2 ^ n + reflect n (v / 2)

/-- CRC-32C (R34): the Castagnoli polynomial 0x1EDC6F41, reflected, initial value 0xFFFF_FFFF, final inversion. -/
def crc32c (b : Bytes) : Word :=
  BitVec.ofNat 32 (reflect 32 (crcBits 32 0x1EDC6F41 0xFFFFFFFF (b.flatMap byteBitsLsb)) ^^^ 0xFFFFFFFF)

end Sys2Proof.Machine
end

