-- ==== Sys2Proof/Machine/Coding.lean ====
section
/-! DEFINITION. The line code of a seam: the Reed-Solomon code RS(544,514) over GF(2^10) (R74, R75, R84, R85), the
scrambler (R82, R86), the PAM4 mapping (R73) and the checks of headers and fragments (R78, R134). -/
namespace Sys2Proof.Machine

/-! ### The field GF(2^10), polynomial x^10 + x^3 + 1 (R74) -/

/-- Multiplication by alpha. -/
def gfTimesAlpha (a : Nat) : Nat := if a < 512 then 2 * a else (2 * a) ^^^ 0x409

/-- The product of two field elements, over the low `n` bits of the second. -/
def gfMulAux : Nat → Nat → Nat → Nat
  | 0, _, _ => 0
  | n + 1, a, b => (if b % 2 == 1 then a else 0) ^^^ gfMulAux n (gfTimesAlpha a) (b / 2)

/-- The product of two field elements. -/
def gfMul (a b : Nat) : Nat := gfMulAux 10 a b

/-- alpha to the power `n`. -/
def gfAlpha : Nat → Nat
  | 0 => 1
  | n + 1 => gfTimesAlpha (gfAlpha n)

/-- Square and multiply. -/
def gfPowAux : Nat → Nat → Nat → Nat
  | 0, _, _ => 1
  | k + 1, a, n => gfMul (if n % 2 == 1 then a else 1) (gfPowAux k (gfMul a a) (n / 2))

/-- The inverse of a non-zero element: its power 2^10 - 2. -/
def gfInv (a : Nat) : Nat := gfPowAux 10 a 1022

/-- A polynomial times (x + r), coefficients from the highest degree down. -/
def polyTimesRoot (p : List Nat) (r : Nat) : List Nat :=
  List.zipWith (fun a b => a ^^^ b) (p ++ [0]) (0 :: p.map (gfMul r))

/-- The generator: roots alpha^0 to alpha^29 (R74). -/
def rsGenerator : List Nat := (List.range 30).foldl (fun p i => polyTimesRoot p (gfAlpha i)) [1]

/-- One message symbol through the encoder's 30-symbol register. -/
def rsShift (g : List Nat) (r : List Nat) (m : Nat) : List Nat :=
  let f := m ^^^ r.headD 0
  List.zipWith (fun a c => a ^^^ gfMul f c) (r.drop 1 ++ [0]) g

/-- The 30 parity symbols of a message; a shortened codeword's leading message symbols are zero and change nothing
(R84). -/
def rsParity (msg : List Nat) : List Nat := msg.foldl (rsShift (rsGenerator.drop 1)) (List.replicate 30 0)

/-- A codeword: the message symbols followed by the parity (R75). -/
def rsEncode (msg : List Nat) : List Nat := msg ++ rsParity msg

/-- The value of a polynomial (highest degree first) at `x`. -/
def polyEval (p : List Nat) (x : Nat) : Nat := p.foldl (fun acc c => gfMul acc x ^^^ c) 0

/-- The 30 syndromes of a received word. -/
def rsSyndromes (w : List Nat) : List Nat := (List.range 30).map (fun i => polyEval w (gfAlpha i))

/-- Coefficient `i` of a polynomial, lowest degree first. -/
def coef (p : List Nat) (i : Nat) : Nat := p.getD i 0

/-- Sum of two polynomials, lowest degree first. -/
def polyAdd : List Nat → List Nat → List Nat
  | [], q => q
  | p, [] => p
  | a :: p, b :: q => (a ^^^ b) :: polyAdd p q

/-- A polynomial times a constant. -/
def polyScale (c : Nat) (p : List Nat) : List Nat := p.map (gfMul c)

/-- The state of the Berlekamp-Massey iteration: the locator, the previous one, its length, the shift since it last
changed, and its discrepancy. -/
structure BmState where
  c : List Nat
  b : List Nat
  l : Nat
  m : Nat
  d : Nat

/-- The discrepancy of the locator at syndrome `n`. -/
def bmDiscrepancy (syn c : List Nat) (l n : Nat) : Nat :=
  (List.range (l + 1)).foldl (fun acc i => acc ^^^ gfMul (coef c i) (coef syn (n - i))) 0

/-- One step of the iteration. -/
def bmStep (syn : List Nat) (t : BmState) (n : Nat) : BmState :=
  let d := bmDiscrepancy syn t.c t.l n
  if d = 0 then { t with m := t.m + 1 }
  else
    let c' := polyAdd t.c (List.replicate t.m 0 ++ polyScale (gfMul d (gfInv t.d)) t.b)
    if 2 * t.l ≤ n then { c := c', b := t.c, l := n + 1 - t.l, m := 1, d := d }
    else { t with c := c', m := t.m + 1 }

/-- The error locator of a received word. -/
def bmLocator (syn : List Nat) : BmState :=
  (List.range 30).foldl (bmStep syn) { c := [1], b := [1], l := 0, m := 1, d := 1 }

/-- The value of a polynomial, lowest degree first, at `x`. -/
def polyEvalLow (p : List Nat) (x : Nat) : Nat := polyEval p.reverse x

/-- The product of two polynomials up to degree 29, lowest degree first. -/
def polyMul30 (p q : List Nat) : List Nat :=
  (List.range 30).map (fun k => (List.range (k + 1)).foldl (fun acc i => acc ^^^ gfMul (coef p i) (coef q (k - i))) 0)

/-- The formal derivative over a field of characteristic 2. -/
def polyDeriv (p : List Nat) : List Nat := ((List.range (p.length - 1)).map (fun i => if i % 2 = 0 then coef p (i + 1) else 0))

/-- The error value at the symbol whose locator is alpha^`k` (Forney). -/
def errorValue (syn c : List Nat) (k : Nat) : Nat :=
  let xinv := gfInv (gfAlpha k)
  let omega := polyMul30 syn c
  gfMul (gfAlpha k) (gfMul (polyEvalLow omega xinv) (gfInv (polyEvalLow (polyDeriv c) xinv)))

/-- The word corrected at the symbols the locator names. -/
def rsCorrect (syn c w : List Nat) : List Nat × Nat :=
  let n := w.length
  let res := (w.zipIdx.map (fun x =>
    let k := n - 1 - x.2
    if polyEvalLow c (gfInv (gfAlpha k)) = 0 then (x.1 ^^^ errorValue syn c k, 1) else (x.1, 0)))
  (res.map Prod.fst, (res.map Prod.snd).sum)

/-- The bits in which two words differ. -/
def bitDiffs (a b : List Nat) : Nat :=
  ((List.zipWith (fun x y => ((natBits 10 (x ^^^ y)).filter id).length) a b)).sum

/-- The decoder (R75): the message symbols and the number of bits corrected, where at most 15 symbols are in error; none
for an uncorrectable codeword. -/
def rsDecode (w : List Nat) : Option (List Nat × Nat) :=
  let syn := rsSyndromes w
  if syn.all (· == 0) then some (w.take (w.length - 30), 0)
  else
    let t := bmLocator syn
    if t.l > 15 then none
    else
      let (w', k) := rsCorrect syn t.c w
      if k = t.l ∧ (rsSyndromes w').all (· == 0) then some (w'.take (w.length - 30), bitDiffs w w') else none

/-- The symbols of a message of whole bits, most significant bit first, padded with zero bits. -/
def symbolsOf : Nat → List Bool → List Nat
  | 0, _ => []
  | n + 1, bs => bitsNat ((bs.take 10) ++ List.replicate (10 - (bs.take 10).length) false) :: symbolsOf n (bs.drop 10)

/-- The bits of symbols, each most significant bit first (R75). -/
def symbolBits (w : List Nat) : List Bool := w.flatMap (natBits 10)

/-! ### Scrambling (R82, R86) -/

/-- The scrambler from state `s` over message bits; the same operation descrambles. -/
def scrambleFrom : Nat → List Bool → List Bool
  | _, [] => []
  | s, d :: ds =>
    let o := (s / 2 ^ 57 % 2 == 1) != (s / 2 ^ 38 % 2 == 1)
    (d != o) :: scrambleFrom ((2 * s + b2n o) % 2 ^ 58) ds

/-- The downstream seed of a frame. -/
def downSeed (fc : BitVec 48) (seam : Nat) : Nat := fc.toNat * 1024 ||| seam * 256 ||| 0xA5

/-- The upstream seed of a burst (R86). -/
def upSeed (fc : BitVec 48) (seam : Nat) : Nat := fc.toNat * 1024 ||| seam * 256 ||| 0x5A

/-! ### PAM4 (R73) -/

/-- The level of a pair of bits, the first the more significant, by Gray code: -3, -1, +1, +3. -/
def pam4 (a b : Bool) : Int :=
  match a, b with
  | false, false => -3
  | false, true => -1
  | true, true => 1
  | true, false => 3

/-- The levels of a bit string. -/
def pam4Levels : List Bool → List Int
  | a :: b :: t => pam4 a b :: pam4Levels t
  | _ => []

/-! ### Checks -/

/-- HCRC (R78): polynomial 0x1021, initial value 0xFFFF. -/
def crc16 (b : Bytes) : Nat := crcBits 16 0x1021 0xFFFF (bitsOf b)

/-- HEC (R134): CRC-8, polynomial 0x07, initial 0. -/
def crc8 (b : Bytes) : Nat := crcBits 8 0x07 0 (bitsOf b)

/-- The frame sync word (R76). -/
def syncWord : Nat := 0xB6AB31E05C4F9D27

/-- The raw bit differences of the first 64 bits of a codeword from the sync word (R87). -/
def syncDiffs (w : List Nat) : Nat :=
  (List.zipWith (fun a b => b2n (a != b)) ((symbolBits (w.take 7)).take 64) (natBits 64 syncWord)).sum

end Sys2Proof.Machine
end

