-- ==== Sys2Proof/Machine/RegMap.lean ====
section
/-! DEFINITION. The register map of the terminal: the address of every register (R7), its value before the image's
records (the Reset column, R11), the bits each access code covers (R12) and the field values a write ignores.
The names are the manual's register names. -/
namespace Sys2Proof.Machine

/-- What a read does beside returning the value: `plain` nothing; `rc` clears it (R12); `low1` is the low word of a
64-bit counter coded RC and LR (R14); `low0` the low word of an LR group that a read does not clear; `high` returns the
latch of its source (R15); `pw` is held in the keep (R476); `perSource` is held once per access source (R492). -/
inductive RegKind where
  | plain | rc | low1 | low0 | high | pw | perSource
  deriving DecidableEq, Repr

/-- A field whose written values outside `min` to `max` are ignored, the old value being kept. -/
structure FieldLimit where
  hi : Nat
  lo : Nat
  min : Nat
  max : Nat
  deriving DecidableEq, Repr

/-- One row of a register table: `n1` registers `s1` apart (0: a single one), each of `n2` registers `s2` apart
(0: no second index); the Reset column; the masks of the bits each access code covers. -/
structure RegRow where
  name : String
  base : Nat
  n1 : Nat
  s1 : Nat
  n2 : Nat
  s2 : Nat
  reset : Nat
  rw : Nat
  ro : Nat
  rc : Nat
  w1c : Nat
  w1s : Nat
  wo : Nat
  pw : Nat
  lr : Nat
  kind : RegKind
  lims : List FieldLimit
  deriving DecidableEq, Repr

-- The register addresses, under the register names of the manual.
namespace Reg

def GEN_TICK_STATUS : Nat := 0x100
def GEN_TICK_OVERRUN : Nat := 0x104
def GEN_TICK_COUNT_LO : Nat := 0x108
def GEN_TICK_COUNT_HI : Nat := 0x10C
def GEN_TICK_OVR_CNT (i : Nat) : Nat := 0x110 + 0x4 * i
def GEN_RESET_CAUSE : Nat := 0x200
def GEN_RESET_CMD : Nat := 0x204
def GEN_DOMAIN_RESET : Nat := 0x208
def GEN_WDOG_CTRL : Nat := 0x20C
def GEN_BOOT_STATUS : Nat := 0x210
def GEN_BOOT_CTRL : Nat := 0x214
def GEN_VIN_STATUS : Nat := 0x220
def CNT_DIP_FRAMES_LOST_LO : Nat := 0x228
def CNT_DIP_FRAMES_LOST_HI : Nat := 0x22C
def CNT_VIN_WARN_REPEAT : Nat := 0x230
def CNT_RESET_MERGED : Nat := 0x234
def CNT_RESET_CMD_BAD : Nat := 0x238
def GEN_REFCLK_STATUS : Nat := 0x300
def GEN_REFCLK_PPM (i : Nat) : Nat := 0x304 + 0x4 * i
def GEN_OPTIC (i : Nat) : Nat := 0x320 + 0x4 * i
def CNT_OPTIC_TIMEOUT (i : Nat) : Nat := 0x328 + 0x4 * i
def GEN_LED_CFG : Nat := 0x330
def GEN_LAND_SHORT : Nat := 0x340
def CNT_LAND_SHORT : Nat := 0x344
def IMG_ACTIVE : Nat := 0x10000
def IMG_FW_VERSION : Nat := 0x10004
def IMG_A_STATUS : Nat := 0x10008
def IMG_B_STATUS : Nat := 0x1000C
def IMG_MIN_GEN : Nat := 0x10010
def CNT_IMG_REC_SKIPPED : Nat := 0x10014
def LINE_CTRL (i j : Nat) : Nat := 0x100000 + 0x40000 * i + 0x10000 * j
def LINE_HEID_EXP (i j : Nat) : Nat := 0x100004 + 0x40000 * i + 0x10000 * j
def LINE_SD_SET (i j : Nat) : Nat := 0x100008 + 0x40000 * i + 0x10000 * j
def LINE_SD_CLR (i j : Nat) : Nat := 0x10000C + 0x40000 * i + 0x10000 * j
def LINE_SF_CTRL (i j : Nat) : Nat := 0x100010 + 0x40000 * i + 0x10000 * j
def LINE_STATUS (i j : Nat) : Nat := 0x100020 + 0x40000 * i + 0x10000 * j
def LINE_DEFECT (i j : Nat) : Nat := 0x100024 + 0x40000 * i + 0x10000 * j
def LINE_FC_LO (i j : Nat) : Nat := 0x100028 + 0x40000 * i + 0x10000 * j
def LINE_FC_HI (i j : Nat) : Nat := 0x10002C + 0x40000 * i + 0x10000 * j
def LINE_HEID (i j : Nat) : Nat := 0x100030 + 0x40000 * i + 0x10000 * j
def LINE_REI_LAST (i j : Nat) : Nat := 0x100034 + 0x40000 * i + 0x10000 * j
def LINE_BER_LAST (i j : Nat) : Nat := 0x100038 + 0x40000 * i + 0x10000 * j
def CNT_CW_CORR_LO (i j : Nat) : Nat := 0x100040 + 0x40000 * i + 0x10000 * j
def CNT_CW_CORR_HI (i j : Nat) : Nat := 0x100044 + 0x40000 * i + 0x10000 * j
def CNT_CW_UNCORR_LO (i j : Nat) : Nat := 0x100048 + 0x40000 * i + 0x10000 * j
def CNT_CW_UNCORR_HI (i j : Nat) : Nat := 0x10004C + 0x40000 * i + 0x10000 * j
def CNT_BITS_CORR_LO (i j : Nat) : Nat := 0x100050 + 0x40000 * i + 0x10000 * j
def CNT_BITS_CORR_HI (i j : Nat) : Nat := 0x100054 + 0x40000 * i + 0x10000 * j
def CNT_HDR_CRC_ERR (i j : Nat) : Nat := 0x100060 + 0x40000 * i + 0x10000 * j
def CNT_FC_MISMATCH (i j : Nat) : Nat := 0x100064 + 0x40000 * i + 0x10000 * j
def CNT_SHIFT_LOST (i j : Nat) : Nat := 0x100068 + 0x40000 * i + 0x10000 * j
def CNT_ALIGN_CAND_FULL (i j : Nat) : Nat := 0x10006C + 0x40000 * i + 0x10000 * j
def CNT_ALIGN_AMBIGUOUS (i j : Nat) : Nat := 0x100070 + 0x40000 * i + 0x10000 * j
def CNT_ALIGN_FC_REJECT (i j : Nat) : Nat := 0x100074 + 0x40000 * i + 0x10000 * j
def CNT_HEID_MISMATCH (i j : Nat) : Nat := 0x100078 + 0x40000 * i + 0x10000 * j
def CNT_LOF_ENTRY (i j : Nat) : Nat := 0x10007C + 0x40000 * i + 0x10000 * j
def JOIN_CTRL : Nat := 0x200000
def JOIN_BE (i : Nat) : Nat := 0x200010 + 0x4 * i
def JOIN_EQD (i : Nat) : Nat := 0x200020 + 0x4 * i
def JOIN_SERIAL_LO : Nat := 0x200030
def JOIN_SERIAL_HI : Nat := 0x200034
def CNT_GRANT_MISSED : Nat := 0x200040
def CNT_PLAN_BAD : Nat := 0x200044
def CNT_LMM_BAD : Nat := 0x200048
def CNT_LMM_UNKNOWN : Nat := 0x20004C
def CNT_LMM_REJECT : Nat := 0x200050
def CNT_BOND_VOID : Nat := 0x200054
def CNT_BOND_LATE : Nat := 0x200058
def CNT_KEY_NOT_READY : Nat := 0x20005C
def CNT_GRANT_OFFSEAM : Nat := 0x200060
def CNT_FRAG_HEC_ERR : Nat := 0x200064
def CNT_DOZE_ABORT : Nat := 0x200068
def CNT_ALLOC_FLUSH : Nat := 0x20006C
def JOIN_PROF_CTRL (i j : Nat) : Nat := 0x200100 + 0x80 * i + 0x10 * j
def JOIN_PROF_PATTERN (i j : Nat) : Nat := 0x200104 + 0x80 * i + 0x10 * j
def JOIN_PROF_DELIM_HI (i j : Nat) : Nat := 0x200108 + 0x80 * i + 0x10 * j
def JOIN_PROF_DELIM_LO (i j : Nat) : Nat := 0x20010C + 0x80 * i + 0x10 * j
def JOIN_ID_CFG (i : Nat) : Nat := 0x201000 + 0x10 * i
def JOIN_ID_STATUS (i : Nat) : Nat := 0x201004 + 0x10 * i
def JOIN_ID_SAVED (i : Nat) : Nat := 0x201008 + 0x10 * i
def JOIN_ALLOC (i : Nat) : Nat := 0x202000 + 0x4 * i
def CIRC_CTRL : Nat := 0x300000
def CIRC_LOP_SUM (i : Nat) : Nat := 0x300010 + 0x4 * i
def CIRC_CFG (i : Nat) : Nat := 0x301000 + 0x40 * i
def CIRC_PORT (i : Nat) : Nat := 0x301004 + 0x40 * i
def CIRC_DEMUX (i : Nat) : Nat := 0x301008 + 0x40 * i
def CIRC_DS_OFF (i : Nat) : Nat := 0x30100C + 0x40 * i
def CIRC_STATUS (i : Nat) : Nat := 0x301010 + 0x40 * i
def CIRC_FILL (i : Nat) : Nat := 0x301014 + 0x40 * i
def CNT_CIRC_PTR_INVALID (i : Nat) : Nat := 0x301018 + 0x40 * i
def CNT_CIRC_CONT_LOST (i : Nat) : Nat := 0x30101C + 0x40 * i
def CNT_CIRC_PKT_LOST (i : Nat) : Nat := 0x301020 + 0x40 * i
def CNT_CIRC_PKT_DISCARD (i : Nat) : Nat := 0x301024 + 0x40 * i
def CNT_CIRC_UNDERRUN (i : Nat) : Nat := 0x301028 + 0x40 * i
def CNT_CIRC_OVERRUN (i : Nat) : Nat := 0x30102C + 0x40 * i
def CNT_CIRC_US_MISSED (i : Nat) : Nat := 0x301030 + 0x40 * i
def CNT_CIRC_TICK_FILL (i : Nat) : Nat := 0x301034 + 0x40 * i
def CNT_CIRC_JUST_TX (i : Nat) : Nat := 0x301038 + 0x40 * i
def CNT_CIRC_JUST_RX (i : Nat) : Nat := 0x30103C + 0x40 * i
def CIRC_TPL (i j : Nat) : Nat := 0x340000 + 0x40 * i + 0x4 * j
def TALLY_CTRL : Nat := 0x400000
def TALLY_RTX : Nat := 0x400004
def TALLY_STALL : Nat := 0x400008
def TALLY_ACC_BUDGET : Nat := 0x40000C
def TALLY_RESERVE : Nat := 0x400010
def TALLY_NEXT_LO : Nat := 0x400014
def TALLY_NEXT_HI : Nat := 0x400018
def TALLY_JOURNAL : Nat := 0x40001C
def TALLY_JOURNAL_FREE : Nat := 0x400020
def CNT_TALLY_ACCEPT_LO : Nat := 0x400040
def CNT_TALLY_ACCEPT_HI : Nat := 0x400044
def CNT_TALLY_DS_ACCEPT_LO : Nat := 0x400048
def CNT_TALLY_DS_ACCEPT_HI : Nat := 0x40004C
def CNT_TALLY_CRC_ERR : Nat := 0x400060
def CNT_TALLY_MALFORMED : Nat := 0x400064
def CNT_TALLY_REFUSE_FULL : Nat := 0x400068
def CNT_TALLY_REFUSE_CLOSED : Nat := 0x40006C
def CNT_TALLY_REFUSE_DIP : Nat := 0x400070
def CNT_TALLY_REFUSE_GOV : Nat := 0x400074
def CNT_TALLY_REPEAT : Nat := 0x400078
def CNT_TALLY_SPLIT : Nat := 0x40007C
def CNT_TALLY_RTX_HE : Nat := 0x400080
def CNT_TALLY_RTX_LOCAL : Nat := 0x400084
def CNT_TALLY_DS_AHEAD : Nat := 0x400088
def CNT_TALLY_DS_DUP : Nat := 0x40008C
def CNT_TALLY_RECEIPT_STRAY : Nat := 0x400090
def CNT_TALLY_HE_REFUSE : Nat := 0x400094
def CNT_TALLY_SCAN_VOID : Nat := 0x400098
def CNT_TALLY_SCAN_REPAIR : Nat := 0x40009C
def CNT_TALLY_SCAN_LOST : Nat := 0x4000A0
def CNT_TALLY_JOURNAL_READ : Nat := 0x4000A4
def CNT_TALLY_CFG_BAD : Nat := 0x4000A8
def TALLY_FLOW_CFG (i : Nat) : Nat := 0x401000 + 0x10 * i
def TALLY_FLOW_STATUS (i : Nat) : Nat := 0x401004 + 0x10 * i
def TALLY_FLOW_NEXT (i : Nat) : Nat := 0x401008 + 0x10 * i
def TALLY_FLOW_OLDEST (i : Nat) : Nat := 0x40100C + 0x10 * i
def TALLY_EP_CFG (i : Nat) : Nat := 0x409000 + 0x4 * i
def TALLY_HE_CFG (i : Nat) : Nat := 0x409400 + 0x4 * i
def TALLY_EP_TPL (i j : Nat) : Nat := 0x410000 + 0x40 * i + 0x4 * j
def TALLY_HE_TPL (i j : Nat) : Nat := 0x414000 + 0x40 * i + 0x4 * j
def CLS_RULE_CMD (i : Nat) : Nat := 0x500000 + 0x40000 * i
def CLS_RULE_DATA (i j : Nat) : Nat := 0x500100 + 0x40000 * i + 0x4 * j
def CNT_CLS_PARSE_DEEP (i : Nat) : Nat := 0x500200 + 0x40000 * i
def CNT_CLS_MALFORMED (i : Nat) : Nat := 0x500204 + 0x40000 * i
def CNT_CLS_MALFORMED_LATE (i : Nat) : Nat := 0x500208 + 0x40000 * i
def CNT_CLS_NO_MATCH (i : Nat) : Nat := 0x50020C + 0x40000 * i
def CNT_CLS_DROP (i : Nat) : Nat := 0x500210 + 0x40000 * i
def CNT_CLS_EXC_RULE (i : Nat) : Nat := 0x500214 + 0x40000 * i
def CNT_CLS_MATCH_SKIP (i : Nat) : Nat := 0x500218 + 0x40000 * i
def CLS_RULE_HIT (i j : Nat) : Nat := 0x510000 + 0x40000 * i + 0x4 * j
def CLS_EXC_CTRL : Nat := 0x530000
def CLS_EXC_RATE : Nat := 0x530004
def CLS_EXC_DEPTH : Nat := 0x530008
def CLS_PARSE_CFG : Nat := 0x530020
def CLS_FDB_AGE : Nat := 0x530040
def CLS_FDB_CMD : Nat := 0x530044
def CLS_FDB_DATA (i : Nat) : Nat := 0x530048 + 0x4 * i
def CLS_FDB_COUNT : Nat := 0x530054
def CNT_EXC_OVER : Nat := 0x530010
def CNT_EXC_RING_FULL : Nat := 0x530014
def CNT_EXC_FWD : Nat := 0x530018
def CNT_EXC_SUP_DROP : Nat := 0x53001C
def CNT_FDB_FULL : Nat := 0x530060
def CNT_FDB_MOVE : Nat := 0x530064
def CNT_FDB_MOVE_STATIC : Nat := 0x530068
def CNT_BRIDGE_FILTER : Nat := 0x53006C
def CNT_BRIDGE_VLAN_DROP : Nat := 0x530070
def CNT_BIND_MISS : Nat := 0x530074
def CLS_VLAN_CMD : Nat := 0x530080
def CLS_VLAN_DATA (i : Nat) : Nat := 0x530100 + 0x4 * i
def CLS_VLAN_DATA_16 : Nat := 0x530140
def CLS_PORT_CFG (i : Nat) : Nat := 0x531000 + 0x4 * i
def CLS_ID_CFG (i : Nat) : Nat := 0x531800 + 0x4 * i
def CLS_ID_KMAP (i : Nat) : Nat := 0x531A00 + 0x4 * i
def SCHED_PLAN : Nat := 0x600000
def SCHED_PLAN_E : Nat := 0x600004
def SCHED_GCL_CMD : Nat := 0x600010
def SCHED_GCL_DATA0 : Nat := 0x600014
def SCHED_GCL_DATA1 : Nat := 0x600018
def SCHED_POL_CMD : Nat := 0x600020
def SCHED_POL_DATA (i : Nat) : Nat := 0x600024 + 0x4 * i
def CNT_SCHED_SHED_SKIP : Nat := 0x600044
def SCHED_POL_SRC (i : Nat) : Nat := 0x601000 + 0x4 * i
def SCHED_PORT_CFG (i : Nat) : Nat := 0x610000 + 0x200 * i
def SCHED_PORT_RATE (i : Nat) : Nat := 0x610004 + 0x200 * i
def SCHED_PORT_BURST (i : Nat) : Nat := 0x610008 + 0x200 * i
def SCHED_PORT_CREDIT (i : Nat) : Nat := 0x61000C + 0x200 * i
def SCHED_PORT_WCAP (i : Nat) : Nat := 0x610010 + 0x200 * i
def SCHED_PORT_PAUSE (i : Nat) : Nat := 0x610014 + 0x200 * i
def SCHED_GATE_CTRL (i : Nat) : Nat := 0x610020 + 0x200 * i
def SCHED_GATE_CYCLE (i : Nat) : Nat := 0x610024 + 0x200 * i
def SCHED_GATE_BASE_NS (i : Nat) : Nat := 0x610028 + 0x200 * i
def SCHED_GATE_BASE_SEC_LO (i : Nat) : Nat := 0x61002C + 0x200 * i
def SCHED_GATE_BASE_SEC_HI (i : Nat) : Nat := 0x610030 + 0x200 * i
def SCHED_GATE_STATUS (i : Nat) : Nat := 0x610034 + 0x200 * i
def SCHED_GATE_START_NS (i : Nat) : Nat := 0x610038 + 0x200 * i
def SCHED_GATE_START_SEC_LO (i : Nat) : Nat := 0x61003C + 0x200 * i
def SCHED_GATE_START_SEC_HI (i : Nat) : Nat := 0x610040 + 0x200 * i
def CNT_SCHED_GATE_HOLD (i : Nat) : Nat := 0x610060 + 0x200 * i
def CNT_SCHED_GATE_OVERRUN (i : Nat) : Nat := 0x610064 + 0x200 * i
def CNT_SCHED_GATE_CORR (i : Nat) : Nat := 0x610068 + 0x200 * i
def CNT_SCHED_PAUSE_RX (i : Nat) : Nat := 0x61006C + 0x200 * i
def CNT_SCHED_PFC_RX (i : Nat) : Nat := 0x610070 + 0x200 * i
def CNT_SCHED_PAUSE_IGN (i : Nat) : Nat := 0x610074 + 0x200 * i
def CNT_SCHED_LANE_PAUSE_DROP (i : Nat) : Nat := 0x610078 + 0x200 * i
def CNT_SCHED_DROP_YELLOW (i : Nat) : Nat := 0x61007C + 0x200 * i
def CNT_SCHED_DROP_RED (i : Nat) : Nat := 0x610080 + 0x200 * i
def CNT_SCHED_NOBUF (i : Nat) : Nat := 0x610084 + 0x200 * i
def SCHED_Q_CFG (i j : Nat) : Nat := 0x610100 + 0x200 * i + 0x20 * j
def SCHED_Q_RATE (i j : Nat) : Nat := 0x610104 + 0x200 * i + 0x20 * j
def SCHED_Q_BURST (i j : Nat) : Nat := 0x610108 + 0x200 * i + 0x20 * j
def SCHED_Q_LIMIT (i j : Nat) : Nat := 0x61010C + 0x200 * i + 0x20 * j
def SCHED_Q_RLIMIT (i j : Nat) : Nat := 0x610110 + 0x200 * i + 0x20 * j
def SCHED_Q_CREDIT (i j : Nat) : Nat := 0x610114 + 0x200 * i + 0x20 * j
def SCHED_Q_DEPTH (i j : Nat) : Nat := 0x610118 + 0x200 * i + 0x20 * j
def CNT_SCHED_Q_DROP (i j : Nat) : Nat := 0x61011C + 0x200 * i + 0x20 * j
def SCHED_AQ_CFG (i : Nat) : Nat := 0x660000 + 0x10 * i
def SCHED_AQ_BACKLOG (i : Nat) : Nat := 0x660004 + 0x10 * i
def CNT_AQ_DROP (i : Nat) : Nat := 0x660008 + 0x10 * i
def CNT_AQ_CAP_HOLD (i : Nat) : Nat := 0x66000C + 0x10 * i
def TUB_FLOOR_USED (i : Nat) : Nat := 0x700040 + 0x4 * i
def TUB_SHARED_SIZE : Nat := 0x700050
def TUB_SHARED_USED : Nat := 0x700054
def TUB_SPILL_CTRL : Nat := 0x700060
def TUB_DDR_STATUS : Nat := 0x700064
def TUB_DDR_HELD : Nat := 0x700068
def CNT_TUB_BAD_FREE : Nat := 0x700080
def CNT_TUB_RING_DRY : Nat := 0x700084
def CNT_TUB_SPILL_DENY : Nat := 0x700088
def CNT_TUB_DDR_LOST : Nat := 0x70008C
def CNT_TUB_CFG_BAD : Nat := 0x700090
def CNT_TUB_FLOOR_WAIT : Nat := 0x700094
def TUB_RING_CFG (i : Nat) : Nat := 0x700100 + 0x10 * i
def TUB_RING_BASE (i : Nat) : Nat := 0x700104 + 0x10 * i
def TUB_RING_POS (i : Nat) : Nat := 0x700108 + 0x10 * i
def WND_EVT_CFG (i : Nat) : Nat := 0x780000 + 0x4 * i
def WND_CH_CFG (i : Nat) : Nat := 0x781000 + 0x20 * i
def WND_CH_HEAD_LO (i : Nat) : Nat := 0x781004 + 0x20 * i
def WND_CH_HEAD_HI (i : Nat) : Nat := 0x781008 + 0x20 * i
def WND_CH_DOORBELL (i : Nat) : Nat := 0x78100C + 0x20 * i
def WND_CH_STATUS (i : Nat) : Nat := 0x781010 + 0x20 * i
def WND_CH_CUR_LO (i : Nat) : Nat := 0x781014 + 0x20 * i
def WND_CH_CUR_HI (i : Nat) : Nat := 0x781018 + 0x20 * i
def CNT_WND_ERR (i : Nat) : Nat := 0x78101C + 0x20 * i
def PORT_CFG (i : Nat) : Nat := 0x800000 + 0x1000 * i
def PORT_STATUS (i : Nat) : Nat := 0x800004 + 0x1000 * i
def PORT_EEE_CFG (i : Nat) : Nat := 0x800008 + 0x1000 * i
def PORT_EEE_STATUS (i : Nat) : Nat := 0x80000C + 0x1000 * i
def PORT_TS_ADJ (i : Nat) : Nat := 0x800010 + 0x1000 * i
def CNT_PORT_LINK_DROP (i : Nat) : Nat := 0x800020 + 0x1000 * i
def CNT_PORT_MODE_FLUSH (i : Nat) : Nat := 0x800024 + 0x1000 * i
def CNT_PORT_LLDP_DROP (i : Nat) : Nat := 0x800028 + 0x1000 * i
def CNT_PORT_RX_OCTETS_OK_LO (i : Nat) : Nat := 0x800100 + 0x1000 * i
def CNT_PORT_RX_OCTETS_OK_HI (i : Nat) : Nat := 0x800104 + 0x1000 * i
def CNT_PORT_RX_FRAMES_OK_LO (i : Nat) : Nat := 0x800108 + 0x1000 * i
def CNT_PORT_RX_FRAMES_OK_HI (i : Nat) : Nat := 0x80010C + 0x1000 * i
def CNT_PORT_RX_UCAST_LO (i : Nat) : Nat := 0x800110 + 0x1000 * i
def CNT_PORT_RX_UCAST_HI (i : Nat) : Nat := 0x800114 + 0x1000 * i
def CNT_PORT_RX_MCAST_LO (i : Nat) : Nat := 0x800118 + 0x1000 * i
def CNT_PORT_RX_MCAST_HI (i : Nat) : Nat := 0x80011C + 0x1000 * i
def CNT_PORT_RX_BCAST_LO (i : Nat) : Nat := 0x800120 + 0x1000 * i
def CNT_PORT_RX_BCAST_HI (i : Nat) : Nat := 0x800124 + 0x1000 * i
def CNT_PORT_RX_PAUSE_LO (i : Nat) : Nat := 0x800128 + 0x1000 * i
def CNT_PORT_RX_PAUSE_HI (i : Nat) : Nat := 0x80012C + 0x1000 * i
def CNT_PORT_RX_PFC_LO (i : Nat) : Nat := 0x800130 + 0x1000 * i
def CNT_PORT_RX_PFC_HI (i : Nat) : Nat := 0x800134 + 0x1000 * i
def CNT_PORT_RX_CTRL_BAD_LO (i : Nat) : Nat := 0x800138 + 0x1000 * i
def CNT_PORT_RX_CTRL_BAD_HI (i : Nat) : Nat := 0x80013C + 0x1000 * i
def CNT_PORT_RX_64_LO (i : Nat) : Nat := 0x800140 + 0x1000 * i
def CNT_PORT_RX_64_HI (i : Nat) : Nat := 0x800144 + 0x1000 * i
def CNT_PORT_RX_65_127_LO (i : Nat) : Nat := 0x800148 + 0x1000 * i
def CNT_PORT_RX_65_127_HI (i : Nat) : Nat := 0x80014C + 0x1000 * i
def CNT_PORT_RX_128_255_LO (i : Nat) : Nat := 0x800150 + 0x1000 * i
def CNT_PORT_RX_128_255_HI (i : Nat) : Nat := 0x800154 + 0x1000 * i
def CNT_PORT_RX_256_511_LO (i : Nat) : Nat := 0x800158 + 0x1000 * i
def CNT_PORT_RX_256_511_HI (i : Nat) : Nat := 0x80015C + 0x1000 * i
def CNT_PORT_RX_512_1023_LO (i : Nat) : Nat := 0x800160 + 0x1000 * i
def CNT_PORT_RX_512_1023_HI (i : Nat) : Nat := 0x800164 + 0x1000 * i
def CNT_PORT_RX_1024_1518_LO (i : Nat) : Nat := 0x800168 + 0x1000 * i
def CNT_PORT_RX_1024_1518_HI (i : Nat) : Nat := 0x80016C + 0x1000 * i
def CNT_PORT_RX_1519_MAX_LO (i : Nat) : Nat := 0x800170 + 0x1000 * i
def CNT_PORT_RX_1519_MAX_HI (i : Nat) : Nat := 0x800174 + 0x1000 * i
def CNT_PORT_RX_FCS_ERR_LO (i : Nat) : Nat := 0x800178 + 0x1000 * i
def CNT_PORT_RX_FCS_ERR_HI (i : Nat) : Nat := 0x80017C + 0x1000 * i
def CNT_PORT_RX_UNDERSIZE_LO (i : Nat) : Nat := 0x800180 + 0x1000 * i
def CNT_PORT_RX_UNDERSIZE_HI (i : Nat) : Nat := 0x800184 + 0x1000 * i
def CNT_PORT_RX_FRAGMENT_LO (i : Nat) : Nat := 0x800188 + 0x1000 * i
def CNT_PORT_RX_FRAGMENT_HI (i : Nat) : Nat := 0x80018C + 0x1000 * i
def CNT_PORT_RX_OVERSIZE_LO (i : Nat) : Nat := 0x800190 + 0x1000 * i
def CNT_PORT_RX_OVERSIZE_HI (i : Nat) : Nat := 0x800194 + 0x1000 * i
def CNT_PORT_RX_CODE_ERR_LO (i : Nat) : Nat := 0x800198 + 0x1000 * i
def CNT_PORT_RX_CODE_ERR_HI (i : Nat) : Nat := 0x80019C + 0x1000 * i
def CNT_PORT_RX_LPI_ENTRY_LO (i : Nat) : Nat := 0x8001A0 + 0x1000 * i
def CNT_PORT_RX_LPI_ENTRY_HI (i : Nat) : Nat := 0x8001A4 + 0x1000 * i
def CNT_PORT_RX_LPI_US_LO (i : Nat) : Nat := 0x8001A8 + 0x1000 * i
def CNT_PORT_RX_LPI_US_HI (i : Nat) : Nat := 0x8001AC + 0x1000 * i
def CNT_PORT_TX_OCTETS_LO (i : Nat) : Nat := 0x8001B0 + 0x1000 * i
def CNT_PORT_TX_OCTETS_HI (i : Nat) : Nat := 0x8001B4 + 0x1000 * i
def CNT_PORT_TX_FRAMES_LO (i : Nat) : Nat := 0x8001B8 + 0x1000 * i
def CNT_PORT_TX_FRAMES_HI (i : Nat) : Nat := 0x8001BC + 0x1000 * i
def CNT_PORT_TX_UCAST_LO (i : Nat) : Nat := 0x8001C0 + 0x1000 * i
def CNT_PORT_TX_UCAST_HI (i : Nat) : Nat := 0x8001C4 + 0x1000 * i
def CNT_PORT_TX_MCAST_LO (i : Nat) : Nat := 0x8001C8 + 0x1000 * i
def CNT_PORT_TX_MCAST_HI (i : Nat) : Nat := 0x8001CC + 0x1000 * i
def CNT_PORT_TX_BCAST_LO (i : Nat) : Nat := 0x8001D0 + 0x1000 * i
def CNT_PORT_TX_BCAST_HI (i : Nat) : Nat := 0x8001D4 + 0x1000 * i
def CNT_PORT_TX_64_LO (i : Nat) : Nat := 0x8001D8 + 0x1000 * i
def CNT_PORT_TX_64_HI (i : Nat) : Nat := 0x8001DC + 0x1000 * i
def CNT_PORT_TX_65_127_LO (i : Nat) : Nat := 0x8001E0 + 0x1000 * i
def CNT_PORT_TX_65_127_HI (i : Nat) : Nat := 0x8001E4 + 0x1000 * i
def CNT_PORT_TX_128_255_LO (i : Nat) : Nat := 0x8001E8 + 0x1000 * i
def CNT_PORT_TX_128_255_HI (i : Nat) : Nat := 0x8001EC + 0x1000 * i
def CNT_PORT_TX_256_511_LO (i : Nat) : Nat := 0x8001F0 + 0x1000 * i
def CNT_PORT_TX_256_511_HI (i : Nat) : Nat := 0x8001F4 + 0x1000 * i
def CNT_PORT_TX_512_1023_LO (i : Nat) : Nat := 0x8001F8 + 0x1000 * i
def CNT_PORT_TX_512_1023_HI (i : Nat) : Nat := 0x8001FC + 0x1000 * i
def CNT_PORT_TX_1024_1518_LO (i : Nat) : Nat := 0x800200 + 0x1000 * i
def CNT_PORT_TX_1024_1518_HI (i : Nat) : Nat := 0x800204 + 0x1000 * i
def CNT_PORT_TX_1519_MAX_LO (i : Nat) : Nat := 0x800208 + 0x1000 * i
def CNT_PORT_TX_1519_MAX_HI (i : Nat) : Nat := 0x80020C + 0x1000 * i
def CNT_PORT_TX_BAD_FCS_LO (i : Nat) : Nat := 0x800210 + 0x1000 * i
def CNT_PORT_TX_BAD_FCS_HI (i : Nat) : Nat := 0x800214 + 0x1000 * i
def CNT_PORT_TX_LPI_ENTRY_LO (i : Nat) : Nat := 0x800218 + 0x1000 * i
def CNT_PORT_TX_LPI_ENTRY_HI (i : Nat) : Nat := 0x80021C + 0x1000 * i
def CNT_PORT_TX_LPI_US_LO (i : Nat) : Nat := 0x800220 + 0x1000 * i
def CNT_PORT_TX_LPI_US_HI (i : Nat) : Nat := 0x800224 + 0x1000 * i
def CNT_PORT_RX_JABBER_LO (i : Nat) : Nat := 0x800228 + 0x1000 * i
def CNT_PORT_RX_JABBER_HI (i : Nat) : Nat := 0x80022C + 0x1000 * i
def CNT_PORT_FEC_CORR_LO (i : Nat) : Nat := 0x800230 + 0x1000 * i
def CNT_PORT_FEC_CORR_HI (i : Nat) : Nat := 0x800234 + 0x1000 * i
def CNT_PORT_FEC_UNCORR_LO (i : Nat) : Nat := 0x800238 + 0x1000 * i
def CNT_PORT_FEC_UNCORR_HI (i : Nat) : Nat := 0x80023C + 0x1000 * i
def PORT_RATE_TOTAL : Nat := 0xA00000
def PORT_RATE_PIPE (i : Nat) : Nat := 0xA00010 + 0x4 * i
def PORT_MDIO_CFG (i : Nat) : Nat := 0xA00100 + 0x20 * i
def PORT_MDIO_ARG (i j : Nat) : Nat := 0xA00104 + 0x20 * i + 0xC * j
def PORT_MDIO_CMD (i j : Nat) : Nat := 0xA00108 + 0x20 * i + 0xC * j
def PORT_MDIO_RDATA (i j : Nat) : Nat := 0xA0010C + 0x20 * i + 0xC * j
def CNT_MDIO_REFUSED (i : Nat) : Nat := 0xA0011C + 0x20 * i
def LANE_CFG (i : Nat) : Nat := 0xC00000 + 0x400 * i
def LANE_TXEQ (i : Nat) : Nat := 0xC00004 + 0x400 * i
def LANE_STATUS (i : Nat) : Nat := 0xC00008 + 0x400 * i
def LANE_ALIGN (i : Nat) : Nat := 0xC0000C + 0x400 * i
def LANE_EYE_CTRL (i : Nat) : Nat := 0xC00010 + 0x400 * i
def LANE_EYE_RESULT (i : Nat) : Nat := 0xC00014 + 0x400 * i
def LANE_RAW_CAP (i : Nat) : Nat := 0xC00018 + 0x400 * i
def CNT_LANE_PRBS_BITS_LO (i : Nat) : Nat := 0xC00020 + 0x400 * i
def CNT_LANE_PRBS_BITS_HI (i : Nat) : Nat := 0xC00024 + 0x400 * i
def CNT_LANE_PRBS_ERR_LO (i : Nat) : Nat := 0xC00028 + 0x400 * i
def CNT_LANE_PRBS_ERR_HI (i : Nat) : Nat := 0xC0002C + 0x400 * i
def CNT_LANE_OPEN (i : Nat) : Nat := 0xC00030 + 0x400 * i
def CNT_LANE_SHORT (i : Nat) : Nat := 0xC00034 + 0x400 * i
def CNT_LANE_LOOP_DROP (i : Nat) : Nat := 0xC00038 + 0x400 * i
def CNT_LANE_CFG_REFUSED (i : Nat) : Nat := 0xC0003C + 0x400 * i
def LANE_RETRAIN : Nat := 0xD00000
def LANE_RETIRED (i : Nat) : Nat := 0xD00010 + 0x4 * i
def TIME_CTRL : Nat := 0xE00000
def TIME_STATUS : Nat := 0xE00004
def TIME_INC_LO : Nat := 0xE00008
def TIME_INC_HI : Nat := 0xE0000C
def TIME_STEP_NS : Nat := 0xE00010
def TIME_STEP_ALLOW : Nat := 0xE00014
def TIME_NOW_NS : Nat := 0xE00020
def TIME_NOW_SEC_LO : Nat := 0xE00024
def TIME_NOW_SEC_HI : Nat := 0xE00028
def TIME_NOW_FRAC : Nat := 0xE0002C
def TIME_ADJ_SEC : Nat := 0xE00030
def TIME_ADJ_NS : Nat := 0xE00034
def TIME_LINE_TEQ : Nat := 0xE00040
def TIME_LINE_ASYM : Nat := 0xE00044
def TIME_PPS_IN_ADJ : Nat := 0xE00048
def TIME_SRC_OFFSET : Nat := 0xE0004C
def TIME_PPS_OUT : Nat := 0xE00050
def TIME_SERVO : Nat := 0xE00054
def TIME_PPS_OUT_ADJ : Nat := 0xE00058
def TIME_PTP_CFG : Nat := 0xE00060
def CNT_TIME_INC_BAD : Nat := 0xE00070
def CNT_TIME_OWNER_BAD : Nat := 0xE00074
def CNT_TIME_STEP_REFUSED : Nat := 0xE00078
def CNT_TIME_PPS_REJECT : Nat := 0xE0007C
def CNT_TIME_TOD_STALE : Nat := 0xE00080
def TIME_PTP_PORT (i : Nat) : Nat := 0xE01000 + 0x4 * i
def PROT_CTRL : Nat := 0xE80000
def PROT_CANARY : Nat := 0xE80004
def PROT_WTR : Nat := 0xE80008
def PROT_CMD : Nat := 0xE8000C
def PROT_STATUS : Nat := 0xE80010
def PROT_HEALTH (i : Nat) : Nat := 0xE80020 + 0x4 * i
def PROT_LAST_SWITCH : Nat := 0xE80030
def CNT_PROT_SWITCH : Nat := 0xE80040
def CNT_PROT_SWITCH_FAIL : Nat := 0xE80044
def CNT_PROT_DENIED : Nat := 0xE80048
def CNT_CANARY_RUN : Nat := 0xE8004C
def CNT_CANARY_SKIP : Nat := 0xE80050
def CNT_CANARY_FAIL : Nat := 0xE80054
def CIPH_ROOT_STATUS : Nat := 0xF00000
def CIPH_OPROOT_DATA (i : Nat) : Nat := 0xF00010 + 0x4 * i
def CIPH_OPROOT_CMD : Nat := 0xF00030
def CIPH_UNWRAP_DATA (i : Nat) : Nat := 0xF00040 + 0x4 * i
def CIPH_UNWRAP_CMD : Nat := 0xF00070
def CIPH_LOADED_STATUS (i : Nat) : Nat := 0xF00100 + 0x4 * i
def CIPH_CTR_RESERVE : Nat := 0xF00200
def CIPH_CTR_NEXT_LO : Nat := 0xF00204
def CIPH_CTR_NEXT_HI : Nat := 0xF00208
def CIPH_DRAM_EPOCH : Nat := 0xF00210
def CIPH_JOURNAL_EPOCH : Nat := 0xF00214
def CIPH_STORE_CMD : Nat := 0xF00218
def CIPH_SLOTS : Nat := 0xF0021C
def CNT_CIPH_TAG_FAIL : Nat := 0xF00240
def CNT_CIPH_REPLAY : Nat := 0xF00244
def CNT_CIPH_KEY_MISSING : Nat := 0xF00248
def CNT_CIPH_SLOT_WAIT : Nat := 0xF0024C
def CNT_CIPH_UNWRAP_FAIL : Nat := 0xF00250
def CIPH_ID_CFG (i : Nat) : Nat := 0xF01000 + 0x10 * i
def CIPH_ID_EPOCH_DS (i : Nat) : Nat := 0xF01004 + 0x10 * i
def CIPH_ID_EPOCH_US (i : Nat) : Nat := 0xF01008 + 0x10 * i
def CIPH_ID_STATUS (i : Nat) : Nat := 0xF0100C + 0x10 * i
def PWR_LADDER_CTRL : Nat := 0x1000000
def PWR_LADDER_STATUS : Nat := 0x1000004
def PWR_WAKE_CFG : Nat := 0x1000008
def PWR_WAKE_TIMER : Nat := 0x100000C
def PWR_GOV_CAP : Nat := 0x1000200
def PWR_GOV_THERM : Nat := 0x1000204
def PWR_GOV_ALLOW : Nat := 0x1000208
def PWR_GOV_STATUS : Nat := 0x100020C
def PWR_TEMP : Nat := 0x1000210
def PWR_FIREDAMP : Nat := 0x1000214
def PWR_GOV_HYST : Nat := 0x1000218
def PWR_SHED (i : Nat) : Nat := 0x1000220 + 0x4 * i
def CNT_PWR_WAKE_DROP : Nat := 0x1000230
def CNT_GOV_OVERDRAFT : Nat := 0x1000234
def CNT_FIREDAMP : Nat := 0x1000238
def CNT_PWR_WAKE_FAIL : Nat := 0x100023C
def PWR_DOM_STATUS (i : Nat) : Nat := 0x1000400 + 0x10 * i
def PWR_DOM_REFUSER (i : Nat) : Nat := 0x1000404 + 0x10 * i
def CNT_PWR_REFUSE (i : Nat) : Nat := 0x1000408 + 0x10 * i
def ASSAY_CTRL : Nat := 0x1080000
def ASSAY_STATUS : Nat := 0x1080004
def ASSAY_VCORE : Nat := 0x1080008
def ASSAY_SLACK : Nat := 0x108000C
def ASSAY_PREDICT (i : Nat) : Nat := 0x1080010 + 0x4 * i
def ASSAY_HOURS (i : Nat) : Nat := 0x1080020 + 0x4 * i
def ASSAY_FAULT : Nat := 0x1080030
def CNT_ASSAY_RUN : Nat := 0x1080080
def CNT_ASSAY_DEFER : Nat := 0x1080084
def CNT_ASSAY_LANE_SKIP : Nat := 0x1080088
def CNT_ASSAY_SRAM_UE : Nat := 0x108008C
def CNT_FW_DECLARED : Nat := 0x1080090
def KEEP_STATUS : Nat := 0x1100000
def KEEP_SPARE (i : Nat) : Nat := 0x1100004 + 0x4 * i
def KEEP_WEAR_INDEX : Nat := 0x1100010
def KEEP_ENTRY_ADDR : Nat := 0x1100014
def KEEP_WEAR_LO : Nat := 0x1100018
def KEEP_WEAR_HI : Nat := 0x110001C
def KEEP_WEAR_TOP : Nat := 0x1100020
def CNT_KEEP_WEAR_REFUSED : Nat := 0x1100040
def CNT_KEEP_REPAIR : Nat := 0x1100044
def CNT_KEEP_REMAP : Nat := 0x1100048
def CNT_KEEP_WRITE_FAIL_A : Nat := 0x110004C
def CNT_KEEP_WRITE_FAIL_B : Nat := 0x1100050
def REC_OLDEST_SEQ_LO : Nat := 0x1180000
def REC_OLDEST_SEQ_HI : Nat := 0x1180004
def REC_OLDEST_OFF : Nat := 0x1180008
def REC_NEWEST_SEQ_LO : Nat := 0x1180010
def REC_NEWEST_SEQ_HI : Nat := 0x1180014
def REC_NEWEST_OFF : Nat := 0x1180018
def REC_WIN_OFF : Nat := 0x1180020
def REC_BUCKET : Nat := 0x1180024
def CNT_REC_LOST : Nat := 0x1180028
def REC_WIN (i : Nat) : Nat := 0x1180100 + 0x4 * i
def CHAIN_CTRL : Nat := 0x1200000
def CHAIN_STATUS : Nat := 0x1200004
def CHAIN_TIME_OFFSET : Nat := 0x1200008
def CHAIN_ALERT_CAUSE : Nat := 0x120000C
def CHAIN_ALERT_EN : Nat := 0x1200010
def CNT_CHAIN_CRC_ERR : Nat := 0x1200020
def CNT_CHAIN_HOPS_DROP : Nat := 0x1200024
def CNT_CHAIN_UNREACH : Nat := 0x1200028
def CNT_CHAIN_FWD_SKIP : Nat := 0x120002C
def CNT_CHAIN_PORT_DOWN : Nat := 0x1200030
def HOST_ID : Nat := 0x1280000
def HOST_STATUS : Nat := 0x1280004
def HOST_CTRL : Nat := 0x1280008
def HOST_RING_BASE_LO (i : Nat) : Nat := 0x1280010 + 0x10 * i
def HOST_RING_BASE_HI (i : Nat) : Nat := 0x1280014 + 0x10 * i
def HOST_RING_CFG (i : Nat) : Nat := 0x1280018 + 0x10 * i
def HOST_RING_POS (i : Nat) : Nat := 0x128001C + 0x10 * i
def HOST_ALERT_MEMBER_LO : Nat := 0x1280040
def HOST_ALERT_MEMBER_HI : Nat := 0x1280044
def CNT_HOST_TIMEOUT : Nat := 0x1280050
def CNT_HOST_FWD_DROP : Nat := 0x1280054
def TUB_POOL_BASE (p : Nat) : Nat := 0x700000 + 8 * p
def TUB_POOL_END (p : Nat) : Nat := 0x700004 + 8 * p
def TUB_DPOOL_BASE (d : Nat) : Nat := 0x700020 + 8 * d
def TUB_DPOOL_END (d : Nat) : Nat := 0x700024 + 8 * d
def TUB_FLOOR (h : Nat) : Nat := 0x700030 + 4 * h
def PWR_EPB (k : Nat) : Nat := 0x1000300 + 4 * k
def PWR_DOM_EFIX (d : Nat) : Nat := 0x100040C + 0x10 * d
def PWR_VOTE (c : Nat) : Nat := 0x1000040 + 4 * c
def ASSAY_FW_CFG (s : Nat) : Nat := 0x1080040 + 4 * s

end Reg

/-- The GEN registers. -/
def regRowsGen : List RegRow := [
  ⟨"GEN_TICK_STATUS", 0x100, 0, 0x0, 0, 0x0, 0x0, 0x0, 0xFFFF003D, 0x0, 0x0, 0x0, 0x0, 0x0, 0x0, .plain, []⟩,
  ⟨"GEN_TICK_OVERRUN", 0x104, 0, 0x0, 0, 0x0, 0x0, 0x0, 0x0, 0x0, 0x7F, 0x0, 0x0, 0x0, 0x0, .plain, []⟩,
  ⟨"GEN_TICK_COUNT_LO", 0x108, 0, 0x0, 0, 0x0, 0x0, 0x0, 0x0, 0x0, 0x0, 0x0, 0x0, 0x0, 0xFFFFFFFF, .low0, []⟩,
  ⟨"GEN_TICK_COUNT_HI", 0x10C, 0, 0x0, 0, 0x0, 0x0, 0x0, 0x0, 0x0, 0x0, 0x0, 0x0, 0x0, 0xFFFF, .high, []⟩,
  ⟨"GEN_TICK_OVR_CNT", 0x110, 7, 0x4, 0, 0x0, 0x0, 0x0, 0x0, 0xFFFFFFFF, 0x0, 0x0, 0x0, 0x0, 0x0, .rc, []⟩,
  ⟨"GEN_RESET_CAUSE", 0x200, 0, 0x0, 0, 0x0, 0x0, 0x0, 0x1FFF07, 0x0, 0x0, 0x0, 0x0, 0x0, 0x0, .plain, []⟩,
  ⟨"GEN_RESET_CMD", 0x204, 0, 0x0, 0, 0x0, 0x0, 0x0, 0x0, 0x0, 0x0, 0x0, 0xFFFFFFFF, 0x0, 0x0, .plain, []⟩,
  ⟨"GEN_DOMAIN_RESET", 0x208, 0, 0x0, 0, 0x0, 0x0, 0x0, 0x0, 0x0, 0x0, 0x0, 0x1FFFFF, 0x0, 0x0, .plain, []⟩,
  ⟨"GEN_WDOG_CTRL", 0x20C, 0, 0x0, 0, 0x0, 0x64, 0xFFFF, 0x0, 0x0, 0x0, 0x0, 0x0, 0x0, 0x0, .plain, [⟨15, 0, 10, 1000⟩]⟩,
  ⟨"GEN_BOOT_STATUS", 0x210, 0, 0x0, 0, 0x0, 0x0, 0x0, 0x3FFF, 0x0, 0x0, 0x0, 0x0, 0x0, 0x0, .plain, []⟩,
  ⟨"GEN_BOOT_CTRL", 0x214, 0, 0x0, 0, 0x0, 0x0, 0x0, 0x0, 0x0, 0x0, 0x0, 0x1, 0x0, 0x0, .plain, []⟩,
  ⟨"GEN_VIN_STATUS", 0x220, 0, 0x0, 0, 0x0, 0x0, 0x0, 0x3FFFF, 0x0, 0x0, 0x0, 0x0, 0x0, 0x0, .plain, []⟩,
  ⟨"CNT_DIP_FRAMES_LOST_LO", 0x228, 0, 0x0, 0, 0x0, 0x0, 0x0, 0x0, 0xFFFFFFFF, 0x0, 0x0, 0x0, 0x0, 0x0, .low1, []⟩,
  ⟨"CNT_DIP_FRAMES_LOST_HI", 0x22C, 0, 0x0, 0, 0x0, 0x0, 0x0, 0x0, 0x0, 0x0, 0x0, 0x0, 0x0, 0xFFFFFFFF, .high, []⟩,
  ⟨"CNT_VIN_WARN_REPEAT", 0x230, 0, 0x0, 0, 0x0, 0x0, 0x0, 0x0, 0xFFFFFFFF, 0x0, 0x0, 0x0, 0x0, 0x0, .rc, []⟩,
  ⟨"CNT_RESET_MERGED", 0x234, 0, 0x0, 0, 0x0, 0x0, 0x0, 0x0, 0xFFFFFFFF, 0x0, 0x0, 0x0, 0x0, 0x0, .rc, []⟩,
  ⟨"CNT_RESET_CMD_BAD", 0x238, 0, 0x0, 0, 0x0, 0x0, 0x0, 0x0, 0xFFFFFFFF, 0x0, 0x0, 0x0, 0x0, 0x0, .rc, []⟩,
  ⟨"GEN_REFCLK_STATUS", 0x300, 0, 0x0, 0, 0x0, 0x0, 0x0, 0xF, 0x0, 0x0, 0x0, 0x0, 0x0, 0x0, .plain, []⟩,
  ⟨"GEN_REFCLK_PPM", 0x304, 4, 0x4, 0, 0x0, 0x0, 0x0, 0xFFFF, 0x0, 0x0, 0x0, 0x0, 0x0, 0x0, .plain, []⟩,
  ⟨"GEN_OPTIC", 0x320, 2, 0x4, 0, 0x0, 0x640000, 0x0, 0xFFFF001F, 0x0, 0x0, 0x0, 0x0, 0x0, 0x0, .plain, []⟩,
  ⟨"CNT_OPTIC_TIMEOUT", 0x328, 2, 0x4, 0, 0x0, 0x0, 0x0, 0x0, 0xFFFFFFFF, 0x0, 0x0, 0x0, 0x0, 0x0, .rc, []⟩,
  ⟨"GEN_LED_CFG", 0x330, 0, 0x0, 0, 0x0, 0x80001432, 0xC000FFFF, 0x0, 0x0, 0x0, 0x0, 0x0, 0x0, 0x0, .plain, [⟨15, 8, 20, 200⟩, ⟨7, 0, 10, 255⟩]⟩,
  ⟨"GEN_LAND_SHORT", 0x340, 0, 0x0, 0, 0x0, 0x0, 0x0, 0x7FFFFFF, 0x0, 0x0, 0x0, 0x0, 0x0, 0x0, .plain, []⟩,
  ⟨"CNT_LAND_SHORT", 0x344, 0, 0x0, 0, 0x0, 0x0, 0x0, 0x0, 0xFFFFFFFF, 0x0, 0x0, 0x0, 0x0, 0x0, .rc, []⟩]

/-- The IMG registers. -/
def regRowsImg : List RegRow := [
  ⟨"IMG_ACTIVE", 0x10000, 0, 0x0, 0, 0x0, 0x0, 0x0, 0xFFFFFFFF, 0x0, 0x0, 0x0, 0x0, 0x0, 0x0, .plain, []⟩,
  ⟨"IMG_FW_VERSION", 0x10004, 0, 0x0, 0, 0x0, 0x0, 0x0, 0xFFFFFFFF, 0x0, 0x0, 0x0, 0x0, 0x0, 0x0, .plain, []⟩,
  ⟨"IMG_A_STATUS", 0x10008, 0, 0x0, 0, 0x0, 0x0, 0x0, 0xF, 0x0, 0x0, 0x0, 0x0, 0x0, 0x0, .plain, []⟩,
  ⟨"IMG_B_STATUS", 0x1000C, 0, 0x0, 0, 0x0, 0x0, 0x0, 0xF, 0x0, 0x0, 0x0, 0x0, 0x0, 0x0, .plain, []⟩,
  ⟨"IMG_MIN_GEN", 0x10010, 0, 0x0, 0, 0x0, 0x0, 0x0, 0x0, 0x0, 0x0, 0x0, 0x0, 0xFFFFFFFF, 0x0, .pw, []⟩,
  ⟨"CNT_IMG_REC_SKIPPED", 0x10014, 0, 0x0, 0, 0x0, 0x0, 0x0, 0x0, 0xFFFFFFFF, 0x0, 0x0, 0x0, 0x0, 0x0, .rc, []⟩]

/-- The LINE registers. -/
def regRowsLine : List RegRow := [
  ⟨"LINE_CTRL", 0x100000, 2, 0x40000, 4, 0x10000, 0x34, 0x1FF, 0x0, 0x0, 0x0, 0x0, 0x0, 0x0, 0x0, .plain, [⟨5, 4, 1, 3⟩, ⟨3, 0, 0, 8⟩]⟩,
  ⟨"LINE_HEID_EXP", 0x100004, 2, 0x40000, 4, 0x10000, 0x0, 0xFFFF, 0x0, 0x0, 0x0, 0x0, 0x0, 0x0, 0x0, .plain, []⟩,
  ⟨"LINE_SD_SET", 0x100008, 2, 0x40000, 4, 0x10000, 0xA20800, 0xFFFFFFFF, 0x0, 0x0, 0x0, 0x0, 0x0, 0x0, 0x0, .plain, [⟨31, 0, 106189, 106188800⟩]⟩,
  ⟨"LINE_SD_CLR", 0x10000C, 2, 0x40000, 4, 0x10000, 0x103400, 0xFFFFFFFF, 0x0, 0x0, 0x0, 0x0, 0x0, 0x0, 0x0, .plain, []⟩,
  ⟨"LINE_SF_CTRL", 0x100010, 2, 0x40000, 4, 0x10000, 0x80010, 0xFF7FFF, 0x0, 0x0, 0x0, 0x0, 0x0, 0x0, 0x0, .plain, [⟨23, 16, 1, 255⟩, ⟨14, 0, 1, 19519⟩]⟩,
  ⟨"LINE_STATUS", 0x100020, 2, 0x40000, 4, 0x10000, 0x0, 0x0, 0x7F009F, 0x0, 0x0, 0x0, 0x0, 0x0, 0x0, .plain, []⟩,
  ⟨"LINE_DEFECT", 0x100024, 2, 0x40000, 4, 0x10000, 0x0, 0x0, 0x0, 0x0, 0x1F, 0x0, 0x0, 0x0, 0x0, .plain, []⟩,
  ⟨"LINE_FC_LO", 0x100028, 2, 0x40000, 4, 0x10000, 0x0, 0x0, 0x0, 0x0, 0x0, 0x0, 0x0, 0x0, 0xFFFFFFFF, .low0, []⟩,
  ⟨"LINE_FC_HI", 0x10002C, 2, 0x40000, 4, 0x10000, 0x0, 0x0, 0x0, 0x0, 0x0, 0x0, 0x0, 0x0, 0xFFFFFFFF, .high, []⟩,
  ⟨"LINE_HEID", 0x100030, 2, 0x40000, 4, 0x10000, 0x0, 0x0, 0xFFFF, 0x0, 0x0, 0x0, 0x0, 0x0, 0x0, .plain, []⟩,
  ⟨"LINE_REI_LAST", 0x100034, 2, 0x40000, 4, 0x10000, 0x0, 0x0, 0x7FFF7FFF, 0x0, 0x0, 0x0, 0x0, 0x0, 0x0, .plain, []⟩,
  ⟨"LINE_BER_LAST", 0x100038, 2, 0x40000, 4, 0x10000, 0x0, 0x0, 0xFFFFFFFF, 0x0, 0x0, 0x0, 0x0, 0x0, 0x0, .plain, []⟩,
  ⟨"CNT_CW_CORR_LO", 0x100040, 2, 0x40000, 4, 0x10000, 0x0, 0x0, 0x0, 0xFFFFFFFF, 0x0, 0x0, 0x0, 0x0, 0x0, .low1, []⟩,
  ⟨"CNT_CW_CORR_HI", 0x100044, 2, 0x40000, 4, 0x10000, 0x0, 0x0, 0x0, 0x0, 0x0, 0x0, 0x0, 0x0, 0xFFFFFFFF, .high, []⟩,
  ⟨"CNT_CW_UNCORR_LO", 0x100048, 2, 0x40000, 4, 0x10000, 0x0, 0x0, 0x0, 0xFFFFFFFF, 0x0, 0x0, 0x0, 0x0, 0x0, .low1, []⟩,
  ⟨"CNT_CW_UNCORR_HI", 0x10004C, 2, 0x40000, 4, 0x10000, 0x0, 0x0, 0x0, 0x0, 0x0, 0x0, 0x0, 0x0, 0xFFFFFFFF, .high, []⟩,
  ⟨"CNT_BITS_CORR_LO", 0x100050, 2, 0x40000, 4, 0x10000, 0x0, 0x0, 0x0, 0xFFFFFFFF, 0x0, 0x0, 0x0, 0x0, 0x0, .low1, []⟩,
  ⟨"CNT_BITS_CORR_HI", 0x100054, 2, 0x40000, 4, 0x10000, 0x0, 0x0, 0x0, 0x0, 0x0, 0x0, 0x0, 0x0, 0xFFFFFFFF, .high, []⟩,
  ⟨"CNT_HDR_CRC_ERR", 0x100060, 2, 0x40000, 4, 0x10000, 0x0, 0x0, 0x0, 0xFFFFFFFF, 0x0, 0x0, 0x0, 0x0, 0x0, .rc, []⟩,
  ⟨"CNT_FC_MISMATCH", 0x100064, 2, 0x40000, 4, 0x10000, 0x0, 0x0, 0x0, 0xFFFFFFFF, 0x0, 0x0, 0x0, 0x0, 0x0, .rc, []⟩,
  ⟨"CNT_SHIFT_LOST", 0x100068, 2, 0x40000, 4, 0x10000, 0x0, 0x0, 0x0, 0xFFFFFFFF, 0x0, 0x0, 0x0, 0x0, 0x0, .rc, []⟩,
  ⟨"CNT_ALIGN_CAND_FULL", 0x10006C, 2, 0x40000, 4, 0x10000, 0x0, 0x0, 0x0, 0xFFFFFFFF, 0x0, 0x0, 0x0, 0x0, 0x0, .rc, []⟩,
  ⟨"CNT_ALIGN_AMBIGUOUS", 0x100070, 2, 0x40000, 4, 0x10000, 0x0, 0x0, 0x0, 0xFFFFFFFF, 0x0, 0x0, 0x0, 0x0, 0x0, .rc, []⟩,
  ⟨"CNT_ALIGN_FC_REJECT", 0x100074, 2, 0x40000, 4, 0x10000, 0x0, 0x0, 0x0, 0xFFFFFFFF, 0x0, 0x0, 0x0, 0x0, 0x0, .rc, []⟩,
  ⟨"CNT_HEID_MISMATCH", 0x100078, 2, 0x40000, 4, 0x10000, 0x0, 0x0, 0x0, 0xFFFFFFFF, 0x0, 0x0, 0x0, 0x0, 0x0, .rc, []⟩,
  ⟨"CNT_LOF_ENTRY", 0x10007C, 2, 0x40000, 4, 0x10000, 0x0, 0x0, 0x0, 0xFFFFFFFF, 0x0, 0x0, 0x0, 0x0, 0x0, .rc, []⟩]

/-- The JOIN registers. -/
def regRowsJoin : List RegRow := [
  ⟨"JOIN_CTRL", 0x200000, 0, 0x0, 0, 0x0, 0xA0A3400, 0xFFFFFFFF, 0x0, 0x0, 0x0, 0x0, 0x0, 0x0, 0x0, .plain, [⟨31, 24, 1, 60⟩, ⟨23, 16, 1, 255⟩]⟩,
  ⟨"JOIN_BE", 0x200010, 2, 0x4, 0, 0x0, 0x2010, 0xFFFF, 0x0, 0x0, 0x0, 0x0, 0x0, 0x0, 0x0, .plain, []⟩,
  ⟨"JOIN_EQD", 0x200020, 2, 0x4, 0, 0x0, 0x0, 0x0, 0x83FFFFFF, 0x0, 0x0, 0x0, 0x0, 0x0, 0x0, .plain, []⟩,
  ⟨"JOIN_SERIAL_LO", 0x200030, 0, 0x0, 0, 0x0, 0x0, 0x0, 0xFFFFFFFF, 0x0, 0x0, 0x0, 0x0, 0x0, 0x0, .plain, []⟩,
  ⟨"JOIN_SERIAL_HI", 0x200034, 0, 0x0, 0, 0x0, 0x0, 0x0, 0xFFFFFFFF, 0x0, 0x0, 0x0, 0x0, 0x0, 0x0, .plain, []⟩,
  ⟨"CNT_GRANT_MISSED", 0x200040, 0, 0x0, 0, 0x0, 0x0, 0x0, 0x0, 0xFFFFFFFF, 0x0, 0x0, 0x0, 0x0, 0x0, .rc, []⟩,
  ⟨"CNT_PLAN_BAD", 0x200044, 0, 0x0, 0, 0x0, 0x0, 0x0, 0x0, 0xFFFFFFFF, 0x0, 0x0, 0x0, 0x0, 0x0, .rc, []⟩,
  ⟨"CNT_LMM_BAD", 0x200048, 0, 0x0, 0, 0x0, 0x0, 0x0, 0x0, 0xFFFFFFFF, 0x0, 0x0, 0x0, 0x0, 0x0, .rc, []⟩,
  ⟨"CNT_LMM_UNKNOWN", 0x20004C, 0, 0x0, 0, 0x0, 0x0, 0x0, 0x0, 0xFFFFFFFF, 0x0, 0x0, 0x0, 0x0, 0x0, .rc, []⟩,
  ⟨"CNT_LMM_REJECT", 0x200050, 0, 0x0, 0, 0x0, 0x0, 0x0, 0x0, 0xFFFFFFFF, 0x0, 0x0, 0x0, 0x0, 0x0, .rc, []⟩,
  ⟨"CNT_BOND_VOID", 0x200054, 0, 0x0, 0, 0x0, 0x0, 0x0, 0x0, 0xFFFFFFFF, 0x0, 0x0, 0x0, 0x0, 0x0, .rc, []⟩,
  ⟨"CNT_BOND_LATE", 0x200058, 0, 0x0, 0, 0x0, 0x0, 0x0, 0x0, 0xFFFFFFFF, 0x0, 0x0, 0x0, 0x0, 0x0, .rc, []⟩,
  ⟨"CNT_KEY_NOT_READY", 0x20005C, 0, 0x0, 0, 0x0, 0x0, 0x0, 0x0, 0xFFFFFFFF, 0x0, 0x0, 0x0, 0x0, 0x0, .rc, []⟩,
  ⟨"CNT_GRANT_OFFSEAM", 0x200060, 0, 0x0, 0, 0x0, 0x0, 0x0, 0x0, 0xFFFFFFFF, 0x0, 0x0, 0x0, 0x0, 0x0, .rc, []⟩,
  ⟨"CNT_FRAG_HEC_ERR", 0x200064, 0, 0x0, 0, 0x0, 0x0, 0x0, 0x0, 0xFFFFFFFF, 0x0, 0x0, 0x0, 0x0, 0x0, .rc, []⟩,
  ⟨"CNT_DOZE_ABORT", 0x200068, 0, 0x0, 0, 0x0, 0x0, 0x0, 0x0, 0xFFFFFFFF, 0x0, 0x0, 0x0, 0x0, 0x0, .rc, []⟩,
  ⟨"CNT_ALLOC_FLUSH", 0x20006C, 0, 0x0, 0, 0x0, 0x0, 0x0, 0x0, 0xFFFFFFFF, 0x0, 0x0, 0x0, 0x0, 0x0, .rc, []⟩,
  ⟨"JOIN_PROF_CTRL", 0x200100, 2, 0x80, 8, 0x10, 0x0, 0x0, 0x800003FF, 0x0, 0x0, 0x0, 0x0, 0x0, 0x0, .plain, []⟩,
  ⟨"JOIN_PROF_PATTERN", 0x200104, 2, 0x80, 8, 0x10, 0x0, 0x0, 0xFFFFFFFF, 0x0, 0x0, 0x0, 0x0, 0x0, 0x0, .plain, []⟩,
  ⟨"JOIN_PROF_DELIM_HI", 0x200108, 2, 0x80, 8, 0x10, 0x0, 0x0, 0xFFFFFFFF, 0x0, 0x0, 0x0, 0x0, 0x0, 0x0, .plain, []⟩,
  ⟨"JOIN_PROF_DELIM_LO", 0x20010C, 2, 0x80, 8, 0x10, 0x0, 0x0, 0xFFFFFFFF, 0x0, 0x0, 0x0, 0x0, 0x0, 0x0, .plain, []⟩,
  ⟨"JOIN_ID_CFG", 0x201000, 128, 0x10, 0, 0x0, 0x0, 0x7F7, 0x0, 0x0, 0x0, 0x0, 0x80000000, 0x0, 0x0, .plain, []⟩,
  ⟨"JOIN_ID_STATUS", 0x201004, 128, 0x10, 0, 0x0, 0xFFF, 0x0, 0x7370FFF, 0x0, 0x0, 0x0, 0x0, 0x0, 0x0, .plain, []⟩,
  ⟨"JOIN_ID_SAVED", 0x201008, 128, 0x10, 0, 0x0, 0x0, 0x0, 0x3FFFF, 0x0, 0x0, 0x0, 0x0, 0x0, 0x0, .plain, []⟩,
  ⟨"JOIN_ALLOC", 0x202000, 1024, 0x4, 0, 0x0, 0x0, 0x0, 0xF0003FFF, 0x0, 0x0, 0x0, 0x0, 0x0, 0x0, .plain, []⟩]

/-- The CIRC registers. -/
def regRowsCirc : List RegRow := [
  ⟨"CIRC_CTRL", 0x300000, 0, 0x0, 0, 0x0, 0x0, 0x1FFFFF, 0x0, 0x0, 0x0, 0x0, 0x0, 0x0, 0x0, .plain, [⟨20, 0, 0, 1567676⟩]⟩,
  ⟨"CIRC_LOP_SUM", 0x300010, 32, 0x4, 0, 0x0, 0x0, 0x0, 0xFFFFFFFF, 0x0, 0x0, 0x0, 0x0, 0x0, 0x0, .plain, []⟩,
  ⟨"CIRC_CFG", 0x301000, 1024, 0x40, 0, 0x0, 0x0, 0xE7FFFF7F, 0x0, 0x0, 0x0, 0x0, 0x0, 0x0, 0x0, .plain, []⟩,
  ⟨"CIRC_PORT", 0x301004, 1024, 0x40, 0, 0x0, 0x0, 0x71FF7FF, 0x0, 0x0, 0x0, 0x0, 0x0, 0x0, 0x0, .plain, []⟩,
  ⟨"CIRC_DEMUX", 0x301008, 1024, 0x40, 0, 0x0, 0x0, 0x7F0FFFFF, 0x0, 0x0, 0x0, 0x0, 0x0, 0x0, 0x0, .plain, []⟩,
  ⟨"CIRC_DS_OFF", 0x30100C, 1024, 0x40, 0, 0x0, 0x0, 0x31FFFFF, 0x0, 0x0, 0x0, 0x0, 0x0, 0x0, 0x0, .plain, []⟩,
  ⟨"CIRC_STATUS", 0x301010, 1024, 0x40, 0, 0x0, 0x0, 0x0, 0xFFFF03FF, 0x0, 0x0, 0x0, 0x0, 0x0, 0x0, .plain, []⟩,
  ⟨"CIRC_FILL", 0x301014, 1024, 0x40, 0, 0x0, 0x0, 0x0, 0x7FFFF, 0x0, 0x0, 0x0, 0x0, 0x0, 0x0, .plain, []⟩,
  ⟨"CNT_CIRC_PTR_INVALID", 0x301018, 1024, 0x40, 0, 0x0, 0x0, 0x0, 0x0, 0xFFFFFFFF, 0x0, 0x0, 0x0, 0x0, 0x0, .rc, []⟩,
  ⟨"CNT_CIRC_CONT_LOST", 0x30101C, 1024, 0x40, 0, 0x0, 0x0, 0x0, 0x0, 0xFFFFFFFF, 0x0, 0x0, 0x0, 0x0, 0x0, .rc, []⟩,
  ⟨"CNT_CIRC_PKT_LOST", 0x301020, 1024, 0x40, 0, 0x0, 0x0, 0x0, 0x0, 0xFFFFFFFF, 0x0, 0x0, 0x0, 0x0, 0x0, .rc, []⟩,
  ⟨"CNT_CIRC_PKT_DISCARD", 0x301024, 1024, 0x40, 0, 0x0, 0x0, 0x0, 0x0, 0xFFFFFFFF, 0x0, 0x0, 0x0, 0x0, 0x0, .rc, []⟩,
  ⟨"CNT_CIRC_UNDERRUN", 0x301028, 1024, 0x40, 0, 0x0, 0x0, 0x0, 0x0, 0xFFFFFFFF, 0x0, 0x0, 0x0, 0x0, 0x0, .rc, []⟩,
  ⟨"CNT_CIRC_OVERRUN", 0x30102C, 1024, 0x40, 0, 0x0, 0x0, 0x0, 0x0, 0xFFFFFFFF, 0x0, 0x0, 0x0, 0x0, 0x0, .rc, []⟩,
  ⟨"CNT_CIRC_US_MISSED", 0x301030, 1024, 0x40, 0, 0x0, 0x0, 0x0, 0x0, 0xFFFFFFFF, 0x0, 0x0, 0x0, 0x0, 0x0, .rc, []⟩,
  ⟨"CNT_CIRC_TICK_FILL", 0x301034, 1024, 0x40, 0, 0x0, 0x0, 0x0, 0x0, 0xFFFFFFFF, 0x0, 0x0, 0x0, 0x0, 0x0, .rc, []⟩,
  ⟨"CNT_CIRC_JUST_TX", 0x301038, 1024, 0x40, 0, 0x0, 0x0, 0x0, 0x0, 0xFFFFFFFF, 0x0, 0x0, 0x0, 0x0, 0x0, .rc, []⟩,
  ⟨"CNT_CIRC_JUST_RX", 0x30103C, 1024, 0x40, 0, 0x0, 0x0, 0x0, 0x0, 0xFFFFFFFF, 0x0, 0x0, 0x0, 0x0, 0x0, .rc, []⟩,
  ⟨"CIRC_TPL", 0x340000, 1024, 0x40, 16, 0x4, 0x0, 0xFFFFFFFF, 0x0, 0x0, 0x0, 0x0, 0x0, 0x0, 0x0, .plain, []⟩]

/-- The TALLY registers, part 1. -/
def regRowsTally1 : List RegRow := [
  ⟨"TALLY_CTRL", 0x400000, 0, 0x0, 0, 0x0, 0x1F4A, 0x8000FFFF, 0x0, 0x0, 0x0, 0x0, 0x0, 0x0, 0x0, .plain, [⟨15, 0, 1, 65535⟩]⟩,
  ⟨"TALLY_RTX", 0x400004, 0, 0x0, 0, 0x0, 0x280810, 0xFFFFFFFF, 0x0, 0x0, 0x0, 0x0, 0x0, 0x0, 0x0, .plain, [⟨31, 16, 8, 65535⟩, ⟨15, 8, 2, 255⟩, ⟨7, 0, 1, 64⟩]⟩,
  ⟨"TALLY_STALL", 0x400008, 0, 0x0, 0, 0x0, 0x3C, 0xFFFF, 0x0, 0x0, 0x0, 0x0, 0x0, 0x0, 0x0, .plain, []⟩,
  ⟨"TALLY_ACC_BUDGET", 0x40000C, 0, 0x0, 0, 0x0, 0x0, 0x0, 0xFFFFFFFF, 0x0, 0x0, 0x0, 0x0, 0x0, 0x0, .plain, []⟩,
  ⟨"TALLY_RESERVE", 0x400010, 0, 0x0, 0, 0x0, 0x1, 0x0, 0x0, 0x0, 0x0, 0x0, 0x0, 0xFFFFFFFF, 0x0, .pw, []⟩,
  ⟨"TALLY_NEXT_LO", 0x400014, 0, 0x0, 0, 0x0, 0x0, 0x0, 0x0, 0x0, 0x0, 0x0, 0x0, 0x0, 0xFFFFFFFF, .low0, []⟩,
  ⟨"TALLY_NEXT_HI", 0x400018, 0, 0x0, 0, 0x0, 0x0, 0x0, 0x0, 0x0, 0x0, 0x0, 0x0, 0x0, 0xFFFFFFFF, .high, []⟩,
  ⟨"TALLY_JOURNAL", 0x40001C, 0, 0x0, 0, 0x0, 0x0, 0x0, 0xFFFF3FFF, 0x0, 0x0, 0x0, 0x0, 0x0, 0x0, .plain, []⟩,
  ⟨"TALLY_JOURNAL_FREE", 0x400020, 0, 0x0, 0, 0x0, 0x0, 0x0, 0x3FFF3FFF, 0x0, 0x0, 0x0, 0x0, 0x0, 0x0, .plain, []⟩,
  ⟨"CNT_TALLY_ACCEPT_LO", 0x400040, 0, 0x0, 0, 0x0, 0x0, 0x0, 0x0, 0xFFFFFFFF, 0x0, 0x0, 0x0, 0x0, 0x0, .low1, []⟩,
  ⟨"CNT_TALLY_ACCEPT_HI", 0x400044, 0, 0x0, 0, 0x0, 0x0, 0x0, 0x0, 0x0, 0x0, 0x0, 0x0, 0x0, 0xFFFFFFFF, .high, []⟩,
  ⟨"CNT_TALLY_DS_ACCEPT_LO", 0x400048, 0, 0x0, 0, 0x0, 0x0, 0x0, 0x0, 0xFFFFFFFF, 0x0, 0x0, 0x0, 0x0, 0x0, .low1, []⟩,
  ⟨"CNT_TALLY_DS_ACCEPT_HI", 0x40004C, 0, 0x0, 0, 0x0, 0x0, 0x0, 0x0, 0x0, 0x0, 0x0, 0x0, 0x0, 0xFFFFFFFF, .high, []⟩,
  ⟨"CNT_TALLY_CRC_ERR", 0x400060, 0, 0x0, 0, 0x0, 0x0, 0x0, 0x0, 0xFFFFFFFF, 0x0, 0x0, 0x0, 0x0, 0x0, .rc, []⟩,
  ⟨"CNT_TALLY_MALFORMED", 0x400064, 0, 0x0, 0, 0x0, 0x0, 0x0, 0x0, 0xFFFFFFFF, 0x0, 0x0, 0x0, 0x0, 0x0, .rc, []⟩,
  ⟨"CNT_TALLY_REFUSE_FULL", 0x400068, 0, 0x0, 0, 0x0, 0x0, 0x0, 0x0, 0xFFFFFFFF, 0x0, 0x0, 0x0, 0x0, 0x0, .rc, []⟩,
  ⟨"CNT_TALLY_REFUSE_CLOSED", 0x40006C, 0, 0x0, 0, 0x0, 0x0, 0x0, 0x0, 0xFFFFFFFF, 0x0, 0x0, 0x0, 0x0, 0x0, .rc, []⟩,
  ⟨"CNT_TALLY_REFUSE_DIP", 0x400070, 0, 0x0, 0, 0x0, 0x0, 0x0, 0x0, 0xFFFFFFFF, 0x0, 0x0, 0x0, 0x0, 0x0, .rc, []⟩,
  ⟨"CNT_TALLY_REFUSE_GOV", 0x400074, 0, 0x0, 0, 0x0, 0x0, 0x0, 0x0, 0xFFFFFFFF, 0x0, 0x0, 0x0, 0x0, 0x0, .rc, []⟩,
  ⟨"CNT_TALLY_REPEAT", 0x400078, 0, 0x0, 0, 0x0, 0x0, 0x0, 0x0, 0xFFFFFFFF, 0x0, 0x0, 0x0, 0x0, 0x0, .rc, []⟩,
  ⟨"CNT_TALLY_SPLIT", 0x40007C, 0, 0x0, 0, 0x0, 0x0, 0x0, 0x0, 0xFFFFFFFF, 0x0, 0x0, 0x0, 0x0, 0x0, .rc, []⟩,
  ⟨"CNT_TALLY_RTX_HE", 0x400080, 0, 0x0, 0, 0x0, 0x0, 0x0, 0x0, 0xFFFFFFFF, 0x0, 0x0, 0x0, 0x0, 0x0, .rc, []⟩,
  ⟨"CNT_TALLY_RTX_LOCAL", 0x400084, 0, 0x0, 0, 0x0, 0x0, 0x0, 0x0, 0xFFFFFFFF, 0x0, 0x0, 0x0, 0x0, 0x0, .rc, []⟩,
  ⟨"CNT_TALLY_DS_AHEAD", 0x400088, 0, 0x0, 0, 0x0, 0x0, 0x0, 0x0, 0xFFFFFFFF, 0x0, 0x0, 0x0, 0x0, 0x0, .rc, []⟩,
  ⟨"CNT_TALLY_DS_DUP", 0x40008C, 0, 0x0, 0, 0x0, 0x0, 0x0, 0x0, 0xFFFFFFFF, 0x0, 0x0, 0x0, 0x0, 0x0, .rc, []⟩,
  ⟨"CNT_TALLY_RECEIPT_STRAY", 0x400090, 0, 0x0, 0, 0x0, 0x0, 0x0, 0x0, 0xFFFFFFFF, 0x0, 0x0, 0x0, 0x0, 0x0, .rc, []⟩,
  ⟨"CNT_TALLY_HE_REFUSE", 0x400094, 0, 0x0, 0, 0x0, 0x0, 0x0, 0x0, 0xFFFFFFFF, 0x0, 0x0, 0x0, 0x0, 0x0, .rc, []⟩,
  ⟨"CNT_TALLY_SCAN_VOID", 0x400098, 0, 0x0, 0, 0x0, 0x0, 0x0, 0x0, 0xFFFFFFFF, 0x0, 0x0, 0x0, 0x0, 0x0, .rc, []⟩,
  ⟨"CNT_TALLY_SCAN_REPAIR", 0x40009C, 0, 0x0, 0, 0x0, 0x0, 0x0, 0x0, 0xFFFFFFFF, 0x0, 0x0, 0x0, 0x0, 0x0, .rc, []⟩,
  ⟨"CNT_TALLY_SCAN_LOST", 0x4000A0, 0, 0x0, 0, 0x0, 0x0, 0x0, 0x0, 0xFFFFFFFF, 0x0, 0x0, 0x0, 0x0, 0x0, .rc, []⟩]

/-- The TALLY registers, part 2. -/
def regRowsTally2 : List RegRow := [
  ⟨"CNT_TALLY_JOURNAL_READ", 0x4000A4, 0, 0x0, 0, 0x0, 0x0, 0x0, 0x0, 0xFFFFFFFF, 0x0, 0x0, 0x0, 0x0, 0x0, .rc, []⟩,
  ⟨"CNT_TALLY_CFG_BAD", 0x4000A8, 0, 0x0, 0, 0x0, 0x0, 0x0, 0x0, 0xFFFFFFFF, 0x0, 0x0, 0x0, 0x0, 0x0, .rc, []⟩,
  ⟨"TALLY_FLOW_CFG", 0x401000, 2048, 0x10, 0, 0x0, 0x0, 0xC77F00FF, 0x0, 0x0, 0x0, 0x0, 0x20000000, 0x0, 0x0, .plain, []⟩,
  ⟨"TALLY_FLOW_STATUS", 0x401004, 2048, 0x10, 0, 0x0, 0x0, 0x0, 0xC0003FFF, 0x0, 0x0, 0x0, 0x0, 0x0, 0x0, .plain, []⟩,
  ⟨"TALLY_FLOW_NEXT", 0x401008, 2048, 0x10, 0, 0x0, 0x0, 0x0, 0xFFFFFFFF, 0x0, 0x0, 0x0, 0x0, 0x0, 0x0, .plain, []⟩,
  ⟨"TALLY_FLOW_OLDEST", 0x40100C, 2048, 0x10, 0, 0x0, 0x0, 0x0, 0xFFFFFFFF, 0x0, 0x0, 0x0, 0x0, 0x0, 0x0, .plain, []⟩,
  ⟨"TALLY_EP_CFG", 0x409000, 256, 0x4, 0, 0x0, 0x0, 0x7F0001FF, 0x0, 0x0, 0x0, 0x0, 0x0, 0x0, 0x0, .plain, []⟩,
  ⟨"TALLY_HE_CFG", 0x409400, 128, 0x4, 0, 0x0, 0x0, 0x7F000000, 0x0, 0x0, 0x0, 0x0, 0x0, 0x0, 0x0, .plain, []⟩,
  ⟨"TALLY_EP_TPL", 0x410000, 256, 0x40, 16, 0x4, 0x0, 0xFFFFFFFF, 0x0, 0x0, 0x0, 0x0, 0x0, 0x0, 0x0, .plain, []⟩,
  ⟨"TALLY_HE_TPL", 0x414000, 128, 0x40, 16, 0x4, 0x0, 0xFFFFFFFF, 0x0, 0x0, 0x0, 0x0, 0x0, 0x0, 0x0, .plain, []⟩]

/-- The TALLY registers. -/
def regRowsTally : List RegRow := regRowsTally1 ++ regRowsTally2

/-- The CLS registers, part 1. -/
def regRowsCls1 : List RegRow := [
  ⟨"CLS_RULE_CMD", 0x500000, 4, 0x40000, 0, 0x0, 0x0, 0x3FFF, 0xC0000000, 0x0, 0x0, 0x0, 0x30000, 0x0, 0x0, .plain, []⟩,
  ⟨"CLS_RULE_DATA", 0x500100, 4, 0x40000, 41, 0x4, 0x0, 0xFFFFFFFF, 0x0, 0x0, 0x0, 0x0, 0x0, 0x0, 0x0, .plain, []⟩,
  ⟨"CNT_CLS_PARSE_DEEP", 0x500200, 4, 0x40000, 0, 0x0, 0x0, 0x0, 0x0, 0xFFFFFFFF, 0x0, 0x0, 0x0, 0x0, 0x0, .rc, []⟩,
  ⟨"CNT_CLS_MALFORMED", 0x500204, 4, 0x40000, 0, 0x0, 0x0, 0x0, 0x0, 0xFFFFFFFF, 0x0, 0x0, 0x0, 0x0, 0x0, .rc, []⟩,
  ⟨"CNT_CLS_MALFORMED_LATE", 0x500208, 4, 0x40000, 0, 0x0, 0x0, 0x0, 0x0, 0xFFFFFFFF, 0x0, 0x0, 0x0, 0x0, 0x0, .rc, []⟩,
  ⟨"CNT_CLS_NO_MATCH", 0x50020C, 4, 0x40000, 0, 0x0, 0x0, 0x0, 0x0, 0xFFFFFFFF, 0x0, 0x0, 0x0, 0x0, 0x0, .rc, []⟩,
  ⟨"CNT_CLS_DROP", 0x500210, 4, 0x40000, 0, 0x0, 0x0, 0x0, 0x0, 0xFFFFFFFF, 0x0, 0x0, 0x0, 0x0, 0x0, .rc, []⟩,
  ⟨"CNT_CLS_EXC_RULE", 0x500214, 4, 0x40000, 0, 0x0, 0x0, 0x0, 0x0, 0xFFFFFFFF, 0x0, 0x0, 0x0, 0x0, 0x0, .rc, []⟩,
  ⟨"CNT_CLS_MATCH_SKIP", 0x500218, 4, 0x40000, 0, 0x0, 0x0, 0x0, 0x0, 0xFFFFFFFF, 0x0, 0x0, 0x0, 0x0, 0x0, .rc, []⟩,
  ⟨"CLS_RULE_HIT", 0x510000, 4, 0x40000, 16384, 0x4, 0x0, 0x0, 0x0, 0xFFFFFFFF, 0x0, 0x0, 0x0, 0x0, 0x0, .rc, []⟩,
  ⟨"CLS_EXC_CTRL", 0x530000, 0, 0x0, 0, 0x0, 0xF0000401, 0xF000FF01, 0x0, 0x0, 0x0, 0x0, 0x0, 0x0, 0x0, .plain, [⟨15, 8, 1, 32⟩]⟩,
  ⟨"CLS_EXC_RATE", 0x530004, 0, 0x0, 0, 0x0, 0x4E200064, 0xFFFFFFFF, 0x0, 0x0, 0x0, 0x0, 0x0, 0x0, 0x0, .plain, [⟨15, 0, 1, 1000⟩]⟩,
  ⟨"CLS_EXC_DEPTH", 0x530008, 0, 0x0, 0, 0x0, 0x400080, 0xFFFFFFFF, 0x0, 0x0, 0x0, 0x0, 0x0, 0x0, 0x0, .plain, [⟨31, 16, 1, 1024⟩, ⟨15, 0, 1, 1024⟩]⟩,
  ⟨"CLS_PARSE_CFG", 0x530020, 0, 0x0, 0, 0x0, 0x12B5, 0xFFFF, 0x0, 0x0, 0x0, 0x0, 0x0, 0x0, 0x0, .plain, [⟨15, 0, 1, 65535⟩]⟩,
  ⟨"CLS_FDB_AGE", 0x530040, 0, 0x0, 0, 0x0, 0x12C, 0xFFFF, 0x0, 0x0, 0x0, 0x0, 0x0, 0x0, 0x0, .plain, []⟩,
  ⟨"CLS_FDB_CMD", 0x530044, 0, 0x0, 0, 0x0, 0x0, 0x0, 0xF0000000, 0x0, 0x0, 0x0, 0x7, 0x0, 0x0, .plain, []⟩,
  ⟨"CLS_FDB_DATA", 0x530048, 3, 0x4, 0, 0x0, 0x0, 0xFFFFFFFF, 0x0, 0x0, 0x0, 0x0, 0x0, 0x0, 0x0, .plain, []⟩,
  ⟨"CLS_FDB_COUNT", 0x530054, 0, 0x0, 0, 0x0, 0x0, 0x0, 0x7FFFF, 0x0, 0x0, 0x0, 0x0, 0x0, 0x0, .plain, []⟩,
  ⟨"CNT_EXC_OVER", 0x530010, 0, 0x0, 0, 0x0, 0x0, 0x0, 0x0, 0xFFFFFFFF, 0x0, 0x0, 0x0, 0x0, 0x0, .rc, []⟩,
  ⟨"CNT_EXC_RING_FULL", 0x530014, 0, 0x0, 0, 0x0, 0x0, 0x0, 0x0, 0xFFFFFFFF, 0x0, 0x0, 0x0, 0x0, 0x0, .rc, []⟩,
  ⟨"CNT_EXC_FWD", 0x530018, 0, 0x0, 0, 0x0, 0x0, 0x0, 0x0, 0xFFFFFFFF, 0x0, 0x0, 0x0, 0x0, 0x0, .rc, []⟩,
  ⟨"CNT_EXC_SUP_DROP", 0x53001C, 0, 0x0, 0, 0x0, 0x0, 0x0, 0x0, 0xFFFFFFFF, 0x0, 0x0, 0x0, 0x0, 0x0, .rc, []⟩,
  ⟨"CNT_FDB_FULL", 0x530060, 0, 0x0, 0, 0x0, 0x0, 0x0, 0x0, 0xFFFFFFFF, 0x0, 0x0, 0x0, 0x0, 0x0, .rc, []⟩,
  ⟨"CNT_FDB_MOVE", 0x530064, 0, 0x0, 0, 0x0, 0x0, 0x0, 0x0, 0xFFFFFFFF, 0x0, 0x0, 0x0, 0x0, 0x0, .rc, []⟩,
  ⟨"CNT_FDB_MOVE_STATIC", 0x530068, 0, 0x0, 0, 0x0, 0x0, 0x0, 0x0, 0xFFFFFFFF, 0x0, 0x0, 0x0, 0x0, 0x0, .rc, []⟩,
  ⟨"CNT_BRIDGE_FILTER", 0x53006C, 0, 0x0, 0, 0x0, 0x0, 0x0, 0x0, 0xFFFFFFFF, 0x0, 0x0, 0x0, 0x0, 0x0, .rc, []⟩,
  ⟨"CNT_BRIDGE_VLAN_DROP", 0x530070, 0, 0x0, 0, 0x0, 0x0, 0x0, 0x0, 0xFFFFFFFF, 0x0, 0x0, 0x0, 0x0, 0x0, .rc, []⟩,
  ⟨"CNT_BIND_MISS", 0x530074, 0, 0x0, 0, 0x0, 0x0, 0x0, 0x0, 0xFFFFFFFF, 0x0, 0x0, 0x0, 0x0, 0x0, .rc, []⟩,
  ⟨"CLS_VLAN_CMD", 0x530080, 0, 0x0, 0, 0x0, 0x0, 0xFFF, 0xC0000000, 0x0, 0x0, 0x0, 0x30000, 0x0, 0x0, .plain, []⟩,
  ⟨"CLS_VLAN_DATA", 0x530100, 16, 0x4, 0, 0x0, 0x0, 0xFFFFFFFF, 0x0, 0x0, 0x0, 0x0, 0x0, 0x0, 0x0, .plain, []⟩]

/-- The CLS registers, part 2. -/
def regRowsCls2 : List RegRow := [
  ⟨"CLS_VLAN_DATA_16", 0x530140, 0, 0x0, 0, 0x0, 0x0, 0xE000007F, 0x0, 0x0, 0x0, 0x0, 0x0, 0x0, 0x0, .plain, []⟩,
  ⟨"CLS_PORT_CFG", 0x531000, 512, 0x4, 0, 0x0, 0xC0040000, 0xFFFFFFFF, 0x0, 0x0, 0x0, 0x0, 0x0, 0x0, 0x0, .plain, [⟨17, 7, 0, 1024⟩, ⟨29, 18, 1, 4094⟩]⟩,
  ⟨"CLS_ID_CFG", 0x531800, 128, 0x4, 0, 0x0, 0xC0040000, 0xFFFFFFFF, 0x0, 0x0, 0x0, 0x0, 0x0, 0x0, 0x0, .plain, [⟨17, 7, 0, 1024⟩, ⟨29, 18, 1, 4094⟩]⟩,
  ⟨"CLS_ID_KMAP", 0x531A00, 128, 0x4, 0, 0x0, 0x0, 0xFFFFFF, 0x0, 0x0, 0x0, 0x0, 0x0, 0x0, 0x0, .plain, []⟩]

/-- The CLS registers. -/
def regRowsCls : List RegRow := regRowsCls1 ++ regRowsCls2

/-- The SCHED registers, part 1. -/
def regRowsSched1 : List RegRow := [
  ⟨"SCHED_PLAN", 0x600000, 0, 0x0, 0, 0x0, 0x400, 0x0, 0x800007FF, 0x0, 0x0, 0x0, 0x0, 0x0, 0x0, .plain, []⟩,
  ⟨"SCHED_PLAN_E", 0x600004, 0, 0x0, 0, 0x0, 0x0, 0x0, 0xFFFFFFFF, 0x0, 0x0, 0x0, 0x0, 0x0, 0x0, .plain, []⟩,
  ⟨"SCHED_GCL_CMD", 0x600010, 0, 0x0, 0, 0x0, 0x0, 0x1FFFF, 0xC0000000, 0x0, 0x0, 0x0, 0x30000000, 0x0, 0x0, .plain, []⟩,
  ⟨"SCHED_GCL_DATA0", 0x600014, 0, 0x0, 0, 0x0, 0x0, 0xFFFFFFFF, 0x0, 0x0, 0x0, 0x0, 0x0, 0x0, 0x0, .plain, []⟩,
  ⟨"SCHED_GCL_DATA1", 0x600018, 0, 0x0, 0, 0x0, 0x0, 0xFF, 0x0, 0x0, 0x0, 0x0, 0x0, 0x0, 0x0, .plain, []⟩,
  ⟨"SCHED_POL_CMD", 0x600020, 0, 0x0, 0, 0x0, 0x0, 0x1FFF, 0xC0000000, 0x0, 0x0, 0x0, 0x30000000, 0x0, 0x0, .plain, []⟩,
  ⟨"SCHED_POL_DATA", 0x600024, 8, 0x4, 0, 0x0, 0x0, 0xFFFFFFFF, 0x0, 0x0, 0x0, 0x0, 0x0, 0x0, 0x0, .plain, []⟩,
  ⟨"CNT_SCHED_SHED_SKIP", 0x600044, 0, 0x0, 0, 0x0, 0x0, 0x0, 0x0, 0xFFFFFFFF, 0x0, 0x0, 0x0, 0x0, 0x0, .rc, []⟩,
  ⟨"SCHED_POL_SRC", 0x601000, 640, 0x4, 0, 0x0, 0x0, 0x1FFFFFFF, 0x0, 0x0, 0x0, 0x0, 0x0, 0x0, 0x0, .plain, []⟩,
  ⟨"SCHED_PORT_CFG", 0x610000, 512, 0x200, 0, 0x0, 0x40070000, 0xF0070007, 0x0, 0x0, 0x0, 0x0, 0x0, 0x0, 0x0, .plain, [⟨2, 0, 0, 3⟩]⟩,
  ⟨"SCHED_PORT_RATE", 0x610004, 512, 0x200, 0, 0x0, 0x0, 0xFFFFFFFF, 0x0, 0x0, 0x0, 0x0, 0x0, 0x0, 0x0, .plain, []⟩,
  ⟨"SCHED_PORT_BURST", 0x610008, 512, 0x200, 0, 0x0, 0x4000, 0x80FFFFFF, 0x0, 0x0, 0x0, 0x0, 0x0, 0x0, 0x0, .plain, [⟨23, 0, 1, 16777215⟩]⟩,
  ⟨"SCHED_PORT_CREDIT", 0x61000C, 512, 0x200, 0, 0x0, 0x0, 0x0, 0xFFFFFFFF, 0x0, 0x0, 0x0, 0x0, 0x0, 0x0, .plain, []⟩,
  ⟨"SCHED_PORT_WCAP", 0x610010, 512, 0x200, 0, 0x0, 0xFFFFFFFF, 0x0, 0xFFFFFFFF, 0x0, 0x0, 0x0, 0x0, 0x0, 0x0, .plain, []⟩,
  ⟨"SCHED_PORT_PAUSE", 0x610014, 512, 0x200, 0, 0x0, 0x0, 0x0, 0x1FF, 0x0, 0x0, 0x0, 0x0, 0x0, 0x0, .plain, []⟩,
  ⟨"SCHED_GATE_CTRL", 0x610020, 512, 0x200, 0, 0x0, 0x1, 0x1FF, 0x78000000, 0x0, 0x0, 0x0, 0x80000000, 0x0, 0x0, .plain, []⟩,
  ⟨"SCHED_GATE_CYCLE", 0x610024, 512, 0x200, 0, 0x0, 0x0, 0xFFFFFFFF, 0x0, 0x0, 0x0, 0x0, 0x0, 0x0, 0x0, .plain, []⟩,
  ⟨"SCHED_GATE_BASE_NS", 0x610028, 512, 0x200, 0, 0x0, 0x0, 0xFFFFFFFF, 0x0, 0x0, 0x0, 0x0, 0x0, 0x0, 0x0, .plain, []⟩,
  ⟨"SCHED_GATE_BASE_SEC_LO", 0x61002C, 512, 0x200, 0, 0x0, 0x0, 0xFFFFFFFF, 0x0, 0x0, 0x0, 0x0, 0x0, 0x0, 0x0, .plain, []⟩,
  ⟨"SCHED_GATE_BASE_SEC_HI", 0x610030, 512, 0x200, 0, 0x0, 0x0, 0xFFFFFFFF, 0x0, 0x0, 0x0, 0x0, 0x0, 0x0, 0x0, .plain, []⟩,
  ⟨"SCHED_GATE_STATUS", 0x610034, 512, 0x200, 0, 0x0, 0x0, 0x0, 0x8000FFFF, 0x0, 0x0, 0x0, 0x0, 0x0, 0x0, .plain, []⟩,
  ⟨"SCHED_GATE_START_NS", 0x610038, 512, 0x200, 0, 0x0, 0x0, 0x0, 0xFFFFFFFF, 0x0, 0x0, 0x0, 0x0, 0x0, 0x0, .plain, []⟩,
  ⟨"SCHED_GATE_START_SEC_LO", 0x61003C, 512, 0x200, 0, 0x0, 0x0, 0x0, 0xFFFFFFFF, 0x0, 0x0, 0x0, 0x0, 0x0, 0x0, .plain, []⟩,
  ⟨"SCHED_GATE_START_SEC_HI", 0x610040, 512, 0x200, 0, 0x0, 0x0, 0x0, 0xFFFFFFFF, 0x0, 0x0, 0x0, 0x0, 0x0, 0x0, .plain, []⟩,
  ⟨"CNT_SCHED_GATE_HOLD", 0x610060, 512, 0x200, 0, 0x0, 0x0, 0x0, 0x0, 0xFFFFFFFF, 0x0, 0x0, 0x0, 0x0, 0x0, .rc, []⟩,
  ⟨"CNT_SCHED_GATE_OVERRUN", 0x610064, 512, 0x200, 0, 0x0, 0x0, 0x0, 0x0, 0xFFFFFFFF, 0x0, 0x0, 0x0, 0x0, 0x0, .rc, []⟩,
  ⟨"CNT_SCHED_GATE_CORR", 0x610068, 512, 0x200, 0, 0x0, 0x0, 0x0, 0x0, 0xFFFFFFFF, 0x0, 0x0, 0x0, 0x0, 0x0, .rc, []⟩,
  ⟨"CNT_SCHED_PAUSE_RX", 0x61006C, 512, 0x200, 0, 0x0, 0x0, 0x0, 0x0, 0xFFFFFFFF, 0x0, 0x0, 0x0, 0x0, 0x0, .rc, []⟩,
  ⟨"CNT_SCHED_PFC_RX", 0x610070, 512, 0x200, 0, 0x0, 0x0, 0x0, 0x0, 0xFFFFFFFF, 0x0, 0x0, 0x0, 0x0, 0x0, .rc, []⟩,
  ⟨"CNT_SCHED_PAUSE_IGN", 0x610074, 512, 0x200, 0, 0x0, 0x0, 0x0, 0x0, 0xFFFFFFFF, 0x0, 0x0, 0x0, 0x0, 0x0, .rc, []⟩]

/-- The SCHED registers, part 2. -/
def regRowsSched2 : List RegRow := [
  ⟨"CNT_SCHED_LANE_PAUSE_DROP", 0x610078, 512, 0x200, 0, 0x0, 0x0, 0x0, 0x0, 0xFFFFFFFF, 0x0, 0x0, 0x0, 0x0, 0x0, .rc, []⟩,
  ⟨"CNT_SCHED_DROP_YELLOW", 0x61007C, 512, 0x200, 0, 0x0, 0x0, 0x0, 0x0, 0xFFFFFFFF, 0x0, 0x0, 0x0, 0x0, 0x0, .rc, []⟩,
  ⟨"CNT_SCHED_DROP_RED", 0x610080, 512, 0x200, 0, 0x0, 0x0, 0x0, 0x0, 0xFFFFFFFF, 0x0, 0x0, 0x0, 0x0, 0x0, .rc, []⟩,
  ⟨"CNT_SCHED_NOBUF", 0x610084, 512, 0x200, 0, 0x0, 0x0, 0x0, 0x0, 0xFFFFFFFF, 0x0, 0x0, 0x0, 0x0, 0x0, .rc, []⟩,
  ⟨"SCHED_Q_CFG", 0x610100, 512, 0x200, 8, 0x20, 0x10, 0xFF, 0x0, 0x0, 0x0, 0x0, 0x0, 0x0, 0x0, .plain, [⟨7, 0, 1, 255⟩]⟩,
  ⟨"SCHED_Q_RATE", 0x610104, 512, 0x200, 8, 0x20, 0x0, 0xFFFFFFFF, 0x0, 0x0, 0x0, 0x0, 0x0, 0x0, 0x0, .plain, []⟩,
  ⟨"SCHED_Q_BURST", 0x610108, 512, 0x200, 8, 0x20, 0x4000, 0x80FFFFFF, 0x0, 0x0, 0x0, 0x0, 0x0, 0x0, 0x0, .plain, [⟨23, 0, 1, 16777215⟩]⟩,
  ⟨"SCHED_Q_LIMIT", 0x61010C, 512, 0x200, 8, 0x20, 0x8001000, 0xFFFFFFFF, 0x0, 0x0, 0x0, 0x0, 0x0, 0x0, 0x0, .plain, []⟩,
  ⟨"SCHED_Q_RLIMIT", 0x610110, 512, 0x200, 8, 0x20, 0x200, 0xFFFF, 0x0, 0x0, 0x0, 0x0, 0x0, 0x0, 0x0, .plain, []⟩,
  ⟨"SCHED_Q_CREDIT", 0x610114, 512, 0x200, 8, 0x20, 0x0, 0x0, 0xFFFFFFFF, 0x0, 0x0, 0x0, 0x0, 0x0, 0x0, .plain, []⟩,
  ⟨"SCHED_Q_DEPTH", 0x610118, 512, 0x200, 8, 0x20, 0x0, 0x0, 0xFFFFFFFF, 0x0, 0x0, 0x0, 0x0, 0x0, 0x0, .plain, []⟩,
  ⟨"CNT_SCHED_Q_DROP", 0x61011C, 512, 0x200, 8, 0x20, 0x0, 0x0, 0x0, 0xFFFFFFFF, 0x0, 0x0, 0x0, 0x0, 0x0, .rc, []⟩,
  ⟨"SCHED_AQ_CFG", 0x660000, 1024, 0x10, 0, 0x0, 0x4000, 0xFF0FFFFF, 0x0, 0x0, 0x0, 0x0, 0x0, 0x0, 0x0, .plain, [⟨19, 0, 1, 1048575⟩]⟩,
  ⟨"SCHED_AQ_BACKLOG", 0x660004, 1024, 0x10, 0, 0x0, 0x0, 0x0, 0xFFFFFFFF, 0x0, 0x0, 0x0, 0x0, 0x0, 0x0, .plain, []⟩,
  ⟨"CNT_AQ_DROP", 0x660008, 1024, 0x10, 0, 0x0, 0x0, 0x0, 0x0, 0xFFFFFFFF, 0x0, 0x0, 0x0, 0x0, 0x0, .rc, []⟩,
  ⟨"CNT_AQ_CAP_HOLD", 0x66000C, 1024, 0x10, 0, 0x0, 0x0, 0x0, 0x0, 0xFFFFFFFF, 0x0, 0x0, 0x0, 0x0, 0x0, .rc, []⟩]

/-- The SCHED registers. -/
def regRowsSched : List RegRow := regRowsSched1 ++ regRowsSched2

/-- The TUB registers. -/
def regRowsTub : List RegRow := [
  ⟨"TUB_POOL_BASE_0", 0x700000, 0, 0x0, 0, 0x0, 0x0, 0x7FFFF, 0x0, 0x0, 0x0, 0x0, 0x0, 0x0, 0x0, .plain, []⟩,
  ⟨"TUB_POOL_END_0", 0x700004, 0, 0x0, 0, 0x0, 0x30000, 0x7FFFF, 0x0, 0x0, 0x0, 0x0, 0x0, 0x0, 0x0, .plain, []⟩,
  ⟨"TUB_POOL_BASE_1", 0x700008, 0, 0x0, 0, 0x0, 0x30000, 0x7FFFF, 0x0, 0x0, 0x0, 0x0, 0x0, 0x0, 0x0, .plain, []⟩,
  ⟨"TUB_POOL_END_1", 0x70000C, 0, 0x0, 0, 0x0, 0x48000, 0x7FFFF, 0x0, 0x0, 0x0, 0x0, 0x0, 0x0, 0x0, .plain, []⟩,
  ⟨"TUB_POOL_BASE_2", 0x700010, 0, 0x0, 0, 0x0, 0x48000, 0x7FFFF, 0x0, 0x0, 0x0, 0x0, 0x0, 0x0, 0x0, .plain, []⟩,
  ⟨"TUB_POOL_END_2", 0x700014, 0, 0x0, 0, 0x0, 0x58000, 0x7FFFF, 0x0, 0x0, 0x0, 0x0, 0x0, 0x0, 0x0, .plain, []⟩,
  ⟨"TUB_POOL_BASE_3", 0x700018, 0, 0x0, 0, 0x0, 0x58000, 0x7FFFF, 0x0, 0x0, 0x0, 0x0, 0x0, 0x0, 0x0, .plain, []⟩,
  ⟨"TUB_POOL_END_3", 0x70001C, 0, 0x0, 0, 0x0, 0x60000, 0x7FFFF, 0x0, 0x0, 0x0, 0x0, 0x0, 0x0, 0x0, .plain, []⟩,
  ⟨"TUB_DPOOL_BASE_0", 0x700020, 0, 0x0, 0, 0x0, 0x100000, 0xFFFFFFF, 0x0, 0x0, 0x0, 0x0, 0x0, 0x0, 0x0, .plain, []⟩,
  ⟨"TUB_DPOOL_END_0", 0x700024, 0, 0x0, 0, 0x0, 0x4100000, 0xFFFFFFF, 0x0, 0x0, 0x0, 0x0, 0x0, 0x0, 0x0, .plain, []⟩,
  ⟨"TUB_DPOOL_BASE_1", 0x700028, 0, 0x0, 0, 0x0, 0x4100000, 0xFFFFFFF, 0x0, 0x0, 0x0, 0x0, 0x0, 0x0, 0x0, .plain, []⟩,
  ⟨"TUB_DPOOL_END_1", 0x70002C, 0, 0x0, 0, 0x0, 0x8000000, 0xFFFFFFF, 0x0, 0x0, 0x0, 0x0, 0x0, 0x0, 0x0, .plain, []⟩,
  ⟨"TUB_FLOOR_0", 0x700030, 0, 0x0, 0, 0x0, 0x8000, 0x7FFFF, 0x0, 0x0, 0x0, 0x0, 0x0, 0x0, 0x0, .plain, []⟩,
  ⟨"TUB_FLOOR_1", 0x700034, 0, 0x0, 0, 0x0, 0x4000, 0x7FFFF, 0x0, 0x0, 0x0, 0x0, 0x0, 0x0, 0x0, .plain, []⟩,
  ⟨"TUB_FLOOR_2", 0x700038, 0, 0x0, 0, 0x0, 0x2000, 0x7FFFF, 0x0, 0x0, 0x0, 0x0, 0x0, 0x0, 0x0, .plain, []⟩,
  ⟨"TUB_FLOOR_USED", 0x700040, 3, 0x4, 0, 0x0, 0x0, 0x0, 0x7FFFF, 0x0, 0x0, 0x0, 0x0, 0x0, 0x0, .plain, []⟩,
  ⟨"TUB_SHARED_SIZE", 0x700050, 0, 0x0, 0, 0x0, 0x0, 0x0, 0x7FFFF, 0x0, 0x0, 0x0, 0x0, 0x0, 0x0, .plain, []⟩,
  ⟨"TUB_SHARED_USED", 0x700054, 0, 0x0, 0, 0x0, 0x0, 0x0, 0x7FFFF, 0x0, 0x0, 0x0, 0x0, 0x0, 0x0, .plain, []⟩,
  ⟨"TUB_SPILL_CTRL", 0x700060, 0, 0x0, 0, 0x0, 0x82000100, 0xFFFFFFFF, 0x0, 0x0, 0x0, 0x0, 0x0, 0x0, 0x0, .plain, [⟨30, 16, 1, 32767⟩, ⟨15, 0, 1, 65535⟩]⟩,
  ⟨"TUB_DDR_STATUS", 0x700064, 0, 0x0, 0, 0x0, 0x0, 0x0, 0xFFFF01FF, 0x0, 0x0, 0x0, 0x0, 0x0, 0x0, .plain, []⟩,
  ⟨"TUB_DDR_HELD", 0x700068, 0, 0x0, 0, 0x0, 0x0, 0x0, 0x3FFFFFF, 0x0, 0x0, 0x0, 0x0, 0x0, 0x0, .plain, []⟩,
  ⟨"CNT_TUB_BAD_FREE", 0x700080, 0, 0x0, 0, 0x0, 0x0, 0x0, 0x0, 0xFFFFFFFF, 0x0, 0x0, 0x0, 0x0, 0x0, .rc, []⟩,
  ⟨"CNT_TUB_RING_DRY", 0x700084, 0, 0x0, 0, 0x0, 0x0, 0x0, 0x0, 0xFFFFFFFF, 0x0, 0x0, 0x0, 0x0, 0x0, .rc, []⟩,
  ⟨"CNT_TUB_SPILL_DENY", 0x700088, 0, 0x0, 0, 0x0, 0x0, 0x0, 0x0, 0xFFFFFFFF, 0x0, 0x0, 0x0, 0x0, 0x0, .rc, []⟩,
  ⟨"CNT_TUB_DDR_LOST", 0x70008C, 0, 0x0, 0, 0x0, 0x0, 0x0, 0x0, 0xFFFFFFFF, 0x0, 0x0, 0x0, 0x0, 0x0, .rc, []⟩,
  ⟨"CNT_TUB_CFG_BAD", 0x700090, 0, 0x0, 0, 0x0, 0x0, 0x0, 0x0, 0xFFFFFFFF, 0x0, 0x0, 0x0, 0x0, 0x0, .rc, []⟩,
  ⟨"CNT_TUB_FLOOR_WAIT", 0x700094, 0, 0x0, 0, 0x0, 0x0, 0x0, 0x0, 0xFFFFFFFF, 0x0, 0x0, 0x0, 0x0, 0x0, .rc, []⟩,
  ⟨"TUB_RING_CFG", 0x700100, 8, 0x10, 0, 0x0, 0x0, 0xBF0F0000, 0x0, 0x0, 0x0, 0x0, 0x0, 0x0, 0x0, .plain, [⟨19, 16, 4, 12⟩]⟩,
  ⟨"TUB_RING_BASE", 0x700104, 8, 0x10, 0, 0x0, 0x0, 0x7FFFFFF, 0x0, 0x0, 0x0, 0x0, 0x0, 0x0, 0x0, .plain, []⟩,
  ⟨"TUB_RING_POS", 0x700108, 8, 0x10, 0, 0x0, 0x0, 0x0, 0xFFFFFFFF, 0x0, 0x0, 0x0, 0x0, 0x0, 0x0, .plain, []⟩]

/-- The WND registers. -/
def regRowsWnd : List RegRow := [
  ⟨"WND_EVT_CFG", 0x780000, 32, 0x4, 0, 0x0, 0x0, 0x7, 0x0, 0x0, 0x0, 0x0, 0x0, 0x0, 0x0, .plain, [⟨2, 0, 0, 4⟩]⟩,
  ⟨"WND_CH_CFG", 0x781000, 64, 0x20, 0, 0x0, 0x0, 0xC000003F, 0x0, 0x0, 0x0, 0x0, 0x0, 0x0, 0x0, .plain, []⟩,
  ⟨"WND_CH_HEAD_LO", 0x781004, 64, 0x20, 0, 0x0, 0x0, 0xFFFFFFFF, 0x0, 0x0, 0x0, 0x0, 0x0, 0x0, 0x0, .plain, []⟩,
  ⟨"WND_CH_HEAD_HI", 0x781008, 64, 0x20, 0, 0x0, 0x0, 0xFFFFFFFF, 0x0, 0x0, 0x0, 0x0, 0x0, 0x0, 0x0, .plain, []⟩,
  ⟨"WND_CH_DOORBELL", 0x78100C, 64, 0x20, 0, 0x0, 0x0, 0x0, 0x0, 0x0, 0x0, 0x0, 0xFFFFFFFF, 0x0, 0x0, .plain, []⟩,
  ⟨"WND_CH_STATUS", 0x781010, 64, 0x20, 0, 0x0, 0x0, 0x0, 0xF0F, 0x0, 0x0, 0x0, 0x0, 0x0, 0x0, .plain, []⟩,
  ⟨"WND_CH_CUR_LO", 0x781014, 64, 0x20, 0, 0x0, 0x0, 0x0, 0xFFFFFFFF, 0x0, 0x0, 0x0, 0x0, 0x0, 0x0, .plain, []⟩,
  ⟨"WND_CH_CUR_HI", 0x781018, 64, 0x20, 0, 0x0, 0x0, 0x0, 0xFFFFFFFF, 0x0, 0x0, 0x0, 0x0, 0x0, 0x0, .plain, []⟩,
  ⟨"CNT_WND_ERR", 0x78101C, 64, 0x20, 0, 0x0, 0x0, 0x0, 0x0, 0xFFFFFFFF, 0x0, 0x0, 0x0, 0x0, 0x0, .rc, []⟩]

/-- The PORT registers, part 1. -/
def regRowsPort1 : List RegRow := [
  ⟨"PORT_CFG", 0x800000, 512, 0x1000, 0, 0x0, 0x85FA, 0x7BFFF, 0x0, 0x0, 0x0, 0x0, 0x0, 0x0, 0x0, .plain, [⟨13, 0, 1518, 12288⟩]⟩,
  ⟨"PORT_STATUS", 0x800004, 512, 0x1000, 0, 0x0, 0x0, 0x0, 0xF00700FD, 0x0, 0x0, 0x0, 0x0, 0x0, 0x0, .plain, []⟩,
  ⟨"PORT_EEE_CFG", 0x800008, 512, 0x1000, 0, 0x0, 0x321008, 0xC3FFFFFF, 0x0, 0x0, 0x0, 0x0, 0x0, 0x0, 0x0, .plain, [⟨25, 16, 1, 1023⟩]⟩,
  ⟨"PORT_EEE_STATUS", 0x80000C, 512, 0x1000, 0, 0x0, 0x0, 0x0, 0xFFFFFFFF, 0x0, 0x0, 0x0, 0x0, 0x0, 0x0, .plain, []⟩,
  ⟨"PORT_TS_ADJ", 0x800010, 512, 0x1000, 0, 0x0, 0x0, 0xFFFFFFFF, 0x0, 0x0, 0x0, 0x0, 0x0, 0x0, 0x0, .plain, []⟩,
  ⟨"CNT_PORT_LINK_DROP", 0x800020, 512, 0x1000, 0, 0x0, 0x0, 0x0, 0x0, 0xFFFFFFFF, 0x0, 0x0, 0x0, 0x0, 0x0, .rc, []⟩,
  ⟨"CNT_PORT_MODE_FLUSH", 0x800024, 512, 0x1000, 0, 0x0, 0x0, 0x0, 0x0, 0xFFFFFFFF, 0x0, 0x0, 0x0, 0x0, 0x0, .rc, []⟩,
  ⟨"CNT_PORT_LLDP_DROP", 0x800028, 512, 0x1000, 0, 0x0, 0x0, 0x0, 0x0, 0xFFFFFFFF, 0x0, 0x0, 0x0, 0x0, 0x0, .rc, []⟩,
  ⟨"CNT_PORT_RX_OCTETS_OK_LO", 0x800100, 512, 0x1000, 0, 0x0, 0x0, 0x0, 0x0, 0xFFFFFFFF, 0x0, 0x0, 0x0, 0x0, 0x0, .low1, []⟩,
  ⟨"CNT_PORT_RX_OCTETS_OK_HI", 0x800104, 512, 0x1000, 0, 0x0, 0x0, 0x0, 0x0, 0x0, 0x0, 0x0, 0x0, 0x0, 0xFFFFFFFF, .high, []⟩,
  ⟨"CNT_PORT_RX_FRAMES_OK_LO", 0x800108, 512, 0x1000, 0, 0x0, 0x0, 0x0, 0x0, 0xFFFFFFFF, 0x0, 0x0, 0x0, 0x0, 0x0, .low1, []⟩,
  ⟨"CNT_PORT_RX_FRAMES_OK_HI", 0x80010C, 512, 0x1000, 0, 0x0, 0x0, 0x0, 0x0, 0x0, 0x0, 0x0, 0x0, 0x0, 0xFFFFFFFF, .high, []⟩,
  ⟨"CNT_PORT_RX_UCAST_LO", 0x800110, 512, 0x1000, 0, 0x0, 0x0, 0x0, 0x0, 0xFFFFFFFF, 0x0, 0x0, 0x0, 0x0, 0x0, .low1, []⟩,
  ⟨"CNT_PORT_RX_UCAST_HI", 0x800114, 512, 0x1000, 0, 0x0, 0x0, 0x0, 0x0, 0x0, 0x0, 0x0, 0x0, 0x0, 0xFFFFFFFF, .high, []⟩,
  ⟨"CNT_PORT_RX_MCAST_LO", 0x800118, 512, 0x1000, 0, 0x0, 0x0, 0x0, 0x0, 0xFFFFFFFF, 0x0, 0x0, 0x0, 0x0, 0x0, .low1, []⟩,
  ⟨"CNT_PORT_RX_MCAST_HI", 0x80011C, 512, 0x1000, 0, 0x0, 0x0, 0x0, 0x0, 0x0, 0x0, 0x0, 0x0, 0x0, 0xFFFFFFFF, .high, []⟩,
  ⟨"CNT_PORT_RX_BCAST_LO", 0x800120, 512, 0x1000, 0, 0x0, 0x0, 0x0, 0x0, 0xFFFFFFFF, 0x0, 0x0, 0x0, 0x0, 0x0, .low1, []⟩,
  ⟨"CNT_PORT_RX_BCAST_HI", 0x800124, 512, 0x1000, 0, 0x0, 0x0, 0x0, 0x0, 0x0, 0x0, 0x0, 0x0, 0x0, 0xFFFFFFFF, .high, []⟩,
  ⟨"CNT_PORT_RX_PAUSE_LO", 0x800128, 512, 0x1000, 0, 0x0, 0x0, 0x0, 0x0, 0xFFFFFFFF, 0x0, 0x0, 0x0, 0x0, 0x0, .low1, []⟩,
  ⟨"CNT_PORT_RX_PAUSE_HI", 0x80012C, 512, 0x1000, 0, 0x0, 0x0, 0x0, 0x0, 0x0, 0x0, 0x0, 0x0, 0x0, 0xFFFFFFFF, .high, []⟩,
  ⟨"CNT_PORT_RX_PFC_LO", 0x800130, 512, 0x1000, 0, 0x0, 0x0, 0x0, 0x0, 0xFFFFFFFF, 0x0, 0x0, 0x0, 0x0, 0x0, .low1, []⟩,
  ⟨"CNT_PORT_RX_PFC_HI", 0x800134, 512, 0x1000, 0, 0x0, 0x0, 0x0, 0x0, 0x0, 0x0, 0x0, 0x0, 0x0, 0xFFFFFFFF, .high, []⟩,
  ⟨"CNT_PORT_RX_CTRL_BAD_LO", 0x800138, 512, 0x1000, 0, 0x0, 0x0, 0x0, 0x0, 0xFFFFFFFF, 0x0, 0x0, 0x0, 0x0, 0x0, .low1, []⟩,
  ⟨"CNT_PORT_RX_CTRL_BAD_HI", 0x80013C, 512, 0x1000, 0, 0x0, 0x0, 0x0, 0x0, 0x0, 0x0, 0x0, 0x0, 0x0, 0xFFFFFFFF, .high, []⟩,
  ⟨"CNT_PORT_RX_64_LO", 0x800140, 512, 0x1000, 0, 0x0, 0x0, 0x0, 0x0, 0xFFFFFFFF, 0x0, 0x0, 0x0, 0x0, 0x0, .low1, []⟩,
  ⟨"CNT_PORT_RX_64_HI", 0x800144, 512, 0x1000, 0, 0x0, 0x0, 0x0, 0x0, 0x0, 0x0, 0x0, 0x0, 0x0, 0xFFFFFFFF, .high, []⟩,
  ⟨"CNT_PORT_RX_65_127_LO", 0x800148, 512, 0x1000, 0, 0x0, 0x0, 0x0, 0x0, 0xFFFFFFFF, 0x0, 0x0, 0x0, 0x0, 0x0, .low1, []⟩,
  ⟨"CNT_PORT_RX_65_127_HI", 0x80014C, 512, 0x1000, 0, 0x0, 0x0, 0x0, 0x0, 0x0, 0x0, 0x0, 0x0, 0x0, 0xFFFFFFFF, .high, []⟩,
  ⟨"CNT_PORT_RX_128_255_LO", 0x800150, 512, 0x1000, 0, 0x0, 0x0, 0x0, 0x0, 0xFFFFFFFF, 0x0, 0x0, 0x0, 0x0, 0x0, .low1, []⟩,
  ⟨"CNT_PORT_RX_128_255_HI", 0x800154, 512, 0x1000, 0, 0x0, 0x0, 0x0, 0x0, 0x0, 0x0, 0x0, 0x0, 0x0, 0xFFFFFFFF, .high, []⟩]

/-- The PORT registers, part 2. -/
def regRowsPort2 : List RegRow := [
  ⟨"CNT_PORT_RX_256_511_LO", 0x800158, 512, 0x1000, 0, 0x0, 0x0, 0x0, 0x0, 0xFFFFFFFF, 0x0, 0x0, 0x0, 0x0, 0x0, .low1, []⟩,
  ⟨"CNT_PORT_RX_256_511_HI", 0x80015C, 512, 0x1000, 0, 0x0, 0x0, 0x0, 0x0, 0x0, 0x0, 0x0, 0x0, 0x0, 0xFFFFFFFF, .high, []⟩,
  ⟨"CNT_PORT_RX_512_1023_LO", 0x800160, 512, 0x1000, 0, 0x0, 0x0, 0x0, 0x0, 0xFFFFFFFF, 0x0, 0x0, 0x0, 0x0, 0x0, .low1, []⟩,
  ⟨"CNT_PORT_RX_512_1023_HI", 0x800164, 512, 0x1000, 0, 0x0, 0x0, 0x0, 0x0, 0x0, 0x0, 0x0, 0x0, 0x0, 0xFFFFFFFF, .high, []⟩,
  ⟨"CNT_PORT_RX_1024_1518_LO", 0x800168, 512, 0x1000, 0, 0x0, 0x0, 0x0, 0x0, 0xFFFFFFFF, 0x0, 0x0, 0x0, 0x0, 0x0, .low1, []⟩,
  ⟨"CNT_PORT_RX_1024_1518_HI", 0x80016C, 512, 0x1000, 0, 0x0, 0x0, 0x0, 0x0, 0x0, 0x0, 0x0, 0x0, 0x0, 0xFFFFFFFF, .high, []⟩,
  ⟨"CNT_PORT_RX_1519_MAX_LO", 0x800170, 512, 0x1000, 0, 0x0, 0x0, 0x0, 0x0, 0xFFFFFFFF, 0x0, 0x0, 0x0, 0x0, 0x0, .low1, []⟩,
  ⟨"CNT_PORT_RX_1519_MAX_HI", 0x800174, 512, 0x1000, 0, 0x0, 0x0, 0x0, 0x0, 0x0, 0x0, 0x0, 0x0, 0x0, 0xFFFFFFFF, .high, []⟩,
  ⟨"CNT_PORT_RX_FCS_ERR_LO", 0x800178, 512, 0x1000, 0, 0x0, 0x0, 0x0, 0x0, 0xFFFFFFFF, 0x0, 0x0, 0x0, 0x0, 0x0, .low1, []⟩,
  ⟨"CNT_PORT_RX_FCS_ERR_HI", 0x80017C, 512, 0x1000, 0, 0x0, 0x0, 0x0, 0x0, 0x0, 0x0, 0x0, 0x0, 0x0, 0xFFFFFFFF, .high, []⟩,
  ⟨"CNT_PORT_RX_UNDERSIZE_LO", 0x800180, 512, 0x1000, 0, 0x0, 0x0, 0x0, 0x0, 0xFFFFFFFF, 0x0, 0x0, 0x0, 0x0, 0x0, .low1, []⟩,
  ⟨"CNT_PORT_RX_UNDERSIZE_HI", 0x800184, 512, 0x1000, 0, 0x0, 0x0, 0x0, 0x0, 0x0, 0x0, 0x0, 0x0, 0x0, 0xFFFFFFFF, .high, []⟩,
  ⟨"CNT_PORT_RX_FRAGMENT_LO", 0x800188, 512, 0x1000, 0, 0x0, 0x0, 0x0, 0x0, 0xFFFFFFFF, 0x0, 0x0, 0x0, 0x0, 0x0, .low1, []⟩,
  ⟨"CNT_PORT_RX_FRAGMENT_HI", 0x80018C, 512, 0x1000, 0, 0x0, 0x0, 0x0, 0x0, 0x0, 0x0, 0x0, 0x0, 0x0, 0xFFFFFFFF, .high, []⟩,
  ⟨"CNT_PORT_RX_OVERSIZE_LO", 0x800190, 512, 0x1000, 0, 0x0, 0x0, 0x0, 0x0, 0xFFFFFFFF, 0x0, 0x0, 0x0, 0x0, 0x0, .low1, []⟩,
  ⟨"CNT_PORT_RX_OVERSIZE_HI", 0x800194, 512, 0x1000, 0, 0x0, 0x0, 0x0, 0x0, 0x0, 0x0, 0x0, 0x0, 0x0, 0xFFFFFFFF, .high, []⟩,
  ⟨"CNT_PORT_RX_CODE_ERR_LO", 0x800198, 512, 0x1000, 0, 0x0, 0x0, 0x0, 0x0, 0xFFFFFFFF, 0x0, 0x0, 0x0, 0x0, 0x0, .low1, []⟩,
  ⟨"CNT_PORT_RX_CODE_ERR_HI", 0x80019C, 512, 0x1000, 0, 0x0, 0x0, 0x0, 0x0, 0x0, 0x0, 0x0, 0x0, 0x0, 0xFFFFFFFF, .high, []⟩,
  ⟨"CNT_PORT_RX_LPI_ENTRY_LO", 0x8001A0, 512, 0x1000, 0, 0x0, 0x0, 0x0, 0x0, 0xFFFFFFFF, 0x0, 0x0, 0x0, 0x0, 0x0, .low1, []⟩,
  ⟨"CNT_PORT_RX_LPI_ENTRY_HI", 0x8001A4, 512, 0x1000, 0, 0x0, 0x0, 0x0, 0x0, 0x0, 0x0, 0x0, 0x0, 0x0, 0xFFFFFFFF, .high, []⟩,
  ⟨"CNT_PORT_RX_LPI_US_LO", 0x8001A8, 512, 0x1000, 0, 0x0, 0x0, 0x0, 0x0, 0xFFFFFFFF, 0x0, 0x0, 0x0, 0x0, 0x0, .low1, []⟩,
  ⟨"CNT_PORT_RX_LPI_US_HI", 0x8001AC, 512, 0x1000, 0, 0x0, 0x0, 0x0, 0x0, 0x0, 0x0, 0x0, 0x0, 0x0, 0xFFFFFFFF, .high, []⟩,
  ⟨"CNT_PORT_TX_OCTETS_LO", 0x8001B0, 512, 0x1000, 0, 0x0, 0x0, 0x0, 0x0, 0xFFFFFFFF, 0x0, 0x0, 0x0, 0x0, 0x0, .low1, []⟩,
  ⟨"CNT_PORT_TX_OCTETS_HI", 0x8001B4, 512, 0x1000, 0, 0x0, 0x0, 0x0, 0x0, 0x0, 0x0, 0x0, 0x0, 0x0, 0xFFFFFFFF, .high, []⟩,
  ⟨"CNT_PORT_TX_FRAMES_LO", 0x8001B8, 512, 0x1000, 0, 0x0, 0x0, 0x0, 0x0, 0xFFFFFFFF, 0x0, 0x0, 0x0, 0x0, 0x0, .low1, []⟩,
  ⟨"CNT_PORT_TX_FRAMES_HI", 0x8001BC, 512, 0x1000, 0, 0x0, 0x0, 0x0, 0x0, 0x0, 0x0, 0x0, 0x0, 0x0, 0xFFFFFFFF, .high, []⟩,
  ⟨"CNT_PORT_TX_UCAST_LO", 0x8001C0, 512, 0x1000, 0, 0x0, 0x0, 0x0, 0x0, 0xFFFFFFFF, 0x0, 0x0, 0x0, 0x0, 0x0, .low1, []⟩,
  ⟨"CNT_PORT_TX_UCAST_HI", 0x8001C4, 512, 0x1000, 0, 0x0, 0x0, 0x0, 0x0, 0x0, 0x0, 0x0, 0x0, 0x0, 0xFFFFFFFF, .high, []⟩,
  ⟨"CNT_PORT_TX_MCAST_LO", 0x8001C8, 512, 0x1000, 0, 0x0, 0x0, 0x0, 0x0, 0xFFFFFFFF, 0x0, 0x0, 0x0, 0x0, 0x0, .low1, []⟩,
  ⟨"CNT_PORT_TX_MCAST_HI", 0x8001CC, 512, 0x1000, 0, 0x0, 0x0, 0x0, 0x0, 0x0, 0x0, 0x0, 0x0, 0x0, 0xFFFFFFFF, .high, []⟩]

/-- The PORT registers, part 3. -/
def regRowsPort3 : List RegRow := [
  ⟨"CNT_PORT_TX_BCAST_LO", 0x8001D0, 512, 0x1000, 0, 0x0, 0x0, 0x0, 0x0, 0xFFFFFFFF, 0x0, 0x0, 0x0, 0x0, 0x0, .low1, []⟩,
  ⟨"CNT_PORT_TX_BCAST_HI", 0x8001D4, 512, 0x1000, 0, 0x0, 0x0, 0x0, 0x0, 0x0, 0x0, 0x0, 0x0, 0x0, 0xFFFFFFFF, .high, []⟩,
  ⟨"CNT_PORT_TX_64_LO", 0x8001D8, 512, 0x1000, 0, 0x0, 0x0, 0x0, 0x0, 0xFFFFFFFF, 0x0, 0x0, 0x0, 0x0, 0x0, .low1, []⟩,
  ⟨"CNT_PORT_TX_64_HI", 0x8001DC, 512, 0x1000, 0, 0x0, 0x0, 0x0, 0x0, 0x0, 0x0, 0x0, 0x0, 0x0, 0xFFFFFFFF, .high, []⟩,
  ⟨"CNT_PORT_TX_65_127_LO", 0x8001E0, 512, 0x1000, 0, 0x0, 0x0, 0x0, 0x0, 0xFFFFFFFF, 0x0, 0x0, 0x0, 0x0, 0x0, .low1, []⟩,
  ⟨"CNT_PORT_TX_65_127_HI", 0x8001E4, 512, 0x1000, 0, 0x0, 0x0, 0x0, 0x0, 0x0, 0x0, 0x0, 0x0, 0x0, 0xFFFFFFFF, .high, []⟩,
  ⟨"CNT_PORT_TX_128_255_LO", 0x8001E8, 512, 0x1000, 0, 0x0, 0x0, 0x0, 0x0, 0xFFFFFFFF, 0x0, 0x0, 0x0, 0x0, 0x0, .low1, []⟩,
  ⟨"CNT_PORT_TX_128_255_HI", 0x8001EC, 512, 0x1000, 0, 0x0, 0x0, 0x0, 0x0, 0x0, 0x0, 0x0, 0x0, 0x0, 0xFFFFFFFF, .high, []⟩,
  ⟨"CNT_PORT_TX_256_511_LO", 0x8001F0, 512, 0x1000, 0, 0x0, 0x0, 0x0, 0x0, 0xFFFFFFFF, 0x0, 0x0, 0x0, 0x0, 0x0, .low1, []⟩,
  ⟨"CNT_PORT_TX_256_511_HI", 0x8001F4, 512, 0x1000, 0, 0x0, 0x0, 0x0, 0x0, 0x0, 0x0, 0x0, 0x0, 0x0, 0xFFFFFFFF, .high, []⟩,
  ⟨"CNT_PORT_TX_512_1023_LO", 0x8001F8, 512, 0x1000, 0, 0x0, 0x0, 0x0, 0x0, 0xFFFFFFFF, 0x0, 0x0, 0x0, 0x0, 0x0, .low1, []⟩,
  ⟨"CNT_PORT_TX_512_1023_HI", 0x8001FC, 512, 0x1000, 0, 0x0, 0x0, 0x0, 0x0, 0x0, 0x0, 0x0, 0x0, 0x0, 0xFFFFFFFF, .high, []⟩,
  ⟨"CNT_PORT_TX_1024_1518_LO", 0x800200, 512, 0x1000, 0, 0x0, 0x0, 0x0, 0x0, 0xFFFFFFFF, 0x0, 0x0, 0x0, 0x0, 0x0, .low1, []⟩,
  ⟨"CNT_PORT_TX_1024_1518_HI", 0x800204, 512, 0x1000, 0, 0x0, 0x0, 0x0, 0x0, 0x0, 0x0, 0x0, 0x0, 0x0, 0xFFFFFFFF, .high, []⟩,
  ⟨"CNT_PORT_TX_1519_MAX_LO", 0x800208, 512, 0x1000, 0, 0x0, 0x0, 0x0, 0x0, 0xFFFFFFFF, 0x0, 0x0, 0x0, 0x0, 0x0, .low1, []⟩,
  ⟨"CNT_PORT_TX_1519_MAX_HI", 0x80020C, 512, 0x1000, 0, 0x0, 0x0, 0x0, 0x0, 0x0, 0x0, 0x0, 0x0, 0x0, 0xFFFFFFFF, .high, []⟩,
  ⟨"CNT_PORT_TX_BAD_FCS_LO", 0x800210, 512, 0x1000, 0, 0x0, 0x0, 0x0, 0x0, 0xFFFFFFFF, 0x0, 0x0, 0x0, 0x0, 0x0, .low1, []⟩,
  ⟨"CNT_PORT_TX_BAD_FCS_HI", 0x800214, 512, 0x1000, 0, 0x0, 0x0, 0x0, 0x0, 0x0, 0x0, 0x0, 0x0, 0x0, 0xFFFFFFFF, .high, []⟩,
  ⟨"CNT_PORT_TX_LPI_ENTRY_LO", 0x800218, 512, 0x1000, 0, 0x0, 0x0, 0x0, 0x0, 0xFFFFFFFF, 0x0, 0x0, 0x0, 0x0, 0x0, .low1, []⟩,
  ⟨"CNT_PORT_TX_LPI_ENTRY_HI", 0x80021C, 512, 0x1000, 0, 0x0, 0x0, 0x0, 0x0, 0x0, 0x0, 0x0, 0x0, 0x0, 0xFFFFFFFF, .high, []⟩,
  ⟨"CNT_PORT_TX_LPI_US_LO", 0x800220, 512, 0x1000, 0, 0x0, 0x0, 0x0, 0x0, 0xFFFFFFFF, 0x0, 0x0, 0x0, 0x0, 0x0, .low1, []⟩,
  ⟨"CNT_PORT_TX_LPI_US_HI", 0x800224, 512, 0x1000, 0, 0x0, 0x0, 0x0, 0x0, 0x0, 0x0, 0x0, 0x0, 0x0, 0xFFFFFFFF, .high, []⟩,
  ⟨"CNT_PORT_RX_JABBER_LO", 0x800228, 512, 0x1000, 0, 0x0, 0x0, 0x0, 0x0, 0xFFFFFFFF, 0x0, 0x0, 0x0, 0x0, 0x0, .low1, []⟩,
  ⟨"CNT_PORT_RX_JABBER_HI", 0x80022C, 512, 0x1000, 0, 0x0, 0x0, 0x0, 0x0, 0x0, 0x0, 0x0, 0x0, 0x0, 0xFFFFFFFF, .high, []⟩,
  ⟨"CNT_PORT_FEC_CORR_LO", 0x800230, 512, 0x1000, 0, 0x0, 0x0, 0x0, 0x0, 0xFFFFFFFF, 0x0, 0x0, 0x0, 0x0, 0x0, .low1, []⟩,
  ⟨"CNT_PORT_FEC_CORR_HI", 0x800234, 512, 0x1000, 0, 0x0, 0x0, 0x0, 0x0, 0x0, 0x0, 0x0, 0x0, 0x0, 0xFFFFFFFF, .high, []⟩,
  ⟨"CNT_PORT_FEC_UNCORR_LO", 0x800238, 512, 0x1000, 0, 0x0, 0x0, 0x0, 0x0, 0xFFFFFFFF, 0x0, 0x0, 0x0, 0x0, 0x0, .low1, []⟩,
  ⟨"CNT_PORT_FEC_UNCORR_HI", 0x80023C, 512, 0x1000, 0, 0x0, 0x0, 0x0, 0x0, 0x0, 0x0, 0x0, 0x0, 0x0, 0xFFFFFFFF, .high, []⟩]

/-- The PORT registers. -/
def regRowsPort : List RegRow := regRowsPort1 ++ regRowsPort2 ++ regRowsPort3

/-- The shared PORT registers. -/
def regRowsPortShared : List RegRow := [
  ⟨"PORT_RATE_TOTAL", 0xA00000, 0, 0x0, 0, 0x0, 0x0, 0x0, 0xFFF, 0x0, 0x0, 0x0, 0x0, 0x0, 0x0, .plain, []⟩,
  ⟨"PORT_RATE_PIPE", 0xA00010, 4, 0x4, 0, 0x0, 0x0, 0x0, 0xFFF, 0x0, 0x0, 0x0, 0x0, 0x0, 0x0, .plain, []⟩,
  ⟨"PORT_MDIO_CFG", 0xA00100, 8, 0x20, 0, 0x0, 0xF0, 0x1FF, 0x0, 0x0, 0x0, 0x0, 0x0, 0x0, 0x0, .plain, [⟨7, 0, 48, 240⟩]⟩,
  ⟨"PORT_MDIO_ARG", 0xA00104, 8, 0x20, 2, 0xC, 0x0, 0xFFFFFFFF, 0x0, 0x0, 0x0, 0x0, 0x0, 0x0, 0x0, .plain, []⟩,
  ⟨"PORT_MDIO_CMD", 0xA00108, 8, 0x20, 2, 0xC, 0x0, 0x3FF, 0xC0000000, 0x0, 0x0, 0x0, 0x70000, 0x0, 0x0, .plain, []⟩,
  ⟨"PORT_MDIO_RDATA", 0xA0010C, 8, 0x20, 2, 0xC, 0x0, 0x0, 0xFFFF, 0x0, 0x0, 0x0, 0x0, 0x0, 0x0, .plain, []⟩,
  ⟨"CNT_MDIO_REFUSED", 0xA0011C, 8, 0x20, 0, 0x0, 0x0, 0x0, 0x0, 0xFFFFFFFF, 0x0, 0x0, 0x0, 0x0, 0x0, .rc, []⟩]

/-- The LANE registers. -/
def regRowsLane : List RegRow := [
  ⟨"LANE_CFG", 0xC00000, 532, 0x400, 0, 0x0, 0x0, 0x2F7, 0x0, 0x0, 0x0, 0x0, 0x0, 0x0, 0x0, .plain, []⟩,
  ⟨"LANE_TXEQ", 0xC00004, 532, 0x400, 0, 0x0, 0x8C04, 0x3FFFF, 0x0, 0x0, 0x0, 0x0, 0x0, 0x0, 0x0, .plain, []⟩,
  ⟨"LANE_STATUS", 0xC00008, 532, 0x400, 0, 0x0, 0x0, 0x0, 0xFF800FFF, 0x0, 0x0, 0x0, 0x0, 0x0, 0x0, .plain, []⟩,
  ⟨"LANE_ALIGN", 0xC0000C, 532, 0x400, 0, 0x0, 0x0, 0x0, 0x0, 0x0, 0x0, 0x0, 0x1, 0x0, 0x0, .plain, []⟩,
  ⟨"LANE_EYE_CTRL", 0xC00010, 532, 0x400, 0, 0x0, 0x0, 0xF7F03F, 0x80000000, 0x0, 0x0, 0x0, 0x40000000, 0x0, 0x0, .plain, []⟩,
  ⟨"LANE_EYE_RESULT", 0xC00014, 532, 0x400, 0, 0x0, 0x0, 0x0, 0xFFFFFFFF, 0x0, 0x0, 0x0, 0x0, 0x0, 0x0, .plain, []⟩,
  ⟨"LANE_RAW_CAP", 0xC00018, 532, 0x400, 0, 0x0, 0x0, 0x0, 0xFFFFFFFF, 0x0, 0x0, 0x0, 0x0, 0x0, 0x0, .plain, []⟩,
  ⟨"CNT_LANE_PRBS_BITS_LO", 0xC00020, 532, 0x400, 0, 0x0, 0x0, 0x0, 0x0, 0xFFFFFFFF, 0x0, 0x0, 0x0, 0x0, 0x0, .low1, []⟩,
  ⟨"CNT_LANE_PRBS_BITS_HI", 0xC00024, 532, 0x400, 0, 0x0, 0x0, 0x0, 0x0, 0x0, 0x0, 0x0, 0x0, 0x0, 0xFFFFFFFF, .high, []⟩,
  ⟨"CNT_LANE_PRBS_ERR_LO", 0xC00028, 532, 0x400, 0, 0x0, 0x0, 0x0, 0x0, 0xFFFFFFFF, 0x0, 0x0, 0x0, 0x0, 0x0, .low1, []⟩,
  ⟨"CNT_LANE_PRBS_ERR_HI", 0xC0002C, 532, 0x400, 0, 0x0, 0x0, 0x0, 0x0, 0x0, 0x0, 0x0, 0x0, 0x0, 0xFFFFFFFF, .high, []⟩,
  ⟨"CNT_LANE_OPEN", 0xC00030, 532, 0x400, 0, 0x0, 0x0, 0x0, 0x0, 0xFFFFFFFF, 0x0, 0x0, 0x0, 0x0, 0x0, .rc, []⟩,
  ⟨"CNT_LANE_SHORT", 0xC00034, 532, 0x400, 0, 0x0, 0x0, 0x0, 0x0, 0xFFFFFFFF, 0x0, 0x0, 0x0, 0x0, 0x0, .rc, []⟩,
  ⟨"CNT_LANE_LOOP_DROP", 0xC00038, 532, 0x400, 0, 0x0, 0x0, 0x0, 0x0, 0xFFFFFFFF, 0x0, 0x0, 0x0, 0x0, 0x0, .rc, []⟩,
  ⟨"CNT_LANE_CFG_REFUSED", 0xC0003C, 532, 0x400, 0, 0x0, 0x0, 0x0, 0x0, 0xFFFFFFFF, 0x0, 0x0, 0x0, 0x0, 0x0, .rc, []⟩,
  ⟨"LANE_RETRAIN", 0xD00000, 0, 0x0, 0, 0x0, 0xE10, 0xFFFF, 0x0, 0x0, 0x0, 0x0, 0x0, 0x0, 0x0, .plain, [⟨15, 0, 1, 65535⟩]⟩,
  ⟨"LANE_RETIRED", 0xD00010, 17, 0x4, 0, 0x0, 0x0, 0x0, 0x0, 0x0, 0x0, 0x0, 0x0, 0xFFFFFFFF, 0x0, .pw, []⟩]

/-- The TIME registers. -/
def regRowsTime : List RegRow := [
  ⟨"TIME_CTRL", 0xE00000, 0, 0x0, 0, 0x0, 0xD39, 0x1F3F, 0x0, 0x0, 0x0, 0x0, 0x0, 0x0, 0x0, .plain, []⟩,
  ⟨"TIME_STATUS", 0xE00004, 0, 0x0, 0, 0x0, 0x0, 0x0, 0x1FF, 0x0, 0x0, 0x0, 0x0, 0x0, 0x0, .plain, []⟩,
  ⟨"TIME_INC_LO", 0xE00008, 0, 0x0, 0, 0x0, 0x0, 0xFFFFFFFF, 0x0, 0x0, 0x0, 0x0, 0x0, 0x0, 0x0, .plain, []⟩,
  ⟨"TIME_INC_HI", 0xE0000C, 0, 0x0, 0, 0x0, 0x100, 0xFFFFFFFF, 0x0, 0x0, 0x0, 0x0, 0x0, 0x0, 0x0, .plain, []⟩,
  ⟨"TIME_STEP_NS", 0xE00010, 0, 0x0, 0, 0x0, 0x3E8, 0xFFFFFFFF, 0x0, 0x0, 0x0, 0x0, 0x0, 0x0, 0x0, .plain, [⟨31, 0, 1, 4294967295⟩]⟩,
  ⟨"TIME_STEP_ALLOW", 0xE00014, 0, 0x0, 0, 0x0, 0x0, 0x0, 0x0, 0x0, 0x0, 0x0, 0x0, 0x1, 0x0, .pw, []⟩,
  ⟨"TIME_NOW_NS", 0xE00020, 0, 0x0, 0, 0x0, 0x0, 0x0, 0x0, 0x0, 0x0, 0x0, 0x0, 0x0, 0xFFFFFFFF, .low0, []⟩,
  ⟨"TIME_NOW_SEC_LO", 0xE00024, 0, 0x0, 0, 0x0, 0x0, 0x0, 0x0, 0x0, 0x0, 0x0, 0x0, 0x0, 0xFFFFFFFF, .high, []⟩,
  ⟨"TIME_NOW_SEC_HI", 0xE00028, 0, 0x0, 0, 0x0, 0x0, 0x0, 0x0, 0x0, 0x0, 0x0, 0x0, 0x0, 0xFFFFFFFF, .high, []⟩,
  ⟨"TIME_NOW_FRAC", 0xE0002C, 0, 0x0, 0, 0x0, 0x0, 0x0, 0x0, 0x0, 0x0, 0x0, 0x0, 0x0, 0xFFFFFFFF, .high, []⟩,
  ⟨"TIME_ADJ_SEC", 0xE00030, 0, 0x0, 0, 0x0, 0x0, 0xFFFFFFFF, 0x0, 0x0, 0x0, 0x0, 0x0, 0x0, 0x0, .plain, []⟩,
  ⟨"TIME_ADJ_NS", 0xE00034, 0, 0x0, 0, 0x0, 0x0, 0x0, 0x0, 0x0, 0x0, 0x0, 0xFFFFFFFF, 0x0, 0x0, .plain, []⟩,
  ⟨"TIME_LINE_TEQ", 0xE00040, 0, 0x0, 0, 0x0, 0x0, 0x3FFFFF, 0x0, 0x0, 0x0, 0x0, 0x0, 0x0, 0x0, .plain, []⟩,
  ⟨"TIME_LINE_ASYM", 0xE00044, 0, 0x0, 0, 0x0, 0x0, 0xFFFFFFFF, 0x0, 0x0, 0x0, 0x0, 0x0, 0x0, 0x0, .plain, []⟩,
  ⟨"TIME_PPS_IN_ADJ", 0xE00048, 0, 0x0, 0, 0x0, 0x0, 0xFFFFFFFF, 0x0, 0x0, 0x0, 0x0, 0x0, 0x0, 0x0, .plain, []⟩,
  ⟨"TIME_SRC_OFFSET", 0xE0004C, 0, 0x0, 0, 0x0, 0x0, 0x0, 0xFFFFFFFF, 0x0, 0x0, 0x0, 0x0, 0x0, 0x0, .plain, []⟩,
  ⟨"TIME_PPS_OUT", 0xE00050, 0, 0x0, 0, 0x0, 0x64, 0x7FFFF, 0x0, 0x0, 0x0, 0x0, 0x0, 0x0, 0x0, .plain, [⟨18, 0, 1, 500000⟩]⟩,
  ⟨"TIME_SERVO", 0xE00054, 0, 0x0, 0, 0x0, 0x2580064, 0xFFFF03FF, 0x0, 0x0, 0x0, 0x0, 0x0, 0x0, 0x0, .plain, [⟨9, 0, 1, 1000⟩]⟩,
  ⟨"TIME_PPS_OUT_ADJ", 0xE00058, 0, 0x0, 0, 0x0, 0x0, 0xFFFFFFFF, 0x0, 0x0, 0x0, 0x0, 0x0, 0x0, 0x0, .plain, []⟩,
  ⟨"TIME_PTP_CFG", 0xE00060, 0, 0x0, 0, 0x0, 0xF8068080, 0xFFFFFFFF, 0x0, 0x0, 0x0, 0x0, 0x0, 0x0, 0x0, .plain, []⟩,
  ⟨"CNT_TIME_INC_BAD", 0xE00070, 0, 0x0, 0, 0x0, 0x0, 0x0, 0x0, 0xFFFFFFFF, 0x0, 0x0, 0x0, 0x0, 0x0, .rc, []⟩,
  ⟨"CNT_TIME_OWNER_BAD", 0xE00074, 0, 0x0, 0, 0x0, 0x0, 0x0, 0x0, 0xFFFFFFFF, 0x0, 0x0, 0x0, 0x0, 0x0, .rc, []⟩,
  ⟨"CNT_TIME_STEP_REFUSED", 0xE00078, 0, 0x0, 0, 0x0, 0x0, 0x0, 0x0, 0xFFFFFFFF, 0x0, 0x0, 0x0, 0x0, 0x0, .rc, []⟩,
  ⟨"CNT_TIME_PPS_REJECT", 0xE0007C, 0, 0x0, 0, 0x0, 0x0, 0x0, 0x0, 0xFFFFFFFF, 0x0, 0x0, 0x0, 0x0, 0x0, .rc, []⟩,
  ⟨"CNT_TIME_TOD_STALE", 0xE00080, 0, 0x0, 0, 0x0, 0x0, 0x0, 0x0, 0xFFFFFFFF, 0x0, 0x0, 0x0, 0x0, 0x0, .rc, []⟩,
  ⟨"TIME_PTP_PORT", 0xE01000, 512, 0x4, 0, 0x0, 0x0, 0xF80000FF, 0x700, 0x0, 0x0, 0x0, 0x0, 0x0, 0x0, .plain, [⟨28, 27, 0, 2⟩]⟩]

/-- The PROT registers. -/
def regRowsProt : List RegRow := [
  ⟨"PROT_CTRL", 0xE80000, 0, 0x0, 0, 0x0, 0xAFE, 0xFFFF, 0x0, 0x0, 0x0, 0x0, 0x0, 0x0, 0x0, .plain, [⟨15, 8, 2, 200⟩, ⟨7, 4, 1, 15⟩]⟩,
  ⟨"PROT_CANARY", 0xE80004, 0, 0x0, 0, 0x0, 0x3C, 0xFFF, 0x0, 0x0, 0x0, 0x0, 0x0, 0x0, 0x0, .plain, [⟨11, 0, 10, 3600⟩]⟩,
  ⟨"PROT_WTR", 0xE80008, 0, 0x0, 0, 0x0, 0x12C, 0xFFF, 0x0, 0x0, 0x0, 0x0, 0x0, 0x0, 0x0, .plain, [⟨11, 0, 10, 3600⟩]⟩,
  ⟨"PROT_CMD", 0xE8000C, 0, 0x0, 0, 0x0, 0x0, 0x0, 0x30, 0x0, 0x0, 0x0, 0x7, 0x0, 0x0, .plain, []⟩,
  ⟨"PROT_STATUS", 0xE80010, 0, 0x0, 0, 0x0, 0x0, 0x0, 0xFFFF071D, 0x0, 0x0, 0x0, 0x0, 0x0, 0x0, .plain, []⟩,
  ⟨"PROT_HEALTH", 0xE80020, 2, 0x4, 0, 0x0, 0x0, 0x0, 0xFFFFFFFF, 0x0, 0x0, 0x0, 0x0, 0x0, 0x0, .plain, []⟩,
  ⟨"PROT_LAST_SWITCH", 0xE80030, 0, 0x0, 0, 0x0, 0x0, 0x0, 0xF000FFFF, 0x0, 0x0, 0x0, 0x0, 0x0, 0x0, .plain, []⟩,
  ⟨"CNT_PROT_SWITCH", 0xE80040, 0, 0x0, 0, 0x0, 0x0, 0x0, 0x0, 0xFFFFFFFF, 0x0, 0x0, 0x0, 0x0, 0x0, .rc, []⟩,
  ⟨"CNT_PROT_SWITCH_FAIL", 0xE80044, 0, 0x0, 0, 0x0, 0x0, 0x0, 0x0, 0xFFFFFFFF, 0x0, 0x0, 0x0, 0x0, 0x0, .rc, []⟩,
  ⟨"CNT_PROT_DENIED", 0xE80048, 0, 0x0, 0, 0x0, 0x0, 0x0, 0x0, 0xFFFFFFFF, 0x0, 0x0, 0x0, 0x0, 0x0, .rc, []⟩,
  ⟨"CNT_CANARY_RUN", 0xE8004C, 0, 0x0, 0, 0x0, 0x0, 0x0, 0x0, 0xFFFFFFFF, 0x0, 0x0, 0x0, 0x0, 0x0, .rc, []⟩,
  ⟨"CNT_CANARY_SKIP", 0xE80050, 0, 0x0, 0, 0x0, 0x0, 0x0, 0x0, 0xFFFFFFFF, 0x0, 0x0, 0x0, 0x0, 0x0, .rc, []⟩,
  ⟨"CNT_CANARY_FAIL", 0xE80054, 0, 0x0, 0, 0x0, 0x0, 0x0, 0x0, 0xFFFFFFFF, 0x0, 0x0, 0x0, 0x0, 0x0, .rc, []⟩]

/-- The CIPH registers. -/
def regRowsCiph : List RegRow := [
  ⟨"CIPH_ROOT_STATUS", 0xF00000, 0, 0x0, 0, 0x0, 0x0, 0x0, 0x80FFFFFF, 0x0, 0x0, 0x0, 0x0, 0x0, 0x0, .plain, []⟩,
  ⟨"CIPH_OPROOT_DATA", 0xF00010, 8, 0x4, 0, 0x0, 0x0, 0x0, 0x0, 0x0, 0x0, 0x0, 0xFFFFFFFF, 0x0, 0x0, .plain, []⟩,
  ⟨"CIPH_OPROOT_CMD", 0xF00030, 0, 0x0, 0, 0x0, 0x0, 0x0, 0x30, 0x0, 0x0, 0x0, 0x1, 0x0, 0x0, .plain, []⟩,
  ⟨"CIPH_UNWRAP_DATA", 0xF00040, 11, 0x4, 0, 0x0, 0x0, 0x0, 0x0, 0x0, 0x0, 0x0, 0xFFFFFFFF, 0x0, 0x0, .plain, []⟩,
  ⟨"CIPH_UNWRAP_CMD", 0xF00070, 0, 0x0, 0, 0x0, 0x0, 0x3F3F, 0xF0000000, 0x0, 0x0, 0x0, 0xC000000, 0x0, 0x0, .plain, []⟩,
  ⟨"CIPH_LOADED_STATUS", 0xF00100, 64, 0x4, 0, 0x0, 0x0, 0x0, 0xC0FFFFFF, 0x0, 0x0, 0x0, 0x0, 0x0, 0x0, .plain, []⟩,
  ⟨"CIPH_CTR_RESERVE", 0xF00200, 0, 0x0, 0, 0x0, 0x1, 0x0, 0x0, 0x0, 0x0, 0x0, 0x0, 0xFFFFFFFF, 0x0, .pw, []⟩,
  ⟨"CIPH_CTR_NEXT_LO", 0xF00204, 0, 0x0, 0, 0x0, 0x0, 0x0, 0x0, 0x0, 0x0, 0x0, 0x0, 0x0, 0xFFFFFFFF, .low0, []⟩,
  ⟨"CIPH_CTR_NEXT_HI", 0xF00208, 0, 0x0, 0, 0x0, 0x0, 0x0, 0x0, 0x0, 0x0, 0x0, 0x0, 0x0, 0xFFFFFFFF, .high, []⟩,
  ⟨"CIPH_DRAM_EPOCH", 0xF00210, 0, 0x0, 0, 0x0, 0x0, 0x0, 0xFFFFFFFF, 0x0, 0x0, 0x0, 0x0, 0x0, 0x0, .plain, []⟩,
  ⟨"CIPH_JOURNAL_EPOCH", 0xF00214, 0, 0x0, 0, 0x0, 0x0, 0x0, 0xFFFFFFFF, 0x0, 0x0, 0x0, 0x0, 0x0, 0x0, .plain, []⟩,
  ⟨"CIPH_STORE_CMD", 0xF00218, 0, 0x0, 0, 0x0, 0x0, 0x0, 0x2, 0x0, 0x0, 0x0, 0x1, 0x0, 0x0, .plain, []⟩,
  ⟨"CIPH_SLOTS", 0xF0021C, 0, 0x0, 0, 0x0, 0x0, 0x0, 0x1FF01FF, 0x0, 0x0, 0x0, 0x0, 0x0, 0x0, .plain, []⟩,
  ⟨"CNT_CIPH_TAG_FAIL", 0xF00240, 0, 0x0, 0, 0x0, 0x0, 0x0, 0x0, 0xFFFFFFFF, 0x0, 0x0, 0x0, 0x0, 0x0, .rc, []⟩,
  ⟨"CNT_CIPH_REPLAY", 0xF00244, 0, 0x0, 0, 0x0, 0x0, 0x0, 0x0, 0xFFFFFFFF, 0x0, 0x0, 0x0, 0x0, 0x0, .rc, []⟩,
  ⟨"CNT_CIPH_KEY_MISSING", 0xF00248, 0, 0x0, 0, 0x0, 0x0, 0x0, 0x0, 0xFFFFFFFF, 0x0, 0x0, 0x0, 0x0, 0x0, .rc, []⟩,
  ⟨"CNT_CIPH_SLOT_WAIT", 0xF0024C, 0, 0x0, 0, 0x0, 0x0, 0x0, 0x0, 0xFFFFFFFF, 0x0, 0x0, 0x0, 0x0, 0x0, .rc, []⟩,
  ⟨"CNT_CIPH_UNWRAP_FAIL", 0xF00250, 0, 0x0, 0, 0x0, 0x0, 0x0, 0x0, 0xFFFFFFFF, 0x0, 0x0, 0x0, 0x0, 0x0, .rc, []⟩,
  ⟨"CIPH_ID_CFG", 0xF01000, 128, 0x10, 0, 0x0, 0x200, 0x33F, 0x0, 0x0, 0x0, 0x0, 0x0, 0x0, 0x0, .plain, []⟩,
  ⟨"CIPH_ID_EPOCH_DS", 0xF01004, 128, 0x10, 0, 0x0, 0x0, 0x0, 0xFFFFFFFF, 0x0, 0x0, 0x0, 0x0, 0x0, 0x0, .plain, []⟩,
  ⟨"CIPH_ID_EPOCH_US", 0xF01008, 128, 0x10, 0, 0x0, 0x0, 0x0, 0xFFFFFFFF, 0x0, 0x0, 0x0, 0x0, 0x0, 0x0, .plain, []⟩,
  ⟨"CIPH_ID_STATUS", 0xF0100C, 128, 0x10, 0, 0x0, 0x0, 0x0, 0xF8000000, 0x0, 0x0, 0x0, 0x0, 0x0, 0x0, .plain, []⟩]

/-- The PWR registers, part 1. -/
def regRowsPwr1 : List RegRow := [
  ⟨"PWR_LADDER_CTRL", 0x1000000, 0, 0x0, 0, 0x0, 0x80010064, 0xC007FFFF, 0x0, 0x0, 0x0, 0x0, 0x0, 0x0, 0x0, .plain, [⟨18, 16, 0, 4⟩, ⟨15, 0, 1, 65535⟩]⟩,
  ⟨"PWR_LADDER_STATUS", 0x1000004, 0, 0x0, 0, 0x0, 0x0, 0x0, 0xFF8007FF, 0x0, 0x0, 0x0, 0x0, 0x0, 0x0, .plain, []⟩,
  ⟨"PWR_WAKE_CFG", 0x1000008, 0, 0x0, 0, 0x0, 0xFF, 0xFF, 0x0, 0x0, 0x0, 0x0, 0x0, 0x0, 0x0, .plain, []⟩,
  ⟨"PWR_WAKE_TIMER", 0x100000C, 0, 0x0, 0, 0x0, 0x0, 0xFFFFFFFF, 0x0, 0x0, 0x0, 0x0, 0x0, 0x0, 0x0, .plain, []⟩,
  ⟨"PWR_VOTE_0", 0x1000040, 0, 0x0, 0, 0x0, 0x0, 0x7FFFFF, 0x0, 0x0, 0x0, 0x0, 0x0, 0x0, 0x0, .plain, []⟩,
  ⟨"PWR_VOTE_C", 0x1000044, 9, 0x4, 0, 0x0, 0x0, 0x0, 0x7FFFFF, 0x0, 0x0, 0x0, 0x0, 0x0, 0x0, .plain, []⟩,
  ⟨"PWR_GOV_CAP", 0x1000200, 0, 0x0, 0, 0x0, 0x7D0, 0xFFFF, 0x0, 0x0, 0x0, 0x0, 0x0, 0x0, 0x0, .plain, [⟨15, 0, 0, 2000⟩]⟩,
  ⟨"PWR_GOV_THERM", 0x1000204, 0, 0x0, 0, 0x0, 0x87000040, 0xFF00FFFF, 0x0, 0x0, 0x0, 0x0, 0x0, 0x0, 0x0, .plain, [⟨31, 24, 100, 145⟩, ⟨15, 0, 1, 65535⟩]⟩,
  ⟨"PWR_GOV_ALLOW", 0x1000208, 0, 0x0, 0, 0x0, 0x0, 0x0, 0xFFFFFFFF, 0x0, 0x0, 0x0, 0x0, 0x0, 0x0, .plain, []⟩,
  ⟨"PWR_GOV_STATUS", 0x100020C, 0, 0x0, 0, 0x0, 0x0, 0x0, 0xE000FFFF, 0x0, 0x0, 0x0, 0x0, 0x0, 0x0, .plain, []⟩,
  ⟨"PWR_TEMP", 0x1000210, 0, 0x0, 0, 0x0, 0x0, 0x0, 0xFFF00000, 0x0, 0x0, 0x0, 0x0, 0x0, 0x0, .plain, []⟩,
  ⟨"PWR_FIREDAMP", 0x1000214, 0, 0x0, 0, 0x0, 0x7D00000A, 0xFF00FFFF, 0x0, 0x0, 0x0, 0x0, 0x0, 0x0, 0x0, .plain, [⟨31, 24, 100, 140⟩, ⟨15, 0, 1, 65535⟩]⟩,
  ⟨"PWR_GOV_HYST", 0x1000218, 0, 0x0, 0, 0x0, 0x50, 0xFFFF, 0x0, 0x0, 0x0, 0x0, 0x0, 0x0, 0x0, .plain, [⟨15, 0, 1, 65535⟩]⟩,
  ⟨"PWR_SHED", 0x1000220, 4, 0x4, 0, 0x0, 0x0, 0xFFFFFFFF, 0x0, 0x0, 0x0, 0x0, 0x0, 0x0, 0x0, .plain, []⟩,
  ⟨"CNT_PWR_WAKE_DROP", 0x1000230, 0, 0x0, 0, 0x0, 0x0, 0x0, 0x0, 0xFFFFFFFF, 0x0, 0x0, 0x0, 0x0, 0x0, .rc, []⟩,
  ⟨"CNT_GOV_OVERDRAFT", 0x1000234, 0, 0x0, 0, 0x0, 0x0, 0x0, 0x0, 0xFFFFFFFF, 0x0, 0x0, 0x0, 0x0, 0x0, .rc, []⟩,
  ⟨"CNT_FIREDAMP", 0x1000238, 0, 0x0, 0, 0x0, 0x0, 0x0, 0x0, 0xFFFFFFFF, 0x0, 0x0, 0x0, 0x0, 0x0, .rc, []⟩,
  ⟨"CNT_PWR_WAKE_FAIL", 0x100023C, 0, 0x0, 0, 0x0, 0x0, 0x0, 0x0, 0xFFFFFFFF, 0x0, 0x0, 0x0, 0x0, 0x0, .rc, []⟩,
  ⟨"PWR_EPB_0", 0x1000300, 0, 0x0, 0, 0x0, 0xB4, 0xFFFF, 0x0, 0x0, 0x0, 0x0, 0x0, 0x0, 0x0, .plain, []⟩,
  ⟨"PWR_EPB_1", 0x1000304, 0, 0x0, 0, 0x0, 0x140, 0xFFFF, 0x0, 0x0, 0x0, 0x0, 0x0, 0x0, 0x0, .plain, []⟩,
  ⟨"PWR_EPB_2", 0x1000308, 0, 0x0, 0, 0x0, 0x140, 0xFFFF, 0x0, 0x0, 0x0, 0x0, 0x0, 0x0, 0x0, .plain, []⟩,
  ⟨"PWR_EPB_3", 0x100030C, 0, 0x0, 0, 0x0, 0x96, 0xFFFF, 0x0, 0x0, 0x0, 0x0, 0x0, 0x0, 0x0, .plain, []⟩,
  ⟨"PWR_EPB_4", 0x1000310, 0, 0x0, 0, 0x0, 0x28, 0xFFFF, 0x0, 0x0, 0x0, 0x0, 0x0, 0x0, 0x0, .plain, []⟩,
  ⟨"PWR_EPB_5", 0x1000314, 0, 0x0, 0, 0x0, 0xFA0, 0xFFFF, 0x0, 0x0, 0x0, 0x0, 0x0, 0x0, 0x0, .plain, []⟩,
  ⟨"PWR_EPB_6", 0x1000318, 0, 0x0, 0, 0x0, 0x1D4C, 0xFFFF, 0x0, 0x0, 0x0, 0x0, 0x0, 0x0, 0x0, .plain, []⟩,
  ⟨"PWR_EPB_7", 0x100031C, 0, 0x0, 0, 0x0, 0xC8, 0xFFFF, 0x0, 0x0, 0x0, 0x0, 0x0, 0x0, 0x0, .plain, []⟩,
  ⟨"PWR_DOM_STATUS", 0x1000400, 23, 0x10, 0, 0x0, 0x0, 0x0, 0xF00003FF, 0x0, 0x0, 0x0, 0x0, 0x0, 0x0, .plain, []⟩,
  ⟨"PWR_DOM_REFUSER", 0x1000404, 23, 0x10, 0, 0x0, 0x0, 0x0, 0xFF0000FF, 0x0, 0x0, 0x0, 0x0, 0x0, 0x0, .plain, []⟩,
  ⟨"CNT_PWR_REFUSE", 0x1000408, 23, 0x10, 0, 0x0, 0x0, 0x0, 0x0, 0xFFFFFFFF, 0x0, 0x0, 0x0, 0x0, 0x0, .rc, []⟩,
  ⟨"PWR_DOM_EFIX_0", 0x100040C, 0, 0x0, 0, 0x0, 0x3C03E8, 0xFFFFFFFF, 0x0, 0x0, 0x0, 0x0, 0x0, 0x0, 0x0, .plain, []⟩]

/-- The PWR registers, part 2. -/
def regRowsPwr2 : List RegRow := [
  ⟨"PWR_DOM_EFIX_1", 0x100041C, 0, 0x0, 0, 0x0, 0x3C03E8, 0xFFFFFFFF, 0x0, 0x0, 0x0, 0x0, 0x0, 0x0, 0x0, .plain, []⟩,
  ⟨"PWR_DOM_EFIX_2", 0x100042C, 0, 0x0, 0, 0x0, 0x3C03E8, 0xFFFFFFFF, 0x0, 0x0, 0x0, 0x0, 0x0, 0x0, 0x0, .plain, []⟩,
  ⟨"PWR_DOM_EFIX_3", 0x100043C, 0, 0x0, 0, 0x0, 0x3C03E8, 0xFFFFFFFF, 0x0, 0x0, 0x0, 0x0, 0x0, 0x0, 0x0, .plain, []⟩,
  ⟨"PWR_DOM_EFIX_4", 0x100044C, 0, 0x0, 0, 0x0, 0xFA07D0, 0xFFFFFFFF, 0x0, 0x0, 0x0, 0x0, 0x0, 0x0, 0x0, .plain, []⟩,
  ⟨"PWR_DOM_EFIX_5", 0x100045C, 0, 0x0, 0, 0x0, 0x2803E8, 0xFFFFFFFF, 0x0, 0x0, 0x0, 0x0, 0x0, 0x0, 0x0, .plain, []⟩,
  ⟨"PWR_DOM_EFIX_6", 0x100046C, 0, 0x0, 0, 0x0, 0x1401F4, 0xFFFFFFFF, 0x0, 0x0, 0x0, 0x0, 0x0, 0x0, 0x0, .plain, []⟩,
  ⟨"PWR_DOM_EFIX_7", 0x100047C, 0, 0x0, 0, 0x0, 0x5002D0, 0xFFFFFFFF, 0x0, 0x0, 0x0, 0x0, 0x0, 0x0, 0x0, .plain, []⟩,
  ⟨"PWR_DOM_EFIX_8", 0x100048C, 0, 0x0, 0, 0x0, 0x5002D0, 0xFFFFFFFF, 0x0, 0x0, 0x0, 0x0, 0x0, 0x0, 0x0, .plain, []⟩,
  ⟨"PWR_DOM_EFIX_9", 0x100049C, 0, 0x0, 0, 0x0, 0x5002D0, 0xFFFFFFFF, 0x0, 0x0, 0x0, 0x0, 0x0, 0x0, 0x0, .plain, []⟩,
  ⟨"PWR_DOM_EFIX_10", 0x10004AC, 0, 0x0, 0, 0x0, 0x5002D0, 0xFFFFFFFF, 0x0, 0x0, 0x0, 0x0, 0x0, 0x0, 0x0, .plain, []⟩,
  ⟨"PWR_DOM_EFIX_11", 0x10004BC, 0, 0x0, 0, 0x0, 0x5002D0, 0xFFFFFFFF, 0x0, 0x0, 0x0, 0x0, 0x0, 0x0, 0x0, .plain, []⟩,
  ⟨"PWR_DOM_EFIX_12", 0x10004CC, 0, 0x0, 0, 0x0, 0x5002D0, 0xFFFFFFFF, 0x0, 0x0, 0x0, 0x0, 0x0, 0x0, 0x0, .plain, []⟩,
  ⟨"PWR_DOM_EFIX_13", 0x10004DC, 0, 0x0, 0, 0x0, 0x5002D0, 0xFFFFFFFF, 0x0, 0x0, 0x0, 0x0, 0x0, 0x0, 0x0, .plain, []⟩,
  ⟨"PWR_DOM_EFIX_14", 0x10004EC, 0, 0x0, 0, 0x0, 0x5002D0, 0xFFFFFFFF, 0x0, 0x0, 0x0, 0x0, 0x0, 0x0, 0x0, .plain, []⟩,
  ⟨"PWR_DOM_EFIX_15", 0x10004FC, 0, 0x0, 0, 0x0, 0x2EE02EE, 0xFFFFFFFF, 0x0, 0x0, 0x0, 0x0, 0x0, 0x0, 0x0, .plain, []⟩,
  ⟨"PWR_DOM_EFIX_16", 0x100050C, 0, 0x0, 0, 0x0, 0x2EE02EE, 0xFFFFFFFF, 0x0, 0x0, 0x0, 0x0, 0x0, 0x0, 0x0, .plain, []⟩,
  ⟨"PWR_DOM_EFIX_17", 0x100051C, 0, 0x0, 0, 0x0, 0xA007D, 0xFFFFFFFF, 0x0, 0x0, 0x0, 0x0, 0x0, 0x0, 0x0, .plain, []⟩,
  ⟨"PWR_DOM_EFIX_18", 0x100052C, 0, 0x0, 0, 0x0, 0x2EE02EE, 0xFFFFFFFF, 0x0, 0x0, 0x0, 0x0, 0x0, 0x0, 0x0, .plain, []⟩,
  ⟨"PWR_DOM_EFIX_19", 0x100053C, 0, 0x0, 0, 0x0, 0xA007D, 0xFFFFFFFF, 0x0, 0x0, 0x0, 0x0, 0x0, 0x0, 0x0, .plain, []⟩,
  ⟨"PWR_DOM_EFIX_20", 0x100054C, 0, 0x0, 0, 0x0, 0x7D007D, 0xFFFFFFFF, 0x0, 0x0, 0x0, 0x0, 0x0, 0x0, 0x0, .plain, []⟩,
  ⟨"PWR_DOM_EFIX_21", 0x100055C, 0, 0x0, 0, 0x0, 0x1401F4, 0xFFFFFFFF, 0x0, 0x0, 0x0, 0x0, 0x0, 0x0, 0x0, .plain, []⟩,
  ⟨"PWR_DOM_EFIX_22", 0x100056C, 0, 0x0, 0, 0x0, 0x7D007D, 0xFFFFFFFF, 0x0, 0x0, 0x0, 0x0, 0x0, 0x0, 0x0, .plain, []⟩]

/-- The PWR registers. -/
def regRowsPwr : List RegRow := regRowsPwr1 ++ regRowsPwr2

/-- The ASSAY registers. -/
def regRowsAssay : List RegRow := [
  ⟨"ASSAY_CTRL", 0x1080000, 0, 0x0, 0, 0x0, 0x80050018, 0x80FF00FF, 0x0, 0x0, 0x0, 0x0, 0x40000000, 0x0, 0x0, .plain, [⟨7, 0, 1, 168⟩]⟩,
  ⟨"ASSAY_STATUS", 0x1080004, 0, 0x0, 0, 0x0, 0x0, 0x0, 0xE000FFFF, 0x0, 0x0, 0x0, 0x0, 0x0, 0x0, .plain, []⟩,
  ⟨"ASSAY_VCORE", 0x1080008, 0, 0x0, 0, 0x0, 0x0, 0x0, 0x3FF, 0x0, 0x0, 0x0, 0x0, 0x0, 0x0, .plain, []⟩,
  ⟨"ASSAY_SLACK", 0x108000C, 0, 0x0, 0, 0x0, 0x190000, 0x0, 0xFFFFFFFF, 0x0, 0x0, 0x0, 0x0, 0x0, 0x0, .plain, []⟩,
  ⟨"ASSAY_PREDICT", 0x1080010, 4, 0x4, 0, 0x0, 0x3E8, 0x0, 0xFFFFFFFF, 0x0, 0x0, 0x0, 0x0, 0x0, 0x0, .plain, []⟩,
  ⟨"ASSAY_HOURS", 0x1080020, 4, 0x4, 0, 0x0, 0x0, 0x0, 0x0, 0x0, 0x0, 0x0, 0x0, 0xFFFFFFFF, 0x0, .pw, []⟩,
  ⟨"ASSAY_FAULT", 0x1080030, 0, 0x0, 0, 0x0, 0x0, 0x0, 0x0, 0x0, 0x1FF, 0x0, 0x0, 0x0, 0x0, .plain, []⟩,
  ⟨"ASSAY_FW_CFG_0", 0x1080040, 0, 0x0, 0, 0x0, 0x1000000A, 0xFF00FFFF, 0x0, 0x0, 0x0, 0x0, 0x0, 0x0, 0x0, .plain, [⟨31, 24, 1, 255⟩, ⟨15, 0, 1, 65535⟩]⟩,
  ⟨"ASSAY_FW_CFG_1", 0x1080044, 0, 0x0, 0, 0x0, 0x1000001, 0xFF00FFFF, 0x0, 0x0, 0x0, 0x0, 0x0, 0x0, 0x0, .plain, [⟨31, 24, 1, 255⟩, ⟨15, 0, 1, 65535⟩]⟩,
  ⟨"ASSAY_FW_CFG_2", 0x1080048, 0, 0x0, 0, 0x0, 0x400003C, 0xFF00FFFF, 0x0, 0x0, 0x0, 0x0, 0x0, 0x0, 0x0, .plain, [⟨31, 24, 1, 255⟩, ⟨15, 0, 1, 65535⟩]⟩,
  ⟨"ASSAY_FW_CFG_3", 0x108004C, 0, 0x0, 0, 0x0, 0x20000E10, 0xFF00FFFF, 0x0, 0x0, 0x0, 0x0, 0x0, 0x0, 0x0, .plain, [⟨31, 24, 1, 255⟩, ⟨15, 0, 1, 65535⟩]⟩,
  ⟨"ASSAY_FW_CFG_4", 0x1080050, 0, 0x0, 0, 0x0, 0x8000258, 0xFF00FFFF, 0x0, 0x0, 0x0, 0x0, 0x0, 0x0, 0x0, .plain, [⟨31, 24, 1, 255⟩, ⟨15, 0, 1, 65535⟩]⟩,
  ⟨"ASSAY_FW_CFG_5", 0x1080054, 0, 0x0, 0, 0x0, 0xA00003C, 0xFF00FFFF, 0x0, 0x0, 0x0, 0x0, 0x0, 0x0, 0x0, .plain, [⟨31, 24, 1, 255⟩, ⟨15, 0, 1, 65535⟩]⟩,
  ⟨"ASSAY_FW_CFG_6", 0x1080058, 0, 0x0, 0, 0x0, 0x300003C, 0xFF00FFFF, 0x0, 0x0, 0x0, 0x0, 0x0, 0x0, 0x0, .plain, [⟨31, 24, 1, 255⟩, ⟨15, 0, 1, 65535⟩]⟩,
  ⟨"ASSAY_FW_CFG_7", 0x108005C, 0, 0x0, 0, 0x0, 0x40000001, 0xFF00FFFF, 0x0, 0x0, 0x0, 0x0, 0x0, 0x0, 0x0, .plain, [⟨31, 24, 1, 255⟩, ⟨15, 0, 1, 65535⟩]⟩,
  ⟨"ASSAY_FW_CFG_8", 0x1080060, 0, 0x0, 0, 0x0, 0x1000001, 0xFF00FFFF, 0x0, 0x0, 0x0, 0x0, 0x0, 0x0, 0x0, .plain, [⟨31, 24, 1, 255⟩, ⟨15, 0, 1, 65535⟩]⟩,
  ⟨"CNT_ASSAY_RUN", 0x1080080, 0, 0x0, 0, 0x0, 0x0, 0x0, 0x0, 0xFFFFFFFF, 0x0, 0x0, 0x0, 0x0, 0x0, .rc, []⟩,
  ⟨"CNT_ASSAY_DEFER", 0x1080084, 0, 0x0, 0, 0x0, 0x0, 0x0, 0x0, 0xFFFFFFFF, 0x0, 0x0, 0x0, 0x0, 0x0, .rc, []⟩,
  ⟨"CNT_ASSAY_LANE_SKIP", 0x1080088, 0, 0x0, 0, 0x0, 0x0, 0x0, 0x0, 0xFFFFFFFF, 0x0, 0x0, 0x0, 0x0, 0x0, .rc, []⟩,
  ⟨"CNT_ASSAY_SRAM_UE", 0x108008C, 0, 0x0, 0, 0x0, 0x0, 0x0, 0x0, 0xFFFFFFFF, 0x0, 0x0, 0x0, 0x0, 0x0, .rc, []⟩,
  ⟨"CNT_FW_DECLARED", 0x1080090, 0, 0x0, 0, 0x0, 0x0, 0x0, 0x0, 0xFFFFFFFF, 0x0, 0x0, 0x0, 0x0, 0x0, .rc, []⟩]

/-- The KEEP and REC registers. -/
def regRowsKeep : List RegRow := [
  ⟨"KEEP_STATUS", 0x1100000, 0, 0x0, 0, 0x0, 0x0, 0x0, 0xE0007FFF, 0x0, 0x0, 0x0, 0x0, 0x0, 0x0, .plain, []⟩,
  ⟨"KEEP_SPARE", 0x1100004, 2, 0x4, 0, 0x0, 0x1F40, 0x0, 0x1FFF, 0x0, 0x0, 0x0, 0x0, 0x0, 0x0, .plain, []⟩,
  ⟨"KEEP_WEAR_INDEX", 0x1100010, 0, 0x0, 0, 0x0, 0x0, 0xFFF, 0x0, 0x0, 0x0, 0x0, 0x0, 0x0, 0x0, .plain, []⟩,
  ⟨"KEEP_ENTRY_ADDR", 0x1100014, 0, 0x0, 0, 0x0, 0x0, 0x0, 0xFFFFFFFF, 0x0, 0x0, 0x0, 0x0, 0x0, 0x0, .plain, []⟩,
  ⟨"KEEP_WEAR_LO", 0x1100018, 0, 0x0, 0, 0x0, 0x0, 0x0, 0x0, 0x0, 0x0, 0x0, 0x0, 0x0, 0xFFFFFFFF, .low0, []⟩,
  ⟨"KEEP_WEAR_HI", 0x110001C, 0, 0x0, 0, 0x0, 0x0, 0x0, 0x0, 0x0, 0x0, 0x0, 0x0, 0x0, 0xFFFFFFFF, .high, []⟩,
  ⟨"KEEP_WEAR_TOP", 0x1100020, 0, 0x0, 0, 0x0, 0x0, 0x0, 0xFFF3FFF, 0x0, 0x0, 0x0, 0x0, 0x0, 0x0, .plain, []⟩,
  ⟨"CNT_KEEP_WEAR_REFUSED", 0x1100040, 0, 0x0, 0, 0x0, 0x0, 0x0, 0x0, 0xFFFFFFFF, 0x0, 0x0, 0x0, 0x0, 0x0, .rc, []⟩,
  ⟨"CNT_KEEP_REPAIR", 0x1100044, 0, 0x0, 0, 0x0, 0x0, 0x0, 0x0, 0xFFFFFFFF, 0x0, 0x0, 0x0, 0x0, 0x0, .rc, []⟩,
  ⟨"CNT_KEEP_REMAP", 0x1100048, 0, 0x0, 0, 0x0, 0x0, 0x0, 0x0, 0xFFFFFFFF, 0x0, 0x0, 0x0, 0x0, 0x0, .rc, []⟩,
  ⟨"CNT_KEEP_WRITE_FAIL_A", 0x110004C, 0, 0x0, 0, 0x0, 0x0, 0x0, 0x0, 0xFFFFFFFF, 0x0, 0x0, 0x0, 0x0, 0x0, .rc, []⟩,
  ⟨"CNT_KEEP_WRITE_FAIL_B", 0x1100050, 0, 0x0, 0, 0x0, 0x0, 0x0, 0x0, 0xFFFFFFFF, 0x0, 0x0, 0x0, 0x0, 0x0, .rc, []⟩,
  ⟨"REC_OLDEST_SEQ_LO", 0x1180000, 0, 0x0, 0, 0x0, 0x0, 0x0, 0x0, 0x0, 0x0, 0x0, 0x0, 0x0, 0xFFFFFFFF, .low0, []⟩,
  ⟨"REC_OLDEST_SEQ_HI", 0x1180004, 0, 0x0, 0, 0x0, 0x0, 0x0, 0x0, 0x0, 0x0, 0x0, 0x0, 0x0, 0xFFFFFFFF, .high, []⟩,
  ⟨"REC_OLDEST_OFF", 0x1180008, 0, 0x0, 0, 0x0, 0x0, 0x0, 0x7FFFFF, 0x0, 0x0, 0x0, 0x0, 0x0, 0x0, .high, []⟩,
  ⟨"REC_NEWEST_SEQ_LO", 0x1180010, 0, 0x0, 0, 0x0, 0x0, 0x0, 0x0, 0x0, 0x0, 0x0, 0x0, 0x0, 0xFFFFFFFF, .low0, []⟩,
  ⟨"REC_NEWEST_SEQ_HI", 0x1180014, 0, 0x0, 0, 0x0, 0x0, 0x0, 0x0, 0x0, 0x0, 0x0, 0x0, 0x0, 0xFFFFFFFF, .high, []⟩,
  ⟨"REC_NEWEST_OFF", 0x1180018, 0, 0x0, 0, 0x0, 0x0, 0x0, 0x7FFFFF, 0x0, 0x0, 0x0, 0x0, 0x0, 0x0, .high, []⟩,
  ⟨"REC_WIN_OFF", 0x1180020, 0, 0x0, 0, 0x0, 0x0, 0x7FFFF8, 0x0, 0x0, 0x0, 0x0, 0x0, 0x0, 0x0, .perSource, []⟩,
  ⟨"REC_BUCKET", 0x1180024, 0, 0x0, 0, 0x0, 0x10000, 0x0, 0x1FFFF, 0x0, 0x0, 0x0, 0x0, 0x0, 0x0, .plain, []⟩,
  ⟨"CNT_REC_LOST", 0x1180028, 0, 0x0, 0, 0x0, 0x0, 0x0, 0x0, 0xFFFFFFFF, 0x0, 0x0, 0x0, 0x0, 0x0, .rc, []⟩,
  ⟨"REC_WIN", 0x1180100, 70, 0x4, 0, 0x0, 0x0, 0x0, 0xFFFFFFFF, 0x0, 0x0, 0x0, 0x0, 0x0, 0x0, .plain, []⟩]

/-- The CHAIN registers. -/
def regRowsChain : List RegRow := [
  ⟨"CHAIN_CTRL", 0x1200000, 0, 0x0, 0, 0x0, 0x8000000A, 0x800000FF, 0x0, 0x0, 0x0, 0x0, 0x60000000, 0x0, 0x0, .plain, [⟨7, 0, 1, 255⟩]⟩,
  ⟨"CHAIN_STATUS", 0x1200004, 0, 0x0, 0, 0x0, 0x0, 0x0, 0xF03F0F3F, 0x0, 0x0, 0x0, 0x0, 0x0, 0x0, .plain, []⟩,
  ⟨"CHAIN_TIME_OFFSET", 0x1200008, 0, 0x0, 0, 0x0, 0x0, 0x0, 0xFFFFFFFF, 0x0, 0x0, 0x0, 0x0, 0x0, 0x0, .plain, []⟩,
  ⟨"CHAIN_ALERT_CAUSE", 0x120000C, 0, 0x0, 0, 0x0, 0x0, 0x0, 0xFF, 0x0, 0x0, 0x0, 0x0, 0x0, 0x0, .plain, []⟩,
  ⟨"CHAIN_ALERT_EN", 0x1200010, 0, 0x0, 0, 0x0, 0xFF, 0xFF, 0x0, 0x0, 0x0, 0x0, 0x0, 0x0, 0x0, .plain, []⟩,
  ⟨"CNT_CHAIN_CRC_ERR", 0x1200020, 0, 0x0, 0, 0x0, 0x0, 0x0, 0x0, 0xFFFFFFFF, 0x0, 0x0, 0x0, 0x0, 0x0, .rc, []⟩,
  ⟨"CNT_CHAIN_HOPS_DROP", 0x1200024, 0, 0x0, 0, 0x0, 0x0, 0x0, 0x0, 0xFFFFFFFF, 0x0, 0x0, 0x0, 0x0, 0x0, .rc, []⟩,
  ⟨"CNT_CHAIN_UNREACH", 0x1200028, 0, 0x0, 0, 0x0, 0x0, 0x0, 0x0, 0xFFFFFFFF, 0x0, 0x0, 0x0, 0x0, 0x0, .rc, []⟩,
  ⟨"CNT_CHAIN_FWD_SKIP", 0x120002C, 0, 0x0, 0, 0x0, 0x0, 0x0, 0x0, 0xFFFFFFFF, 0x0, 0x0, 0x0, 0x0, 0x0, .rc, []⟩,
  ⟨"CNT_CHAIN_PORT_DOWN", 0x1200030, 0, 0x0, 0, 0x0, 0x0, 0x0, 0x0, 0xFFFFFFFF, 0x0, 0x0, 0x0, 0x0, 0x0, .rc, []⟩]

/-- The HOST registers. -/
def regRowsHost : List RegRow := [
  ⟨"HOST_ID", 0x1280000, 0, 0x0, 0, 0x0, 0x0, 0x0, 0xFFFFFFFF, 0x0, 0x0, 0x0, 0x0, 0x0, 0x0, .plain, []⟩,
  ⟨"HOST_STATUS", 0x1280004, 0, 0x0, 0, 0x0, 0x0, 0x0, 0xFF00007F, 0x0, 0x0, 0x0, 0x0, 0x0, 0x0, .plain, []⟩,
  ⟨"HOST_CTRL", 0x1280008, 0, 0x0, 0, 0x0, 0x0, 0x1, 0x0, 0x0, 0x0, 0x0, 0x0, 0x0, 0x0, .plain, []⟩,
  ⟨"HOST_RING_BASE_LO", 0x1280010, 2, 0x10, 0, 0x0, 0x0, 0xFFFFFFFF, 0x0, 0x0, 0x0, 0x0, 0x0, 0x0, 0x0, .plain, []⟩,
  ⟨"HOST_RING_BASE_HI", 0x1280014, 2, 0x10, 0, 0x0, 0x0, 0xFFFFFFFF, 0x0, 0x0, 0x0, 0x0, 0x0, 0x0, 0x0, .plain, []⟩,
  ⟨"HOST_RING_CFG", 0x1280018, 2, 0x10, 0, 0x0, 0x0, 0x8000000F, 0x0, 0x0, 0x0, 0x0, 0x0, 0x0, 0x0, .plain, [⟨3, 0, 4, 12⟩]⟩,
  ⟨"HOST_RING_POS", 0x128001C, 2, 0x10, 0, 0x0, 0x0, 0xFFFF, 0xFFFF0000, 0x0, 0x0, 0x0, 0x0, 0x0, 0x0, .plain, []⟩,
  ⟨"HOST_ALERT_MEMBER_LO", 0x1280040, 0, 0x0, 0, 0x0, 0x0, 0x0, 0x0, 0x0, 0xFFFFFFFF, 0x0, 0x0, 0x0, 0x0, .plain, []⟩,
  ⟨"HOST_ALERT_MEMBER_HI", 0x1280044, 0, 0x0, 0, 0x0, 0x0, 0x0, 0x0, 0x0, 0xFFFFFFFF, 0x0, 0x0, 0x0, 0x0, .plain, []⟩,
  ⟨"CNT_HOST_TIMEOUT", 0x1280050, 0, 0x0, 0, 0x0, 0x0, 0x0, 0x0, 0xFFFFFFFF, 0x0, 0x0, 0x0, 0x0, 0x0, .rc, []⟩,
  ⟨"CNT_HOST_FWD_DROP", 0x1280054, 0, 0x0, 0, 0x0, 0x0, 0x0, 0x0, 0xFFFFFFFF, 0x0, 0x0, 0x0, 0x0, 0x0, .rc, []⟩]

/-- The rows of the block an address lies in. -/
def regRowsAt (a : Nat) : List RegRow :=
  if a < 0x10000 then regRowsGen
  else if a < 0x100000 then regRowsImg
  else if a < 0x200000 then regRowsLine
  else if a < 0x300000 then regRowsJoin
  else if a < 0x400000 then regRowsCirc
  else if a < 0x500000 then regRowsTally
  else if a < 0x600000 then regRowsCls
  else if a < 0x700000 then regRowsSched
  else if a < 0x780000 then regRowsTub
  else if a < 0x800000 then regRowsWnd
  else if a < 0xA00000 then regRowsPort
  else if a < 0xC00000 then regRowsPortShared
  else if a < 0xE00000 then regRowsLane
  else if a < 0xE80000 then regRowsTime
  else if a < 0xF00000 then regRowsProt
  else if a < 0x1000000 then regRowsCiph
  else if a < 0x1080000 then regRowsPwr
  else if a < 0x1100000 then regRowsAssay
  else if a < 0x1200000 then regRowsKeep
  else if a < 0x1280000 then regRowsChain
  else if a < 0x1300000 then regRowsHost
  else []

/-- Whether the row holds the register at byte address `a`. -/
def RegRow.has (r : RegRow) (a : Nat) : Bool :=
  if r.n1 = 0 then a == r.base
  else if a < r.base then false
  else
    let d := a - r.base
    if r.n2 = 0 then d % r.s1 == 0 && d / r.s1 < r.n1
    else d / r.s1 < r.n1 && (d % r.s1) % r.s2 == 0 && (d % r.s1) / r.s2 < r.n2

/-- The row of the register at byte address `a`, if there is one (R9: an address that holds none). -/
def regRow (a : Nat) : Option RegRow := (regRowsAt a).find? (fun r => r.has a)

/-- The value before the image's records (R11). -/
def resetValue (a : Nat) : Word :=
  match regRow a with
  | some r => BitVec.ofNat 32 r.reset
  | none => 0

end Sys2Proof.Machine
end

