-- ==== Sys2Proof/Config.lean ====
section
/-! DEFINITION. What an implementation fixes and the values the spec leaves open, each an opaque constant: nothing can
evaluate it, and a statement about it holds whatever it is. -/
namespace Sys2Proof

/-- The increment the servo chooses (in units of 2^-40 ns) for an offset in picoseconds and the increment in force: the
spec states its bounds (R388, R397), not its law. -/
opaque Config.servoIncrement : Int → Nat → Nat

/-- How far the AON counter has strayed, in units of 2^-56 ns, over a stay in L3 or L4: a free value (R63 note (a),
R402). -/
opaque Config.aonDrift : Nat → Int

/-- The clockIdentity, clockAccuracy and offsetScaledLogVariance of the boundary clock's own dataset (R394), which the
spec does not give. -/
opaque Config.clockIdentity : BitVec 64
opaque Config.clockAccuracy : BitVec 8
opaque Config.clockVariance : BitVec 16

/-- Which of the free tubs of a pool a take is given (R311 says its size, not which one). -/
opaque Config.tubChoice : Nat → Nat

/-- The energy in picojoules of a weighted demand capped at a port's rate whose bytes come partly from local ports and
partly from the line: demand, bytes of either kind, energy per byte of either kind (R301 does not say which are cut). -/
opaque Config.cappedEnergy : Nat → Nat → Nat → Nat → Nat → Nat

/-- Bytes the spec leaves undefined, by the number of the free value drawn and the position. -/
opaque Config.freeByte : Nat → Nat → Byte

/-- A number the spec leaves open, by the number of the free value drawn. -/
opaque Config.freeNat : Nat → Nat

/-- The module serial fused at manufacture (R112). -/
opaque Config.moduleSerial : BitVec 57

/-- The device root key fused at manufacture (R423): 32 bytes. -/
opaque Config.deviceRoot : BitVec 256

/-- A pattern as the image builder knows it (R248, R249): 1 to 64 bytes, its match bit, its offset and its anchor flag. -/
structure Config.Pattern where
  bytes : List (BitVec 8)
  bit : Nat
  offset : Nat
  anchored : Bool
  deriving DecidableEq, Repr

/-- The patterns that the automaton table of a pipeline holds; its layout is the image builder's and is not documented, because
its meaning is the pattern set: the bytes of the table by position. -/
opaque Config.patterns : List (Nat × Byte) → List Config.Pattern

/-- The energy in picojoules the governor forecasts for the carriage of HELD slots with a number of payload bytes (R300,
R466 item 2): the spec names what the forecast rests on, not its formula. -/
opaque Config.forecastHeld : Nat → Nat

/-- The same for lanes, strict queues, promised sub-queues and tally tiers (item 4): from the energy of the bytes sent in the
previous tick and that of the backlog. -/
opaque Config.forecastStrict : Nat → Nat → Nat

/-- The core supply target fused at manufacture (R497), in steps of 5 mV above 715 mV. -/
opaque Config.vcoreStep : Fin 22

/-- The two Atelama public keys the boot ROM holds (R39), by index: the coordinates of a point of P-384. The spec does not
give their values. -/
opaque Config.romKey : Nat → BitVec 384 × BitVec 384

/-- Atelama's PCI Express Vendor ID, fused (HOST_ID). -/
opaque Config.pciVendor : BitVec 16

end Sys2Proof
end

