-- ==== Sys2Proof/Machine/State.lean ====
section
/-! DEFINITION. The state of the terminal: everything the spec gives it, as plain data, with the queue of the commands
that wait; its faults and refusals; and the state after reset. The registers whose value is what the state of a block
shows (a status field) have no copy here: `regView` in RegAccess.lean computes them. -/
namespace Sys2Proof.Machine

/-- A table: pairs of a key and a content in ONE canonical form, keys strictly rising and no content equal to what an
unlisted key reads as (see `tget` and `tput` in Ops.lean, `Table.wf` below). -/
abbrev Table (α : Type) := List (Nat × α)

/-- GEN_BOOT_STATUS.PHASE. -/
inductive Phase where
  | rom | loading | held | applying | running | noImage
  deriving DecidableEq, Repr

/-- The state of a power domain (R450, PWR_DOM_STATUS.STATE). -/
inductive DomState where
  | off | ret | gated | on | waking | entering
  deriving DecidableEq, Repr

/-- The tick (R18 to R26): its source, the seam that gives it, its count, the phase still to be moved in nanoseconds, and
the overruns of this tick waiting to be recorded at the next edge (block code, LATE_US, tick overrun). -/
structure TickState where
  line : Bool
  side : Fin 2
  seam : Fin 4
  count : BitVec 48
  phaseNs : Int
  slewing : Bool
  overruns : List (Nat × BitVec 16 × BitVec 48)
  deriving DecidableEq, Repr

/-- A section of an image (R37). -/
structure Section where
  type : Nat
  body : Bytes
  crc : Word
  deriving DecidableEq, Repr

/-- A verified image (R36, R39): what the terminal keeps of it. -/
structure Image where
  generation : Word
  fwVersion : Word
  sections : List Section
  deriving DecidableEq, Repr

/-- A record of an image section: its section index and TYPE, its byte offset in the section body, and its bytes
(R40 to R42). `fragment` is a tail that makes no whole record (R44). -/
structure ImageRecord where
  sect : Nat
  type : Nat
  offset : Nat
  bytes : Bytes
  fragment : Bool
  deriving DecidableEq, Repr

/-- What a reset release finds (R47, R49, R57, R321), held while it waits for VIO18 and VIO33 (R538). -/
structure ReleaseInputs where
  straps : Straps
  flashA : FlashRead
  flashB : FlashRead
  ddrFail : BitVec 4
  refs : BitVec 4
  deriving DecidableEq, Repr

/-- Start-up and resets (R34 to R71): `busyReg` is the register of the record whose command is still busy (R45), `replay` the
domain whose records are being replayed (R59), `releases` the domains whose release waits for it with the upsets of the
cache each finds, `applied` that every record has been applied, `heldReset` and `heldDomains` the requests held while a
reset is in progress (R61), `refOut` the inputs that the last measurement found out of range (R547). -/
structure BootState where
  phase : Phase
  straps : Straps
  srcB : Bool
  genA : Option Word
  genB : Option Word
  codeA : Nat
  codeB : Nat
  candidate : Option Bool
  secondTried : Bool
  image : Option Image
  flashReleased : Bool
  cache : List Section
  records : List ImageRecord
  busyReg : Option Nat
  replay : Option Nat
  releases : List (Nat × List (Nat × Nat × Byte))
  applied : Bool
  inReset : Option ResetKind
  heldReset : Option (ResetKind × Nat)
  heldDomains : BitVec 21
  lastKind : Nat
  lastSub : Nat
  lastDomain : Nat
  domActive : BitVec 21
  refPresent : BitVec 4
  refOut : BitVec 4
  lineRefHold : Bool
  vioReady : Bool
  heldRelease : Option ReleaseInputs
  deriving DecidableEq, Repr

/-- The supply monitor (R64 to R71, R539, R541). `lowestMv` and `dropped` are of the episode: its lowest VIN and
the frames dropped at ingress; `commitAt` is the cycle the dip commit of R57 or R541 began at. -/
structure SupplyState where
  vinMv : BitVec 16
  warning : Bool
  lowestMv : BitVec 16
  dropped : Nat
  resumedCycle : Option Nat
  vauxLost : Bool
  disconnected : Bool
  heldAccepts : List (Nat × Bytes)
  commitAt : Option Nat
  deriving DecidableEq, Repr

/-- A foreign master of a port (R394): the dataset of its last Announce, its port identity, and the cycles of that Announce and of
the one before. -/
structure PtpForeign where
  data : PtpDataset
  sender : BitVec 64
  senderPort : Nat
  cycle : Nat
  prev : Option Nat
  deriving DecidableEq, Repr

/-- One local port of the boundary clock (R393, R394): the cycle it was enabled at, its foreign masters, the stamps of the exchange
in progress and the mean path delay in units of 2^-16 ns (R386), the sequence numbers it sends, and the transmit stamp last returned
with the sequence number of its message (R360). -/
structure PtpPort where
  listenAt : Option Nat
  foreign : List PtpForeign
  lastSync : Option Nat
  syncSeq : Nat
  syncCorr : Int
  t1 : Option Int
  t2 : Option Int
  t3 : Option Int
  pdelay : Option Int
  meanPath : Int
  txSyncSeq : Nat
  txAnnSeq : Nat
  txReqSeq : Nat
  reqSeq : Nat
  txStamp : Option (Nat × Int)
  deriving DecidableEq, Repr

/-- The time unit (R386 to R401). `now` is terminal time in units of 2^-56 ns, `inc` the increment in units of 2^-40 ns;
`beforeStep` the time before the last step with its cycle (R401), `offsetPs` the offset of the selected source that the servo has not
yet taken. -/
structure TimeState where
  now : Nat
  beforeStep : Option (Nat × Nat)
  inc : Nat
  owner : Bool
  valid : Bool
  holdover : Bool
  locked : Bool
  stepRefused : Bool
  sel : Nat
  qual : BitVec 3
  offsetPs : Option Int
  lastOffsetPs : Int
  below20Since : Option Nat
  lastTod : Option Nat
  ppsLast : Option Nat
  ppsAccepted : List Bool
  ppsOutSecond : Option Nat
  ppsOutHigh : Bool
  aonCycles : Nat
  ptp : Table PtpPort
  deriving DecidableEq, Repr

/-- One copy of a persistent entry on a die (R476); `valid` says that its CRC is right. -/
structure KeepCopy where
  wear : Nat
  value : Word
  valid : Bool
  deriving DecidableEq, Repr

/-- The keep (R473 to R485): the entries of both dies, the spare units left, the units remapped (die * 32768 + unit to
spare), the units that stay failed, the scrub position, and the entries whose refusal has been recorded (R479), the entry writes of the last
200 µs with the copy die B held before each (entry, cycle, copy; R477), the operator root key
and the loaded keys (R424). -/
structure KeepState where
  mounted : Bool
  failedDie : Option (Fin 2)
  dieA : Table KeepCopy
  dieB : Table KeepCopy
  spareA : Nat
  spareB : Nat
  remap : Table Nat
  failedUnits : List Nat
  scrubPos : Nat
  wearRefused : List Nat
  recent : List (Nat × Nat × KeepCopy)
  opRoot : Option Bytes
  loaded : Table Bytes
  deriving DecidableEq, Repr

/-- A record waiting for the keep (R490). -/
structure WaitingRecord where
  code : BitVec 16
  source : Nat
  payload : Bytes
  seconds : Nat
  ns : Nat
  timeValid : Bool
  aonTime : Bool
  lostBefore : Bool
  deriving DecidableEq, Repr

/-- The recorder (R486 to R492): the ring in units of 8 bytes, OLDEST and NEWEST, where the next record goes, the bucket
in units of 10^-9 bytes with the cycle it was last filled at, and the buffer of R490. -/
structure RecState where
  ring : Table (BitVec 64)
  oldestSeq : Nat
  oldestOff : Nat
  newestSeq : Nat
  newestOff : Nat
  nextOff : Nat
  bucket : Nat
  bucketCycle : Nat
  lost : Bool
  waiting : List WaitingRecord
  waitingLost : Nat
  overflowed : Bool
  winOff : Table Word
  fwdSeq : Nat
  deriving DecidableEq, Repr

/-- An access stalled until its domain is ON (R457); for one the chain answers, the banksman's address and TAG (R521). -/
structure StalledAccess where
  src : Source
  addr : Word
  write : Option Word
  domain : Nat
  tag : Option (Nat × Nat)
  deriving DecidableEq, Repr

/-- The power controller and the governor (R445 to R472). Votes are bit masks by client (client 0's are the register
PWR_VOTE_0); `supSaved` are SUP's votes as they stood before it ordered the entry in progress, `refusedVotes` all votes at
the last refusal, `wakeAt` is the tick a wake source last fired in, `suspended` says that a firedamp trip has suspended promised service until the return to L0 (R33), and
`wakeSet` is the cycle PWR_WAKE_TIMER was last written. Energies are in picojoules. -/
structure PwrState where
  votes : Table (BitVec 23)
  dom : Table DomState
  before : Table DomState
  ladder : Nat
  target : Nat
  entry : Option Nat
  heldTarget : Option Nat
  exitTo : Option Nat
  wake : Bool
  wakeClient : Option Nat
  wakeAt : Option (BitVec 48)
  lastWake : Nat
  lastRefusal : Option Nat
  refusedVotes : List Nat
  caseTemp : Int
  idleUs : Nat
  firedamp : Bool
  suspended : Bool
  supSaved : BitVec 23
  overTemp : Nat
  stalled : List StalledAccess
  promPj : Nat
  usedAllowPj : Nat
  lateAllowPj : Option Nat
  lateLimit : Bool
  shownAllowPj : Nat
  limitThermal : Bool
  overdraft : Bool
  overPj : Nat
  remainPj : Nat
  acceptBytes : Nat
  shortfall : Bool
  shedBlocks : BitVec 128
  phiFullTicks : Nat
  tj : Int
  tjSensor : Nat
  wakeSet : Nat
  deriving DecidableEq, Repr

/-- The window of one instance of a fault source (R503). -/
structure FaultWindow where
  count : Nat
  start : Nat
  deriving DecidableEq, Repr

/-- The assay unit (R493 to R508). Slack is in tenths of a picosecond. Keys of `windows` are source * 65536 + instance,
of `predict` class * 65536 + instance (YEARS_X10); `faultsIn` are fault events (source, instance) not yet counted. -/
structure AssayState where
  running : Bool
  deferred : Bool
  aborted : Bool
  restart : Bool
  sinceH : Nat
  slack : Option Int
  guardTenths : Nat
  lastSlack : Option Int
  lastTarget : Nat
  lastEye : Table Nat
  raisedAt : Option (BitVec 48)
  windows : Table FaultWindow
  predict : Table Nat
  draining : List Nat
  sramSpares : Nat
  lostBanks : List Nat
  ddrFailed : BitVec 4
  faultsIn : List (Nat × Nat)
  deriving DecidableEq, Repr

/-- An optic as CMIS shows it (R549, R550). -/
structure OpticState where
  serialCrc : Word
  control : Bool
  maxSteps : Nat
  txPower : List Nat
  bias : List Nat
  requests : List Nat
  txDisabled : Bool
  deriving DecidableEq, Repr

/-- Sideband outputs, optics and LEDs (R543 to R554): consecutive disagreeing readbacks by bit of GEN_LAND_SHORT, the
ports that moved a frame in the LED period. -/
structure LandState where
  mismatches : Table Nat
  opticA : OpticState
  opticB : OpticState
  ledActivity : BitVec 512
  perstLow : Bool
  deriving DecidableEq, Repr

/-- What the terminal does on an optic's two-wire bus (R549): a read of the lower memory (where `lower`) and of pages, a request
for more output, the transmitter disable, the low-power request. -/
inductive CmisAccess where
  | readPages (lower : Bool) (pages : List Nat)
  | requestOutput (lane : Nat)
  | txDisable (off : Bool)
  | lowPower (on : Bool)
  deriving DecidableEq, Repr

/-- The frame alignment state of a seam (R92). -/
inductive SeamAlign where
  | off | hunt | presync | sync
  deriving DecidableEq, Repr

/-- An open candidate (R87 to R91), in order of opening: its bit offset within the period, run, confirmations, last FC and
HEID. -/
structure Candidate where
  offset : Nat
  run : Nat
  conf : Nat
  fc : BitVec 48
  heid : BitVec 16
  deriving DecidableEq, Repr

/-- A frame in progress of a TN: the FC of its fragment with FIRST = 1, the bytes so far, and the chains of tubs its fragments
stand in (R311). -/
structure PartialFrame where
  tn : BitVec 12
  fc : BitVec 48
  bytes : Bytes
  tubs : List (List Nat)
  deriving DecidableEq, Repr

/-- One seam receiver (R87 to R109). `sinceSync` counts frames since SYNC was entered, `lastMfi` the last used header's
MFI with the frames since it, `jump` the FC of a header whose FC did not follow, `open` windows count since they began,
`closed` ones wait for their row, `rei` are the counts of the last one completed since SYNC was entered (R108).
`rdi` are the cycles at which the first defect of R106 was declared and the last one cleared, newest first; `eligible` says that the seam may fail, `failSince` since which cycle it is failed (R415). -/
structure SeamState where
  align : SeamAlign
  cands : List Candidate
  badSync : Nat
  fc : BitVec 48
  heid : BitVec 16
  heidBad : Bool
  heidRun : Nat
  heRdi : Bool
  jump : Option (BitVec 48)
  sinceSync : Nat
  mfAligned : Bool
  lastMfi : Option (Nat × Nat)
  mfRun : Nat
  mfBadRun : Nat
  los : Bool
  lof : Bool
  lomf : Bool
  sd : Bool
  sf : Bool
  sdFrames : Nat
  sdErrors : Nat
  sdClosed : List Nat
  sfFrames : Nat
  sfCorr : Nat
  sfUnc : Nat
  sfClosed : List (Nat × Nat)
  sfGood : Nat
  sfAligned : Bool
  rei : Word
  rdi : List (Nat × Bool)
  stamps : List (BitVec 48 × Nat)
  skewed : Bool
  planFc : Option (BitVec 48)
  plan : List (Option (BitVec 64))
  partials : List PartialFrame
  eligible : Bool
  failSince : Option Nat
  deriving DecidableEq, Repr

/-- The state of an identity (R144), in the order of JOIN_ID_STATUS.STATE. -/
inductive IdPhase where
  | listening | announcing | ranging | serving | held | parked | expelled
  deriving DecidableEq, Repr

/-- Why an identity is Held, in the order of JOIN_ID_STATUS.CAUSE. -/
inductive HeldCause where
  | head | line | restart | switch
  deriving DecidableEq, Repr

/-- A line management message that waits for a grant of the default allocation: its TYPE and body, and for an ACK the FC
of the frame it answers (R122). -/
structure UpMessage where
  type : Nat
  body : Bytes
  after : Option (BitVec 48)
  deriving DecidableEq, Repr

/-- A doze in force (R153); `ends` is the frame from which a grant with STATE 0 has ended it (R158). -/
structure DozeState where
  state : Nat
  f0 : BitVec 48
  period : Nat
  aware : Nat
  ends : Option (BitVec 48)
  deriving DecidableEq, Repr

/-- A bonded fragment that is held (R160); `void` marks one that found no tub. -/
structure BondFragment where
  bseq : Nat
  first : Bool
  last : Bool
  fc : BitVec 48
  seam : Nat
  bytes : Bytes
  tubs : List Nat
  void : Bool
  deriving DecidableEq, Repr

/-- An identity on the active side (R112 to R162): the ALLOC_IDs of its indexes 1 to 7 (0: none), the home seams plus one
(0: not set), the cycle its join or resume timer started at, the announce windows to be skipped, TYPE and SEQ of the last
message acted on for its TN, its own sequence, the messages waiting for a grant, its doze with the ticks it last woke and
was last granted one in, and its bonded flows; `bondCut` says that the frame the expected fragment belongs to has been
voided and counted (R160). -/
structure Identity where
  phase : IdPhase
  cause : HeldCause
  tn : Option (BitVec 12)
  heid : BitVec 16
  allocs : Table Nat
  homes : Table Nat
  timer : Option Nat
  backoff : Nat
  lastMsg : Option (Nat × Nat)
  seqTx : Nat
  msgs : List UpMessage
  doze : Option DozeState
  waking : Bool
  wokeAt : Option (BitVec 48)
  grantAt : Option (BitVec 48)
  bseqTx : Nat
  expected : Option Nat
  bondCut : Bool
  frags : List BondFragment
  gapSince : Option Nat
  deriving DecidableEq, Repr

/-- A record of a plan as a burst uses it (R123): the allocation index, the ALLOC_ID it named, START, LENGTH, QR, KS; and its
fragments, once a bonded allocation has been served for it (R161). -/
structure GrantRecord where
  k : Nat
  allocId : Nat
  start : Nat
  length : Nat
  qr : Bool
  ks : Bool
  content : Option Bytes
  deriving DecidableEq, Repr

/-- A burst placed by a plan (R125 to R127): `ident` is none for an announce window; `first` is the block its first record
begins at (after the random offset of R145); `eqd` the equalisation delay it leaves at; `rei` the REI counts of its header;
`missed` a grant not transmitted
(R148); `sent` that its time has come. Bursts are kept for ten frames (R122). -/
structure Burst where
  side : Nat
  seam : Nat
  fc : BitVec 48
  ident : Option Nat
  ranging : Bool
  records : List GrantRecord
  profile : Nat
  preamble : Nat
  first : Nat
  eqd : Nat
  rei : Word
  missed : Bool
  sent : Bool
  leftAt : Option Nat
  deriving DecidableEq, Repr

/-- A line management message not yet acted on (R122). -/
structure LmmWaiting where
  side : Nat
  seam : Nat
  fc : BitVec 48
  bytes : Bytes
  deriving DecidableEq, Repr

/-- Joining (R112 to R162): identities, the bursts placed and not yet sent, the EqD in use per side with the ones to come
(side, first upstream frame, bits), the messages not yet acted on, the SEQ of ANNOUNCE, and the records of this tick SHIFT may still apply. -/
structure JoinState where
  idents : Table Identity
  bursts : List Burst
  eqdUse : Table Nat
  eqdNext : List (Nat × BitVec 48 × Nat)
  lmms : List LmmWaiting
  announceSeq : Nat
  shiftLeft : Option Nat
  deriving DecidableEq, Repr

/-- A burst as it leaves (R127 to R129): the block its first record begins at and the EqD it leaves at, in bits (R119);
burst-enable lead and lag in half nanoseconds; the preamble pattern with its repetitions; the delimiter; the symbols
of its codewords, scrambled and coded, each with the block it begins at; and the PAM4 levels of every stretch without a gap,
with the block it begins at (R73). -/
structure BurstOut where
  side : Nat
  seam : Nat
  fc : BitVec 48
  block : Nat
  eqd : Nat
  lead : Nat
  lag : Nat
  preamble : Nat
  pattern : Word
  delimiter : BitVec 64
  words : List (Nat × List Nat)
  levels : List (Int × List Int)
  deriving DecidableEq, Repr


/-- The fields of a circuit's registers as they were sampled when EN became 1 (R184). -/
structure CircSample where
  encap : Nat
  n : Nat
  d : Nat
  ident : Nat
  allocK : Nat
  port : Nat
  pktBytes : Nat
  tplLen : Nat
  demux : Nat
  dsSeam : Nat
  dsOffset : Nat
  tpl : Bytes
  deriving DecidableEq, Repr

/-- A container that waits for its upstream frame: the identity and circuit allocation it is bound to, and its bytes (R172). -/
structure ContainerTx where
  fc : BitVec 48
  ident : Nat
  allocK : Nat
  bytes : Bytes
  deriving DecidableEq, Repr

/-- A circuit (R163 to R185): the fields in force (`next`: the fields sampled for an enable that waits for the tick edge), its tubs,
the de-jitter buffer (stored packets by byte position, the position of the next byte to be taken, the position after the
newest packet, the sequence number and position of a stored packet), the fills at the last 64 tick edges, newest first,
the frames since the last justification either way, the pointer machine (`lastPtrs`: the PTR of the two containers
before, `newPtr`: the PTR of the invalid containers in a row and their number), the tributary bytes not yet in a packet,
and the containers received and formed, by FC. -/
structure Circuit where
  active : Bool
  next : Option CircSample
  refuse : Nat
  encap : Nat
  n : Nat
  d : Nat
  ident : Nat
  allocK : Nat
  port : Nat
  pktBytes : Nat
  tplLen : Nat
  demux : Nat
  dsSeam : Nat
  dsOffset : Nat
  tpl : Bytes
  tubs : List Nat
  packets : Table Bytes
  play : Nat
  newest : Nat
  anchor : Option (Nat × Nat)
  playing : Bool
  loss : Bool
  fill : Nat
  fills : List Nat
  sinceTx : Nat
  ptrTx : Nat
  ptrSent : Nat
  lop : Bool
  p : Nat
  invRun : Nat
  newPtr : Option (Nat × Nat)
  lastPtrs : List (Option Nat)
  sinceRx : Nat
  trib : Bytes
  seqTx : Nat
  rx : List (BitVec 48 × Bytes)
  tx : List ContainerTx
  deriving DecidableEq, Repr


/-- The state of a journal slot (R201). -/
inductive SlotState where
  | free | pending | held | done | void | bad
  deriving DecidableEq, Repr

/-- The values of STATE (R201). -/
def SlotState.code : SlotState → BitVec 8
  | .free => 0x00
  | .pending => 0x5A
  | .held => 0xA5
  | .done => 0x3C
  | .void => 0xC3
  | .bad => 0x0F

/-- A slot's copy on one die (R200): the fields of its header (DIR is `down`; LEN is the payload's length) and the payload in
clear (`slotStored` is what the die holds of it, `slotHeader` the header's bytes). `headLost` and `tailLost` say that the
slot's first or second keep unit no longer holds what was written. -/
structure SlotCopy where
  st : SlotState
  nstate : BitVec 8
  down : Bool
  ident : Nat
  flow : Nat
  sseq : Nat
  pcrc : Word
  tally : Nat
  epoch : Word
  hcrc : Word
  payload : Bytes
  headLost : Bool
  tailLost : Bool
  deriving DecidableEq, Repr

/-- What the tally engine knows of a slot in PENDING or HELD (R206 to R221): its write verified, a receipt for it in this
window, a resend chosen, sent at all with the tick of the last sending, RESEND due at the next sending, the cycle its
wait for a receipt began at, the tubs of its copy, and what the answer to its SUBMIT is built from. -/
structure SlotWork where
  verified : Bool
  receipted : Bool
  due : Bool
  sentAt : Option (BitVec 48)
  resend : Bool
  since : Nat
  tubs : List Nat
  reply : Option (Nat × Bytes)
  deriving DecidableEq, Repr

/-- A journal write not yet verified (R205): its slot, its bytes per die, and the cycle it was issued in, none for a mark that
waits until the bound of R205 allows it. -/
structure JournalWrite where
  slot : Nat
  bytes : Nat
  cycle : Option Nat
  deriving DecidableEq, Repr

/-- The tally engine (R186 to R233): the journal (key: die * 8192 + slot), its slots' work, the dies a BAD slot's write
failed on (bit mask by slot), writes not yet verified, the next upstream tally, the slot last taken, the next SSEQ of
flows, stalled flows, what is left of the acceptance budget, and whether the scan is under way. -/
structure TallyState where
  journal : Table SlotCopy
  work : Table SlotWork
  badDies : Table Nat
  writes : List JournalWrite
  next : Nat
  last : Nat
  flowNext : Table Nat
  stalled : List Nat
  left : Nat
  leftCount : Nat
  scanning : Bool
  deriving DecidableEq, Repr

/-- A rule (R242). -/
structure Rule where
  key : BitVec 640
  mask : BitVec 640
  action : Word
  deriving DecidableEq, Repr

/-- An FDB entry that is in use (R263). -/
structure FdbEntry where
  mac : BitVec 48
  vid : BitVec 12
  static : Bool
  age : Bool
  dest : BitVec 10
  deriving DecidableEq, Repr

/-- A VLAN entry: the member lanes and the word CLS_VLAN_DATA_16. -/
structure VlanEntry where
  members : BitVec 512
  flags : Word
  deriving DecidableEq, Repr

/-- A record that a pipeline offers the limiter (R268), with the stamp of its frame. -/
structure ExcOffer where
  pipe : Nat
  stamp : Nat
  bytes : Bytes
  deriving DecidableEq, Repr

/-- An exception record in the ring (R264): header and frame bytes, the tubs that hold it, and the stamp of its frame (R360). -/
structure ExcRecord where
  bytes : Bytes
  tubs : List Nat
  stamp : Nat
  deriving DecidableEq, Repr

/-- A tally message on its way to the tally engine: the frame, whether it came from the line, the identity or port, and whether
the flow it names was open when it arrived (R190). -/
structure TallyFrame where
  bytes : Bytes
  line : Bool
  src : Nat
  wasOpen : Bool
  deriving DecidableEq, Repr

/-- Classification (R234 to R268): rules (key 16384 * pipeline + rule), automaton bytes (key 2097152 * pipeline +
position), the FDB (key 4 * set + way), VLAN entries, the limiter (frames in units of 10^-9, bytes in units of 1/8000, as
of a cycle), the records of this cycle that the limiter has not taken yet with their pipelines (R268), the exception ring, what
waits for the circuit mapper and the tally engine, and the FDB entries (VID and address) that a learn has inserted or a command
has written, true for a command, in cycle `fdbCycle` (R262). -/
structure ClsState where
  rules : Table Rule
  automaton : Table Byte
  fdb : Table (Option FdbEntry)
  vlans : Table VlanEntry
  excFrames : Nat
  excBytes : Nat
  excCycle : Nat
  excWait : List ExcOffer
  excRing : List ExcRecord
  circIn : List (Nat × Bytes)
  tallyIn : List TallyFrame
  fdbTouched : List (Nat × Nat × Bool)
  fdbCycle : Nat
  deriving DecidableEq, Repr


/-- A frame that waits, without FCS: its colour (0 green, 1 yellow, 2 red), its tubs, its DRAM tub, whether the movers
are to spill it, whether its gate hold has been counted, whether it came from the line, and whether it leaves with its
FCS inverted. -/
structure QFrame where
  bytes : Bytes
  colour : Nat
  tubs : List Nat
  dram : Option Nat
  spill : Bool
  held : Bool
  line : Bool
  bad : Bool
  deriving DecidableEq, Repr

/-- A shaper's credit (R285) in units of 10^-6 of 1/256 byte, as of a cycle. -/
structure Credit where
  amount : Int
  cycle : Nat
  deriving DecidableEq, Repr

/-- A queue of a port (R269, R277): frames, deficit, credit, the cycle its pause ends at, whether it refills. -/
structure PortQueue where
  frames : List QFrame
  deficit : Nat
  credit : Credit
  pausedTo : Nat
  refilling : Bool
  deriving DecidableEq, Repr

/-- A gate list (R288, R291): entries (GATES, INTERVAL), cycle time, start S in nanoseconds of time, and the time and
cycle its counter was last set at. -/
structure GateList where
  entries : List (Nat × Nat)
  cycleNs : Nat
  startNs : Nat
  setTime : Int
  setCycle : Nat
  deriving DecidableEq, Repr

/-- The scheduler of a port (R269 to R302). `granted` says that the queue at the head of the active list has had its
quantum; `busyTo` is the cycle at which the frame in transmission and its gap end, `flight` the queue of that frame with
the cycle it ends at; `strict` is the STRICT in force. The weighted bytes: sent in this tick, admitted in it (from local
ports, from the line), the demand D, its energy and the overshoot as of the tick edge, and D and overshoot as the plan in
force has them. -/
structure PortSched where
  consign : List QFrame
  circ : List QFrame
  queues : Table PortQueue
  active : List Nat
  granted : Bool
  credit : Credit
  lanesPausedTo : Nat
  busyTo : Nat
  flight : Option (Nat × Nat)
  strict : Nat
  oper : Option GateList
  pend : Option GateList
  gateErr : Nat
  gateFix : Bool
  gateLate : Bool
  wSent : Nat
  admLocal : Nat
  admLine : Nat
  edgeDemand : Nat
  edgePj : Nat
  edgeOver : Nat
  capDemand : Nat
  capOver : Nat
  deriving DecidableEq, Repr

/-- A frame partly sent upstream (R297): the protected bytes not yet sent, its whole length, whether it is weighted. -/
structure Continuation where
  rest : Bytes
  total : Nat
  weighted : Bool
  deriving DecidableEq, Repr

/-- An allocation queue (R297). -/
structure AllocQueue where
  cont : Option Continuation
  tally : List QFrame
  subs : Table (List QFrame)
  refilling : List Nat
  wSent : Nat
  edgeDemand : Nat
  edgeOver : Nat
  capDemand : Nat
  capOver : Nat
  deriving DecidableEq, Repr

/-- A policer (R281 to R284): its five words and its two buckets in units of 10^-6 of 1/256 byte, as of a cycle, with
its counts. -/
structure Policer where
  words : List Word
  tc : Nat
  te : Nat
  cycle : Nat
  green : Word
  yellow : Word
  red : Word
  deriving DecidableEq, Repr

/-- Scheduling as a whole: ports, allocation queues, policers, the administrative gate lists (key 256 * port + entry,
(GATES, INTERVAL)), the plan (R300), and the bytes of strict ranks sent in this tick and the previous one, in
picojoules. -/
structure SchedState where
  ports : Table PortSched
  aqs : Table AllocQueue
  policers : Table Policer
  admin : Table (Nat × Nat)
  phi : Nat
  prev : Bool
  eW : Int
  eWd : Nat
  strictPj : Nat
  prevStrictPj : Nat
  shedSkipped : List Nat
  deriving DecidableEq, Repr

/-- The tag of a tub (R309). -/
structure TubTag where
  free : Bool
  owner : Nat
  next : Word
  deriving DecidableEq, Repr

/-- For what a take of a spent floor waits (R312): for the agent itself, or for a frame of a port's consignment lane, of its
circuit lane, or of an allocation queue's tally tier (R280). -/
inductive WaitFor where
  | agent | consign (p : Nat) | circ (p : Nat) | tally (a : Nat)
  deriving DecidableEq, Repr

/-- A take that waits for a tub of a spent floor (R312): the agent, the length, whether it was known, and for what. -/
structure TubWait where
  agent : Nat
  len : Nat
  known : Bool
  dest : WaitFor
  deriving DecidableEq, Repr

/-- A free requested (R313): the freeing agent, the handle, and whether the chain that follows it is freed too. -/
structure TubFree where
  agent : Nat
  handle : Nat
  chain : Bool
  deriving DecidableEq, Repr

/-- The tub store (R306 to R322): tags by handle, tubs taken by pool, cells in use by floor holder (0 TALLY, 1 CIRC,
2 SUP, 3 the shared region), the takes that wait, the frees and takes of this cycle (R315), the bytes of packet SRAM and DRAM, the rings' POST and TAKE and the entries posted, and
the deep buffer. -/
structure TubState where
  tags : Table TubTag
  taken : Table Nat
  cells : Table Nat
  waiting : List TubWait
  frees : List TubFree
  asks : List TubWait
  sram : Table Byte
  dram : Table Byte
  post : Table Nat
  take : Table Nat
  posted : Table Nat
  ddrLeft : Nat
  trained : Bool
  mappedOut : BitVec 4
  deriving DecidableEq, Repr

/-- The state of a winder channel (R333). -/
inductive WndPhase where
  | idle | run | park | halt
  deriving DecidableEq, Repr

/-- A winder channel (R323 to R333): `fetch` is the descriptor to be fetched, `words` the fetched copy (none loaded: []),
`moved` the bytes moved, `crc` the CRC register, `fresh` whether the next descriptor begins it afresh, `stopping` that EN
has been written 0 while a descriptor is in progress, `landing` the descriptors without BARRIER whose bytes are moved and
whose completion pulse waits for their writes to land (their address and words). -/
structure WndChan where
  phase : WndPhase
  pend : Bool
  fetch : Option (BitVec 64)
  cur : BitVec 64
  words : List (BitVec 64)
  moved : Nat
  crc : Nat
  fresh : Bool
  stopping : Bool
  landing : List (BitVec 64 × List (BitVec 64))
  err : Nat
  deriving DecidableEq, Repr

/-- The winders: the 64 channels and the last channel served in each priority group (R334). -/
structure WndState where
  chans : Table WndChan
  lastHigh : Nat
  lastLow : Nat
  deriving DecidableEq, Repr

/-- A local port (R336 to R352): `mode` is the mode in force. Wake times are in microseconds; `lpiTxAt` and `lpiRxAt`
are the cycles LPI began at, `wakeTo` the cycle until which a woken port waits, `lldpAt` when an LLDPDU was last taken, `supStamp` the receive stamp of the last
frame the supervisor took, in units of 2^-16 ns (R360). -/
structure PortState where
  link : Bool
  mode : Nat
  err : Nat
  locFault : Bool
  remFault : Bool
  lpiTx : Bool
  lpiRx : Bool
  eeeNeg : Bool
  partRxTw : Nat
  twTx : Nat
  lpiTxAt : Nat
  lpiRxAt : Nat
  wakeTo : Nat
  lldpAt : Option Nat
  supStamp : Nat
  deriving DecidableEq, Repr

/-- An MDIO bus (R353 to R356): for each slot the command that waits, ERR and RDATA; the slot taken last. -/
structure MdioState where
  op : Table Nat
  err : Table Bool
  rdata : Table Nat
  last : Nat
  deriving DecidableEq, Repr

/-- A frame that waits at a pipeline for classification, without FCS: its source (a local port, or an identity of the
line), the stamp of its arrival in units of 2^-16 ns (R359, R386), whether it can leave only by cut-through, as its FCS is wrong
(R342), and the tubs it stands in (R311). -/
structure InFrame where
  bytes : Bytes
  line : Bool
  src : Nat
  stamp : Nat
  bad : Bool
  tubs : List Nat
  deriving DecidableEq, Repr

/-- The state of a serial lane (R368), in the order of LANE_STATUS.STATE. -/
inductive LanePhase where
  | off | deep | eidle | train | active
  deriving DecidableEq, Repr

/-- A change of a lane's state that a dip episode holds until resumption (R371): it is to train, or to go OFF; its training is
complete; a wake, with or without energy; no energy for 1 s. -/
inductive LaneHold where
  | train | off | trained | wake (energy : Bool) | noEnergy
  deriving DecidableEq, Repr

/-- A serial lane (R363 to R385): `saved` is the saved set of coefficients (case temperature and cycle of the save),
`adapted` that the receiver holds coefficients, `retrainDue` that the retrain window waits for a scan or a dip, `noEnergy` that it entered DEEP
for want of energy; `prbsErr` are the errors of the run since the checker was started, `scanHeld` that the scan was started in a
dip episode that goes on, `held` the changes that wait for its end (R371). -/
structure LaneState where
  st : LanePhase
  saved : Option (Int × Nat)
  adapted : Bool
  retrainDue : Bool
  noEnergy : Bool
  short : Bool
  isOpen : Bool
  energy : Bool
  cdr : Bool
  prbsLock : Bool
  prbsSeen : Bool
  prbsErr : Nat
  err : Nat
  slipPos : Nat
  scan : Bool
  scanHeld : Bool
  held : List LaneHold
  eye : Word
  deriving DecidableEq, Repr

/-- A switch in progress (R419): its request, the tick it was decided at and its cycle. -/
structure SwitchRun where
  req : Nat
  tick : BitVec 48
  cycle : Nat
  deriving DecidableEq, Repr

/-- Line protection and the canary (R403 to R422): the active side, whether a failed seam has stayed failed for HOLD_MS, whether R506 has marked the side failed, the request in force, the commands not
yet judged (oldest first), whether wait-to-restore has expired, whether the denial of this episode has been recorded, the
request decided, the switch in progress, the canary's side while it runs, the cycle its run started at and the seams that passed
its PRBS check once that is over, whether a skipped run is to be retried, the
health words (AGE_S aside) with the cycle of the last completed run, the start of wait-to-restore with the passing runs
since, and PROT_CMD.ERR. -/
structure ProtState where
  active : Fin 2
  failed : Bool
  marked : Bool
  req : Nat
  cmds : List Nat
  wtrDue : Bool
  denied : Bool
  decided : Option Nat
  switching : Option SwitchRun
  canary : Option (Fin 2)
  canaryAt : Nat
  canaryPrbs : Option Nat
  retry : Bool
  healthA : Word
  healthB : Word
  ranA : Option Nat
  ranB : Option Nat
  wtrStart : Option Nat
  wtrPasses : Nat
  lastSwitch : Word
  err : Nat
  deriving DecidableEq, Repr

/-- A line key (R424 to R437): its epoch, the key and salt once derived, whether it holds a slot, and the window of R433:
the highest CTR accepted and those accepted within the window. -/
structure LineKey where
  epoch : Word
  key : Option Bytes
  slot : Bool
  top : Option Nat
  seen : List Nat
  deriving DecidableEq, Repr

/-- The keys of one direction of an identity: in force, pending with the SWITCH_FC of a downstream one, and the one
before the last switch (R434) with the FC of that switch. -/
structure KeyDir where
  cur : LineKey
  pend : Option LineKey
  pendFc : BitVec 48
  old : Option LineKey
  curFc : Option (BitVec 48)
  deriving DecidableEq, Repr

/-- A derivation requested (R429): the identity, the direction (true upstream), whether it is for the pending key, and
whether KEY_READY follows. -/
structure KeyJob where
  ident : Nat
  up : Bool
  pend : Bool
  ready : Bool
  deriving DecidableEq, Repr

/-- The cipher engine (R423 to R444): key directions (key 2i + d), derivations in request order, the next upstream CTR,
whether the last derivation of an identity failed, and the tag failures since the last event with its cycle. -/
structure CiphState where
  dirs : Table KeyDir
  jobs : List KeyJob
  ctr : Nat
  noRoot : BitVec 128
  tagFails : Table Nat
  tagEvent : Table (Option Nat)
  deriving DecidableEq, Repr


/-- A port of the chain (R513): in service, or in the hold-off before it. -/
structure ChainPort where
  service : Bool
  holdOff : Bool
  deriving DecidableEq, Repr

/-- The chain (R509 to R529): its ports, the TAG of the last broadcast acted on by SRC, the next TAG, the banksman's
address and whether it is reachable, the cycle of the last TIME frame with BANKSMAN set by SRC, DUP, the time offset, the
masked causes sent last, and whether the next record forwarded carries GAP. -/
structure ChainState where
  east : ChainPort
  west : ChainPort
  lastBcast : Table (Option Nat)
  tag : Nat
  banksman : Nat
  reachable : Bool
  heard : Table (Option Nat)
  dup : Bool
  timeOffset : Word
  alertSent : Word
  gap : Bool
  deriving DecidableEq, Repr

/-- A request of the host to another member (R520). -/
structure HostRequest where
  member : Nat
  addr : Word
  write : Option Word
  tag : Nat
  deriving DecidableEq, Repr

/-- The PCI Express endpoint (R517 to R522): its link, the requests in flight and those that wait, and the rings that have sent their
MSI-X vector in this tick. HEAD and TAIL are HOST_RING_POS. -/
structure HostState where
  link : Bool
  speed : Nat
  width : Nat
  inflight : List HostRequest
  waiting : List HostRequest
  vectorSent : List Nat
  deriving DecidableEq, Repr

/-- What leaves the terminal. -/
inductive Output where
  /-- The value a register read returns to its source. -/
  | readReply (src : Source) (addr value : Word)
  /-- A register access refused under R52 or R53. -/
  | accessRefused (src : Source) (addr : Word)
  /-- A frame sent at a local port. -/
  | portFrame (port : Nat) (frame : Bytes)
  /-- A pulse edge of PPS_OUT. -/
  | ppsOut (high : Bool)
  /-- An LED frame of 1,056 bits, index 0 first. -/
  | ledFrame (bits : List Bool)
  /-- An access to an optic's CMIS memory. -/
  | cmisAccess (side : Nat) (what : CmisAccess)
  /-- A PTP message sent at a local port with its sequence number. -/
  | ptp (port : Nat) (seq : Nat) (m : PtpSend)
  /-- Tubs given to an agent (R311), first tub first. -/
  | tubsGiven (agent : Nat) (handles : List Nat)
  /-- A pulse of a winder's event line to its consumer (R329). -/
  | wndPulse (consumer line channel : Nat) (descriptor : BitVec 64) (error : Bool)
  /-- Bytes a winder writes to a data port (R324). -/
  | portData (addr : Nat) (bytes : Bytes)
  /-- A fault signal of a port's reconciliation sublayer (R346): 0 frames or idle, 1 remote fault, 2 idle for a remote
  fault received. -/
  | portSignal (port : Nat) (signal : Nat)
  /-- LPI asserted or deasserted at a port (R349). -/
  | lpi (port : Nat) (on : Bool)
  /-- An LLDPDU with the EEE TLV sent at a port: Receive Tw and Transmit Tw (R350). -/
  | lldp (port : Nat) (rxTw txTw : Nat)
  /-- An MDIO frame (R353): the bus, the divisor of MDC, whether the preamble goes before it, its operation bits, port and
  device address, and its 16 address or data bits; a read carries none. -/
  | mdio (bus div : Nat) (preamble : Bool) (op prtad devad : Nat) (data : Option Nat)
  /-- A frame sent at a chain port (0 east, 1 west), CRC included. -/
  | chainFrame (port : Nat) (frame : Bytes)
  /-- A training burst under R369 sent at a lane. -/
  | trainingBurst (lane : Nat)
  /-- The value a host read completes with (R518, R520). -/
  | hostCompletion (member : Nat) (addr value : Word)
  /-- An entry of a host ring (R522) written to a host bus address. -/
  | hostEntry (addr : Nat) (entry : Bytes)
  /-- An MSI-X vector. -/
  | msix (vector : Nat)
  /-- A burst sent upstream. -/
  | burst (b : BurstOut)
  /-- A transmit lane drops to differential zero while a burst leaves through it (R555). -/
  | burstCut (side seam : Nat)
  deriving DecidableEq, Repr

/-- The state of the terminal. -/
structure State where
  /-- The commands that wait, first in, first out. -/
  pending : List Instr
  /-- Cycles of the model's clock, one nanosecond each (log entry 2). -/
  cycle : Nat
  /-- Counts the free values drawn; the model's own field (log entry 4). -/
  free : Nat
  /-- What has left the terminal, newest first. -/
  outs : List Output
  /-- The register contents that are held as such (default: the Reset column). -/
  regs : Table Word
  /-- The LR latches (R15), key: source code * 2^32 + address of the high word. -/
  latch : Table Word
  /-- CNT_REG_MISALIGNED (R8), to which the spec gives no address. -/
  misaligned : Word
  /-- The tick. -/
  tick : TickState
  /-- Start-up, the image and resets. -/
  boot : BootState
  /-- The supply monitor. -/
  supply : SupplyState
  /-- The time unit. -/
  time : TimeState
  /-- The keep. -/
  keep : KeepState
  /-- The recorder. -/
  recd : RecState
  /-- The power controller and the governor. -/
  pwr : PwrState
  /-- The assay unit and the fault windows. -/
  assay : AssayState
  /-- Sideband outputs, optics and LEDs. -/
  land : LandState
  /-- Line protection and the canary. -/
  prot : ProtState
  /-- The eight seam receivers, key 4 * side + seam (default: SeamState.reset). -/
  seams : Table SeamState
  /-- The tub store. -/
  tub : TubState
  /-- The winders. -/
  wnd : WndState
  /-- Queues, schedulers, shapers, gates and policers. -/
  sched : SchedState
  /-- The local ports (default: PortState.reset). -/
  ports : Table PortState
  /-- The eight MDIO buses (default: MdioState.reset). -/
  mdio : Table MdioState
  /-- Frames waiting for classification, by pipeline. -/
  ingress : Table (List InFrame)
  /-- Identities, bursts and line management messages. -/
  join : JoinState
  /-- The cipher engine. -/
  ciph : CiphState
  /-- Classification, the bridge and the exception path. -/
  cls : ClsState
  /-- The tally engine and the journal. -/
  tally : TallyState
  /-- The circuits (default: Circuit.reset). -/
  circuits : Table Circuit
  /-- Frames a loopback returns to the receiver of their port, oldest first. -/
  looped : List (Nat × Bytes)
  /-- The 532 serial lanes (default: LaneState.reset). -/
  lanes : Table LaneState
  /-- The chain. -/
  chain : ChainState
  /-- The PCI Express endpoint. -/
  host : HostState
  deriving DecidableEq, Repr

/-- Why the machine stops: no command of this terminal does. The spec gives every step an effect; a step that raises
nothing leaves this type without a member. -/
inductive Fault where
  deriving DecidableEq, Repr

/-- Why a command is refused. `notModelled`: its arm is still without a meaning (safe). `illFormed`: an operand is not
of the shape `Instr.wf` asks for, so the command is none the spec describes (safe). -/
inductive Refusal where
  | notModelled (mnemonic : String)
  | illFormed
  deriving DecidableEq, Repr

/-- The tick after a Cold reset: locally generated from count 0 (R63). -/
def TickState.reset : TickState :=
  { line := false, side := 0, seam := 0, count := 0, phaseNs := 0, slewing := false, overruns := [] }

/-- Start-up at the release of a Cold reset: phase ROM (GEN_BOOT_STATUS resets to 0). -/
def BootState.reset : BootState :=
  { phase := .rom, straps := ⟨0, false, 0⟩, srcB := false, genA := none, genB := none, codeA := 0, codeB := 0,
    candidate := none, secondTried := false, image := none, flashReleased := false, cache := [], records := [],
    busyReg := none, replay := none, releases := [], applied := false, inReset := some .cold, heldReset := none,
    heldDomains := 0, lastKind := 0, lastSub := 0,
    lastDomain := 0, domActive := 0, refPresent := 0, refOut := 0,
    lineRefHold := false, vioReady := false, heldRelease := none }

/-- No dip episode; no sample of VIN taken. -/
def SupplyState.reset : SupplyState :=
  { vinMv := 0, warning := false, lowestMv := 0, dropped := 0, resumedCycle := none, vauxLost := false,
    disconnected := false, heldAccepts := [], commitAt := none }

/-- Time starts from 0 s with VALID 0 (R400) at the increment of the Reset column, 1 ns. -/
def TimeState.reset : TimeState :=
  { now := 0, beforeStep := none, inc := 2 ^ 40, owner := false, valid := false, holdover := false, locked := false, stepRefused := false,
    sel := 0, qual := 0, offsetPs := none, lastOffsetPs := 0, below20Since := none, lastTod := none,
    ppsLast := none, ppsAccepted := [], ppsOutSecond := none, ppsOutHigh := false, aonCycles := 0, ptp := [] }

/-- The keep as manufactured, not yet mounted: every entry blank, every spare unit left. -/
def KeepState.reset : KeepState :=
  { mounted := false, failedDie := none, dieA := [], dieB := [], spareA := 8000, spareB := 8000, remap := [],
    failedUnits := [], scrubPos := 0, wearRefused := [], recent := [], opRoot := none, loaded := [] }

/-- The recorder as manufactured: a ring of zeros (R486), a full bucket (REC_BUCKET). -/
def RecState.reset : RecState :=
  { ring := [], oldestSeq := 0, oldestOff := 0, newestSeq := 0, newestOff := 0, nextOff := 0,
    bucket := 65536 * 10 ^ 9, bucketCycle := 0, lost := false, waiting := [], waitingLost := 0, overflowed := false,
    winOff := [], fwdSeq := 0 }

/-- The power controller after a Cold reset: votes cleared (R454), ladder state L0, every domain but PD_AON OFF; the
temperatures are those that PWR_LADDER_STATUS.CASE and PWR_TEMP.TJ show as their Reset value 0. -/
def PwrState.reset : PwrState :=
  { votes := [], dom := [], before := [], ladder := 0, target := 0, entry := none, heldTarget := none,
    exitTo := none, wake := false, wakeClient := none, wakeAt := none, lastWake := 0, lastRefusal := none, refusedVotes := [], caseTemp := -64, idleUs := 0,
    firedamp := false, suspended := false, supSaved := 0, overTemp := 0, stalled := [], promPj := 0, usedAllowPj := 0,
    lateAllowPj := none, lateLimit := false, shownAllowPj := 0, limitThermal := false, overdraft := false, overPj := 0, remainPj := 0,
    acceptBytes := 0, shortfall := false, shedBlocks := 0, phiFullTicks := 0, tj := -64, tjSensor := 0, wakeSet := 0 }

/-- The assay before its first run: guard band 25 ps (ASSAY_SLACK), no fault counted, eight spare banks (R505). -/
def AssayState.reset : AssayState :=
  { running := false, deferred := false, aborted := false, restart := false, sinceH := 0, slack := none,
    guardTenths := 250, lastSlack := none, lastTarget := 0, lastEye := [], raisedAt := none, windows := [], predict := [], draining := [],
    sramSpares := 8, lostBanks := [], ddrFailed := 0, faultsIn := [] }

/-- No optic. -/
def OpticState.reset : OpticState :=
  { serialCrc := 0, control := false, maxSteps := 0, txPower := [], bias := [], requests := [],
    txDisabled := false }

/-- No output disabled, no optic. -/
def LandState.reset : LandState :=
  { mismatches := [], opticA := OpticState.reset, opticB := OpticState.reset, ledActivity := 0, perstLow := false }

/-- A seam whose side is off. -/
def SeamState.reset : SeamState :=
  { align := .off, cands := [], badSync := 0, fc := 0, heid := 0, heidBad := false, heidRun := 0, heRdi := false,
    jump := none, sinceSync := 0, mfAligned := false, lastMfi := none, mfRun := 0, mfBadRun := 0, los := false,
    lof := false, lomf := false, sd := false, sf := false, sdFrames := 0, sdErrors := 0, sdClosed := [],
    sfFrames := 0, sfCorr := 0, sfUnc := 0, sfClosed := [], sfGood := 0, sfAligned := false, rei := 0,
    rdi := [], stamps := [], skewed := false, planFc := none, plan := [], partials := [],
    eligible := false, failSince := none }

/-- An identity in Listening. -/
def Identity.reset : Identity :=
  { phase := .listening, cause := .head, tn := none, heid := 0, allocs := [], homes := [], timer := none, backoff := 0,
    lastMsg := none, seqTx := 0, msgs := [], doze := none, waking := false, wokeAt := none, grantAt := none, bseqTx := 0,
    expected := none, bondCut := false, frags := [], gapSince := none }

/-- Every identity in Listening, nothing placed. -/
def JoinState.reset : JoinState :=
  { idents := [], bursts := [], eqdUse := [], eqdNext := [], lmms := [], announceSeq := 0, shiftLeft := none }

/-- A circuit that is not active. -/
def Circuit.reset : Circuit :=
  { active := false, next := none, refuse := 0, encap := 0, n := 0, d := 0, ident := 0, allocK := 0, port := 0,
    pktBytes := 0, tplLen := 0, demux := 0, dsSeam := 0, dsOffset := 0, tpl := [], tubs := [], packets := [], play := 0,
    newest := 0, anchor := none, playing := false, loss := false, fill := 0, fills := [], sinceTx := 4, ptrTx := 0,
    ptrSent := 0, lop := true, p := 0, invRun := 0, newPtr := none, lastPtrs := [], sinceRx := 4, trib := [], seqTx := 0,
    rx := [], tx := [] }

/-- A slot never used: FREE, as written at manufacture (R201); HCRC is that of 26 zero bytes. -/
def SlotCopy.blank : SlotCopy :=
  { st := .free, nstate := 0xFF, down := false, ident := 0, flow := 0, sseq := 0, pcrc := 0, tally := 0, epoch := 0,
    hcrc := 0xD096D996, payload := [], headLost := false, tailLost := false }

/-- Nothing known of a slot. -/
def SlotWork.none : SlotWork :=
  { verified := false, receipted := false, due := false, sentAt := .none, resend := false, since := 0, tubs := [],
    reply := .none }

/-- The tally engine at reset: every slot FREE, as at manufacture. -/
def TallyState.reset : TallyState :=
  { journal := [], work := [], badDies := [], writes := [], next := 0, last := 8191, flowNext := [], stalled := [],
    left := 0, leftCount := 0, scanning := true }

/-- Empty tables; full buckets at the depths of the Reset column. -/
def ClsState.reset : ClsState :=
  { rules := [], automaton := [], fdb := [], vlans := [], excFrames := 64 * 10 ^ 9, excBytes := 128 * 1024 * 8000,
    excCycle := 0, excWait := [], excRing := [], circIn := [], tallyIn := [], fdbTouched := [], fdbCycle := 0 }

/-- An empty queue. -/
def PortQueue.reset : PortQueue :=
  { frames := [], deficit := 0, credit := ⟨0, 0⟩, pausedTo := 0, refilling := false }

/-- A port with nothing queued, without gates or a cap. -/
def PortSched.reset : PortSched :=
  { consign := [], circ := [], queues := [], active := [], granted := false, credit := ⟨0, 0⟩, lanesPausedTo := 0,
    busyTo := 0, flight := none, strict := 0, oper := none, pend := none, gateErr := 0, gateFix := false, gateLate := false, wSent := 0,
    admLocal := 0, admLine := 0, edgeDemand := 0, edgePj := 0, edgeOver := 0, capDemand := 0, capOver := 0 }

/-- An empty allocation queue. -/
def AllocQueue.reset : AllocQueue :=
  { cont := none, tally := [], subs := [], refilling := [], wSent := 0, edgeDemand := 0, edgeOver := 0,
    capDemand := 0, capOver := 0 }

/-- A policer never written. -/
def Policer.reset : Policer := { words := [0, 0, 0, 0, 0], tc := 0, te := 0, cycle := 0, green := 0, yellow := 0, red := 0 }

/-- PHI is 1,024 after reset (SCHED_PLAN). -/
def SchedState.reset : SchedState :=
  { ports := [], aqs := [], policers := [], admin := [], phi := 1024, prev := false, eW := 0, eWd := 0, strictPj := 0,
    prevStrictPj := 0, shedSkipped := [] }

/-- Every tub FREE, nothing in memory, no DRAM budget before the first tick edge. -/
def TubState.reset : TubState :=
  { tags := [], taken := [], cells := [], waiting := [], frees := [], asks := [], sram := [], dram := [], post := [], take := [], posted := [],
    ddrLeft := 0, trained := false, mappedOut := 0 }

/-- A channel in IDLE. -/
def WndChan.reset : WndChan :=
  { phase := .idle, pend := false, fetch := none, cur := 0, words := [], moved := 0, crc := 0xFFFFFFFF, fresh := true,
    stopping := false, landing := [], err := 0 }

/-- Every channel IDLE. -/
def WndState.reset : WndState := { chans := [], lastHigh := 63, lastLow := 63 }

/-- A port that is down. -/
def PortState.reset : PortState :=
  { link := false, mode := 0, err := 0, locFault := false, remFault := false, lpiTx := false, lpiRx := false,
    eeeNeg := false, partRxTw := 0, twTx := 0, lpiTxAt := 0, lpiRxAt := 0, wakeTo := 0, lldpAt := none,
    supStamp := 0 }

/-- An idle bus: slot 0 goes first. -/
def MdioState.reset : MdioState := { op := [], err := [], rdata := [], last := 1 }

/-- A lane that is OFF. -/
def LaneState.reset : LaneState :=
  { st := .off, saved := none, adapted := false, retrainDue := false, noEnergy := false,
    short := false, isOpen := false, energy := false, cdr := false, prbsLock := false, prbsSeen := false, prbsErr := 0,
    err := 0, slipPos := 0, scan := false, scanHeld := false, held := [], eye := 0 }

/-- Side A active (PREF resets to 0), no request, no run made. -/
def ProtState.reset : ProtState :=
  { active := 0, failed := false, marked := false, req := 0, cmds := [], wtrDue := false, denied := false,
    decided := none, switching := none, canary := none, canaryAt := 0, canaryPrbs := none, retry := false, healthA := 0, healthB := 0, ranA := none,
    ranB := none, wtrStart := none, wtrPasses := 0, lastSwitch := 0, err := 0 }

/-- A key of epoch 0, not derived. -/
def LineKey.reset : LineKey := { epoch := 0, key := none, slot := false, top := none, seen := [] }

/-- Nothing derived, nothing pending. -/
def KeyDir.reset : KeyDir := { cur := LineKey.reset, pend := none, pendFc := 0, old := none, curFc := none }

/-- No key derived; CTR before the reserve is read (R432). -/
def CiphState.reset : CiphState :=
  { dirs := [], jobs := [], ctr := 0, noRoot := 0, tagFails := [], tagEvent := [] }

/-- Both ports out of service, no banksman heard. -/
def ChainState.reset : ChainState :=
  { east := ⟨false, false⟩, west := ⟨false, false⟩, lastBcast := [], tag := 0, banksman := 0, reachable := false,
    heard := [], dup := false, timeOffset := 0, alertSent := 0, gap := false }

/-- The link down. -/
def HostState.reset : HostState :=
  { link := false, speed := 0, width := 0, inflight := [], waiting := [], vectorSent := [] }

/-- The terminal right after reset: everything at its Reset value (R58, Cold; R11), phase ROM, nothing waiting. -/
def State.reset : State :=
  {pending := [],
    cycle := 0,
    free := 0,
    outs := [],
    regs := [],
    latch := [],
    misaligned := 0,
    tick := TickState.reset,
    boot := BootState.reset,
    supply := SupplyState.reset,
    time := TimeState.reset,
    keep := KeepState.reset,
    recd := RecState.reset,
    pwr := PwrState.reset,
    assay := AssayState.reset,
    land := LandState.reset,
    prot := ProtState.reset,
    seams := [],
    tub := TubState.reset,
    wnd := WndState.reset,
    sched := SchedState.reset,
    ports := [],
    mdio := [],
    ingress := [],
    join := JoinState.reset,
    ciph := CiphState.reset,
    cls := ClsState.reset,
    tally := TallyState.reset,
    circuits := [],
    looped := [],
    lanes := [],
    chain := ChainState.reset,
    host := HostState.reset }

end Sys2Proof.Machine
end

