-- ==== Sys2Proof/Machine/Ops.lean ====
section
/-! DEFINITION. The named operations every meaning is written over: tables, registers and counters, outputs, free values,
terminal time, and the event recorder (R486 to R491). -/
namespace Sys2Proof.Machine

/-! ### Lists -/

/-- Split a list at the first element that satisfies `c`. -/
def splitAt? {α : Type} (c : α → Bool) : List α → Option (List α × α × List α)
  | [] => none
  | x :: xs =>
    if c x then some ([], x, xs)
    else match splitAt? c xs with
      | some (a, y, b) => some (x :: a, y, b)
      | none => none

/-- Insert into a list kept in an order. -/
def insertBy {α : Type} (le : α → α → Bool) (x : α) : List α → List α
  | [] => [x]
  | y :: ys => if le x y then x :: y :: ys else y :: insertBy le x ys

/-- A list in an order. -/
def sortBy {α : Type} (le : α → α → Bool) : List α → List α
  | [] => []
  | x :: xs => insertBy le x (sortBy le xs)

/-- The content at key `k`; an unlisted key reads as `d k`. -/
def tget {α : Type} (d : Nat → α) : Table α → Nat → α
  | [], k => d k
  | (k', v) :: t, k => if k = k' then v else tget d t k

/-- Write `v` at key `k`, keeping the canonical form: the entry goes where `v` is what an unlisted key reads as. -/
def tput {α : Type} [DecidableEq α] (d : Nat → α) (k : Nat) (v : α) : Table α → Table α
  | [] => if v = d k then [] else [(k, v)]
  | (k', v') :: t =>
    if k < k' then (if v = d k then (k', v') :: t else (k, v) :: (k', v') :: t)
    else if k = k' then (if v = d k then t else (k, v) :: t)
    else (k', v') :: tput d k v t

/-- The canonical form: keys strictly rising from `lo`, no content equal to the default. -/
def twfFrom {α : Type} [DecidableEq α] (d : Nat → α) : Nat → Table α → Bool
  | _, [] => true
  | lo, (k, v) :: t => decide (lo ≤ k) && !decide (v = d k) && twfFrom d (k + 1) t

/-- A table in canonical form. -/
def twf {α : Type} [DecidableEq α] (d : Nat → α) (t : Table α) : Bool := twfFrom d 0 t

/-- Read and change one content. -/
def tmod {α : Type} [DecidableEq α] (d : Nat → α) (k : Nat) (f : α → α) (t : Table α) : Table α :=
  tput d k (f (tget d t k)) t

/-- Change every content listed, keeping the canonical form. -/
def tmap {α : Type} [DecidableEq α] (d : Nat → α) (f : α → α) : Table α → Table α
  | [] => []
  | (k, v) :: t => if f v = d k then tmap d f t else (k, f v) :: tmap d f t

/-- The content a register is held with. -/
def reg (a : Nat) (s : State) : Word := tget resetValue s.regs a

/-- Set a register's content. -/
def setReg (a : Nat) (v : Word) (s : State) : State := { s with regs := tput resetValue a v s.regs }

/-- Bits `hi` to `lo` of a register. -/
def rfld (a hi lo : Nat) (s : State) : Nat := fld (reg a s) hi lo

/-- A bit of a register. -/
def rbit (a i : Nat) (s : State) : Bool := bitOf (reg a s) i

/-- Set bits `hi` to `lo` of a register. -/
def setRfld (a hi lo v : Nat) (s : State) : State := setReg a (putFld (reg a s) hi lo v) s

/-- Count `n` events in a 32-bit counter (it saturates). -/
def countN (a n : Nat) (s : State) : State := setReg a (satAdd (reg a s) n) s

/-- Count one event. -/
def count (a : Nat) (s : State) : State := countN a 1 s

/-- Count `n` events in the 64-bit counter whose low word is at `a` and whose high word follows. -/
def count64 (a n : Nat) (s : State) : State :=
  let v := (reg a s).toNat + (reg (a + 4) s).toNat * 2 ^ 32 + n
  s |> setReg a (word v) |> setReg (a + 4) (word (v / 2 ^ 32))

/-- Something leaves the terminal. -/
def emit (o : Output) (s : State) : State := { s with outs := o :: s.outs }

/-- Something leaves at a sideband output, by its bit of GEN_LAND_SHORT; nothing does while the output is disabled (R543). -/
def emitLand (output : Nat) (o : Output) (s : State) : State := if rbit Reg.GEN_LAND_SHORT output s then s else emit o s

/-- Draw the next free value's number. -/
def nextFree (s : State) : State := { s with free := s.free + 1 }

/-- Apply `f` to the state for each element of a list, in order. -/
def each {α : Type} (l : List α) (f : α → State → State) (s : State) : State := l.foldl (fun s x => f x s) s

/-- Take a change only under a condition. -/
def when' (c : Bool) (f : State → State) (s : State) : State := if c then f s else s

/-- A dip episode is in progress (R64 to R70). -/
def inDip (s : State) : Bool := s.supply.warning

/-- Load is shed: in a dip episode (R64, R66), or from a firedamp trip until the terminal is back in L0 (R33, R471). -/
def loadShed (s : State) : Bool := inDip s || s.pwr.suspended

/-- Whether new consignments are refused with reason DIP: in an episode, or while the dip commit of R57 and R541 runs. -/
def refusesDip (s : State) : Bool := inDip s || s.supply.commitAt.isSome

/-- A frame dropped at ingress while load is shed (R64, R68). -/
def dropAtIngress (s : State) : State := { s with supply := { s.supply with dropped := s.supply.dropped + 1 } }

/-- SECONDS of terminal time (R386). -/
def timeSeconds (s : State) : Nat := s.time.now / (10 ^ 9 * 2 ^ 56)

/-- NS of terminal time. -/
def timeNs (s : State) : Nat := s.time.now / 2 ^ 56 % 10 ^ 9

/-- FRAC_NS of terminal time, in units of 1/65,536 ns. -/
def timeFrac (s : State) : Nat := s.time.now / 2 ^ 40 % 2 ^ 16

/-- Terminal time in whole nanoseconds. -/
def timeInNs (s : State) : Nat := s.time.now / 2 ^ 56

/-- The time that a stamp of this cycle takes: the time before a step made in it (R401). -/
def stampBase (s : State) : Nat :=
  match s.time.beforeStep with
  | some (c, t) => if c = s.cycle then t else s.time.now
  | none => s.time.now

/-- A stamp of this moment, in the units of FRAC_NS, 2^-16 ns (R386). -/
def stampNow (s : State) : Nat := stampBase s / 2 ^ 40

/-- Picoseconds in units of 2^-16 ns. -/
def psUnits (ps : Int) : Int := ps * 65536 / 1000

/-- An event of a fault source of R504 happens to an instance; the fault windows count it at the end of the step. -/
def noteFault (src inst : Nat) (s : State) : State :=
  { s with assay := { s.assay with faultsIn := s.assay.faultsIn ++ [(src, inst)] } }

/-- The state a power domain is in; PD_AON (22) is ON in every state (R451). -/
def domState (d : Nat) (s : State) : DomState := if d = 22 then .on else tget (fun _ => DomState.off) s.pwr.dom d

/-- Put a domain in a state. -/
def setDom (d : Nat) (x : DomState) (s : State) : State :=
  { s with pwr := { s.pwr with dom := tput (fun _ => DomState.off) d x s.pwr.dom } }

/-! ### The recorder -/

/-- A byte of the ring. -/
def ringUnit (k : Nat) (s : State) : BitVec 64 := tget (fun _ => 0) s.recd.ring (k % 2 ^ 20)

/-- Write one 8-byte unit of the ring. -/
def setRingUnit (k : Nat) (v : BitVec 64) (r : RecState) : RecState :=
  { r with ring := tput (fun _ => 0) (k % 2 ^ 20) v r.ring }

/-- The bytes of a record (R487): header, payload padded to a multiple of 8, trailer. -/
def recordBytes (seq : Nat) (lost : Bool) (w : WaitingRecord) : Bytes :=
  beBytes 8 seq ++ beBytes 8 w.seconds ++ beBytes 4 w.ns ++ beBytes 2 w.code.toNat ++ beBytes 2 w.payload.length
    ++ [BitVec.ofNat 8 w.source, BitVec.ofNat 8 (b2n w.timeValid * 128 + b2n lost * 64 + b2n w.aonTime * 32)]
    ++ zeros 6 ++ w.payload ++ zeros ((8 - w.payload.length % 8) % 8) ++ beBytes 8 seq

/-- The length of a record with `len` payload bytes (R487). -/
def recordLength (len : Nat) : Nat := 40 + len + (8 - len % 8) % 8

/-- A byte string as 8-byte units. -/
def units8 : Nat → Bytes → List (BitVec 64)
  | 0, _ => []
  | n + 1, b => BitVec.ofNat 64 (beNat (b.take 8)) :: units8 n (b.drop 8)

/-- Write units from unit number `k` on. -/
def writeUnits : Nat → List (BitVec 64) → RecState → RecState
  | _, [], r => r
  | k, u :: us, r => writeUnits (k + 1) us (setRingUnit k u r)

/-- Before the first byte of segment `g` is written, its records are retired: OLDEST, where it names one of them, moves
to the first record of the following segment (R486). -/
def retireSegment (g : Nat) (r : RecState) : RecState :=
  if r.oldestSeq ≠ 0 ∧ r.oldestOff / 8192 = g % 1024 ∧ (tget (fun _ => 0) r.ring (g % 1024 * 1024)) ≠ 0 then
    let n := (g + 1) % 1024
    { r with oldestOff := n * 8192, oldestSeq := (tget (fun _ => 0) r.ring (n * 1024)).toNat }
  else r

/-- Where a record of `len` bytes goes: the rest of the segment, or the start of the next one, the segment being closed
with 8 zero bytes where room allows (R486). -/
def placeRecord (len : Nat) (r : RecState) : RecState :=
  let room := 8192 - r.nextOff % 8192
  if len ≤ room then
    if r.nextOff % 8192 = 0 then retireSegment (r.nextOff / 8192) r else r
  else
    let r := if 8 ≤ room then setRingUnit (r.nextOff / 8) 0 r else r
    let g := (r.nextOff / 8192 + 1) % 1024
    retireSegment g { r with nextOff := g * 8192 }

/-- Write a record into the ring with the next SEQ (R486, R487, R489). -/
def writeRecord (w : WaitingRecord) (r : RecState) : RecState :=
  let len := recordLength w.payload.length
  let r := placeRecord len r
  let seq := (r.newestSeq + 1) % 2 ^ 64
  let off := r.nextOff
  let r := writeUnits (off / 8) (units8 (len / 8) (recordBytes seq r.lost w)) r
  { r with newestSeq := seq, newestOff := off, nextOff := (off + len) % 2 ^ 23, lost := false,
           oldestSeq := if r.oldestSeq = 0 then seq else r.oldestSeq,
           oldestOff := if r.oldestSeq = 0 then off else r.oldestOff }

/-- The bytes in the bucket of R488, in units of 10^-9 bytes: it fills at 65,536 bytes per second up to 65,536. -/
def bucketNow (cycle : Nat) (r : RecState) : Nat :=
  min (65536 * 10 ^ 9) (r.bucket + (cycle - r.bucketCycle) * 65536)

/-- The codes written while the bucket holds their length (R488): EV_RESET, EV_FIREDAMP, EV_KEEP_DEGRADED,
EV_KEEP_WEAR. -/
def urgentCode (c : BitVec 16) : Bool := c == 0x0201 || c == 0x0F05 || c == 0x1001 || c == 0x1002

/-- Whether the bucket lets a record of `len` bytes be written (R488). -/
def bucketAllows (code : BitVec 16) (len bucket : Nat) : Bool :=
  if urgentCode code then len * 10 ^ 9 ≤ bucket else (len + 8192) * 10 ^ 9 ≤ bucket

/-- The bytes the buffer of R490 holds. -/
def waitingBytes (r : RecState) : Nat := (r.waiting.map (fun w => recordLength w.payload.length)).sum

/-- The record of an event taken now (R487). -/
def takeRecord (code : BitVec 16) (source : Nat) (payload : Bytes) (s : State) : WaitingRecord :=
  { code := code, source := source, payload := payload, seconds := timeSeconds s % 2 ^ 64, ns := timeNs s,
    timeValid := s.time.valid, aonTime := s.pwr.ladder == 3 || s.pwr.ladder == 4,
    lostBefore := false }

/-- Take an event into the recorder: into the buffer before the keep is mounted (R490), into the ring while the bucket
allows, otherwise dropped and counted (R488). -/
def recordEvent (code : BitVec 16) (source : Nat) (payload : Bytes) (s : State) : State :=
  let w := takeRecord code source payload s
  let len := recordLength payload.length
  if s.keep.mounted then
    let b := bucketNow s.cycle s.recd
    if bucketAllows code len b then
      { s with recd := writeRecord w { s.recd with bucket := b - len * 10 ^ 9, bucketCycle := s.cycle } }
    else
      count Reg.CNT_REC_LOST { s with recd := { s.recd with lost := true, bucket := b, bucketCycle := s.cycle } }
  else if waitingBytes s.recd + len ≤ 4096 then
    { s with recd := { s.recd with waiting := s.recd.waiting ++ [{ w with lostBefore := s.recd.overflowed }],
                                   overflowed := false } }
  else
    { s with recd := { s.recd with waitingLost := s.recd.waitingLost + 1, overflowed := true } }

/-- An event of the hardware of a block. -/
def event (code : BitVec 16) (payload : Bytes) (s : State) : State := recordEvent code 0 payload s

/-- An event the supervisor records. -/
def supEvent (code : BitVec 16) (payload : Bytes) (s : State) : State := recordEvent code 1 payload s

/-- An event the boot ROM records. -/
def romEvent (code : BitVec 16) (payload : Bytes) (s : State) : State := recordEvent code 2 payload s

end Sys2Proof.Machine
end

