-- ==== Sys2Proof/Machine/IdentOps.lean ====
section
/-! DEFINITION. An identity as a table entry, the messages that wait for its grants, and the end of its doze at a wake
(R113, R139, R152 to R158). -/
namespace Sys2Proof.Machine

/-- An identity. -/
def ident (i : Nat) (s : State) : Identity := tget (fun _ => Identity.reset) s.join.idents i

/-- Put an identity. -/
def setIdent (i : Nat) (x : Identity) (s : State) : State :=
  { s with join := { s.join with idents := tput (fun _ => Identity.reset) i x s.join.idents } }

/-- Change an identity. -/
def modIdent (i : Nat) (f : Identity → Identity) (s : State) : State := setIdent i (f (ident i s)) s

/-- The identity numbers. -/
def allIdents : List Nat := List.range 128

/-- Queue a message of the identity for its default allocation. -/
def queueMsg (i type : Nat) (body : Bytes) (after : Option (BitVec 48)) (s : State) : State :=
  modIdent i (fun x => { x with msgs := x.msgs ++ [{ type := type, body := body, after := after }] }) s

/-- The doze of an identity as of frame `u`: one that a grant with STATE 0 has ended by then is over (R158). -/
def dozeIn (u : BitVec 48) (x : Identity) : Option DozeState :=
  match x.doze with
  | none => none
  | some d => match d.ends with
    | none => some d
    | some e => if serialBelow 48 u.toNat e.toNat then some d else none

/-- The doze in force. -/
def dozeOf (i : Nat) (s : State) : Option DozeState := dozeIn s.tick.count (ident i s)

/-- The identities that doze. -/
def dozing (s : State) : List (Nat × DozeState) :=
  s.join.idents.filterMap (fun e => if e.2.phase = .serving then (dozeIn s.tick.count e.2).map (fun d => (e.1, d)) else none)

/-- An identity that dozes wakes (R156): its next burst says so, a DOZE_REQUEST with STATE 0 follows, and a grant acted on in
this tick counts as not applied (R157). -/
def dozeWake (i : Nat) (s : State) : State :=
  let x := ident i s
  if (dozeOf i s).isSome then
    s |> setIdent i { x with doze := none, waking := true, wokeAt := some s.tick.count, grantAt := none }
      |> when' (x.grantAt == some s.tick.count) (count Reg.CNT_DOZE_ABORT) |> queueMsg i 0x84 [0, 0, 0, 0] none
  else s

/-- Every identity that dozes wakes. -/
def dozeWakeAll (s : State) : State := each ((dozing s).map Prod.fst) dozeWake s

end Sys2Proof.Machine
end

