-- ==== Sys2Proof/Machine/KeepOps.lean ====
section
/-! DEFINITION. Persistent entries: which copy is held, and a write of one (R475 to R479). -/
namespace Sys2Proof.Machine

/-- The entry of a register coded PW (R575). -/
def entryOfReg (a : Nat) : Option Nat :=
  if a = Reg.IMG_MIN_GEN then some 0
  else if a = Reg.TALLY_RESERVE then some 1
  else if a = Reg.TIME_STEP_ALLOW then some 2
  else if a = Reg.CIPH_CTR_RESERVE then some 3
  else if Reg.ASSAY_HOURS 0 ≤ a ∧ a ≤ Reg.ASSAY_HOURS 3 then some (4 + (a - Reg.ASSAY_HOURS 0) / 4)
  else if Reg.LANE_RETIRED 0 ≤ a ∧ a ≤ Reg.LANE_RETIRED 16 then some (8 + (a - Reg.LANE_RETIRED 0) / 4)
  else none

/-- The device address of the PW register held in an entry, 0xFFFF_FFFF for an internal entry (KEEP_ENTRY_ADDR). -/
def regOfEntry (i : Nat) : Nat :=
  if i = 0 then Reg.IMG_MIN_GEN else if i = 1 then Reg.TALLY_RESERVE else if i = 2 then Reg.TIME_STEP_ALLOW
  else if i = 3 then Reg.CIPH_CTR_RESERVE else if i < 8 then Reg.ASSAY_HOURS (i - 4)
  else if i < 25 then Reg.LANE_RETIRED (i - 8) else 0xFFFFFFFF

/-- A blank copy: never written; the register then reads its Reset column (R11), an internal entry 0. -/
def blankCopy (i : Nat) : KeepCopy :=
  { wear := 0, value := if regOfEntry i = 0xFFFFFFFF then 0 else resetValue (regOfEntry i), valid := true }

/-- The 1 KiB unit of a die that holds an entry (R473, R481). -/
def entryUnit (i : Nat) : Nat := 24576 + i / 64

/-- A unit of a die that has failed and stays failed (R483). -/
def unitFailed (die unit : Nat) (s : State) : Bool := s.keep.failedUnits.contains (die * 32768 + unit)

/-- The copy of an entry on a die, invalid where its unit has failed. -/
def dieCopy (die i : Nat) (s : State) : KeepCopy :=
  let c := tget blankCopy (if die = 0 then s.keep.dieA else s.keep.dieB) i
  if unitFailed die (entryUnit i) s then { c with valid := false } else c

/-- The copy an entry is served from (R478, R484): the survivor's while degraded, otherwise the valid copy with the
greater WEAR, die A's where both are equal; with no valid copy it reads 0 and is blank (R485). -/
def keepEntry (i : Nat) (s : State) : KeepCopy :=
  let a := dieCopy 0 i s
  let b := dieCopy 1 i s
  let none' : KeepCopy := { wear := 0, value := 0, valid := false }
  match s.keep.failedDie with
  | some d => if d = 0 then (if b.valid then b else none') else (if a.valid then a else none')
  | none =>
    if a.valid ∧ b.valid then (if a.wear < b.wear then b else a)
    else if a.valid then a else if b.valid then b else none'

/-- The value an entry holds. -/
def keepValue (i : Nat) (s : State) : Word := (keepEntry i s).value

/-- Whether an entry is blank: its wear counter is zero on both dies (R42). -/
def entryBlank (i : Nat) (s : State) : Bool :=
  let e := keepEntry i s
  e.wear == 0 || !e.valid

/-- Put a copy on a die. -/
def setCopy (die i : Nat) (c : KeepCopy) (s : State) : State :=
  if die = 0 then { s with keep := { s.keep with dieA := tput blankCopy i c s.keep.dieA } }
  else { s with keep := { s.keep with dieB := tput blankCopy i c s.keep.dieB } }

/-- Put a copy on die A and then on die B, or on the survivor alone while degraded (R477). -/
def setCopies (i : Nat) (c : KeepCopy) (s : State) : State :=
  match s.keep.failedDie with
  | some d => setCopy (if d = 0 then 1 else 0) i c s
  | none => s |> setCopy 0 i c |> setCopy 1 i c

/-- The last WEAR a write may bring an entry to (R479): 9.9 * 10^11. -/
def wearLimit : Nat := 990000000000

/-- EV_KEEP_WEAR (R479). -/
def wearEvent (i level wear : Nat) (s : State) : State :=
  event 0x1002 (beBytes 2 i ++ beBytes 1 level ++ beBytes 5 wear ++ beBytes 4 (regOfEntry i)) s

/-- A write to an entry (R477, R479): an equal value writes nothing; beyond the wear limit the write is refused. -/
def keepWrite (i : Nat) (v : Word) (s : State) : State :=
  let e := keepEntry i s
  if e.value = v ∧ e.valid then s
  else if e.wear + 1 > wearLimit then
    let s := count Reg.CNT_KEEP_WEAR_REFUSED s
    if s.keep.wearRefused.contains i then s
    else wearEvent i 99 e.wear { s with keep := { s.keep with wearRefused := i :: s.keep.wearRefused } }
  else
    let w := e.wear + 1
    let s := { s with keep := { s.keep with
      recent := (s.keep.recent.filter (fun x => decide (s.cycle < x.2.1 + 200000))) ++ [(i, s.cycle, dieCopy 1 i s)] } }
    let s := setCopies i { wear := w, value := v, valid := true } s
    if w = 500000000000 then wearEvent i 50 w s
    else if w = 900000000000 then wearEvent i 90 w s
    else s

/-- Bits of an entry. -/
def keepFld (i hi lo : Nat) (s : State) : Nat := fld (keepValue i s) hi lo

/-- The wear level KEEP_WEAR_HI shows: 0 below 50 %, 1 from 50 %, 2 from 90 %, 3 from 99 %. -/
def wearLevel (w : Nat) : Nat :=
  if w < 500000000000 then 0 else if w < 900000000000 then 1 else if w < wearLimit then 2 else 3

end Sys2Proof.Machine
end

