-- ==== Sys2Proof/Machine/LaneOps.lean ====
section
/-! DEFINITION. What other blocks need of the serial lanes and the chain's ports: a lane's state and retirement, a chain
port's service, and a frame sent on the ring (R363, R381, R511 to R514). -/
namespace Sys2Proof.Machine

/-- A lane. -/
def lane (l : Nat) (s : State) : LaneState := tget (fun _ => LaneState.reset) s.lanes l

/-- Put a lane. -/
def setLane (l : Nat) (x : LaneState) (s : State) : State :=
  { s with lanes := tput (fun _ => LaneState.reset) l x s.lanes }

/-- Change a lane. -/
def modLane (l : Nat) (f : LaneState → LaneState) (s : State) : State := setLane l (f (lane l s)) s

/-- Whether a lane is retired (R381): its bit of LANE_RETIRED. -/
def laneRetired (l : Nat) (s : State) : Bool := bitOf (keepValue (8 + l / 32) s) (l % 32)

/-- The transmit lane of a seam. -/
def lineTx (side n : Nat) : Nat := 516 + 8 * side + n

/-- The receive lane of a seam. -/
def lineRx (side n : Nat) : Nat := 512 + 8 * side + n

/-- Whether a seam's transmit lane sends no bursts (R379, R382, R544). -/
def lineTxDead (side n : Nat) (s : State) : Bool :=
  laneRetired (lineTx side n) s || (lane (lineTx side n) s).short || rbit Reg.GEN_LAND_SHORT (11 + 4 * side + n) s

/-! ### The chain's ports -/

/-- A chain port: 0 east, 1 west. -/
def chainPort (d : Nat) (s : State) : ChainPort := if d = 0 then s.chain.east else s.chain.west

/-- Put a chain port. -/
def setChainPort (d : Nat) (x : ChainPort) (s : State) : State :=
  if d = 0 then { s with chain := { s.chain with east := x } } else { s with chain := { s.chain with west := x } }

/-- Whether a chain port is in service. -/
def chainUp (d : Nat) (s : State) : Bool := (chainPort d s).service

/-- CHAIN_STATUS.EAST or WEST: out of service, in hold-off, in service, no energy. -/
def chainPortCode (d : Nat) (s : State) : Nat :=
  let x := chainPort d s
  if x.service then 2 else if x.holdOff then 1 else if (lane (528 + 2 * d) s).energy then 0 else 3

/-- A chain port leaves service (R513). -/
def chainLeave (d : Nat) (s : State) : State :=
  if chainUp d s then
    let s := setChainPort d ⟨false, false⟩ s |> count Reg.CNT_CHAIN_PORT_DOWN
    event 0x1301 [BitVec.ofNat 8 d, BitVec.ofNat 8 (chainPortCode d s)] s
  else setChainPort d ⟨false, false⟩ s

/-- The member's chain address (R510). -/
def chainAddr (s : State) : Nat := s.boot.straps.chainAddr.toNat

/-- Whether this member is a banksman (R517). -/
def isBanksman (s : State) : Bool := s.host.link

/-- Header of a chain frame (R511). -/
def chainHeader (type : Nat) (wrap resp bcast : Bool) (dst src hops tag len : Nat) : Bytes :=
  [BitVec.ofNat 8 (type * 16 + b2n wrap * 8 + b2n resp * 4), BitVec.ofNat 8 (b2n bcast * 128 + dst), BitVec.ofNat 8 src,
    BitVec.ofNat 8 hops] ++ beBytes 2 tag ++ beBytes 2 len

/-- A frame with its CRC-32C over header and payload. -/
def withCrc (b : Bytes) : Bytes := b ++ beBytes 4 (crc32c b).toNat

/-- Send a frame of this member (R514): by the east port, by the west port with WRAP set where the east port is out of
service; with both out of service it is discarded (R529). -/
def sendChain (type : Nat) (resp bcast : Bool) (dst tag : Nat) (payload : Bytes) (s : State) : State :=
  let frame (wrap : Bool) := withCrc (chainHeader type wrap resp bcast dst (chainAddr s) 128 tag payload.length ++ payload)
  if chainUp 0 s then emit (.chainFrame 0 (frame false)) s
  else if chainUp 1 s then emit (.chainFrame 1 (frame true)) s
  else count Reg.CNT_CHAIN_UNREACH s

/-- Draw the next TAG. -/
def nextTag (s : State) : Nat × State :=
  (s.chain.tag, { s with chain := { s.chain with tag := (s.chain.tag + 1) % 65536 } })

/-- READ_RESP or WRITE_RESP (R512, R521). -/
def sendResponse (dst tag : Nat) (data : Option Word) (status : Nat) (s : State) : State :=
  match data with
  | some v => sendChain 1 true false dst tag (beBytes 4 v.toNat ++ [BitVec.ofNat 8 status] ++ zeros 3) s
  | none => sendChain 2 true false dst tag ([BitVec.ofNat 8 status] ++ zeros 3) s

/-- The PCI Express link goes down (R529): responses in flight will be discarded, and the member is banksman no longer. -/
def hostDown (s : State) : State :=
  if s.host.link then
    { s with host := { s.host with link := false, speed := 0, width := 0, inflight := [], waiting := [] } }
      |> event 0x1304 [0, 0, 0]
  else s

end Sys2Proof.Machine
end

