-- ==== Sys2Proof/Machine/Power.lean ====
section
/-! DEFINITION. The power controller: votes, the domains' states in each ladder state, refusals and wakes
(R445 to R463). -/
namespace Sys2Proof.Machine

/-- A domain's bit in a vote (R450). -/
def domBit (d : Nat) : Nat := 2 ^ d

/-- The votes of a client; client 0's are the register PWR_VOTE_0 (R455). -/
def votesOf (c : Nat) (s : State) : Nat :=
  if c = 0 then (reg (Reg.PWR_VOTE 0) s).toNat % 2 ^ 23 else (tget (fun _ => (0 : BitVec 23)) s.pwr.votes c).toNat

/-- Set the votes of a client other than the host. -/
def setVotes (c v : Nat) (s : State) : State :=
  { s with pwr := { s.pwr with votes := tput (fun _ => 0) c (BitVec.ofNat 23 v) s.pwr.votes } }

/-- Whether client `c` votes for domain `d`. -/
def votesFor (c d : Nat) (s : State) : Bool := votesOf c s / 2 ^ d % 2 == 1

/-- The clients that vote for a domain, as bits (PWR_DOM_STATUS.VOTES). -/
def voterBits (d : Nat) (s : State) : Nat :=
  ((List.range 10).map (fun c => if votesFor c d s then 2 ^ c else 0)).sum

/-- Whether anybody votes for a domain. -/
def voted (d : Nat) (s : State) : Bool := (List.range 10).any (fun c => votesFor c d s)

/-- The lowest-numbered client that votes for a domain. -/
def lowestVoter (d : Nat) (s : State) : Option Nat := (List.range 10).find? (fun c => votesFor c d s)

/-- The line domain of a side. -/
def lineDomain (side : Nat) : Nat := 15 + side

/-- Whether a domain is the cold side's. -/
def coldDomain (d : Nat) (s : State) : Bool := (d == 15 || d == 16) && d != lineDomain s.prot.active.val

/-- The cold side's domain is kept on by CANARY, PROT or HOST (R451). -/
def coldKept (d : Nat) (s : State) : Bool := votesFor 8 d s || votesFor 5 d s || votesFor 0 d s

/-- The state a voted domain takes in ladder state `l` (R451); the active side's line domain is meant for 15 and 16. -/
def ladderDom (l d : Nat) : DomState :=
  if d = 22 then .on
  else if l = 0 then .on
  else if d ≤ 3 ∨ d = 5 ∨ d = 6 ∨ d = 4 then (if l = 1 then .gated else if l = 2 then .ret else .off)
  else if 7 ≤ d ∧ d ≤ 14 then (if l = 1 then .gated else if l ≤ 3 then .ret else .off)
  else if d = 15 ∨ d = 16 then (if l ≤ 2 then .on else .off)
  else if d = 17 then (if l = 1 then .gated else .off)
  else if d = 18 then (if l ≤ 2 then .on else .off)
  else if d = 19 then (if l = 1 then .gated else .off)
  else if d = 20 then (if l ≤ 2 then .on else .off)
  else if d = 21 then (if l = 1 then .on else .ret)
  else .off

/-- The state a domain takes in ladder state `l` with the votes held (R451): in L0 and L1 a domain with no vote is OFF;
the cold side is OFF unless kept. -/
def domTarget (l d : Nat) (s : State) : DomState :=
  if d = 22 then .on
  else if coldDomain d s then (if coldKept d s then .on else .off)
  else if l ≤ 1 then (if voted d s then ladderDom l d else .off)
  else ladderDom l d

/-- Whether an entry to ladder state `l` makes the domain RET or OFF. -/
def reducedBy (l d : Nat) (s : State) : Bool :=
  2 ≤ l && (domTarget l d s == .ret || domTarget l d s == .off)

/-- The domains the entry would make RET or OFF although someone votes for them (R459 step 1). -/
def refusingDomains (l : Nat) (s : State) : List Nat :=
  (List.range 23).filter (fun d => reducedBy l d s && voted d s && !coldDomain d s)

/-- The domains whose state an entry changes. -/
def changedDomains (l : Nat) (s : State) : List Nat :=
  (List.range 23).filter (fun d => domTarget l d s != domState d s)

/-- The payload of EV_PWR_REFUSED (R460). -/
def refusedPayload (target dom : Nat) (aborted : Bool) (client source : Nat) (s : State) : Bytes :=
  [BitVec.ofNat 8 (target * 32 + dom), BitVec.ofNat 8 (b2n aborted * 128 + client), BitVec.ofNat 8 source]
    ++ beBytes 6 s.tick.count.toNat

/-- A refused or aborted entry is counted and recorded for each domain concerned (R459); `client` refuses for a domain. Of a
ladder target the time and the votes are kept, by which it is tried again. -/
def refuseEntry (target : Nat) (doms : List Nat) (aborted : Bool) (client : Nat → Nat) (source : Nat) (s : State) : State :=
  let s := each doms (fun d s => s |> count (Reg.CNT_PWR_REFUSE d)
    |> setReg (Reg.PWR_DOM_REFUSER d)
        (word (at' 31 (b2n aborted) + at' 28 target + at' 24 (client d) + source))) s
  let first := doms.head?.getD 0
  event 0x0F02 (refusedPayload target first aborted (client first) source s)
    (if target = 7 then s
     else { s with pwr := { s.pwr with lastRefusal := some s.cycle, refusedVotes := (List.range 10).map (fun c => votesOf c s) } })

/-- EV_LADDER. -/
def ladderEvent (old new cause : Nat) (s : State) : State :=
  event 0x0F01 [BitVec.ofNat 8 old, BitVec.ofNat 8 new, BitVec.ofNat 8 cause] s

/-- The domains that the shed of R64 gates: pipelines, fabric, matcher and port groups. -/
def shedDomains : List Nat := [0, 1, 2, 3, 4, 5, 7, 8, 9, 10, 11, 12, 13, 14]

/-- The shed of R64: those of them that are ON are GATED. -/
def gateShed (s : State) : State :=
  each shedDomains (fun d s => if domState d s = .on then setDom d .gated s else s) s

/-- The load is restored (R68): where the ladder state has them ON, they are. -/
def ungateShed (s : State) : State :=
  each shedDomains (fun d s => if domState d s = .gated ∧ ladderDom s.pwr.ladder d = .on then setDom d .on s else s) s

/-- The ladder states a wake source is active in (R449). -/
def wakeActive (source ladder : Nat) : Bool :=
  if source = 0 ∨ source = 1 ∨ source = 5 then 1 ≤ ladder && ladder ≤ 4
  else if source = 2 ∨ source = 4 then ladder == 2 || ladder == 3
  else if source = 3 then ladder == 3
  else if source = 6 then ladder == 2
  else ladder == 1

/-- An entry in progress is aborted by a wake: the domains return to the states they held before it (R462), and SUP's votes
to what they were (R29). During the firedamp trip none is: device safety ranks first (R31, R471; log entry 39). -/
def abortEntry (source : Nat) (s : State) : State :=
  match s.pwr.entry with
  | none => s
  | some t =>
    if s.pwr.firedamp then s
    else
      refuseEntry t (changedDomains t s) true (fun _ => 9) source
        { s with pwr := { s.pwr with entry := none, dom := s.pwr.before, before := [] } }
      |> when' (decide (2 ≤ t)) (setVotes 1 s.pwr.supSaved.toNat)

/-- A wake source fires while its bit of PWR_WAKE_CFG is 1: T is L0 for the tick, the WAKE votes are placed, an entry in
progress is aborted (R449, R455, R462), and every doze ends (R156). The doze timer (source 4) only brings the side up, so
that dozes go on, and a local frame (source 7) ends the doze of its own identity (log entry 18). -/
def wakeFires (source : Nat) (domain : Option Nat) (s : State) : State :=
  if rbit Reg.PWR_WAKE_CFG source s && wakeActive source s.pwr.ladder then
    let extra := match domain with
      | some d => 2 ^ d
      | none => 0
    { s with pwr := { s.pwr with wake := true, lastWake := source, wakeClient := some 9,
                                 wakeAt := if source = 4 ∨ source = 7 then s.pwr.wakeAt else some s.tick.count,
                                 target := if s.pwr.firedamp then max 3 s.pwr.target else 0 } }
    |> setVotes 9 (votesOf 9 s ||| 2 ^ 18 ||| extra)
    |> abortEntry source
    |> when' (source != 4 && source != 7) dozeWakeAll
  else if s.pwr.entry.isSome && rbit Reg.PWR_WAKE_CFG source s then abortEntry source s
  else s

/-- Whether accesses wake a domain (R457): not the cold side, not during the firedamp trip. -/
def wakeable (d : Nat) (s : State) : Bool := !coldDomain d s && !s.pwr.firedamp

/-- A wake of a domain that is being dropped aborts the drop (R462): the domain has its state of the ladder again. -/
def abortDrop (d : Nat) (s : State) : State :=
  if domState d s = .entering ∧ s.pwr.entry.isNone then
    s |> refuseEntry 7 [d] true (fun _ => 9) 5 |> setDom d (ladderDom s.pwr.ladder d)
  else s

/-- A frame presented to a domain that is not ON, or a burst or pulse for it, wakes it (R457), but not while
it is in a Domain reset. -/
def wakeDomain (d : Nat) (s : State) : State :=
  if domState d s = .on ∨ domState d s = .waking ∨ !wakeable d s ∨ s.boot.domActive.getLsbD d then s
  else
    s |> abortDrop d |> wakeFires 5 (some d) |> (fun s => setVotes 9 (votesOf 9 s ||| 2 ^ d) s)
      |> (fun s => if domState d s = .on then s else setDom d .waking s)

/-- An access to a domain that is not ON wakes it and stalls until the domain is ON (R457). -/
def accessWake (d : Nat) (src : Source) (addr : Word) (write : Option Word) (tag : Option (Nat × Nat)) (s : State) : State :=
  if domState d s = .on ∨ !wakeable d s then s
  else
    { s with pwr := { s.pwr with
        stalled := s.pwr.stalled ++ [{ src := src, addr := addr, write := write, domain := d, tag := tag }] } }
    |> wakeDomain d

/-- A stalled access whose domain fails to wake completes as under R9: a read returns 0, a write does nothing; over the
chain the answer carries STATUS 2 (R512). -/
def completeAsAbsent (x : StalledAccess) (s : State) : State :=
  match x.tag, x.write with
  | some (dst, tag), some _ => sendResponse dst tag none 2 s
  | some (dst, tag), none => sendResponse dst tag (some 0) 2 s
  | none, some _ => s
  | none, none => emit (.readReply x.src x.addr 0) s

/-- EV_PWR_WAKE_FAIL (R457): the accesses stalled on the domain complete as under R9. -/
def wakeFail (d : Nat) (s : State) : State :=
  if domState d s = .waking then
    let mine := s.pwr.stalled.filter (fun x => x.domain == d)
    let s := each mine (fun x s => s |> completeAsAbsent x |> count Reg.CNT_PWR_WAKE_FAIL) s
    event 0x0F03 (beBytes 1 d) { s with pwr := { s.pwr with stalled := s.pwr.stalled.filter (fun x => x.domain != d) } }
  else s

/-- DOMAIN_DROP (R456, R459): in L0 or L1 a domain without a vote begins to go OFF; a vote placed in the same cycle keeps
it; a vote held refuses the drop; one of a domain that wakes is held until it is ON (R461). -/
def domainDrop (d : Nat) (votePlaced : Bool) (s : State) : State :=
  if s.pwr.ladder > 1 ∨ d = 22 ∨ votePlaced ∨ domState d s = .off ∨ domState d s = .waking then s
  else match lowestVoter d s with
    | some c => refuseEntry 7 [d] false (fun _ => c) 0 s
    | none => setDom d .entering s

/-- The domains a new vote powers in L0 and L1 begin to wake, but not one held in a Domain reset; a side's domain does so in
every ladder state that has it ON (R451). -/
def raiseVoted (s : State) : State :=
  each (List.range 22) (fun d s =>
    if domState d s = .off ∧ (s.pwr.ladder ≤ 1 ∨ d = 15 ∨ d = 16) ∧ !s.boot.domActive.getLsbD d
        ∧ domTarget s.pwr.ladder d s ≠ .off then setDom d .waking s else s) s

/-- The target T of R446: the shallowest of DEEPEST, the doze state, and L1 when idle (L0 otherwise), as the rule's
words give it (log entry 12); L0 while a wake source has fired in this tick (R449); at least L3 while tripped (R471). -/
def ladderTarget (doze : Nat) (idle : Bool) (s : State) : Nat :=
  let t := min (rfld Reg.PWR_LADDER_CTRL 18 16 s) (min doze (if idle then 1 else 0))
  let t := if s.pwr.wake then 0 else t
  if s.pwr.firedamp then max 3 t else t

end Sys2Proof.Machine
end

