-- ==== Sys2Proof/Machine/Tubs.lean ====
section
/-! DEFINITION. The tub store (R306 to R322): pools, floors, takes, frees, hand-overs, receive rings and the bytes of packet
SRAM and DRAM. -/
namespace Sys2Proof.Machine

/-! ### Handles and pools (R306, R308) -/

/-- POOL of a handle. -/
def poolOf (h : Nat) : Nat := h / 2 ^ 29

/-- CELL of a handle. -/
def cellOf (h : Nat) : Nat := h % 2 ^ 29

/-- The handle of the tub of a pool that begins at a cell. -/
def handleOf (pool cell : Nat) : Nat := pool * 2 ^ 29 + cell

/-- Cells per tub of a pool: 256 B, 1 KiB, 4 KiB, 16 KiB; 2 KiB and 16 KiB in DRAM. -/
def poolCells (p : Nat) : Nat :=
  match p with
  | 0 => 1
  | 1 => 4
  | 2 => 16
  | 3 => 64
  | 4 => 8
  | _ => 64

/-- The first cell of a pool. -/
def poolBase (p : Nat) (s : State) : Nat :=
  if p < 4 then rfld (Reg.TUB_POOL_BASE p) 18 0 s else rfld (Reg.TUB_DPOOL_BASE (p - 4)) 27 0 s

/-- The cell after the last of a pool. -/
def poolEnd (p : Nat) (s : State) : Nat :=
  if p < 4 then rfld (Reg.TUB_POOL_END p) 18 0 s else rfld (Reg.TUB_DPOOL_END (p - 4)) 27 0 s

/-- The tubs a pool has. -/
def poolTubs (p : Nat) (s : State) : Nat := (poolEnd p s - poolBase p s) / poolCells p

/-- The tag of a tub never taken: FREE, with the OWNER and chain link a log entry names. -/
def tagDefault (_ : Nat) : TubTag := { free := true, owner := 0, next := 0xFFFFFFFF }

/-- The tag of a tub (R309). -/
def tagOf (h : Nat) (s : State) : TubTag := tget tagDefault s.tub.tags h

/-- Write a tag. -/
def setTag (h : Nat) (t : TubTag) (s : State) : State :=
  { s with tub := { s.tub with tags := tput tagDefault h t s.tub.tags } }

/-- Which count of cells an agent's tubs fall under (R312): 0 TALLY, 1 CIRC, 2 SUP, 3 the shared region. -/
def holderOf (agent : Nat) : Nat := if agent = 8 then 0 else if agent = 7 then 1 else if agent = 10 then 2 else 3

/-- Cells in use under a holder. -/
def cellsUsed (h : Nat) (s : State) : Nat := tget (fun _ => 0) s.tub.cells h

/-- The floors together. -/
def floorSum (s : State) : Nat :=
  rfld (Reg.TUB_FLOOR 0) 18 0 s + rfld (Reg.TUB_FLOOR 1) 18 0 s + rfld (Reg.TUB_FLOOR 2) 18 0 s

/-- The cells a holder may have in use: its floor, or the shared region, the on-die cells no floor sets aside. -/
def cellLimit (h : Nat) (s : State) : Nat :=
  if h < 3 then rfld (Reg.TUB_FLOOR h) 18 0 s else 393216 - floorSum s

/-- Whether a cell lies in a bank that gives no tubs (R505). -/
def bankClosed (cell : Nat) (s : State) : Bool :=
  s.assay.draining.contains (cell / 1024) || s.assay.lostBanks.contains (cell / 1024)

/-- Whether a tub may be given: FREE, and on-die not in a closed bank. -/
def tubOpen (p cell : Nat) (s : State) : Bool :=
  (tagOf (handleOf p cell) s).free && !(decide (p < 4) && bankClosed cell s)

/-- How many tubs of a pool may be given. -/
def freeTubs (p : Nat) (s : State) : Nat :=
  if s.assay.draining = [] ∧ s.assay.lostBanks = [] ∨ 4 ≤ p then poolTubs p s - tget (fun _ => 0) s.tub.taken p
  else ((List.range (poolTubs p s)).filter (fun i => tubOpen p (poolBase p s + i * poolCells p) s)).length

/-- Which free tub of the pool is given: any; the first free one from a free starting point on (R311 names none). -/
def chooseTub (p : Nat) (s : State) : Nat :=
  let n := poolTubs p s
  let start := Config.tubChoice s.free
  let cell := fun i => poolBase p s + (start + i) % n * poolCells p
  handleOf p (match (List.range n).find? (fun i => tubOpen p (cell i) s) with
    | some i => cell i
    | none => poolBase p s)

/-- Adjust the counts of tubs taken of a pool and of cells under a holder. -/
def countTub (p holder : Nat) (up : Bool) (s : State) : State :=
  let c := poolCells p
  let f := fun (n d : Nat) => if up then n + d else n - d
  { s with tub := { s.tub with taken := tmod (fun _ => 0) p (fun n => f n 1) s.tub.taken,
                               cells := if p < 4 then tmod (fun _ => 0) holder (fun n => f n c) s.tub.cells
                                        else s.tub.cells } }

/-- Give one tub of a pool to an agent, as the last tub of a chain. -/
def giveTub (p agent : Nat) (s : State) : Nat × State :=
  let h := chooseTub p s
  (h, s |> setTag h { free := false, owner := agent, next := 0xFFFFFFFF } |> countTub p (holderOf agent) true |> nextFree)

/-- Give a chain of 256-byte tubs. -/
def giveChain (agent : Nat) : Nat → State → List Nat × State
  | 0, s => ([], s)
  | n + 1, s =>
    let (h, s) := giveTub 0 agent s
    let (hs, s) := giveChain agent n s
    let next := match hs with
      | [] => 0xFFFFFFFF
      | x :: _ => x
    (h :: hs, setTag h { tagOf h s with next := word next } s)

/-- Tubs of 256 bytes for a length. -/
def cellsFor (len : Nat) : Nat := max 1 ((len + 255) / 256)

/-- Whether an agent may have more cells in use (R312); during a dip episode floor holders only (R335). -/
def mayUse (agent cells : Nat) (s : State) : Bool :=
  let h := holderOf agent
  decide (cellsUsed h s + cells ≤ cellLimit h s) && !(h == 3 && inDip s)

/-- The pool a length of known data takes: the smallest tub that holds it, from the next larger pool where one is
empty (R311). -/
def poolFor (len : Nat) (s : State) : Option Nat :=
  (List.range 4).find? (fun p => decide (len ≤ 256 * poolCells p) && decide (0 < freeTubs p s))

/-- A take (R311, R312): the handles given, none where the request cannot be met. -/
def takeTubs (agent len : Nat) (known : Bool) (s : State) : Option (List Nat) × State :=
  match (if known then poolFor len s else none) with
  | some p =>
    if mayUse agent (poolCells p) s then
      let (h, s) := giveTub p agent s
      (some [h], s)
    else (none, s)
  | none =>
    let n := cellsFor len
    if mayUse agent n s ∧ n ≤ freeTubs 0 s then
      let (hs, s) := giveChain agent n s
      (some hs, s)
    else (none, s)

/-- A DRAM tub for a frame: the smaller pool that holds it and is not empty (R319). -/
def takeDram (len : Nat) (s : State) : Option Nat × State :=
  match [4, 5].find? (fun p => decide (len ≤ 256 * poolCells p) && decide (0 < freeTubs p s)) with
  | some p =>
    let (h, s) := giveTub p 11 s
    (some h, s)
  | none => (none, s)

/-! ### Bytes of memory -/

/-- A byte of packet SRAM. -/
def sramByte (a : Nat) (s : State) : Byte := tget (fun _ => 0) s.tub.sram a

/-- A byte of DRAM, by byte offset. -/
def dramByte (a : Nat) (s : State) : Byte := tget (fun _ => 0) s.tub.dram a

/-- Write a byte of packet SRAM. -/
def setSram (a : Nat) (b : Byte) (s : State) : State :=
  { s with tub := { s.tub with sram := tput (fun _ => 0) a b s.tub.sram } }

/-- Write a byte of DRAM. -/
def setDram (a : Nat) (b : Byte) (s : State) : State :=
  { s with tub := { s.tub with dram := tput (fun _ => 0) a b s.tub.dram } }

/-- Write bytes from an address of packet SRAM on. -/
def writeSram : Nat → Bytes → State → State
  | _, [], s => s
  | a, b :: bs, s => writeSram (a + 1) bs (setSram a b s)

/-- Write bytes from an offset of DRAM on. -/
def writeDram : Nat → Bytes → State → State
  | _, [], s => s
  | a, b :: bs, s => writeDram (a + 1) bs (setDram a b s)

/-- Read bytes of packet SRAM. -/
def readSram (a n : Nat) (s : State) : Bytes := (List.range n).map (fun i => sramByte (a + i) s)

/-- The bytes a tub holds. -/
def tubSize (h : Nat) : Nat := 256 * poolCells (poolOf h)

/-- Write bytes into a tub. -/
def writeTub (h : Nat) (b : Bytes) (s : State) : State :=
  if poolOf h < 4 then writeSram (256 * cellOf h) b s else writeDram (256 * cellOf h) b s

/-- Write bytes into a chain of tubs, each filled before the next. -/
def writeTubs : List Nat → Bytes → State → State
  | [], _, s => s
  | h :: hs, b, s => writeTubs hs (b.drop (tubSize h)) (writeTub h (b.take (tubSize h)) s)

/-- Bytes the spec calls undefined: free values. -/
def freeBytes (n : Nat) (s : State) : Bytes := (List.range n).map (Config.freeByte s.free)

/-- Take tubs for data and write it into them. -/
def storeData (agent : Nat) (b : Bytes) (known : Bool) (s : State) : Option (List Nat) × State :=
  match takeTubs agent b.length known s with
  | (some hs, s) => (some hs, writeTubs hs b s)
  | (none, s) => (none, s)

/-! ### Queues of frames (R269, R297) -/

/-- The scheduler of a port. -/
def sched (p : Nat) (s : State) : PortSched := tget (fun _ => PortSched.reset) s.sched.ports p

/-- Put the scheduler of a port. -/
def setSched (p : Nat) (x : PortSched) (s : State) : State :=
  { s with sched := { s.sched with ports := tput (fun _ => PortSched.reset) p x s.sched.ports } }

/-- Change the scheduler of a port. -/
def modSched (p : Nat) (f : PortSched → PortSched) (s : State) : State := setSched p (f (sched p s)) s

/-- An allocation queue. -/
def allocQ (a : Nat) (s : State) : AllocQueue := tget (fun _ => AllocQueue.reset) s.sched.aqs a

/-- Put an allocation queue. -/
def setAllocQ (a : Nat) (x : AllocQueue) (s : State) : State :=
  { s with sched := { s.sched with aqs := tput (fun _ => AllocQueue.reset) a x s.sched.aqs } }

/-- The frames of the lane or tally tier a take waits for. -/
def waitFrames (d : WaitFor) (s : State) : List QFrame :=
  match d with
  | .agent => []
  | .consign p => (sched p s).consign
  | .circ p => (sched p s).circ
  | .tally a => (allocQ a s).tally

/-- Put the frames of the lane or tally tier a take waits for. -/
def setWaitFrames (d : WaitFor) (fs : List QFrame) (s : State) : State :=
  match d with
  | .agent => s
  | .consign p => modSched p (fun x => { x with consign := fs }) s
  | .circ p => modSched p (fun x => { x with circ := fs }) s
  | .tally a => setAllocQ a { allocQ a s with tally := fs } s

/-- Whether a frame stands in tubs; a lane frame or tally frame that does not waits for a floor (R280, R312). -/
def stored (f : QFrame) : Bool := f.tubs != [] || f.dram.isSome

/-- The first frame of `len` bytes without tubs. -/
def unstored (len : Nat) (fs : List QFrame) : Option QFrame := fs.find? (fun f => !stored f && f.bytes.length == len)

/-- Give tubs to the first frame of `len` bytes without any. -/
def storeFirst (len : Nat) (hs : List Nat) : List QFrame → List QFrame
  | [] => []
  | f :: fs => if !stored f && f.bytes.length == len then { f with tubs := hs } :: fs else f :: storeFirst len hs fs

/-! ### Returning tubs (R313 to R315) -/

/-- The OWNER that EV_TUB_BAD_FREE shows for a handle of a tub (R314); of a handle that no tub has, where the reason is not 1
or 2, a free value. -/
def ownerShown (reason h : Nat) (s : State) : Nat :=
  if reason ≤ 2 then 0x3F
  else if poolOf h ≤ 5 ∧ poolBase (poolOf h) s ≤ cellOf h ∧ cellOf h < poolEnd (poolOf h) s ∧ cellOf h % poolCells (poolOf h) = 0 then
    (tagOf h s).owner
  else Config.freeNat s.free % 64

/-- EV_TUB_BAD_FREE (R314). -/
def badFree (agent reason handle owner : Nat) (s : State) : State :=
  s |> count Reg.CNT_TUB_BAD_FREE
    |> event 0x0902 ([BitVec.ofNat 8 agent, BitVec.ofNat 8 reason] ++ beBytes 4 handle ++ [BitVec.ofNat 8 owner, 0])

/-- A request that carries an agent number not assigned is refused as a bad free with reason 4, before any check of a handle
(R310); one that names no handle has free values for HANDLE and OWNER. -/
def badAgent (agent : Nat) (h : Option Nat) (s : State) : State :=
  match h with
  | some h => nextFree (badFree agent 4 h (ownerShown 4 h s) s)
  | none => nextFree (badFree agent 4 (Config.freeNat s.free) (Config.freeNat s.free / 2 ^ 32 % 64) s)

/-- The first condition of R313 a tub fails: 0 for none. -/
def freeReason (agent h : Nat) (s : State) : Nat :=
  let p := poolOf h
  let c := cellOf h
  let t := tagOf h s
  if !(p ≤ 5 ∧ poolBase p s ≤ c ∧ c < poolEnd p s) then 1
  else if c % poolCells p ≠ 0 then 2
  else if t.free then 3
  else if t.owner ≠ agent then 4
  else 0

/-- Mark a tub FREE. -/
def markFree (h : Nat) (s : State) : State :=
  let t := tagOf h s
  s |> setTag h { t with free := true } |> countTub (poolOf h) (holderOf t.owner) false

/-- Free a handle and, with `chain`, what follows it, stopping at the first tub that fails (R313). -/
def freeWalk (agent : Nat) (chain : Bool) : Nat → Nat → State → State
  | 0, _, s => s
  | fuel + 1, h, s =>
    let r := freeReason agent h s
    if r ≠ 0 then badFree agent r h (ownerShown r h s) s
    else
      let next := (tagOf h s).next.toNat
      let s := markFree h s
      if chain ∧ next ≠ 0xFFFFFFFF then freeWalk agent chain fuel next s else s

/-- What a take that has waited is given: handles, or the tubs of a frame, which is written into them. -/
def giveWait (w : TubWait) (hs : List Nat) (s : State) : State :=
  match w.dest with
  | .agent => emit (.tubsGiven w.agent hs) s
  | d =>
    match unstored w.len (waitFrames d s) with
    | some f => s |> writeTubs hs f.bytes |> setWaitFrames d (storeFirst w.len hs (waitFrames d s))
    | none => s

/-- Whether a take still waits: a frame discarded meanwhile needs no tubs. -/
def stillWaits (w : TubWait) (s : State) : Bool :=
  match w.dest with
  | .agent => true
  | d => (unstored w.len (waitFrames d s)).isSome

/-- Serve the takes that wait, in order, each when it can be met (R312). -/
def serveWaits (s : State) : State :=
  each s.tub.waiting (fun w s =>
    if stillWaits w s then
      match takeTubs w.agent w.len w.known s with
      | (some hs, s') => giveWait w hs s'
      | (none, _) => { s with tub := { s.tub with waiting := s.tub.waiting ++ [w] } }
    else s)
    { s with tub := { s.tub with waiting := [] } }

/-- A floor holder's take waits, and is counted (R312). -/
def floorWait (w : TubWait) (s : State) : State :=
  count Reg.CNT_TUB_FLOOR_WAIT { s with tub := { s.tub with waiting := s.tub.waiting ++ [w] } }

/-- TUB_FREE (R313); a tub freed may be the one a waiting take is given (R315). -/
def tubFree (agent h : Nat) (chain : Bool) (s : State) : State :=
  if 12 ≤ agent then badAgent agent (some h) s else s |> freeWalk agent chain (s.tub.tags.length + 1) h |> serveWaits

/-- The tubs of a frame freed by the agent that holds it. -/
def freeTubsOf (agent : Nat) (hs : List Nat) (s : State) : State :=
  match hs with
  | [] => s
  | h :: _ => tubFree agent h true s

/-- A take (R311, R312): given, waiting for a spent floor, or refused. -/
def tubTake (agent len : Nat) (known : Bool) (s : State) : State :=
  if 12 ≤ agent then badAgent agent none s
  else match takeTubs agent len known s with
    | (some hs, s') => emit (.tubsGiven agent hs) s'
    | (none, s') =>
      if holderOf agent < 3 then
        floorWait { agent := agent, len := len, known := known, dest := .agent } s'
      else s'

/-- TUB_FREE: the free is judged with those of its cycle (R315). -/
def askFree (agent h : Nat) (chain : Bool) (s : State) : State :=
  { s with tub := { s.tub with frees := s.tub.frees ++ [{ agent := agent, handle := h, chain := chain }] } }

/-- TUB_TAKE: the take is served after the frees of its cycle (R315). -/
def askTake (agent len : Nat) (known : Bool) (s : State) : State :=
  { s with tub := { s.tub with asks := s.tub.asks ++ [{ agent := agent, len := len, known := known, dest := .agent }] } }

/-- A cycle ends for the tub store (R315): its frees in ascending agent order, hand-overs being made by then, and after them
its takes. -/
def settleTubs (s : State) : State :=
  let frees := sortBy (fun a b => decide (a.agent ≤ b.agent)) s.tub.frees
  let asks := s.tub.asks
  { s with tub := { s.tub with frees := [], asks := [] } }
    |> each frees (fun f s => tubFree f.agent f.handle f.chain s)
    |> each asks (fun w s => tubTake w.agent w.len w.known s)

/-- Rewrite OWNER of a tub that is held. -/
def ownTub (agent h : Nat) (s : State) : State :=
  let t := tagOf h s
  if t.free then s
  else
    s |> countTub (poolOf h) (holderOf t.owner) false |> setTag h { t with owner := agent }
      |> countTub (poolOf h) (holderOf agent) true

/-- Rewrite OWNER along a chain (R309). -/
def ownWalk (agent : Nat) : Nat → Nat → State → State
  | 0, _, s => s
  | fuel + 1, h, s =>
    let t := tagOf h s
    if t.free then s
    else if t.next.toNat = 0xFFFFFFFF then ownTub agent h s
    else s |> ownTub agent h |> ownWalk agent fuel t.next.toNat

/-- Hand a frame's tubs over to an agent. -/
def handOver (h agent : Nat) (s : State) : State := ownWalk agent (s.tub.tags.length + 1) h s

/-- TUB_HAND_OVER (R309, R310). -/
def tubHandOver (h agent : Nat) (s : State) : State :=
  if 12 ≤ agent then badAgent agent (some h) s else handOver h agent s

/-! ### Receive rings (R316, R317) -/

/-- Whether a ring is in use; ring 0 always is. -/
def ringEnabled (r : Nat) (s : State) : Bool := r == 0 || rbit (Reg.TUB_RING_CFG r) 31 s

/-- The consumer of a ring; SUP for ring 0. -/
def ringConsumer (r : Nat) (s : State) : Nat := if r = 0 then 10 else rfld (Reg.TUB_RING_CFG r) 29 24 s

/-- The entries of a ring: 1,024 for ring 0. -/
def ringSize (r : Nat) (s : State) : Nat := if r = 0 then 1024 else 2 ^ rfld (Reg.TUB_RING_CFG r) 19 16 s

/-- The next entry the consumer posts. -/
def ringPostIdx (r : Nat) (s : State) : Nat := tget (fun _ => 0) s.tub.post r

/-- The next entry a producer takes. -/
def ringTakeIdx (r : Nat) (s : State) : Nat := tget (fun _ => 0) s.tub.take r

/-- Entries posted and not yet taken. -/
def ringPosted (r : Nat) (s : State) : Nat := tget (fun _ => 0) s.tub.posted r

/-- The SRAM address of an entry: four bytes each. -/
def ringEntryAddr (r i : Nat) (s : State) : Nat := rfld (Reg.TUB_RING_BASE r) 26 0 s + 4 * i

/-- A word of SRAM, stored little-endian like a register (R325). -/
def sramWord (a : Nat) (s : State) : Nat := beNat (readSram a 4 s).reverse

/-- RING_POST (R316): the handle is written at POST, which advances; a full ring takes none. -/
def ringPost (r h : Nat) (s : State) : State :=
  if ringEnabled r s ∧ ringPosted r s < ringSize r s then
    let i := ringPostIdx r s
    let s := writeSram (ringEntryAddr r i s) (beBytes 4 h).reverse s
    { s with tub := { s.tub with post := tput (fun _ => 0) r ((i + 1) % ringSize r s) s.tub.post,
                                 posted := tput (fun _ => 0) r (ringPosted r s + 1) s.tub.posted } }
  else s

/-- The handle posted `k` entries after TAKE. -/
def ringEntry (r k : Nat) (s : State) : Nat :=
  sramWord (ringEntryAddr r ((ringTakeIdx r s + k) % ringSize r s) s) s

/-- The posted tubs a frame of `len` bytes needs, up to the entries posted; answers whether they hold it. -/
def ringNeed (r : Nat) (s : State) : Nat → Nat → Nat → List Nat × Bool
  | 0, _, len => ([], len == 0)
  | n + 1, k, len =>
    if len = 0 then ([], true)
    else
      let h := ringEntry r k s
      let (hs, ok) := ringNeed r s n (k + 1) (len - tubSize h)
      (h :: hs, ok)

/-- OWNER of the entries of a frame passes to an agent (R316). -/
def passRing (agent : Nat) (hs : List Nat) (s : State) : State := each hs (ownTub agent) s

/-- Tubs filled for one frame become a chain. -/
def linkChain : List Nat → State → State
  | [], s => s
  | [h], s => setTag h { tagOf h s with next := 0xFFFFFFFF } s
  | h :: g :: hs, s => s |> setTag h { tagOf h s with next := word g } |> linkChain (g :: hs)

/-- Fill the ring's posted tubs with a frame; answers whether it was handed over (R316) or the ring ran dry (R317). The
tubs belong to the producer while it fills them and go back to the consumer as a chain. The counter of a dry ring is the
caller's. -/
def ringPut (r producer : Nat) (frame : Bytes) (s : State) : Bool × State :=
  let (hs, ok) := ringNeed r s (ringPosted r s) 0 frame.length
  let s := passRing producer hs s
  if ringEnabled r s && ok then
    let s := s |> writeTubs hs frame |> linkChain hs |> passRing (ringConsumer r s) hs
    (true, { s with tub := { s.tub with
      take := tput (fun _ => 0) r ((ringTakeIdx r s + hs.length) % ringSize r s) s.tub.take,
      posted := tput (fun _ => 0) r (ringPosted r s - hs.length) s.tub.posted } })
  else
    let s := s |> writeTubs hs (freeBytes ((hs.map tubSize).sum) s) |> nextFree |> passRing (ringConsumer r s) hs
    (false, event 0x0903 ([BitVec.ofNat 8 r] ++ beBytes 2 frame.length ++ beBytes 2 hs.length) s)

/-- RING_FILL (R316, R317); for ring 0 the count is CNT_EXC_RING_FULL (R265). A producer whose number is not assigned is
refused (R310). -/
def ringFill (r producer : Nat) (frame : Bytes) (s : State) : State :=
  if 12 ≤ producer then badAgent producer none s
  else match ringPut r producer frame s with
  | (true, s) => s
  | (false, s) => count (if r = 0 then Reg.CNT_EXC_RING_FULL else Reg.CNT_TUB_RING_DRY) s

/-! ### The partition (R307) -/

/-- Whether the ranges of two on-die pools overlap. -/
def poolsOverlap (p q : Nat) (s : State) : Bool :=
  decide (poolBase p s < poolEnd q s) && decide (poolBase q s < poolEnd p s)
    && decide (poolBase p s < poolEnd p s) && decide (poolBase q s < poolEnd q s)

/-- The cells of DRAM of the usable packages (R321). -/
def dramCells (s : State) : Nat := 33554432 * (4 - ((List.range 4).filter (fun k => s.tub.mappedOut.getLsbD k)).length)

/-- The cells of DRAM set aside for the image cache, the table cache and the supervisor's saved copy (R318). -/
def reservedCells : Nat := 1048576

/-- The channels of the usable packages, ascending (R318, R321). -/
def usableChannels (s : State) : List Nat := (List.range 16).filter (fun c => !s.tub.mappedOut.getLsbD (c / 4))

/-- The channel a cell of DRAM lies on: consecutive cells rotate across the usable channels (R318, R321). -/
def cellChannel (cell : Nat) (s : State) : Nat :=
  let l := usableChannels s
  l.getD (cell % max 1 l.length) 0

/-- The controller of a channel: DDR0 serves channels 0 to 7, DDR1 the others (R318). -/
def channelController (channel : Nat) : Nat := channel / 8

/-- EV_TUB_PARTITION_BAD's FAULTS (R573); a DRAM pool exceeds its memory, too, where it reaches into the reserved cells
(R318; DEDUCED, log entry 46). -/
def partitionFaults (s : State) : Nat :=
  let ps := List.range 6
  let overlap := ps.any (fun p => ps.any (fun q => decide (p < q) && decide ((p < 4) = (q < 4)) && poolsOverlap p q s))
  let align := ps.any (fun p => poolBase p s % poolCells p != 0 || poolEnd p s % poolCells p != 0)
  let exceed := ps.any (fun p => decide (poolEnd p s > (if p < 4 then 393216 else dramCells s))
    || (decide (4 ≤ p) && decide (poolBase p s < reservedCells) && decide (poolBase p s < poolEnd p s)))
  b2n overlap + 2 * b2n align + 4 * b2n exceed + 8 * b2n (decide (floorSum s > 393216))

/-- The pool and floor registers. -/
def partitionRegs : List Nat :=
  (List.range 4).flatMap (fun p => [Reg.TUB_POOL_BASE p, Reg.TUB_POOL_END p])
    ++ (List.range 2).flatMap (fun d => [Reg.TUB_DPOOL_BASE d, Reg.TUB_DPOOL_END d]) ++ (List.range 3).map Reg.TUB_FLOOR

/-- Each DRAM pool's END above the usable packages' capacity is cut down to a multiple of its cells per tub (R321). -/
def cutPools (s : State) : State :=
  let cap := dramCells s
  each [4, 5] (fun p s =>
    if poolEnd p s > cap then setReg (Reg.TUB_DPOOL_END (p - 4)) (word (cap / poolCells p * poolCells p)) s else s) s

/-- The end of APPLYING with a faulty partition: the reset values are used (R307), cut down where a package is mapped out
(R321; DEDUCED, log entry 46). -/
def checkPartition (s : State) : State :=
  let f := partitionFaults s
  if f = 0 then s
  else s |> each partitionRegs (fun a s => setReg a (resetValue a) s) |> cutPools |> event 0x0901 [BitVec.ofNat 8 f]

/-! ### Training the deep buffer (R321) -/

/-- LPDDR4X training with the packages that fail it: they are mapped out, each pool END above the smaller capacity is cut
down to a multiple of its cells per tub. -/
def trainDram (fails : BitVec 4) (s : State) : State :=
  let s := { s with tub := { s.tub with trained := true, mappedOut := fails } }
  if fails = 0 then s
  else s |> cutPools |> each ((List.range 4).filter (fun k => fails.getLsbD k)) (fun k s =>
    event 0x0904 (beBytes 1 k ++ beBytes 4 (dramCells s)) s)

/-- Every tub FREE, as after a Domain reset of PD_FAB (R335). -/
def freeEveryTub (s : State) : State :=
  { s with tub := { s.tub with tags := [], taken := [], cells := [], waiting := [], frees := [], asks := [] } }

end Sys2Proof.Machine
end

