-- ==== Sys2Proof/Machine/Line.lean ====
section
/-! DEFINITION. Frame alignment, the frame header, the multiframe and the defects of a seam (R87 to R109). -/
namespace Sys2Proof.Machine

/-- The key of a seam. -/
def seamKey (side n : Nat) : Nat := 4 * side + n

/-- A seam receiver. -/
def seam (side n : Nat) (s : State) : SeamState := tget (fun _ => SeamState.reset) s.seams (seamKey side n)

/-- Put a seam receiver. -/
def setSeam (side n : Nat) (x : SeamState) (s : State) : State :=
  { s with seams := tput (fun _ => SeamState.reset) (seamKey side n) x s.seams }

/-- Change a seam receiver. -/
def modSeam (side n : Nat) (f : SeamState → SeamState) (s : State) : State := setSeam side n (f (seam side n s)) s

/-- Free the tubs of the frames in progress on a seam, which LINE holds (R310, R311). -/
def freePartials (ps : List PartialFrame) (s : State) : State := each ps (fun p s => each p.tubs (freeTubsOf 5) s) s

/-- Whether a seam fails while it is eligible to (R415). -/
def seamFails (x : SeamState) : Bool := x.eligible && (x.los || x.lof || x.sf)

/-- The failed seams of the active side that SEAM_MASK selects (R415). -/
def failedSeamList (s : State) : List Nat :=
  [0, 1, 2, 3].filter (fun n => rbit Reg.PROT_CTRL (4 + n) s && seamFails (seam s.prot.active.val n s))

/-- Whether a seam of the active side is failed. -/
def anySeamFailed (s : State) : Bool := failedSeamList s != []

/-- Whether a seam of the active side has stayed failed for HOLD_MS by the clock. -/
def seamHeldFailed (s : State) : Bool :=
  (failedSeamList s).any (fun n => match (seam s.prot.active.val n s).failSince with
    | some c => decide (rfld Reg.PROT_CTRL 15 8 s * 1000000 ≤ s.cycle - c)
    | none => false)

/-- Where a seam of the side recovers, the side stays failed only for one that has stayed failed for HOLD_MS. -/
def noteUnfailed (s : State) : State :=
  if seamHeldFailed s then s else { s with prot := { s.prot with failed := false } }

/-- Whether a seam is in SYNC. -/
def inSync (side n : Nat) (s : State) : Bool := (seam side n s).align == .sync

/-- The lowest-numbered seam of a side in SYNC. -/
def lowestSync (side : Nat) (s : State) : Option Nat := (List.range 4).find? (fun n => inSync side n s)

/-- SIDE_SEAM of an event payload. -/
def sideSeam (side n : Nat) : Byte := BitVec.ofNat 8 (4 * side + n)

/-- EV_LINE_DEFECT (R102): 0 LOS, 1 LOF, 2 LOMF, 3 SD, 4 SF. -/
def defectEvent (side n defect : Nat) (declared : Bool) (cause : Nat) (s : State) : State :=
  event 0x0301 ([sideSeam side n, BitVec.ofNat 8 defect, BitVec.ofNat 8 (b2n declared), BitVec.ofNat 8 cause]
    ++ beBytes 6 (seam side n s).fc.toNat) s

/-- LINE_DEFECT latches each declaration in its bit of LINE_STATUS, masked ones included. -/
def latchDefect (side n bit : Nat) (s : State) : State :=
  let a := Reg.LINE_DEFECT side n
  setReg a (reg a s ||| word (2 ^ bit)) s

/-- An event of fault source SEAM (R504): LOS, LOF or SF declared on a seam of the active side that SEAM_MASK selects
and that is eligible to fail. -/
def seamFaultPending (side n : Nat) (s : State) : State :=
  if side = s.prot.active.val ∧ (seam side n s).eligible ∧ rbit Reg.PROT_CTRL (4 + n) s then noteFault 5 n s else s

/-- The changes of RDI's defects that still matter: those of the last 250 µs, and the last one before. -/
def rdiRecent (cycle : Nat) : List (Nat × Bool) → List (Nat × Bool)
  | [] => []
  | e :: l => if e.1 + 250000 < cycle then [e] else e :: rdiRecent cycle l

/-- RDI follows LOS, LOF, LOMF and SF (R106): note the cycle at which the first of them was declared or the last
cleared. -/
def noteRdi (cycle : Nat) (before after : SeamState) : SeamState :=
  let was := before.los || before.lof || before.lomf || before.sf
  let now := after.los || after.lof || after.lomf || after.sf
  if was = now then after else { after with rdi := (cycle, now) :: rdiRecent cycle after.rdi }

/-- Note since when a seam is failed (R415). -/
def noteFailing (cycle : Nat) (x : SeamState) : SeamState :=
  if seamFails x then (if x.failSince.isNone then { x with failSince := some cycle } else x) else { x with failSince := none }

/-- Change a seam receiver and follow its RDI and its failure. -/
def defects (side n : Nat) (f : SeamState → SeamState) (s : State) : State :=
  setSeam side n (noteFailing s.cycle (noteRdi s.cycle (seam side n s) (f (seam side n s)))) s

/-- The RDI bit of a seam for a burst leaving now (R106, R107): it follows the newest change more than 250 µs ago. -/
def rdiBit (side n : Nat) (s : State) : Bool :=
  rbit (Reg.LINE_CTRL side n) 7 s
    || (((seam side n s).rdi.find? (fun e => decide (e.1 + 250000 < s.cycle))).map Prod.snd).getD false

/-- Whether a header field makes the header valid (R78): bytes 8 to 23 of the message. -/
def headerValid (b : Bytes) : Bool := crc16 (slice b 8 14) == beAt b 22 2

/-- FC of a header. -/
def hdrFc (b : Bytes) : BitVec 48 := BitVec.ofNat 48 (beAt b 8 6)

/-- HEID of a header. -/
def hdrHeid (b : Bytes) : BitVec 16 := BitVec.ofNat 16 (beAt b 14 2)

/-- MFI of a header. -/
def hdrMfi (b : Bytes) : Nat := beAt b 16 1 / 32

/-- HE_RDI of a header. -/
def hdrRdi (b : Bytes) : Bool := beAt b 17 1 / 128 % 2 == 1

/-- SPLEN of a header. -/
def hdrSplen (b : Bytes) : Nat := beAt b 18 2 % 4096

/-- LMMCNT of a header. -/
def hdrLmmcnt (b : Bytes) : Nat := beAt b 20 1

/-- The first 24 message bytes of a codeword that decodes. -/
def headerOf (w : Codeword) : Option Bytes :=
  match rsDecode (w.map BitVec.toNat) with
  | some (m, _) => some (packBits ((symbolBits (m.take 20)).take 192))
  | none => none

/-- The first three conditions of R87 at a position: the raw bits within tolerance, a codeword whose corrected bits give
the sync word, a valid header; answers the header. -/
def sightingHeader (side n : Nat) (w : Codeword) (s : State) : Option Bytes :=
  if syncDiffs (w.map BitVec.toNat) ≤ rfld (Reg.LINE_CTRL side n) 3 0 s then
    match headerOf w with
    | some b => if beAt b 0 8 = syncWord ∧ headerValid b then some b else none
    | none => none
  else none

/-- LINE_STATUS and LINE_HEID show the last valid header. -/
def noteHeader (side n : Nat) (b : Bytes) (s : State) : State :=
  modSeam side n (fun x => { x with heid := hdrHeid b, heRdi := hdrRdi b,
                                    heidBad := (hdrHeid b).toNat != rfld (Reg.LINE_HEID_EXP side n) 15 0 s }) s

/-- The reference of R88: the FC of the lowest-numbered other seam of the side in SYNC. What "the FC last received" is where
that seam's last frames had no valid header, the rule leaves open: DESIGN CHOICE, the flywheeled FC that LINE_FC shows
(log entry 41). -/
def refFc (side n : Nat) (s : State) : Option (BitVec 48) :=
  ((List.range 4).find? (fun k => k != n && inSync side k s)).map (fun k => (seam side k s).fc)

/-- Whether an FC lies within 2 of another, in serial-number arithmetic (R88). -/
def fcNear (a b : BitVec 48) : Bool := (a - b).toNat ≤ 2 || (b - a).toNat ≤ 2

/-- STATE is PRESYNC while a candidate has been confirmed (R92). -/
def searchState (cands : List Candidate) : SeamAlign := if cands.any (fun c => c.conf > 0) then .presync else .hunt

/-- A position judged under R87, R88 and R89: opens a candidate, or is counted for the check it fails. -/
def judgeSighting (side n offset : Nat) (w : Codeword) (s : State) : State :=
  match sightingHeader side n w s with
  | none => s
  | some b =>
    let s := noteHeader side n b s
    if rbit (Reg.LINE_CTRL side n) 8 s ∧ (hdrHeid b).toNat ≠ rfld (Reg.LINE_HEID_EXP side n) 15 0 s then
      count (Reg.CNT_HEID_MISMATCH side n) s
    else
      let near : Bool := match refFc side n s with
        | some r => fcNear (hdrFc b) r
        | none => true
      let x := seam side n s
      if x.cands.any (fun c => c.offset == offset) then s
      else if !near then count (Reg.CNT_ALIGN_FC_REJECT side n) s
      else if 4 ≤ x.cands.length then count (Reg.CNT_ALIGN_CAND_FULL side n) s
      else setSeam side n { x with cands := x.cands ++ [{ offset := offset, run := 1, conf := 0, fc := hdrFc b,
                                                                heid := hdrHeid b }] } s

/-- Whether a seam searches (R92, R93): in HUNT or PRESYNC, not suspended by LOS. -/
def searching (side n : Nat) (s : State) : Bool :=
  let x := seam side n s
  (x.align == .hunt || x.align == .presync) && !x.los

/-- SYNC_SIGHTING (R87 to R89). -/
def syncSighting (side n offset : Nat) (w : Codeword) (s : State) : State :=
  if searching side n s then judgeSighting side n offset w s else s

/-- CANDIDATE_EXAMINE (R90): confirmed, or dropped and its position judged again. -/
def candidateExamine (side n offset : Nat) (w : Codeword) (s : State) : State :=
  let x := seam side n s
  match (if searching side n s then x.cands.find? (fun c => c.offset == offset) else none) with
  | none => s
  | some c =>
    let hdr : Option Bytes := match sightingHeader side n w s with
      | some b => if hdrFc b = c.fc + 1 then some b else none
      | none => none
    match hdr with
    | some b =>
      let cands := x.cands.map (fun d => if d.offset = offset then
        { d with run := d.run + 1, conf := d.conf + 1, fc := d.fc + 1, heid := hdrHeid b } else d)
      s |> setSeam side n { x with cands := cands, align := searchState cands } |> noteHeader side n b
    | none =>
      let cands := x.cands.filter (fun d => d.offset != offset)
      s |> setSeam side n { x with cands := cands, align := searchState cands } |> judgeSighting side n offset w

/-- Among qualifying candidates in order of opening, the first with the longest run (R91). -/
def winner : List Candidate → Option Candidate
  | [] => none
  | c :: cs =>
    match winner cs with
    | none => some c
    | some d => if d.run > c.run then some d else some c

/-- EV_ALIGN_AMBIGUOUS with each qualifying candidate (R91). -/
def ambiguousEvent (side n : Nat) (q : List Candidate) (s : State) : State :=
  s |> event 0x0302 ([sideSeam side n, BitVec.ofNat 8 q.length]
      ++ q.flatMap (fun c => beBytes 4 c.offset ++ beBytes 2 c.run ++ beBytes 6 c.fc.toNat))
    |> count (Reg.CNT_ALIGN_AMBIGUOUS side n)

/-- A receiver that enters SYNC on a candidate: LOF clears, windows and multiframe evaluation begin (R92, R97, R100), and the
REI counts of bursts start from 0 (R108). Whether the winner counts as an open candidate in SYNC is left open: DESIGN
CHOICE, it does not, so that CANDS reads 0 (log entry 41). -/
def enterSync (c : Candidate) (x : SeamState) : SeamState :=
  { x with align := .sync, cands := [], badSync := 0, fc := c.fc, heid := c.heid, heidRun := 0, jump := none, sinceSync := 0,
           mfAligned := false, lastMfi := none, mfRun := 0, mfBadRun := 0, lof := false, lomf := false, eligible := true,
           sdFrames := 0, sdErrors := 0, sfFrames := 0, sfCorr := 0, sfUnc := 0, sfGood := 0, sfAligned := false, rei := 0 }

/-- EVAL_PERIOD_END (R91), up to the entry into SYNC; answers the state and whether SYNC was entered. -/
def evalPeriodEnd (side n : Nat) (s : State) : State × Bool :=
  let x := seam side n s
  let q := x.cands.filter (fun c => 3 ≤ c.conf)
  if x.align = .presync ∧ !x.los then
    match winner q with
    | none => (s, false)
    | some c =>
      (s |> when' (1 < q.length) (ambiguousEvent side n q)
         |> defects side n (enterSync c)
         |> defectEvent side n 1 false 0, true)
  else (s, false)

/-- Declaring LOF clears SD, SF and LOMF without events and abandons the open windows (R101); the seam goes to HUNT. -/
def dropToHunt (x : SeamState) : SeamState :=
  { x with align := .hunt, cands := [], badSync := 0, lof := true, sd := false, sf := false, lomf := false,
           mfAligned := false, sdFrames := 0, sdErrors := 0, sdClosed := [], sfFrames := 0, sfCorr := 0, sfUnc := 0,
           sfClosed := [], plan := [], planFc := none, partials := [] }

/-- LOF declared from SYNC (R92, R96): cause 0 SYNC, 1 HEID, 2 LOS. -/
def declareLof (side n cause : Nat) (s : State) : State :=
  let s := s |> count (Reg.CNT_LOF_ENTRY side n) |> latchDefect side n 1
  let s := if cause = 2 then s else defectEvent side n 1 true cause s
  s |> freePartials (seam side n s).partials |> defects side n dropToHunt |> seamFaultPending side n

/-- Whether the sources LINE_CTRL.LOS_SRC selects all show loss (R99). -/
def sourcesLost (side n : Nat) (sdLand energyLoss : Bool) (s : State) : Bool :=
  let src := rfld (Reg.LINE_CTRL side n) 5 4 s
  let landLoss := sdLand == rbit (Reg.LINE_CTRL side n) 6 s
  (src % 2 == 0 || landLoss) && (src / 2 == 0 || energyLoss)

/-- Whether the selected sources all show signal (R99). -/
def sourcesPresent (side n : Nat) (sdLand energyLoss : Bool) (s : State) : Bool :=
  let src := rfld (Reg.LINE_CTRL side n) 5 4 s
  let landLoss := sdLand == rbit (Reg.LINE_CTRL side n) 6 s
  (src % 2 == 0 || !landLoss) && (src / 2 == 0 || !energyLoss)

/-- LOS declared on a seam whose side is up (R92, R99, R101). -/
def declareLos (side n : Nat) (s : State) : State :=
  let x := seam side n s
  if x.align = .off ∨ x.los then s
  else
    let s := s |> latchDefect side n 0 |> defectEvent side n 0 true 0
    let s := if x.align = .sync then declareLof side n 2 s else seamFaultPending side n s
    defects side n (fun x => { x with los := true, align := .hunt, cands := [] }) s

/-- LOS_DECLARE (R99). -/
def losDeclare (side n : Nat) (sdLand energyLoss : Bool) (s : State) : State :=
  if sourcesLost side n sdLand energyLoss s then declareLos side n s else s

/-- LOS_CLEAR (R99): searching resumes; a retired receive lane keeps LOS (R382). -/
def losClear (side n : Nat) (sdLand energyLoss : Bool) (s : State) : State :=
  let x := seam side n s
  if x.los ∧ !laneRetired (lineRx side n) s ∧ sourcesPresent side n sdLand energyLoss s then
    s |> defects side n (fun x => { x with los := false }) |> defectEvent side n 0 false 0
  else s

/-! ### A frame in SYNC (R94 to R98, R100) -/

/-- Judge a used header for the multiframe (R97): consistent or not. -/
def mfiConsistent (x : SeamState) (mfi : Nat) (fc : BitVec 48) : Bool :=
  mfi == fc.toNat % 8 && (match x.lastMfi with
    | none => true
    | some (m, k) => mfi == (m + k + 1) % 8)

/-- The multiframe after a used header. -/
def mfStep (x : SeamState) (mfi : Nat) (fc : BitVec 48) : SeamState :=
  let ok := mfiConsistent x mfi fc
  let run := if ok then x.mfRun + 1 else 0
  let bad := if ok then 0 else x.mfBadRun + 1
  let x := { x with lastMfi := some (mfi, 0), mfRun := run, mfBadRun := bad }
  if x.mfAligned then (if 3 ≤ bad then { x with mfAligned := false, lomf := true } else x)
  else if 3 ≤ run then { x with mfAligned := true, lomf := false }
  else x

/-- A frame without a used header counts between two headers only (R97). -/
def mfSkip (x : SeamState) : SeamState := { x with lastMfi := x.lastMfi.map (fun p => (p.1, p.2 + 1)) }

/-- LOMF when alignment is not gained within 16 frames of SYNC entry (R97). -/
def mfTimeout (x : SeamState) : SeamState :=
  if !x.mfAligned ∧ x.sinceSync = 16 then { x with lomf := true } else x

/-- Events of a change of LOMF (R102). -/
def lomfEvents (side n : Nat) (was now : Bool) (s : State) : State :=
  if !was ∧ now then s |> latchDefect side n 2 |> defectEvent side n 2 true 0
  else if was ∧ !now then defectEvent side n 2 false 0 s
  else s

/-- The decoder's counts of a frame: corrected codewords, uncorrectable ones, corrected bits. -/
structure DecodeCounts where
  corr : Nat
  unc : Nat
  bits : Nat

/-- A frame's codewords decoded: the message symbols, none where uncorrectable. -/
def decodeWords (ws : List Codeword) : List (Option (List Nat × Nat)) := ws.map (fun w => rsDecode (w.map BitVec.toNat))

/-- The counts of decoded codewords. -/
def decodeCounts (ds : List (Option (List Nat × Nat))) : DecodeCounts :=
  { corr := (ds.filter (fun d => match d with | some (_, k) => k > 0 | none => false)).length,
    unc := (ds.filter (fun d => d.isNone)).length,
    bits := (ds.map (fun d => match d with | some (_, k) => k | none => 0)).sum }

/-- Count a frame's codewords (CNT_CW_CORR, CNT_CW_UNCORR, CNT_BITS_CORR). -/
def countWords (side n : Nat) (c : DecodeCounts) (s : State) : State :=
  s |> count64 (Reg.CNT_CW_CORR_LO side n) c.corr |> count64 (Reg.CNT_CW_UNCORR_LO side n) c.unc
    |> count64 (Reg.CNT_BITS_CORR_LO side n) c.bits

/-- The SD and SF windows after a frame (R100): an SD window closes with its 8,000th frame; an aligned SF window with the
frame whose flywheeled MFI, FC mod 8, is 7, another span with its eighth frame or with the frame in which alignment is
gained; no SF window is longer than eight frames. -/
def windowStep (c : DecodeCounts) (gained : Bool) (mfi : Nat) (x : SeamState) : SeamState :=
  let sdErrors := x.sdErrors + c.bits + 160 * c.unc
  let x := if x.sdFrames + 1 = 8000 then { x with sdFrames := 0, sdErrors := 0, sdClosed := x.sdClosed ++ [sdErrors] }
    else { x with sdFrames := x.sdFrames + 1, sdErrors := sdErrors }
  let corr := x.sfCorr + c.corr
  let unc := x.sfUnc + c.unc
  let close := (if x.sfAligned then mfi == 7 else gained) || x.sfFrames + 1 == 8
  if close then
    { x with sfFrames := 0, sfCorr := 0, sfUnc := 0, sfClosed := x.sfClosed ++ [(corr, unc)], sfAligned := x.mfAligned }
  else { x with sfFrames := x.sfFrames + 1, sfCorr := corr, sfUnc := unc }

/-- SD_WINDOW_END (R99, R100): a completed window declares or clears SD. -/
def sdWindowEnd (side n : Nat) (s : State) : State :=
  let x := seam side n s
  match x.sdClosed with
  | [] => s
  | e :: rest =>
    let s := s |> setReg (Reg.LINE_BER_LAST side n) (satAdd 0 e)
    let set := (reg (Reg.LINE_SD_SET side n) s).toNat
    let clr := (reg (Reg.LINE_SD_CLR side n) s).toNat
    if !x.sd ∧ e > set then
      s |> setSeam side n { x with sdClosed := rest, sd := true } |> latchDefect side n 4 |> defectEvent side n 3 true 0
    else if x.sd ∧ e ≤ clr then
      s |> setSeam side n { x with sdClosed := rest, sd := false } |> defectEvent side n 3 false 0
    else setSeam side n { x with sdClosed := rest } s

/-- SF_WINDOW_END (R99, R100, R108): a completed window declares or clears SF and gives the REI counts. -/
def sfWindowEnd (side n : Nat) (s : State) : State :=
  let x := seam side n s
  match x.sfClosed with
  | [] => s
  | (corr, unc) :: rest =>
    let rei := word (at' 16 unc + corr)
    let s := setReg (Reg.LINE_REI_LAST side n) rei s
    let thr := rfld (Reg.LINE_SF_CTRL side n) 14 0 s
    let good := if unc ≤ thr then x.sfGood + 1 else 0
    if !x.sf ∧ unc > thr then
      s |> defects side n (fun x => { x with sfClosed := rest, rei := rei, sf := true, sfGood := 0 }) |> latchDefect side n 3
        |> defectEvent side n 4 true 0 |> seamFaultPending side n
    else if x.sf ∧ rfld (Reg.LINE_SF_CTRL side n) 23 16 s ≤ good then
      s |> defects side n (fun x => { x with sfClosed := rest, rei := rei, sf := false, sfGood := good }) |> defectEvent side n 4 false 0
    else setSeam side n { x with sfClosed := rest, rei := rei, sfGood := good } s

/-- How SYNC takes a frame's header (R94, R95): `used` with its bytes, or not, with the FC taken. -/
structure HeaderTaken where
  used : Option Bytes
  fc : BitVec 48

/-- The header of a frame in SYNC (R94, R95): not valid, valid but out of sequence, or used; an out-of-sequence header
whose successor follows it is adopted and recorded. Which FC is the old one that EV_SEAM_FC_JUMP carries is left open:
DESIGN CHOICE, the flywheeled FC that this frame would have had (log entry 41). -/
def takeHeader (side n : Nat) (hdr : Option Bytes) (s : State) : State × HeaderTaken :=
  let x := seam side n s
  let next := x.fc + 1
  match hdr with
  | none =>
    (s |> count (Reg.CNT_HDR_CRC_ERR side n) |> count (Reg.CNT_SHIFT_LOST side n)
       |> setSeam side n { x with fc := next }, { used := none, fc := next })
  | some b =>
    let fc := hdrFc b
    let x := { x with heid := hdrHeid b, heRdi := hdrRdi b,
                      heidBad := (hdrHeid b).toNat != rfld (Reg.LINE_HEID_EXP side n) 15 0 s }
    if fc = next then (setSeam side n { x with fc := fc, jump := none } s, { used := some b, fc := fc })
    else if x.jump = some (fc - 1) then
      (s |> event 0x0303 ([sideSeam side n] ++ beBytes 6 next.toNat ++ beBytes 6 fc.toNat)
         |> setSeam side n { x with fc := fc, jump := none }, { used := some b, fc := fc })
    else
      (s |> count (Reg.CNT_FC_MISMATCH side n) |> count (Reg.CNT_SHIFT_LOST side n)
         |> setSeam side n { x with fc := next, jump := some fc }, { used := none, fc := next })

/-- Four consecutive valid headers with another HEID (R96). -/
def heidCheck (side n : Nat) (hdr : Option Bytes) (s : State) : State × Bool :=
  match hdr with
  | none => (s, false)
  | some b =>
    if rbit (Reg.LINE_CTRL side n) 8 s ∧ (hdrHeid b).toNat ≠ rfld (Reg.LINE_HEID_EXP side n) 15 0 s then
      let k := (seam side n s).heidRun + 1
      (s |> count (Reg.CNT_HEID_MISMATCH side n) |> modSeam side n (fun x => { x with heidRun := k }), 4 ≤ k)
    else (modSeam side n (fun x => { x with heidRun := 0 }) s, false)

/-- Whether a frame's raw sync word is bad (R92): it differs from the sync word in more than SYNC_TOL bits. -/
def syncBad (side n : Nat) (ws : List Codeword) (s : State) : Bool :=
  match ws with
  | [] => true
  | w :: _ => decide (syncDiffs (w.map BitVec.toNat) > rfld (Reg.LINE_CTRL side n) 3 0 s)

/-- The bad-sync count after a frame (R92); answers whether it is the fourth in a row. -/
def badSyncStep (side n : Nat) (bad : Bool) (s : State) : State × Bool :=
  let k := if bad then (seam side n s).badSync + 1 else 0
  (modSeam side n (fun x => { x with badSync := k }) s, 4 ≤ k)

/-- The status registers and counters of a seam at zero, with the words latched of them (R111). -/
def clearSeamRegs (side n : Nat) (s : State) : State :=
  let base := Reg.LINE_CTRL side n
  let mine := fun (a : Nat) => decide (base + 0x20 ≤ a) && decide (a < base + 0x10000)
  { s with regs := s.regs.filter (fun x => !mine x.1), latch := s.latch.filter (fun x => !mine (x.1 % 2 ^ 32)) }

/-- A side's domain comes up (R92, R111): status registers and counters start from zero, every seam enters HUNT with LOF
declared unrecorded; a retired receive lane declares LOS (R382). -/
def seamUp (side n : Nat) (s : State) : State :=
  let keep := laneRetired (lineRx side n) s
  s |> clearSeamRegs side n |> setSeam side n SeamState.reset |> defects side n (fun x => { x with align := .hunt, lof := true })
    |> latchDefect side n 1
    |> when' keep (declareLos side n)

/-- A side's domain goes down: every defect clears without events (R92). -/
def seamDown (side n : Nat) (s : State) : State :=
  s |> freePartials (seam side n s).partials |> clearSeamRegs side n |> setSeam side n SeamState.reset

end Sys2Proof.Machine
end

