-- ==== Sys2Proof/Machine/Parse.lean ====
section
/-! DEFINITION. The parser (R236 to R240): the headers of a frame, MALFORMED and PARSE_DEEP, the 80-byte rule key, and the
filling of templates (R178). Frames are without their FCS. -/
namespace Sys2Proof.Machine

/-- What the parser finds. `tunnelled` once a tunnel header was followed, `curTags` and `exts` the tags and extension
headers of the present Ethernet or IPv6 header, `mf` that L4 is the first fragment of a fragmented datagram. -/
structure Parsed where
  malformed : Bool
  deep : Bool
  hdrs : Nat
  ntags : Nat
  nlabels : Nat
  l3 : Nat
  l4 : Nat
  tunnel : Nat
  frag : Bool
  tally : Bool
  etype : Nat
  tci0 : Nat
  tci1 : Nat
  tci2 : Nat
  lse0 : Nat
  label : Nat
  tos : Nat
  proto : Nat
  tcpFlags : Nat
  sip : Nat
  dip : Nat
  sport : Nat
  dport : Nat
  tunId : Nat
  hdrEnd : Nat
  ipOff : Nat
  ipEnd : Option Nat
  udpOff : Option Nat
  curTags : Nat
  exts : Nat
  mf : Bool
  deriving DecidableEq, Repr

/-- Nothing parsed. -/
def Parsed.none : Parsed :=
  { malformed := false, deep := false, hdrs := 0, ntags := 0, nlabels := 0, l3 := 0, l4 := 0, tunnel := 0, frag := false,
    tally := false, etype := 0, tci0 := 0, tci1 := 0, tci2 := 0, lse0 := 0, label := 0, tos := 0, proto := 0,
    tcpFlags := 0, sip := 0, dip := 0, sport := 0, dport := 0, tunId := 0, hdrEnd := 0, ipOff := 0, ipEnd := .none,
    udpOff := .none, curTags := 0, exts := 0, mf := false }

/-- The header the parser meets next. -/
inductive Hdr where
  | eth | tag | mpls | ip4 | ip6 | ext (nh : Nat) | gre | udp | vxlan | tcp
  deriving DecidableEq, Repr

/-- The ports the parser knows: VXLAN and the tally protocol; `early` for a parse before the frame's end, whose length
checks are still open (R239). -/
structure ParseCfg where
  vxlan : Nat
  tally : Nat
  early : Bool

/-- One step of the parser: the headers end, or another follows at an offset. -/
inductive ParseStep where
  | done (p : Parsed)
  | more (h : Hdr) (off : Nat) (p : Parsed)

/-- The least size of a header. -/
def hdrMin (h : Hdr) : Nat :=
  match h with
  | .eth => 14
  | .tag => 4
  | .mpls => 4
  | .ip4 => 20
  | .ip6 => 40
  | .ext _ => 8
  | .gre => 4
  | .udp => 8
  | .vxlan => 8
  | .tcp => 20

/-- The size of a header at an offset, by its own length field where it has one. -/
def hdrSize (b : Bytes) (h : Hdr) (off : Nat) : Nat :=
  match h with
  | .ip4 => max 20 (4 * (beAt b off 1 % 16))
  | .ext nh => if nh = 44 then 8 else 8 * (beAt b (off + 1) 1 + 1)
  | .gre =>
    let f := beAt b off 1
    4 + 4 * (f / 128 % 2) + 4 * (f / 32 % 2) + 4 * (f / 16 % 2)
  | .tcp => max 20 (4 * (beAt b (off + 12) 1 / 16))
  | h => hdrMin h

/-- Whether a type field is a VLAN tag's (R236). -/
def isTpid (t : Nat) : Bool := t == 0x8100 || t == 0x88A8 || t == 0x9100

/-- The header an EtherType leads to; `off` is where it begins. -/
def afterType (t off : Nat) (p : Parsed) : ParseStep :=
  if isTpid t then (if p.curTags = 3 then .done { p with deep := true } else .more .tag off p)
  else if t = 0x8847 ∨ t = 0x8848 then (if p.nlabels = 4 then .done { p with deep := true } else .more .mpls off p)
  else if t = 0x0800 then .more .ip4 off p
  else if t = 0x86DD then .more .ip6 off p
  else .done p

/-- The header an IP protocol number leads to. -/
def afterProto (n off : Nat) (p : Parsed) : ParseStep :=
  let p := { p with proto := n, l4 := if n = 17 then 1 else if n = 6 then 2 else 3 }
  if n = 47 then (if p.tunnel ≠ 0 then .done { p with deep := true } else .more .gre off p)
  else if n = 17 then .more .udp off p
  else if n = 6 then .more .tcp off p
  else .done p

/-- Whether an IPv6 next header is an extension header the parser follows. -/
def isExt (n : Nat) : Bool := n == 0 || n == 43 || n == 44 || n == 60

/-- The header after an IPv6 next-header field. -/
def afterNext (n off : Nat) (p : Parsed) : ParseStep :=
  if isExt n then (if p.exts = 2 then .done { p with deep := true } else .more (.ext n) off p)
  else afterProto n off p

/-- An Ethernet header: the outer one gives ETYPE. -/
def stepEth (b : Bytes) (off : Nat) (p : Parsed) : ParseStep :=
  let t := beAt b (off + 12) 2
  let p := { p with curTags := 0, etype := if p.tunnel = 0 then t else p.etype }
  afterType t (off + 14) p

/-- A VLAN tag: its tag control, then the type field after it. -/
def stepTag (b : Bytes) (off : Nat) (p : Parsed) : ParseStep :=
  let tci := beAt b off 2
  let t := beAt b (off + 2) 2
  let outer := p.tunnel = 0
  let p := { p with curTags := p.curTags + 1,
                    ntags := if outer then p.curTags + 1 else p.ntags,
                    etype := if outer then t else p.etype,
                    tci0 := if outer ∧ p.curTags = 0 then tci else p.tci0,
                    tci1 := if outer ∧ p.curTags = 1 then tci else p.tci1,
                    tci2 := if outer ∧ p.curTags = 2 then tci else p.tci2 }
  afterType t (off + 4) p

/-- An MPLS label stack entry. -/
def stepMpls (b : Bytes) (off : Nat) (p : Parsed) : ParseStep :=
  let e := beAt b off 4
  let p := { p with lse0 := if p.nlabels = 0 then e else p.lse0, nlabels := p.nlabels + 1, label := e / 2 ^ 12 }
  if e / 2 ^ 8 % 2 = 0 then (if p.nlabels = 4 then .done { p with deep := true } else .more .mpls (off + 4) p)
  else
    let n := beAt b (off + 4) 1 / 16
    if off + 4 < b.length ∧ n = 4 then .more .ip4 (off + 4) p
    else if off + 4 < b.length ∧ n = 6 then .more .ip6 (off + 4) p
    else .done p

/-- An IPv4 header (R238). -/
def stepIp4 (c : ParseCfg) (b : Bytes) (off : Nat) (p : Parsed) : ParseStep :=
  let ihl := beAt b off 1 % 16
  let tot := beAt b (off + 2) 2
  let fo := beAt b (off + 6) 2
  let p := { p with l3 := 1, l4 := 0, sport := 0, dport := 0, tos := beAt b (off + 1) 1, proto := beAt b (off + 9) 1,
                    sip := beAt b (off + 12) 4, dip := beAt b (off + 16) 4, ipOff := off, ipEnd := some (off + tot),
                    frag := p.frag || fo % 2 ^ 14 != 0, mf := fo / 2 ^ 13 % 2 == 1 }
  if ihl < 5 ∨ tot < 4 * ihl ∨ (!c.early ∧ tot > b.length - off) then .done { p with malformed := true }
  else if fo % 2 ^ 13 ≠ 0 then .done p
  else afterProto (beAt b (off + 9) 1) (off + 4 * ihl) p

/-- An IPv6 header (R238). -/
def stepIp6 (c : ParseCfg) (b : Bytes) (off : Nat) (p : Parsed) : ParseStep :=
  let plen := beAt b (off + 4) 2
  let rem := b.length - off
  let p := { p with l3 := 2, l4 := 0, sport := 0, dport := 0, exts := 0, tos := beAt b off 2 / 16 % 256,
                    proto := beAt b (off + 6) 1, sip := beAt b (off + 8) 16, dip := beAt b (off + 24) 16, ipOff := off,
                    ipEnd := some (off + 40 + plen), mf := false }
  if plen = 0 ∨ (!c.early ∧ (plen + 40 > rem ∨ (plen + 40 < rem ∧ b.length > 60))) then .done { p with malformed := true }
  else afterNext (beAt b (off + 6) 1) (off + 40) p

/-- An IPv6 extension header. -/
def stepExt (b : Bytes) (nh off : Nat) (p : Parsed) : ParseStep :=
  let n := beAt b off 1
  let fo := beAt b (off + 2) 2
  let p := { p with exts := p.exts + 1, proto := n }
  if nh = 44 then
    let p := { p with frag := true, mf := fo % 2 == 1 }
    if fo / 8 ≠ 0 then .done p else afterNext n (off + 8) p
  else afterNext n (off + hdrSize b (.ext nh) off) p

/-- A GRE header (RFC 2890). -/
def stepGre (b : Bytes) (off : Nat) (p : Parsed) : ParseStep :=
  let f := beAt b off 1
  let keyOff := off + 4 + 4 * (f / 128 % 2)
  let p := { p with tunnel := 1, tunId := if f / 32 % 2 = 1 then beAt b keyOff 4 % 2 ^ 24 else 0 }
  let t := beAt b (off + 2) 2
  let next := off + hdrSize b .gre off
  if t = 0x0800 then .more .ip4 next p
  else if t = 0x86DD then .more .ip6 next p
  else if t = 0x6558 then .more .eth next p
  else .done p

/-- A UDP header (R238): then VXLAN, or a tally protocol header. -/
def stepUdp (c : ParseCfg) (b : Bytes) (off : Nat) (p : Parsed) : ParseStep :=
  let len := beAt b (off + 4) 2
  let dport := beAt b (off + 2) 2
  let p := { p with sport := beAt b off 2, dport := dport, udpOff := some off, tally := p.tally || dport == c.tally }
  let room := match p.ipEnd with
    | some e => e - off
    | none => b.length - off
  if len < 8 ∨ (len > room ∧ !p.mf) then .done { p with malformed := true }
  else if dport = c.vxlan ∧ beAt b (off + 8) 1 / 8 % 2 = 1 ∧ off + 8 < b.length then
    (if p.tunnel ≠ 0 then .done { p with deep := true } else .more .vxlan (off + 8) p)
  else .done p

/-- A TCP header (R238). -/
def stepTcp (b : Bytes) (off : Nat) (p : Parsed) : ParseStep :=
  let p := { p with sport := beAt b off 2, dport := beAt b (off + 2) 2, tcpFlags := beAt b (off + 13) 1 }
  if beAt b (off + 12) 1 / 16 < 5 then .done { p with malformed := true } else .done p

/-- Follow one header. -/
def stepHdr (c : ParseCfg) (b : Bytes) (h : Hdr) (off : Nat) (p : Parsed) : ParseStep :=
  match h with
  | .eth => stepEth b off p
  | .tag => stepTag b off p
  | .mpls => stepMpls b off p
  | .ip4 => stepIp4 c b off p
  | .ip6 => stepIp6 c b off p
  | .ext nh => stepExt b nh off p
  | .gre => stepGre b off p
  | .udp => stepUdp c b off p
  | .vxlan => .more .eth (off + 8) { p with tunnel := 2, tunId := beAt b (off + 4) 3 }
  | .tcp => stepTcp b off p

/-- Meet a header: PARSE_DEEP when it would be the seventeenth or does not end within 256 bytes (R237), MALFORMED when it
extends beyond F (R238), otherwise followed. -/
def meetHdr (c : ParseCfg) (b : Bytes) (h : Hdr) (off : Nat) (p : Parsed) : ParseStep :=
  if p.hdrs = 16 ∨ off + hdrMin h > 256 then .done { p with deep := true }
  else if off + hdrMin h > b.length then .done { p with malformed := true }
  else
    let e := off + hdrSize b h off
    if e > 256 then .done { p with deep := true }
    else if e > b.length then .done { p with malformed := true }
    else stepHdr c b h off { p with hdrs := p.hdrs + 1, hdrEnd := e }

/-- Parse from a header on. -/
def parseFrom (c : ParseCfg) (b : Bytes) : Nat → Hdr → Nat → Parsed → Parsed
  | 0, _, _, p => { p with deep := true }
  | n + 1, h, off, p =>
    match meetHdr c b h off p with
    | .done p => p
    | .more h off p => parseFrom c b n h off p

/-- The parse of a frame (R236 to R238). -/
def parse (c : ParseCfg) (b : Bytes) : Parsed := parseFrom c b 18 .eth 0 Parsed.none

/-- The window's first byte and the byte after its last, before WIN_LEN (R248). -/
def windowBounds (b : Bytes) (p : Parsed) : Nat × Nat := (p.hdrEnd, min b.length (p.ipEnd.getD b.length))

/-- The rule key of R240. -/
def ruleKey (b : Bytes) (p : Parsed) (line : Bool) (src : Nat) (pattern : BitVec 64) : BitVec 640 :=
  BitVec.ofNat 640 (beNat (
    beBytes 1 (b2n line * 128 + b2n p.deep * 64 + p.ntags * 16 + p.nlabels * 2)
    ++ beBytes 1 (p.l3 * 64 + p.l4 * 16 + p.tunnel * 4 + b2n p.frag * 2 + b2n p.tally)
    ++ beBytes 2 src ++ slice (b ++ zeros 12) 0 12 ++ beBytes 2 p.etype ++ beBytes 2 p.tci0 ++ beBytes 2 p.tci1
    ++ beBytes 2 p.tci2 ++ beBytes 4 p.lse0 ++ beBytes 1 p.tos ++ beBytes 1 p.proto ++ beBytes 1 p.tcpFlags ++ [0]
    ++ beBytes 16 p.sip ++ beBytes 16 p.dip ++ beBytes 2 p.sport ++ beBytes 2 p.dport ++ beBytes 3 p.tunId ++ [0]
    ++ beBytes 8 pattern.toNat))

/-! ### Frames and checks -/

/-- The FCS of IEEE 802.3: CRC-32, sent least significant byte first. -/
def fcsOf (b : Bytes) : Bytes :=
  (beBytes 4 (reflect 32 (crcBits 32 0x04C11DB7 0xFFFFFFFF (b.flatMap byteBitsLsb)) ^^^ 0xFFFFFFFF)).reverse

/-- An FCS inverted (R342). -/
def invert (b : Bytes) : Bytes := b.map (fun x => ~~~ x)

/-- L of a frame without FCS (R275): padded to 64. -/
def frameL (b : Bytes) : Nat := max 64 (b.length + 4)

/-- A frame padded so that its L is at least 64 (R344). -/
def padFrame (b : Bytes) : Bytes := b ++ zeros (60 - b.length)

/-- Whether an address is a group address. -/
def isGroup (addr : Nat) : Bool := addr / 2 ^ 40 % 2 == 1

/-! ### Templates (R178) -/

/-- The one's complement sum of 16-bit words. -/
def onesSum : Bytes → Nat
  | a :: b :: t => let n := a.toNat * 256 + b.toNat + onesSum t; n % 65536 + n / 65536
  | [a] => a.toNat * 256
  | [] => 0

/-- The Internet checksum of a byte string. -/
def inetChecksum (b : Bytes) : Nat :=
  let n := onesSum b
  65535 - (n % 65536 + n / 65536) % 65536

/-- Replace bytes from an offset on. -/
def putBytes (b : Bytes) (off : Nat) (x : Bytes) : Bytes := b.take off ++ x ++ b.drop (off + x.length)

/-- Where a template holds its IP header (and whether it is IPv6) and its UDP header; the tags, label entries and extension
headers read so far. -/
structure TplLayout where
  ip : Option (Nat × Bool)
  udp : Option Nat
  tags : Nat
  labels : Nat
  exts : Nat

/-- The headers of a template, read as the parser reads a frame (R236), within its limits, through tags and label entries. -/
def tplWalk (b : Bytes) : Nat → Hdr → Nat → TplLayout → TplLayout
  | 0, _, _, l => l
  | n + 1, h, off, l =>
    if off + hdrSize b h off > b.length then l
    else
      let byType := fun (t off : Nat) (l : TplLayout) =>
        if isTpid t then (if l.tags = 3 then l else tplWalk b n .tag off l)
        else if t = 0x8847 ∨ t = 0x8848 then tplWalk b n .mpls off l
        else if t = 0x0800 then tplWalk b n .ip4 off l
        else if t = 0x86DD then tplWalk b n .ip6 off l
        else l
      let byProto := fun (p off : Nat) (l : TplLayout) =>
        if isExt p then (if l.exts = 2 then l else tplWalk b n (.ext p) off l)
        else if p = 17 then tplWalk b n .udp off l else l
      match h with
      | .eth => byType (beAt b (off + 12) 2) (off + 14) l
      | .tag => byType (beAt b (off + 2) 2) (off + 4) { l with tags := l.tags + 1 }
      | .mpls =>
        let l := { l with labels := l.labels + 1 }
        if beAt b off 4 / 256 % 2 = 0 then (if l.labels = 4 then l else tplWalk b n .mpls (off + 4) l)
        else if beAt b (off + 4) 1 / 16 = 4 then tplWalk b n .ip4 (off + 4) l
        else if beAt b (off + 4) 1 / 16 = 6 then tplWalk b n .ip6 (off + 4) l
        else l
      | .ip4 =>
        let l := { l with ip := some (off, false) }
        if beAt b (off + 6) 2 % 2 ^ 13 = 0 ∧ beAt b (off + 9) 1 = 17 then tplWalk b n .udp (off + hdrSize b .ip4 off) l else l
      | .ip6 => byProto (beAt b (off + 6) 1) (off + 40) { l with ip := some (off, true) }
      | .ext nh =>
        if nh = 44 ∧ beAt b (off + 2) 2 / 8 ≠ 0 then l
        else byProto (beAt b off 1) (off + hdrSize b (.ext nh) off) { l with exts := l.exts + 1 }
      | .udp => { l with udp := some off }
      | _ => l

/-- The layout of a template. -/
def tplLayout (t : Bytes) : TplLayout := tplWalk t 20 .eth 0 { ip := none, udp := none, tags := 0, labels := 0, exts := 0 }

/-- Fill the UDP length and checksum of a frame. -/
def fillUdp (f : Bytes) (ip : Option (Nat × Bool)) (off : Nat) : Bytes :=
  let len := f.length - off
  let f := putBytes (putBytes f (off + 4) (beBytes 2 len)) (off + 6) [0, 0]
  match ip with
  | some (i, true) =>
    let c := inetChecksum (slice f (i + 8) 32 ++ beBytes 4 len ++ [0, 0, 0, 17] ++ f.drop off)
    putBytes f (off + 6) (beBytes 2 (if c = 0 then 65535 else c))
  | _ => f

/-- Fill the length and checksum of a frame's IP header. -/
def fillIp (f : Bytes) (i : Nat) (v6 : Bool) : Bytes :=
  if v6 then putBytes f (i + 4) (beBytes 2 (f.length - i - 40))
  else
    let f := putBytes (putBytes f (i + 2) (beBytes 2 (f.length - i))) (i + 10) [0, 0]
    putBytes f (i + 10) (beBytes 2 (inetChecksum (slice f i (hdrSize f .ip4 i))))

/-- A frame built from a template and what follows it, its length and checksum fields filled (R178). -/
def fillTemplate (tpl body : Bytes) : Bytes :=
  let l := tplLayout tpl
  let f := tpl ++ body
  let f := match l.ip with
    | some (i, v6) => fillIp f i v6
    | none => f
  match l.udp with
  | some u => fillUdp f l.ip u
  | none => f

end Sys2Proof.Machine
end

