-- ==== Sys2Proof/Machine/Sched.lean ====
section
/-! DEFINITION. Queues, scheduling, shaping, pausing, gates and policers (R269 to R299), and what a failed package takes from
the queues (R321). -/
namespace Sys2Proof.Machine

/-! ### Ports -/

/-- A local port. -/
def port (p : Nat) (s : State) : PortState := tget (fun _ => PortState.reset) s.ports p

/-- Put a local port. -/
def setPort (p : Nat) (x : PortState) (s : State) : State :=
  { s with ports := tput (fun _ => PortState.reset) p x s.ports }

/-- Change a local port. -/
def modPort (p : Nat) (f : PortState → PortState) (s : State) : State := setPort p (f (port p s)) s

/-- The MAC rate of a mode in Gb/s, which is bits per nanosecond (R336). -/
def modeRate (m : Nat) : Nat := if m = 1 then 1 else if m = 2 then 10 else if m = 3 then 25 else if m = 4 then 100 else 0

/-- The rate of a port in the mode in force. -/
def portRate (p : Nat) (s : State) : Nat := modeRate (port p s).mode

/-- The nanoseconds that `n` bits take at a rate, rounded up. -/
def bitsNs (n rate : Nat) : Nat := if rate = 0 then 0 else (n + rate - 1) / rate

/-- Whether the block of a port is shed (R304). -/
def portShed (p : Nat) (s : State) : Bool := s.pwr.shedBlocks.getLsbD (p / 4)

/-- Queue `q` of a scheduler. -/
def queueOf (x : PortSched) (q : Nat) : PortQueue := tget (fun _ => PortQueue.reset) x.queues q

/-- Put queue `q` of a scheduler. -/
def putQueue (x : PortSched) (q : Nat) (y : PortQueue) : PortSched :=
  { x with queues := tput (fun _ => PortQueue.reset) q y x.queues }

/-- Queue `q` of port `p`. -/
def queue (p q : Nat) (s : State) : PortQueue := queueOf (sched p s) q

/-- Put queue `q` of port `p`. -/
def setQueue (p q : Nat) (y : PortQueue) (s : State) : State := setSched p (putQueue (sched p s) q y) s

/-- Whether queue `q` is strict where `n` queues are (R271). -/
def isStrict (n q : Nat) : Bool := decide (8 ≤ q + n)

/-! ### Lengths and depths (R275, R279) -/

/-- The cells of a frame (R279). -/
def frameCells (f : QFrame) : Nat := (frameL f.bytes + 255) / 256

/-- The depth of a queue in cells, on-die and in DRAM. -/
def queueCells (fs : List QFrame) : Nat := (fs.map frameCells).sum

/-- The bytes (L) of frames. -/
def queueBytes (fs : List QFrame) : Nat := (fs.map (fun f => frameL f.bytes)).sum

/-- The on-die bytes of frames. -/
def onDieBytes (fs : List QFrame) : Nat := queueBytes (fs.filter (fun f => f.dram.isNone))

/-- The size on the line of a frame, protected (R299, R430): F + 24. -/
def lineSize (f : QFrame) : Nat := f.bytes.length + 24

/-! ### Shapers (R285 to R287) -/

/-- Units of a credit: 10^-6 of 1/256 byte. -/
def creditUnits (bytes : Nat) : Int := (bytes : Int) * 256 * 10 ^ 6

/-- A credit as of now: it rises at RATE / 8 bytes per millisecond up to BURST while RATE is above 0. -/
def creditNow (c : Credit) (rate burst now : Nat) : Credit :=
  if rate = 0 then { c with cycle := max c.cycle now }
  else { amount := min (creditUnits burst) (c.amount + (rate * 32 * (now - c.cycle) : Nat)), cycle := max c.cycle now }

/-- Whether a port's shaper is enabled, its RATE and its BURST. -/
def portShapes (p : Nat) (s : State) : Bool := rbit (Reg.SCHED_PORT_BURST p) 31 s
def portShapeRate (p : Nat) (s : State) : Nat := (reg (Reg.SCHED_PORT_RATE p) s).toNat
def portBurst (p : Nat) (s : State) : Nat := rfld (Reg.SCHED_PORT_BURST p) 23 0 s

/-- Whether a queue's shaper is enabled, its RATE and its BURST. -/
def queueShapes (p q : Nat) (s : State) : Bool := rbit (Reg.SCHED_Q_BURST p q) 31 s
def queueShapeRate (p q : Nat) (s : State) : Nat := (reg (Reg.SCHED_Q_RATE p q) s).toNat
def queueBurst (p q : Nat) (s : State) : Nat := rfld (Reg.SCHED_Q_BURST p q) 23 0 s

/-- A port's credit now; a shaper whose SHAPE_EN is 0 tracks nothing (R285, R287). -/
def portCredit (p : Nat) (s : State) : Credit :=
  if portShapes p s then creditNow (sched p s).credit (portShapeRate p s) (portBurst p s) s.cycle else (sched p s).credit

/-- A queue's credit now. -/
def queueCredit (p q : Nat) (s : State) : Credit :=
  if queueShapes p q s then creditNow (queue p q s).credit (queueShapeRate p q s) (queueBurst p q s) s.cycle
  else (queue p q s).credit

/-- Bring a port's credit up to now. -/
def settlePortCredit (p : Nat) (s : State) : State :=
  if portShapes p s then modSched p (fun x => { x with credit := portCredit p s }) s else s

/-- Bring a queue's credit up to now. -/
def settleQueueCredit (p q : Nat) (s : State) : State :=
  if queueShapes p q s then setQueue p q { queue p q s with credit := queueCredit p q s } s else s

/-- Whether the shapers let a queue send (R273, R287). -/
def shapersAllow (p q : Nat) (s : State) : Bool :=
  (!portShapes p s || (portShapeRate p s != 0 && decide (0 ≤ (portCredit p s).amount)))
    && (!queueShapes p q s || (queueShapeRate p q s != 0 && decide (0 ≤ (queueCredit p q s).amount)))

/-- Draw L from a port's credit; a frozen port's credit stands still (R287). -/
def drawPort (p l : Nat) (s : State) : State :=
  if portShapes p s ∧ portShapeRate p s ≠ 0 then
    let c := portCredit p s
    modSched p (fun x => { x with credit := { c with amount := c.amount - creditUnits l } }) s
  else s

/-- Draw L from a queue's credit. -/
def drawQueue (p q l : Nat) (s : State) : State :=
  if queueShapes p q s then
    let c := queueCredit p q s
    setQueue p q { queue p q s with credit := { c with amount := c.amount - creditUnits l } } s
  else s

/-- A write of a shaper's BURST register: BURST 0 is ignored, SHAPE_EN set from 0 fills the bucket, a smaller BURST cuts
a credit above it (R285, R286). `old` is the register before. -/
def burstWrite (old v : Word) (c : Credit) (now : Nat) : Word × Credit :=
  let b := if fld v 23 0 = 0 then fld old 23 0 else fld v 23 0
  let c := if bitOf v 31 ∧ !bitOf old 31 then { amount := creditUnits b, cycle := now }
    else { c with amount := min c.amount (creditUnits b) }
  (word (at' 31 (b2n (bitOf v 31)) + b), c)

/-- A write of SCHED_PORT_BURST. -/
def portBurstWrite (p : Nat) (v : Word) (s : State) : State :=
  let s := settlePortCredit p s
  let (w, c) := burstWrite (reg (Reg.SCHED_PORT_BURST p) s) v (sched p s).credit s.cycle
  s |> setReg (Reg.SCHED_PORT_BURST p) w |> modSched p (fun x => { x with credit := c })

/-- A write of SCHED_Q_BURST. -/
def queueBurstWrite (p q : Nat) (v : Word) (s : State) : State :=
  let s := settleQueueCredit p q s
  let (w, c) := burstWrite (reg (Reg.SCHED_Q_BURST p q) s) v (queue p q s).credit s.cycle
  s |> setReg (Reg.SCHED_Q_BURST p q) w |> (fun s => setQueue p q { queue p q s with credit := c } s)

/-- A write of a shaper's RATE: the credit so far is earned at the old rate, a debt is repaid at the new one (R286). -/
def portRateWrite (p : Nat) (v : Word) (s : State) : State := s |> settlePortCredit p |> setReg (Reg.SCHED_PORT_RATE p) v
def queueRateWrite (p q : Nat) (v : Word) (s : State) : State :=
  s |> settleQueueCredit p q |> setReg (Reg.SCHED_Q_RATE p q) v

/-! ### Pausing (R293 to R296) -/

/-- Whether a queue of a port is paused. -/
def queuePaused (p q : Nat) (s : State) : Bool := decide (s.cycle < (queue p q s).pausedTo)

/-- Whether the lanes of a port are paused. -/
def lanesPaused (p : Nat) (s : State) : Bool := decide (s.cycle < (sched p s).lanesPausedTo)

/-- Stop queue `q` until a cycle. -/
def pauseQueue (p q till : Nat) (s : State) : State := setQueue p q { queue p q s with pausedTo := till } s

/-- Stop the lanes until a cycle. -/
def pauseLanes (p till : Nat) (s : State) : State := modSched p (fun x => { x with lanesPausedTo := till }) s

/-- The cycle a pause of `t` units of 512 bit times ends at. -/
def pauseEnd (p t : Nat) (s : State) : Nat := s.cycle + bitsNs (512 * t) (portRate p s)

/-- PAUSE (R293, R295). -/
def pauseRx (p t : Nat) (s : State) : State :=
  let cfg := reg (Reg.SCHED_PORT_CFG p) s
  if !bitOf cfg 30 then count (Reg.CNT_SCHED_PAUSE_IGN p) s
  else if bitOf cfg 29 then s
  else
    let e := pauseEnd p t s
    s |> count (Reg.CNT_SCHED_PAUSE_RX p) |> pauseLanes p e |> each (List.range 8) (fun q s => pauseQueue p q e s)

/-- PFC (R294, R295). -/
def pfcRx (p : Nat) (enable : BitVec 8) (times : List (BitVec 16)) (s : State) : State :=
  let cfg := reg (Reg.SCHED_PORT_CFG p) s
  if !bitOf cfg 29 then count (Reg.CNT_SCHED_PAUSE_IGN p) s
  else
    s |> count (Reg.CNT_SCHED_PFC_RX p)
      |> each ((List.range 8).filter (fun q => enable.getLsbD q)) (fun q s =>
        let e := pauseEnd p (times.getD q 0).toNat s
        s |> pauseQueue p q e |> when' (fld cfg 18 16 == q) (pauseLanes p e))

/-- PAUSE_EXPIRY (R293): the queues or lanes become eligible again. -/
def pauseExpiry (p : Nat) (pri : Option Nat) (s : State) : State :=
  match pri with
  | none => s |> pauseLanes p 0 |> each (List.range 8) (fun q s => pauseQueue p q 0 s)
  | some q => s |> pauseQueue p q 0 |> when' (rfld (Reg.SCHED_PORT_CFG p) 18 16 s == q) (pauseLanes p 0)

/-! ### Gates (R288 to R292) -/

/-- The time a list's counter shows, in nanoseconds. -/
def gateClock (g : GateList) (s : State) : Int := g.setTime + ((s.cycle : Int) - g.setCycle)

/-- The position of a list's counter. -/
def gatePos (g : GateList) (s : State) : Nat := ((gateClock g s - g.startNs) % (max 1 g.cycleNs : Nat)).toNat

/-- The entries as spans (end position, GATES), cut at the cycle's end; the last one holds until it. -/
def gateSpans (cycle : Nat) : List (Nat × Nat) → Nat → List (Nat × Nat)
  | [], _ => []
  | [(g, _)], _ => [(cycle, g)]
  | (g, n) :: rest, at0 =>
    if cycle ≤ at0 + n then [(cycle, g)] else (at0 + n, g) :: gateSpans cycle rest (at0 + n)

/-- How long gate `q` stays open from a position, counted up to `need`, across entries and the cycle wrap. -/
def openFor (spans : List (Nat × Nat)) (cycle q need : Nat) : Nat → Nat → Nat → Nat
  | 0, _, acc => acc
  | n + 1, pos, acc =>
    if need ≤ acc then acc
    else match spans.find? (fun x => decide (pos < x.1)) with
      | some (e, g) => if g / 2 ^ q % 2 = 1 then openFor spans cycle q need n (e % cycle) (acc + (e - pos)) else acc
      | none => acc

/-- Whether gate `q` of a list stays open for `need` nanoseconds. -/
def gateOpenFor (g : GateList) (q need : Nat) (s : State) : Bool :=
  let spans := gateSpans g.cycleNs g.entries 0
  decide (need ≤ openFor spans (max 1 g.cycleNs) q need (spans.length * (need / (max 1 g.cycleNs) + 2)) (gatePos g s) 0)

/-- The gate check of a frame of length `l` (R288). -/
def gateAllows (p q l : Nat) (s : State) : Bool :=
  if rbit (Reg.SCHED_PORT_CFG p) 31 s then
    match (sched p s).oper with
    | some g => gateOpenFor g q (bitsNs ((l + 20) * 8) (portRate p s)) s
    | none => true
  else true

/-- An entry of a port's administrative list: (GATES, INTERVAL). -/
def adminEntry (p e : Nat) (s : State) : Nat × Nat := tget (fun _ => (0, 0)) s.sched.admin (256 * p + e)

/-- Write an entry of a port's administrative list. -/
def setAdminEntry (p e : Nat) (x : Nat × Nat) (s : State) : State :=
  { s with sched := { s.sched with admin := tput (fun _ => (0, 0)) (256 * p + e) x s.sched.admin } }

/-- GCL_WRITE (R289): the entry INDEX of PORT from SCHED_GCL_DATA. -/
def gclWrite (v : Word) (s : State) : State :=
  s |> setReg Reg.SCHED_GCL_CMD (v &&& 0x1FFFF)
    |> setAdminEntry (fld v 16 8) (fld v 7 0) (rfld Reg.SCHED_GCL_DATA1 7 0 s, (reg Reg.SCHED_GCL_DATA0 s).toNat)

/-- GCL_READ (R289). -/
def gclRead (v : Word) (s : State) : State :=
  let (g, n) := adminEntry (fld v 16 8) (fld v 7 0) s
  s |> setReg Reg.SCHED_GCL_CMD (v &&& 0x1FFFF) |> setReg Reg.SCHED_GCL_DATA0 (word n) |> setReg Reg.SCHED_GCL_DATA1 (word g)

/-- The base B a port's registers give, in nanoseconds. -/
def gateBase (p : Nat) (s : State) : Nat :=
  ((reg (Reg.SCHED_GATE_BASE_SEC_HI p) s).toNat * 2 ^ 32 + (reg (Reg.SCHED_GATE_BASE_SEC_LO p) s).toNat) * 10 ^ 9
    + (reg (Reg.SCHED_GATE_BASE_NS p) s).toNat

/-- The refusal of a commit, as SCHED_GATE_CTRL.ERR: 0 none (R289). -/
def commitErr (p n : Nat) (s : State) : Nat :=
  let cycle := (reg (Reg.SCHED_GATE_CYCLE p) s).toNat
  let badInterval := (List.range n).any (fun e =>
    let i := (adminEntry p e s).2
    decide (i < 8) || decide (10 ^ 9 < i))
  if cycle = 0 then 1 else if cycle < 1000 ∨ 10 ^ 9 < cycle then 2 else if n < 1 ∨ 256 < n then 3
  else if badInterval then 4 else 0

/-- The start S of a list committed at `now` with base B (R291). -/
def gateStart (b cycle now : Nat) : Nat :=
  if now + 250000 ≤ b then b else b + (now + 250000 - b + cycle - 1) / cycle * cycle

/-- Seconds and nanoseconds of a time, as 12 bytes. -/
def secNs (t : Nat) : Bytes := beBytes 8 (t / 10 ^ 9) ++ beBytes 4 (t % 10 ^ 9)

/-- An accepted commit (R291). -/
def acceptCommit (p n : Nat) (s : State) : State :=
  let cycle := (reg (Reg.SCHED_GATE_CYCLE p) s).toNat
  let b := gateBase p s
  let now := timeInNs s
  let st := gateStart b cycle now
  let g : GateList := { entries := (List.range n).map (fun e => adminEntry p e s), cycleNs := cycle, startNs := st,
                        setTime := 0, setCycle := 0 }
  let s := modSched p (fun x => { x with pend := some g, gateErr := 0 }) s
  if now + 250000 ≤ b then s else event 0x0802 (beBytes 2 p ++ secNs b ++ secNs st) s

/-- A write of SCHED_GATE_CTRL: COUNT, and a commit where COMMIT is 1 (R289). -/
def gateCommit (p : Nat) (v : Word) (s : State) : State :=
  let s := setReg (Reg.SCHED_GATE_CTRL p) (v &&& 0x1FF) s
  if bitOf v 31 then
    let e := commitErr p (fld v 8 0) s
    if e = 0 then acceptCommit p (fld v 8 0) s
    else s |> modSched p (fun x => { x with gateErr := e }) |> event 0x0801 (beBytes 2 p ++ [BitVec.ofNat 8 e])
  else s

/-- GATE_LIST_START (R291): the pending list replaces the operating one; a frame in flight that then overruns a closed
gate is counted. -/
def gateListStart (p : Nat) (s : State) : State :=
  let x := sched p s
  match x.pend with
  | none => s
  | some g =>
    let g := { g with setTime := (timeInNs s : Int), setCycle := s.cycle }
    let s' := setSched p { x with oper := some g, pend := none, gateFix := false, gateLate := false } s
    match x.flight with
    | some (q, e) =>
      if s.cycle < e ∧ rbit (Reg.SCHED_PORT_CFG p) 31 s ∧ !gateOpenFor g q (e - s.cycle) s then
        count (Reg.CNT_SCHED_GATE_OVERRUN p) s'
      else s'
    | none => s'

/-- Whether a list's counter is more than 8 ns off (R292). -/
def gateOff (g : GateList) (s : State) : Bool :=
  let c := max 1 g.cycleNs
  let d := ((gateClock g s - timeInNs s) % (c : Int)).toNat
  decide (8 < min d (c - d))

/-- GATE_CHECK (R292): a list whose counter is more than 8 ns off is corrected at the next frame boundary; where the check
was late, from the next tick on (R24). -/
def gateCheck (late : Bool) (s : State) : State :=
  each s.sched.ports (fun e s =>
    match e.2.oper with
    | some g =>
      if gateOff g s then modSched e.1 (fun x => if late then { x with gateLate := true } else { x with gateFix := true }) s else s
    | none => s) s

/-- What a late check has found is due for correction (R24). -/
def gateLateDue (s : State) : State :=
  each s.sched.ports (fun e s =>
    if e.2.gateLate then modSched e.1 (fun x => { x with gateFix := true, gateLate := false }) s else s) s

/-- The correction at a frame boundary (R292). -/
def gateCorrect (p : Nat) (s : State) : State :=
  let x := sched p s
  match x.gateFix, x.oper with
  | true, some g =>
    s |> setSched p { x with gateFix := false, oper := some { g with setTime := (timeInNs s : Int), setCycle := s.cycle } }
      |> count (Reg.CNT_SCHED_GATE_CORR p)
  | _, _ => s

/-! ### Weighted caps (R302) -/

/-- A cap for the tick: none while PHI is 1,024. -/
def capOf (phi demand excess : Nat) : Option Nat := if 1024 ≤ phi then none else some ((phi * demand + 1023) / 1024 - excess)

/-- The weighted cap of a port. -/
def portCap (p : Nat) (s : State) : Option Nat := capOf s.sched.phi (sched p s).capDemand (sched p s).capOver

/-- Whether weighted bytes sent leave the cap unspent. -/
def capLeft (cap : Option Nat) (sent : Nat) : Bool :=
  match cap with
  | none => true
  | some c => decide (sent < c)

/-! ### Freeing what a frame holds -/

/-- Free a frame's tubs, on-die and in DRAM; `agent` holds the on-die ones. -/
def freeFrame (agent : Nat) (f : QFrame) (s : State) : State :=
  let s := freeTubsOf agent f.tubs s
  match f.dram with
  | some h => tubFree 11 h false s
  | none => s

/-- Free the tubs of frames. -/
def freeFrames (agent : Nat) (fs : List QFrame) (s : State) : State := each fs (freeFrame agent) s

/-! ### Transmission (R272, R342, R344, R362) -/

/-- PORT_CFG.MAX_FRAME. -/
def maxFrame (p : Nat) (s : State) : Nat := rfld (Reg.PORT_CFG p) 13 0 s

/-- What goes on the wire for a frame, and whether with a bad FCS: an oversize frame ends at the MAX_FRAME-th byte with
the inverted CRC of the bytes before (R342, R344). -/
def wireFrame (p : Nat) (f : QFrame) (s : State) : Bytes × Bool :=
  let b := padFrame f.bytes
  let m := maxFrame p s
  if b.length + 4 > m then
    let t := b.take (m - 4)
    (t ++ invert (fcsOf t), true)
  else if f.bad then (b ++ invert (fcsOf b), true)
  else (b ++ fcsOf b, false)

/-- The transmit size counter of a length. -/
def txSizeReg (p l : Nat) : Nat :=
  if l ≤ 64 then Reg.CNT_PORT_TX_64_LO p else if l ≤ 127 then Reg.CNT_PORT_TX_65_127_LO p
  else if l ≤ 255 then Reg.CNT_PORT_TX_128_255_LO p else if l ≤ 511 then Reg.CNT_PORT_TX_256_511_LO p
  else if l ≤ 1023 then Reg.CNT_PORT_TX_512_1023_LO p else if l ≤ 1518 then Reg.CNT_PORT_TX_1024_1518_LO p
  else Reg.CNT_PORT_TX_1519_MAX_LO p

/-- The transmit address counter of a destination. -/
def txAddrReg (p da : Nat) : Nat :=
  if da = 2 ^ 48 - 1 then Reg.CNT_PORT_TX_BCAST_LO p else if isGroup da then Reg.CNT_PORT_TX_MCAST_LO p
  else Reg.CNT_PORT_TX_UCAST_LO p

/-- Count a frame of `l` bytes sent to `da` (R362). -/
def countTxOf (p da l : Nat) (s : State) : State :=
  s |> count64 (Reg.CNT_PORT_TX_OCTETS_LO p) l |> count64 (Reg.CNT_PORT_TX_FRAMES_LO p) 1
    |> count64 (txAddrReg p da) 1 |> count64 (txSizeReg p l) 1

/-- Count a frame sent, bad FCS included (R362). -/
def countTx (p : Nat) (b : Bytes) (bad : Bool) (s : State) : State :=
  s |> countTxOf p (beAt b 0 6) b.length |> when' bad (count64 (Reg.CNT_PORT_TX_BAD_FCS_LO p) 1)

/-- The wire bytes of a frame with its preamble and gap: at least 12 bytes, extended to a 4-byte boundary in modes 2 and
3 and to an 8-byte boundary in mode 4 (R344). -/
def wireBytes (mode l : Nat) : Nat :=
  let n := l + 20
  if mode = 4 then (n + 7) / 8 * 8 else if mode = 1 then n else (n + 3) / 4 * 4

/-- LANE_CFG.LOOP that holds for a port. -/
def portLoop (p : Nat) (s : State) : Nat := rfld (Reg.LANE_CFG p) 2 0 s

/-- Put a frame on the wire; under a loopback it returns to the port's receiver, or is discarded and counted (R377). -/
def putOnWire (p : Nat) (b : Bytes) (bad : Bool) (s : State) : State :=
  let l := portLoop p s
  if l = 3 then count (Reg.CNT_LANE_LOOP_DROP p) s
  else
    let s := countTx p b bad s
    if l = 1 ∨ l = 2 then { s with looped := s.looped ++ [(p, b)] } else emit (.portFrame p b) s

/-- An LED period in which the port moved a frame (R554). -/
def noteActivity (p : Nat) (s : State) : State :=
  { s with land := { s.land with ledActivity := s.land.ledActivity ||| BitVec.ofNat 512 (2 ^ p) } }

/-- Whether a port sends what the supervisor gives it: up, no fault signalled, and not in a dip episode (R346 to R348). -/
def supMaySend (p : Nat) (s : State) : Bool :=
  (port p s).link && !(port p s).locFault && !(port p s).remFault && !inDip s

/-- A group-addressed frame of `l` bytes of the supervisor leaves a port: counted as any frame sent (R362); under LOOP 3 it is
discarded and counted, under LOOP 1 and 2 it goes to the port's own receiver only, where a row of its own brings it (R377). -/
def supSends (p l : Nat) (o : Output) (s : State) : State :=
  let k := portLoop p s
  if k = 3 then count (Reg.CNT_LANE_LOOP_DROP p) s
  else s |> countTxOf p (2 ^ 40) l |> noteActivity p |> when' (k != 1 && k != 2) (emit o)

/-- The transmit stamp of a frame that leaves now: TX_ADJ added (R359). -/
def txStamp (p : Nat) (s : State) : Int := stampNow s + psUnits (signed 16 (rfld (Reg.PORT_TS_ADJ p) 15 0 s))

/-- The receive stamp of a frame that arrives now, in units of 2^-16 ns: RX_ADJ added (R359). -/
def rxStamp (p : Nat) (s : State) : Nat := (stampNow s + psUnits (signed 16 (rfld (Reg.PORT_TS_ADJ p) 31 16 s))).toNat

/-- Transmit a frame at a port that is at a frame boundary: `q` is its queue, none for a lane. -/
def transmit (p : Nat) (q : Option Nat) (f : QFrame) (s : State) : State :=
  let (b, bad) := wireFrame p f s
  let mode := (port p s).mode
  let rate := portRate p s
  let frameEnd := s.cycle + bitsNs ((b.length + 8) * 8) rate
  let s := putOnWire p b bad s
  s |> noteActivity p
    |> modSched p (fun x => { x with busyTo := s.cycle + bitsNs (wireBytes mode b.length * 8) rate,
                                     flight := q.map (fun k => (k, frameEnd)) })

/-- Note energy spent by a strict rank in this tick, for the forecast of the next (R300). -/
def noteStrict (pj : Nat) (s : State) : State := { s with sched := { s.sched with strictPj := s.sched.strictPj + pj } }

/-- The coefficient of a frame switched to a local port (R465): 0 from a local port, 2 from the line. -/
def portCoef (line : Bool) (s : State) : Nat := rfld (Reg.PWR_EPB (if line then 2 else 0)) 15 0 s

/-- Start the head frame of the consignment lane. -/
def sendConsign (p : Nat) (f : QFrame) (rest : List QFrame) (s : State) : State :=
  let l := frameL f.bytes
  s |> modSched p (fun x => { x with consign := rest }) |> drawPort p l |> transmit p none f |> freeFrame 8 f
    |> noteStrict (l * portCoef f.line s)

/-- Start the head frame of the circuit lane. -/
def sendCirc (p : Nat) (f : QFrame) (rest : List QFrame) (s : State) : State :=
  let l := frameL f.bytes
  s |> modSched p (fun x => { x with circ := rest }) |> drawPort p l |> transmit p none f |> freeFrame 7 f
    |> noteStrict (l * portCoef f.line s)

/-- Start the head frame of a queue. -/
def sendQueue (p q : Nat) (f : QFrame) (rest : List QFrame) (s : State) : State :=
  let l := frameL f.bytes
  let weighted := !isStrict (sched p s).strict q
  let s := s |> setQueue p q { queue p q s with frames := rest } |> drawPort p l |> drawQueue p q l
    |> transmit p (some q) f |> freeFrame 4 f
  if weighted then modSched p (fun x => { x with wSent := x.wSent + l }) s else noteStrict (l * portCoef f.line s) s

/-- Whether a queue's head frame is eligible but for its gate (R273). -/
def eligibleButGate (p q : Nat) (s : State) : Bool :=
  match (queue p q s).frames with
  | [] => false
  | f :: _ =>
    f.dram.isNone && !queuePaused p q s && shapersAllow p q s
      && (isStrict (sched p s).strict q || capLeft (portCap p s) (sched p s).wSent)

/-- Judge a queue's head frame; one that only its gate holds is counted once in CNT_SCHED_GATE_HOLD (R288). -/
def judgeQueue (p q : Nat) (s : State) : Bool × State :=
  if eligibleButGate p q s then
    match (queue p q s).frames with
    | [] => (false, s)
    | f :: rest =>
      if gateAllows p q (frameL f.bytes) s then (true, s)
      else if f.held then (false, s)
      else (false, s |> setQueue p q { queue p q s with frames := { f with held := true } :: rest }
                     |> count (Reg.CNT_SCHED_GATE_HOLD p))
  else (false, s)

/-- Send from a queue found eligible. -/
def startQueue (p q : Nat) (s : State) : State :=
  match (queue p q s).frames with
  | [] => s
  | f :: rest => sendQueue p q f rest s

/-- The strict queues, highest first: whether one sent. -/
def serveStrict (p : Nat) : List Nat → State → Bool × State
  | [], s => (false, s)
  | q :: qs, s =>
    match judgeQueue p q s with
    | (true, s) => (true, startQueue p q s)
    | (false, s) => serveStrict p qs s

/-- Move the head of the active list to the tail. -/
def rotateActive (p : Nat) (s : State) : State :=
  modSched p (fun x => { x with active := x.active.drop 1 ++ x.active.take 1, granted := false }) s

/-- A quantum for the queue at the head (R277). -/
def grantQuantum (p q : Nat) (s : State) : State :=
  if (sched p s).granted then s
  else
    s |> setQueue p q { queue p q s with deficit := (queue p q s).deficit + 64 * rfld (Reg.SCHED_Q_CFG p q) 7 0 s }
      |> modSched p (fun x => { x with granted := true })

/-- The weighted queue sends; an emptied queue loses its deficit and leaves the list (R278). -/
def sendWeighted (p q l : Nat) (s : State) : State :=
  let s := setQueue p q { queue p q s with deficit := (queue p q s).deficit - l } s
  let s := startQueue p q s
  if (queue p q s).frames = [] then
    s |> setQueue p q { queue p q s with deficit := 0 }
      |> modSched p (fun x => { x with active := x.active.filter (fun k => k != q), granted := false })
  else s

/-- The weighted group by deficit-weighted round robin (R277); `idle` counts queues passed over in a row. -/
def serveWeighted (p : Nat) : Nat → Nat → State → State
  | 0, _, s => s
  | n + 1, idle, s =>
    match (sched p s).active with
    | [] => s
    | q :: _ =>
      if (sched p s).active.length ≤ idle then s
      else
        match judgeQueue p q s with
        | (false, s) => serveWeighted p n (idle + 1) (rotateActive p s)
        | (true, s) =>
          let s := grantQuantum p q s
          let l := match (queue p q s).frames with
            | [] => 0
            | f :: _ => frameL f.bytes
          if l ≤ (queue p q s).deficit then sendWeighted p q l s
          else serveWeighted p n 0 (rotateActive p s)

/-- The lanes of a port (R337). -/
def portLanes (p : Nat) (s : State) : List Nat := if (port p s).mode = 4 then [p, p + 1, p + 2, p + 3] else [p]

/-- Whether a port is at a frame boundary and may send: up, no fault present (R346), its lanes ACTIVE, no frame in transmission, awake, not shed, no
dip episode. -/
def portMaySend (p : Nat) (s : State) : Bool :=
  (port p s).link && !(port p s).locFault && !(port p s).remFault
    && (portLanes p s).all (fun l => (lane l s).st == .active) && decide ((sched p s).busyTo ≤ s.cycle) && !(port p s).lpiTx && decide ((port p s).wakeTo ≤ s.cycle)
    && !portShed p s && !loadShed s

/-- The head of a lane that may start, with the frames behind it; none while it waits for its floor (R280, R312). -/
def laneHead (fs : List QFrame) : Option (QFrame × List QFrame) :=
  match fs with
  | f :: rest => if stored f then some (f, rest) else none
  | [] => none

/-- PORT_FRAME_START (R272, R292): the first eligible frame starts. -/
def portFrameStart (p : Nat) (s : State) : State :=
  if portMaySend p s then
    let s := gateCorrect p s
    let x := sched p s
    match lanesPaused p s, laneHead x.consign, laneHead x.circ with
    | false, some (f, rest), _ => sendConsign p f rest s
    | false, none, some (f, rest) => sendCirc p f rest s
    | _, _, _ =>
      match serveStrict p ((List.range x.strict).map (fun i => 7 - i)) s with
      | (true, s) => s
      | (false, s) => serveWeighted p 1600 0 s
  else s

/-- LANE_PAUSE_DROP (R296). -/
def lanePauseDrop (p : Nat) (s : State) : State :=
  match lanesPaused p s, (sched p s).circ with
  | true, f :: rest =>
    s |> modSched p (fun x => { x with circ := rest }) |> freeFrame 7 f |> count (Reg.CNT_SCHED_LANE_PAUSE_DROP p)
  | _, _ => s

/-- STRICT takes effect at the tick edge (R271, R278): a queue that becomes weighted joins the active list as newly
active, one that becomes strict leaves it. -/
def strictAtEdge (p : Nat) (s : State) : State :=
  let x := sched p s
  let n := rfld (Reg.SCHED_PORT_CFG p) 2 0 s
  if n = x.strict then s
  else
    let joins := (List.range 8).filter (fun q => isStrict x.strict q && !isStrict n q && (queueOf x q).frames != [])
    let stays := x.active.filter (fun q => !isStrict n q)
    let x := joins.foldl (fun x q => putQueue x q { queueOf x q with deficit := 0 }) x
    setSched p { x with strict := n, active := stays ++ joins, granted := x.granted && x.active.head? == stays.head? } s

/-! ### Low-power idle ends at an admission (R351) -/

/-- LPI is deasserted: the port waits TW_TX before its next frame, and the wait earns no credit (R351). -/
def lpiDrop (p : Nat) (s : State) : State :=
  let x := port p s
  if x.lpiTx then
    let till := s.cycle + x.twTx * 1000
    let s := s |> settlePortCredit p |> each (List.range 8) (fun q s => settleQueueCredit p q s)
    s |> count64 (Reg.CNT_PORT_TX_LPI_US_LO p) ((s.cycle - x.lpiTxAt) / 1000)
      |> setPort p { x with lpiTx := false, wakeTo := till }
      |> modSched p (fun y => { y with credit := { y.credit with cycle := till } })
      |> each (List.range 8) (fun q s =>
        setQueue p q { queue p q s with credit := { (queue p q s).credit with cycle := till } } s)
      |> emit (.lpi p false)
  else s

/-- LPI_EXIT (R351): an admission deasserts LPI; not at a port whose block is shed (R349). -/
def lpiExit (p : Nat) (s : State) : State := if portShed p s then s else lpiDrop p s

/-! ### Admission (R279, R280, R299, R319) -/

/-- The colour limit of a queue in cells. -/
def colourLimit (p q colour : Nat) (s : State) : Nat :=
  if colour = 0 then rfld (Reg.SCHED_Q_LIMIT p q) 15 0 s
  else if colour = 1 then rfld (Reg.SCHED_Q_LIMIT p q) 31 16 s
  else rfld (Reg.SCHED_Q_RLIMIT p q) 15 0 s

/-- Whether the deep buffer may be used: spilling permitted, trained, no package failed and not mapped out (R319 to
R321), no dip episode (R335). -/
def spillOn (s : State) : Bool :=
  rbit Reg.TUB_SPILL_CTRL 31 s && s.tub.trained && (s.assay.ddrFailed &&& ~~~ s.tub.mappedOut) == 0 && !inDip s

/-- The spill threshold in bytes. -/
def spillThreshold (alloc : Bool) (s : State) : Nat :=
  1024 * (if alloc then rfld Reg.TUB_SPILL_CTRL 15 0 s else rfld Reg.TUB_SPILL_CTRL 30 16 s)

/-- Whether a newly admitted frame is to be spilled: its queue's on-die bytes exceed the threshold, or frames of it are
in DRAM or on their way (R319). -/
def toSpill (alloc : Bool) (fs : List QFrame) (new : QFrame) (s : State) : Bool :=
  rbit Reg.TUB_SPILL_CTRL 31 s
    && (decide (spillThreshold alloc s < onDieBytes (fs ++ [new])) || fs.any (fun f => f.dram.isSome || f.spill))

/-- A frame to be queued. -/
def newFrame (b : Bytes) (colour : Nat) (tubs : List Nat) (line bad : Bool) : QFrame :=
  { bytes := b, colour := colour, tubs := tubs, dram := none, spill := false, held := false, line := line, bad := bad }

/-- Put an admitted frame into a queue of a port. -/
def enqueuePort (p q : Nat) (f : QFrame) (s : State) : State :=
  let x := sched p s
  let y := queueOf x q
  let weighted := !isStrict x.strict q
  let f := { f with spill := weighted && toSpill false y.frames f s }
  let l := frameL f.bytes
  let active := if weighted ∧ !x.active.contains q then x.active ++ [q] else x.active
  let y := { y with frames := y.frames ++ [f], deficit := if y.frames = [] then 0 else y.deficit }
  let x := putQueue x q y
  s |> setSched p { x with active := active, admLocal := x.admLocal + (if weighted ∧ !f.line then l else 0),
                           admLine := x.admLine + (if weighted ∧ f.line then l else 0) }
    |> lpiExit p

/-- Count a frame discarded at a queue for its colour. -/
def countColourDrop (p q colour : Nat) (s : State) : State :=
  s |> count (Reg.CNT_SCHED_Q_DROP p q) |> when' (colour == 1) (count (Reg.CNT_SCHED_DROP_YELLOW p))
    |> when' (colour == 2) (count (Reg.CNT_SCHED_DROP_RED p))

/-- QUEUE_ADMIT for a local port (R279, R347): answers the state and whether the copy was admitted. `agent` is the
ingress that holds the frame. -/
def admitPort (p q colour agent : Nat) (b : Bytes) (line bad : Bool) (s : State) : Bool × State :=
  if !(port p s).link then (false, count (Reg.CNT_PORT_LINK_DROP p) s)
  else
    let c := (frameL b + 255) / 256
    let lim := colourLimit p q colour s
    if lim = 0 ∨ lim < queueCells (queue p q s).frames + c then (false, countColourDrop p q colour s)
    else match storeData agent b false s with
      | (some hs, s) =>
        let s := match hs with
          | [] => s
          | h :: _ => handOver h 4 s
        (true, enqueuePort p q (newFrame b colour hs line bad) s)
      | (none, s) => (false, s |> count (Reg.CNT_SCHED_Q_DROP p q) |> count (Reg.CNT_SCHED_NOBUF p))

/-- The tubs of a lane frame or tally frame from its floor; where the floor is spent the frame waits for them, none
given yet (R280, R312). -/
def storeFloor (agent : Nat) (b : Bytes) (d : WaitFor) (s : State) : List Nat × State :=
  match storeData agent b true s with
  | (some hs, s) => (hs, s)
  | (none, s) => ([], floorWait { agent := agent, len := b.length, known := true, dest := d } s)

/-- Put a frame into a lane, its tubs from the floor of TALLY (8) or CIRC (7); lane frames are never discarded at
admission (R280), but are on a port that is down (R347). -/
def admitLane (p agent : Nat) (b : Bytes) (line : Bool) (s : State) : State :=
  if !(port p s).link then count (Reg.CNT_PORT_LINK_DROP p) s
  else
    let (hs, s) := storeFloor agent b (if agent = 8 then .consign p else .circ p) s
    let f := newFrame b 0 hs line false
    s |> modSched p (fun x => if agent = 8 then { x with consign := x.consign ++ [f] } else { x with circ := x.circ ++ [f] })
      |> lpiExit p

/-! ### Allocation queues (R297 to R299) -/

/-- A sub-queue. -/
def subQ (x : AllocQueue) (q : Nat) : List QFrame := tget (fun _ => []) x.subs q

/-- Put a sub-queue. -/
def putSubQ (x : AllocQueue) (q : Nat) (fs : List QFrame) : AllocQueue := { x with subs := tput (fun _ => []) q fs x.subs }

/-- Whether sub-queue `q` is promised (R297). -/
def promised (a q : Nat) (s : State) : Bool := rbit (Reg.SCHED_AQ_CFG a) (24 + q) s

/-- The bytes frames take on the line. -/
def lineBytes (fs : List QFrame) : Nat := (fs.map lineSize).sum

/-- The bytes of a continuation not yet sent. -/
def contBytes (x : AllocQueue) : Nat :=
  match x.cont with
  | some c => c.rest.length
  | none => 0

/-- The backlog of an allocation queue (R299). -/
def backlog (a : Nat) (s : State) : Nat :=
  let x := allocQ a s
  contBytes x + lineBytes x.tally + (x.subs.map (fun e => lineBytes e.2)).sum

/-- The weighted backlog: weighted sub-queues, and a weighted continuation. -/
def weightedBacklog (a : Nat) (s : State) : Nat :=
  let x := allocQ a s
  (match x.cont with
    | some c => if c.weighted then c.rest.length else 0
    | none => 0)
  + (x.subs.map (fun e => if promised a e.1 s then 0 else lineBytes e.2)).sum

/-- QUEUE_ADMIT for an allocation queue (R299). -/
def admitAlloc (a q colour agent : Nat) (b : Bytes) (s : State) : Bool × State :=
  if rfld (Reg.SCHED_AQ_CFG a) 19 0 s * 1024 < backlog a s + b.length + 24 then (false, count (Reg.CNT_AQ_DROP a) s)
  else match storeData agent b false s with
    | (some hs, s) =>
      let s := match hs with
        | [] => s
        | h :: _ => handOver h 5 s
      let x := allocQ a s
      let f := newFrame b colour hs false false
      let f := { f with spill := !promised a q s && toSpill true (subQ x q) f s }
      (true, setAllocQ a (putSubQ x q (subQ x q ++ [f])) s)
    | (none, s) => (false, count (Reg.CNT_AQ_DROP a) s)

/-- Queue a tally frame, whatever the backlog (R299); its tubs come from the floor of TALLY. -/
def admitTally (a : Nat) (b : Bytes) (s : State) : State :=
  let (hs, s) := storeFloor 8 b (.tally a) s
  let x := allocQ a s
  setAllocQ a { x with tally := x.tally ++ [newFrame b 0 hs false false] } s

/-- The frames an allocation queue holds, its continuation included. -/
def allocFrames (a : Nat) (s : State) : Nat :=
  let x := allocQ a s
  (if x.cont.isSome then 1 else 0) + x.tally.length + (x.subs.map (fun e => e.2.length)).sum

/-- Empty an allocation queue, freeing what its frames hold. -/
def emptyAlloc (a : Nat) (s : State) : State :=
  let x := allocQ a s
  s |> freeFrames 8 x.tally |> each x.subs (fun e s => freeFrames 5 e.2 s)
    |> setAllocQ a { x with cont := none, tally := [], subs := [] }

/-! ### Spill and refill (R319, R320) -/

/-- The frames of a local queue or a sub-queue. -/
def queueFrames (r : QueueRef) (s : State) : List QFrame :=
  match r with
  | .loc p q => (queue p.val q.val s).frames
  | .alloc a q => subQ (allocQ a.val s) q.val

/-- The frames of a queue that may spill; none for a strict queue or a promised sub-queue. -/
def spillQueue (r : QueueRef) (s : State) : Option (List QFrame) :=
  match r with
  | .loc p q => if isStrict (sched p.val s).strict q.val then none else some (queue p.val q.val s).frames
  | .alloc a q => if promised a.val q.val s then none else some (subQ (allocQ a.val s) q.val)

/-- Put the frames of a local queue; one that empties loses its deficit and leaves the active list, and a quantum it held at
the list's head with it (R278). -/
def putFrames (p q : Nat) (fs : List QFrame) (s : State) : State :=
  if fs = [] then
    s |> setQueue p q { queue p q s with frames := [], deficit := 0 }
      |> modSched p (fun x => { x with active := x.active.filter (fun k => k != q),
                                       granted := x.granted && x.active.head? != some q })
  else setQueue p q { queue p q s with frames := fs } s

/-- Put the frames of a queue that may spill. -/
def putSpillQueue (r : QueueRef) (fs : List QFrame) (s : State) : State :=
  match r with
  | .loc p q => putFrames p.val q.val fs s
  | .alloc a q => setAllocQ a.val (putSubQ (allocQ a.val s) q.val fs) s

/-- Whether the queue is refilling. -/
def isRefilling (r : QueueRef) (s : State) : Bool :=
  match r with
  | .loc p q => (queue p.val q.val s).refilling
  | .alloc a q => (allocQ a.val s).refilling.contains q.val

/-- Mark the queue as refilling or not. -/
def setRefilling (r : QueueRef) (on : Bool) (s : State) : State :=
  match r with
  | .loc p q => setQueue p.val q.val { queue p.val q.val s with refilling := on } s
  | .alloc a q =>
    let x := allocQ a.val s
    let l := x.refilling.filter (fun k => k != q.val)
    setAllocQ a.val { x with refilling := if on then q.val :: l else l } s

/-- The agent that holds a queue's on-die tubs: EGR, or LINE. -/
def queueAgent (r : QueueRef) : Nat :=
  match r with
  | .loc _ _ => 4
  | .alloc _ _ => 5

/-- Whether the queue is an allocation queue's. -/
def isAlloc (r : QueueRef) : Bool :=
  match r with
  | .loc _ _ => false
  | .alloc _ _ => true

/-- The frames held in DRAM of a list, discarded. -/
def dropDram (agent : Nat) (fs : List QFrame) (s : State) : List QFrame × State :=
  let gone := fs.filter (fun f => f.dram.isSome)
  (fs.filter (fun f => f.dram.isNone), s |> freeFrames agent gone |> countN Reg.CNT_TUB_DDR_LOST gone.length)

/-- Every frame held in DRAM is discarded and counted (R321). -/
def discardDram (s : State) : State :=
  let s := each s.sched.ports (fun e s => each (List.range 8) (fun q s =>
    let (fs, s) := dropDram 4 (queue e.1 q s).frames s
    putFrames e.1 q fs s) s) s
  each s.sched.aqs (fun e s => each (List.range 8) (fun q s =>
    let (fs, s) := dropDram 5 (subQ (allocQ e.1 s) q) s
    setAllocQ e.1 (putSubQ (allocQ e.1 s) q fs) s) s) s

/-! ### Policers (R281 to R284) -/

/-- A policer. -/
def policer (i : Nat) (s : State) : Policer := tget (fun _ => Policer.reset) s.sched.policers i

/-- Put a policer. -/
def setPolicer (i : Nat) (x : Policer) (s : State) : State :=
  { s with sched := { s.sched with policers := tput (fun _ => Policer.reset) i x s.sched.policers } }

/-- Word `w` of a policer. -/
def polWord (x : Policer) (w : Nat) : Nat := (x.words.getD w 0).toNat

/-- Whether a policer is a trTCM. -/
def polMode (x : Policer) : Bool := polWord x 0 / 2 ^ 31 % 2 == 1

/-- Bytes as bucket units. -/
def polUnits (bytes : Nat) : Nat := bytes * 256 * 10 ^ 6

/-- The buckets refilled by the elapsed time: C then E of RFC 2697 (what C cannot hold goes to E), or C and P of
RFC 2698. -/
def polRefill (x : Policer) (now : Nat) : Policer :=
  let dt := now - x.cycle
  let cbs := polUnits (polWord x 2)
  let ebs := polUnits (polWord x 4)
  let c := x.tc + polWord x 1 * 32 * dt
  let e := if polMode x then x.te + polWord x 3 * 32 * dt else x.te + (c - cbs)
  { x with tc := min cbs c, te := min ebs e, cycle := now }

/-- The colour a policer gives a frame of `l` bytes whose pre-colour is `pre`, and the buckets after it. -/
def polColour (x : Policer) (l pre : Nat) : Nat × Policer :=
  let b := polUnits l
  let pre := if polWord x 0 / 2 ^ 30 % 2 = 1 then pre else 0
  if polMode x then
    if pre = 2 ∨ x.te < b then (2, x)
    else if pre = 1 ∨ x.tc < b then (1, { x with te := x.te - b })
    else (0, { x with tc := x.tc - b, te := x.te - b })
  else
    if pre = 0 ∧ b ≤ x.tc then (0, { x with tc := x.tc - b })
    else if pre ≤ 1 ∧ b ≤ x.te then (1, { x with te := x.te - b })
    else (2, x)

/-- Count a frame in its policer. -/
def polCount (colour : Nat) (x : Policer) : Policer :=
  if colour = 0 then { x with green := satAdd x.green 1 } else if colour = 1 then { x with yellow := satAdd x.yellow 1 }
  else { x with red := satAdd x.red 1 }

/-- Police a frame of class `c` from source `src` (R281, R282): its colour, or none where it is discarded. -/
def police (src c colour l : Nat) (s : State) : Option Nat × State :=
  if rbit (Reg.SCHED_POL_SRC src) c s then
    let i := rfld (Reg.SCHED_POL_SRC src) 28 16 s + c
    let (k, x) := polColour (polRefill (policer i s) s.cycle) l colour
    let s := setPolicer i (polCount k x) s
    if k = 2 ∧ polWord x 0 / 2 ^ 29 % 2 = 1 then (none, s) else (some k, s)
  else (some colour, s)

/-- POLICER_WRITE (R283): refused with MODE 1 and PIR below CIR; otherwise both buckets are full. -/
def policerWrite (v : Word) (s : State) : State :=
  let i := fld v 12 0
  let d := fun w => reg (Reg.SCHED_POL_DATA w) s
  let words := [d 0 &&& 0xE0000000, d 1, d 2 &&& 0xFFFFFF, d 3, d 4 &&& 0xFFFFFF]
  let x := { policer i s with words := words, cycle := s.cycle }
  if polMode x ∧ polWord x 3 < polWord x 1 then setReg Reg.SCHED_POL_CMD (word (at' 30 1 + i)) s
  else
    s |> setReg Reg.SCHED_POL_CMD (word i)
      |> setPolicer i { x with tc := polUnits (polWord x 2), te := polUnits (polWord x 4) }

/-- POLICER_READ (R282). -/
def policerRead (v : Word) (s : State) : State :=
  let i := fld v 12 0
  let x := policer i s
  s |> setRfld Reg.SCHED_POL_CMD 12 0 i
    |> each (List.range 5) (fun w s => setReg (Reg.SCHED_POL_DATA w) (word (polWord x w)) s)
    |> setReg (Reg.SCHED_POL_DATA 5) x.green |> setReg (Reg.SCHED_POL_DATA 6) x.yellow
    |> setReg (Reg.SCHED_POL_DATA 7) x.red

/-- POLICER_READ_CLEAR (R282). -/
def policerReadClear (v : Word) (s : State) : State :=
  let s := policerRead v s
  setPolicer (fld v 12 0) { policer (fld v 12 0) s with green := 0, yellow := 0, red := 0 } s

/-! ### Demand (R301) -/

/-- The weighted frames of a port's queues. -/
def weightedFrames (x : PortSched) : List QFrame :=
  (x.queues.filter (fun e => !isStrict x.strict e.1)).flatMap (fun e => e.2.frames)

/-- At a tick edge: the demand of a port, its energy, the overshoot of the tick that ends; the tick's counts begin
afresh. -/
def portEdge (p : Nat) (s : State) : State :=
  let x := sched p s
  let fs := weightedFrames x
  let loc := queueBytes (fs.filter (fun f => !f.line)) + x.admLocal
  let lin := queueBytes (fs.filter (fun f => f.line)) + x.admLine
  let lim := portRate p s * 15625
  let d := min (loc + lin) lim
  let e0 := portCoef false s
  let e2 := portCoef true s
  let pj := if loc + lin ≤ lim then loc * e0 + lin * e2 else if lin = 0 then d * e0 else if loc = 0 then d * e2
    else Config.cappedEnergy d loc lin e0 e2
  let excess := match portCap p s with
    | some c => x.wSent - c
    | none => 0
  setSched p { x with edgeDemand := d, edgePj := pj, edgeOver := excess, wSent := 0, admLocal := 0, admLine := 0 } s

/-- The weighted cap of an allocation queue. -/
def allocCap (a : Nat) (s : State) : Option Nat := capOf s.sched.phi (allocQ a s).capDemand (allocQ a s).capOver

/-- At a tick edge: the demand and overshoot of an allocation queue. -/
def allocEdge (a : Nat) (s : State) : State :=
  let x := allocQ a s
  let excess := match allocCap a s with
    | some c => x.wSent - c
    | none => 0
  setAllocQ a { x with edgeDemand := weightedBacklog a s, edgeOver := excess, wSent := 0 } s

/-- The scheduler's work at a tick edge, before the plan: strict settings, demands, DRAM budget. -/
def schedEdge (s : State) : State :=
  let ports := (s.sched.ports.map Prod.fst)
  let cfgd := (s.regs.filter (fun x => Reg.SCHED_PORT_CFG 0 ≤ x.1 && x.1 < Reg.SCHED_PORT_CFG 512
    && (x.1 - Reg.SCHED_PORT_CFG 0) % 0x200 == 0)).map (fun x => (x.1 - Reg.SCHED_PORT_CFG 0) / 0x200)
  s |> each ports (fun p s => strictAtEdge p s) |> each cfgd (fun p s => strictAtEdge p s)
    |> each ports (fun p s => portEdge p s) |> each (s.sched.aqs.map Prod.fst) (fun a s => allocEdge a s)
    |> (fun s => { s with sched := { s.sched with prevStrictPj := s.sched.strictPj, strictPj := 0 },
                          tub := { s.tub with ddrLeft := 6250000 } })

/-! ### A port goes down, or its mode changes (R340, R347) -/

/-- Every frame queued for a port, lanes included, is discarded and counted in a counter. -/
def flushPort (p counter : Nat) (s : State) : State :=
  let x := sched p s
  let n := x.consign.length + x.circ.length + (x.queues.map (fun e => e.2.frames.length)).sum
  s |> freeFrames 8 x.consign |> freeFrames 7 x.circ |> each x.queues (fun e s => freeFrames 4 e.2.frames s)
    |> modSched p (fun x => x.queues.foldl (fun y e => putQueue y e.1 { e.2 with frames := [], deficit := 0 })
      { x with consign := [], circ := [], active := [], granted := false })
    |> countN counter n

/-- Whether the eight queues and both lanes of a port are empty. -/
def portEmpty (p : Nat) (s : State) : Bool :=
  let x := sched p s
  x.consign == [] && x.circ == [] && x.queues.all (fun e => e.2.frames == [])

/-- Whether a frame cuts through to a port's express queue at the arrival of its first beat (R274, R357); `need` is the
wire time of the port's largest frame. -/
def expressAllows (p : Nat) (s : State) : Bool :=
  let x := sched p s
  let need := bitsNs ((maxFrame p s + 20) * 8) (portRate p s)
  let gate := if rbit (Reg.SCHED_PORT_CFG p) 31 s then
      (match x.oper with
        | some g => gateOpenFor g 7 need s
        | none => true)
    else true
  rbit (Reg.SCHED_PORT_CFG p) 28 s && decide (1 ≤ x.strict) && portMaySend p s && x.consign == [] && x.circ == []
    && (queueOf x 7).frames == [] && !queuePaused p 7 s && !lanesPaused p s && shapersAllow p 7 s && gate

end Sys2Proof.Machine
end

