-- ==== Sys2Proof/Machine/Circ.lean ====
section
/-! DEFINITION. Circuits (R163 to R185): containers and their pointers, the de-jitter buffer, the pointer machine, and
enabling and disabling. -/
namespace Sys2Proof.Machine

/-- A circuit. -/
def circuit (c : Nat) (s : State) : Circuit := tget (fun _ => Circuit.reset) s.circuits c

/-- Put a circuit. -/
def setCircuit (c : Nat) (x : Circuit) (s : State) : State :=
  { s with circuits := tput (fun _ => Circuit.reset) c x s.circuits }

/-- Change a circuit. -/
def modCircuit (c : Nat) (f : Circuit → Circuit) (s : State) : State := setCircuit c (f (circuit c s)) s

/-- The active circuits, in ascending order. -/
def activeCircuits (s : State) : List (Nat × Circuit) := s.circuits.filter (fun e => e.2.active)

/-- The template of a circuit: 64 bytes. -/
def circTemplate (c : Nat) (s : State) : Bytes := (List.range 16).flatMap (fun w => beBytes 4 (reg (Reg.CIRC_TPL c w) s).toNat)

/-! ### Enabling and disabling (R184, R185) -/

/-- The fields as the registers hold them. -/
def circSample (c : Nat) (s : State) : CircSample :=
  let cfg := reg (Reg.CIRC_CFG c) s
  let prt := reg (Reg.CIRC_PORT c) s
  let dmx := reg (Reg.CIRC_DEMUX c) s
  let off := reg (Reg.CIRC_DS_OFF c) s
  { encap := fld cfg 30 29, n := fld cfg 26 16, d := fld cfg 15 8, ident := fld cfg 6 0, allocK := fld prt 26 24,
    port := fld prt 20 12, pktBytes := fld prt 10 0, tplLen := fld dmx 30 24, demux := fld dmx 19 0, dsSeam := fld off 25 24,
    dsOffset := fld off 20 0, tpl := circTemplate c s }

/-- The fields are sampled when EN changes from 0 to 1, for the next tick edge (R184). -/
def sampleCircuit (c : Nat) (s : State) : State := modCircuit c (fun x => { x with next := some (circSample c s) }) s

/-- A circuit as sampled fields make it, with nothing done yet. -/
def circOf (f : CircSample) : Circuit :=
  { Circuit.reset with
    encap := f.encap, n := f.n, d := f.d, ident := f.ident, allocK := f.allocK, port := f.port, pktBytes := f.pktBytes,
    tplLen := f.tplLen, demux := f.demux, dsSeam := f.dsSeam, dsOffset := f.dsOffset, tpl := f.tpl }

/-- The tubs of a de-jitter buffer (R185). -/
def circTubs (x : Circuit) : Nat := (2 * x.d * x.n + 255) / 256

/-- Whether a sampled field is out of range. -/
def circFieldBad (x : Circuit) : Bool :=
  x.encap == 3 || x.n == 0 || decide (1024 < x.n) || decide (x.d < 4) || decide (128 < x.d) || x.allocK == 0
    || x.pktBytes == 0 || decide (1440 < x.pktBytes) || decide (x.tplLen < 14) || decide (64 < x.tplLen)
    || (x.encap != 2 && decide (65536 ≤ x.demux))

/-- Whether two downstream containers overlap. -/
def circOverlap (x y : Circuit) : Bool :=
  x.dsSeam == y.dsSeam && decide (x.dsOffset < y.dsOffset + y.n + 3) && decide (y.dsOffset < x.dsOffset + x.n + 3)

/-- The reason a circuit is refused for, the first of R185's checks that fails; 0 for none. -/
def circRefusal (x : Circuit) (s : State) : Nat :=
  let others := (activeCircuits s).map Prod.snd
  if !(mayUse 7 (circTubs x) s && decide (circTubs x ≤ freeTubs 0 s)) then 1
  else if rfld Reg.CIRC_CTRL 20 0 s < x.dsOffset + x.n + 3 then 2
  else if others.any (circOverlap x) then 3
  else if circFieldBad x then 4
  else if others.any (fun y => y.port == x.port && y.encap == x.encap && y.demux == x.demux) then 5
  else 0

/-- The tick edge after EN became 1 (R184, R185): active, or refused; the rank R32 protects is that of circuits. Containers that
wait for their frames stay (R173). -/
def circEnable (c : Nat) (s : State) : State :=
  let x := circuit c s
  match x.next with
  | none => s
  | some f =>
    if x.active then s
    else match circRefusal (circOf f) s with
    | 0 =>
      let (hs, s) := giveChain 7 (circTubs (circOf f)) s
      setCircuit c { circOf f with active := true, tubs := hs, tx := x.tx } s
    | r =>
      s |> setCircuit c { x with next := none, refuse := r }
        |> event 0x0503 (beBytes 2 c ++ [BitVec.ofNat 8 r, if r = 1 then 3 else 0])

/-- The tick edge after EN became 0, or became 0 and 1 again (R184, R185; DEDUCED, log entry 43): the tubs are returned and both
containers stop; those formed for frames still to come stay in their places (R173). -/
def circDisable (c : Nat) (s : State) : State :=
  let x := circuit c s
  let en := rbit (Reg.CIRC_CFG c) 31 s
  let next := if en then x.next else none
  if x.active ∧ (!en ∨ x.next.isSome) then
    s |> freeTubsOf 7 x.tubs |> setCircuit c { Circuit.reset with refuse := x.refuse, next := next, tx := x.tx }
  else if x.next.isSome ∧ !en then setCircuit c { x with next := none } s
  else s

/-- Every circuit whose EN changed takes it at the tick edge, disabled ones first (R184). -/
def circEdges (s : State) : State :=
  let ks := s.circuits.map Prod.fst
  s |> each ks circDisable |> each ks circEnable

/-! ### Packets from the local port (R176, R177) -/

/-- Whether a parsed frame of a port is a circuit's (R176). -/
def circTakes (port : Nat) (q : Parsed) (x : Circuit) : Bool :=
  x.active && x.port == port
    && (if x.encap = 0 then q.l3 == 1 && q.l4 == 1 && q.dport == x.demux
        else if x.encap = 1 then q.l3 == 2 && q.l4 == 1 && q.dport == x.demux
        else x.encap == 2 && decide (0 < q.nlabels) && q.label == x.demux)

/-- The circuit a frame of a local port is for. -/
def circMatch (port : Nat) (q : Parsed) (s : State) : Option Nat :=
  (s.circuits.find? (fun e => circTakes port q e.2)).map Prod.fst

/-- What follows a frame's encapsulation: control word and payload. -/
def circBody (frame : Bytes) (q : Parsed) : Bytes :=
  match q.udpOff with
  | some u => slice frame (u + 8) (beAt frame (u + 4) 2 - 8)
  | none => frame.drop q.hdrEnd

/-- LEN of a control word cuts padding off a short packet (RFC 4553). -/
def circCut (b : Bytes) : Bytes :=
  let len := beAt b 1 1 % 64
  if len = 0 then b else b.take len

/-- The byte position a sequence number gives (R6, R177), relative to a stored packet. -/
def circPos (x : Circuit) (seq : Nat) : Option Int :=
  x.anchor.map (fun a => (a.2 : Int) + signed 16 ((seq + 65536 - a.1) % 65536) * x.pktBytes)

/-- Store a packet's payload at its position (R177, R180); the first packet of an active circuit stands where playout begins. -/
def circStore (c seq : Nat) (payload : Bytes) (s : State) : State :=
  let x := circuit c s
  let pos : Int := (circPos x seq).getD x.play
  if pos < x.play then count (Reg.CNT_CIRC_PKT_DISCARD c) s
  else
    let p := pos.toNat
    if (tget (fun _ => []) x.packets p) ≠ [] then count (Reg.CNT_CIRC_PKT_DISCARD c) s
    else if x.play + 2 * x.d * x.n < p + x.pktBytes then count (Reg.CNT_CIRC_OVERRUN c) s
    else
      let newest := max x.newest (p + x.pktBytes)
      let begins := !x.playing && decide (x.d * x.n ≤ newest - x.play)
      setCircuit c { x with packets := tput (fun _ => []) p payload x.packets, newest := newest, anchor := some (seq, p),
                            playing := x.playing || begins, loss := x.loss && !begins } s

/-- CIRC_PACKET (R177): a packet of an active circuit, from its control word on; dropped during a dip episode (R183). -/
def circPacket (c : Nat) (body : Bytes) (s : State) : State :=
  let x := circuit c s
  if !x.active || loadShed s then s
  else
    let b := circCut body
    let payload := b.drop 4
    let l := beAt b 0 1 / 8 % 2 == 1
    let frg := beAt b 1 1 / 64
    if b.length < 4 ∨ frg ≠ 0 ∨ (payload.length ≠ x.pktBytes ∧ !(l ∧ payload = [])) then
      count (Reg.CNT_CIRC_PKT_DISCARD c) s
    else circStore c (beAt b 2 2) (if l then List.replicate x.pktBytes 0xFF else payload) s

/-! ### The upstream container (R165 to R168, R179, R180) -/

/-- The stored packet a byte position lies in. -/
def packetAt (x : Circuit) (pos : Nat) : Option (Nat × Bytes) :=
  x.packets.find? (fun e => decide (e.1 ≤ pos) && decide (pos < e.1 + x.pktBytes))

/-- The byte played out at a position: 0xFF where its packet is missing. -/
def playedByte (x : Circuit) (pos : Nat) : Byte :=
  match packetAt x pos with
  | some (p, b) => b.getD (pos - p) 0xFF
  | none => 0xFF

/-- Packet positions that begin among `k` bytes from the play position and hold no packet (R177). -/
def missingPackets (x : Circuit) (k : Nat) : Nat :=
  match x.anchor with
  | none => 0
  | some (_, a) => ((List.range k).filter (fun i =>
      (((x.play + i : Nat) : Int) - a) % (max 1 x.pktBytes : Nat) == 0 && (packetAt x (x.play + i)).isNone)).length

/-- Take `k` bytes for the container: the bytes, the circuit after it, and the packets found missing. -/
def takeBytes (x : Circuit) (k : Nat) : Bytes × Circuit × Nat :=
  let held := min k (x.newest - x.play)
  let b := (List.range held).map (fun i => playedByte x (x.play + i))
  let lost := missingPackets x held
  let play := x.play + held
  let x := { x with play := play, packets := x.packets.filter (fun e => decide (play < e.1 + x.pktBytes)) }
  if held < k then (b ++ List.replicate (k - held) 0xFF, { x with playing := false, loss := true }, lost)
  else (b, x, lost)

/-- CHDR (R166, R167). -/
def chdr (jc ptr : Nat) : Bytes := beBytes 2 (jc * 2 ^ 14 + jc * 2 ^ 12 + jc * 2 ^ 10 + ptr)

/-- A container from its justification code, pointer and bytes taken (R165). -/
def container (jc ptr n : Nat) (b : Bytes) : Bytes :=
  if jc = 2 then chdr jc ptr ++ b.take 1 ++ b.drop 1
  else if jc = 1 then chdr jc ptr ++ [0] ++ 0 :: b.take (n - 1)
  else chdr jc ptr ++ [0] ++ b.take n

/-- The justification of a tick (R169, R180): F̄ against the target, over the fills noted. -/
def circJc (x : Circuit) : Nat :=
  let k := x.fills.length
  let sum := x.fills.sum
  let t := x.d * x.n
  if x.playing ∧ 4 ≤ x.sinceTx ∧ k ≠ 0 then
    if (t + 2) * k ≤ sum then 2 else if sum ≤ (t - 2) * k then 1 else 0
  else 0

/-- A container put among those that wait for their frames. -/
def waitTx (x : Circuit) (fc : BitVec 48) (b : Bytes) : List ContainerTx :=
  x.tx ++ [{ fc := fc, ident := x.ident, allocK := x.allocK, bytes := b }]

/-- A container without tributary bytes: no justification, 0xFF data. -/
def emptyContainer (x : Circuit) : Bytes := container 0 x.ptrTx x.n (List.replicate x.n 0xFF)

/-- Form the upstream container for a frame (R179, R180). -/
def formContainer (c : Nat) (fc : BitVec 48) (s : State) : State :=
  let x := circuit c s
  if loadShed s then setCircuit c { x with sinceTx := x.sinceTx + 1, tx := waitTx x fc (emptyContainer x) } s
  else if x.playing then
    let jc := circJc x
    let ptr := if jc = 1 then (x.ptrTx + 1) % x.n else if jc = 2 then (x.ptrTx + x.n - 1) % x.n else x.ptrTx
    let (b, y, lost) := takeBytes x (if jc = 1 then x.n - 1 else if jc = 2 then x.n + 1 else x.n)
    s |> countN (Reg.CNT_CIRC_PKT_LOST c) lost
      |> when' (!y.playing) (count (Reg.CNT_CIRC_UNDERRUN c))
      |> setCircuit c { y with ptrTx := ptr, sinceTx := if jc = 0 then x.sinceTx + 1 else 1,
                               tx := waitTx x fc (container jc ptr x.n b) }
  else
    setCircuit c { x with sinceTx := x.sinceTx + 1, tx := waitTx x fc (emptyContainer x) } s

/-- Count justifications in a register of two halves, NEG above POS. -/
def countJust (a jc : Nat) (s : State) : State :=
  if jc = 2 then setRfld a 31 16 (satTo 16 (rfld a 31 16 s + 1)) s
  else if jc = 1 then setRfld a 15 0 (satTo 16 (rfld a 15 0 s + 1)) s
  else s

/-- The code of a container's three copies, by majority of each bit (R167). -/
def jcOf (b : Bytes) : Nat :=
  let h := beAt b 0 2
  let maj := fun i => b2n (decide (2 ≤ h / 2 ^ (14 + i) % 2 + h / 2 ^ (12 + i) % 2 + h / 2 ^ (10 + i) % 2))
  2 * maj 1 + maj 0

/-- PTR of a container. -/
def ptrOf (b : Bytes) : Nat := beAt b 0 2 % 1024

/-- A container that waits is taken out. -/
def dropTx (c : Nat) (e : ContainerTx) (s : State) : State :=
  modCircuit c (fun x => { x with tx := x.tx.erase e }) s

/-- The containers of a circuit allocation for a frame, in ascending circuit order, as far as each fits whole (R172,
R175): the bytes and the state with them sent or missed. -/
def takeContainers (ident k : Nat) (fc : BitVec 48) : List (Nat × Circuit) → Nat → State → Bytes × State
  | [], _, s => ([], s)
  | (c, x) :: rest, room, s =>
    match x.tx.find? (fun e => e.fc == fc && e.ident == ident && e.allocK == k) with
    | none => takeContainers ident k fc rest room s
    | some e =>
      let s := dropTx c e s
      if e.bytes.length ≤ room then
        let s := s |> modCircuit c (fun y => { y with ptrSent := ptrOf e.bytes }) |> countJust (Reg.CNT_CIRC_JUST_TX c) (jcOf e.bytes)
        let (bs, s) := takeContainers ident k fc rest (room - e.bytes.length) s
        (e.bytes ++ bs, s)
      else takeContainers ident k fc rest room (count (Reg.CNT_CIRC_US_MISSED c) s)

/-- The bytes the containers of a circuit allocation take in one frame (R172). -/
def containerBytes (ident k : Nat) (s : State) : Nat :=
  ((activeCircuits s).map (fun e => if e.2.ident = ident ∧ e.2.allocK = k then e.2.n + 3 else 0)).sum

/-- Whether containers for a frame wait for an allocation. -/
def waitsFor (ident k : Nat) (fc : BitVec 48) (s : State) : Bool :=
  s.circuits.any (fun e => e.2.tx.any (fun t => t.fc == fc && t.ident == ident && t.allocK == k))

/-- Whether an allocation is a circuit allocation: an active circuit is bound to it. -/
def isCircuitAlloc (ident k : Nat) (s : State) : Bool :=
  (activeCircuits s).any (fun e => e.2.ident == ident && e.2.allocK == k)

/-! ### The downstream container (R181) -/

/-- EV_CIRC_LOP. -/
def lopEvent (c : Nat) (declared : Bool) (s : State) : State := event 0x0501 (beBytes 2 c ++ [BitVec.ofNat 8 (b2n declared)]) s

/-- The pointer R168 gives for a code. -/
def nextPtr (p n jc : Nat) : Nat := if jc = 1 then (p + 1) % n else if jc = 2 then (p + n - 1) % n else p

/-- The tributary bytes of a container to which a code is applied. -/
def containerData (b : Bytes) (n jc : Nat) : Bytes :=
  if jc = 2 then slice b 2 (n + 1) else if jc = 1 then slice b 4 (n - 1) else slice b 3 n

/-- Append tributary bytes. -/
def addTrib (c : Nat) (b : Bytes) (s : State) : State := modCircuit c (fun x => { x with trib := x.trib ++ b }) s

/-- A container in LOP. -/
def lopStep (c : Nat) (b : Option Bytes) (s : State) : State :=
  let x := circuit c s
  let ptr : Option Nat := b.map ptrOf
  let steady : Bool := match b with
    | some b => jcOf b == 0 && decide (ptrOf b < x.n) && x.lastPtrs == [some (ptrOf b), some (ptrOf b)]
    | none => false
  if steady then
    s |> setCircuit c { x with lop := false, p := ptr.getD 0, invRun := 0, newPtr := none }
      |> lopEvent c false |> addTrib c (containerData (b.getD []) x.n 0)
  else addTrib c (List.replicate x.n 0xFF) s

/-- An invalid container in NORM. -/
def invalidStep (c : Nat) (b : Option Bytes) (s : State) : State :=
  let x := circuit c s
  let inv := x.invRun + 1
  let steady : Option Nat := match b with
    | some b => if jcOf b = 0 ∧ ptrOf b < x.n then some (ptrOf b) else none
    | none => none
  let newPtr : Option (Nat × Nat) := steady.map (fun p => match x.newPtr with
    | some (q, k) => if p = q then (p, k + 1) else (p, 1)
    | none => (p, 1))
  let data := match b with
    | some b => containerData b x.n 0
    | none => List.replicate x.n 0xFF
  match newPtr with
  | some (p, 3) =>
    s |> setCircuit c { x with p := p, invRun := 0, newPtr := none }
      |> event 0x0502 (beBytes 2 c ++ beBytes 2 x.p ++ beBytes 2 p) |> addTrib c data
  | _ =>
    if inv = 8 then
      s |> setCircuit c { x with lop := true, invRun := 0, newPtr := none } |> lopEvent c true
        |> addTrib c (List.replicate x.n 0xFF)
    else
      s |> setCircuit c { x with invRun := inv, newPtr := newPtr } |> count (Reg.CNT_CIRC_PTR_INVALID c) |> addTrib c data

/-- Whether a container's pointer is valid (R169, R181). -/
def pointerValid (x : Circuit) (b : Bytes) : Bool :=
  let jc := jcOf b
  jc != 3 && decide (ptrOf b < x.n) && ptrOf b == nextPtr x.p x.n jc && (jc == 0 || decide (3 < x.sinceRx))

/-- A container in NORM. -/
def normStep (c : Nat) (b : Option Bytes) (s : State) : State :=
  let x := circuit c s
  match b with
  | some b =>
    if pointerValid x b then
      let jc := jcOf b
      s |> setCircuit c { x with p := ptrOf b, invRun := 0, newPtr := none, sinceRx := if jc = 0 then x.sinceRx else 0 }
        |> countJust (Reg.CNT_CIRC_JUST_RX c) jc |> addTrib c (containerData b x.n jc)
    else invalidStep c (some b) s
  | none => invalidStep c none s

/-- A container has passed: its pointer, none where it was not read, is one of the two before the next (R181), and a frame more
has passed since the last justification (R169). -/
def passContainer (c : Nat) (ptr : Option Nat) (s : State) : State :=
  modCircuit c (fun x => { x with lastPtrs := (ptr :: x.lastPtrs).take 2, sinceRx := x.sinceRx + 1 }) s

/-- One container through the pointer machine; none for a lost one. -/
def receiveContainer (c : Nat) (b : Option Bytes) (s : State) : State :=
  let s := when' b.isNone (count (Reg.CNT_CIRC_CONT_LOST c)) s
  s |> (if (circuit c s).lop then lopStep c b else normStep c b) |> passContainer c (b.map ptrOf)

/-- A container that the pointer machine does not read: N bytes of 0xFF (R183). -/
def skipContainer (c : Nat) (s : State) : State :=
  s |> addTrib c (List.replicate (circuit c s).n 0xFF) |> passContainer c none

/-! ### Packets toward the local port (R178) -/

/-- The RFC 4553 control word: L while in LOP, R while in packet loss. -/
def controlWord (l r : Bool) (len seq : Nat) : Bytes :=
  [BitVec.ofNat 8 (b2n l * 8 + b2n r * 4), BitVec.ofNat 8 (if len + 4 < 64 then len + 4 else 0)] ++ beBytes 2 seq

/-- Send a packet for every PKT_BYTES tributary bytes. -/
def circSend (c : Nat) : Nat → State → State
  | 0, s => s
  | k + 1, s =>
    let x := circuit c s
    if x.pktBytes = 0 ∨ x.trib.length < x.pktBytes then s
    else
      let payload := x.trib.take x.pktBytes
      let frame := fillTemplate (x.tpl.take x.tplLen) (controlWord x.lop x.loss x.pktBytes x.seqTx ++ payload)
      s |> setCircuit c { x with trib := x.trib.drop x.pktBytes, seqTx := (x.seqTx + 1) % 65536 }
        |> admitLane x.port 7 frame true |> circSend c k

/-- Send what a circuit's tributary bytes fill. -/
def circSendAll (c : Nat) (s : State) : State := circSend c ((circuit c s).trib.length) s

/-! ### The work of a tick (R182, R183) -/

/-- Note the fill at the tick edge; frozen during a dip episode. -/
def noteFill (c : Nat) (s : State) : State :=
  if loadShed s then s
  else modCircuit c (fun x =>
    let f := x.newest - x.play
    { x with fill := f, fills := (f :: x.fills).take 64 }) s

/-- The container received for frame `u - 1` is taken, and what is too old to be taken is gone. -/
def takeRx (u : BitVec 48) (c : Nat) (s : State) : State :=
  modCircuit c (fun x => { x with rx := x.rx.filter (fun e => (u - e.1).toNat < 10 && e.1 != u - 1) }) s

/-- One circuit at tick `u`: its container of frame `u - 1` delivered, the one for upstream frame `u + 1` formed. -/
def circOne (u : BitVec 48) (c : Nat) (s : State) : State :=
  let got := ((circuit c s).rx.find? (fun e => e.1 == u - 1)).map Prod.snd
  s |> takeRx u c |> (if loadShed s then skipContainer c else receiveContainer c got) |> circSendAll c
    |> formContainer c (u + 1)

/-- One circuit not reached within the budget (R183): the container not delivered and the one not formed are each counted. -/
def circFill (u : BitVec 48) (c : Nat) (s : State) : State :=
  s |> modCircuit c (fun x => { x with sinceTx := x.sinceTx + 1, tx := waitTx x (u + 1) (emptyContainer x) })
    |> takeRx u c |> skipContainer c |> circSendAll c |> countN (Reg.CNT_CIRC_TICK_FILL c) 2

/-- Containers of frames whose plan has placed no grant for them are missed (R175). -/
def missContainers (u : BitVec 48) (granted : BitVec 48 → Nat → Nat → Bool) (c : Nat) (s : State) : State :=
  let gone := (circuit c s).tx.filter (fun e => (u - e.fc).toNat < 2 ^ 47 && e.fc != u && !granted e.fc e.ident e.allocK)
  s |> modCircuit c (fun x => { x with tx := x.tx.filter (fun e => !gone.contains e) })
    |> countN (Reg.CNT_CIRC_US_MISSED c) gone.length

/-- The circuits' work of tick `u` (R182), for as many circuits as the budget allowed (none: all). -/
def circTick (u : BitVec 48) (done : Option Nat) (granted : BitVec 48 → Nat → Nat → Bool) (s : State) : State :=
  let ks := (activeCircuits s).map Prod.fst
  let s := s |> each (s.circuits.map Prod.fst) (missContainers u granted) |> each ks noteFill
  match done with
  | none => each ks (circOne u) s
  | some k => s |> each (ks.take k) (circOne u) |> each (ks.drop k) (circFill u)

/-- Every pointer machine enters LOP on the new side (R183). -/
def circSwitch (s : State) : State :=
  each ((activeCircuits s).map Prod.fst) (fun c s => modCircuit c (fun x =>
    { x with lop := true, invRun := 0, newPtr := none, rx := [] }) s) s

/-- The fills noted are cleared at the resumption from a dip (R183). -/
def circResume (s : State) : State :=
  each ((activeCircuits s).map Prod.fst) (fun c s => modCircuit c (fun x => { x with fills := [] }) s) s

/-- The downstream containers of a seam's frame taken out of its circuit region (R170, R171): `region` is the region's
bytes, none for a lost byte; `carries` says whether the identity is in Serving or Held. -/
def takeDownstream (n : Nat) (fc : BitVec 48) (region : List (Option Byte)) (carries : Nat → Bool) (s : State) : State :=
  each (activeCircuits s) (fun e s =>
    let (c, x) := e
    let bs := (region.drop x.dsOffset).take (x.n + 3)
    if x.dsSeam = n ∧ carries x.ident ∧ bs.length = x.n + 3 ∧ bs.all Option.isSome then
      setCircuit c { x with rx := x.rx ++ [(fc, bs.map (fun b => b.getD 0))] } s
    else s) s

end Sys2Proof.Machine
end

