-- ==== Sys2Proof/Machine/Aes.lean ====
section
/-! DEFINITION. The algorithms the cipher engine is built from: AES (FIPS 197), AES-CMAC (NIST SP 800-38B), the
counter-mode KDF of NIST SP 800-108 (R426), AES-GCM (NIST SP 800-38D, R431), XTS-AES (IEEE 1619, R438) and key unwrap
with padding (RFC 5649, R443). -/
namespace Sys2Proof.Machine

/-! ### AES -/

/-- Doubling in GF(2^8), polynomial x^8 + x^4 + x^3 + x + 1. -/
def aesXtime (a : Nat) : Nat := if a < 128 then 2 * a else (2 * a) ^^^ 0x11B

/-- A product in GF(2^8), over the low `n` bits of the second factor. -/
def aesMulAux : Nat → Nat → Nat → Nat
  | 0, _, _ => 0
  | n + 1, a, b => (if b % 2 == 1 then a else 0) ^^^ aesMulAux n (aesXtime a) (b / 2)

/-- A product in GF(2^8). -/
def aesMul (a b : Nat) : Nat := aesMulAux 8 a b

/-- The inverse, 0 for 0: the power 254. -/
def aesInv (a : Nat) : Nat :=
  let a2 := aesMul a a
  let a4 := aesMul a2 a2
  let a8 := aesMul a4 a4
  let a16 := aesMul a8 a8
  let a32 := aesMul a16 a16
  let a64 := aesMul a32 a32
  let a128 := aesMul a64 a64
  aesMul a2 (aesMul a4 (aesMul a8 (aesMul a16 (aesMul a32 (aesMul a64 a128)))))

/-- A byte rotated left. -/
def rotl8 (a k : Nat) : Nat := (a * 2 ^ k % 256) ^^^ (a / 2 ^ (8 - k))

/-- The S-box. -/
def aesSbox (a : Nat) : Nat :=
  let b := aesInv a
  b ^^^ rotl8 b 1 ^^^ rotl8 b 2 ^^^ rotl8 b 3 ^^^ rotl8 b 4 ^^^ 0x63

/-- The inverse S-box. -/
def aesSboxInv (a : Nat) : Nat := aesInv (rotl8 a 1 ^^^ rotl8 a 3 ^^^ rotl8 a 6 ^^^ 0x05)

/-- Exclusive or of two byte strings. -/
def xorBytes (a b : Bytes) : Bytes := List.zipWith (fun x y => x ^^^ y) a b

/-- The S-box on a byte. -/
def subByte (b : Byte) : Byte := BitVec.ofNat 8 (aesSbox b.toNat)

/-- The words of the key schedule after the key's own, newest first; `nk` words of key. -/
def aesExpand (nk : Nat) : Nat → Nat → Nat → List Bytes → List Bytes
  | 0, _, _, ws => ws
  | k + 1, i, rcon, ws =>
    let prev := ws.getD 0 []
    let back := ws.getD (nk - 1) []
    let t := if i % nk = 0 then xorBytes ((prev.drop 1 ++ prev.take 1).map subByte) [BitVec.ofNat 8 rcon, 0, 0, 0]
      else if nk = 8 ∧ i % nk = 4 then prev.map subByte else prev
    aesExpand nk k (i + 1) (if i % nk = 0 then aesXtime rcon else rcon) (xorBytes back t :: ws)

/-- A string in pieces of `n` bytes. -/
def chunks (n : Nat) : Nat → Bytes → List Bytes
  | 0, _ => []
  | k + 1, b => if b = [] then [] else b.take n :: chunks n k (b.drop n)

/-- A string in pieces of 16 bytes. -/
def blocks16 (b : Bytes) : List Bytes := chunks 16 ((b.length + 15) / 16) b

/-- The round keys of a key of 16 or 32 bytes, 16 bytes each. -/
def aesSchedule (key : Bytes) : List Bytes :=
  let nk := key.length / 4
  let n := 4 * (nk + 7)
  blocks16 (aesExpand nk (n - nk) nk 1 (chunks 4 nk key).reverse).reverse.flatten

/-- Row shift by columns: byte `r + 4c` comes from column `c + r`. -/
def shiftRows (b : Bytes) : Bytes := (List.range 16).map (fun i => b.getD ((i + 4 * (i % 4)) % 16) 0)

/-- The inverse row shift. -/
def shiftRowsInv (b : Bytes) : Bytes := (List.range 16).map (fun i => b.getD ((i + 16 - 4 * (i % 4)) % 16) 0)

/-- One column times the circulant matrix whose first row is given. -/
def mixCol (row : List Nat) (c : Bytes) : Bytes :=
  (List.range 4).map (fun i => BitVec.ofNat 8 ((List.range 4).foldl
    (fun acc j => acc ^^^ aesMul ((c.getD j 0).toNat) (row.getD ((j + 4 - i) % 4) 0)) 0))

/-- Every column mixed. -/
def mixCols (row : List Nat) (b : Bytes) : Bytes := (chunks 4 4 b).flatMap (mixCol row)

/-- The rounds after the first key addition; the last mixes no columns. -/
def aesRounds : List Bytes → Bytes → Bytes
  | [], b => b
  | [k], b => xorBytes (shiftRows (b.map subByte)) k
  | k :: ks, b => aesRounds ks (xorBytes (mixCols [2, 3, 1, 1] (shiftRows (b.map subByte))) k)

/-- AES on one block with its round keys. -/
def aesBlock (sched : List Bytes) (b : Bytes) : Bytes :=
  match sched with
  | [] => b
  | k :: ks => aesRounds ks (xorBytes b k)

/-- The inverse rounds, round keys from the last to the first. -/
def aesInvRounds : List Bytes → Bytes → Bytes
  | [], b => b
  | [k], b => xorBytes ((shiftRowsInv b).map (fun x => BitVec.ofNat 8 (aesSboxInv x.toNat))) k
  | k :: ks, b =>
    aesInvRounds ks (mixCols [14, 11, 13, 9] (xorBytes ((shiftRowsInv b).map (fun x => BitVec.ofNat 8 (aesSboxInv x.toNat))) k))

/-- AES decryption of one block. -/
def aesBlockInv (sched : List Bytes) (b : Bytes) : Bytes :=
  match sched.reverse with
  | [] => b
  | k :: ks => aesInvRounds ks (xorBytes b k)

/-! ### CMAC and the KDF -/

/-- Doubling of a block in GF(2^128) as CMAC does it. -/
def cmacDouble (b : Bytes) : Bytes :=
  let n := beNat b
  beBytes 16 (if n < 2 ^ 127 then 2 * n else ((2 * n) % 2 ^ 128) ^^^ 0x87)

/-- The CMAC chain over the blocks; the last is masked with a subkey, padded where it is short. -/
def cmacChain (sched : List Bytes) (k1 k2 : Bytes) : List Bytes → Bytes → Bytes
  | [], c => aesBlock sched (xorBytes c (xorBytes (0x80 :: zeros 15) k2))
  | [m], c =>
    if m.length = 16 then aesBlock sched (xorBytes c (xorBytes m k1))
    else aesBlock sched (xorBytes c (xorBytes (m ++ 0x80 :: zeros (15 - m.length)) k2))
  | m :: ms, c => cmacChain sched k1 k2 ms (aesBlock sched (xorBytes c m))

/-- AES-CMAC. -/
def aesCmac (key msg : Bytes) : Bytes :=
  let sched := aesSchedule key
  let k1 := cmacDouble (aesBlock sched (zeros 16))
  cmacChain sched k1 (cmacDouble k1) (blocks16 msg) (zeros 16)

/-- The KDF of R426: `bits` of output, from blocks numbered 1 on. -/
def kdf (root label context : Bytes) (bits : Nat) : Bytes :=
  ((List.range ((bits + 127) / 128)).flatMap (fun i =>
    aesCmac root (beBytes 4 (i + 1) ++ label ++ [0] ++ context ++ beBytes 4 bits))).take (bits / 8)

/-- The check value of a key (R425): three bytes of the CMAC of "ATELAMA KEYCHECK". -/
def keyCheck (key : Bytes) : Nat :=
  beNat ((aesCmac key [0x41, 0x54, 0x45, 0x4C, 0x41, 0x4D, 0x41, 0x20, 0x4B, 0x45, 0x59, 0x43, 0x48, 0x45, 0x43, 0x4B]).take 3)

/-! ### GCM -/

/-- A product in GF(2^128) as GHASH has it, over the bits of the first factor, first bit first. -/
def ghashMul : List Bool → Nat → Nat → Nat
  | [], _, z => z
  | x :: xs, v, z => ghashMul xs (if v % 2 == 1 then (v / 2) ^^^ (0xE1 * 2 ^ 120) else v / 2) (if x then z ^^^ v else z)

/-- GHASH under `h`. -/
def ghash (h : Nat) (bs : List Bytes) : Nat :=
  bs.foldl (fun y b => ghashMul (natBits 128 (y ^^^ beNat (b ++ zeros (16 - b.length)))) h 0) 0

/-- The key stream of counter mode from a 96-bit IV, counters from `c` on. -/
def ctrStream (sched : List Bytes) (iv : Bytes) (c n : Nat) : Bytes :=
  (List.range n).flatMap (fun i => aesBlock sched (iv ++ beBytes 4 (c + i)))

/-- The tag over associated data and ciphertext. -/
def gcmTag (sched : List Bytes) (iv aad ct : Bytes) : Bytes :=
  let h := beNat (aesBlock sched (zeros 16))
  let g := ghash h (blocks16 aad ++ blocks16 ct ++ [beBytes 8 (8 * aad.length) ++ beBytes 8 (8 * ct.length)])
  xorBytes (beBytes 16 g) (aesBlock sched (iv ++ beBytes 4 1))

/-- Encryption: ciphertext and tag. -/
def gcmSeal (key iv aad pt : Bytes) : Bytes × Bytes :=
  let sched := aesSchedule key
  let ct := xorBytes pt (ctrStream sched iv 2 ((pt.length + 15) / 16))
  (ct, gcmTag sched iv aad ct)

/-- Decryption: none where the tag fails. -/
def gcmOpen (key iv aad ct tag : Bytes) : Option Bytes :=
  let sched := aesSchedule key
  if gcmTag sched iv aad ct = tag then some (xorBytes ct (ctrStream sched iv 2 ((ct.length + 15) / 16))) else none

/-! ### XTS -/

/-- A tweak multiplied by alpha, little-endian as IEEE 1619 has it. -/
def xtsDouble (t : Bytes) : Bytes :=
  let n := beNat t.reverse
  (beBytes 16 (if n < 2 ^ 127 then 2 * n else ((2 * n) % 2 ^ 128) ^^^ 0x87)).reverse

/-- Blocks under successive tweaks. -/
def xtsBlocks (f : Bytes → Bytes) : List Bytes → Bytes → Bytes
  | [], _ => []
  | b :: bs, t => xorBytes (f (xorBytes b t)) t ++ xtsBlocks f bs (xtsDouble t)

/-- The tweak of a data unit of an epoch, at a first block index (R438). -/
def xtsTweak (key : Bytes) (unit epoch first : Nat) : Bytes :=
  (List.range first).foldl (fun t _ => xtsDouble t) (aesBlock (aesSchedule (key.drop 32)) (beBytes 16 (unit + epoch * 2 ^ 64)).reverse)

/-- XTS-AES-256 encryption of whole blocks. -/
def xtsSeal (key : Bytes) (unit epoch first : Nat) (b : Bytes) : Bytes :=
  xtsBlocks (aesBlock (aesSchedule (key.take 32))) (blocks16 b) (xtsTweak key unit epoch first)

/-! ### Key unwrap with padding (RFC 5649) -/

/-- One inverse step of RFC 3394: A and the register values, R[n] last. -/
def unwrapStep (sched : List Bytes) (n : Nat) (x : Bytes × List Bytes) (t : Nat) : Bytes × List Bytes :=
  let i := (t - 1) % n
  let b := aesBlockInv sched (xorBytes x.1 (beBytes 8 t) ++ x.2.getD i [])
  (b.take 8, x.2.set i (b.drop 8))

/-- The unwrapped initial value and data. -/
def unwrapData (kek w : Bytes) : Bytes × Bytes :=
  let sched := aesSchedule kek
  let n := w.length / 8 - 1
  if n = 1 then
    let b := aesBlockInv sched w
    (b.take 8, b.drop 8)
  else
    let x := (List.range (6 * n)).foldl (fun x k => unwrapStep sched n x (6 * n - k)) (w.take 8, chunks 8 n (w.drop 8))
    (x.1, x.2.flatten)

/-- The key, none where the alternative initial value, the length or the padding is wrong. -/
def keyUnwrap (kek w : Bytes) : Option Bytes :=
  let (a, d) := unwrapData kek w
  let mli := beNat (a.drop 4)
  let n := d.length
  if a.take 4 = [0xA6, 0x59, 0x59, 0xA6] ∧ n < mli + 8 ∧ mli ≤ n ∧ 0 < mli ∧ (d.drop mli).all (· == 0) then some (d.take mli)
  else none

end Sys2Proof.Machine
end

