-- ==== Sys2Proof/Machine/Ident.lean ====
section
/-! DEFINITION. Identities as such (R112 to R117): their serials, registrations in the keep, allocations and the messages
that wait for a grant. -/
namespace Sys2Proof.Machine


/-- The serial of an identity (R112). -/
def idSerial (i : Nat) : Nat := Config.moduleSerial.toNat * 128 + i

/-- The identity a serial names, if it is one of this module's. -/
def identOfSerial (v : Nat) : Option Nat := if v / 128 = Config.moduleSerial.toNat then some (v % 128) else none

/-- The active side. -/
def activeSide (s : State) : Nat := s.prot.active.val

/-- The code of a phase in JOIN_ID_STATUS. -/
def phaseCode : IdPhase → Nat
  | .listening => 0
  | .announcing => 1
  | .ranging => 2
  | .serving => 3
  | .held => 4
  | .parked => 5
  | .expelled => 6

/-- The code of a cause. -/
def causeCode : HeldCause → Nat
  | .head => 0
  | .line => 1
  | .restart => 2
  | .switch => 3

/-- Whether an identity is in Serving or Held. -/
def carries (i : Nat) (s : State) : Bool := (ident i s).phase == .serving || (ident i s).phase == .held

/-- Whether an identity holds a TN on the active side. -/
def holdsTn (x : Identity) : Bool := x.tn.isSome && (x.phase == .ranging || x.phase == .serving || x.phase == .held)

/-- The identity that holds a TN. -/
def identOfTn (tn : Nat) (s : State) : Option Nat :=
  (s.join.idents.find? (fun e => holdsTn e.2 && e.2.tn == some (BitVec.ofNat 12 tn))).map Prod.fst

/-- The ALLOC_ID of index `k`; 0 where there is none (index 0: the TN, which may be 0, see `hasAlloc`). -/
def allocIdOf (i k : Nat) (s : State) : Nat :=
  if k = 0 then ((ident i s).tn.getD 0).toNat else tget (fun _ => 0) (ident i s).allocs k

/-- Whether allocation `k` of an identity exists (R114). -/
def hasAlloc (i k : Nat) (s : State) : Bool :=
  let x := ident i s
  if k = 0 then x.tn.isSome else tget (fun _ => 0) x.allocs k != 0

/-- A change of state, recorded (R144). `fc` is the FC of the frame acted on, or the tick count. -/
def changeState (i : Nat) (dest : IdPhase) (cause : HeldCause) (fc : Nat) (s : State) : State :=
  let x := ident i s
  let old := x.phase
  let c := if dest = .held then causeCode cause else 0
  s |> setIdent i { x with phase := dest, cause := cause }
    |> supEvent 0x0401 ([BitVec.ofNat 8 i, BitVec.ofNat 8 (phaseCode old), BitVec.ofNat 8 (phaseCode dest), BitVec.ofNat 8 c]
        ++ beBytes 6 fc)


/-- An ACK of a message received in frame `u` (R122, R142). -/
def queueAck (i type seq : Nat) (u : BitVec 48) (s : State) : State :=
  queueMsg i 0x83 [BitVec.ofNat 8 type, BitVec.ofNat 8 seq] (some u) s

/-! ### Saved registrations (R116, R117, R575) -/

/-- The entry of word `w` of a registration. -/
def regEntry (side i w : Nat) : Nat := 128 + 640 * side + 5 * i + w

/-- Whether a side holds a saved registration of an identity. -/
def savedValid (side i : Nat) (s : State) : Bool := keepFld (regEntry side i 0) 31 31 s == 1

/-- The HEID of a saved registration. -/
def savedHeid (side i : Nat) (s : State) : Nat := keepFld (regEntry side i 0) 15 0 s

/-- The word of a registration that holds indexes `2w - 1` and `2w`. -/
def allocWord (x : Identity) (w : Nat) : Word :=
  let a := tget (fun _ => 0) x.allocs (2 * w - 1)
  let b := if w = 4 then 0 else tget (fun _ => 0) x.allocs (2 * w)
  word (at' 31 (b2n (a != 0)) + at' 16 a + at' 15 (b2n (b != 0)) + b)

/-- Save the registration of an identity on a side. -/
def saveReg (side i : Nat) (s : State) : State :=
  let x := ident i s
  s |> keepWrite (regEntry side i 0) (word (at' 31 1 + at' 16 (x.tn.getD 0).toNat + x.heid.toNat))
    |> each [1, 2, 3, 4] (fun w => keepWrite (regEntry side i w) (allocWord x w))

/-- Save it again where it has been saved. -/
def resaveReg (i : Nat) (s : State) : State :=
  if savedValid (activeSide s) i s then saveReg (activeSide s) i s else s

/-- Clear a saved registration. -/
def clearReg (side i : Nat) (s : State) : State := each [0, 1, 2, 3, 4] (fun w => keepWrite (regEntry side i w) 0) s

/-- An index's ALLOC_ID of a saved registration; 0 for none. -/
def savedAlloc (side i k : Nat) (s : State) : Nat :=
  let e := regEntry side i ((k + 1) / 2)
  if k % 2 = 1 then (if keepFld e 31 31 s = 1 then keepFld e 29 16 s else 0)
  else (if keepFld e 15 15 s = 1 then keepFld e 13 0 s else 0)

/-- The identity as its registration on a side restores it (R144). -/
def restored (side i : Nat) (x : Identity) (s : State) : Identity :=
  { x with
    tn := some (BitVec.ofNat 12 (keepFld (regEntry side i 0) 27 16 s)),
    heid := BitVec.ofNat 16 (savedHeid side i s),
    allocs := [1, 2, 3, 4, 5, 6, 7].foldl (fun t k => tput (fun _ => 0) k (savedAlloc side i k s) t) [] }

/-- The expelled flag (R575). -/
def expelledFlag (i : Nat) (s : State) : Bool := bitOf (keepValue (104 + i / 32) s) (i % 32)

/-- Set or clear the expelled flag. -/
def setExpelled (i : Nat) (on : Bool) (s : State) : State :=
  keepWrite (104 + i / 32) (putFld (keepValue (104 + i / 32) s) (i % 32) (i % 32) (b2n on)) s

/-- The entry of a saved key epoch; `d` is 0 downstream, 1 upstream. -/
def epochEntry (side i d : Nat) : Nat := 1408 + 256 * side + 2 * i + d

/-! ### Flushing (R149) -/

/-- The queue of an allocation emptied, every frame counted. -/
def flushAlloc (i k : Nat) (s : State) : State :=
  let a := 8 * i + k
  s |> countN Reg.CNT_ALLOC_FLUSH (allocFrames a s) |> emptyAlloc a

/-- The tubs of the bonded fragments held. -/
def dropFrags (i : Nat) (s : State) : State :=
  let x := ident i s
  s |> each x.frags (fun f s => freeTubsOf 6 f.tubs s) |> modIdent i (fun x => { x with frags := [], gapSince := none, expected := none, bondCut := false })

/-- An identity drops its TN and allocations (R144, R149). -/
def dropTn (i : Nat) (s : State) : State :=
  s |> each (List.range 8) (fun k s => flushAlloc i k s) |> dropFrags i
    |> modIdent i (fun x => { x with tn := none, allocs := [], homes := [], timer := none, msgs := [], doze := none,
                                     waking := false, grantAt := none, lastMsg := none, seqTx := 0, backoff := 0 })

end Sys2Proof.Machine
end

