-- ==== Sys2Proof/Machine/Cipher.lean ====
section
/-! DEFINITION. The cipher engine (R423 to R444): roots, derivations and their slots, protected frames, epochs and
rekeying, key blobs. -/
namespace Sys2Proof.Machine

/-- The keys of a direction of an identity. -/
def keyDir (i : Nat) (up : Bool) (s : State) : KeyDir := tget (fun _ => KeyDir.reset) s.ciph.dirs (2 * i + b2n up)

/-- Put them. -/
def setKeyDir (i : Nat) (up : Bool) (x : KeyDir) (s : State) : State :=
  { s with ciph := { s.ciph with dirs := tput (fun _ => KeyDir.reset) (2 * i + b2n up) x s.ciph.dirs } }

/-- A slot as a number. -/
def slotOf (k : Option LineKey) : Nat :=
  match k with
  | some k => b2n k.slot
  | none => 0

/-- Line slots in use (R437). -/
def usedSlots (s : State) : Nat := (s.ciph.dirs.map (fun e => b2n e.2.cur.slot + slotOf e.2.pend + slotOf e.2.old)).sum

/-- Line slots free: CIPH_SLOTS.FREE. -/
def freeSlots (s : State) : Nat := 384 - usedSlots s

/-- Line slots that hold pending keys: CIPH_SLOTS.PENDING. -/
def pendingSlots (s : State) : Nat := (s.ciph.dirs.map (fun e => slotOf e.2.pend)).sum

/-- The key a derivation is for. -/
def jobKey (j : KeyJob) (s : State) : Option LineKey :=
  let d := keyDir j.ident j.up s
  if j.pend then d.pend else some d.cur

/-- Change the key a derivation is for. -/
def modJobKey (j : KeyJob) (f : LineKey → LineKey) (s : State) : State :=
  let d := keyDir j.ident j.up s
  setKeyDir j.ident j.up (if j.pend then { d with pend := d.pend.map f } else { d with cur := f d.cur }) s

/-- A derivation that waits for a slot is given one where one is free, in request order (R437). -/
def giveSlots (s : State) : State :=
  each s.ciph.jobs (fun j s =>
    match jobKey j s with
    | some k => if !k.slot ∧ 0 < freeSlots s then modJobKey j (fun k => { k with slot := true }) s else s
    | none => s) s

/-- Request a derivation; one that finds no slot waits, and is counted (R437). -/
def requestKey (j : KeyJob) (s : State) : State :=
  let s := giveSlots { s with ciph := { s.ciph with jobs := s.ciph.jobs ++ [j] } }
  match jobKey j s with
  | some k => if k.slot then s else count Reg.CNT_CIPH_SLOT_WAIT s
  | none => s

/-- Withdraw the derivations for a key. -/
def dropJobs (i : Nat) (up pend : Bool) (s : State) : State :=
  { s with ciph := { s.ciph with jobs := s.ciph.jobs.filter (fun j => !(j.ident == i && j.up == up && j.pend == pend)) } }

/-- Derivations for a pending key serve the key in force once it is that. -/
def promoteJobs (i : Nat) (up : Bool) (s : State) : State :=
  { s with ciph := { s.ciph with jobs := s.ciph.jobs.map (fun j =>
      if j.ident = i ∧ j.up = up ∧ j.pend then { j with pend := false } else j) } }

/-! ### Derivation (R426 to R429) -/

/-- The root of an identity's line keys (R428). -/
def lineRoot (i : Nat) (s : State) : Option Bytes :=
  let cfg := reg (Reg.CIPH_ID_CFG i) s
  if bitOf cfg 8 then
    let k := tget (fun _ => []) s.keep.loaded (fld cfg 5 0)
    if k = [] then none else some k
  else s.keep.opRoot

/-- "KILSIL-DS" and "KILSIL-US". -/
def lineLabel (up : Bool) : Bytes :=
  [0x4B, 0x49, 0x4C, 0x53, 0x49, 0x4C, 0x2D, if up then 0x55 else 0x44, 0x53]

/-- A line key followed by its salt (R427). -/
def deriveLine (root : Bytes) (i : Nat) (up : Bool) (epoch heid : Nat) (k256 : Bool) : Bytes :=
  kdf root (lineLabel up) (beBytes 8 (idSerial i) ++ beBytes 4 epoch ++ beBytes 2 heid) (if k256 then 288 else 160)

/-- The key-encryption key (R427): label "VC64-COMPAT". -/
def kekOf (root : Bytes) : Bytes := kdf root [0x56, 0x43, 0x36, 0x34, 0x2D, 0x43, 0x4F, 0x4D, 0x50, 0x41, 0x54] [] 256

/-- "STORE-DRAM" and "STORE-JOURNAL": the storage keys of an epoch (R427). -/
def storeKey (journal : Bool) (epoch : Nat) : Bytes :=
  kdf (beBytes 32 Config.deviceRoot.toNat)
    ([0x53, 0x54, 0x4F, 0x52, 0x45, 0x2D] ++ (if journal then [0x4A, 0x4F, 0x55, 0x52, 0x4E, 0x41, 0x4C] else [0x44, 0x52, 0x41, 0x4D]))
    (beBytes 4 epoch) 512

/-- The bytes of a data unit as a memory holds them (R438): the unit's number, the epoch, the first 16-byte block that is
encrypted. -/
def storedUnit (journal : Bool) (unit epoch first : Nat) (b : Bytes) : Bytes := xtsSeal (storeKey journal epoch) unit epoch first b

/-- A cell of DRAM as its channel holds it: one data unit, encrypted under CIPH_DRAM_EPOCH (R318, R438). -/
def dramStored (cell : Nat) (s : State) : Bytes :=
  storedUnit false cell (keepValue 32 s).toNat 0 ((List.range 256).map (fun i => dramByte (256 * cell + i) s))

/-- KEY_READY for a derivation (R142, R143). -/
def keyReady (i : Nat) (up : Bool) (epoch : Word) (s : State) : State :=
  queueMsg i 0x87 ([BitVec.ofNat 8 (b2n up), 0, 0, 0] ++ beBytes 4 epoch.toNat) none s

/-- Note whether the identity's last derivation failed. -/
def setNoRoot (i : Nat) (on : Bool) (s : State) : State :=
  let m : BitVec 128 := BitVec.ofNat 128 (2 ^ i)
  { s with ciph := { s.ciph with noRoot := if on then s.ciph.noRoot ||| m else s.ciph.noRoot &&& ~~~ m } }

/-- A derivation completes, or fails for want of its root (R428). -/
def completeJob (j : KeyJob) (s : State) : State :=
  let s := { s with ciph := { s.ciph with jobs := s.ciph.jobs.erase j } }
  match jobKey j s with
  | none => s
  | some k =>
    match lineRoot j.ident s with
    | none => s |> setNoRoot j.ident true |> event 0x0E01 [BitVec.ofNat 8 j.ident, BitVec.ofNat 8 (b2n j.up)]
    | some r =>
      let key := deriveLine r j.ident j.up k.epoch.toNat (ident j.ident s).heid.toNat (rbit (Reg.CIPH_ID_CFG j.ident) 9 s)
      s |> setNoRoot j.ident false |> modJobKey j (fun k => { k with key := some key })
        |> when' j.ready (keyReady j.ident j.up k.epoch)

/-- KEY_DERIVED (R429): the first derivation in request order that has its slot. -/
def keyDerived (s : State) : State :=
  match s.ciph.jobs.find? (fun j => match jobKey j s with | some k => k.slot | none => true) with
  | some j => completeJob j s
  | none => s

/-! ### Epochs (R434 to R437) -/

/-- Save the epoch in force of a direction (R117). -/
def saveEpoch (i : Nat) (up : Bool) (s : State) : State :=
  keepWrite (epochEntry (activeSide s) i (b2n up)) (keyDir i up s).cur.epoch s

/-- A key of an epoch not yet derived. -/
def newKey (epoch : Word) (slot : Bool) : LineKey := { LineKey.reset with epoch := epoch, slot := slot }

/-- KEY_EPOCH (R434, R435, R437). -/
def nameEpoch (i : Nat) (up : Bool) (epoch : Word) (fc : BitVec 48) (s : State) : State :=
  let d := keyDir i up s
  if d.cur.epoch = epoch ∧ d.cur.key.isSome then keyReady i up epoch s
  else if d.cur.epoch = epoch ∧ d.cur.slot then s
  else if d.cur.epoch = epoch ∧ d.pend.isNone then requestKey { ident := i, up := up, pend := false, ready := true } s
  else
    s |> dropJobs i up true |> setKeyDir i up { d with pend := some (newKey epoch (slotOf d.pend == 1)), pendFc := fc }
      |> requestKey { ident := i, up := up, pend := true, ready := true }

/-- The pending key comes into force; `keep` says whether the one before is kept until it is retired (R434). -/
def adoptPending (i : Nat) (up keepOld : Bool) (s : State) : State :=
  let d := keyDir i up s
  match d.pend with
  | none => s
  | some k =>
    s |> dropJobs i up false
      |> setKeyDir i up { d with cur := k, pend := none, old := if keepOld then some d.cur else none,
                                 curFc := if keepOld then some d.pendFc else none }
      |> promoteJobs i up |> giveSlots |> saveEpoch i up

/-- The downstream switches that frame `fc` brings (R434). -/
def downSwitches (fc : BitVec 48) (s : State) : State :=
  each allIdents (fun i s =>
    let d := keyDir i false s
    if d.pend.isSome && !serialBelow 48 fc.toNat d.pendFc.toNat then adoptPending i false true s else s) s

/-- KEY_RETIRE (R434): the old downstream key is retired and its slot freed. -/
def keyRetire (i : Nat) (s : State) : State :=
  s |> setKeyDir i false { keyDir i false s with old := none } |> giveSlots

/-- One direction of a RESUME_ACK (R436). -/
def resumeEpoch (i : Nat) (up : Bool) (epoch : Word) (s : State) : State :=
  let d := keyDir i up s
  let drop := fun (s : State) => s |> dropJobs i up true |> setKeyDir i up { keyDir i up s with pend := none } |> giveSlots
  if d.cur.epoch = epoch ∧ d.cur.slot then drop s
  else match d.pend with
    | some k =>
      if k.epoch = epoch then adoptPending i up false s
      else
        s |> drop |> dropJobs i up false |> setKeyDir i up { KeyDir.reset with cur := newKey epoch d.cur.slot }
          |> requestKey { ident := i, up := up, pend := false, ready := true } |> saveEpoch i up
    | none =>
      s |> dropJobs i up false |> setKeyDir i up { KeyDir.reset with cur := newKey epoch d.cur.slot }
        |> requestKey { ident := i, up := up, pend := false, ready := true } |> saveEpoch i up

/-- The keys of a side's saved epochs, not derived; every slot is free (R444). -/
def loadEpochs (side : Nat) (s : State) : State :=
  let s := { s with ciph := { s.ciph with jobs := [], dirs := [] } }
  each allIdents (fun i s => each [false, true] (fun up s =>
    setKeyDir i up { KeyDir.reset with cur := newKey (keepValue (epochEntry side i (b2n up)) s) false } s) s) s

/-- After a reset: the keys of the saved epochs of every identity with a saved registration are requested (R429). -/
def requestSaved (s : State) : State :=
  each (allIdents.filter (fun i => savedValid (activeSide s) i s)) (fun i s =>
    each [false, true] (fun up s => requestKey { ident := i, up := up, pend := false, ready := false } s) s) s

/-- The counter resumes at the reserve, which is raised (R432). -/
def resumeCounter (s : State) : State :=
  let r := (keepValue 3 s).toNat
  keepWrite 3 (word (r + 1)) { s with ciph := { s.ciph with ctr := 2 ^ 36 * r } }

/-! ### Protected frames (R430 to R433) -/

/-- The next upstream CTR, none while the reserve is not raised (R432, R444). -/
def nextCtr (s : State) : Option Nat × State :=
  let r := (keepValue 3 s).toNat
  let c := s.ciph.ctr
  if 2 ^ 36 * r ≤ c then (none, s)
  else
    let s := { s with ciph := { s.ciph with ctr := c + 1 } }
    (some c, if 2 ^ 35 + (c + 1) = 2 ^ 36 * r then keepWrite 3 (word (r + 1)) s else s)

/-- The additional authenticated data (R431). -/
def frameAad (tn : Nat) (up : Bool) (epoch : Nat) : Bytes := beBytes 2 (tn * 16 + b2n up) ++ beBytes 4 epoch ++ [0, 0]

/-- Protect a frame of identity `i` (R430, R431); none while its key is not derived or no CTR can be given. -/
def protectFrame (i : Nat) (frame : Bytes) (s : State) : Option Bytes × State :=
  let k := (keyDir i true s).cur
  match k.key with
  | none => (none, s)
  | some key =>
    match nextCtr s with
    | (none, s) => (none, s)
    | (some c, s) =>
      let n := key.length - 4
      let (ct, tag) := gcmSeal (key.take n) (key.drop n ++ beBytes 8 c)
        (frameAad ((ident i s).tn.getD 0).toNat true k.epoch.toNat) frame
      (some (beBytes 8 c ++ ct ++ tag), s)

/-- A tag failure (R433): counted, and recorded at most once per second per identity. -/
def tagFailure (i : Nat) (s : State) : State :=
  let n := tget (fun _ => 0) s.ciph.tagFails i + 1
  let due := match tget (fun _ => (none : Option Nat)) s.ciph.tagEvent i with
    | some c => decide (10 ^ 9 ≤ s.cycle - c)
    | none => true
  let s := count Reg.CNT_CIPH_TAG_FAIL s
  if due then
    event 0x0E02 (BitVec.ofNat 8 i :: beBytes 4 n)
      { s with ciph := { s.ciph with tagFails := tput (fun _ => 0) i 0 s.ciph.tagFails,
                                     tagEvent := tput (fun _ => none) i (some s.cycle) s.ciph.tagEvent } }
  else { s with ciph := { s.ciph with tagFails := tput (fun _ => 0) i n s.ciph.tagFails } }

/-- The window of R433. -/
def windowAccepts (k : LineKey) (c : Nat) : Bool :=
  match k.top with
  | none => true
  | some t => decide (t < c + 1024) && !k.seen.contains c

/-- The window after CTR `c` has been accepted. -/
def windowNote (k : LineKey) (c : Nat) : LineKey :=
  let t := match k.top with
    | none => c
    | some t => max t c
  { k with top := some t, seen := (c :: k.seen).filter (fun x => decide (t < x + 1024)) }

/-- A downstream protected frame (R433, R434): accepted, or discarded and counted. `fc` is the FC of its fragment with
FIRST = 1. -/
def openFrame (i : Nat) (fc : BitVec 48) (p : Bytes) (s : State) : Option Bytes × State :=
  let d := keyDir i false s
  let before : Bool := match d.curFc with
    | some c => serialBelow 48 fc.toNat c.toNat
    | none => false
  match (if before then d.old else some d.cur) with
  | none => (none, count Reg.CNT_CIPH_KEY_MISSING s)
  | some k =>
    match k.key with
    | none => (none, count Reg.CNT_CIPH_KEY_MISSING s)
    | some key =>
      let n := key.length - 4
      let c := beAt p 0 8
      match (if p.length < 38 then none else
        gcmOpen (key.take n) (key.drop n ++ p.take 8) (frameAad ((ident i s).tn.getD 0).toNat false k.epoch.toNat)
          (slice p 8 (p.length - 24)) (p.drop (p.length - 16))) with
      | none => (none, tagFailure i s)
      | some frame =>
        if windowAccepts k c then
          let k := windowNote k c
          (some frame, setKeyDir i false (if before then { d with old := some k } else { d with cur := k }) s)
        else (none, count Reg.CNT_CIPH_REPLAY s)

/-! ### Roots and blobs (R423, R442, R443) -/

/-- The bytes of registers written word by word, most significant byte first. -/
def regBytes (f : Nat → Nat) (n : Nat) (s : State) : Bytes := (List.range n).flatMap (fun w => beBytes 4 (reg (f w) s).toNat)

/-- OPROOT_COMMIT (R423): written once; the lowest code that applies refuses it. -/
def oprootCommit (s : State) : State :=
  let key := regBytes Reg.CIPH_OPROOT_DATA 8 s
  let err := if s.keep.opRoot.isSome then 1 else if key.all (· == 0) then 2 else if inDip s then 3 else 0
  let s := setRfld Reg.CIPH_OPROOT_CMD 5 4 err s
  if err = 0 then
    { s with keep := { s.keep with opRoot := some key } } |> each (List.range 8) (fun w => setReg (Reg.CIPH_OPROOT_DATA w) 0)
  else s

/-- Put a loaded key; an empty one is none. -/
def setLoaded (k : Nat) (b : Bytes) (s : State) : State :=
  { s with keep := { s.keep with loaded := tput (fun _ => []) k b s.keep.loaded } }

/-- The outcome of an unwrap (R442, R443): RESULT and the key. -/
def unwrapResult (len : Nat) (keepFails : Bool) (s : State) : Nat × Bytes :=
  let blob := (regBytes Reg.CIPH_UNWRAP_DATA 11 s).take len
  let klen := beAt blob 1 1
  if inDip s then (7, [])
  else match s.keep.opRoot with
    | none => (1, [])
    | some r =>
      if beAt blob 0 1 ≠ 0x64 ∨ !((klen = 16 ∧ len = 28) ∨ (klen = 32 ∧ len = 44)) then (2, [])
      else if beAt blob 2 1 ≠ 1 then (5, [])
      else match keyUnwrap (kekOf r) (blob.drop 4) with
        | none => (3, [])
        | some k => if k.length ≠ klen then (3, []) else if keepFails then (4, []) else (0, k)

/-- EV_CIPH_UNWRAP, and RESULT. -/
def unwrapDone (slot op result len : Nat) (s : State) : State :=
  s |> setReg Reg.CIPH_UNWRAP_CMD (word (at' 28 result + at' 8 len + slot))
    |> event 0x0E03 [BitVec.ofNat 8 slot, BitVec.ofNat 8 op, BitVec.ofNat 8 result]

/-- UNWRAP (R443): OP 1 of CIPH_UNWRAP_CMD. -/
def unwrapKey (v : Word) (keepFails : Bool) (s : State) : State :=
  let len := fld v 13 8
  let slot := fld v 5 0
  let (r, k) := unwrapResult len keepFails s
  s |> when' (r == 0) (setLoaded slot k) |> when' (r != 0) (count Reg.CNT_CIPH_UNWRAP_FAIL) |> unwrapDone slot 1 r len

/-- ERASE (R443): OP 2. -/
def eraseKey (v : Word) (s : State) : State := s |> setLoaded (fld v 5 0) [] |> unwrapDone (fld v 5 0) 2 0 (fld v 13 8)

/-- CIPH_ID_STATUS of an identity. -/
def ciphStatus (i : Nat) (s : State) : Word :=
  let d := keyDir i false s
  let u := keyDir i true s
  word (at' 31 (b2n d.cur.key.isSome) + at' 30 (b2n u.cur.key.isSome) + at' 29 (b2n d.pend.isSome)
    + at' 28 (b2n u.pend.isSome) + at' 27 (b2n (s.ciph.noRoot.getLsbD i)))

end Sys2Proof.Machine
end

