-- ==== Sys2Proof/Machine/Tally.lean ====
section
/-! DEFINITION. Consignments and tallies (R186 to R233): messages, the journal, acceptance, carrying to the head end and to
recipients, the acknowledgement window and the scan. -/
namespace Sys2Proof.Machine

/-- Change the tally engine. -/
def modTally (f : TallyState → TallyState) (s : State) : State := { s with tally := f s.tally }

/-! ### The journal (R199 to R206) -/

/-- A slot's copy on a die. -/
def slotCopy (die j : Nat) (s : State) : SlotCopy := tget (fun _ => SlotCopy.blank) s.tally.journal (8192 * die + j)

/-- Put a slot's copy on a die. -/
def setSlotCopy (die j : Nat) (c : SlotCopy) (s : State) : State :=
  modTally (fun t => { t with journal := tput (fun _ => SlotCopy.blank) (8192 * die + j) c t.journal }) s

/-- The dies in use: both, or the survivor (R484). -/
def liveDies (s : State) : List Nat :=
  match s.keep.failedDie with
  | none => [0, 1]
  | some d => if d = 0 then [1] else [0]

/-- The die a slot is read from. -/
def readDie (s : State) : Nat :=
  match s.keep.failedDie with
  | some d => if d = 0 then 1 else 0
  | none => 0

/-- A slot as the terminal reads it: BAD where either die says so, and while a unit its write failed on is not remapped. -/
def slotAt (j : Nat) (s : State) : SlotCopy :=
  let c := slotCopy (readDie s) j s
  if (liveDies s).any (fun d => (slotCopy d j s).st == .bad) || tget (fun _ => 0) s.tally.badDies j != 0 then { c with st := .bad } else c

/-- Put a slot on every die in use. -/
def putSlot (j : Nat) (c : SlotCopy) (s : State) : State := each (liveDies s) (fun d => setSlotCopy d j c) s

/-- What the engine knows of a slot. -/
def work (j : Nat) (s : State) : SlotWork := tget (fun _ => SlotWork.none) s.tally.work j

/-- Put it. -/
def setWork (j : Nat) (x : SlotWork) (s : State) : State :=
  modTally (fun t => { t with work := tput (fun _ => SlotWork.none) j x t.work }) s

/-- Change it. -/
def modWork (j : Nat) (f : SlotWork → SlotWork) (s : State) : State := setWork j (f (work j s)) s

/-- The bytes of a payload's padded form. -/
def padLen (n : Nat) : Nat := (n + 15) / 16 * 16

/-- CIPH_JOURNAL_EPOCH. -/
def journalEpoch (s : State) : Word := keepValue 33 s

/-- The payload of a slot as a die holds it, from byte 32 on: padded and encrypted (R200, R438). -/
def slotStored (j : Nat) (c : SlotCopy) : Bytes :=
  storedUnit true j c.epoch.toNat 2 (c.payload ++ zeros (padLen c.payload.length - c.payload.length))

/-- Header bytes 2 to 27 (R200). -/
def slotFields (c : SlotCopy) : Bytes :=
  [BitVec.ofNat 8 (b2n c.down * 128 + c.ident), 0] ++ beBytes 2 c.flow ++ beBytes 2 c.payload.length ++ beBytes 4 c.sseq
    ++ beBytes 4 c.pcrc.toNat ++ beBytes 8 c.tally ++ beBytes 4 c.epoch.toNat

/-- The 32-byte header of a slot (R200). -/
def slotHeader (c : SlotCopy) : Bytes := [c.st.code, c.nstate] ++ slotFields c ++ beBytes 4 c.hcrc.toNat

/-- What a die holds of a slot (R200). -/
def slotBytes (j : Nat) (c : SlotCopy) : Bytes := slotHeader c ++ slotStored j c

/-- STATE and NSTATE of a copy rewritten. -/
def SlotCopy.mark (c : SlotCopy) (st : SlotState) : SlotCopy := { c with st := st, nstate := ~~~st.code }

/-- A copy as it is written whole: NSTATE, PCRC and HCRC computed (R200). -/
def sealSlot (j : Nat) (c : SlotCopy) : SlotCopy :=
  let c := { c.mark c.st with pcrc := crc32c (slotStored j c), headLost := false, tailLost := false }
  { c with hcrc := crc32c (slotFields c) }

/-- Whether a copy is valid (R202): NSTATE, HCRC, and PCRC for PENDING and HELD. -/
def copyValid (j : Nat) (c : SlotCopy) : Bool :=
  !c.headLost && c.nstate == ~~~c.st.code && c.hcrc == crc32c (slotFields c)
    && (if c.st = .pending ∨ c.st = .held then
          c.pcrc == crc32c (slotStored j c) && !(c.tailLost && decide (1024 < 32 + padLen c.payload.length)) else true)

/-- Whether a write has been issued and may not be verified yet: every one is verified within 142 µs, a PENDING one when its
row says so (R205). -/
def writeLive (now : Nat) (w : JournalWrite) : Bool :=
  match w.cycle with
  | some c => decide (16 < w.bytes) || decide (now < c + 142000)
  | none => false

/-- The bytes issued and not yet verified (R205). -/
def unverifiedBytes (s : State) : Nat := ((s.tally.writes.filter (writeLive s.cycle)).map JournalWrite.bytes).sum

/-- Waiting marks issued in order while `left` bytes may still be. -/
def startWrites (now : Nat) : Nat → List JournalWrite → List JournalWrite
  | _, [] => []
  | left, w :: ws => match w.cycle with
    | some _ => w :: startWrites now left ws
    | none => if w.bytes ≤ left then { w with cycle := some now } :: startWrites now (left - w.bytes) ws else w :: ws

/-- The writes that the bound of R205 allows are issued; marks that must be verified by now are done with. -/
def pumpWrites (s : State) : State :=
  let left := 32768 - unverifiedBytes s
  modTally (fun t => { t with writes := startWrites s.cycle left (t.writes.filter (fun w => w.cycle.isNone || writeLive s.cycle w)) }) s

/-- A journal write, issued at once or as soon as the bound of R205 allows. -/
def issueWrite (j bytes : Nat) (s : State) : State :=
  s |> modTally (fun t => { t with writes := t.writes ++ [{ slot := j, bytes := bytes, cycle := none }] }) |> pumpWrites

/-- A mark: header bytes 0 to 15 rewritten with another STATE (R203). -/
def writeMark (j : Nat) (st : SlotState) (s : State) : State :=
  s |> each (liveDies s) (fun d s => setSlotCopy d j ((slotCopy d j s).mark st) s) |> issueWrite j 16

/-- Journal bytes of a consignment (R212). -/
def journalBytes (n : Nat) : Nat := padLen (64 + n)

/-- The used slots as they are read, in slot order. -/
def usedSlotsOf (s : State) : List (Nat × SlotCopy) :=
  (s.tally.journal.filter (fun e => e.1 / 8192 == readDie s)).map (fun e => (e.1 % 8192, slotAt (e.1 % 8192) s))

/-- The slots of a flow in some states. -/
def flowSlots (f : Nat) (c : SlotState → Bool) (s : State) : List (Nat × SlotCopy) :=
  (usedSlotsOf s).filter (fun e => e.2.flow == f && c e.2.st)

/-- PENDING or HELD. -/
def inHand (x : SlotState) : Bool := x == .pending || x == .held

/-- HELD or DONE. -/
def settled (x : SlotState) : Bool := x == .held || x == .done

/-- SSEQ order (R6). -/
def bySseq (a b : Nat × SlotCopy) : Bool := a.2.sseq == b.2.sseq || serialBelow 32 a.2.sseq b.2.sseq

/-- Tally order. -/
def byTally (a b : Nat × SlotCopy) : Bool := decide (a.2.tally ≤ b.2.tally)

/-- The newest of some slots. -/
def newestOf (l : List (Nat × SlotCopy)) : Option (Nat × SlotCopy) := (sortBy bySseq l).getLast?

/-- TALLY_FLOW_CFG of a flow. -/
def flowCfg (f : Nat) (s : State) : Word := reg (Reg.TALLY_FLOW_CFG f) s

/-- OPEN, DIR, ALLOC_K, IDENT and EP. -/
def flowOpen (f : Nat) (s : State) : Bool := bitOf (flowCfg f s) 31
def flowDown (f : Nat) (s : State) : Bool := bitOf (flowCfg f s) 30
def flowK (f : Nat) (s : State) : Nat := fld (flowCfg f s) 26 24
def flowIdent (f : Nat) (s : State) : Nat := fld (flowCfg f s) 22 16
def flowEp (f : Nat) (s : State) : Nat := fld (flowCfg f s) 7 0

/-- Whether a flow is anchored (R189). -/
def anchored (f : Nat) (s : State) : Bool := flowSlots f settled s != []

/-- The next expected SSEQ: of an anchored flow, and of one that has a slot in PENDING (R207 step 10). -/
def nextSseq (f : Nat) (s : State) : Option Nat :=
  if flowSlots f (fun x => inHand x || settled x) s = [] then none else some (tget (fun _ => 0) s.tally.flowNext f)

/-- Set it. -/
def setNextSseq (f v : Nat) (s : State) : State :=
  modTally (fun t => { t with flowNext := tput (fun _ => 0) f (v % 2 ^ 32) t.flowNext }) s

/-- The marker of an open flow (R204). -/
def isMarker (j : Nat) (s : State) : Bool :=
  let c := slotAt j s
  c.st == .done && flowOpen c.flow s && flowSlots c.flow (· == .held) s == []
    && (newestOf (flowSlots c.flow (· == .done) s)).map Prod.fst == some j

/-- Whether a slot may be taken (R204). -/
def eligible (j : Nat) (s : State) : Bool :=
  match (slotAt j s).st with
  | .free => true
  | .void => true
  | .done => !isMarker j s
  | _ => false

/-- The first eligible slot, round robin. -/
def findSlot (s : State) : Nat → Nat → Option Nat
  | 0, _ => none
  | n + 1, j => if eligible j s then some j else findSlot s n ((j + 1) % 8192)

/-- The slot R204 takes next. -/
def nextSlot (s : State) : Option Nat := findSlot s 8192 ((s.tally.last + 1) % 8192)

/-- The slot in hand that holds a flow's SSEQ, or a receipted one. -/
def slotOfSseq (f sseq : Nat) (s : State) : Option (Nat × SlotCopy) :=
  (flowSlots f (fun x => inHand x || settled x) s).find? (fun e => e.2.sseq == sseq)

/-- The copy of a payload in the tally engine's floor (R206); none where the floor cannot hold it. -/
def copyPayload (j : Nat) (b : Bytes) (s : State) : State :=
  match storeData 8 b true s with
  | (some hs, s) => modWork j (fun w => { w with tubs := hs }) s
  | (none, s) => s

/-- The copy is given up. -/
def dropCopy (j : Nat) (s : State) : State :=
  s |> freeTubsOf 8 (work j s).tubs |> setWork j SlotWork.none

/-- The payload of a slot for a sending: from the copy, or read back and counted (R206). -/
def sendPayload (j : Nat) (s : State) : Bytes × State :=
  ((slotAt j s).payload, when' ((work j s).tubs == []) (count Reg.CNT_TALLY_JOURNAL_READ) s)

/-- TALLY_RESERVE. -/
def tallyReserve (s : State) : Nat := (keepValue 1 s).toNat

/-- Whether the next tally has reached the reserve (R209). -/
def reserveReached (s : State) : Bool := decide (tallyReserve s * 2 ^ 24 ≤ s.tally.next)

/-- The next upstream tally is given (R209). -/
def giveTally (s : State) : Nat × State :=
  let t := s.tally.next
  let r := tallyReserve s
  let s := modTally (fun x => { x with next := t + 1 }) s
  (t, if t + 1 = r * 2 ^ 24 - 2 ^ 23 then keepWrite 1 (word (r + 1)) s else s)

/-! ### Messages (R191 to R198) -/

/-- A tally message (R192). -/
structure TallyMsg where
  ver : Nat
  type : Nat
  flow : Nat
  sseq : Nat
  tally : Nat
  len : Nat
  code : Nat
  flags : Nat
  payload : Bytes
  sizeOk : Bool
  deriving DecidableEq, Repr

/-- The fields of a UDP payload. -/
def decodeTally (b : Bytes) : TallyMsg :=
  let len := beAt b 16 2
  { ver := beAt b 0 1, type := beAt b 1 1, flow := beAt b 2 2, sseq := beAt b 4 4, tally := beAt b 8 8, len := len,
    code := beAt b 18 1, flags := beAt b 19 1, payload := slice b 20 len, sizeOk := b.length == 24 + len }

/-- A message as a UDP payload. -/
def encodeTally (type flow sseq tally code flags : Nat) (payload : Bytes) : Bytes :=
  let b := [1, BitVec.ofNat 8 type] ++ beBytes 2 flow ++ beBytes 4 sseq ++ beBytes 8 tally ++ beBytes 2 payload.length
    ++ [BitVec.ofNat 8 code, BitVec.ofNat 8 flags] ++ payload
  b ++ beBytes 4 (crc32c b).toNat

/-- The ports the parser knows (R237, R191). -/
def parseCfg (early : Bool) (s : State) : ParseCfg :=
  { vxlan := rfld Reg.CLS_PARSE_CFG 15 0 s, tally := rfld Reg.TALLY_CTRL 15 0 s, early := early }

/-- The UDP payload of a frame. -/
def udpPayload (frame : Bytes) (s : State) : Bytes :=
  match (parse (parseCfg false s) frame).udpOff with
  | some u => slice frame (u + 8) (beAt frame (u + 4) 2 - 8)
  | none => []

/-- Whether the CRC of a UDP payload is right (R194). -/
def tallyCrcOk (b : Bytes) : Bool := beAt b (b.length - 4) 4 == (crc32c (b.take (b.length - 4))).toNat

/-- Whether a REFUSE names a reason and a detail of R195. -/
def refuseAllowed (code flags : Nat) : Bool :=
  if code = 1 then decide (1 ≤ flags) && decide (flags ≤ 5)
  else if code = 5 then decide (1 ≤ flags) && decide (flags ≤ 7)
  else decide (2 ≤ code) && decide (code ≤ 4) && flags == 0

/-- Whether R193 lets a source send a message so. -/
def typeAllowed (line : Bool) (m : TallyMsg) : Bool :=
  if line then (m.type == 4 && m.code == 0 && decide (m.flags ≤ 1)) || (m.type == 5 && m.code == 0 && m.flags == 0)
    || (m.type == 3 && refuseAllowed m.code m.flags)
  else (m.type == 1 && m.tally == 0 && m.code == 0 && m.flags == 0) || (m.type == 5 && m.code == 0 && m.flags == 0)
    || (m.type == 6 && m.tally == 0 && m.code == 0 && m.flags == 0)

/-- Whether LEN lies in its type's range. -/
def lenAllowed (m : TallyMsg) : Bool :=
  m.sizeOk && (if m.type = 1 ∨ m.type = 4 then decide (1 ≤ m.len) && decide (m.len ≤ 1920) else m.len == 0)

/-- Whether a flow's direction suits a message: SUBMIT upstream, DELIVER downstream, a RECEIPT that of the DELIVER it answers,
STATUS and REFUSE either. -/
def dirAllowed (line : Bool) (m : TallyMsg) (s : State) : Bool :=
  if m.type = 6 ∨ m.type = 3 then true
  else if line then flowDown m.flow s == (m.type == 4)
  else flowDown m.flow s == (m.type == 5)

/-- The detail of a malformed message from a source, 0 where it is well formed (R195). -/
def malformDetail (line : Bool) (src : Nat) (m : TallyMsg) (s : State) : Nat :=
  if m.ver ≠ 1 then 1
  else if !typeAllowed line m then 2
  else if !lenAllowed m then 3
  else if 2048 ≤ m.flow ∨ !dirAllowed line m s ∨ (line ∧ flowIdent m.flow s ≠ src) then 4
  else if !line ∧ rfld (Reg.TALLY_EP_CFG (flowEp m.flow s)) 8 0 s ≠ src then 5
  else 0

/-- Exchange two fields of a frame. -/
def swapFields (b : Bytes) (i j n : Nat) : Bytes := putBytes (putBytes b i (slice b j n)) j (slice b i n)

/-- The headers of a reply to a frame: addresses and ports exchanged (R197). -/
def replyHeader (frame : Bytes) (s : State) : Bytes :=
  let p := parse (parseCfg false s) frame
  let u := p.udpOff.getD 0
  let h := swapFields (frame.take (u + 8)) 0 6 6
  let h := if p.l3 = 1 then swapFields h (p.ipOff + 12) (p.ipOff + 16) 4 else swapFields h (p.ipOff + 8) (p.ipOff + 24) 16
  swapFields h u (u + 2) 2

/-- Send a reply at its port, in the consignment lane. -/
def sendReply (dest : Nat × Bytes) (msg : Bytes) (s : State) : State := admitLane dest.1 8 (fillTemplate dest.2 msg) false s

/-- The words of a template. -/
def templateOf (f : Nat → Nat) (len : Nat) (s : State) : Bytes := (regBytes f 16 s).take len

/-- Send a message toward the head end in an allocation queue of the identity (R198). -/
def sendHeadEnd (i k : Nat) (msg : Bytes) (s : State) : State :=
  admitTally (8 * i + k) (fillTemplate (templateOf (Reg.TALLY_HE_TPL i) (rfld (Reg.TALLY_HE_CFG i) 30 24 s) s) msg) s

/-- Send a message to an endpoint (R197). -/
def sendEndpoint (e : Nat) (msg : Bytes) (s : State) : State :=
  let cfg := reg (Reg.TALLY_EP_CFG e) s
  admitLane (fld cfg 8 0) 8 (fillTemplate (templateOf (Reg.TALLY_EP_TPL e) (fld cfg 30 24) s) msg) true s

/-- Whom an answer goes to: a local sender (port and reply headers), or the head end for an identity. -/
inductive Answer where
  | port (dest : Nat × Bytes)
  | head (i : Nat)

/-- Send an answer. -/
def answer (a : Answer) (msg : Bytes) (s : State) : State :=
  match a with
  | .port dest => sendReply dest msg s
  | .head i => sendHeadEnd i 0 msg s

/-- The counter of a reason (R207, R194). -/
def refuseCounter (reason : Nat) : Nat :=
  if reason = 1 then Reg.CNT_TALLY_REFUSE_FULL else if reason = 2 then Reg.CNT_TALLY_REFUSE_CLOSED
  else if reason = 3 then Reg.CNT_TALLY_REFUSE_DIP else if reason = 4 then Reg.CNT_TALLY_REFUSE_GOV
  else Reg.CNT_TALLY_MALFORMED

/-- REFUSE (R195). -/
def refuse (a : Answer) (flow sseq tally reason detail : Nat) (s : State) : State :=
  s |> count (refuseCounter reason) |> answer a (encodeTally 3 flow sseq tally reason detail [])

/-- REFUSE of a message. -/
def refuseMsg (a : Answer) (m : TallyMsg) (reason detail : Nat) (s : State) : State :=
  refuse a m.flow m.sseq m.tally reason detail s

/-- The checks that precede a row's own (R194, R222): the message, unless it was dropped or answered; `type` is the row's. -/
def receiveTally (line : Bool) (src type : Nat) (a : Answer) (payload : Bytes) (s : State) : Option TallyMsg × State :=
  if s.tally.scanning then (none, s)
  else if payload.length < 24 then (none, count Reg.CNT_TALLY_MALFORMED s)
  else if !tallyCrcOk payload then (none, count Reg.CNT_TALLY_CRC_ERR s)
  else
    let m := decodeTally payload
    let d := malformDetail line src m s
    if d = 0 then (if m.type = type then some m else none, s)
    else if (m.type = 1 ∧ !line) ∨ (m.type = 4 ∧ line) then (none, refuseMsg a m 5 d s)
    else (none, count Reg.CNT_TALLY_MALFORMED s)

/-! ### Writing a consignment (R203 to R213) -/

/-- Steps 6 to 9 of R207, for either direction (R218): the reason and detail of the refusal, (0, 0) for none. The 126th consignment
of a tick is refused as one the budget leaves no room for (R213; DESIGN CHOICE, log entry 20). -/
def journalSteps (len : Nat) (s : State) : Nat × Nat :=
  if s.tally.left < journalBytes len ∨ s.tally.leftCount = 0 then (4, 0)
  else if 32768 < unverifiedBytes s + 32 + padLen len then (1, 4)
  else if (nextSlot s).isNone then (1, 1)
  else if reserveReached s then (1, 5)
  else (0, 0)

/-- Step 10: the slot is written PENDING; the tally is given, or is the head end's. -/
def writePending (m : TallyMsg) (ident : Nat) (down : Bool) (reply : Option (Nat × Bytes)) (s : State) : State :=
  match nextSlot s with
  | none => s
  | some j =>
    let (t, s) := if down then (m.tally, s) else giveTally s
    let c : SlotCopy := { SlotCopy.blank with st := .pending, down := down, ident := ident, flow := m.flow, sseq := m.sseq,
                                              tally := t, epoch := journalEpoch s, payload := m.payload }
    s |> putSlot j (sealSlot j c) |> setWork j { SlotWork.none with reply := reply } |> copyPayload j m.payload
      |> issueWrite j (32 + padLen m.len) |> setNextSseq m.flow (m.sseq + 1)
      |> modTally (fun x => { x with last := j, left := x.left - journalBytes m.len, leftCount := x.leftCount - 1 })

/-- A duplicate SUBMIT (R208). -/
def repeatSubmit (a : Answer) (m : TallyMsg) (s : State) : State :=
  let s := count Reg.CNT_TALLY_REPEAT s
  match slotOfSseq m.flow m.sseq s with
  | none => answer a (encodeTally 2 m.flow m.sseq 0 0 2 []) s
  | some (_, c) =>
    if c.st = .pending then s
    else if c.st = .held ∧ c.payload ≠ m.payload then refuseMsg a m 5 7 s
    else answer a (encodeTally 2 m.flow m.sseq c.tally 0 1 []) s

/-- A SUBMIT whose form is right (R207, steps 2 to 10); `wasOpen` says that it arrived before a write that closed the flow (R190). -/
def submitChecked (dest : Nat × Bytes) (wasOpen : Bool) (m : TallyMsg) (s : State) : State :=
  let a := Answer.port dest
  let next := nextSseq m.flow s
  if refusesDip s ∨ s.supply.resumedCycle = some s.cycle then refuseMsg a m 3 0 s
  else if next.any (fun n => serialBelow 32 m.sseq n) then repeatSubmit a m s
  else if !flowOpen m.flow s ∧ !wasOpen then refuseMsg a m 2 0 s
  else if next.any (fun n => n != m.sseq) then refuse a m.flow m.sseq (next.getD 0) 5 6 s
  else
    let r := journalSteps m.len s
    if r = (0, 0) then writePending m (flowIdent m.flow s) false (some dest) s else refuseMsg a m r.1 r.2 s

/-- SUBMIT (R207). -/
def submit (port : Nat) (frame : Bytes) (wasOpen : Bool) (s : State) : State :=
  let dest := (port, replyHeader frame s)
  match receiveTally false port 1 (.port dest) (udpPayload frame s) s with
  | (some m, s) => submitChecked dest wasOpen m s
  | (none, s) => s

/-- A DELIVER from the head end whose form is right (R218); `wasOpen` as for a SUBMIT. -/
def deliverChecked (i : Nat) (wasOpen : Bool) (m : TallyMsg) (s : State) : State :=
  let a := Answer.head i
  let next := nextSseq m.flow s
  if refusesDip s then count Reg.CNT_TALLY_REFUSE_DIP s
  else if next.any (fun n => serialBelow 32 m.sseq n) then
    let s := count Reg.CNT_TALLY_DS_DUP s
    match slotOfSseq m.flow m.sseq s with
    | some (_, c) => if c.st = .pending then s else answer a (encodeTally 5 m.flow m.sseq m.tally 0 0 []) s
    | none => answer a (encodeTally 5 m.flow m.sseq m.tally 0 0 []) s
  else if !flowOpen m.flow s ∧ !wasOpen then refuseMsg a m 2 0 s
  else if next.any (fun n => n != m.sseq) then count Reg.CNT_TALLY_DS_AHEAD s
  else
    let r := journalSteps m.len s
    if r = (0, 0) then writePending m i true none s else refuseMsg a m r.1 r.2 s

/-- DELIVER (R218). -/
def deliver (i : Nat) (frame : Bytes) (wasOpen : Bool) (s : State) : State :=
  match receiveTally true i 4 (.head i) (udpPayload frame s) s with
  | (some m, s) => deliverChecked i wasOpen m s
  | (none, s) => s

/-! ### Sending (R214 to R216, R219) -/

/-- Whether consignments of an identity go to the head end: in Serving (R216). -/
def maySendUp (i : Nat) (s : State) : Bool := (ident i s).phase == .serving

/-- Note a sending. -/
def noteSent (j : Nat) (s : State) : State :=
  modWork j (fun w => { w with sentAt := some s.tick.count, due := false, resend := false }) s

/-- Send a slot's DELIVER to the head end. -/
def sendUp (j : Nat) (again : Bool) (s : State) : State :=
  let c := slotAt j s
  let (b, s) := sendPayload j s
  s |> noteSent j |> sendHeadEnd c.ident (flowK c.flow s) (encodeTally 4 c.flow c.sseq c.tally 0 (b2n again) b)

/-- Send a slot's DELIVER to its endpoint. -/
def sendDown (j : Nat) (again : Bool) (s : State) : State :=
  let c := slotAt j s
  let (b, s) := sendPayload j s
  s |> noteSent j |> sendEndpoint (flowEp c.flow s) (encodeTally 4 c.flow c.sseq c.tally 0 (b2n again) b)

/-- An identity enters Serving: every consignment not receipted is sent in tally order (R216). -/
def carryIdent (i : Nat) (s : State) : State :=
  if maySendUp i s then
    each (sortBy byTally ((usedSlotsOf s).filter (fun e => e.2.st == .held && !e.2.down && e.2.ident == i && !(work e.1 s).receipted)))
      (fun e s =>
        let again := (work e.1 s).sentAt.isSome
        s |> sendUp e.1 again |> when' again (count Reg.CNT_TALLY_RTX_HE)) s
  else s

/-- A resend toward the head end is due and may leave. -/
def resendUp (e : Nat × SlotCopy) (s : State) : State :=
  if (work e.1 s).due ∧ maySendUp e.2.ident s ∧ !inDip s then s |> sendUp e.1 true |> count Reg.CNT_TALLY_RTX_HE else s

/-- TALLY_RESEND_HE (R215). -/
def tallyResendHe (f : Nat) (s : State) : State :=
  each (sortBy byTally ((flowSlots f (· == .held) s).filter (fun e => !e.2.down))) resendUp s

/-- A HELD upstream consignment whose first sending or chosen resend is still to leave. -/
def toLeave (e : Nat × SlotCopy) (s : State) : Bool :=
  e.2.st == .held && !e.2.down && !(work e.1 s).receipted && ((work e.1 s).due || (work e.1 s).sentAt.isNone)

/-- It leaves. -/
def leaveUp (e : Nat × SlotCopy) (s : State) : State :=
  if (work e.1 s).due then resendUp e s
  else if (work e.1 s).sentAt.isNone ∧ maySendUp e.2.ident s ∧ !inDip s then sendUp e.1 false s else s

/-- What a flow still has to send leaves in tally order: the resends chosen go ahead of the first sending of a later consignment
(R214, R215). -/
def leaveFlow (f : Nat) (s : State) : State :=
  each (sortBy byTally ((flowSlots f (· == .held) s).filter (fun e => toLeave e s))) leaveUp s

/-- A resend toward a recipient. -/
def resendDown (e : Nat × SlotCopy) (s : State) : State :=
  if (work e.1 s).due ∧ !inDip s then s |> sendDown e.1 true |> count Reg.CNT_TALLY_RTX_LOCAL else s

/-- TALLY_RESEND_LOCAL (R219). -/
def tallyResendLocal (f : Nat) (s : State) : State :=
  each (sortBy bySseq ((flowSlots f (· == .held) s).filter (fun e => e.2.down))) resendDown s

/-- Every resend chosen, in tally order (R226: at the resumption from a dip). -/
def resendAll (s : State) : State :=
  each (sortBy byTally ((usedSlotsOf s).filter (fun e => e.2.st == .held)))
    (fun e s => if e.2.down then resendDown e s else if toLeave e s then leaveUp e s else s) s

/-- First sendings to a recipient in SSEQ order while LOCAL_WIN allows; none goes ahead of one that must wait (R219, R228). -/
def deliverFirst (f : Nat) : List (Nat × SlotCopy) → State → State
  | [], s => s
  | e :: rest, s =>
    let out := (flowSlots f (· == .held) s).filter (fun x => (work x.1 s).sentAt.isSome && !(work x.1 s).receipted)
    let again := (work e.1 s).resend
    if out.length < rfld Reg.TALLY_RTX 7 0 s ∧ (!again ∨ (port (rfld (Reg.TALLY_EP_CFG (flowEp f s)) 8 0 s) s).link) then
      s |> sendDown e.1 again |> when' again (count Reg.CNT_TALLY_RTX_LOCAL) |> deliverFirst f rest
    else s

/-- DELIVER_TO_RECIPIENT (R219): the first sendings of a flow; after a scan with RESEND set, and once the port is ready
(R225). -/
def deliverToRecipient (f : Nat) (s : State) : State :=
  deliverFirst f (sortBy bySseq ((flowSlots f (· == .held) s).filter (fun e => e.2.down && (work e.1 s).sentAt.isNone))) s

/-! ### Acceptance (R210, R211) -/

/-- A consignment is accepted: ACCEPT or RECEIPT, then the commit mark; its first DELIVER leaves at once, after the resends of
its flow that are due (R214, R215). -/
def acceptSlot (j : Nat) (s : State) : State :=
  let c := slotAt j s
  let w := work j s
  let s := s |> setWork j { w with reply := none, since := s.cycle } |> writeMark j .held
  if c.down then
    s |> count64 Reg.CNT_TALLY_DS_ACCEPT_LO 1 |> answer (.head c.ident) (encodeTally 5 c.flow c.sseq c.tally 0 0 [])
  else
    let msg := encodeTally 2 c.flow c.sseq c.tally 0 0 []
    let s := count64 Reg.CNT_TALLY_ACCEPT_LO 1 s
    let s := match w.reply with
      | none => s
      | some dest =>
        if inDip s then { s with supply := { s.supply with heldAccepts := s.supply.heldAccepts ++ [(dest.1, fillTemplate dest.2 msg)] } }
        else sendReply dest msg s
    if !maySendUp c.ident s then s
    else if (flowSlots c.flow (· == .held) s).any (fun e => e.1 != j && toLeave e s) then leaveFlow c.flow s
    else sendUp j false s

/-- Accept a flow's PENDING slots in SSEQ order while they are verified (R210). -/
def acceptInOrder : List (Nat × SlotCopy) → State → State
  | [], s => s
  | e :: rest, s => if (work e.1 s).verified then acceptInOrder rest (acceptSlot e.1 s) else s

/-- Take a slot's oldest write out of those not yet verified. -/
def dropWrite (j : Nat) : List JournalWrite → List JournalWrite
  | [] => []
  | w :: ws => if w.slot = j ∧ w.cycle.isSome then ws else w :: dropWrite j ws

/-- JOURNAL_WRITE_VERIFIED (R210). -/
def journalWriteVerified (j : Nat) (s : State) : State :=
  let c := slotAt j s
  let s := s |> modTally (fun t => { t with writes := dropWrite j t.writes }) |> pumpWrites
  if c.st = .pending then
    let s := modWork j (fun w => { w with verified := true }) s
    acceptInOrder (sortBy bySseq (flowSlots c.flow (· == .pending) s)) s
  else s

/-- Whom a slot's consignment is refused to. -/
def slotAnswer (j : Nat) (s : State) : Option Answer :=
  let c := slotAt j s
  if c.down then some (.head c.ident) else (work j s).reply.map .port

/-- A PENDING slot is refused with reason JOURNAL. -/
def refuseSlot (j detail : Nat) (s : State) : State :=
  let c := slotAt j s
  match slotAnswer j s with
  | some a => refuse a c.flow c.sseq (if c.down then c.tally else 0) 1 detail s
  | none => s

/-- A slot becomes VOID. -/
def voidSlot (j : Nat) (s : State) : State := s |> dropCopy j |> writeMark j .void

/-- The dies in use on which the PENDING write of a slot has failed. -/
def splitDies (j : Nat) (dies : BitVec 2) (s : State) : List Nat :=
  if (slotAt j s).st ≠ .pending ∨ (work j s).verified then [] else (liveDies s).filter (fun d => dies.getLsbD d)

/-- The failures count toward the dies' fault windows. -/
def splitFaults (j : Nat) (dies : BitVec 2) (s : State) : State :=
  each (splitDies j dies s) (fun d s =>
    s |> count (if d = 0 then Reg.CNT_KEEP_WRITE_FAIL_A else Reg.CNT_KEEP_WRITE_FAIL_B) |> noteFault 3 d) s

/-- A split write (R211). A die declared failed does not count (R226). -/
def evTallySplit (j : Nat) (dies unwritable : BitVec 2) (s : State) : State :=
  let c := slotAt j s
  let fails := splitDies j dies s
  if fails = [] then s
  else
    let mask := (fails.map (fun d => 2 ^ d)).sum
    let later := sortBy bySseq ((flowSlots c.flow (· == .pending) s).filter (fun e => serialBelow 32 c.sseq e.2.sseq))
    s |> refuseSlot j 2 |> dropCopy j
      |> each (liveDies s) (fun d s => setSlotCopy d j (if unwritable.getLsbD d then
          { c.mark .void with headLost := fails.contains d } else c.mark .bad) s)
      |> modTally (fun t => { t with badDies := tput (fun _ => 0) j mask t.badDies, writes := dropWrite j t.writes })
      |> pumpWrites
      |> each later (fun e s => s |> refuseSlot e.1 3 |> voidSlot e.1)
      |> setNextSseq c.flow c.sseq
      |> count Reg.CNT_TALLY_SPLIT
      |> event 0x0601 (beBytes 2 j ++ beBytes 2 c.flow ++ beBytes 4 c.sseq ++ beBytes 1 mask)

/-- The keep has remapped a failed unit of a slot on a die (R482): the copy is filled from the other die, a BAD one with
STATE FREE; when every die the write failed on has been remapped, the other copy becomes FREE too (R211). -/
def slotRemapped (die j : Nat) (s : State) : State :=
  if (slotCopy die j s).st = .bad ∨ (slotCopy (1 - die) j s).st = .bad then
    let m := tget (fun _ => 0) s.tally.badDies j
    let left := if m / 2 ^ die % 2 = 1 then m - 2 ^ die else m
    let s := s |> setSlotCopy die j SlotCopy.blank |> modTally (fun t => { t with badDies := tput (fun _ => 0) j left t.badDies })
    if left = 0 then setSlotCopy (1 - die) j SlotCopy.blank s else s
  else setSlotCopy die j (slotCopy (1 - die) j s) s

/-! ### Receipts, status, closing (R190, R196, R217, R220, R226) -/

/-- A receipt of a slot, for the next closing of the window. -/
def noteReceipt (j : Nat) (s : State) : State := modWork j (fun w => { w with receipted := true }) s

/-- RECEIPT_FROM_HEAD_END (R217). -/
def receiptFromHeadEnd (i : Nat) (frame : Bytes) (_ : Bool) (s : State) : State :=
  match receiveTally true i 5 (.head i) (udpPayload frame s) s with
  | (none, s) => s
  | (some m, s) =>
    match (flowSlots m.flow (· == .held) s).find? (fun e => e.2.tally == m.tally && !e.2.down && e.2.ident == i) with
    | some (j, _) => noteReceipt j s
    | none => count Reg.CNT_TALLY_RECEIPT_STRAY s

/-- RECEIPT_FROM_RECIPIENT (R220). -/
def receiptFromRecipient (port : Nat) (frame : Bytes) (_ : Bool) (s : State) : State :=
  match receiveTally false port 5 (.port (port, [])) (udpPayload frame s) s with
  | (none, s) => s
  | (some m, s) =>
    match (flowSlots m.flow (· == .held) s).find? (fun e => e.2.tally == m.tally && e.2.sseq == m.sseq && e.2.down) with
    | some (j, _) => noteReceipt j s
    | none => count Reg.CNT_TALLY_RECEIPT_STRAY s

/-- REFUSE_FROM_HEAD_END (R217). -/
def refuseFromHeadEnd (i : Nat) (frame : Bytes) (_ : Bool) (s : State) : State :=
  match receiveTally true i 3 (.head i) (udpPayload frame s) s with
  | (none, s) => s
  | (some _, s) => count Reg.CNT_TALLY_HE_REFUSE s

/-- The oldest HELD slot of a flow. -/
def oldestHeld (f : Nat) (s : State) : Option (Nat × SlotCopy) := (sortBy bySseq (flowSlots f (· == .held) s)).head?

/-- The number of a flow's slots in PENDING or HELD. -/
def flowHeld (f : Nat) (s : State) : Nat := (flowSlots f inHand s).length

/-- The next expected SSEQ as it is shown: 0 while unanchored. -/
def shownNext (f : Nat) (s : State) : Nat := if anchored f s then (nextSseq f s).getD 0 else 0

/-- The tally of the newest slot of a flow in PENDING, HELD or DONE; 0 for none. -/
def newestTally (f : Nat) (s : State) : Nat :=
  match newestOf (flowSlots f (fun x => inHand x || settled x) s) with
  | some (_, c) => c.tally
  | none => 0

/-- The tally of the oldest consignment not yet receipted. -/
def oldestTally (f : Nat) (s : State) : Nat :=
  match oldestHeld f s with
  | some (_, c) => c.tally
  | none => 0

/-- The payload of a STATUS response (R196). -/
def statusPayload (f : Nat) (s : State) : Bytes :=
  beBytes 4 (shownNext f s) ++ beBytes 2 (flowHeld f s)
    ++ beBytes 2 ((b2n (flowOpen f s) * 128 + b2n (anchored f s) * 64 + b2n (flowDown f s) * 32) * 256)
    ++ beBytes 8 (oldestTally f s)

/-- STATUS (R196). -/
def status (port : Nat) (frame : Bytes) (_ : Bool) (s : State) : State :=
  let dest := (port, replyHeader frame s)
  match receiveTally false port 6 (.port dest) (udpPayload frame s) s with
  | (none, s) => s
  | (some m, s) => sendReply dest (encodeTally 6 m.flow m.sseq (newestTally m.flow s) 1 0 (statusPayload m.flow s)) s

/-- A purge (R226); a flow still anchored expects what follows its newest accepted consignment (R189). -/
def purgeFlow (f : Nat) (s : State) : State :=
  let l := flowSlots f inHand s
  let ts := l.map (fun e => e.2.tally)
  let lo := match ts with
    | [] => 0
    | t :: rest => rest.foldl min t
  s |> each l (fun e s => voidSlot e.1 s)
    |> (fun s => match newestOf (flowSlots f settled s) with
      | some e => setNextSseq f (e.2.sseq + 1) s
      | none => s)
    |> event 0x0604 (beBytes 2 f ++ beBytes 2 l.length ++ beBytes 8 lo ++ beBytes 8 (ts.foldl max 0))

/-- A write of TALLY_FLOW_CFG_f (R190, R226). Until the scan has been made the engine knows of no slot of the flow (log entry
37). -/
def flowCfgWrite (f : Nat) (v : Word) (s : State) : State :=
  let old := flowCfg f s
  let others : Word := 0x477F00FF
  let free := !bitOf old 31 && (s.tally.scanning || flowHeld f s == 0)
  let s := if v &&& others = old &&& others then s
    else if free then setReg (Reg.TALLY_FLOW_CFG f) ((old &&& ~~~ others) ||| (v &&& others)) s
    else count Reg.CNT_TALLY_CFG_BAD s
  let s := setRfld (Reg.TALLY_FLOW_CFG f) 31 31 (b2n (bitOf v 31)) s
  if bitOf v 29 then (if bitOf old 31 then count Reg.CNT_TALLY_CFG_BAD s else purgeFlow f s) else s

/-- FLOW_CLOSE (R190). -/
def flowClose (f : Nat) (s : State) : State := flowCfgWrite f (putFld (flowCfg f s) 31 31 0) s

/-- PURGE (R226). -/
def purge (f : Nat) (s : State) : State := flowCfgWrite f (putFld (flowCfg f s) 29 29 1) s

/-! ### The acknowledgement window (R221) -/

/-- Release a slot: DONE, its copy given up. -/
def releaseSlot (j : Nat) (s : State) : State := s |> dropCopy j |> writeMark j .done

/-- Whether a slot's resend time has passed. -/
def resendTime (e : Nat × SlotCopy) (s : State) : Bool :=
  match (work e.1 s).sentAt with
  | some t => decide ((if e.2.down then rfld Reg.TALLY_RTX 15 8 s else rfld Reg.TALLY_RTX 31 16 s) ≤ (s.tick.count - t).toNat)
      && (e.2.down || (ident e.2.ident s).phase == .serving)
  | none => false

/-- Whether a flow's oldest consignment has waited beyond STALL_S. -/
def overStall (f : Nat) (s : State) : Bool :=
  let lim := rfld Reg.TALLY_STALL 15 0 s
  lim != 0 && (match oldestHeld f s with
    | some (j, _) => decide (lim * 10 ^ 9 < s.cycle - (work j s).since)
    | none => false)

/-- EV_TALLY_STALL (R221): once per stall. -/
def evTallyStall (f : Nat) (s : State) : State :=
  if overStall f s ∧ !s.tally.stalled.contains f then
    s |> modTally (fun t => { t with stalled := f :: t.stalled }) |> event 0x0602 (beBytes 2 f ++ beBytes 8 (oldestTally f s))
  else s

/-- The flows that hold a slot in HELD. -/
def heldFlows (s : State) : List Nat := (((usedSlotsOf s).filter (fun e => e.2.st == .held)).map (fun e => e.2.flow)).eraseDups

/-- TALLY_WINDOW_CLOSE (R221): the slots receipted are released, the resends due chosen, the stalls that ended cleared and those
that begin recorded. -/
def tallyWindow (s : State) : State :=
  let held := fun (s : State) => (usedSlotsOf s).filter (fun e => e.2.st == .held)
  let s := each ((held s).filter (fun e => (work e.1 s).receipted)) (fun e s => releaseSlot e.1 s) s
  let s := each ((held s).filter (fun e => resendTime e s)) (fun e s => modWork e.1 (fun w => { w with due := true }) s) s
  s |> modTally (fun t => { t with stalled := t.stalled.filter (fun f => overStall f s) })
    |> (fun s => each (heldFlows s) evTallyStall s) |> pumpWrites

/-- The acceptance budget of a tick (R212, R213). -/
def grantBudget (s : State) : State := modTally (fun t => { t with left := s.pwr.acceptBytes, leftCount := 125 }) s

/-! ### The scan (R222 to R225) -/

/-- A copy as the scan finds it: one torn by the reset, or of a failed unit, has lost what that unit held. -/
def scanCopy (torn unmarked : List (Fin 2 × Fin 8192)) (die j : Nat) (s : State) : SlotCopy :=
  let c := slotCopy die j s
  let isIn := fun (l : List (Fin 2 × Fin 8192)) => l.any (fun e => e.1.val == die && e.2.val == j)
  let back := if c.st = .held then SlotState.pending else if c.st = .done then .held else c.st
  let c := if isIn unmarked then c.mark back else c
  { c with headLost := c.headLost || isIn torn || unitFailed die (2 * j) s, tailLost := c.tailLost || unitFailed die (2 * j + 1) s }

/-- The counts a scan records. -/
structure ScanCounts where
  void : Nat
  repaired : Nat
  lost : Nat

/-- What the scan decides of one slot but for PENDING on every die: the copy it decides from, and the outcome; `pending`
says that it is in PENDING on every die in use. -/
def scanDecide (j : Nat) (cs : List SlotCopy) : SlotState × SlotCopy :=
  let valid := cs.filter (copyValid j)
  let has := fun (x : SlotState) => valid.find? (fun c => c.st == x)
  match has .bad, has .done, has .held with
  | some c, _, _ => (.bad, c)
  | none, some c, _ => (.done, c)
  | none, none, some c => (.held, c)
  | none, none, none =>
    if valid = [] then (.free, SlotCopy.blank)
    else match has .pending, has .void with
      | some c, none => (if valid.length = cs.length ∧ valid.all (fun c => c.st == .pending) then .pending else .void, c)
      | _, some c => (.void, c)
      | none, none => (.free, SlotCopy.blank)

/-- Put what the scan has decided of a slot. -/
def scanPut (j : Nat) (st : SlotState) (c : SlotCopy) (s : State) : State :=
  if st = .bad then s
  else if st = .free then putSlot j SlotCopy.blank s
  else putSlot j (c.mark st) s

/-- One slot of the scan (PENDING on every die stays PENDING here). -/
def scanSlot (torn unmarked : List (Fin 2 × Fin 8192)) (x : State × ScanCounts) (j : Nat) : State × ScanCounts :=
  let (s, n) := x
  let cs := (liveDies s).map (fun d => scanCopy torn unmarked d j s)
  let (st, c) := scanDecide j cs
  let lost := cs.all (fun c => !copyValid j c)
  let fix := st == .held && cs.any (fun d => !copyValid j d || d.st != .held)
  let s := scanPut j st c s
  (s |> when' (st == .void) (count Reg.CNT_TALLY_SCAN_VOID) |> when' fix (count Reg.CNT_TALLY_SCAN_REPAIR)
     |> when' lost (count Reg.CNT_TALLY_SCAN_LOST),
   { void := n.void + b2n (st == .void), repaired := n.repaired + b2n fix, lost := n.lost + b2n lost })

/-- The PENDING slots of a flow in SSEQ order: taken as accepted while no lower SSEQ since the newest HELD or DONE one is
missing, otherwise VOID; answers how many were voided. -/
def scanPending : List (Nat × SlotCopy) → Option Nat → Bool → State → Nat × State
  | [], _, _, s => (0, s)
  | e :: rest, next, ok, s =>
    let ok := ok && (next.all (fun n => e.2.sseq == n || serialBelow 32 e.2.sseq n))
    let next := match next with
      | some n => if serialBelow 32 e.2.sseq n then some n else some ((e.2.sseq + 1) % 2 ^ 32)
      | none => some ((e.2.sseq + 1) % 2 ^ 32)
    if ok then scanPending rest next ok (writeMark e.1 .held s)
    else
      let (k, s) := scanPending rest next ok (s |> writeMark e.1 .void |> count Reg.CNT_TALLY_SCAN_VOID)
      (k + 1, s)

/-- The lowest SSEQ of a flow's slots that were PENDING on some die only: nothing at or above it is taken as accepted. -/
def brokenAt (f : Nat) (broken : List SlotCopy) : Option Nat :=
  match broken.filter (fun c => c.flow == f) with
  | [] => none
  | c :: cs => some (cs.foldl (fun n d => if serialBelow 32 d.sseq n then d.sseq else n) c.sseq)

/-- The PENDING slots of a flow decided, and its next expected SSEQ rebuilt (R223, R224). -/
def scanFlow (broken : List SlotCopy) (x : State × Nat) (f : Nat) : State × Nat :=
  let (s, n) := x
  let newest := (newestOf (flowSlots f settled s)).map (fun e => (e.2.sseq + 1) % 2 ^ 32)
  let ps := sortBy bySseq (flowSlots f (· == .pending) s)
  let split := brokenAt f (broken.filter (fun c => newest.all (fun n => !serialBelow 32 c.sseq n)))
  let below := fun (e : Nat × SlotCopy) => split.all (fun b => serialBelow 32 e.2.sseq b)
  let (k, s) := scanPending (ps.filter below) newest true s
  let gone := ps.filter (fun e => !below e)
  let s := each gone (fun e s => s |> writeMark e.1 .void |> count Reg.CNT_TALLY_SCAN_VOID) s
  (match newestOf (flowSlots f settled s) with
    | some e => setNextSseq f (e.2.sseq + 1) s
    | none => setNextSseq f 0 s, n + k + gone.length)

/-- The slots a die's table or the other's lists. -/
def journalSlots (s : State) : List Nat := (s.tally.journal.map (fun e => e.1 % 8192)).eraseDups

/-- A HELD consignment is carried again as if never sent (R225); its payload is copied again (R206). -/
def recarry (e : Nat × SlotCopy) (s : State) : State :=
  s |> setWork e.1 { SlotWork.none with verified := true, resend := e.2.down, since := s.cycle } |> copyPayload e.1 e.2.payload

/-- JOURNAL_SCAN (R222 to R225): only while a scan is due. -/
def journalScan (torn unmarked : List (Fin 2 × Fin 8192)) (s : State) : State :=
  if s.tally.scanning then
    let s := modTally (fun t => { t with work := [], writes := [], stalled := [], flowNext := [] }) s
    let slots := journalSlots s
    let tornSlots := ((torn.map (fun e => e.2.val)).filter (fun j => !slots.contains j)).eraseDups
    let broken := (slots.map (fun j =>
      let d := scanDecide j ((liveDies s).map (fun k => scanCopy torn unmarked k j s))
      (d.1 == .void && d.2.st == .pending, d.2))).filter (fun x => x.1) |>.map Prod.snd
    let (s, n) := (slots ++ tornSlots).foldl (scanSlot torn unmarked) (s, { void := 0, repaired := 0, lost := 0 })
    let flows := ((usedSlotsOf s).map (fun e => e.2.flow)).eraseDups
    let (s, k) := flows.foldl (scanFlow broken) (s, 0)
    let held := (usedSlotsOf s).filter (fun e => e.2.st == .held)
    let r := tallyReserve s
    let s := s |> each held recarry |> modTally (fun t => { t with next := r * 2 ^ 24, scanning := false })
      |> keepWrite 1 (word (r + 1))
      |> event 0x0603 (beBytes 2 held.length ++ beBytes 2 (n.void + k) ++ beBytes 2 n.repaired ++ beBytes 2 n.lost
        ++ beBytes 8 (r * 2 ^ 24))
    each allIdents carryIdent s
  else s

/-! ### What the registers show, and rekeying -/

/-- TALLY_JOURNAL: SCANNING shows the scan from step 7 of the start-up on, once the image has been applied (R56, R222). -/
def tallyJournalView (s : State) : Word :=
  let l := usedSlotsOf s
  word (at' 31 (b2n s.keep.failedDie.isSome) + at' 30 (b2n (s.tally.scanning && s.boot.applied))
    + at' 16 ((l.filter (fun e => e.2.st == .bad)).length) + (l.filter (fun e => inHand e.2.st)).length)

/-- TALLY_JOURNAL_FREE. -/
def tallyFreeView (s : State) : Word :=
  let l := usedSlotsOf s
  word (at' 16 ((l.filter (fun e => isMarker e.1 s)).length) + (8192 - (l.filter (fun e => !eligible e.1 s)).length))

/-- TALLY_ACC_BUDGET. -/
def tallyBudgetView (s : State) : Word := word (at' 16 s.tally.left + s.pwr.acceptBytes)

/-- TALLY_FLOW_STATUS_f. -/
def flowStatusView (f : Nat) (s : State) : Word :=
  word (at' 31 (b2n (anchored f s)) + at' 30 (b2n (s.tally.stalled.contains f)) + flowHeld f s)

/-- REKEY (R440): refused while a slot in PENDING or HELD carries the previous epoch, or during the scan. -/
def rekey (s : State) : State :=
  let e := journalEpoch s
  if s.tally.scanning ∨ (usedSlotsOf s).any (fun x => inHand x.2.st && x.2.epoch != e) then setRfld Reg.CIPH_STORE_CMD 1 1 1 s
  else s |> setRfld Reg.CIPH_STORE_CMD 1 1 0 |> keepWrite 33 (e + 1)

/-! ### Messages the classifier hands over (R191, R198) -/

/-- Whether a waiting message is of a type. -/
def isTallyType (line : Bool) (type : Nat) (f : TallyFrame) (s : State) : Bool :=
  f.line == line && beAt (udpPayload f.bytes s) 1 1 == type

/-- The oldest waiting message of a type, taken out. -/
def takeTally (line : Bool) (type : Nat) (s : State) : Option TallyFrame × State :=
  match s.cls.tallyIn.find? (fun f => isTallyType line type f s) with
  | some f => (some f, { s with cls := { s.cls with tallyIn := s.cls.tallyIn.erase f } })
  | none => (none, s)

/-- The message a row acts on: the one given, or the oldest waiting one of its type, with OPEN as it stood when it arrived (R190). -/
def tallyRow {n : Nat} (line : Bool) (type : Nat) (msg : Option (Fin n × Bytes)) (act : Nat → Bytes → Bool → State → State) (s : State) : State :=
  match msg with
  | some (k, b) => act k b false s
  | none => match takeTally line type s with
    | (some f, s) => act f.src f.bytes f.wasOpen s
    | (none, s) => s

/-- A RECEIPT that waits is taken in. -/
def settleReceipt (f : TallyFrame) (s : State) : State :=
  if f.line then receiptFromHeadEnd f.src f.bytes f.wasOpen s else receiptFromRecipient f.src f.bytes f.wasOpen s

/-- Every RECEIPT that has arrived before the tick edge is in the window that closes (R221). -/
def settleReceipts (s : State) : State :=
  let isReceipt := fun (f : TallyFrame) => isTallyType f.line 5 f s
  let fs := s.cls.tallyIn.filter isReceipt
  each fs settleReceipt { s with cls := { s.cls with tallyIn := s.cls.tallyIn.filter (fun f => !isReceipt f) } }

/-- A message arrives at the tally engine: one that no row is for is dropped and counted at once (R194), the others wait
for theirs; during the scan all are dropped (R222). -/
def tallyArrive (line : Bool) (src : Nat) (frame : Bytes) (s : State) : State :=
  let p := udpPayload frame s
  let t := beAt p 1 1
  if s.tally.scanning then s
  else if p.length < 24 ∨ !(if line then t == 3 || t == 4 || t == 5 else t == 1 || t == 5 || t == 6) ∨ !tallyCrcOk p then
    (receiveTally line src 0 (.port (src, [])) p s).2
  else { s with cls := { s.cls with tallyIn := s.cls.tallyIn ++ [{ bytes := frame, line := line, src := src, wasOpen := flowOpen (beAt p 2 2) s }] } }

end Sys2Proof.Machine
end

