-- ==== Sys2Proof/Machine/Time.lean ====
section
/-! DEFINITION. Network time (R386 to R401): the clock, steps, the servo, the boundary clock and the 1 PPS ports. -/
namespace Sys2Proof.Machine

/-- The increment of TIME_INC in the units of `TimeState.inc`: whole nanoseconds in HI bits 9:8, fraction below (R387). -/
def incOf (hi lo : Word) : Nat := (hi.toNat % 2 ^ 10) * 2 ^ 32 + lo.toNat

/-- Whether an increment lies from 0.999 ns to 1.001 ns (R387). -/
def incInRange (inc : Nat) : Bool := 999 * 2 ^ 40 ≤ inc * 1000 && inc * 1000 ≤ 1001 * 2 ^ 40

/-- Whether `src` is the party TIME_CTRL.OWNER names (R388): the supervisor for 0, host and chain for 1. -/
def ownsTime (src : Source) (s : State) : Bool :=
  match src with
  | .sup => !s.time.owner
  | .host => s.time.owner
  | .chain => s.time.owner

/-- One cycle of the TIME domain (R387). In L3 and L4 the AON counter keeps the time (R63 note (a)). -/
def clockCycle (s : State) : State :=
  if s.pwr.ladder < 3 then
    { s with cycle := s.cycle + 1, time := { s.time with now := s.time.now + s.time.inc * 2 ^ 16 } }
  else
    { s with cycle := s.cycle + 1,
             time := { s.time with now := s.time.now + 2 ^ 56, aonCycles := s.time.aonCycles + 1 } }

/-- Terminal time resumes from the AON counter with the holdover flag set (R63 note (a)); the counter has strayed by at
most 20 ppm (R402). -/
def resumeFromAon (s : State) : State :=
  let bound : Int := s.time.aonCycles * 2 ^ 56 / 50000
  let d := max (-bound) (min bound (Config.aonDrift s.free))
  nextFree { s with time := { s.time with now := ((s.time.now : Int) + d).toNat, aonCycles := 0, holdover := true } }

/-- Write the increment in force and the registers that show it. -/
def setIncrement (inc : Nat) (s : State) : State :=
  { s with time := { s.time with inc := inc } }
  |> setReg Reg.TIME_INC_LO (word inc) |> setReg Reg.TIME_INC_HI (word (inc / 2 ^ 32 % 2 ^ 10))

/-- A write of TIME_INC_HI (R387, R388). -/
def timeIncWrite (src : Source) (value : Word) (s : State) : State :=
  if ownsTime src s then
    let inc := incOf value (reg Reg.TIME_INC_LO s)
    if incInRange inc then setIncrement inc s else count Reg.CNT_TIME_INC_BAD s
  else count Reg.CNT_TIME_OWNER_BAD s

/-- Seconds and nanoseconds of a signed number of nanoseconds, both parts of one sign. -/
def secNsBytes (ns : Int) : Bytes := beBytes 8 (twos 64 (ns.tdiv (10 ^ 9))) ++ beBytes 4 (twos 32 (ns.tmod (10 ^ 9)))

/-- Terminal time moved by `ps` picoseconds, in units of 2^-56 ns. -/
def movedTime (ps : Int) (s : State) : Int := (s.time.now : Int) + ps * 2 ^ 56 / 1000

/-- After a step of time every operating gate list is corrected at its port's next frame boundary (R292). -/
def gatesAfterStep (s : State) : State :=
  let fix (x : PortSched) : PortSched := if x.oper.isSome then { x with gateFix := true } else x
  { s with sched := { s.sched with ports := tmap (fun _ => PortSched.reset) fix s.sched.ports } }

/-- Make a step of `ps` picoseconds: VALID is set, the step recorded with its reason (R397). -/
def makeStep (reason : Nat) (ps : Int) (s : State) : State :=
  gatesAfterStep { s with time := { s.time with
      now := (movedTime ps s).toNat, beforeStep := some (s.cycle, stampBase s), valid := true } }
  |> supEvent 0x0C02 (beBytes 1 reason ++ secNsBytes (ps.tdiv 1000))

/-- A refused step: STEP_REFUSED set, recorded once per episode, counted (R397). -/
def refuseStep (ps : Int) (s : State) : State :=
  (if s.time.stepRefused then s
   else supEvent 0x0C03 (secNsBytes (ps.tdiv 1000)) { s with time := { s.time with stepRefused := true } })
  |> count Reg.CNT_TIME_STEP_REFUSED

/-- TIME_STEP_NS in picoseconds. -/
def stepLimitPs (s : State) : Int := (reg Reg.TIME_STEP_NS s).toNat * 1000

/-- TIME_STEP_ALLOW.ONCE. -/
def stepOnce (s : State) : Bool := bitOf (keepValue 2 s) 0

/-- A step requested through TIME_ADJ (R398). -/
def requestStep (ps : Int) (s : State) : State :=
  if movedTime ps s < 0 then refuseStep ps s
  else if !s.time.valid then makeStep 0 ps s
  else if (ps.natAbs : Int) ≤ stepLimitPs s then makeStep 1 ps s
  else if stepOnce s then s |> makeStep 2 ps |> keepWrite 2 0
  else refuseStep ps s

/-- A write of TIME_ADJ_NS (R388, R398). -/
def timeAdj (src : Source) (value : Word) (s : State) : State :=
  if ownsTime src s then
    requestStep ((signed 32 (reg Reg.TIME_ADJ_SEC s).toNat * 10 ^ 9 + signed 32 value.toNat) * 1000) s
  else count Reg.CNT_TIME_OWNER_BAD s

/-- MAX_PPM as units of the increment: one ppm of 1 ns is 2^40 / 10^6. -/
def maxPpmUnits (s : State) : Nat := rfld Reg.TIME_SERVO 9 0 s * 2 ^ 40 / 10 ^ 6

/-- The servo's increment for an offset, within MAX_PPM of 1 ns (R388). -/
def servoInc (ps : Int) (s : State) : Nat :=
  max (2 ^ 40 - maxPpmUnits s) (min (2 ^ 40 + maxPpmUnits s) (Config.servoIncrement ps s.time.inc))

/-- The increment held at MAX_PPM toward the source: slower where the terminal is ahead (R397). -/
def servoLimit (ps : Int) (s : State) : Nat :=
  if 0 ≤ ps then 2 ^ 40 - maxPpmUnits s else 2 ^ 40 + maxPpmUnits s

/-- LOCKED follows how long the offset has stayed below 20 ns (R397). -/
def noteLock (ps : Int) (s : State) : State :=
  let since := if ps.natAbs < 20000 then some (s.time.below20Since.getD s.cycle) else none
  let locked := match since with
    | some c => decide (rfld Reg.TIME_SERVO 31 16 s * 10 ^ 9 ≤ s.cycle - c)
    | none => false
  { s with time := { s.time with below20Since := since, locked := locked } }

/-- The offset measured is published (TIME_SRC_OFFSET) and STEP_REFUSED clears at STEP_NS or below (R397). -/
def noteOffset (ps : Int) (s : State) : State :=
  let s := noteLock ps s
  { s with time := { s.time with lastOffsetPs := ps, offsetPs := none,
                                 stepRefused := s.time.stepRefused && !decide ((ps.natAbs : Int) ≤ stepLimitPs s) } }

/-- The servo's handling of an offset of the selected source (R397). -/
def servo (ps : Int) (s : State) : State :=
  let s := noteOffset ps s
  if s.time.owner then s
  else if s.time.valid ∧ (ps.natAbs : Int) ≤ stepLimitPs s then setIncrement (servoInc ps s) s
  else if movedTime (-ps) s < 0 then s |> refuseStep ps |> setIncrement (servoLimit ps s)
  else if !s.time.valid then makeStep 0 (-ps) s
  else if stepOnce s then s |> makeStep 2 (-ps) |> keepWrite 2 0
  else s |> refuseStep ps |> setIncrement (servoLimit ps s)

/-- The time servo's work of a tick (R22): the offset not yet taken, if there is one. -/
def servoLoop (s : State) : State :=
  match s.time.offsetPs with
  | some ps => servo ps s
  | none => s

/-! ### Sources (R390, R391, R399) -/

/-- EqD of a side as JOIN_EQD_s shows it: bit 31 VALID (R117). -/
def eqdWord (side : Nat) (s : State) : Word := keepValue (36 + side) s

/-- A port of the boundary clock with nothing heard. -/
def ptpPort0 : PtpPort :=
  { listenAt := none, foreign := [], lastSync := none, syncSeq := 0, syncCorr := 0, t1 := none, t2 := none, t3 := none,
    pdelay := none, meanPath := 0, txSyncSeq := 0, txAnnSeq := 0, txReqSeq := 0, reqSeq := 0, txStamp := none }

/-- The port's 1588 state. -/
def ptpPort (l : Nat) (s : State) : PtpPort := tget (fun _ => ptpPort0) s.time.ptp l

/-- Put the port's 1588 state. -/
def setPtpPort (l : Nat) (p : PtpPort) (s : State) : State :=
  { s with time := { s.time with ptp := tput (fun _ => ptpPort0) l p s.time.ptp } }

/-- TIME_PTP_PORT_l.STATE: 0 DISABLED, 1 LISTENING, 2 MASTER, 3 PASSIVE, 4 SLAVE. -/
def ptpState (l : Nat) (s : State) : Nat := rfld (Reg.TIME_PTP_PORT l) 10 8 s

/-- The Sync interval 2^LOG_SYNC seconds in cycles (LOG_SYNC from -4 to 1). -/
def syncInterval (l : Nat) (s : State) : Nat :=
  let k := signed 4 (rfld (Reg.TIME_PTP_PORT l) 3 0 s)
  (10 ^ 9 * 2 ^ (k + 8).toNat) / 2 ^ 8

/-- A Sync has been received on the SLAVE port within three sync intervals (R390). -/
def ptpQualified (s : State) : Bool :=
  s.time.ptp.any (fun x => ptpState x.1 s == 4 && (match x.2.lastSync with
    | some c => decide (s.cycle - c ≤ 3 * syncInterval x.1 s)
    | none => false))

/-- LINE qualifies (R390). -/
def lineQualified (active : Nat) (s : State) : Bool :=
  s.tick.line && bitOf (eqdWord active s) 31 && decide (rfld Reg.TIME_LINE_TEQ 21 0 s > 0)
    && (match s.time.lastTod with
        | some c => decide (s.cycle - c ≤ 16 * 10 ^ 9)
        | none => false)

/-- PPS qualifies (R390): enabled, time valid, and the last two input edges each accepted. -/
def ppsQualified (s : State) : Bool :=
  rbit Reg.TIME_CTRL 8 s && s.time.valid && s.time.ppsAccepted == [true, true]

/-- Whether the source with code `c` qualifies. -/
def sourceQualified (active c : Nat) (s : State) : Bool :=
  if c = 1 then lineQualified active s else if c = 2 then ptpQualified s else if c = 3 then ppsQualified s else false

/-- TIME_STATUS.QUAL: bit k - 1 for source k. -/
def qualBits (active : Nat) (s : State) : BitVec 3 :=
  BitVec.ofNat 3 (b2n (sourceQualified active 1 s) + 2 * b2n (sourceQualified active 2 s)
    + 4 * b2n (sourceQualified active 3 s))

/-- The first qualified source in the order PRIO0, PRIO1, PRIO2; 0 for none (R391). -/
def firstSource (active : Nat) (s : State) : Nat :=
  let p0 := rfld Reg.TIME_CTRL 1 0 s
  let p1 := rfld Reg.TIME_CTRL 3 2 s
  let p2 := rfld Reg.TIME_CTRL 5 4 s
  if sourceQualified active p0 s then p0 else if sourceQualified active p1 s then p1
  else if sourceQualified active p2 s then p2 else 0

/-- The selected source ceases to qualify and none other does: the change to no source is recorded (R391), HOLDOVER set and
recorded (R399). -/
def enterHoldover (s : State) : State :=
  { s with time := { s.time with holdover := true, sel := 0, offsetPs := none } }
  |> supEvent 0x0C01 [BitVec.ofNat 8 s.time.sel, 0] |> supEvent 0x0C04 [1, BitVec.ofNat 8 s.time.sel]

/-- HOLDOVER clears when a source qualifies (R399). -/
def clearHoldover (src : Nat) (s : State) : State :=
  if s.time.holdover then
    supEvent 0x0C04 [0, BitVec.ofNat 8 src] { s with time := { s.time with holdover := false } }
  else s

/-- The choice of source at a tick edge (R391): a change of selection is recorded; a loss with no other source is
holdover (R399). -/
def selectSource (active : Nat) (s : State) : State :=
  let n := firstSource active s
  let s := { s with time := { s.time with qual := qualBits active s } }
  if n = 0 then (if s.time.sel = 0 then s else enterHoldover s)
  else
    let s := clearHoldover n s
    if n = s.time.sel then s
    else supEvent 0x0C01 [BitVec.ofNat 8 s.time.sel, BitVec.ofNat 8 n]
      { s with time := { s.time with sel := n, offsetPs := none } }

/-- A write of TIME_CTRL (R388): OWNER takes effect at the next tick edge (`ownerAtEdge`). -/
def ownerChange (value : Word) (s : State) : State := setReg Reg.TIME_CTRL (value &&& 0x1F3F) s

/-- At a tick edge the OWNER written before takes effect; the new owner starts from the increment in force (R388). -/
def ownerAtEdge (s : State) : State := { s with time := { s.time with owner := rbit Reg.TIME_CTRL 12 s } }

/-! ### The line measurement (R392) -/

/-- The downstream delay d in picoseconds: (TEQ_NS - 20,000 - EqD / 53.0944) / 2 + ASYM, 53.0944 being 33184 / 625. -/
def lineDelayPs (teqNs : Nat) (eqdBits : Nat) (asymPs : Int) : Int :=
  (((teqNs : Int) - 20000) * 1000 - (eqdBits * 625000 / 33184 : Nat)) / 2 + asymPs

/-- The offset: the framer's stamp less the message's time and d, in picoseconds. Stamp and message time in units of
2^-16 ns. -/
def lineOffsetPs (stamp msg : Nat) (dPs : Int) : Int := ((stamp : Int) - msg) * 1000 / 2 ^ 16 - dPs

/-- An offset of source `c` is passed to the servo where `c` is selected. -/
def passOffset (c : Nat) (ps : Int) (s : State) : State :=
  if s.time.sel = c then { s with time := { s.time with offsetPs := some ps } } else s

/-! ### IEEE 1588 (R393, R394) -/

/-- The dataset comparison of two grandmasters (R394): 1 the first is better, 2 the second. They are compared by priority1,
class, accuracy, variance, priority2, identity. -/
def datasetOrder (a b : PtpDataset) : Nat :=
  if a.priority1 ≠ b.priority1 then (if a.priority1 < b.priority1 then 1 else 2)
  else if a.clockClass ≠ b.clockClass then (if a.clockClass < b.clockClass then 1 else 2)
  else if a.accuracy ≠ b.accuracy then (if a.accuracy < b.accuracy then 1 else 2)
  else if a.variance ≠ b.variance then (if a.variance < b.variance then 1 else 2)
  else if a.priority2 ≠ b.priority2 then (if a.priority2 < b.priority2 then 1 else 2)
  else if a.grandmaster < b.grandmaster then 1 else 2

/-- The same of one grandmaster heard in two places, each a local port with the sender it hears: 1 and 2 as before, 3 and 4 the
first and the second better by topology only, 0 neither. -/
def topologyOrder (a b : Nat × PtpForeign) : Nat :=
  let x := a.2.data.stepsRemoved.toNat
  let y := b.2.data.stepsRemoved.toNat
  if x + 1 < y then 1 else if y + 1 < x then 2
  else if x < y then (if Config.clockIdentity < b.2.sender then 1 else 3)
  else if y < x then (if Config.clockIdentity < a.2.sender then 2 else 4)
  else if a.2.sender ≠ b.2.sender then (if a.2.sender < b.2.sender then 3 else 4)
  else if a.1 < b.1 then 3 else if b.1 < a.1 then 4 else 0

/-- The comparison of two foreign masters. -/
def masterOrder (a b : Nat × PtpForeign) : Nat :=
  if a.2.data.grandmaster = b.2.data.grandmaster then topologyOrder a b else datasetOrder a.2.data b.2.data

/-- Whether the first of two foreign masters is the better one, by topology too. -/
def masterBetter (a b : Nat × PtpForeign) : Bool := masterOrder a b == 1 || masterOrder a b == 3

/-- The terminal's own dataset (R394). -/
def ownDataset (s : State) : PtpDataset :=
  { priority1 := BitVec.ofNat 8 (rfld Reg.TIME_PTP_CFG 15 8 s), clockClass := BitVec.ofNat 8 (rfld Reg.TIME_PTP_CFG 23 16 s),
    accuracy := Config.clockAccuracy, variance := Config.clockVariance,
    priority2 := BitVec.ofNat 8 (rfld Reg.TIME_PTP_CFG 7 0 s), grandmaster := Config.clockIdentity, stepsRemoved := 0 }

/-- The own dataset in the place of a foreign master. -/
def ownMaster (s : State) : Nat × PtpForeign :=
  (0, { data := ownDataset s, sender := Config.clockIdentity, senderPort := 0, cycle := s.cycle, prev := none })

/-- The Announce interval 2^LOG_ANN seconds in cycles. -/
def announceInterval (l : Nat) (s : State) : Nat := 10 ^ 9 * 2 ^ rfld (Reg.TIME_PTP_PORT l) 7 4 s

/-- The foreign masters of a port whose Announces keep coming. -/
def liveForeigns (l : Nat) (s : State) : List PtpForeign :=
  (ptpPort l s).foreign.filter (fun f => s.cycle - f.cycle ≤ 3 * announceInterval l s)

/-- Whether a foreign master is qualified: two Announces within four intervals, fewer than 255 steps, another clock. -/
def foreignQualified (l : Nat) (f : PtpForeign) (s : State) : Bool :=
  f.sender != Config.clockIdentity && decide (f.data.stepsRemoved.toNat < 255) && (match f.prev with
    | some c => decide (f.cycle - c ≤ 4 * announceInterval l s)
    | none => false)

/-- The better of what has been found and a foreign master. -/
def betterForeign (acc : Option (Nat × PtpForeign)) (x : Nat × PtpForeign) : Option (Nat × PtpForeign) :=
  match acc with
  | some y => if masterBetter x y then some x else some y
  | none => some x

/-- The best qualified foreign master of a port. -/
def portBest (l : Nat) (s : State) : Option (Nat × PtpForeign) :=
  (((liveForeigns l s).filter (fun f => foreignQualified l f s)).map (fun f => (l, f))).foldl betterForeign none

/-- The best foreign master of all enabled ports, with its port. -/
def bestForeign (s : State) : Option (Nat × PtpForeign) :=
  ((s.time.ptp.filter (fun x => rbit (Reg.TIME_PTP_PORT x.1) 31 s)).filterMap (fun x => portBest x.1 s)).foldl betterForeign none

/-- Whether a port that was enabled still waits for Announces, its receipt time-out of three intervals not being over. -/
def ptpListens (l : Nat) (s : State) : Bool :=
  match (ptpPort l s).listenAt with
  | some c => decide (s.cycle - c ≤ 3 * announceInterval l s)
  | none => false

/-- The state decision of the default best master clock algorithm for one port (R394); a SLAVE_ONLY port never enters
MASTER. -/
def ptpDecide (l : Nat) (s : State) : Nat :=
  let d0 := ownMaster s
  let cls := d0.2.data.clockClass.toNat
  let master := if rbit (Reg.TIME_PTP_PORT l) 30 s then 1 else 2
  if !rbit (Reg.TIME_PTP_PORT l) 31 s then 0
  else match portBest l s, bestForeign s with
    | none, best =>
      if ptpListens l s then 1
      else if 1 ≤ cls ∧ cls ≤ 127 then master
      else match best with
        | some x => if masterBetter x d0 ∧ x.1 = l then 4 else master
        | none => master
    | some e, best =>
      if 1 ≤ cls ∧ cls ≤ 127 then (if masterBetter e d0 then 3 else master)
      else match best with
        | some x =>
          if !masterBetter x d0 then master
          else if x.1 = l then 4
          else if masterOrder x e = 3 then 3 else master
        | none => master

/-- A port after an Announce of a sender: at most five foreign masters are kept. -/
def noteAnnounce (l : Nat) (d : PtpDataset) (sender : BitVec 64) (senderPort : Nat) (s : State) : State :=
  let fs := liveForeigns l s
  let mine (f : PtpForeign) : Bool := f.sender == sender && f.senderPort == senderPort
  let before := fs.find? mine
  let rest := fs.filter (fun f => !mine f)
  let new : PtpForeign := { data := d, sender := sender, senderPort := senderPort, cycle := s.cycle, prev := before.map (fun f => f.cycle) }
  setPtpPort l { ptpPort l s with foreign := if rest.length < 5 then rest ++ [new] else rest } s

/-- Whether a message comes from the master a SLAVE port follows. -/
def fromParent (l : Nat) (m : PtpMessage) (s : State) : Bool :=
  ptpState l s == 4 && (match bestForeign s with
    | some x => x.1 == l && x.2.sender == m.sender && x.2.senderPort == m.senderPort.toNat
    | none => false)

/-- The dataset the MASTER ports announce: that of the master a SLAVE port follows, one step on, or the terminal's own. -/
def announcedDataset (s : State) : PtpDataset :=
  match bestForeign s with
  | some x => if ptpState x.1 s = 4 then { x.2.data with stepsRemoved := x.2.data.stepsRemoved + 1 } else ownDataset s
  | none => ownDataset s

/-- The port number of a local port in its port identity. -/
def ptpPortNumber (l : Nat) : BitVec 16 := BitVec.ofNat 16 (l + 1)

/-- Whether an answer is to a request of this port: it names the port and the request's sequence number. -/
def answersMine (l : Nat) (m : PtpMessage) (asker : PtpId) (s : State) : Bool :=
  asker == { clock := Config.clockIdentity, port := ptpPortNumber l } && m.seq.toNat == (ptpPort l s).reqSeq

/-- Run the algorithm on every port of the boundary clock that has heard something. -/
def runBmca (s : State) : State :=
  each s.time.ptp (fun x s => setRfld (Reg.TIME_PTP_PORT x.1) 10 8 (ptpDecide x.1 s) s) s

/-- The ports whose EN is 1. -/
def ptpEnabledCount (s : State) : Nat :=
  (s.regs.filter (fun x => Reg.TIME_PTP_PORT 0 ≤ x.1 && x.1 ≤ Reg.TIME_PTP_PORT 511 && bitOf x.2 31)).length

/-- The slave's measurement: offset from the master, in units of 2^-16 ns, less the mean path delay. -/
def slaveOffset (p : PtpPort) : Option Int :=
  match p.t1, p.t2 with
  | some a, some b => some (b - a - p.meanPath)
  | _, _ => none

/-- The bytes of a message of IEEE 1588 on a local port by its transport, FCS included: the PTP message of `n` bytes after an
Ethernet header, or after those of UDP over IPv4 or IPv6 (with the two bytes Annex D adds). -/
def ptpFrameLen (l n : Nat) (s : State) : Nat :=
  let t := rfld (Reg.TIME_PTP_PORT l) 28 27 s
  max 64 (18 + n + (if t = 1 then 28 else if t = 2 then 50 else 0))

/-- The bytes of a PTP message that is sent. -/
def ptpSendLen (m : PtpSend) : Nat :=
  match m with
  | .announce _ => 64
  | .sync | .followUp _ _ | .delayReq => 44
  | .delayResp _ _ _ _ | .pdelayReq | .pdelayResp _ _ _ _ | .pdelayRespFollowUp _ _ _ _ => 54

/-- Send a message at a port; one that is down sends none, and none leaves in a dip episode (R347, R348). -/
def sendPtp (l seq : Nat) (m : PtpSend) (s : State) : State :=
  when' (supMaySend l s) (supSends l (ptpFrameLen l (ptpSendLen m) s) (.ptp l seq m)) s

/-- Send a message marked for stamping: its transmit stamp returns with its identity, the sequence number (R359, R360). -/
def sendStamped (l seq : Nat) (m : PtpSend) (s : State) : State :=
  let stamp := if supMaySend l s then some (seq, txStamp l s) else none
  let s := sendPtp l seq m s
  setPtpPort l { ptpPort l s with txStamp := stamp } s

/-- The transmit stamp returned for a sequence number. -/
def returnedStamp (l seq : Nat) (s : State) : Option Int :=
  match (ptpPort l s).txStamp with
  | some (q, t) => if q = seq then some t else none
  | none => none

/-- Whole nanoseconds of a stamp, and what is left of it in units of 2^-16 ns. -/
def stampNs (t : Int) : Nat := (t / 65536).toNat
def stampFrac (t : Int) : Int := t % 65536

/-- After a Follow_Up the slave asks for the path delay by the port's mechanism; t3 is the request's transmit stamp. -/
def askDelay (l : Nat) (p : PtpPort) (s : State) : State :=
  let q := p.txReqSeq
  let s := s |> setPtpPort l { p with txReqSeq := (q + 1) % 2 ^ 16, reqSeq := q }
    |> sendStamped l q (if rbit (Reg.TIME_PTP_PORT l) 29 s then .pdelayReq else .delayReq)
  setPtpPort l { ptpPort l s with t3 := returnedStamp l q s } s

/-- A PTP message on an enabled port in the clock's domain, stamped at its arrival (R359, R393, R394). -/
def ptpHandle (l : Nat) (m : PtpMessage) (s : State) : State :=
  let p := ptpPort l s
  let st := ptpState l s
  let p2p := rbit (Reg.TIME_PTP_PORT l) 29 s
  let rx : Int := rxStamp l s
  let corr : Int := signed 64 m.correction.toNat
  match m.kind with
  | .announce d => s |> noteAnnounce l d m.sender m.senderPort.toNat |> runBmca
  | .sync =>
    if fromParent l m s then
      setPtpPort l { p with lastSync := some s.cycle, syncSeq := m.seq.toNat, syncCorr := corr, t2 := some rx, t1 := none } s
    else s
  | .followUp o =>
    if fromParent l m s ∧ p.syncSeq = m.seq.toNat ∧ p.t2.isSome ∧ p.t1.isNone then
      let p := { p with t1 := some ((o : Int) * 65536 + p.syncCorr + corr) }
      let s := askDelay l p s
      match slaveOffset p with
      | some x => passOffset 2 (x * 1000 / 65536) s
      | none => s
    else s
  | .delayReq =>
    if st = 2 ∧ !p2p then
      sendPtp l m.seq.toNat (.delayResp m.sender m.senderPort (stampNs rx) (corr - stampFrac rx)) s
    else s
  | .delayResp r asker =>
    if fromParent l m s ∧ !p2p ∧ answersMine l m asker s then
      match p.t1, p.t2, p.t3 with
      | some t1, some t2, some t3 =>
        setPtpPort l { p with meanPath := ((t2 - t1) + ((r : Int) * 65536 - corr - t3)) / 2, t3 := none } s
      | _, _, _ => s
    else s
  | .pdelayReq =>
    if p2p then
      let s := sendStamped l m.seq.toNat (.pdelayResp m.sender m.senderPort (stampNs rx) (-(stampFrac rx))) s
      match returnedStamp l m.seq.toNat s with
      | some t => sendPtp l m.seq.toNat (.pdelayRespFollowUp m.sender m.senderPort (stampNs t) (corr + stampFrac t)) s
      | none => s
    else s
  | .pdelayResp r asker =>
    if p2p ∧ answersMine l m asker s then
      match p.t3 with
      | some t3 => setPtpPort l { p with pdelay := some (rx - t3 + (r : Int) * 65536 - corr), t3 := none } s
      | none => s
    else s
  | .pdelayRespFollowUp o asker =>
    if p2p ∧ answersMine l m asker s then
      match p.pdelay with
      | some d => setPtpPort l { p with meanPath := (d - (o : Int) * 65536 - corr) / 2, pdelay := none } s
      | none => s
    else s
  | .other => s

/-- PTP_MESSAGE: only on a port that is up and whose EN is 1, and only in the clock's domain; in a dip episode the frame is
dropped (R348). -/
def ptpMessage (l : Nat) (m : PtpMessage) (s : State) : State :=
  if !(port l s).link then s
  else if inDip s then dropAtIngress s
  else if rbit (Reg.TIME_PTP_PORT l) 31 s ∧ m.domain.toNat = rfld Reg.TIME_PTP_CFG 31 24 s then ptpHandle l m s else s

/-- PTP_SYNC_INTERVAL: on a port in MASTER that may send, a two-step Sync and its Follow_Up, which carries the Sync's transmit
stamp, or an Announce (R360, R393). -/
def ptpSyncInterval (l : Nat) (announce : Bool) (s : State) : State :=
  if ptpState l s = 2 ∧ supMaySend l s then
    let p := ptpPort l s
    if announce then
      s |> sendPtp l p.txAnnSeq (.announce (announcedDataset s))
        |> setPtpPort l { p with txAnnSeq := (p.txAnnSeq + 1) % 2 ^ 16 }
    else
      let s := s |> setPtpPort l { p with txSyncSeq := (p.txSyncSeq + 1) % 2 ^ 16 } |> sendStamped l p.txSyncSeq .sync
      match returnedStamp l p.txSyncSeq s with
      | some t => sendPtp l p.txSyncSeq (.followUp (stampNs t) (stampFrac t)) s
      | none => s
  else s

/-! ### 1 PPS and 10 MHz (R395, R396, R400) -/

/-- The level of REF10M_OUT: with REF10_EN 1 a 10 MHz square wave whose rising edges fall at the multiples of 100 ns of
terminal time (R396). -/
def ref10Level (s : State) : Bool := rbit Reg.TIME_CTRL 11 s && domState 18 s == .on && decide (timeInNs s % 100 < 50)

/-- Terminal time in picoseconds. -/
def timePs (s : State) : Int := s.time.now * 1000 / 2 ^ 56

/-- The corrected stamp of an input edge, in picoseconds. -/
def ppsStamp (s : State) : Int := (stampBase s / 2 ^ 56 : Nat) * 1000 - signed 32 (reg Reg.TIME_PPS_IN_ADJ s).toNat

/-- The distance of a time in picoseconds to the nearest whole second. -/
def toWholeSecond (ps : Int) : Int :=
  let r := ps % 10 ^ 12
  if r ≤ 5 * 10 ^ 11 then r else r - 10 ^ 12

/-- PPS_IN_EDGE (R395): accepted within 100 µs of a whole second and at least 0.9 s after the last accepted edge. -/
def ppsInEdge (rising : Bool) (s : State) : State :=
  if rising = rbit Reg.TIME_CTRL 9 s then s
  else
    let e := toWholeSecond (ppsStamp s)
    let late : Bool := match s.time.ppsLast with
      | some c => decide (9 * 10 ^ 8 ≤ s.cycle - c)
      | none => true
    if e.natAbs ≤ 10 ^ 8 ∧ late then
      passOffset 3 e
        { s with time := { s.time with ppsLast := some s.cycle, ppsAccepted := (true :: s.time.ppsAccepted).take 2 } }
    else
      count Reg.CNT_TIME_PPS_REJECT
        { s with time := { s.time with ppsAccepted := (false :: s.time.ppsAccepted).take 2 } }

/-- The whole second that terminal time less TIME_PPS_OUT_ADJ.ADJ has reached. -/
def ppsOutSecondNow (s : State) : Int := (timePs s - signed 32 (reg Reg.TIME_PPS_OUT_ADJ s).toNat) / 10 ^ 12

/-- PPS_OUT_PULSE (R396, R400): rises once per whole second after the last pulse given; falls after WIDTH. -/
def ppsOutPulse (rise : Bool) (s : State) : State :=
  if rise then
    let n := (ppsOutSecondNow s).toNat
    let due : Bool := match s.time.ppsOutSecond with
      | some k => decide (k < n)
      | none => true
    if rbit Reg.TIME_CTRL 10 s ∧ domState 18 s = .on ∧ due then
      emitLand 5 (.ppsOut true) { s with time := { s.time with ppsOutSecond := some n, ppsOutHigh := true } }
    else s
  else if s.time.ppsOutHigh then emitLand 5 (.ppsOut false) { s with time := { s.time with ppsOutHigh := false } }
  else s

end Sys2Proof.Machine
end

