-- ==== Sys2Proof/Machine/Join.lean ====
section
/-! DEFINITION. The life of an identity, line management messages and doze (R139 to R158). -/
namespace Sys2Proof.Machine

/-! ### Messages -/

/-- A line management message of an identity as it is sent (R140). -/
def lmmBytes (tn type seq : Nat) (body : Bytes) : Bytes :=
  let b := beBytes 2 (tn * 16) ++ [BitVec.ofNat 8 type, BitVec.ofNat 8 seq, 0, 0, 0, 0] ++ (body ++ zeros (36 - body.length))
  b ++ beBytes 4 (crc32c b).toNat

/-- CNT_LMM_REJECT. -/
def rejectLmm (s : State) : State := count Reg.CNT_LMM_REJECT s

/-- Acknowledge a message where it asks for it and the identity holds a TN. -/
def ackLmm (m : LmmHead) (type i : Nat) (s : State) : State :=
  if m.ackReq ∧ holdsTn (ident i s) then queueAck i type m.seq.toNat m.fc s else s

/-- The identities a message addressed to a TN concerns: its holder, or on broadcast every identity that holds one. -/
def concerned (m : LmmHead) (s : State) : List Nat :=
  if m.tn = 0xFFF then allIdents.filter (fun i => holdsTn (ident i s))
  else match identOfTn m.tn.toNat s with
    | some i => [i]
    | none => []

/-- Act on a message for one identity (R141): a duplicate is only acknowledged again, a refused one counted. -/
def actOn (m : LmmHead) (type : Nat) (act : Nat → State → Option State) (i : Nat) (s : State) : State :=
  if m.tn ≠ 0xFFF ∧ (ident i s).lastMsg = some (type, m.seq.toNat) then ackLmm m type i s
  else match act i s with
    | none => rejectLmm s
    | some t =>
      let t := if m.tn ≠ 0xFFF ∧ holdsTn (ident i t) then modIdent i (fun x => { x with lastMsg := some (type, m.seq.toNat) }) t
        else t
      ackLmm m type i t

/-- Act on a message for every identity it concerns. -/
def actOnAll (m : LmmHead) (type : Nat) (act : Nat → State → Option State) (s : State) : State :=
  each (concerned m s) (actOn m type act) s

/-- The HEID heard on the seam of a message. -/
def heidHeard (m : LmmHead) (s : State) : BitVec 16 := (seam (activeSide s) m.seam.val s).heid

/-! ### States -/

/-- Serving is entered: bonded flows begin anew (R160, R161), consignments are carried (R216). -/
def enterServing (i fc : Nat) (s : State) : State :=
  s |> changeState i .serving .head fc |> dropFrags i
    |> modIdent i (fun x => { x with timer := none, bseqTx := 0 }) |> carryIdent i

/-- To Listening; an identity whose EN is 0 stays there. -/
def toListening (i fc : Nat) (s : State) : State := changeState i .listening .head fc s

/-- ASSIGN_TN (R141, R144). It names its identity by IDSER; DEDUCED: the TN of its message header is not looked at (log entry 42). -/
def assignTn (m : LmmHead) (idser newTn : Nat) (s : State) : State :=
  match identOfSerial idser with
  | none => s
  | some i =>
    let x := ident i s
    if newTn = 0xFFF then rejectLmm s
    else if holdsTn x ∧ x.tn = some (BitVec.ofNat 12 newTn) then ackLmm m 1 i s
    else if x.phase ≠ .announcing then rejectLmm s
    else if (identOfTn newTn s).isSome then supEvent 0x0402 (BitVec.ofNat 8 i :: beBytes 2 newTn) s
    else
      s |> setIdent i { x with tn := some (BitVec.ofNat 12 newTn), heid := heidHeard m s, timer := some s.cycle,
                               lastMsg := none, seqTx := 0, allocs := [], homes := [], msgs := [] }
        |> changeState i .ranging .head m.fc.toNat |> ackLmm m 1 i

/-! ### EqD (R147, R148) -/

/-- The EqD in force for an upstream frame of a side. -/
def eqdAt (side : Nat) (u : BitVec 48) (s : State) : Nat :=
  (s.join.eqdNext.filter (fun e => e.1 == side && !serialBelow 48 u.toNat e.2.1.toNat)).foldl (fun _ e => e.2.2)
    (tget (fun _ => 0) s.join.eqdUse side)

/-- Changes that have taken effect for frame `u` become the EqD in use. -/
def settleEqd (side : Nat) (u : BitVec 48) (s : State) : State :=
  { s with join := { s.join with
      eqdUse := tput (fun _ => 0) side (eqdAt side u s) s.join.eqdUse,
      eqdNext := s.join.eqdNext.filter (fun e => e.1 != side || serialBelow 48 u.toNat e.2.1.toNat) } }

/-- A side's EqD set from an upstream frame on (R147). DEDUCED: the last message prevails from its frame on, so a change still to
come at that frame or later is void (log entry 42). -/
def setEqd (side eqd : Nat) (eff : BitVec 48) (s : State) : State :=
  let old := eqdWord side s
  let new := word (at' 31 1 + eqd)
  let s := s |> keepWrite (36 + side) new
    |> when' (old != new) (supEvent 0x0405 (BitVec.ofNat 8 side :: (beBytes 4 old.toNat ++ beBytes 4 new.toNat)))
  { s with join := { s.join with
      eqdNext := s.join.eqdNext.filter (fun e => e.1 != side || serialBelow 48 e.2.1.toNat eff.toNat) ++ [(side, eff, eqd)] } }

/-- RANGING_TIME for an identity: in Ranging, Serving or Held (R144, R147). -/
def rangingOne (m : LmmHead) (eqd : Nat) (eff : BitVec 48) (i : Nat) (s : State) : Option State :=
  let side := activeSide s
  let s := setEqd side eqd eff s
  if (ident i s).phase = .ranging then
    some (s |> modIdent i (fun x => { x with heid := heidHeard m s }) |> saveReg side i |> enterServing i m.fc.toNat)
  else some s

/-- RANGING_TIME (R120, R147). -/
def rangingTime (m : LmmHead) (eqd : Nat) (effFc : BitVec 48) (now : Bool) (s : State) : State :=
  if concerned m s = [] then s
  else if 53094400 < eqd then rejectLmm s
  else
    let first := m.fc + 2
    let eff := if now ∨ serialBelow 48 effFc.toNat first.toNat then first else effFc
    actOnAll m 2 (rangingOne m eqd eff) s

/-! ### Allocations (R149, R150) -/

/-- Remove an allocation with the consequences of R149. -/
def removeAlloc (i k : Nat) (s : State) : State :=
  s |> flushAlloc i k |> modIdent i (fun x => { x with allocs := tput (fun _ => 0) k 0 x.allocs,
                                                       homes := tput (fun _ => 0) k 0 x.homes })

/-- The allocations of the terminal that hold an ALLOC_ID, as (identity, index). -/
def allocHolders (id : Nat) (s : State) : List (Nat × Nat) :=
  s.join.idents.flatMap (fun e => (e.2.allocs.filter (fun a => a.2 == id)).map (fun a => (e.1, a.1)))

/-- ALLOC_ASSIGN for an identity. -/
def allocOne (id : Nat) (remove : Bool) (k i : Nat) (s : State) : Option State :=
  if k = 0 ∨ id < 4096 ∨ 16382 < id then none
  else if remove then some (if hasAlloc i k s then s |> removeAlloc i k |> resaveReg i else s)
  else
    let s := each ((allocHolders id s).filter (fun e => e != (i, k))) (fun e s => s |> removeAlloc e.1 e.2 |> resaveReg e.1) s
    let s := when' (hasAlloc i k s) (removeAlloc i k) s
    some (s |> modIdent i (fun x => { x with allocs := tput (fun _ => 0) k id x.allocs }) |> resaveReg i)

/-- ALLOC_ASSIGN (R149, R150). -/
def allocAssign (m : LmmHead) (id : Nat) (remove : Bool) (k : Nat) (s : State) : State := actOnAll m 3 (allocOne id remove k) s

/-! ### DEACTIVATE, EXPEL, HOLD -/

/-- DEACTIVATE for an identity. -/
def deactivateOne (m : LmmHead) (i : Nat) (s : State) : Option State :=
  some (s |> dropTn i |> clearReg (activeSide s) i |> toListening i m.fc.toNat)

/-- DEACTIVATE (R144). -/
def deactivate (m : LmmHead) (s : State) : State := actOnAll m 4 (deactivateOne m) s

/-- Clear the expelled flag and go to Listening (R144). -/
def readmit (i fc : Nat) (s : State) : State := s |> setExpelled i false |> toListening i fc

/-- EXPEL (R141, R144). It names its identity by IDSER; DEDUCED: the TN of its message header is not looked at (log entry 42). -/
def expel (m : LmmHead) (idser : Nat) (enable : Bool) (s : State) : State :=
  match identOfSerial idser with
  | none => s
  | some i =>
    let x := ident i s
    if enable then
      if x.phase = .expelled then readmit i m.fc.toNat s else ackLmm m 5 i s
    else if x.phase = .expelled then s
    else if x.phase = .parked then rejectLmm s
    else
      s |> dropTn i |> clearReg 0 i |> clearReg 1 i |> setExpelled i true |> changeState i .expelled .head m.fc.toNat

/-- UNEXPEL (R144). -/
def unexpel (i : Nat) (s : State) : State :=
  if (ident i s).phase = .expelled then readmit i s.tick.count.toNat s else s

/-- HOLD for an identity. -/
def holdOne (m : LmmHead) (release : Bool) (i : Nat) (s : State) : Option State :=
  let x := ident i s
  if release then
    if x.phase = .held ∧ x.cause = .head then some (enterServing i m.fc.toNat s) else none
  else if x.phase = .serving then some (changeState i .held .head m.fc.toNat s)
  else none

/-- HOLD (R144). -/
def hold (m : LmmHead) (release : Bool) (s : State) : State := actOnAll m 6 (holdOne m release) s

/-! ### Keys, profiles, echo, resume -/

/-- KEY_EPOCH (R434, R435). -/
def keyEpoch (m : LmmHead) (up : Bool) (epoch : Word) (fc : BitVec 48) (s : State) : State :=
  actOnAll m 7 (fun i s => some (nameEpoch i up epoch fc s)) s

/-- Whether a message that concerns the side is for this terminal. -/
def forTerminal (m : LmmHead) (s : State) : Bool := m.tn == 0xFFF || (identOfTn m.tn.toNat s).isSome

/-- The entry of word `w` of a burst profile (R575). -/
def profileEntry (side p w : Nat) : Nat := 40 + 32 * side + 4 * p + w

/-- Store a profile of a side and make it valid. -/
def storeProfile (side p preamble : Nat) (pattern : Word) (delimiter : BitVec 64) (s : State) : State :=
  s |> keepWrite (profileEntry side p 0) (word (at' 31 1 + preamble)) |> keepWrite (profileEntry side p 1) pattern
    |> keepWrite (profileEntry side p 2) (word (delimiter.toNat / 2 ^ 32)) |> keepWrite (profileEntry side p 3) (word delimiter.toNat)

/-- BURST_PROFILE (R117, R142). DEDUCED: a broadcast that asks for it is acknowledged by every identity that holds a TN
(log entry 42). -/
def burstProfile (m : LmmHead) (p preamble : Nat) (pattern : Word) (delimiter : BitVec 64) (s : State) : State :=
  if !forTerminal m s then s
  else if preamble = 0 then rejectLmm s
  else if m.tn = 0xFFF then s |> storeProfile (activeSide s) p preamble pattern delimiter |> each (concerned m s) (ackLmm m 8)
  else actOnAll m 8 (fun _ s => some (storeProfile (activeSide s) p preamble pattern delimiter s)) s

/-- ECHO_REQUEST (R142). -/
def echoRequest (m : LmmHead) (data : BitVec 288) (s : State) : State :=
  actOnAll m 10 (fun i s => some (queueMsg i 0x85 (beBytes 36 data.toNat) none s)) s

/-- RESUME_ACK for an identity: Held for another cause than HOLD. -/
def resumeOne (m : LmmHead) (ds us : Word) (i : Nat) (s : State) : Option State :=
  let x := ident i s
  if x.phase = .held ∧ x.cause ≠ .head then
    some (s |> resumeEpoch i false ds |> resumeEpoch i true us |> enterServing i m.fc.toNat)
  else none

/-- RESUME_ACK (R144, R436). -/
def resumeAck (m : LmmHead) (ds us : Word) (s : State) : State := actOnAll m 11 (resumeOne m ds us) s

/-! ### Doze (R152 to R158) -/

/-- Frames from the beginning of a doze to frame `fc`; none before it. -/
def dozePos (d : DozeState) (fc : BitVec 48) : Option Nat :=
  if serialBelow 48 fc.toNat d.f0.toNat then none else some ((fc - d.f0).toNat % max 1 d.period)

/-- T_opt of a side's optic in milliseconds (GEN_OPTIC). -/
def tOptMs (side : Nat) (s : State) : Nat := rfld (Reg.GEN_OPTIC side) 31 16 s

/-- The lead of L3 in frames (R155). -/
def dozeLead3 (s : State) : Nat := 104 + (tOptMs (activeSide s) s * 1000 + 124) / 125

/-- What a DOZE_GRANT with STATE 0 makes of a doze (R158): one in force ends at the frame after the grant's. -/
def dozeEnding (m : LmmHead) (now : BitVec 48) (x : Identity) : Option DozeState :=
  (dozeIn now x).map (fun d => { d with ends := some (d.ends.getD (m.fc + 1)) })

/-- DOZE_GRANT for an identity (R153, R154, R157, R158). DEDUCED: the doze state and the cycle are in force from the grant on, in
place of those before, though no frame is an aware frame before F0 (log entry 42). -/
def dozeOne (m : LmmHead) (st period aware i : Nat) (s : State) : Option State :=
  let x := ident i s
  if x.phase ≠ .serving ∨ 3 < st then none
  else if st ≠ 0 ∧ (period < 8 ∨ aware < 2 ∨ period - 1 < aware) then none
  else if st = 3 ∧ period - aware < dozeLead3 s then none
  else if x.wokeAt = some s.tick.count ∨ s.pwr.wakeAt = some s.tick.count then some (count Reg.CNT_DOZE_ABORT s)
  else
    let doze := if st = 0 then dozeEnding m s.tick.count x
      else some { state := st, f0 := m.fc + 8, period := period, aware := aware, ends := none }
    some (setIdent i { x with doze := doze, grantAt := some s.tick.count } s)

/-- DOZE_GRANT. -/
def dozeGrant (m : LmmHead) (st period aware : Nat) (s : State) : State := actOnAll m 9 (dozeOne m st period aware) s


/-- The doze state D of R446: the shallowest in force among the identities whose EN is 1, one that does not doze counting
as 0; 4 where no identity has EN 1. -/
def shallowestDoze (s : State) : Nat :=
  let live := allIdents.filter (fun i => rbit (Reg.JOIN_ID_CFG i) 0 s)
  (live.map (fun i => match dozeOf i s with
    | some d => d.state
    | none => 0)).foldl min 4

/-- Frames until an identity that dozes is next in an aware frame; 0 in one (R153). -/
def framesToAware (now : BitVec 48) (d : DozeState) : Nat :=
  match dozePos d now with
  | some p => if p < d.aware then 0 else d.period - p
  | none => (d.f0 - now).toNat

/-- Whether the side is to be up (R155): from 2 frames before the earliest aware frame on in L2, from the lead of L3 on in
L3, until it is over. -/
def lineDue (s : State) : Bool :=
  let lead := if shallowestDoze s = 3 then dozeLead3 s else 2
  (dozing s).any (fun e => decide (framesToAware s.tick.count e.2 ≤ lead))


/-! ### Time of day (R392) -/

/-- TIME_OF_DAY used: its offset goes to the servo where LINE is selected. -/
def useTimeOfDay (side : Nat) (stamp : Nat) (mark : BitVec 48) (seconds ns frac : Nat) (s : State) : State :=
  let d := lineDelayPs (rfld Reg.TIME_LINE_TEQ 21 0 s) (eqdAt side mark s) (signed 32 (reg Reg.TIME_LINE_ASYM s).toNat)
  let msg := (seconds * 10 ^ 9 + ns) * 2 ^ 16 + frac
  passOffset 1 (lineOffsetPs stamp msg d) { s with time := { s.time with lastTod := some s.cycle } }

/-- TIME_OF_DAY (R392; a broadcast is acknowledged as BURST_PROFILE's): on the seam that gives the tick, with MARK_FC
from U - 7 to U; one whose stamp is gone is counted (R401). -/
def timeOfDay (m : LmmHead) (mark : BitVec 48) (seconds ns frac : Nat) (s : State) : State :=
  let side := activeSide s
  if !(s.tick.line && s.tick.side.val == side && s.tick.seam == m.seam) || !forTerminal m s then s
  else if 7 < (m.fc - mark).toNat then rejectLmm s
  else
    let use := fun (s : State) => match ((seam side m.seam.val s).stamps.find? (fun e => e.1 == mark)) with
      | some (_, t) => useTimeOfDay side t mark seconds ns frac s
      | none => count Reg.CNT_TIME_TOD_STALE s
    if m.tn = 0xFFF then s |> use |> each (concerned m s) (ackLmm m 12) else actOnAll m 12 (fun _ s => some (use s)) s

/-! ### Timers and the line (R144) -/

/-- EV_JOIN_LOST: reason 0 HEID differs, 1 resume timer. -/
def joinLost (i reason heid fc : Nat) (s : State) : State :=
  let side := activeSide s
  let saved := savedHeid side i s
  s |> dropTn i |> clearReg side i
    |> supEvent 0x0404 ([BitVec.ofNat 8 i, BitVec.ofNat 8 reason] ++ beBytes 2 saved ++ beBytes 2 heid)
    |> toListening i fc

/-- JOIN_TIMEOUT. -/
def joinTimeout (i : Nat) (s : State) : State :=
  let x := ident i s
  if x.phase = .ranging ∧ x.timer.isSome then
    s |> supEvent 0x0403 (BitVec.ofNat 8 i :: beBytes 2 (x.tn.getD 0).toNat) |> dropTn i |> toListening i s.tick.count.toNat
  else s

/-- RESUME_TIMEOUT. -/
def resumeTimeout (i : Nat) (s : State) : State :=
  let x := ident i s
  if x.phase = .held ∧ x.cause ≠ .head ∧ x.timer.isSome then joinLost i 1 0 s.tick.count.toNat s else s

/-- All seams of the active side have left SYNC (R144). -/
def lineLost (s : State) : State :=
  each allIdents (fun i s =>
    let x := ident i s
    if x.phase = .announcing then toListening i s.tick.count.toNat s
    else if x.phase = .serving ∨ (x.phase = .held ∧ x.cause = .head) then
      changeState i .held .line s.tick.count.toNat s
    else s) s

/-- Where the last seam of a side has left SYNC, its identities follow. -/
def noteLineLost (side : Nat) (before : Bool) (s : State) : State :=
  if side = activeSide s ∧ before ∧ (lowestSync side s).isNone then lineLost s else s

/-- A seam of the active side enters SYNC (R144). -/
def lineFound (side n : Nat) (s : State) : State :=
  if side ≠ activeSide s then s
  else
    let y := seam side n s
    each allIdents (fun i s =>
      let x := ident i s
      if x.phase = .held ∧ x.cause ≠ .head then
        if y.heid.toNat = savedHeid side i s then
          (if x.timer.isNone then setIdent i { x with timer := some s.cycle } s else s)
        else joinLost i 0 y.heid.toNat y.fc.toNat s
      else s) s

/-- After a reset, or when a side becomes active from the cold: the state each identity starts in (R144). `cause` is
RESTART or SWITCH. -/
def startIdent (cause : HeldCause) (fc i : Nat) (s : State) : State :=
  let side := activeSide s
  if expelledFlag i s then (if (ident i s).phase = .expelled then s else changeState i .expelled .head fc s)
  else if savedValid side i s then
    s |> setIdent i (restored side i { Identity.reset with phase := (ident i s).phase } s) |> changeState i .held cause fc
  else if (ident i s).phase = .listening then s
  else s |> setIdent i { Identity.reset with phase := (ident i s).phase } |> toListening i fc

/-- Every identity starts anew after a reset. The state before it is not one of the part after it, so the change is
recorded only where the identity does not start in Listening. -/
def startIdents (s : State) : State :=
  let s := { s with join := { JoinState.reset with
    eqdUse := [0, 1].foldl (fun t k => tput (fun _ => 0) k ((eqdWord k s).toNat % 2 ^ 26) t) [] } }
  each allIdents (startIdent .restart s.tick.count.toNat) s

/-- A write of JOIN_ID_CFG: EN 0 takes effect at once in Listening and Announcing (R144). -/
def idCfgWritten (i : Nat) (s : State) : State :=
  if !rbit (Reg.JOIN_ID_CFG i) 0 s ∧ (ident i s).phase = .announcing then toListening i s.tick.count.toNat s else s

/-! ### Messages from the line -/

/-- Bits of a message body. -/
def bodyFld (b : Bytes) (off n bits : Nat) : Nat := beAt b (8 + off) n % 2 ^ bits

/-- Act on one message received in a frame (R141, R142). DEDUCED: one of unknown TYPE is counted whatever TN it is addressed to
(log entry 42). -/
def actLmm (x : LmmWaiting) (s : State) : State :=
  let b := x.bytes
  if x.side ≠ activeSide s then s
  else if (crc32c (b.take 44)).toNat ≠ beAt b 44 4 then count Reg.CNT_LMM_BAD s
  else
    let m : LmmHead := { seam := Fin.ofNat 4 x.seam, fc := x.fc, tn := BitVec.ofNat 12 (beAt b 0 2 / 16), seq := BitVec.ofNat 8 (beAt b 3 1),
                         ackReq := beAt b 4 1 / 128 == 1 }
    match beAt b 2 1 with
    | 0x01 => assignTn m (bodyFld b 0 8 64) (bodyFld b 8 2 12) s
    | 0x02 => rangingTime m (bodyFld b 0 4 26) (BitVec.ofNat 48 (bodyFld b 4 6 48)) (bodyFld b 10 1 8 / 128 == 1) s
    | 0x03 => allocAssign m (bodyFld b 0 2 14) (bodyFld b 2 1 8 / 128 == 1) (bodyFld b 2 1 3) s
    | 0x04 => deactivate m s
    | 0x05 => expel m (bodyFld b 0 8 64) (bodyFld b 8 1 1 == 1) s
    | 0x06 => hold m (bodyFld b 0 1 1 == 1) s
    | 0x07 => keyEpoch m (bodyFld b 0 1 1 == 1) (word (bodyFld b 4 4 32)) (BitVec.ofNat 48 (bodyFld b 8 6 48)) s
    | 0x08 => burstProfile m (bodyFld b 0 1 3) (bodyFld b 2 2 10) (word (bodyFld b 4 4 32)) (BitVec.ofNat 64 (bodyFld b 8 8 64)) s
    | 0x09 => dozeGrant m (bodyFld b 0 1 3) (bodyFld b 2 2 16) (bodyFld b 4 2 16) s
    | 0x0A => echoRequest m (BitVec.ofNat 288 (beAt b 8 36)) s
    | 0x0B => resumeAck m (word (bodyFld b 0 4 32)) (word (bodyFld b 4 4 32)) s
    | 0x0C => timeOfDay m (BitVec.ofNat 48 (bodyFld b 0 6 48)) (bodyFld b 6 8 64) (bodyFld b 14 4 32) (bodyFld b 18 2 16) s
    | _ => count Reg.CNT_LMM_UNKNOWN s

/-- The messages not yet acted on, in order: by frame, seams ascending (R122, R141). -/
def actLmms (s : State) : State :=
  let ms := s.join.lmms
  each ms actLmm { s with join := { s.join with lmms := [] } }

end Sys2Proof.Machine
end

