-- ==== Sys2Proof/Machine/Plan.lean ====
section
/-! DEFINITION. The shift plan and the bursts built from it (R118 to R135, R139, R145, R146, R148, R151, R161, R162,
R297, R298). -/
namespace Sys2Proof.Machine

/-! ### Records (R123 to R126) -/

/-- A record of a plan: ALLOC_ID, START, LENGTH, QR, RNG, PROFILE, KS. -/
structure PlanRecord where
  allocId : Nat
  start : Nat
  length : Nat
  qr : Bool
  rng : Bool
  profile : Nat
  ks : Bool

/-- The fields of a record (R123). -/
def planRecord (w : BitVec 64) : PlanRecord :=
  let n := w.toNat
  { allocId := n / 2 ^ 50 % 2 ^ 14, start := n / 2 ^ 32 % 2 ^ 18, length := n / 2 ^ 14 % 2 ^ 18, qr := n / 2 ^ 13 % 2 == 1,
    rng := n / 2 ^ 12 % 2 == 1, profile := n / 2 ^ 9 % 8, ks := n / 2 ^ 8 % 2 == 1 }

/-- Whom a record concerns (R124). -/
inductive Concern where
  | nobody
  | announce
  | ranging (i : Nat)
  | data (i k : Nat)
  deriving DecidableEq

/-- Whether an identity may take part in an announce window. -/
def mayAnnounce (i : Nat) (s : State) : Bool :=
  let x := ident i s
  x.phase == .announcing || (x.phase == .listening && rbit (Reg.JOIN_ID_CFG i) 0 s)

/-- The allocation of an identity in Serving that holds an ALLOC_ID. -/
def servingAlloc (id : Nat) (s : State) : Option (Nat × Nat) :=
  match s.join.idents.find? (fun e => e.2.phase == .serving && e.2.tn == some (BitVec.ofNat 12 id) && decide (id < 4096)) with
  | some e => some (e.1, 0)
  | none => (allocHolders id s).find? (fun e => (ident e.1 s).phase == .serving)

/-- R124. -/
def concernOf (r : PlanRecord) (s : State) : Concern :=
  if r.allocId = 0x3FFF then (if r.rng ∧ allIdents.any (fun i => mayAnnounce i s) then .announce else .nobody)
  else if r.rng then
    (if 4095 ≤ r.allocId then .nobody
     else match identOfTn r.allocId s with
      | some i => .ranging i
      | none => .nobody)
  else if r.allocId ≠ 4095 then
    (match servingAlloc r.allocId s with
      | some (i, k) => .data i k
      | none => .nobody)
  else .nobody

/-- The identity of a concern. -/
def Concern.who : Concern → Option Nat
  | .ranging i => some i
  | .data i _ => some i
  | _ => none

/-! ### Overlaps (R125, R148) -/

/-- One half nanosecond of burst-enable in units of 10^-4 upstream bit. -/
def halfNs : Int := 265472

/-- The stretch of a burst on its seam, in units of 10^-4 upstream bit from the start of frame `ref`, with an EqD; a burst
in a ranging window has 40 blocks (R139). -/
def burstSpan (ref : BitVec 48) (b : Burst) (eqd : Nat) (s : State) : Int × Int :=
  let base := signed 48 (b.fc - ref).toNat * 6636800 + eqd
  let first := if b.ranging then b.first else (b.records.head?.map (·.start)).getD b.first
  let last := if b.ranging then b.first + 40 else (b.records.getLast?.map (fun r => r.start + r.length)).getD first
  ((base + 32 * ((first : Int) - (b.preamble + 2))) * 10000 - rfld (Reg.JOIN_BE b.side) 15 8 s * halfNs,
   (base + 32 * (last : Int)) * 10000 + rfld (Reg.JOIN_BE b.side) 7 0 s * halfNs)

/-- Whether two stretches overlap. -/
def spansMeet (a b : Int × Int) : Bool := decide (a.1 < b.2) && decide (b.1 < a.2)

/-- How a burst meets those placed before it: 0 not at all, 1 only through an EqD decrease against an earlier frame's
burst (R148), 2 otherwise. -/
def overlapKind (b : Burst) (placed : List Burst) (s : State) : Nat :=
  let me := burstSpan b.fc b b.eqd s
  let meets := placed.filter (fun o => o.side == b.side && o.seam == b.seam && !o.missed && spansMeet me (burstSpan b.fc o o.eqd s))
  let byDecrease := fun (o : Burst) =>
    o.fc != b.fc && !b.ranging && decide (b.eqd < o.eqd) && !spansMeet (burstSpan b.fc b o.eqd s) (burstSpan b.fc o o.eqd s)
  if meets.isEmpty then 0 else if meets.all byDecrease then 1 else 2

/-! ### Placing (R125 to R127, R145, R146, R162) -/

/-- The allocation index a record is for. -/
def Concern.index : Concern → Nat
  | .data _ k => k
  | _ => 0

/-- Whether a concern is a data grant. -/
def Concern.isData : Concern → Bool
  | .data _ _ => true
  | _ => false

/-- A record as a burst uses it. -/
def grantOf (k : Nat) (r : PlanRecord) : GrantRecord :=
  { k := k, allocId := r.allocId, start := r.start, length := r.length, qr := r.qr, ks := r.ks, content := none }

/-- The burst that a record opens on a seam. -/
def burstFor (side n : Nat) (fc : BitVec 48) (r : PlanRecord) (c : Concern) (s : State) : Burst :=
  { side := side, seam := n, fc := fc, ident := c.who, ranging := !c.isData, records := [grantOf c.index r],
    profile := r.profile, preamble := keepFld (profileEntry side r.profile 0) 9 0 s, first := r.start,
    eqd := if c.isData then eqdAt side fc s else 0, rei := (seam side n s).rei, missed := false, sent := false, leftAt := none }

/-- A burst with one more record. -/
def Burst.add (b : Burst) (k : Nat) (r : PlanRecord) : Burst := { b with records := b.records ++ [grantOf k r] }

/-- The block after a burst's last record. -/
def Burst.stop (b : Burst) : Nat := (b.records.getLast?.map (fun r => r.start + r.length)).getD b.first

/-- The total LENGTH of a burst. -/
def Burst.total (b : Burst) : Nat := (b.records.map (·.length)).sum

/-- Whether a profile is held (R125). -/
def profileHeld (side p : Nat) (s : State) : Bool := keepFld (profileEntry side p 0) 31 31 s == 1

/-- Whether a record stays in the frame (R125). -/
def PlanRecord.fits (r : PlanRecord) : Bool := decide (r.start + r.length ≤ 207400)

/-- Whether a record continues a burst (R126). -/
def continuesBurst (b : Burst) (i : Nat) (r : PlanRecord) : Bool :=
  !b.ranging && r.start == b.stop && b.ident == some i && r.profile == b.profile

/-- The total LENGTH of the burst `cur` with the records still to come that continue it (R125, R126): the valid ones of them;
another valid record ends it, an invalid one does not. -/
def burstTotal (s : State) : List (Option (BitVec 64)) → List Burst → Burst → Nat
  | [], _, cur => cur.total
  | none :: rest, placed, cur => burstTotal s rest placed cur
  | some w :: rest, placed, cur =>
    let r := planRecord w
    let c := concernOf r s
    let o := burstFor cur.side cur.seam cur.fc r c s
    let placed' := placed ++ [{ cur with missed := overlapKind cur placed s == 1 }]
    let opens : Bool := r.fits && profileHeld cur.side r.profile s && overlapKind o placed' s != 2
    match c with
    | .nobody => burstTotal s rest placed cur
    | .data i k =>
      if continuesBurst cur i r then
        (if r.fits ∧ 20 ≤ r.length ∧ overlapKind (cur.add k r) placed s ≠ 2 then burstTotal s rest placed (cur.add k r)
         else burstTotal s rest placed cur)
      else if opens && decide (40 ≤ r.length ∨ 40 ≤ burstTotal s rest placed' o) then cur.total
      else burstTotal s rest placed cur
    | _ => if opens && decide (40 ≤ r.length) then cur.total else burstTotal s rest placed cur

/-- A grant not transmitted. -/
def grantMissed (s : State) : State := count Reg.CNT_GRANT_MISSED s

/-- Add a burst, or replace the last one. -/
def putBursts (bs : List Burst) (s : State) : State := { s with join := { s.join with bursts := bs } }

/-- An unbonded allocation's home seam is that of its first grant (R162). -/
def noteHome (i k n : Nat) (s : State) : State :=
  modIdent i (fun x => if tget (fun _ => 0) x.homes k = 0 then { x with homes := tput (fun _ => 0) k (n + 1) x.homes } else x) s

/-- The random offset of an announce burst (R145). -/
def announceOffset (length : Nat) (s : State) : Nat :=
  Config.freeNat s.free % (min (rfld Reg.JOIN_CTRL 11 0 s) (length - 40) + 1)

/-- A record that opens a burst: placed, not valid (R125), or missed (R148). Answers whether it is valid. -/
def openBurst (side n : Nat) (fc : BitVec 48) (r : PlanRecord) (c : Concern) (rest : List (Option (BitVec 64)))
    (s : State) : Bool × State :=
  let b := burstFor side n fc r c s
  let total := if c.isData ∧ r.length < 40 then burstTotal s rest s.join.bursts b else r.length
  let b := if c = .announce then { b with first := r.start + announceOffset r.length s } else b
  let s := when' (c == .announce) nextFree s
  if !r.fits ∨ total < 40 ∨ !profileHeld side r.profile s then (false, count Reg.CNT_PLAN_BAD s)
  else
    let place := fun (s : State) => match c with
      | .data i k => noteHome i k n s
      | _ => s
    match overlapKind b s.join.bursts s with
    | 0 => (true, s |> place |> putBursts (s.join.bursts ++ [b]))
    | 1 => (true, s |> place |> putBursts (s.join.bursts ++ [{ b with missed := true }]) |> grantMissed)
    | _ => (false, count Reg.CNT_PLAN_BAD s)

/-- A record that continues the last burst placed; one that makes it overlap through an EqD decrease has all of it missed
(R148). -/
def continueBurst (n : Nat) (r : PlanRecord) (i k : Nat) (s : State) : Bool × State :=
  match s.join.bursts.getLast? with
  | none => (false, s)
  | some b =>
    let before := s.join.bursts.dropLast
    let b' := b.add k r
    if !r.fits ∨ r.length < 20 then (false, count Reg.CNT_PLAN_BAD s)
    else if b.missed then (true, s |> noteHome i k n |> putBursts (before ++ [b']) |> grantMissed)
    else match overlapKind b' before s with
      | 0 => (true, s |> noteHome i k n |> putBursts (before ++ [b']))
      | 1 => (true, s |> noteHome i k n |> putBursts (before ++ [{ b' with missed := true }])
          |> each b'.records (fun _ s => grantMissed s))
      | _ => (false, count Reg.CNT_PLAN_BAD s)

/-- What the previous valid record of the plan left: where it ends, its identity and profile (none where nothing may
continue it). -/
structure PlanLast where
  stop : Nat
  who : Nat
  profile : Nat

/-- The records of a plan in order (R124 to R126), as many as SHIFT still applies in the tick. -/
def applyRecords (side n : Nat) (fc : BitVec 48) : List (Option (BitVec 64)) → Option PlanLast → State → State
  | [], _, s => s
  | none :: rest, last, s => applyRecords side n fc rest last s
  | some w :: rest, last, s =>
    let r := planRecord w
    let c := concernOf r s
    if c = .nobody then applyRecords side n fc rest last s
    else if s.join.shiftLeft = some 0 then applyRecords side n fc rest none (grantMissed s)
    else
      let s := { s with join := { s.join with shiftLeft := s.join.shiftLeft.map (· - 1) } }
      match c with
      | .data i k =>
        let cont : Bool := match last with
          | some l => r.start == l.stop && i == l.who && r.profile == l.profile
          | none => false
        let (ok, s) := if cont then continueBurst n r i k s else openBurst side n fc r c rest s
        applyRecords side n fc rest (if ok then some ⟨r.start + r.length, i, r.profile⟩ else last) s
      | _ =>
        let (ok, s) := openBurst side n fc r c rest s
        applyRecords side n fc rest (if ok then none else last) s

/-- The records of a plan that concern the terminal. -/
def concernCount (plan : List (Option (BitVec 64))) (s : State) : Nat :=
  (plan.filter (fun w => match w with | some w => concernOf (planRecord w) s != .nobody | none => false)).length

/-- The KS of a record whose grant carries nothing of the identity's queue still switches its upstream epoch (R151): one that is
missed, or a ranging window. -/
def ksSwitch (i : Nat) (r : GrantRecord) (s : State) : State :=
  match (if r.ks && r.content.isNone then (keyDir i true s).pend else none) with
  | some k => if k.key.isSome then adoptPending i true false s else count Reg.CNT_KEY_NOT_READY s
  | none => s

/-- What the KS of a burst's records switches. -/
def ksSwitches (b : Burst) (s : State) : State :=
  match b.ident with
  | some i => each b.records (ksSwitch i) s
  | none => s

/-- SHIFT_APPLY for one seam (R121): a skewed frame's grants are missed; a burst is kept for ten frames (R122), and where its
time never came the KS of its records applies at the end of them. -/
def shiftApply (side n : Nat) (s : State) : State :=
  let x := seam side n s
  match x.planFc with
  | none => s
  | some fc =>
    let s := setSeam side n { x with plan := [], planFc := none } s
    if x.skewed then countN Reg.CNT_GRANT_MISSED (concernCount x.plan s) s
    else
      let old := fun (b : Burst) => b.side == side && b.seam == n && decide (10 ≤ (fc - b.fc).toNat)
      s |> settleEqd side (fc - 10)
        |> each (s.join.bursts.filter (fun b => old b && !b.sent)) ksSwitches
        |> putBursts (s.join.bursts.filter (fun b => !old b))
        |> applyRecords side n fc x.plan none

/-- SHIFT_APPLY at a tick edge, for every seam of the active side (R121). -/
def shiftApplyAll (done : Option Nat) (s : State) : State :=
  each (List.range 4) (fun n s => shiftApply (activeSide s) n s) { s with join := { s.join with shiftLeft := done } }

/-- Whether a grant of an allocation is still to come in an upstream frame. -/
def hasGrant (s : State) (fc : BitVec 48) (i k : Nat) : Bool :=
  s.join.bursts.any (fun b => b.fc == fc && b.ident == some i && !b.missed && !b.sent && !b.ranging
    && b.records.any (fun r => r.k == k))

/-! ### Building a burst (R129 to R135) -/

/-- The codewords of a record, in symbols (R129). -/
def recordWords (length : Nat) : List Nat :=
  let l := length / 5 * 5
  let r := l % 170
  List.replicate (l / 170) 544 ++ (if 20 ≤ r then [16 * (r / 5)] else [])

/-- The message bits of a record. -/
def recordBits (length : Nat) : Nat := ((recordWords length).map (fun n => (n - 30) * 10)).sum

/-- The smallest exponent from 1 on that brings a backlog to 4,095 or below. -/
def qrepExp (b : Nat) : Nat → Nat → Nat
  | 0, e => e
  | n + 1, e => if (b + 2 ^ e - 1) / 2 ^ e ≤ 4095 then e else qrepExp b n (e + 1)

/-- A queue report (R133) of a backlog in blocks. -/
def qrepCode (b : Nat) : Nat :=
  if 4093 * 2 ^ 15 < b then 0xFFFE
  else if b ≤ 4095 then b
  else
    let e := qrepExp b 14 1
    e * 4096 + (b + 2 ^ e - 1) / 2 ^ e

/-- The backlog an allocation reports, in blocks (R133, R172). -/
def reportBlocks (i k : Nat) (s : State) : Nat :=
  if isCircuitAlloc i k s then (containerBytes i k s + 3) / 4
  else (backlog (8 * i + k) s + 8 * allocFrames (8 * i + k) s + 3) / 4

/-- The queue report of a record. -/
def qrepOf (i : Nat) (r : GrantRecord) (s : State) : Nat := qrepCode (reportBlocks i r.k s)

/-- A fragment header (R134). -/
def fragHeader (tn kind : Nat) (first last : Bool) (len bseq : Nat) : Bytes :=
  let b := beBytes 2 (tn * 16 + kind) ++ beBytes 2 (b2n first * 2 ^ 15 + b2n last * 2 ^ 14 + len) ++ beBytes 3 bseq
  b ++ [BitVec.ofNat 8 (crc8 b)]

/-- Idle fragments that fill `room` bytes, and zero bytes where no header fits (R130); the payload of an idle fragment is
open. -/
def idleFill : Nat → Nat → State → Bytes × State
  | 0, room, s => (zeros room, s)
  | n + 1, room, s =>
    if room < 8 then (zeros room, s)
    else
      let len := min 16383 (room - 8)
      let b := fragHeader 0xFFF 0xF false false len 0 ++ freeBytes len s
      let (rest, s) := idleFill n (room - 8 - len) (nextFree s)
      (b ++ rest, s)

/-- DOZE_ACK of a burst (R132, R153, R156). -/
def dozeAck (i : Nat) (fc : BitVec 48) (s : State) : Nat :=
  let x := ident i s
  if x.waking then 2
  else match dozeIn fc x with
    | some d => (match dozePos d fc with
      | some p => if p + 1 = d.aware then 1 else 0
      | none => 0)
    | none => 0

/-- The burst header (R132). -/
def burstHeader (tn side : Nat) (rei : Word) (ack qrep : Nat) (s : State) : Bytes :=
  let rdi := ((List.range 4).map (fun n => b2n (rdiBit side n s) * 2 ^ n)).sum
  beBytes 8 (tn * 2 ^ 52 + rdi * 2 ^ 48 + fld rei 14 0 * 2 ^ 33 + fld rei 30 16 * 2 ^ 18 + ack * 2 ^ 16 + qrep)

/-- The messages of an identity that may leave in a grant (R122): an ACK waits until 250 µs after its frame's sync word. -/
def mayLeave (fc : BitVec 48) (eqd start : Nat) (m : UpMessage) : Bool :=
  match m.after with
  | none => true
  | some u => decide (2 * 6636800 < signed 48 (fc - u).toNat * 6636800 + 1061888 + eqd + 32 * start)

/-- Send the identity's messages while they fit (R139). -/
def sendMsgs (i : Nat) (fc : BitVec 48) (eqd start : Nat) : Nat → Nat → State → Bytes × State
  | 0, _, s => ([], s)
  | n + 1, room, s =>
    let x := ident i s
    match (if room < 56 then none else x.msgs.find? (mayLeave fc eqd start)) with
    | none => ([], s)
    | some m =>
      let tn := (x.tn.getD 0).toNat
      let b := fragHeader tn 1 true true 48 0 ++ lmmBytes tn m.type x.seqTx m.body
      let s := setIdent i { x with msgs := x.msgs.erase m, seqTx := (x.seqTx + 1) % 256 } s
      let (rest, s) := sendMsgs i fc eqd start n (room - 56) s
      (b ++ rest, s)

/-! ### Data (R298, R302) -/

/-- Whether an identity's upstream is bonded (R161). -/
def bondedUp (i : Nat) (s : State) : Bool :=
  decide (1 < ((List.range 4).filter (fun n => rbit (Reg.JOIN_ID_CFG i) (4 + n) s)).length)

/-- Whether an allocation is served on a seam (R161, R162). -/
def servedOn (i k n : Nat) (s : State) : Bool :=
  if bondedUp i s then rbit (Reg.JOIN_ID_CFG i) (4 + n) s else tget (fun _ => 0) (ident i s).homes k == n + 1

/-- The next frame of an allocation queue in the order of R298: the frame, whether it is weighted, whether a tally frame,
and the queue without it; the flag says that the cap held a weighted sub-queue. -/
def nextFrame (a : Nat) (s : State) : Option (QFrame × Bool × Bool × AllocQueue) × Bool :=
  let x := allocQ a s
  match laneHead x.tally with
  | some (f, fs) => (some (f, false, true, { x with tally := fs }), false)
  | none =>
    let ready := fun (q : Nat) => match subQ x q with
      | f :: _ => f.dram.isNone
      | [] => false
    let held := fun (q : Nat) => !promised a q s && !capLeft (allocCap a s) x.wSent
    let qs := [7, 6, 5, 4, 3, 2, 1, 0].filter ready
    let hold := qs.any held
    match qs.find? (fun q => !held q) with
    | none => (none, hold)
    | some q =>
      (match subQ x q with
        | f :: fs => some (f, !promised a q s, false, putSubQ x q fs)
        | [] => none,
       (qs.takeWhile (· != q)).any held)

/-- Send one fragment of the continuation with at most `room` bytes; its bytes count for the cap, or for the strict ranks of
the next tick's forecast (R300, R302). -/
def sendPiece (i a room : Nat) (c : Continuation) (s : State) : Bytes × State :=
  let len := min (min c.rest.length (room - 8)) 16383
  let x := ident i s
  let bonded := bondedUp i s
  let h := fragHeader (x.tn.getD 0).toNat (if bonded then 2 else 0) (c.rest.length == c.total) (len == c.rest.length) len
    (if bonded then x.bseqTx else 0)
  let s := when' bonded (setIdent i { x with bseqTx := (x.bseqTx + 1) % 2 ^ 24 }) s
  let q := allocQ a s
  let rest := c.rest.drop len
  (h ++ c.rest.take len,
   s |> setAllocQ a { q with cont := if rest = [] then none else some { c with rest := rest },
                             wSent := q.wSent + (if c.weighted then len else 0) }
     |> when' (!c.weighted) (noteStrict (len * rfld (Reg.PWR_EPB 1) 15 0 s)))

/-- Fragments from an allocation queue while at least 9 bytes remain (R298); answers whether the cap held a frame. -/
def sendData (i a : Nat) : Nat → Nat → State → Bytes × Bool × State
  | 0, _, s => ([], false, s)
  | n + 1, room, s =>
    if room < 9 then ([], false, s)
    else match (allocQ a s).cont with
      | some c =>
        let (b, s) := sendPiece i a room c s
        let (rest, held, s) := sendData i a n (room - b.length) s
        (b ++ rest, held, s)
      | none =>
        match nextFrame a s with
        | (none, held) => ([], held, s)
        | (some (f, weighted, tally, q), held) =>
          match protectFrame i f.bytes s with
          | (none, s) => ([], held, s)
          | (some p, s) =>
            let s := s |> setAllocQ a { q with cont := some { rest := p, total := p.length, weighted := weighted } }
              |> freeFrame (if tally then 8 else 5) f
            let c : Continuation := { rest := p, total := p.length, weighted := weighted }
            let (b, s) := sendPiece i a room c s
            let (rest, held', s) := sendData i a n (room - b.length) s
            (b ++ rest, held || held', s)

/-- A KS of 1 switches the upstream epoch where its key is derived (R151); answers whether protected frames may leave. -/
def keySwitch (i : Nat) (ks : Bool) (s : State) : Bool × State :=
  let d := keyDir i true s
  match (if ks then d.pend else none) with
  | some k =>
    if k.key.isSome then (true, adoptPending i true false s) else (false, count Reg.CNT_KEY_NOT_READY s)
  | none => if d.cur.key.isSome then (true, s) else (false, count Reg.CNT_KEY_NOT_READY s)

/-- Item 3 of R130 for a record: containers of a circuit allocation, or fragments of its queue; in a dip episode only
containers (R66). -/
def serveRecord (i : Nat) (b : Burst) (r : GrantRecord) (room : Nat) (s : State) : Bytes × State :=
  let a := 8 * i + r.k
  let (keyOk, s) := keySwitch i r.ks s
  if allocIdOf i r.k s ≠ r.allocId ∨ !hasAlloc i r.k s then ([], s)
  else if !servedOn i r.k b.seam s then ([], when' (!bondedUp i s) (count Reg.CNT_GRANT_OFFSEAM) s)
  else
    let (msgs, s) := if r.k = 0 ∧ !loadShed s then sendMsgs i b.fc b.eqd r.start 64 room s else ([], s)
    let room := room - msgs.length
    if isCircuitAlloc i r.k s ∨ waitsFor i r.k b.fc s then
      let (cs, s) := takeContainers i r.k b.fc s.circuits room s
      (msgs ++ cs, s)
    else if keyOk ∧ !loadShed s then
      let (d, held, s) := sendData i a room room s
      (msgs ++ d, when' held (count (Reg.CNT_AQ_CAP_HOLD a)) s)
    else (msgs, s)

/-! ### The order of an identity's grants (R151, R161) -/

/-- When the first bit of downstream frame `fc` was or will be at a seam's framer, in units of 2^-16 ns. -/
def syncAt (side n : Nat) (fc : BitVec 48) (s : State) : Int :=
  match (seam side n s).stamps with
  | (f, t) :: _ => t + signed 48 (fc - f).toNat * 125000 * 65536
  | [] => signed 48 fc.toNat * 125000 * 65536

/-- When a record's first block leaves, in units of 10^-4 * 2^-16 upstream bit, 20 µs and its seam's lane apart (R119). -/
def recordTime (b : Burst) (r : GrantRecord) (s : State) : Int :=
  syncAt b.side b.seam b.fc s * 530944 + (b.eqd + 32 * r.start) * 10000 * 65536

/-- Whether the burst header stands in a record: in the first that has message bits (R130; DESIGN CHOICE where that is not the
first record, log entry 42). -/
def hasHeader (b : Burst) (r : GrantRecord) : Bool :=
  (b.records.find? (fun q => recordBits q.length != 0)).map (·.start) == some r.start

/-- Whether a queue report stands in a record: a continuing one with QR (R130). -/
def hasReport (b : Burst) (r : GrantRecord) : Bool := r.qr && b.records.head?.map (·.start) != some r.start

/-- Message bytes of a record before item 3 of R130. -/
def headLen (b : Burst) (r : GrantRecord) : Nat := (if hasHeader b r then 8 else 0) + (if hasReport b r then 2 else 0)

/-- The bytes a record has for item 3 of R130. -/
def recordRoom (b : Burst) (r : GrantRecord) : Nat := recordBits r.length / 8 - headLen b r

/-- Whether a record of an identity is to be served in its turn before a later one: those of a bonded flow (R161), and those
with KS (R151). -/
def inTurn (i : Nat) (b : Burst) (r : GrantRecord) (s : State) : Bool :=
  b.side == activeSide s && b.ident == some i && !b.sent && !b.ranging && r.content.isNone && (r.ks || (bondedUp i s && !b.missed))

/-- The earlier of two records. -/
def earlierRecord (s : State) (x y : Burst × GrantRecord) : Burst × GrantRecord :=
  if recordTime y.1 y.2 s < recordTime x.1 x.2 s then y else x

/-- The record of an identity that is to be served next before time `t`. -/
def nextInTurn (i : Nat) (t : Int) (s : State) : Option (Burst × GrantRecord) :=
  match s.join.bursts.flatMap (fun b => (b.records.filter (fun r => inTurn i b r s && decide (recordTime b r s < t))).map
      (fun r => (b, r))) with
  | [] => none
  | x :: xs => some (xs.foldl (earlierRecord s) x)

/-- Keep what a record has been given until its burst leaves. -/
def keepContent (b : Burst) (r : GrantRecord) (c : Bytes) (s : State) : State :=
  putBursts (s.join.bursts.map (fun x => if x = b then
    { x with records := x.records.map (fun q => if q = r then { q with content := some c } else q) } else x)) s

/-- A record served in its turn; one whose grant is missed only switches the epoch. -/
def serveInTurn (i : Nat) (b : Burst) (r : GrantRecord) (s : State) : State :=
  if b.missed || lineTxDead b.side b.seam s then s |> ksSwitch i r |> keepContent b r []
  else
    let (c, s) := serveRecord i b r (recordRoom b r) s
    keepContent b r c s

/-- The records of an identity that are in turn before time `t`, on every seam, in the order in which their first blocks
leave. -/
def serveBefore (i : Nat) (t : Int) : Nat → State → State
  | 0, s => s
  | n + 1, s => match nextInTurn i t s with
    | none => s
    | some (b, r) => s |> serveInTurn i b r |> serveBefore i t n

/-- The number of records placed. -/
def recordCount (s : State) : Nat := (s.join.bursts.map (·.records.length)).sum

/-- Item 3 of R130 for a record, after the grants before it. -/
def recordContent (i : Nat) (b : Burst) (r : GrantRecord) (s : State) : Bytes × State :=
  match r.content with
  | some c => (c, s)
  | none => s |> serveBefore i (recordTime b r s) (recordCount s) |> serveRecord i b r (recordRoom b r)

/-! ### Bursts (R127 to R133) -/

/-- The message bits of one record: header or report (`head`), content, idle fill, and zero bits for an incomplete byte (R130);
a record without a codeword has none (R129). -/
def recordMessage (i : Nat) (b : Burst) (r : GrantRecord) (head : Bytes) (s : State) : List Bool × State :=
  let bits := recordBits r.length
  if bits = 0 then ([], s)
  else
    let room := recordRoom b r
    let (body, s) := recordContent i b r s
    let (idle, s) := idleFill (room + 1) (room - body.length) s
    (bitsOf (head ++ body ++ idle) ++ List.replicate (bits % 8) false, s)

/-- What stands before item 3 in each record of a burst, as it is when the burst header is formed (R130 to R133). -/
def burstHeads (i : Nat) (b : Burst) (s : State) : List Bytes :=
  let first := (b.records.head?.map (fun r => if r.qr then qrepOf i r s else 0xFFFF)).getD 0xFFFF
  b.records.map (fun r =>
    (if hasHeader b r then burstHeader ((ident i s).tn.getD 0).toNat b.side b.rei (dozeAck i b.fc s) first s else [])
      ++ (if hasReport b r then beBytes 2 (qrepOf i r s) else []))

/-- The messages of a burst's records, in order. -/
def burstMessage (i : Nat) (b : Burst) : List (GrantRecord × Bytes) → State → List Bool × State
  | [], s => ([], s)
  | (r, head) :: rs, s =>
    let (m, s) := recordMessage i b r head s
    let (ms, s) := burstMessage i b rs s
    (m ++ ms, s)

/-- The codewords of a record: the block each begins at and its symbols (R129). -/
def wordsAt (block : Nat) : List Nat → List (Nat × Nat)
  | [] => []
  | n :: ns => (block, n) :: wordsAt (block + n / 16 * 5) ns

/-- The codewords of a burst. -/
def burstWords (b : Burst) : List (Nat × Nat) := b.records.flatMap (fun r => wordsAt r.start (recordWords r.length))

/-- Message bits cut into codewords and coded (R84, R129). -/
def codeWords : List (Nat × Nat) → List Bool → List (Nat × List Nat)
  | [], _ => []
  | (p, n) :: ns, bits =>
    (p, rsEncode (symbolsOf (n - 30) (bits.take ((n - 30) * 10)))) :: codeWords ns (bits.drop ((n - 30) * 10))

/-- The stretches of a burst that leave without a gap, as bits, each with the block it begins at (R127, R129): the codewords, the
first of them after what has been sent so far. -/
def stretches : Int × List Bool → List (Nat × List Nat) → List (Int × List Bool)
  | cur, [] => [cur]
  | cur, (p, w) :: ws =>
    if cur.1 + cur.2.length / 32 = p then stretches (cur.1, cur.2 ++ symbolBits w) ws
    else cur :: stretches ((p : Int), symbolBits w) ws

/-- The preamble and the delimiter (R127). -/
def burstLead (preamble : Nat) (pattern : Word) (delimiter : BitVec 64) : List Bool :=
  bitsOf ((List.replicate preamble (beBytes 4 pattern.toNat)).flatten ++ beBytes 8 delimiter.toNat)

/-- A burst has left at this cycle. -/
def markLeft (b : Burst) (s : State) : State :=
  putBursts (s.join.bursts.map (fun x => if x.side = b.side ∧ x.seam = b.seam ∧ x.fc = b.fc ∧ x.first = b.first
    then { x with leftAt := some s.cycle } else x)) s

/-- Send a burst whose message and codewords are given (R73, R86, R119, R127, R128). -/
def sendBurst (b : Burst) (words : List (Nat × Nat)) (message : List Bool) (s : State) : State :=
  let pattern := keepValue (profileEntry b.side b.profile 1) s
  let delimiter := BitVec.ofNat 64 ((keepValue (profileEntry b.side b.profile 2) s).toNat * 2 ^ 32
    + (keepValue (profileEntry b.side b.profile 3) s).toNat)
  let ws := codeWords words (scrambleFrom (upSeed b.fc b.seam) message)
  emit (.burst {
    side := b.side, seam := b.seam, fc := b.fc, block := b.first, eqd := b.eqd,
    lead := rfld (Reg.JOIN_BE b.side) 15 8 s, lag := rfld (Reg.JOIN_BE b.side) 7 0 s, preamble := b.preamble,
    pattern := pattern, delimiter := delimiter, words := ws,
    levels := (stretches ((b.first : Int) - (b.preamble + 2), burstLead b.preamble pattern delimiter) ws).map
      (fun e => (e.1, pam4Levels e.2)) }) (markLeft b s)

/-- The earlier of two bursts of a seam. -/
def earlier (s : State) (a b : Burst) : Burst := if (burstSpan a.fc b b.eqd s).1 < (burstSpan a.fc a a.eqd s).1 then b else a

/-- The burst of a kind that leaves next on a seam of the active side. -/
def nextBurst (n : Nat) (kind : Burst → Bool) (s : State) : Option Burst :=
  match s.join.bursts.filter (fun b => b.side == activeSide s && b.seam == n && !b.missed && !b.sent && kind b) with
  | [] => none
  | b :: bs => some (bs.foldl (earlier s) b)

/-- A burst's time has come: it is kept among those placed (R122). -/
def markSent (b : Burst) (s : State) : State :=
  putBursts (s.join.bursts.map (fun x => if x = b then { x with sent := true } else x)) s

/-- UPSTREAM_BURST (R127): nothing leaves for an identity that is not in Serving, nor on a transmit lane that is retired
or shorted, whose grants are missed (R148, R379, R382). -/
def upstreamBurst (n : Nat) (s : State) : State :=
  match nextBurst n (fun b => !b.ranging) s with
  | none => s
  | some b =>
    let s := markSent b s
    match b.ident with
    | none => s
    | some i =>
      if (ident i s).phase ≠ .serving then ksSwitches b s
      else if lineTxDead b.side n s then s |> ksSwitches b |> each b.records (fun _ s => grantMissed s)
      else
        let (m, s) := burstMessage i b (b.records.zip (burstHeads i b s)) s
        s |> sendBurst b (burstWords b) m |> modIdent i (fun x => { x with waking := false })

/-- A burst of two 20-block codewords, 85 message bytes, with one message as its sole fragment besides idle (R130, R139). -/
def sendLone (b : Burst) (head frag : Bytes) (s : State) : State :=
  let m := head ++ frag
  let (idle, s) := idleFill 86 (85 - m.length) s
  sendBurst b (wordsAt b.first [64, 64]) (bitsOf (m ++ idle)) s

/-- A backoff drawn uniformly from 0 to ANN_BACKOFF (R145): free. -/
def drawBackoff (i : Nat) (s : State) : State :=
  s |> modIdent i (fun x => { x with backoff := Config.freeNat s.free % (rfld Reg.JOIN_CTRL 15 12 s + 1) }) |> nextFree

/-- The identities take part in an announce window (R145): those whose backoff is zero are named, the others skip it. -/
def takePart (fc : Nat) (s : State) : List Nat × State :=
  let s := each allIdents (fun i s =>
    if (ident i s).phase = .listening ∧ mayAnnounce i s then changeState i .announcing .head fc s else s) s
  let named := allIdents.filter (fun i => (ident i s).phase == .announcing && (ident i s).backoff == 0)
  (named, each (allIdents.filter (fun i => !named.contains i)) (fun i s => modIdent i (fun x => { x with backoff := x.backoff - 1 }) s) s)

/-- ANNOUNCE (R145); in a dip episode the burst carries idle only (R66). -/
def announce (n : Nat) (s : State) : State :=
  match nextBurst n (fun b => b.ranging && b.ident.isNone) s with
  | none => s
  | some b =>
    if lineTxDead b.side n s then markSent b s
    else
    let (named, s) := takePart b.fc.toNat (markSent b s)
    if named = [] then s
    else if loadShed s then sendLone b (burstHeader 0xFFF b.side b.rei 0 0xFFFF s) [] s
    else
      let map := (named.map (fun i => 2 ^ i)).sum
      let msg := lmmBytes 0xFFF 0x81 s.join.announceSeq (beBytes 8 (idSerial 0) ++ beBytes 16 map)
      { s with join := { s.join with announceSeq := (s.join.announceSeq + 1) % 256 } }
        |> sendLone b (burstHeader 0xFFF b.side b.rei 0 0xFFFF s) (fragHeader 0xFFF 1 true true 48 0 ++ msg)
        |> each named drawBackoff

/-- The answer of an identity in a directed ranging window (R144): TYPE and body. -/
def rangingAnswer (i : Nat) (s : State) : Option (Nat × Bytes) :=
  let x := ident i s
  if x.phase = .ranging ∨ x.phase = .serving ∨ (x.phase = .held ∧ x.cause = .head) then some (0x82, beBytes 8 (idSerial i))
  else if x.phase = .held ∧ x.timer.isSome then
    let side := activeSide s
    some (0x86, beBytes 8 (idSerial i) ++ beBytes 4 (keepValue (epochEntry side i 0) s).toNat
      ++ beBytes 4 (keepValue (epochEntry side i 1) s).toNat ++ beBytes 4 ((eqdWord side s).toNat % 2 ^ 26))
  else none

/-- RANGING_REPLY (R144, R146); in a dip episode the burst carries idle only (R66). -/
def rangingReply (n : Nat) (s : State) : State :=
  match nextBurst n (fun b => b.ranging && b.ident.isSome) s with
  | none => s
  | some b =>
    let s := markSent b s
    match b.ident with
    | none => s
    | some i =>
      let s := ksSwitches b s
      if lineTxDead b.side n s then grantMissed s
      else match rangingAnswer i s with
      | none => s
      | some (type, body) =>
        let x := ident i s
        let tn := (x.tn.getD 0).toNat
        let qrep := match b.records with
          | r :: _ => if r.qr then qrepOf i r s else 0xFFFF
          | [] => 0xFFFF
        let head := burstHeader tn b.side b.rei (dozeAck i b.fc s) qrep s
        if loadShed s then sendLone b head [] s
        else s |> sendLone b head (fragHeader tn 1 true true 48 0 ++ lmmBytes tn type x.seqTx body)
          |> modIdent i (fun x => { x with seqTx := (x.seqTx + 1) % 256, waking := false })

end Sys2Proof.Machine
end

