-- ==== Sys2Proof/Machine/Bridge.lean ====
section
/-! DEFINITION. Rules, the forwarding database, VLANs, the bridge and the exception path (R241 to R268). -/
namespace Sys2Proof.Machine

/-- Change the classification tables. -/
def modCls (f : ClsState → ClsState) (s : State) : State := { s with cls := f s.cls }

/-! ### Rules (R241 to R245) -/

/-- A rule never written. -/
def ruleDefault (_ : Nat) : Rule := { key := 0, mask := 0, action := 0 }

/-- Rule `r` of pipeline `n`. -/
def ruleAt (n r : Nat) (s : State) : Rule := tget ruleDefault s.cls.rules (16384 * n + r)

/-- Write a rule. -/
def setRule (n r : Nat) (x : Rule) (s : State) : State := modCls (fun c => { c with rules := tput ruleDefault (16384 * n + r) x c.rules }) s

/-- Whether an action word is refused (R244). -/
def actionRefused (a : Word) : Bool := fld a 17 16 == 3 || fld a 9 8 == 3

/-- Whether a rule matches a key (R241). -/
def ruleMatches (x : Rule) (key : BitVec 640) : Bool := bitOf x.action 31 && (key &&& x.mask) == (x.key &&& x.mask)

/-- The lowest rule of a pipeline that matches. -/
def findRule (n : Nat) (key : BitVec 640) (s : State) : Option (Nat × Rule) :=
  (s.cls.rules.find? (fun e => e.1 / 16384 == n && ruleMatches e.2 key)).map (fun e => (e.1 % 16384, e.2))

/-- RULE_WRITE (R244, R245). -/
def ruleWrite (n : Nat) (v : Word) (s : State) : State :=
  let r := fld v 13 0
  let data := fun (i : Nat) => regBytes (fun w => Reg.CLS_RULE_DATA n (i + w)) 20 s
  let x : Rule := { key := BitVec.ofNat 640 (beNat (data 0)), mask := BitVec.ofNat 640 (beNat (data 20)), action := reg (Reg.CLS_RULE_DATA n 40) s }
  if actionRefused x.action then setReg (Reg.CLS_RULE_CMD n) (word (at' 30 1 + r)) s
  else s |> setReg (Reg.CLS_RULE_CMD n) (word r) |> setRule n r { x with action := x.action &&& 0x8003FFF0 }

/-- RULE_READ. -/
def ruleRead (n : Nat) (v : Word) (s : State) : State :=
  let r := fld v 13 0
  let x := ruleAt n r s
  let b := beBytes 80 x.key.toNat ++ beBytes 80 x.mask.toNat ++ beBytes 4 x.action.toNat
  s |> each (List.range 41) (fun w => setReg (Reg.CLS_RULE_DATA n w) (word (beAt b (4 * w) 4)))
    |> setReg (Reg.CLS_RULE_CMD n) (word (at' 30 (b2n (rbit (Reg.CLS_RULE_CMD n) 30 s)) + r))

/-! ### The forwarding database (R256 to R263) -/

/-- The set of an address in a VLAN (R258). -/
def fdbSet (vid mac : Nat) : Nat := (crc32c (beBytes 2 vid ++ beBytes 6 mac)).toNat % 65536

/-- The content of a way. -/
def fdbWay (k : Nat) (s : State) : Option FdbEntry := tget (fun _ => none) s.cls.fdb k

/-- Write a way. -/
def setWay (k : Nat) (x : Option FdbEntry) (s : State) : State := modCls (fun c => { c with fdb := tput (fun _ => none) k x c.fdb }) s

/-- The ways of a set. -/
def fdbWays (set : Nat) : List Nat := [4 * set, 4 * set + 1, 4 * set + 2, 4 * set + 3]

/-- Whether an entry is for an address in a VLAN. -/
def FdbEntry.isFor (x : FdbEntry) (vid mac : Nat) : Bool := x.vid.toNat == vid && x.mac.toNat == mac

/-- The way that holds an address. -/
def fdbFind (vid mac : Nat) (s : State) : Option (Nat × FdbEntry) :=
  (fdbWays (fdbSet vid mac)).findSome? (fun k => match fdbWay k s with
    | some x => if x.isFor vid mac then some (k, x) else none
    | none => none)

/-- The first free way of an address's set. -/
def fdbFree (vid mac : Nat) (s : State) : Option Nat := (fdbWays (fdbSet vid mac)).find? (fun k => (fdbWay k s).isNone)

/-- What this cycle has done to the entry of an address: written by a command (true), inserted by a learn (false) (R262). -/
def fdbTouch (vid mac : Nat) (s : State) : Option Bool :=
  if s.cls.fdbCycle = s.cycle then (s.cls.fdbTouched.find? (fun e => e.1 == vid && e.2.1 == mac)).map (fun e => e.2.2) else none

/-- Note it. -/
def noteTouch (vid mac : Nat) (byCommand : Bool) (s : State) : State :=
  modCls (fun c => { c with fdbTouched := (vid, mac, byCommand) :: (if c.fdbCycle = s.cycle then c.fdbTouched else []),
                            fdbCycle := s.cycle }) s

/-- Insert an entry: over one that is present, or in the first free way; answers whether there was room. -/
def fdbPut (x : FdbEntry) (s : State) : Bool × State :=
  match fdbFind x.vid.toNat x.mac.toNat s with
  | some (k, _) => (true, setWay k (some x) s)
  | none => match fdbFree x.vid.toNat x.mac.toNat s with
    | some k => (true, setWay k (some x) s)
    | none => (false, s)

/-- CLS_FDB_COUNT. -/
def fdbCount (s : State) : Nat := s.cls.fdb.length

/-- The bytes of CLS_FDB_DATA. -/
def fdbData (s : State) : Bytes := regBytes Reg.CLS_FDB_DATA 3 s

/-- The entry spelled by 16 bytes (R263). -/
def fdbEntryOf (b : Bytes) (static age : Bool) : FdbEntry :=
  { mac := BitVec.ofNat 48 (beAt b 0 6), vid := BitVec.ofNat 12 (beAt b 6 2), static := static, age := age,
    dest := BitVec.ofNat 10 (beAt b 8 2) }

/-- Whether a VID is refused. -/
def vidRefused (v : Nat) : Bool := v == 0 || v == 4095

/-- Report RESULT. -/
def fdbResult (r : Nat) (s : State) : State := setReg Reg.CLS_FDB_CMD (word (at' 28 r)) s

/-- FDB_INSERT_STATIC, FDB_INSERT_DYNAMIC (R262). -/
def fdbInsert (static : Bool) (s : State) : State :=
  let x := fdbEntryOf (fdbData s) static true
  if 0x27F < x.dest.toNat ∨ vidRefused x.vid.toNat then fdbResult 3 s
  else match fdbPut x (noteTouch x.vid.toNat x.mac.toNat true s) with
    | (true, s) => fdbResult 0 s
    | (false, s) => fdbResult 1 s

/-- FDB_DELETE. -/
def fdbDelete (s : State) : State :=
  let x := fdbEntryOf (fdbData s) false false
  if vidRefused x.vid.toNat then fdbResult 3 s
  else match fdbFind x.vid.toNat x.mac.toNat s with
    | some (k, _) => s |> noteTouch x.vid.toNat x.mac.toNat true |> setWay k none |> fdbResult 0
    | none => fdbResult 2 s

/-- Bytes 8 and 9 of an entry in use. -/
def FdbEntry.tail (x : FdbEntry) : Nat := 2 ^ 15 + b2n x.static * 2 ^ 14 + b2n x.age * 2 ^ 13 + x.dest.toNat

/-- FDB_LOOKUP. -/
def fdbLookup (s : State) : State :=
  let x := fdbEntryOf (fdbData s) false false
  if vidRefused x.vid.toNat then fdbResult 3 s
  else match fdbFind x.vid.toNat x.mac.toNat s with
    | some (_, y) => s |> setReg (Reg.CLS_FDB_DATA 2) (word (at' 16 y.tail)) |> fdbResult 0
    | none => fdbResult 2 s

/-- The dynamic entries of a destination. -/
def fdbOfDest (d : Nat) (s : State) : List FdbEntry :=
  s.cls.fdb.filterMap (fun e => e.2.bind (fun x => if !x.static && x.dest.toNat == d then some x else none))

/-- FDB_DELETE_BY_DEST. -/
def fdbDeleteByDest (s : State) : State :=
  let d := beAt (fdbData s) 8 2 % 1024
  if 0x27F < d then fdbResult 3 s
  else s |> each (fdbOfDest d s) (fun x => noteTouch x.vid.toNat x.mac.toNat true)
    |> modCls (fun c => { c with fdb := c.fdb.filter (fun e => match e.2 with
      | some x => x.static || x.dest.toNat != d
      | none => true) })
    |> fdbResult 0

/-- FDB_SWEEP (R261). -/
def fdbSweep (s : State) : State :=
  if rfld Reg.CLS_FDB_AGE 15 0 s = 0 then s
  else modCls (fun c => { c with fdb := c.fdb.filterMap (fun e => match e.2 with
    | some x => if x.static then some e else if x.age then some (e.1, some { x with age := false }) else none
    | none => none) }) s

/-- Learn a source address (R259); one of an entry that a command has written in the same cycle is dropped, and one of an address
that another learn has inserted in the same cycle is a refresh (R262). -/
def learn (src vid mac : Nat) (s : State) : State :=
  let x : FdbEntry := { mac := BitVec.ofNat 48 mac, vid := BitVec.ofNat 12 vid, static := false, age := true, dest := BitVec.ofNat 10 src }
  if fdbTouch vid mac s = some true then s
  else match fdbFind vid mac s with
  | none => (match fdbFree vid mac s with
    | some k => s |> setWay k (some x) |> noteTouch vid mac false
    | none => count Reg.CNT_FDB_FULL s)
  | some (k, y) =>
    if y.dest.toNat = src ∨ fdbTouch vid mac s = some false then setWay k (some { y with age := true }) s
    else if y.static then count Reg.CNT_FDB_MOVE_STATIC s
    else s |> setWay k (some x) |> count Reg.CNT_FDB_MOVE

/-! ### VLANs -/

/-- A VLAN entry never written. -/
def vlanDefault (_ : Nat) : VlanEntry := { members := 0, flags := 0 }

/-- A VLAN entry. -/
def vlan (v : Nat) (s : State) : VlanEntry := tget vlanDefault s.cls.vlans v

/-- Write a VLAN entry. -/
def setVlan (v : Nat) (x : VlanEntry) (s : State) : State := modCls (fun c => { c with vlans := tput vlanDefault v x c.vlans }) s

/-- VLAN_WRITE. -/
def vlanWrite (v : Word) (s : State) : State :=
  let vid := fld v 11 0
  if vidRefused vid then setReg Reg.CLS_VLAN_CMD (word (at' 30 1 + vid)) s
  else
    let m := ((List.range 16).map (fun w => (reg (Reg.CLS_VLAN_DATA w) s).toNat * 2 ^ (32 * w))).sum
    s |> setVlan vid { members := BitVec.ofNat 512 m, flags := reg Reg.CLS_VLAN_DATA_16 s &&& 0xE000007F }
      |> setReg Reg.CLS_VLAN_CMD (word vid)

/-- VLAN_READ. -/
def vlanRead (v : Word) (s : State) : State :=
  let vid := fld v 11 0
  if vidRefused vid then setReg Reg.CLS_VLAN_CMD (word (at' 30 1 + vid)) s
  else
    let x := vlan vid s
    s |> each (List.range 16) (fun w => setReg (Reg.CLS_VLAN_DATA w) (word (x.members.toNat / 2 ^ (32 * w))))
      |> setReg Reg.CLS_VLAN_DATA_16 x.flags |> setReg Reg.CLS_VLAN_CMD (word vid)

/-! ### The exception path (R264 to R268) -/

/-- The limiter's buckets as of now (R265, R266): not refilled while the weighted group gets less than its demand. -/
def settleExc (s : State) : State :=
  let dt := if 1024 ≤ s.sched.phi then s.cycle - s.cls.excCycle else 0
  modCls (fun c => { c with
    excFrames := min (rfld Reg.CLS_EXC_DEPTH 31 16 s * 10 ^ 9) (c.excFrames + dt * rfld Reg.CLS_EXC_RATE 31 16 s),
    excBytes := min (rfld Reg.CLS_EXC_DEPTH 15 0 s * 1024 * 8000) (c.excBytes + dt * rfld Reg.CLS_EXC_RATE 15 0 s),
    excCycle := s.cycle }) s

/-- What a record says of the frame's classification. -/
structure ExcInfo where
  cls : Nat
  colour : Nat
  queue : Nat
  rule : Nat

/-- The record of a frame (R264), with at most `snap` frame bytes. -/
def excBytesOf (reason pipe : Nat) (line : Bool) (src snap : Nat) (x : ExcInfo) (frame : Bytes) (s : State) : Bytes :=
  let b := frame.take snap
  [BitVec.ofNat 8 reason, BitVec.ofNat 8 (b2n line * 128 + pipe * 32)] ++ beBytes 2 src ++ beBytes 2 (frame.length + 4)
    ++ beBytes 2 b.length ++ [BitVec.ofNat 8 (x.cls * 16 + x.colour * 4), BitVec.ofNat 8 x.queue] ++ beBytes 2 x.rule
    ++ beBytes 4 s.tick.count.toNat ++ b

/-- A record of a pipeline offered to the limiter and the ring (R265). -/
def takeException (x : ExcOffer) (s : State) : State :=
  let r := x.bytes
  let s := settleExc s
  if s.cls.excFrames < 10 ^ 9 ∨ s.cls.excBytes < r.length * 8000 then count Reg.CNT_EXC_OVER s
  else
    let hs := (ringNeed 0 s (ringPosted 0 s) 0 r.length).1
    match ringPut 0 x.pipe r s with
    | (true, s) => modCls (fun c => { c with excFrames := c.excFrames - 10 ^ 9, excBytes := c.excBytes - r.length * 8000,
                                             excRing := c.excRing ++ [{ bytes := r, tubs := hs, stamp := x.stamp }] }) s
    | (false, s) => count Reg.CNT_EXC_RING_FULL s

/-- A record reaches the limiter, which takes those of one cycle in ascending pipeline order (R268). -/
def offerException (x : ExcOffer) (s : State) : State := modCls (fun c => { c with excWait := c.excWait ++ [x] }) s

/-- The records of the cycle that ends are taken, in ascending pipeline order, those of a pipeline in theirs (R268). -/
def settleExceptions (s : State) : State :=
  let rs := sortBy (fun a b => decide (a.pipe ≤ b.pipe)) s.cls.excWait
  each rs takeException (modCls (fun c => { c with excWait := [] }) s)

/-- CLS_EXC_CTRL.SNAP in bytes. -/
def excSnap (s : State) : Nat := rfld Reg.CLS_EXC_CTRL 15 8 s * 64

/-- The copy of a record that is forwarded: at most 256 frame bytes (R267). -/
def excCopy (r : Bytes) : Bytes :=
  if 272 < r.length then
    r.take 1 ++ [r.getD 1 0 ||| 0x10] ++ slice r 2 4 ++ beBytes 2 256 ++ slice r 8 264
  else r

/-! ### The bridge (R253 to R260) -/

/-- A frame with the classification that holds for every copy (R253): its pipeline and source, its forwarding VLAN. -/
structure BridgeFrame where
  bytes : Bytes
  pipe : Nat
  line : Bool
  src : Nat
  vid : Nat
  colour : Nat
  queue : Nat
  bad : Bool

/-- The source as a DEST. -/
def BridgeFrame.dest (f : BridgeFrame) : Nat := if f.line then 0x200 + f.src else f.src

/-- The configuration word of a source. -/
def sourceCfg (line : Bool) (src : Nat) (s : State) : Word := reg (if line then Reg.CLS_ID_CFG src else Reg.CLS_PORT_CFG src) s

/-- The copy for the line (R260); it wakes an identity that dozes (R156). -/
def copyToLine (i : Nat) (f : BridgeFrame) (s : State) : State :=
  let k := fld (reg (Reg.CLS_ID_KMAP i) s) (3 * f.queue + 2) (3 * f.queue)
  let s := if (dozeOf i s).isSome then s |> dozeWake i |> wakeFires 7 none else s
  if !carries i s ∨ !hasAlloc i k s then count Reg.CNT_BIND_MISS s
  else if isCircuitAlloc i k s then count Reg.CNT_ALLOC_FLUSH s
  else (admitAlloc (8 * i + k) f.queue f.colour f.pipe f.bytes s).2

/-- The copy for a local port. -/
def copyToPort (p : Nat) (f : BridgeFrame) (s : State) : State := (admitPort p f.queue f.colour f.pipe f.bytes f.line f.bad s).2

/-- CNT_BRIDGE_FILTER. -/
def bridgeFilter (s : State) : State := count Reg.CNT_BRIDGE_FILTER s

/-- The member ports of a VLAN. -/
def memberPorts (x : VlanEntry) : List Nat := (List.range 512).filter (fun p => x.members.getLsbD p)

/-- A flood (R256, R257). -/
def flood (f : BridgeFrame) (s : State) : State :=
  let x := vlan f.vid s
  let toLine := bitOf x.flags 30 && bitOf x.flags 29
  let ports := (memberPorts x).filter (fun p => f.line || p != f.src)
  let s := each ports (fun p s => copyToPort p f s) s
  if toLine && !f.line then copyToLine (fld x.flags 6 0) f s
  else if toLine || ports.isEmpty then bridgeFilter s
  else s

/-- Whether a frame may enter its VLAN (R255). -/
def vlanAdmits (f : BridgeFrame) (s : State) : Bool :=
  let x := vlan f.vid s
  f.vid != 4095 && bitOf x.flags 31 && (if f.line then bitOf x.flags 30 else x.members.getLsbD f.src)
    && bitOf (sourceCfg f.line f.src s) 30

/-- The destination found for a unicast frame. -/
def unicastDest (f : BridgeFrame) (s : State) : Option Nat :=
  let da := beAt f.bytes 0 6
  if isGroup da then none else (fdbFind f.vid da s).map (fun e => e.2.dest.toNat)

/-- Whether a frame takes the express path to port `p` (R357, R274). -/
def expressPath (p : Nat) (f : BridgeFrame) (s : State) : Bool :=
  !f.line && f.queue == 7 && p / 128 == f.src / 128 && (port p s).mode == (port f.src s).mode && (port p s).mode != 1
    && decide (maxFrame f.src s ≤ maxFrame p s) && fld (sourceCfg false f.src s) 17 7 == 0 && !(port p s).lpiTx && p != f.src
    && expressAllows p s

/-- The bridge (R254 to R260) for a frame that is stored and forwarded. -/
def bridge (f : BridgeFrame) (s : State) : State :=
  if !vlanAdmits f s then count Reg.CNT_BRIDGE_VLAN_DROP s
  else match unicastDest f s with
    | none => flood f s
    | some d =>
      if d = f.dest ∨ (f.line ∧ 0x200 ≤ d) then bridgeFilter s
      else if d < 0x200 then copyToPort d f s
      else copyToLine (d - 0x200) f s

/-- Cut through to port `p` (R239, R274): queued for the express queue and started at once; answers whether it was admitted. -/
def cutThrough (p : Nat) (f : BridgeFrame) (s : State) : Bool × State :=
  match admitPort p 7 f.colour f.pipe f.bytes false f.bad s with
  | (true, s) => (true, portFrameStart p s)
  | (false, s) => (false, s)

end Sys2Proof.Machine
end

