-- ==== Sys2Proof/Machine/Down.lean ====
section
/-! DEFINITION. A downstream frame in SYNC and its contents: plan, messages, circuit region, fragments, bonding
(R76, R81, R94 to R104, R121, R135 to R138, R159, R160). -/
namespace Sys2Proof.Machine

/-! ### Delivery -/

/-- Frames that wait at a pipeline. -/
def ingressOf (n : Nat) (s : State) : List InFrame := tget (fun _ => []) s.ingress n

/-- Hand a frame over to a pipeline. -/
def pushIngress (n : Nat) (f : InFrame) (s : State) : State :=
  { s with ingress := tput (fun _ => []) n (ingressOf n s ++ [f]) s.ingress }

/-- Hand a frame over to a pipeline in tubs of its ingress: of a known length for a frame of the line, as its bytes arrive for
one of a MAC (R311). Where the shared region gives none, the frame waits without, and its admission is judged under R279
(DESIGN CHOICE, log entry 17). -/
def storeIngress (n : Nat) (f : InFrame) (s : State) : State :=
  match storeData n f.bytes f.line s with
  | (some hs, s) => pushIngress n { f with tubs := hs } s
  | (none, s) => pushIngress n f s

/-- A downstream protected frame of identity `i` complete: accepted and handed over, or discarded (R136, R233, R234). -/
def deliverFrame (n i : Nat) (fc : BitVec 48) (p : Bytes) (s : State) : State :=
  match openFrame i fc p s with
  | (some f, s) =>
    if inDip s then dropAtIngress s
    else s |> storeIngress n { bytes := f, line := true, src := i, stamp := stampNow s, bad := false, tubs := [] }
           |> wakeDomain n
  | (none, s) => s

/-! ### Fragments (R134 to R138) -/

/-- What the delineation of a stream finds: a fragment, one whose payload is lost, one of a reserved KIND, the loss of
delineation. -/
inductive FragItem where
  | frag (tn kind : Nat) (first last : Bool) (bseq : Nat) (payload : Bytes)
  | damaged (tn kind : Nat)
  | reserved
  | lost
  deriving DecidableEq

/-- The eight bytes of a header, if none is lost. -/
def headBytes (r : List (Option Byte)) : Option Bytes :=
  let h := r.take 8
  if h.length = 8 ∧ h.all Option.isSome then some (h.map (fun b => b.getD 0)) else none

/-- A header that passes HEC. -/
def goodHeader (r : List (Option Byte)) : Option Bytes :=
  match headBytes r with
  | some b => if crc8 (b.take 7) = beAt b 7 1 then some b else none
  | none => none

/-- LEN of a header. -/
def fragLen (b : Bytes) : Nat := beAt b 2 2 % 2 ^ 14

/-- Whether a header found in a hunt is confirmed (R137): its LEN leads to a second header or to the stream's end. -/
def confirmed (r : List (Option Byte)) : Bool :=
  match goodHeader r with
  | some b =>
    r.length == 8 + fragLen b || (goodHeader (r.drop (8 + fragLen b))).isSome
  | none => false

/-- The stream from the next confirmed header on. -/
def hunt : List (Option Byte) → List (Option Byte)
  | [] => []
  | x :: r => if confirmed (x :: r) then x :: r else hunt r

/-- One fragment from its header. -/
def fragItem (b : Bytes) (payload : List (Option Byte)) : FragItem :=
  let tn := beAt b 0 2 / 16
  let kind := beAt b 1 1 % 16
  if kind ≠ 0 ∧ kind ≠ 2 ∧ kind ≠ 15 then .reserved
  else if payload.length < fragLen b ∨ !payload.all Option.isSome then .damaged tn kind
  else .frag tn kind (beAt b 2 1 / 128 == 1) (beAt b 2 1 / 64 % 2 == 1) (beAt b 4 3) (payload.map (fun b => b.getD 0))

/-- The fragments of a stream in order (R135, R137, R138). -/
def delineate : Nat → List (Option Byte) → List FragItem
  | 0, _ => []
  | n + 1, r =>
    if r.length < 8 then []
    else match goodHeader r with
      | some b => fragItem b ((r.drop 8).take (fragLen b)) :: delineate n (r.drop (8 + fragLen b))
      | none => .lost :: delineate n (hunt (r.drop 1))

/-! ### Bonding (R159, R160) -/

/-- How far a BSEQ lies beyond another, in the 24-bit space. -/
def bseqAhead (b e : Nat) : Nat := (b + 2 ^ 24 - e) % 2 ^ 24

/-- The held fragment with a BSEQ. -/
def heldFrag (x : Identity) (b : Nat) : Option BondFragment := x.frags.find? (fun f => f.bseq == b)

/-- The fragments held without a gap from a BSEQ on. -/
def bondRun (x : Identity) : Nat → Nat → List BondFragment
  | 0, _ => []
  | n + 1, b =>
    match heldFrag x b with
    | some f => f :: bondRun x n ((b + 1) % 2 ^ 24)
    | none => []

/-- Free held fragments. -/
def freeFrags (i : Nat) (fs : List BondFragment) (s : State) : State :=
  s |> each fs (fun f s => freeTubsOf 6 f.tubs s)
    |> modIdent i (fun x => { x with frags := x.frags.filter (fun f => !fs.contains f) })

/-- The first fragments of a run up to its first LAST. -/
def untilLast : List BondFragment → List BondFragment → Option (List BondFragment)
  | [], _ => none
  | f :: fs, acc => if f.last then some (acc ++ [f]) else untilLast fs (acc ++ [f])

/-- Fragments at the expected BSEQ that belong to a frame already voided are freed without a further count. -/
def bondSkip (i : Nat) : Nat → State → State
  | 0, s => s
  | n + 1, s =>
    let x := ident i s
    match (if x.bondCut then x.expected else none) with
    | none => s
    | some e => match heldFrag x e with
      | none => s
      | some f =>
        if f.first then setIdent i { x with bondCut := false } s
        else s |> freeFrags i [f] |> modIdent i (fun x => { x with expected := some ((e + 1) % 2 ^ 24), bondCut := !f.last })
          |> bondSkip i n

/-- Deliver the frames that are complete from the expected BSEQ on. -/
def bondDeliver (i : Nat) : Nat → State → State
  | 0, s => s
  | n + 1, s =>
    let s := bondSkip i (n + 1) s
    let x := ident i s
    match x.expected with
    | none => s
    | some e =>
      match untilLast (bondRun x (x.frags.length + 1) e) [] with
      | none => s
      | some fs =>
        let whole : Bool := fs.all (fun f => !f.void) && (match fs with | f :: _ => f.first | [] => false)
        let s := s |> freeFrags i fs |> modIdent i (fun x => { x with expected := some ((e + fs.length) % 2 ^ 24) })
        let s := if whole then
            deliverFrame ((fs.getLast?.map (·.seam)).getD 0) i ((fs.head?.map (·.fc)).getD 0) (fs.flatMap (·.bytes)) s
          else count Reg.CNT_BOND_VOID s
        bondDeliver i n s

/-- The frames among held fragments that are given up, as far as FIRST, LAST and the gaps tell them apart (R160): `e` is the BSEQ
that follows, `inside` says that it belongs to a frame already counted, `gaps` that one no fragment of which is held counts
too. Answers their number and whether the last of them may go on. -/
def cutFrames (gaps : Bool) : List BondFragment → Nat → Bool → Nat × Bool
  | [], _, inside => (0, inside)
  | f :: fs, e, inside =>
    let lost := decide (f.bseq ≠ e) && !inside
    let fresh := f.first || !(inside || lost)
    let (k, cut) := cutFrames gaps fs ((f.bseq + 1) % 2 ^ 24) (!f.last)
    (b2n (lost && (gaps || !f.first)) + b2n fresh + k, cut)

/-- The gap timer runs while a gap is open. -/
def bondTimer (i : Nat) (s : State) : State :=
  let x := ident i s
  match x.expected with
  | none => s
  | some e =>
    let gap := decide ((bondRun x (x.frags.length + 1) e).length < x.frags.length)
    if gap then (if x.gapSince.isNone then setIdent i { x with gapSince := some s.cycle } s else s)
    else setIdent i { x with gapSince := none } s

/-- Insert a fragment in BSEQ order from the expected one. -/
def bondInsert (e : Nat) (f : BondFragment) : List BondFragment → List BondFragment
  | [] => [f]
  | g :: gs => if bseqAhead f.bseq e < bseqAhead g.bseq e then f :: g :: gs else g :: bondInsert e f gs

/-- BOND_GAP_TIMER_EXPIRY (R160): what is held up to the next fragment with FIRST = 1 beyond the gap is voided, every frame
counted; where none is held, all of it is, and what is still to come of its last frame goes with it (log entry 17). -/
def bondGapExpiry (i : Nat) (s : State) : State :=
  let x := ident i s
  match x.expected, x.gapSince with
  | some e, some _ =>
    let run := bondRun x (x.frags.length + 1) e
    let beyond := x.frags.filter (fun f => !run.contains f)
    let gone := run ++ beyond.takeWhile (fun f => !f.first)
    let (k, cut) := cutFrames true gone e x.bondCut
    let last := (gone.getLast?.map (fun f => (f.bseq + 1) % 2 ^ 24)).getD e
    let (next, more, cut) := match beyond.dropWhile (fun f => !f.first) with
      | f :: _ => (f.bseq, b2n (decide (f.bseq ≠ last) && !cut), false)
      | [] => (last, 0, cut)
    s |> freeFrags i gone |> countN Reg.CNT_BOND_VOID (k + more)
      |> modIdent i (fun x => { x with expected := some next, gapSince := none, bondCut := cut })
      |> bondDeliver i (x.frags.length + 1) |> bondTimer i
  | _, _ => s

/-- Whether the gap timer of an identity has run its 250 µs. -/
def gapOver (i : Nat) (s : State) : Bool :=
  match (ident i s).gapSince with
  | some c => decide (c + 250000 ≤ s.cycle)
  | none => false

/-- BONDED_FRAGMENT (R159, R160): one that arrives in the cycle in which the gap timer ends comes after it. -/
def bondedFragment (n i : Nat) (fc : BitVec 48) (first last : Bool) (bseq : Nat) (payload : Bytes) (s : State) : State :=
  if !rbit (Reg.JOIN_ID_CFG i) 2 s then count Reg.CNT_BOND_LATE s
  else
    let s := when' (gapOver i s) (bondGapExpiry i) s
    let x := ident i s
    match (match x.expected with | some e => some e | none => if first then some bseq else none) with
    | none => s
    | some e =>
      if 2 ^ 23 ≤ bseqAhead bseq e ∨ (heldFrag x bseq).isSome then count Reg.CNT_BOND_LATE s
      else
        let (hs, s) := storeData 6 payload last s
        let f : BondFragment := { bseq := bseq, first := first, last := last, fc := fc, seam := n,
                                  bytes := if hs.isSome then payload else [], tubs := hs.getD [], void := hs.isNone }
        s |> modIdent i (fun x => { x with expected := some e, frags := bondInsert e f x.frags })
          |> bondDeliver i (x.frags.length + 2) |> bondTimer i

/-- Every frame of an identity of which something is held is voided and counted: a protection switch (R160). -/
def bondVoidAll (i : Nat) (s : State) : State :=
  let x := ident i s
  s |> countN Reg.CNT_BOND_VOID (cutFrames false x.frags (x.expected.getD 0) x.bondCut).1 |> dropFrags i

/-! ### Fragments delivered (R136, R137) -/

/-- An unbonded frame in progress ends without being delivered. -/
def dropPartial (side n tn : Nat) (s : State) : State :=
  s |> freePartials ((seam side n s).partials.filter (fun p => p.tn.toNat == tn))
    |> modSeam side n (fun x => { x with partials := x.partials.filter (fun p => p.tn.toNat != tn) })

/-- Keep a fragment with LAST 0 of a frame in progress: it takes a chain of tubs as its bytes arrive (R311). Where the shared
region gives none, its bytes wait without (DESIGN CHOICE, log entry 17). -/
def keepPartial (side n : Nat) (p : PartialFrame) (payload : Bytes) (s : State) : State :=
  let (hs, s) := storeData 5 payload false s
  let p := { p with tubs := p.tubs ++ hs.toList }
  modSeam side n (fun x => { x with partials := x.partials.filter (fun q => q.tn != p.tn) ++ [p] }) s

/-- A data fragment of an identity: its frame begins, continues or is complete. -/
def dataFragment (side n i tn : Nat) (fc : BitVec 48) (first last : Bool) (payload : Bytes) (s : State) : State :=
  let s := when' first (dropPartial side n tn) s
  let old := (seam side n s).partials.find? (fun p => p.tn.toNat == tn)
  let cur : Option PartialFrame := if first then some { tn := BitVec.ofNat 12 tn, fc := fc, bytes := payload, tubs := [] }
    else old.map (fun p => { p with bytes := p.bytes ++ payload })
  match cur with
  | none => s
  | some p => if last then s |> dropPartial side n tn |> deliverFrame n i p.fc p.bytes else keepPartial side n p payload s

/-- One item of a stream. -/
def takeItem (side n : Nat) (fc : BitVec 48) (x : FragItem) (s : State) : State :=
  match x with
  | .lost => s |> count Reg.CNT_FRAG_HEC_ERR |> freePartials (seam side n s).partials |> modSeam side n (fun x => { x with partials := [] })
  | .reserved => count Reg.CNT_FRAG_HEC_ERR s
  | .damaged tn kind => if kind = 0 then dropPartial side n tn s else s
  | .frag tn kind first last bseq payload =>
    if kind = 15 then s
    else match identOfTn tn s with
      | none => s
      | some i =>
        if !carries i s then s
        else if kind = 2 then bondedFragment n i fc first last bseq payload s
        else dataFragment side n i tn fc first last payload s

/-! ### The frame -/

/-- The message bits of a frame's codewords; none for the bits of an uncorrectable one (R75, R104). -/
def frameBits (ds : List (Option (List Nat × Nat))) : List (Option Bool) :=
  ds.flatMap (fun d => match d with
    | some (m, _) => (symbolBits m).map some
    | none => List.replicate 5140 none)

/-- Descramble message bits from a scrambler state on; lost bits advance it too (R81, R82). -/
def descramble : Nat → List (Option Bool) → List (Option Bool)
  | _, [] => []
  | s, d :: ds =>
    let o := (s / 2 ^ 57 % 2 == 1) != (s / 2 ^ 38 % 2 == 1)
    d.map (fun b => b != o) :: descramble ((2 * s + b2n o) % 2 ^ 58) ds

/-- Whole bytes; one with a lost bit is lost. -/
def packOpt : Nat → List (Option Bool) → List (Option Byte)
  | 0, _ => []
  | n + 1, bs =>
    let h := bs.take 8
    if h.length < 8 then []
    else (if h.all Option.isSome then some (BitVec.ofNat 8 (bitsNat (h.map (fun b => b.getD false)))) else none)
      :: packOpt n (bs.drop 8)

/-- The bytes of a frame after its header. -/
def frameBytes (ds : List (Option (List Nat × Nat))) (fc : BitVec 48) (n : Nat) : List (Option Byte) :=
  let bits := (frameBits ds).drop 192
  packOpt bits.length (descramble (downSeed fc n) bits)

/-- `k` pieces of `len` bytes; none for one with a lost or missing byte. -/
def pieces (len : Nat) : Nat → List (Option Byte) → List (Option Bytes)
  | 0, _ => []
  | k + 1, b =>
    let h := b.take len
    (if h.length = len ∧ h.all Option.isSome then some (h.map (fun x => x.getD 0)) else none) :: pieces len k (b.drop len)

/-- Queue a message, seams ascending within a frame (R141). -/
def insertLmm (m : LmmWaiting) : List LmmWaiting → List LmmWaiting
  | [] => [m]
  | x :: xs => if x.fc = m.fc ∧ m.seam < x.seam then m :: x :: xs else x :: insertLmm m xs

/-- The bytes of the frame body after the circuit region of R170. -/
def takeBody (side n : Nat) (fc : BitVec 48) (body : List (Option Byte)) (s : State) : State :=
  let region := rfld Reg.CIRC_CTRL 20 0 s
  let live := fun (i : Nat) => carries i s
  let items := delineate (body.length + 1) (body.drop region)
  s |> takeDownstream n fc (body.take region) live |> each items (takeItem side n fc)

/-- Whether a frame holds a fragment or a message for a dozing identity (wake source 6, R449). -/
def forDozing (plan lmms : Nat) (b : List (Option Byte)) (s : State) : Bool :=
  let tns := (dozing s).map (fun e => ((ident e.1 s).tn.getD 0).toNat)
  let msgs := pieces 48 lmms (b.drop (8 * plan))
  msgs.any (fun m => match m with | some m => tns.contains (beAt m 0 2 / 16) | none => false)
    || (delineate (b.length + 1) (b.drop (8 * plan + 48 * lmms + rfld Reg.CIRC_CTRL 20 0 s))).any (fun x => match x with
      | .frag tn _ _ _ _ _ => tns.contains tn
      | _ => false)

/-- The contents of a frame whose header is used (R76, R94): in L2 headers only (R155). -/
def takeContents (side n : Nat) (fc : BitVec 48) (hdr : Bytes) (ds : List (Option (List Nat × Nat))) (s : State) : State :=
  let splen := hdrSplen hdr
  let cnt := hdrLmmcnt hdr
  let b := frameBytes ds fc n
  if side ≠ activeSide s then s
  else if 2 ≤ s.pwr.ladder then when' (forDozing splen cnt b s) (wakeFires 6 none) s
  else
    let plan := (pieces 8 splen b).map (fun r => r.map (fun r => BitVec.ofNat 64 (beNat r)))
    let fit := min cnt ((1567676 - 8 * splen) / 48)
    let lmms := (pieces 48 fit (b.drop (8 * splen))).filterMap id
    let s := s |> when' (plan.any Option.isNone) (count (Reg.CNT_SHIFT_LOST side n))
      |> modSeam side n (fun x => { x with plan := plan, planFc := some fc })
      |> each lmms (fun m s => { s with join := { s.join with
          lmms := insertLmm { side := side, seam := n, fc := fc, bytes := m } s.join.lmms } })
      |> takeBody side n fc (b.drop (8 * splen + 48 * cnt))
    if fc = s.tick.count then shiftApply side n s else s

/-- EV_SEAM_SKEW at the start of a run of skewed frames (R121). -/
def noteSkew (side n lateNs : Nat) (s : State) : State :=
  let x := seam side n s
  let skewed := decide (4000 < lateNs)
  s |> when' (skewed && !x.skewed && side == activeSide s) (event 0x0406 (sideSeam side n :: beBytes 4 lateNs))
    |> modSeam side n (fun x => { x with skewed := skewed })

/-- The multiframe and the windows after a frame (R97, R100). -/
def frameMeasures (side n : Nat) (t : HeaderTaken) (c : DecodeCounts) (s : State) : State :=
  let x := seam side n s
  let was := x.lomf
  let x := { x with sinceSync := x.sinceSync + 1 }
  let y := match t.used with
    | some b => mfStep x (hdrMfi b) t.fc
    | none => mfSkip x
  let y := mfTimeout y
  let y := windowStep c (!x.mfAligned && y.mfAligned) (t.fc.toNat % 8) y
  s |> defects side n (fun _ => y) |> lomfEvents side n was y.lomf

/-- The stamps of the last eight frames of a seam (R392). -/
def noteStamp (side n : Nat) (fc : BitVec 48) (s : State) : State :=
  modSeam side n (fun x => { x with stamps := ((fc, stampNow s) :: x.stamps).take 8 }) s

/-- A frame of a seam in SYNC once its codewords are decoded (R92 to R104). -/
def decodedFrame (side n : Nat) (bad : Bool) (ds : List (Option (List Nat × Nat))) (lateNs : Nat) (s : State) : State :=
  let c := decodeCounts ds
  let hdr : Option Bytes := match ds with
    | some (m, _) :: _ =>
      let b := packBits ((symbolBits (m.take 20)).take 192)
      if headerValid b then some b else none
    | _ => none
  let (s, badSync) := s |> countWords side n c |> badSyncStep side n bad
  let (s, badHeid) := heidCheck side n hdr s
  let (s, t) := takeHeader side n hdr s
  let s := s |> noteStamp side n t.fc |> noteSkew side n lateNs |> frameMeasures side n t c
  let s := when' (side == activeSide s) (downSwitches t.fc) s
  if badSync then s |> declareLof side n 0 |> noteLineLost side true
  else if badHeid then s |> declareLof side n 1 |> noteLineLost side true
  else match t.used with
    | some b => takeContents side n t.fc b ds s
    | none => s

/-- DOWNSTREAM_FRAME (R94). -/
def downstreamFrame (side n : Nat) (ws : List Codeword) (lateNs : Nat) (s : State) : State :=
  if inSync side n s then decodedFrame side n (syncBad side n ws s) (decodeWords ws) lateNs s else s

end Sys2Proof.Machine
end

