-- ==== Sys2Proof/Machine/Classify.lean ====
section
/-! DEFINITION. The order of decision for a frame at a pipeline (R234, R235, R239, R248 to R253). -/
namespace Sys2Proof.Machine

/-! ### The pattern matcher (R248 to R251) -/

/-- The bytes of a pipeline's automaton table, by position. -/
def automatonOf (n : Nat) (s : State) : List (Nat × Byte) :=
  (s.cls.automaton.filter (fun e => e.1 / 2097152 == n)).map (fun e => (e.1 % 2097152, e.2))

/-- WIN_LEN of a source. -/
def winLen (line : Bool) (src : Nat) (s : State) : Nat := fld (sourceCfg line src s) 17 7

/-- Whether a pattern stands in a window, wholly, at its offset, or at it or later where it is not anchored (R249). -/
def patternIn (window : Bytes) (q : Config.Pattern) : Bool :=
  let at? := fun (o : Nat) => decide (o + q.bytes.length ≤ window.length) && slice window o q.bytes.length == q.bytes
  if q.anchored then at? q.offset else (List.range (window.length + 1)).any (fun o => decide (q.offset ≤ o) && at? o)

/-- The match bits of a window (R249). -/
def patternMatch (ps : List Config.Pattern) (window : Bytes) : BitVec 64 :=
  BitVec.ofNat 64 ((List.range 64).map (fun b => if ps.any (fun q => q.bit == b && patternIn window q) then 2 ^ b else 0)).sum

/-- The MATCH field of a frame: 0 without a window, and, counted, while PD_MATCH is in a Domain reset; while it is without
power its outputs are clamped to 0, and the frame wakes it (R251, R453, R457). -/
def matchBits (n : Nat) (f : InFrame) (p : Parsed) (s : State) : BitVec 64 × State :=
  let w := winLen f.line f.src s
  if w = 0 then (0, s)
  else if s.boot.domActive.getLsbD 5 then (0, count (Reg.CNT_CLS_MATCH_SKIP n) s)
  else if domState 5 s ≠ .on ∧ domState 5 s ≠ .gated then (0, wakeDomain 5 s)
  else
    let (a, b) := windowBounds f.bytes p
    (patternMatch (Config.patterns (automatonOf n s)) (slice f.bytes a (min w (b - a))), s)

/-! ### The action of a rule (R243) -/

/-- Class, colour and queue a rule gives a frame of a source. -/
def classGiven (a cfg : Word) : Nat := if bitOf a 15 then fld a 14 11 else fld cfg 6 3
def colourGiven (a : Word) : Nat := if bitOf a 10 then fld a 9 8 else 0
def queueGiven (a cfg : Word) : Nat := if bitOf a 7 then fld a 6 4 else fld cfg 2 0

/-- The forwarding VLAN of a frame (R254). -/
def forwardingVlan (p : Parsed) (cfg : Word) : Nat :=
  let v := p.tci0 % 4096
  if p.ntags = 0 ∨ v = 0 then fld cfg 29 18 else v

/-- Learn a frame's source address where its source has LEARN 1 (R259). -/
def learnFrame (f : InFrame) (vid : Nat) (s : State) : State :=
  let sa := beAt f.bytes 6 6
  if bitOf (sourceCfg f.line f.src s) 31 ∧ !isGroup sa then learn (if f.line then 0x200 + f.src else f.src) vid sa s else s

/-- Nothing given: NO_MATCH and MALFORMED records. -/
def noInfo : ExcInfo := { cls := 0, colour := 0, queue := 0, rule := 0xFFFF }

/-- An exception of a frame. -/
def exception (reason n : Nat) (f : InFrame) (snap : Nat) (x : ExcInfo) (s : State) : State :=
  offerException { pipe := n, stamp := f.stamp, bytes := excBytesOf reason n f.line f.src snap x f.bytes s } s

/-- The source number of a frame for the policers (R281). -/
def policeSource (f : InFrame) : Nat := if f.line then 512 + f.src else f.src

/-- The frame as the bridge takes it. -/
def bridgeFrameOf (n : Nat) (f : InFrame) (vid colour queue : Nat) (bad : Bool) : BridgeFrame :=
  { bytes := f.bytes, pipe := n, line := f.line, src := f.src, vid := vid, colour := colour, queue := queue, bad := bad }

/-- Forward a frame: policed once, then to the express queue or the bridge (R253, R254, R282). -/
def forwardFrame (n : Nat) (f : InFrame) (vid cls colour queue : Nat) (s : State) : State :=
  match police (policeSource f) cls colour (frameL f.bytes) s with
  | (none, s) => s
  | (some c, s) =>
    let b := bridgeFrameOf n f vid c queue false
    match (if f.line ∨ !vlanAdmits b s then none else unicastDest b s) with
    | some p => if p < 0x200 ∧ expressPath p b s then (cutThrough p b s).2 else bridge b s
    | none => bridge b s

/-- A rule applies (R252). -/
def applyRule (n r : Nat) (x : Rule) (f : InFrame) (p : Parsed) (s : State) : State :=
  let cfg := sourceCfg f.line f.src s
  let vid := forwardingVlan p cfg
  let cls := classGiven x.action cfg
  let colour := colourGiven x.action
  let queue := queueGiven x.action cfg
  let info : ExcInfo := { cls := cls, colour := colour, queue := queue, rule := r }
  let disp := fld x.action 17 16
  let s := count (Reg.CLS_RULE_HIT n r) s
  let s := if disp = 2 then count (Reg.CNT_CLS_DROP n) s
    else if disp = 1 then s |> learnFrame f vid |> count (Reg.CNT_CLS_EXC_RULE n) |> exception 4 n f (excSnap s) info
    else s |> learnFrame f vid |> forwardFrame n f vid cls colour queue
  if p.deep ∧ rbit Reg.CLS_EXC_CTRL 0 s then exception 2 n f (excSnap s) info s else s

/-- A frame stored whole (R252). -/
def classifyStored (n : Nat) (f : InFrame) (s : State) : State :=
  let p := parse (parseCfg false s) f.bytes
  let vid := forwardingVlan p (sourceCfg f.line f.src s)
  if p.malformed then s |> count (Reg.CNT_CLS_MALFORMED n) |> exception 3 n f (excSnap s) noInfo
  else
    let s := when' p.deep (count (Reg.CNT_CLS_PARSE_DEEP n)) s
    match (if f.line then none else circMatch f.src p s) with
    | some c => s |> learnFrame f vid |> modCls (fun x => { x with circIn := x.circIn ++ [(c, circBody f.bytes p)] })
    | none =>
      if p.tally ∧ rbit Reg.TALLY_CTRL 31 s then s |> learnFrame f vid |> tallyArrive f.line f.src f.bytes
      else
        let (m, s) := matchBits n f p s
        match findRule n (ruleKey f.bytes p f.line f.src m) s with
        | none => s |> learnFrame f vid |> count (Reg.CNT_CLS_NO_MATCH n) |> exception 1 n f (excSnap s) noInfo
        | some (r, x) => applyRule n r x f p s

/-! ### The express path (R239, R250, R274, R357) -/

/-- What the first beat of a frame decides: its rule and destination port, where it cuts through. The parser must need no byte
beyond the beat (R250, R274). -/
def expressOf (n : Nat) (f : InFrame) (s : State) : Option (Parsed × Nat × Rule × Nat) :=
  if f.line ∨ f.bytes.length + 4 ≤ 128 ∨ winLen false f.src s ≠ 0 then none
  else
    let b := f.bytes.take 128
    let p := parse (parseCfg true s) b
    if p.malformed ∨ p ≠ parse (parseCfg true s) f.bytes ∨ (circMatch f.src p s).isSome ∨ (p.tally ∧ rbit Reg.TALLY_CTRL 31 s) then none
    else match findRule n (ruleKey b p false f.src 0) s with
      | none => none
      | some (r, x) =>
        let cfg := sourceCfg false f.src s
        let y := bridgeFrameOf n f (forwardingVlan p cfg) (colourGiven x.action) (queueGiven x.action cfg) false
        if fld x.action 17 16 ≠ 0 ∨ !vlanAdmits y s then none
        else match unicastDest y s with
          | some d => if d < 0x200 ∧ expressPath d y s then some (p, r, x, d) else none
          | none => none

/-- A frame that cuts through: judged at its end (R239, R342). One that its policer or its queue has refused has not left, and is
judged as a stored one is. -/
def classifyExpress (n : Nat) (f : InFrame) (p : Parsed) (r : Nat) (x : Rule) (d : Nat) (s : State) : State :=
  let cfg := sourceCfg false f.src s
  let vid := forwardingVlan p cfg
  let cls := classGiven x.action cfg
  let queue := queueGiven x.action cfg
  let late := !f.bad && (parse (parseCfg false s) f.bytes).malformed
  let info : ExcInfo := { cls := cls, colour := colourGiven x.action, queue := queue, rule := r }
  let s := count (Reg.CLS_RULE_HIT n r) s
  let (left, s) := match police (policeSource f) cls (colourGiven x.action) (frameL f.bytes) s with
    | (none, s) => (false, s)
    | (some c, s) => cutThrough d (bridgeFrameOf n f vid c queue (f.bad || late)) s
  if f.bad then s
  else if late then
    s |> count (if left then Reg.CNT_CLS_MALFORMED_LATE n else Reg.CNT_CLS_MALFORMED n)
      |> exception 3 n f (if left then min 256 (excSnap s) else excSnap s) { info with cls := 0 }
  else
    s |> learnFrame f vid |> when' p.deep (count (Reg.CNT_CLS_PARSE_DEEP n))
      |> when' (p.deep && rbit Reg.CLS_EXC_CTRL 0 s) (exception 2 n f (excSnap s) info)

/-- One frame at a pipeline: a dropped one (R341) leaves only if it has already begun to. -/
def classifyOne (n : Nat) (f : InFrame) (s : State) : State :=
  match expressOf n f s with
  | some (p, r, x, d) => classifyExpress n f p r x d s
  | none => if f.bad then s else classifyStored n f s

/-- CLASSIFY_FRAME (R252): the next frame that waits at a pipeline, whose tubs are free for its copies (R311); it waits while the pipeline's domain is not
ON (R457); in a dip episode the pipelines are gated (R64). -/
def classifyFrame (n : Nat) (s : State) : State :=
  match inDip s || domState n s != .on, ingressOf n s with
  | false, f :: rest =>
    { s with ingress := tput (fun _ => []) n rest s.ingress } |> freeTubsOf n f.tubs |> classifyOne n f
  | _, _ => s

/-- CIRC_PACKET (R177): the packet given, or the next one the classifier has handed over. -/
def circPacketRow (packet : Option (Fin 1024 × Bytes)) (s : State) : State :=
  match packet with
  | some (c, b) => circPacket c.val b s
  | none => match s.cls.circIn with
    | (c, b) :: rest => circPacket c b (modCls (fun x => { x with circIn := rest }) s)
    | [] => s

end Sys2Proof.Machine
end

