-- ==== Sys2Proof/Machine/Lanes.lean ====
section
/-! DEFINITION. The serial lanes (R363 to R385): training, power states, raw mode, eye scans, checkers, loopbacks, wiring
faults and retirement, with the going down of a port (R345, R347). -/
namespace Sys2Proof.Machine

/-! ### Which lane is what (R363) -/

def isLocalLane (l : Nat) : Bool := l < 512
def isLineRx (l : Nat) : Bool := (512 ≤ l && l < 516) || (520 ≤ l && l < 524)
def isLineTx (l : Nat) : Bool := (516 ≤ l && l < 520) || (524 ≤ l && l < 528)
def isLineLane (l : Nat) : Bool := 512 ≤ l && l < 528
def isChainRx (l : Nat) : Bool := l == 528 || l == 530
def isChainTx (l : Nat) : Bool := l == 529 || l == 531
def isChainLane (l : Nat) : Bool := 528 ≤ l && l < 532

/-- Whether a lane has a receiver. -/
def hasRx (l : Nat) : Bool := isLocalLane l || isLineRx l || isChainRx l

/-- Whether a lane has a transmitter. -/
def hasTx (l : Nat) : Bool := isLocalLane l || isLineTx l || isChainTx l

/-- The side and the seam of a line lane. -/
def laneSide (l : Nat) : Nat := (l - 512) / 8
def laneSeam (l : Nat) : Nat := (l - 512) % 4

/-- The chain port of a chain lane: 0 east, 1 west. -/
def laneChain (l : Nat) : Nat := (l - 528) / 2

/-- The power domain of a lane. -/
def laneDomain (l : Nat) : Nat := if l < 512 then 7 + l / 64 else if l < 520 then 15 else if l < 528 then 16 else 20

/-- Bits of a parallel word (R364). -/
def laneWord (l : Nat) : Nat := if isLineLane l then 160 else 32

/-- The lanes of a power domain. -/
def lanesOf (d : Nat) : List Nat := (List.range 532).filter (fun l => laneDomain l == d)

/-- The mode in force on a local lane, the block's in MODE 4 (R337). -/
def laneMode (l : Nat) (s : State) : Nat := if (port (l / 4 * 4) s).mode = 4 then 4 else (port l s).mode

/-- The port a local lane belongs to. -/
def portOfLane (l : Nat) (s : State) : Nat := if (port (l / 4 * 4) s).mode = 4 then l / 4 * 4 else l

/-! ### The going down of a port -/

/-- EV_PORT_LINK. -/
def portLinkEvent (p : Nat) (up : Bool) (s : State) : State := event 0x0A01 (beBytes 2 p ++ [BitVec.ofNat 8 (b2n up)]) s

/-- Negotiation of the wake time is lost (R350): LPI is deasserted at once. -/
def loseEee (p : Nat) (s : State) : State :=
  s |> lpiDrop p |> modPort p (fun x => { x with eeeNeg := false, twTx := 0 })

/-- LPI received from the partner ends; its time is counted, but not in a dip episode (R348, R351). -/
def lpiRxEnd (p : Nat) (s : State) : State :=
  let x := port p s
  if x.lpiRx then
    s |> setPort p { x with lpiRx := false }
      |> when' (!inDip s) (count64 (Reg.CNT_PORT_RX_LPI_US_LO p) ((s.cycle - x.lpiRxAt) / 1000))
  else s

/-- A port goes down (R345, R347, R350): what is queued for it is discarded and counted in `counter`, and LPI ends in both
directions. -/
def portDown (p counter : Nat) (s : State) : State :=
  if (port p s).link then
    s |> modPort p (fun x => { x with link := false }) |> portLinkEvent p false |> loseEee p |> lpiRxEnd p |> flushPort p counter
  else s |> flushPort p counter

/-! ### Training and power states (R365, R368 to R371) -/

/-- Whether a dip episode holds a lane's state (R371). -/
def laneHeld (l : Nat) (s : State) : Bool := inDip s && (isLocalLane l || isChainLane l)

/-- The reference input a lane runs on (R546). -/
def laneRef (l : Nat) : Nat := if isLocalLane l then l / 256 else if isLineLane l then 2 else 3

/-- Whether a lane is to run: its domain ON, its reference present (R57), not retired, and for a local lane a mode other
than 0. -/
def laneWanted (l : Nat) (s : State) : Bool :=
  domState (laneDomain l) s == .on && s.boot.refPresent.getLsbD (laneRef l) && !laneRetired l s
    && (!isLocalLane l || laneMode l s != 0)

/-- LANE_RETRAIN.PERIOD_S in cycles. -/
def retrainCycles (s : State) : Nat := rfld Reg.LANE_RETRAIN 15 0 s * 10 ^ 9

/-- Whether a lane's saved coefficients may be restored (R370). -/
def savedUsable (x : LaneState) (s : State) : Bool :=
  match x.saved with
  | none => false
  | some (t, c) => decide (t - s.pwr.caseTemp ≤ 20) && decide (s.pwr.caseTemp - t ≤ 20) && decide (s.cycle - c ≤ retrainCycles s)

/-- A change of a lane's state waits for the resumption (R371). -/
def holdLane (l : Nat) (h : LaneHold) (s : State) : State := modLane l (fun x => { x with held := x.held ++ [h] }) s

/-- A lane begins to train (R365): from DEEP or OFF with its saved coefficients where R370 lets it. -/
def startTrain (l : Nat) (s : State) : State :=
  if laneHeld l s then holdLane l .train s
  else if laneWanted l s then
    modLane l (fun x =>
      let restore := (x.st == .deep || x.st == .off) && savedUsable x s
      { x with st := .train, cdr := false, prbsLock := false, noEnergy := false, scan := false, scanHeld := false,
               adapted := restore }) s
  else s

/-- A lane loses its loops: its coefficients are saved where it holds some. -/
def sleepLane (l : Nat) (st : LanePhase) (s : State) : State :=
  modLane l (fun x =>
    { x with st := st, cdr := false, prbsLock := false, scan := false, scanHeld := false, energy := x.energy && st != .off,
             saved := if x.adapted then some (s.pwr.caseTemp, s.cycle) else x.saved, adapted := false }) s

/-- A lane goes OFF, in a dip episode too: its domain goes down, or it is retired. -/
def laneOffNow (l : Nat) (s : State) : State := if (lane l s).st = .off then s else sleepLane l .off s

/-- A lane goes OFF; in a dip episode at the resumption (R371). -/
def laneOff (l : Nat) (s : State) : State := if laneHeld l s then holdLane l .off s else laneOffNow l s

/-- A lane that is not OFF goes to DEEP. -/
def laneDeep (l : Nat) (s : State) : State :=
  if (lane l s).st = .off ∨ (lane l s).st = .deep then s else sleepLane l .deep s

/-- An ACTIVE lane goes to EIDLE: phase and coefficients are held. -/
def laneIdle (l : Nat) (s : State) : State :=
  if (lane l s).st = .active then modLane l (fun x => { x with st := .eidle }) s else s

/-- LANE_TRAIN (R365): the receiver has adapted and its clock recovery is locked. The word boundary the PCS finds is open. -/
def laneTrain (l : Nat) (s : State) : State :=
  let x := lane l s
  if x.st = .train ∧ !x.isOpen ∧ laneWanted l s then
    if laneHeld l s then holdLane l .trained s
    else
      s |> setLane l { x with st := .active, cdr := true, energy := true, adapted := true,
                              slipPos := Config.freeNat s.free % laneWord l }
        |> nextFree
  else s

/-- Re-adapt one lane in the background; a running scan or a dip episode makes it wait (R366, R371, R385). -/
def retrainLane (l : Nat) (s : State) : State :=
  let x := lane l s
  if hasRx l ∧ x.st = .active ∧ x.cdr then
    if inDip s ∨ x.scan then setLane l { x with retrainDue := true } s
    else setLane l { x with retrainDue := false } s
  else s

/-- RETRAIN_WINDOW (R366). -/
def retrainWindow (s : State) : State := each (s.lanes.map (fun e => e.1)) retrainLane s

/-- What waited for the end of a dip episode or of a scan. -/
def retrainWaiting (s : State) : State :=
  each ((s.lanes.filter (fun e => e.2.retrainDue)).map (fun e => e.1)) retrainLane s

/-- LANE_WAKE (R369, R370): a lane leaves EIDLE by a training burst, or trains on leaving DEEP or OFF. Local and chain
lanes stay as long as the ladder state that put them there lasts, energy being a wake source (R449); one that sleeps for want
of energy waits for it. In a dip episode the change waits for the resumption (R371). -/
def laneWake (l : Nat) (energy : Bool) (s : State) : State :=
  if !laneWanted l s then s
  else
    let s := modLane l (fun x => { x with energy := energy }) s
    let x := lane l s
    let held := if isLineLane l then 2 ≤ s.pwr.ladder else 1 ≤ s.pwr.ladder
    if held then
      if energy ∧ x.st = .deep ∧ isLocalLane l then wakeFires 2 none s
      else if energy ∧ isChainRx l then wakeFires 3 none s else s
    else if laneHeld l s then holdLane l (.wake energy) s
    else match x.st with
      | .eidle => s |> setLane l { x with st := .active } |> when' (hasTx l) (emit (.trainingBurst l))
      | .deep => if x.noEnergy && !energy then s else startTrain l s
      | .off => startTrain l s
      | _ => s

/-- LANE_NO_ENERGY (R368): no energy for 1 s while the lane's port is down; a wake in the same cycle prevails (R385). In a dip
episode DEEP waits for the resumption (R371). -/
def laneNoEnergy (l : Nat) (wake : Bool) (s : State) : State :=
  let portIsDown := if isLocalLane l then !(port (portOfLane l s) s).link else !chainUp (laneChain l) s
  if wake ∨ isLineLane l ∨ isChainTx l ∨ !portIsDown then s
  else
    let s := modLane l (fun x => { x with energy := false }) s
    if laneHeld l s then holdLane l .noEnergy s
    else if (lane l s).st = .active ∨ (lane l s).st = .eidle ∨ (lane l s).st = .train then
      s |> laneDeep l |> modLane l (fun x => { x with noEnergy := true })
    else s

/-- The lanes after the ladder has reached state `k` (R368): EIDLE in L1, DEEP in L2 and L3, OFF in L4; in L2 the line lanes
of seams other than the one kept in SYNC are DEEP. -/
def lanesLadder (k : Nat) (s : State) : State :=
  if k = 1 then each (List.range 512 ++ [528, 529, 530, 531]) laneIdle s
  else if k = 2 then
    let side := s.prot.active.val
    let kept := (lowestSync side s).getD 4
    s |> each (List.range 512) laneDeep
      |> each ((List.range 4).filter (fun n => n != kept)) (fun n s => s |> laneDeep (lineRx side n) |> laneDeep (lineTx side n))
  else if k = 3 then each (List.range 512) laneDeep s
  else if k = 4 then each (List.range 532) laneOff s
  else s

/-- The registers of a lane that lie in its domain go to zero: those at offset 0x008 and above. -/
def clearLaneRegs (d : Nat) (s : State) : State :=
  { s with regs := s.regs.filter (fun x =>
      !(0xC00000 ≤ x.1 && x.1 < 0xC85000 && 8 ≤ (x.1 - 0xC00000) % 0x400 && laneDomain ((x.1 - 0xC00000) / 0x400) == d)) }

/-- A lane's domain goes down: its lanes are OFF and their registers are gone. -/
def laneDomainDown (d : Nat) (s : State) : State :=
  s |> each (lanesOf d) laneOffNow |> each (lanesOf d) (fun l s => setLane l { LaneState.reset with saved := (lane l s).saved } s)
    |> clearLaneRegs d

/-- A lane's domain comes up: every lane that is to run trains. -/
def laneDomainUp (d : Nat) (s : State) : State := s |> clearLaneRegs d |> each (lanesOf d) startTrain

/-- The saved sets of lanes are lost (R370): of every lane, or of the lanes of a domain. -/
def dropSaved (which : Nat → Bool) (s : State) : State :=
  each ((s.lanes.map (fun e => e.1)).filter which) (fun l s => modLane l (fun x => { x with saved := none }) s) s

/-! ### Refusals (R384) -/

/-- A refused write: ERR is the reason, the write is counted. -/
def laneRefuse (l reason : Nat) (s : State) : State :=
  s |> modLane l (fun x => { x with err := reason }) |> count (Reg.CNT_LANE_CFG_REFUSED l)

/-- The lowest of the reasons that apply; 0 for none. -/
def lowestReason (l : List (Bool × Nat)) : Nat :=
  match (l.filter (fun e => e.1)).map (fun e => e.2) with
  | [] => 0
  | x :: xs => xs.foldl min x

/-- SLIP (R372): obeyed while RAW is 1 or LOOP is not 0. Which reason ERR then shows otherwise is open. -/
def slip (l : Nat) (v : Word) (s : State) : State :=
  if !bitOf v 0 then s
  else if laneRetired l s then laneRefuse l 4 s
  else if rbit (Reg.LANE_CFG l) 9 s ∨ rfld (Reg.LANE_CFG l) 2 0 s ≠ 0 then
    modLane l (fun x => { x with slipPos := (x.slipPos + 1) % laneWord l }) s
  else s |> laneRefuse l (1 + Config.freeNat s.free % 6) |> nextFree

/-- A write of LANE_EYE_CTRL (R373): EYE_SCAN_START with START 1. A scan started in a dip episode shows BUSY and runs from
the resumption on (R371). -/
def eyeScanStart (l : Nat) (v : Word) (s : State) : State :=
  let x := lane l s
  let start := bitOf v 30
  let r := lowestReason [(start && !isLocalLane l, 3), (start && laneRetired l s, 4),
    (start && (x.scan || !(x.st == .active && x.cdr)), 5), (fld v 18 12 == 64, 6)]
  if r ≠ 0 then laneRefuse l r s
  else
    s |> setReg (Reg.LANE_EYE_CTRL l) (v &&& 0x00F7F03F)
      |> when' start (modLane l (fun x => { x with scan := true, scanHeld := inDip s }))

/-- EYE_SCAN_DONE (R373): the result is held; a retrain window that waited follows (R385). A scan that has not started, held
by a dip episode, does not end. -/
def eyeScanDone (l errors : Nat) (s : State) : State :=
  let x := lane l s
  if x.scan && !x.scanHeld then
    s |> setLane l { x with scan := false, eye := BitVec.ofNat 32 (satTo 32 errors) }
      |> when' x.retrainDue (retrainLane l)
  else s

/-- The reason a write of LANE_CFG is refused for (R374 to R376); 0 for none. -/
def cfgReason (l : Nat) (v : Word) (s : State) : Nat :=
  let raw := bitOf v 9
  let chk := bitOf v 5
  let gen := bitOf v 4
  let loop := fld v 2 0
  let test := raw || chk || gen || loop != 0
  let rxLoop := rfld (Reg.LANE_CFG (l - 4)) 2 0 s
  lowestReason [
    (test && ((isLineLane l && laneSide l == s.prot.active.val) || (isChainLane l && chainUp (laneChain l) s)), 1),
    (gen && isLineTx l && rxLoop != 1 && rxLoop != 2, 2),
    ((gen && !(isLineTx l || isChainTx l)) || (chk && !(isLineRx l || isChainRx l)) || (loop == 3 && isLineLane l)
      || (loop != 0 && (isLineTx l || isChainTx l)), 3),
    (test && laneRetired l s, 4),
    (4 ≤ loop || fld v 7 6 == 3, 6)]

/-- A local lane that is shorted or in raw mode takes its port down (R372, R379), after a dip episode where one lasts
(R348). -/
def laneStopsPort (l : Nat) (s : State) : State :=
  if isLocalLane l ∧ !inDip s then portDown (portOfLane l s) (Reg.CNT_PORT_LINK_DROP (portOfLane l s)) s else s

/-- What a change of LANE_CFG from `old` brings: a checker stops or starts afresh, RAW takes a local port down and gives
the boundary back to the PCS, whose search is open, and a line receive lane changes its rate with LOOP (R372, R376). -/
def laneCfgChanged (l : Nat) (old : Word) (s : State) : State :=
  let new := reg (Reg.LANE_CFG l) s
  let half (w : Word) : Bool := fld w 2 0 == 1 || fld w 2 0 == 2
  s |> when' (bitOf old 5 != bitOf new 5) (modLane l (fun x => { x with prbsLock := false, prbsSeen := false, prbsErr := 0 }))
    |> when' (!bitOf old 9 && bitOf new 9) (laneStopsPort l)
    |> when' (bitOf old 9 && !bitOf new 9) (fun s => s |> modLane l (fun x => { x with slipPos := Config.freeNat s.free % laneWord l }) |> nextFree)
    |> when' (isLineRx l && half old != half new && (lane l s).st != .off) (startTrain l)

/-- LANE_CFG_WRITE (R375). -/
def laneCfgWrite (l : Nat) (v : Word) (s : State) : State :=
  let r := cfgReason l v s
  if r ≠ 0 then laneRefuse l r s
  else
    let old := reg (Reg.LANE_CFG l) s
    s |> setReg (Reg.LANE_CFG l) (v &&& 0x2F7) |> laneCfgChanged l old

/-- The test fields of a lane cleared: RAW, the PRBS bits and LOOP. -/
def clearTest (l : Nat) (s : State) : State :=
  let old := reg (Reg.LANE_CFG l) s
  s |> setReg (Reg.LANE_CFG l) (old &&& 0xC0) |> laneCfgChanged l old

/-- Whether a lane has a test field set. -/
def testSet (l : Nat) (s : State) : Bool := reg (Reg.LANE_CFG l) s &&& 0x237 != 0

/-- The lanes of a side. -/
def sideLanes (side : Nat) : List Nat := (List.range 8).map (fun k => 512 + 8 * side + k)

/-- A write of LANE_TXEQ: refused where the taps sum above 63 (R384). -/
def txeqWrite (l : Nat) (v : Word) (s : State) : State :=
  if fld v 17 12 + fld v 11 6 + fld v 5 0 > 63 then laneRefuse l 6 s else setReg (Reg.LANE_TXEQ l) (v &&& 0x3FFFF) s

/-! ### Checkers (R374) -/

/-- Bits checked and errors counted while a checker is locked. -/
def prbsCount (l bits errors : Nat) (s : State) : State :=
  s |> count64 (Reg.CNT_LANE_PRBS_BITS_LO l) bits |> count64 (Reg.CNT_LANE_PRBS_ERR_LO l) errors
    |> modLane l (fun x => { x with prbsErr := x.prbsErr + errors })

/-- PRBS_CHECKER_LOCK: the checker locks, or, being locked, counts on. -/
def prbsLockOn (l bits errors : Nat) (s : State) : State :=
  let x := lane l s
  if rbit (Reg.LANE_CFG l) 5 s ∧ x.st = .active ∧ x.cdr then
    s |> setLane l { x with prbsLock := true, prbsSeen := true } |> prbsCount l bits errors
  else s

/-- PRBS_CHECKER_LOCK_LOSS. -/
def prbsLockLoss (l bits errors : Nat) (s : State) : State :=
  if (lane l s).prbsLock then s |> prbsCount l bits errors |> modLane l (fun x => { x with prbsLock := false }) else s

/-! ### Wiring faults (R378 to R380) -/

/-- RECEIVER_DETECT (R378): while a transmit lane is not ACTIVE and not OFF. -/
def receiverDetect (l : Nat) (found : Bool) (s : State) : State :=
  let x := lane l s
  if !hasTx l ∨ x.st = .active ∨ x.st = .off then s
  else if found then setLane l { x with isOpen := false } s
  else if x.isOpen then s
  else
    s |> setLane l { x with isOpen := true } |> event 0x0B01 (beBytes 2 l) |> count (Reg.CNT_LANE_OPEN l) |> noteFault 4 l
      |> when' (isChainLane l) (chainLeave (laneChain l))

/-- EV_LANE_SHORT (R379). -/
def laneShort (l : Nat) (s : State) : State :=
  let x := lane l s
  if !hasTx l ∨ x.st = .off ∨ x.short then s
  else
    s |> setLane l { x with short := true } |> event 0x0B02 (beBytes 2 l) |> count (Reg.CNT_LANE_SHORT l) |> noteFault 4 l
      |> laneStopsPort l |> when' (isChainLane l) (chainLeave (laneChain l))

/-- SHORT_RETRY (R379). -/
def shortRetry (l : Nat) (limited : Bool) (s : State) : State :=
  if limited then s else modLane l (fun x => { x with short := false }) s

/-! ### Retirement (R381 to R383) -/

/-- What a lane's retirement brings, its bit being set: EV_LANE_RETIRED; it is held OFF; a scan ends with ERR 4 (R385). -/
def retireEffects (l : Nat) (declared : Bool) (s : State) : State :=
  let scanning := (lane l s).scan
  let s := s |> event 0x0B03 (beBytes 2 l ++ [BitVec.ofNat 8 (b2n declared)]) |> laneOffNow l
    |> when' scanning (modLane l (fun x => { x with err := 4 }))
  if isLocalLane l then portDown (portOfLane l s) (Reg.CNT_PORT_LINK_DROP (portOfLane l s)) s
  else if isLineRx l then declareLos (laneSide l) (laneSeam l) s
  else if isChainLane l then chainLeave (laneChain l) s
  else s

/-- LANE_RETIRE: the lane's bit becomes 1, with its effects. -/
def laneRetire (l : Nat) (declared : Bool) (s : State) : State :=
  if laneRetired l s then s
  else
    let e := 8 + l / 32
    let s := keepWrite e (keepValue e s ||| BitVec.ofNat 32 (2 ^ (l % 32))) s
    if laneRetired l s then retireEffects l declared s else s

/-- LANE_UNRETIRE (R383): the bit becomes 0 and the lane trains. -/
def laneUnretire (l : Nat) (s : State) : State :=
  if laneRetired l s then
    let e := 8 + l / 32
    let s := keepWrite e (keepValue e s &&& ~~~ BitVec.ofNat 32 (2 ^ (l % 32))) s
    if laneRetired l s then s else startTrain l s
  else s

/-- A write of LANE_RETIRED (PW): every bit that changes retires its lane or trains it. -/
def retiredWrite (w : Nat) (v : Word) (s : State) : State :=
  let v := if w = 16 then v &&& 0xFFFFF else v
  let old := keepValue (8 + w) s
  let s := keepWrite (8 + w) v s
  let new := keepValue (8 + w) s
  each (List.range 32) (fun b s =>
    if !bitOf old b && bitOf new b then retireEffects (32 * w + b) false s
    else if bitOf old b && !bitOf new b then startTrain (32 * w + b) s else s) s

/-! ### The end of a dip episode (R348, R371) -/

/-- Carry out a change the episode held. -/
def carryHeld (l : Nat) (h : LaneHold) (s : State) : State :=
  match h with
  | .train => startTrain l s
  | .off => laneOff l s
  | .trained => laneTrain l s
  | .wake e => laneWake l e s
  | .noEnergy => laneNoEnergy l false s

/-- A lane at the resumption: a shorted one or one in raw mode takes its port down, the changes held are carried out in
order, and a scan that waited starts. -/
def resumeLane (l : Nat) (s : State) : State :=
  let hs := (lane l s).held
  s |> when' (isLocalLane l && (port (portOfLane l s) s).link && ((lane l s).short || rbit (Reg.LANE_CFG l) 9 s)) (laneStopsPort l)
    |> modLane l (fun x => { x with held := [], scanHeld := false }) |> each hs (carryHeld l)

/-- The lanes at the resumption: what the episode held, then the retrain windows that waited. -/
def lanesResume (s : State) : State :=
  s |> each (s.lanes.map (fun e => e.1)) resumeLane |> retrainWaiting

/-- LANE_STATUS. EIDLE shows while a local port asserts LPI (R368). -/
def laneStatus (l : Nat) (s : State) : Word :=
  let x := lane l s
  let lpi := isLocalLane l && (port (portOfLane l s) s).lpiTx && x.st == .active
  let st := match x.st with
    | .off => 0
    | .deep => 1
    | .eidle => 2
    | .train => 3
    | .active => if lpi then 2 else 4
  word (at' 29 st + at' 28 (b2n (laneRetired l s)) + at' 27 (b2n x.short) + at' 26 (b2n x.isOpen) + at' 25 (b2n x.energy)
    + at' 24 (b2n x.cdr) + at' 23 (b2n x.prbsLock) + at' 8 x.err + x.slipPos)

end Sys2Proof.Machine
end

