-- ==== Sys2Proof/Machine/Ports.lean ====
section
/-! DEFINITION. Local ports (R336 to R362): the mode and its rate budget, frames received, link and fault state,
energy-efficient idle with LLDP, and the MDIO buses. -/
namespace Sys2Proof.Machine

/-! ### Promises a port carries (R304, R339) -/

/-- Whether a port is the port of an active circuit. -/
def circuitPort (p : Nat) (s : State) : Bool := (activeCircuits s).any (fun e => e.2.port == p)

/-- The flows in use: open, or holding a slot in PENDING or HELD. -/
def flowsInUse (s : State) : List Nat :=
  ((s.regs.filter (fun x => Reg.TALLY_FLOW_CFG 0 ≤ x.1 && x.1 < Reg.TALLY_FLOW_CFG 2048
      && (x.1 - Reg.TALLY_FLOW_CFG 0) % (Reg.TALLY_FLOW_CFG 1 - Reg.TALLY_FLOW_CFG 0) == 0 && bitOf x.2 31)).map
    (fun x => (x.1 - Reg.TALLY_FLOW_CFG 0) / (Reg.TALLY_FLOW_CFG 1 - Reg.TALLY_FLOW_CFG 0)))
    ++ ((usedSlotsOf s).filter (fun e => inHand e.2.st)).map (fun e => e.2.flow)

/-- Whether a port is the port of a tally endpoint in use. -/
def tallyPort (p : Nat) (s : State) : Bool :=
  (flowsInUse s).any (fun f => rfld (Reg.TALLY_EP_CFG (flowEp f s)) 8 0 s == p)

/-! ### Modes (R336 to R340) -/

/-- The rate of a lane counted under R338 where `m` gives the MODE fields: a 100G block counts once. -/
def countedRate (m : Nat → Nat) (l : Nat) : Nat :=
  if m (l / 4 * 4) = 4 then (if l % 4 = 0 then 100 else 0) else modeRate (m l)

/-- The rate counted over lanes. -/
def rateOver (m : Nat → Nat) (lanes : List Nat) : Nat := (lanes.map (countedRate m)).sum

/-- The MODE fields as they stand. -/
def modesNow (s : State) (l : Nat) : Nat := (port l s).mode

/-- PORT_RATE_TOTAL and PORT_RATE_PIPE_n. -/
def rateTotal (m : Nat → Nat) : Nat := rateOver m (List.range 512)
def ratePipe (m : Nat → Nat) (n : Nat) : Nat := rateOver m ((List.range 128).map (fun k => 128 * n + k))

/-- Whether a lane lies in a block that is one 100G port and is not its lowest lane (R337). -/
def underBlock (l : Nat) (s : State) : Bool := l % 4 != 0 && (port (l / 4 * 4) s).mode == 4

/-- The ports a MODE of a lane takes: the whole block for MODE 4. -/
def modePorts (l mode : Nat) : List Nat := if mode = 4 then [l, l + 1, l + 2, l + 3] else [l]

/-- The reason a MODE is refused for, in the order of R339; 0 for none. -/
def modeReason (l mode : Nat) (s : State) : Nat :=
  let m (k : Nat) : Nat := if k = l then mode else modesNow s k
  if mode > 4 ∨ (mode = 4 ∧ l % 4 ≠ 0) then 4
  else if (modePorts l mode).any (fun p => circuitPort p s || tallyPort p s) then 3
  else if ratePipe m (l / 128) > 1200 then 2
  else if rateTotal m > 3200 then 1
  else 0

/-- The rank R32 has the refusal name: tally endpoints above circuits (R31). -/
def promiseRank (l mode reason : Nat) (s : State) : Nat :=
  if reason ≠ 3 then 0 else if (modePorts l mode).any (fun p => tallyPort p s) then 2 else 3

/-- The lanes of a block go into the mode that now holds: OFF for mode 0, training otherwise. -/
def retrainLanes (ls : List Nat) (s : State) : State :=
  each ls (fun l s => if laneMode l s = 0 then laneOff l s else startTrain l s) s

/-- An accepted change of MODE (R340). -/
def changeMode (l mode : Nat) (s : State) : State :=
  let old := (port l s).mode
  let whole := old = 4 ∨ mode = 4
  let ps := if whole then [l, l + 1, l + 2, l + 3] else [l]
  s |> each ps (fun p s => portDown p (Reg.CNT_PORT_MODE_FLUSH p) s)
    |> modPort l (fun x => { x with mode := mode, locFault := false, remFault := false })
    |> event 0x0A02 (beBytes 2 l ++ [BitVec.ofNat 8 old, BitVec.ofNat 8 mode])
    |> retrainLanes ps

/-- PORT_MODE_WRITE (R337 to R340): a write of PORT_CFG. Under a 100G block the MODE written to the upper lanes is
ignored; a MAX_FRAME out of range is ignored. -/
def portModeWrite (l : Nat) (v : Word) (s : State) : State :=
  let old := reg (Reg.PORT_CFG l) s
  let mode := if underBlock l s then (port l s).mode else fld v 18 16
  let change := mode != (port l s).mode
  let r := if change then modeReason l mode s else 0
  if r ≠ 0 then
    s |> modPort l (fun x => { x with err := r })
      |> event 0x0A03 (beBytes 2 l ++ [BitVec.ofNat 8 mode, BitVec.ofNat 8 r, BitVec.ofNat 8 (promiseRank l mode r s)])
  else
    let mf := fld v 13 0
    let mf := if 1518 ≤ mf ∧ mf ≤ 12288 then mf else fld old 13 0
    s |> setReg (Reg.PORT_CFG l) (word (at' 16 mode + at' 15 (b2n (bitOf v 15)) + mf))
      |> when' change (changeMode l mode)

/-- PORT_CFG as it reads: MODE 4 on every lane of a 100G block. -/
def portCfgView (l : Nat) (s : State) : Word :=
  putFld (reg (Reg.PORT_CFG l) s) 18 16 (if underBlock l s then 4 else (port l s).mode)

/-! ### Receiving (R341 to R343, R359, R361, R362) -/

/-- The receive size counter of a length. -/
def rxSizeReg (p l : Nat) : Nat :=
  if l ≤ 64 then Reg.CNT_PORT_RX_64_LO p else if l ≤ 127 then Reg.CNT_PORT_RX_65_127_LO p
  else if l ≤ 255 then Reg.CNT_PORT_RX_128_255_LO p else if l ≤ 511 then Reg.CNT_PORT_RX_256_511_LO p
  else if l ≤ 1023 then Reg.CNT_PORT_RX_512_1023_LO p else if l ≤ 1518 then Reg.CNT_PORT_RX_1024_1518_LO p
  else Reg.CNT_PORT_RX_1519_MAX_LO p

/-- The receive address counter of a destination. -/
def rxAddrReg (p da : Nat) : Nat :=
  if da = 2 ^ 48 - 1 then Reg.CNT_PORT_RX_BCAST_LO p else if isGroup da then Reg.CNT_PORT_RX_MCAST_LO p
  else Reg.CNT_PORT_RX_UCAST_LO p

/-- The counter of the first row of R341 a received frame meets; none for a good one. -/
def rxFault (p : Nat) (frame : Bytes) (codeErr : Bool) (s : State) : Option Nat :=
  let l := frame.length
  let good := fcsOf (frame.take (l - 4)) == frame.drop (l - 4) && decide (4 ≤ l)
  if codeErr then some (Reg.CNT_PORT_RX_CODE_ERR_LO p)
  else if l < 64 then some (if good then Reg.CNT_PORT_RX_UNDERSIZE_LO p else Reg.CNT_PORT_RX_FRAGMENT_LO p)
  else if l > maxFrame p s then some (if good then Reg.CNT_PORT_RX_OVERSIZE_LO p else Reg.CNT_PORT_RX_JABBER_LO p)
  else if good then none else some (Reg.CNT_PORT_RX_FCS_ERR_LO p)


/-- Count a good frame. -/
def countRx (p : Nat) (frame : Bytes) (s : State) : State :=
  s |> count64 (Reg.CNT_PORT_RX_OCTETS_OK_LO p) frame.length |> count64 (Reg.CNT_PORT_RX_FRAMES_OK_LO p) 1
    |> count64 (rxAddrReg p (beAt frame 0 6)) 1 |> count64 (rxSizeReg p frame.length) 1

/-- A good frame with EtherType 0x8808 (R343). -/
def macControl (p : Nat) (b : Bytes) (s : State) : State :=
  let op := beAt b 14 2
  if op = 1 then s |> count64 (Reg.CNT_PORT_RX_PAUSE_LO p) 1 |> pauseRx p (beAt b 16 2)
  else if op = 0x101 then
    s |> count64 (Reg.CNT_PORT_RX_PFC_LO p) 1
      |> pfcRx p (BitVec.ofNat 8 (beAt b 16 2)) ((List.range 8).map (fun k => BitVec.ofNat 16 (beAt b (18 + 2 * k) 2)))
  else count64 (Reg.CNT_PORT_RX_CTRL_BAD_LO p) 1 s

/-! ### LLDP (R350, R352) -/

/-- The Receive Tw of the EEE TLV of an LLDPDU (the TLV of IEEE 802.3 Clause 79, OUI 00-12-0F, subtype 5); none without
one. -/
def eeeTlv : Nat → Bytes → Option (BitVec 16)
  | 0, _ => none
  | n + 1, b =>
    let h := beAt b 0 2
    let len := h % 512
    if b.length < 2 + len ∨ h / 512 = 0 then none
    else if h / 512 = 127 ∧ slice b 2 4 = [0x00, 0x12, 0x0F, 0x05] ∧ 8 ≤ len then some (BitVec.ofNat 16 (beAt b 8 2))
    else eeeTlv n (b.drop (2 + len))

/-- LLDP_RECEIVE (R350, R352): at most one frame a second is taken, with its stamp (R360); an EEE TLV makes the wake time
negotiated. -/
def lldpReceive (p : Nat) (rxTw : Option (BitVec 16)) (s : State) : State :=
  let x := port p s
  let recent := match x.lldpAt with
    | some c => decide (s.cycle - c < 10 ^ 9)
    | none => false
  if !rbit (Reg.PORT_EEE_CFG p) 30 s ∨ !x.link ∨ inDip s then s
  else if recent then count (Reg.CNT_PORT_LLDP_DROP p) s
  else
    let s := modPort p (fun x => { x with lldpAt := some s.cycle, supStamp := rxStamp p s }) s
    match rxTw with
    | none => s
    | some tw =>
      modPort p (fun x => { x with
        eeeNeg := true, partRxTw := tw.toNat, twTx := max tw.toNat (rfld (Reg.PORT_EEE_CFG p) 7 0 s) }) s

/-- LLDP_SEND (R350): the LLDPDU is a frame sent. What else than the EEE TLV it carries is open, and with it its length, from
64 bytes to MAX_FRAME. -/
def lldpSend (p : Nat) (s : State) : State :=
  if rbit (Reg.PORT_EEE_CFG p) 30 s ∧ supMaySend p s then
    s |> supSends p (64 + Config.freeNat s.free % (maxFrame p s - 63)) (.lldp p (rfld (Reg.PORT_EEE_CFG p) 15 8 s) (port p s).twTx)
      |> nextFree
  else s

/-- A write of PORT_EEE_CFG: IDLE_US 0 is ignored; LLDP_EN written 0 loses the negotiation. -/
def eeeCfgWrite (p : Nat) (v : Word) (s : State) : State :=
  let idle := if fld v 25 16 = 0 then rfld (Reg.PORT_EEE_CFG p) 25 16 s else fld v 25 16
  s |> setReg (Reg.PORT_EEE_CFG p) (putFld (v &&& 0xC3FFFFFF) 25 16 idle) |> when' (!bitOf v 30) (loseEee p)

/-- Whether a good frame is an LLDPDU the supervisor takes. -/
def isLldp (p : Nat) (b : Bytes) (s : State) : Bool :=
  rbit (Reg.PORT_EEE_CFG p) 30 s && beAt b 0 6 == 0x0180C200000E && beAt b 12 2 == 0x88CC

/-- A frame presented to a pipeline (R457, R458): one whose domain is not ON is woken, and the MAC holds what 16 µs at the
port's rate bring; a frame beyond that is dropped and counted. A frame the MAC has dropped reaches only a pipeline that is ON,
on the express path (R341, R342). -/
def presentFrame (p : Nat) (f : InFrame) (s : State) : State :=
  let n := p / 128
  if domState n s = .on then storeIngress n f s
  else if f.bad then s
  else
    let held := (((ingressOf n s).filter (fun g => !g.line && g.src == p)).map (fun g => g.bytes.length + 4)).sum
    if held + f.bytes.length + 4 > 2000 * portRate p s then count Reg.CNT_PWR_WAKE_DROP s
    else s |> pushIngress n f |> wakeDomain n

/-- MAC_RX_FRAME at a port that is up (R341 to R343): `frame` with its FCS. A frame with a fault goes on to the pipeline
only as one that may already be leaving on the express path. -/
def macRx (p : Nat) (frame : Bytes) (codeErr : Bool) (s : State) : State :=
  let b := frame.take (frame.length - 4)
  match rxFault p frame codeErr s with
  | some c =>
    let s := count64 c 1 s
    if frame.length > 128 then
      presentFrame p { bytes := b, line := false, src := p, stamp := rxStamp p s, bad := true, tubs := [] } s
    else s
  | none =>
    let s := s |> countRx p frame |> noteActivity p
    if beAt b 12 2 = 0x8808 then macControl p b s
    else if isLldp p b s then lldpReceive p (eeeTlv 64 (b.drop 14)) s
    else presentFrame p { bytes := b, line := false, src := p, stamp := rxStamp p s, bad := false, tubs := [] } s

/-- A frame at a port that is up; in a dip episode it is dropped (R348). -/
def receive (p : Nat) (frame : Bytes) (codeErr : Bool) (s : State) : State :=
  if !(port p s).link then s else if inDip s then dropAtIngress s else macRx p frame codeErr s

/-- MAC_RX_FRAME: a frame given, or the next one a loopback returns to the port. In a dip episode frames are dropped and
no counter of the port moves (R348). -/
def macRxFrame (p : Nat) (frame : Option Bytes) (codeErr : Bool) (corr uncorr : Nat) (s : State) : State :=
  let s := when' ((port p s).mode == 4 && !inDip s)
    (fun s => s |> count64 (Reg.CNT_PORT_FEC_CORR_LO p) corr |> count64 (Reg.CNT_PORT_FEC_UNCORR_LO p) uncorr) s
  match frame with
  | some b => receive p b codeErr s
  | none =>
    match s.looped.find? (fun e => e.1 == p) with
    | none => s
    | some e =>
      let s := { s with looped := s.looped.erase e }
      receive p e.2 codeErr s

/-! ### Link and faults (R345 to R348) -/

/-- Whether a port's lanes let it come up: ACTIVE, not retired, shorted, open or in raw mode. -/
def lanesReady (p : Nat) (s : State) : Bool :=
  (portLanes p s).all (fun l => (lane l s).st == .active && !laneRetired l s && !(lane l s).short && !(lane l s).isOpen
    && !rbit (Reg.LANE_CFG l) 9 s)

/-- LINK_UP (R345): lock has lasted for 10 ms and no fault is present. -/
def linkUp (p : Nat) (s : State) : State :=
  let x := port p s
  if !x.link ∧ x.mode ≠ 0 ∧ !underBlock p s ∧ lanesReady p s ∧ !x.locFault ∧ !x.remFault ∧ !inDip s then
    s |> modPort p (fun x => { x with link := true }) |> portLinkEvent p true
  else s

/-- LINK_DOWN (R345, R348). -/
def linkDown (p : Nat) (s : State) : State :=
  if (port p s).link ∧ !inDip s then portDown p (Reg.CNT_PORT_LINK_DROP p) s else s

/-- LOCAL_FAULT (R346): a fault appears or goes; the sublayer signals remote fault while it detects a local one. -/
def localFault (p : Nat) (remote present : Bool) (s : State) : State :=
  let x := port p s
  if 2 ≤ x.mode then
    let x := if remote then { x with remFault := present } else { x with locFault := present }
    s |> setPort p x |> emit (.portSignal p (if x.locFault then 1 else if x.remFault then 2 else 0))
  else s

/-! ### Energy-efficient idle (R349 to R351) -/

/-- Whether a port is to assert LPI (R349), its IDLE_US having passed; a shed port with a negotiated wake time always is. -/
def lpiWanted (p : Nat) (s : State) : Bool :=
  let x := port p s
  x.link && decide (2 ≤ x.mode) && x.eeeNeg && !inDip s &&
    (portShed p s || (rbit (Reg.PORT_EEE_CFG p) 31 s && portEmpty p s && decide ((sched p s).busyTo ≤ s.cycle)
      && !rbit (Reg.SCHED_PORT_CFG p) 31 s && !circuitPort p s))

/-- LPI_ENTER (R349). -/
def lpiEnter (p : Nat) (s : State) : State :=
  if lpiWanted p s ∧ !(port p s).lpiTx then
    s |> modPort p (fun x => { x with lpiTx := true, lpiTxAt := s.cycle }) |> count64 (Reg.CNT_PORT_TX_LPI_ENTRY_LO p) 1
      |> emit (.lpi p true)
  else s

/-- LPI_EXIT as a step of its own (R351): a port in LPI whose conditions hold no longer deasserts it; an admission does so
at once (`lpiExit`). -/
def lpiLeave (p : Nat) (s : State) : State := if (port p s).lpiTx ∧ !lpiWanted p s then lpiDrop p s else s

/-- PARTNER_LPI (R351): shown and counted only. -/
def partnerLpi (p : Nat) (enter : Bool) (s : State) : State :=
  let x := port p s
  if x.mode < 2 ∨ !x.link ∨ x.lpiRx = enter then s
  else if enter then
    s |> setPort p { x with lpiRx := true, lpiRxAt := s.cycle } |> when' (!inDip s) (count64 (Reg.CNT_PORT_RX_LPI_ENTRY_LO p) 1)
  else lpiRxEnd p s

/-- PORT_STATUS: MODE_ACT reads 0 on a port one of whose lanes is retired (R382). -/
def portStatus (l : Nat) (s : State) : Word :=
  let x := port l s
  let p := portOfLane l s
  let act := if (portLanes p s).any (fun k => laneRetired k s) then 0 else laneMode l s
  word (at' 28 x.err + at' 16 act + at' 7 (b2n x.eeeNeg) + at' 6 (b2n x.lpiRx) + at' 5 (b2n x.lpiTx)
    + at' 4 (b2n (portShed l s)) + at' 3 (b2n x.remFault) + at' 2 (b2n x.locFault) + b2n x.link)

/-! ### MDIO (R353 to R356) -/

/-- A bus. -/
def mdioBus (g : Nat) (s : State) : MdioState := tget (fun _ => MdioState.reset) s.mdio g

/-- Put a bus. -/
def setMdio (g : Nat) (x : MdioState) (s : State) : State :=
  { s with mdio := tput (fun _ => MdioState.reset) g x s.mdio }

/-- The registers of a slot. -/
def mdioCmd (g slot : Nat) : Nat := Reg.PORT_MDIO_CMD g slot
def mdioArg (g slot : Nat) : Nat := Reg.PORT_MDIO_ARG g slot

/-- The OP that waits in a slot; 0 for none. -/
def mdioOp (g slot : Nat) (s : State) : Nat := tget (fun _ => 0) (mdioBus g s).op slot

/-- Whether a slot refuses a write (R354): it is busy, or the write comes from the other slot's source. -/
def mdioRefuses (g slot : Nat) (src : Source) (s : State) : Bool := (slot == 0) != (src == .sup) || mdioOp g slot s != 0

/-- A write of PORT_MDIO_ARG. -/
def mdioArgWrite (g slot : Nat) (src : Source) (v : Word) (s : State) : State :=
  if mdioRefuses g slot src s then count (Reg.CNT_MDIO_REFUSED g) s else setReg (mdioArg g slot) v s

/-- A write of PORT_MDIO_CMD (R354): one refused is counted; OP 0 and 7 start nothing. -/
def mdioStart (g slot : Nat) (src : Source) (v : Word) (s : State) : State :=
  if mdioRefuses g slot src s then count (Reg.CNT_MDIO_REFUSED g) s
  else
    let op := fld v 18 16
    let s := setReg (mdioCmd g slot) (v &&& 0x3FF) s
    if op = 0 ∨ op = 7 then s
    else setMdio g { mdioBus g s with op := tput (fun _ => 0) slot op (mdioBus g s).op } s

/-- The slot whose command the bus takes next: alternately, slot 0 first (R355). -/
def mdioNext (g : Nat) (s : State) : Option Nat :=
  let first := 1 - (mdioBus g s).last
  if mdioOp g first s ≠ 0 then some first else if mdioOp g (1 - first) s ≠ 0 then some (1 - first) else none

/-- The frames of the command in a slot, and its end. `answer` is what the PHY drives on a read; without the turnaround
ERR is 1 and RDATA 0xFFFF (R356). Clause 45 operation bits: 0 address, 1 write, 3 read, 2 read with increment. -/
def mdioFrames (g slot : Nat) (answer : Option (BitVec 16)) (s : State) : State :=
  let op := mdioOp g slot s
  let cmd := reg (mdioCmd g slot) s
  let arg := reg (mdioArg g slot) s
  let div := rfld (Reg.PORT_MDIO_CFG g) 7 0 s
  let preamble := !rbit (Reg.PORT_MDIO_CFG g) 8 s
  let out (bits : Nat) (d : Option Nat) := emitLand (19 + g) (.mdio g div preamble bits (fld cmd 9 5) (fld cmd 4 0) d)
  let reads := op = 3 ∨ op = 4 ∨ op = 6
  let s := when' (op == 1 || op == 5 || op == 6) (out 0 (some (fld arg 31 16))) s
  let s := when' (op == 2 || op == 5) (out 1 (some (fld arg 15 0))) s
  let s := when' (op == 3 || op == 6) (out 3 none) s
  let s := when' (op == 4) (out 2 none) s
  let x := mdioBus g s
  let x := { x with op := tput (fun _ => 0) slot 0 x.op, last := slot }
  if reads then
    match answer with
    | some v => setMdio g { x with
        err := tput (fun _ => false) slot false x.err, rdata := tput (fun _ => 0) slot v.toNat x.rdata } s
    | none => setMdio g { x with
        err := tput (fun _ => false) slot true x.err, rdata := tput (fun _ => 0) slot 0xFFFF x.rdata } s
  else setMdio g x s

/-- The bus at a slot's turn: the frames of the command in it go out, where it is operation `op`; PD_SUP drives the bus
(R353). -/
def mdioTurn (op g : Nat) (answer : Option (BitVec 16)) (s : State) : State :=
  if domState 18 s ≠ .on then s
  else match mdioNext g s with
    | some slot => if mdioOp g slot s = op then mdioFrames g slot answer s else s
    | none => s

/-- PORT_MDIO_CMD as it reads. -/
def mdioCmdView (g slot : Nat) (s : State) : Word :=
  word (at' 31 (b2n (mdioOp g slot s != 0)) + at' 30 (b2n (tget (fun _ => false) (mdioBus g s).err slot)))
    ||| reg (mdioCmd g slot) s

end Sys2Proof.Machine
end

