-- ==== Sys2Proof/Machine/Prot.lean ====
section
/-! DEFINITION. The line sides, protection and the canary (R403 to R422, R506). -/
namespace Sys2Proof.Machine

/-- Change the protection state. -/
def modProt (f : ProtState → ProtState) (s : State) : State := { s with prot := f s.prot }

/-- The cold side. -/
def coldSide (s : State) : Nat := 1 - s.prot.active.val

/-- A side by number. -/
def sideOf (n : Nat) : Fin 2 := if n = 0 then 0 else 1

/-! ### A side's domain and optic -/

/-- The optic of a side is asked for or released from low-power mode, its transmit lanes disabled or not (R404, R419). -/
def setOptic (side : Nat) (low txOff : Bool) (s : State) : State :=
  if rbit (Reg.GEN_OPTIC side) 0 s ∧ (low ∨ rbit (Reg.GEN_OPTIC side) 4 s) then
    let put (x : OpticState) : OpticState := { x with txDisabled := txOff }
    let s := if side = 0 then { s with land := { s.land with opticA := put s.land.opticA } }
      else { s with land := { s.land with opticB := put s.land.opticB } }
    s |> setRfld (Reg.GEN_OPTIC side) 2 2 (b2n low) |> emit (.cmisAccess side (.lowPower low))
      |> emit (.cmisAccess side (.txDisable txOff))
  else s

/-- SIDE_DOMAIN_UP (R92, R111, R365): a side's domain comes up; no seam of it is eligible to fail yet (R415). -/
def sideDomainUp (side : Nat) (s : State) : State :=
  if domState (lineDomain side) s = .on then s
  else
    s |> setDom (lineDomain side) .on |> each [0, 1, 2, 3] (seamUp side) |> laneDomainUp (lineDomain side)

/-- Whether a side's domain is kept ON in the ladder state in force (R17, R451): the active side's while it is voted for, the
cold side's while CANARY, PROT or HOST holds its vote; not while a Domain reset holds it. -/
def sideKept (side : Nat) (s : State) : Bool :=
  domTarget s.pwr.ladder (lineDomain side) s == .on && !s.boot.domActive.getLsbD (lineDomain side)

/-- SIDE_DOMAIN_UP: the domain of a side that is to be ON has come up. -/
def sideUpRow (side : Nat) (s : State) : State := when' (sideKept side s) (sideDomainUp side) s

/-- SIDE_DOMAIN_DOWN (R92): every defect of the side clears; the identities of the active side lose the line. -/
def sideDomainDown (side : Nat) (s : State) : State :=
  if domState (lineDomain side) s = .off then s
  else
    let before := (lowestSync side s).isSome
    s |> setDom (lineDomain side) .off |> each [0, 1, 2, 3] (seamDown side) |> laneDomainDown (lineDomain side)
      |> noteLineLost side before
      |> when' (side == activeSide s) (modProt (fun x => { x with failed := false }))

/-- A side that nothing keeps on begins to go OFF (R456). -/
def dropCold (side : Nat) (s : State) : State :=
  let d := lineDomain side
  if side ≠ activeSide s ∧ !coldKept d s ∧ domState d s ≠ .off then setDom d .entering s else s

/-! ### Health words (R412, R418) -/

/-- The health word of a side without AGE_S. -/
def health (side : Nat) (s : State) : Word := if side = 0 then s.prot.healthA else s.prot.healthB

/-- Put the health word of a side. -/
def setHealth (side : Nat) (v : Word) (s : State) : State :=
  modProt (fun x => if side = 0 then { x with healthA := v } else { x with healthB := v }) s

/-- PROT_HEALTH_s: with the seconds since the last completed run. -/
def healthView (side : Nat) (s : State) : Word :=
  let age := match (if side = 0 then s.prot.ranA else s.prot.ranB) with
    | some c => min ((s.cycle - c) / 10 ^ 9) 0xFFFF
    | none => 0
  putFld (health side s) 15 0 age

/-- Whether the cold side is eligible (R416). -/
def coldEligible (s : State) : Bool := fld (health (coldSide s) s) 31 30 != 2

/-- Whether the active side is failed (R415, R506). -/
def sideFailed (s : State) : Bool := s.prot.marked || (s.prot.failed && anySeamFailed s)

/-- The failed seams of the active side, as bits. -/
def failedSeams (s : State) : Nat := ((failedSeamList s).map (fun n => 2 ^ n)).sum

/-- The health word of a side that fails (R418): RESULT 2, ACQ_OK cleared for the failed seams. -/
def leftHealth (s : State) : State :=
  let side := activeSide s
  let h := health side s
  let acq := fld h 23 20
  setHealth side (putFld (putFld h 31 30 2) 23 20 (acq - (acq &&& failedSeams s))) s

/-! ### The canary (R408 to R414) -/

/-- The test fields of a side's lanes as a run sets them in its first step (R409). -/
def canaryFields (side : Nat) (s : State) : State :=
  each [0, 1, 2, 3] (fun n s => s |> setReg (Reg.LANE_CFG (lineRx side n)) 0xA1 |> setReg (Reg.LANE_CFG (lineTx side n)) 0x90
    |> modLane (lineRx side n) (fun x => { x with prbsLock := false, prbsSeen := false, prbsErr := 0 })) s

/-- Whether a lane of a side has RAW, LOOP or PRBS set. -/
def sideTested (side : Nat) (s : State) : Bool := (sideLanes side).any (fun l => testSet l s)

/-- The test fields of a side cleared. -/
def clearSideTest (side : Nat) (s : State) : State :=
  each ((sideLanes side).filter (fun l => testSet l s)) clearTest s

/-- The conditions of R413. -/
def canarySkips (s : State) : Bool :=
  decide (1 < s.pwr.ladder) || inDip s || sideTested (coldSide s) s
    || (sideLanes (coldSide s)).all (fun l => laneRetired l s) || s.sched.phi == 0

/-- CANARY_RUN (R408, R409, R413): a due run is made, or skipped; a skip is counted once and retried. -/
def canaryRun (s : State) : State :=
  let side := coldSide s
  if !rbit Reg.PROT_CTRL 3 s ∨ s.prot.canary.isSome ∨ s.prot.switching.isSome then s
  else if canarySkips s then
    if s.prot.retry then s
    else s |> modProt (fun x => { x with retry := true }) |> setHealth side (health side s ||| word (at' 28 1))
      |> count Reg.CNT_CANARY_SKIP
  else
    s |> modProt (fun x => { x with retry := false, canary := some (sideOf side), canaryAt := s.cycle, canaryPrbs := none })
      |> setVotes 8 (2 ^ lineDomain side) |> raiseVoted
      |> canaryFields side |> setOptic side false true |> emit (.cmisAccess side (.readPages true [0x11]))

/-- A run skipped is retried at the next tick at which none of the conditions of R413 holds. -/
def canaryRetry (s : State) : State := when' (s.prot.retry && !canarySkips s) canaryRun s

/-- The seams of a side whose checker has locked and counted at most 10 errors (R409 step 2), as bits. -/
def prbsPassed (side : Nat) (s : State) : Nat :=
  (([0, 1, 2, 3].filter (fun n => (lane (lineRx side n) s).prbsSeen && decide ((lane (lineRx side n) s).prbsErr ≤ 10))).map
    (fun n => 2 ^ n)).sum

/-- Step 3 of a run (R409), 11 ms after its start: the PRBS check is over, the test fields are cleared and the receive lanes
retrain at line rate. -/
def canaryStep3 (s : State) : State :=
  match s.prot.canary with
  | none => s
  | some side =>
    if s.prot.canaryPrbs.isSome ∨ s.cycle < s.prot.canaryAt + 11000000 then s
    else s |> modProt (fun x => { x with canaryPrbs := some (prbsPassed side.val s) }) |> clearSideTest side.val

/-- The run's vote is withdrawn and the optic returned to low-power mode. -/
def canaryWithdraw (side : Nat) (s : State) : State := s |> setVotes 8 0 |> setOptic side true true |> dropCold side

/-- The run is over. -/
def canaryEnd (side : Nat) (s : State) : State :=
  s |> clearSideTest side |> modProt (fun x => { x with canary := none }) |> canaryWithdraw side

/-- CANARY_ABORT (R414): the run in progress is aborted; its previous result stands. The side stays powered until the next
decision, from which a switch goes on. -/
def canaryAbort (s : State) : State :=
  match s.prot.canary with
  | none => s
  | some side => s |> setHealth side.val (health side.val s ||| word (at' 29 1)) |> clearSideTest side.val
      |> modProt (fun x => { x with canary := none })

/-- The vote of an aborted run is withdrawn where no switch has been decided. -/
def canaryLeave (s : State) : State :=
  if s.prot.decided.isNone ∧ s.prot.canary.isNone ∧ votesOf 8 s ≠ 0 then canaryWithdraw (coldSide s) s else s

/-- The HEID saved for a side: of the first identity with a saved registration on it. -/
def sideHeid (side : Nat) (s : State) : Option Nat :=
  (allIdents.find? (fun i => savedValid side i s)).map (fun i => savedHeid side i s)

/-- Whether a seam of the cold side passes acquisition (R410). -/
def acqOk (side n : Nat) (s : State) : Bool := inSync side n s && fcNear (seam side n s).fc s.tick.count

/-- Whether wait-to-restore may run (R422). -/
def wtrRuns (s : State) : Bool :=
  rbit Reg.PROT_CTRL 1 s && s.prot.active.val != rfld Reg.PROT_CTRL 0 0 s && s.prot.req != 1 && s.prot.req != 2
    && s.prot.req != 4

/-- What a run's outcome does to wait-to-restore (R422). -/
def noteWtr (side : Nat) (pass : Bool) (s : State) : State :=
  if wtrRuns s ∧ side = rfld Reg.PROT_CTRL 0 0 s ∧ pass then
    modProt (fun x => { x with
      wtrStart := if x.wtrStart.isSome then x.wtrStart else some s.cycle, wtrPasses := x.wtrPasses + 1 }) s
  else modProt (fun x => { x with wtrStart := none, wtrPasses := 0 }) s

/-- EV_CANARY (R409 to R412): the run ends and is judged. An unanswered CMIS read is an event of fault source OPTIC. -/
def canaryDone (o : CanaryOptic) (s : State) : State :=
  match s.prot.canary with
  | none => s
  | some c =>
    let side := c.val
    let seams := [0, 1, 2, 3]
    let passed := s.prot.canaryPrbs.getD (prbsPassed side s)
    let prbs (n : Nat) : Bool := passed / 2 ^ n % 2 == 1
    let bits (f : Nat → Bool) : Nat := (seams.map (fun n => if f n then 2 ^ n else 0)).sum
    let optic := o.present && o.answered && o.pathActive && !o.alarm && rbit (Reg.GEN_OPTIC side) 4 s
    let stale := (seams.filter (fun n => acqOk side n s)).find? (fun n =>
      match sideHeid side s with
      | some h => h != (seam side n s).heid.toNat
      | none => false)
    let pass := seams.all (fun n => !rbit Reg.PROT_CTRL (4 + n) s || (prbs n && acqOk side n s)) && optic
    let w := word (at' 30 (if pass then 1 else 2) + at' 24 (bits prbs) + at' 20 (bits (fun n => acqOk side n s))
      + at' 19 (b2n o.present) + at' 18 (b2n optic) + at' 17 (b2n !o.answered) + at' 16 (b2n stale.isSome))
    let s := match stale with
      | some n => event 0x0D04 ([BitVec.ofNat 8 side] ++ beBytes 2 ((sideHeid side s).getD 0) ++ beBytes 2 (seam side n s).heid.toNat) s
      | none => s
    s |> setHealth side w
      |> modProt (fun x => if side = 0 then { x with ranA := some s.cycle } else { x with ranB := some s.cycle })
      |> event 0x0D05 ([BitVec.ofNat 8 side] ++ beBytes 4 w.toNat)
      |> count Reg.CNT_CANARY_RUN |> when' (!pass) (count Reg.CNT_CANARY_FAIL) |> when' (!o.answered) (noteFault 6 side)
      |> noteWtr side pass |> canaryEnd side

/-! ### Failure of the active side (R415) -/

/-- SEAM_ELIGIBLE: the seam's time since the domain came up has passed. Entering SYNC makes a seam eligible too. -/
def seamEligible (n : Nat) (s : State) : State :=
  if domState (lineDomain (activeSide s)) s = .on then defects (activeSide s) n (fun x => { x with eligible := true }) s else s

/-- SIDE_FAILED: a failed seam has stayed failed for HOLD_MS. It is a switch trigger (R414). -/
def sideFails (s : State) : State :=
  if anySeamFailed s then s |> modProt (fun x => { x with failed := true }) |> canaryAbort else s

/-! ### Requests (R417) -/

/-- The rank of a command. -/
def rankOf (c : Nat) : Nat := if c = 3 then 1 else if c = 2 then 2 else 4

/-- A request overridden by a higher one (R417). -/
def denyRequest (kept denied : Nat) (s : State) : State :=
  s |> count Reg.CNT_PROT_DENIED |> supEvent 0x0D03 [BitVec.ofNat 8 kept, BitVec.ofNat 8 denied]

/-- A command of PROT_CMD: refused during Lockout unless it is Clear, which overrides Manual and Forced; Manual is refused
while it could not switch; otherwise it waits for the next tick's decision. -/
def protCommand (c : Nat) (s : State) : State :=
  if s.prot.req = 1 ∧ c ≠ 4 then
    s |> modProt (fun x => { x with err := 2 }) |> when' (c != 3) (denyRequest 1 (rankOf c)) |> canaryAbort
  else if c = 1 ∧ (!coldEligible s ∨ sideFailed s) then s |> modProt (fun x => { x with err := 1 }) |> canaryAbort
  else s |> canaryAbort |> modProt (fun x => { x with cmds := x.cmds ++ [c] })

/-- Commands in order, Clear removing what came before: the request left in force and the requests newly present. -/
def takeCmds : List Nat → Nat → List Nat → Nat × List Nat
  | [], req, new => (req, new)
  | c :: cs, req, new =>
    if c = 4 then takeCmds cs (if req = 1 ∨ req = 2 ∨ req = 4 then 0 else req) []
    else takeCmds cs req (new ++ [rankOf c])

/-- The decision of a tick (R417, R421, R422): none while a switch is in progress, in a dip episode or during the firedamp
trip. A signal failure that cannot decide is denied once per episode. -/
def protDecide (s : State) : State :=
  if s.prot.switching.isSome ∨ s.prot.decided.isSome ∨ inDip s ∨ s.pwr.firedamp then s
  else
    let (req, new) := takeCmds s.prot.cmds s.prot.req []
    let new := new.filter (fun r => r != 4 || (coldEligible s && !sideFailed s))
    let sf := rbit Reg.PROT_CTRL 2 s && sideFailed s
    let cand := new ++ (if sf && coldEligible s then [3] else []) ++ (if s.prot.wtrDue && wtrRuns s then [5] else [])
    let held := if req = 1 ∨ req = 2 ∨ req = 4 then [req] else []
    let best := (cand ++ held).foldl min 6
    let lost := (cand.filter (fun r => r != best && !(r == 3 && s.prot.denied))) ++ (held.filter (fun r => r != best))
    let s := modProt (fun x => { x with cmds := [], wtrDue := false }) s
    let s := each lost (denyRequest best) s
    let alone := sf && !coldEligible s
    let s := if alone && !s.prot.denied then supEvent 0x0D03 [BitVec.ofNat 8 req, 3] s else s
    let s := modProt (fun x => { x with denied := sf && (alone || best != 3) }) s
    let kept := if best = 1 ∨ best = 2 ∨ best = 4 then best else 0
    s |> modProt (fun x => { x with
      req := kept, decided := if cand.contains best && best != 1 then some best else none })
      |> (fun s => when' (!wtrRuns s) (modProt (fun x => { x with wtrStart := none, wtrPasses := 0 })) s)
      |> noteUnfailed |> canaryLeave

/-- WAIT_TO_RESTORE_EXPIRY (R422): not before a second passing run. -/
def wtrExpiry (s : State) : State :=
  if wtrRuns s ∧ s.prot.wtrStart.isSome ∧ 2 ≤ s.prot.wtrPasses then modProt (fun x => { x with wtrDue := true }) s else s

/-! ### The switch (R419, R420) -/

/-- An identity of the old side is parked (R144): its registration is saved where it holds a TN, its line work stops. -/
def parkIdent (side i : Nat) (s : State) : State :=
  let x := ident i s
  if x.phase = .expelled then s
  else
    s |> when' x.tn.isSome (saveReg side i) |> bondVoidAll i
      |> setIdent i { Identity.reset with phase := x.phase } |> changeState i .parked .head s.tick.count.toNat

/-- Continuations of the old side are discarded and counted, and tally frames are discarded (R226, R305). -/
def dropOldSends (s : State) : State :=
  each s.sched.aqs (fun e s =>
    let x := allocQ e.1 s
    s |> freeFrames 8 x.tally |> setAllocQ e.1 { x with cont := none, tally := [] }
      |> when' x.cont.isSome (count (Reg.CNT_AQ_DROP e.1))) s

/-- PROTECTION_SWITCH (R419 steps 1 and 2, R385, R414, R418): the decided switch begins; the stamps of frames are gone
(R401). -/
def protSwitch (s : State) : State :=
  match s.prot.decided with
  | none => s
  | some req =>
    if inDip s ∨ s.prot.switching.isSome then s
    else
      let old := activeSide s
      let new := coldSide s
      let running := s.prot.canary.isSome
      let s := when' (req == 3) leftHealth s
      let s := when' running (fun s => s |> setHealth new (health new s ||| word (at' 29 1))
        |> modProt (fun x => { x with canary := none })) s
      let s := when' (sideTested new s) (fun s => s |> clearSideTest new |> when' (!running) (event 0x0B04 [BitVec.ofNat 8 new])) s
      let s := s |> each allIdents (parkIdent old) |> dropOldSends
      let s := { s with join := { s.join with
        bursts := s.join.bursts.filter (fun b => b.side != old), lmms := s.join.lmms.filter (fun m => m.side != old) } }
      let s := { s with seams := tmap (fun _ => SeamState.reset) (fun x => { x with stamps := [] }) s.seams }
      s |> modProt (fun x => { x with
            active := sideOf new, failed := false, marked := false, denied := false, decided := none,
            wtrStart := none, wtrPasses := 0, switching := some { req := req, tick := s.tick.count, cycle := s.cycle } })
        |> setVotes 8 0 |> setVotes 5 (2 ^ 15 + 2 ^ 16) |> raiseVoted
        |> setOptic new false false |> loadEpochs new |> circSwitch

/-- PROT_LAST_SWITCH. -/
def noteSwitch (r : SwitchRun) (failed : Bool) (s : State) : State :=
  modProt (fun x => { x with
    lastSwitch := word (at' 29 r.req + at' 28 (b2n failed) + min ((s.cycle - r.cycle) / 10000) 0xFFFF), switching := none }) s

/-- The old side goes down: its domain has only the votes that keep a cold side. -/
def oldSideDown (s : State) : State :=
  let old := coldSide s
  s |> setVotes 5 (2 ^ lineDomain (activeSide s)) |> setOptic old true true
    |> (fun s => when' (!coldKept (lineDomain old) s) (sideDomainDown old) s)

/-- EV_PROT_SWITCH (R419 steps 3 and 4): a seam of the new side is in SYNC. -/
def switchDone (s : State) : State :=
  match s.prot.switching with
  | none => s
  | some r =>
    if (lowestSync (activeSide s) s).isNone then s
    else
      s |> event 0x0D01 ([BitVec.ofNat 8 r.req, BitVec.ofNat 8 (coldSide s), BitVec.ofNat 8 (activeSide s)]
            ++ beBytes 4 ((s.cycle - r.cycle) / 1000))
        |> count Reg.CNT_PROT_SWITCH |> noteSwitch r false |> oldSideDown
        |> each allIdents (startIdent .switch s.tick.count.toNat)
        |> (fun s => lineFound (activeSide s) ((lowestSync (activeSide s) s).getD 0) s)

/-- EV_PROT_SWITCH_FAIL (R420): no seam of the new side is in SYNC in time; the former side returns only after a passing
canary run. -/
def switchFail (s : State) : State :=
  match s.prot.switching with
  | none => s
  | some r =>
    if (lowestSync (activeSide s) s).isSome then s
    else
      s |> event 0x0D02 [BitVec.ofNat 8 r.req, BitVec.ofNat 8 (coldSide s), BitVec.ofNat 8 (activeSide s)]
        |> count Reg.CNT_PROT_SWITCH_FAIL |> noteSwitch r true
        |> setHealth (coldSide s) (putFld (health (coldSide s) s) 31 30 2) |> oldSideDown
        |> each allIdents (startIdent .switch s.tick.count.toNat)

/-- The seconds left of wait-to-restore. -/
def wtrLeft (s : State) : Nat :=
  match s.prot.wtrStart with
  | none => 0
  | some c =>
    let due := c + rfld Reg.PROT_WTR 11 0 s * 10 ^ 9
    if s.cycle < due then (due - s.cycle + 10 ^ 9 - 1) / 10 ^ 9 else 0

/-- PROT_STATUS: REQ shows the request in force, that of a switch in progress, a signal failure that may switch, or
wait-to-restore. -/
def protStatus (s : State) : Word :=
  let req := if s.prot.req ≠ 0 then s.prot.req
    else match s.prot.switching with
      | some r => r.req
      | none => if sideFailed s && rbit Reg.PROT_CTRL 2 s then 3 else if s.prot.wtrStart.isSome then 5 else 0
  word (at' 16 (min (wtrLeft s) 0xFFFF) + at' 8 req + at' 4 (b2n s.prot.canary.isSome) + at' 3 (b2n s.prot.switching.isSome)
    + at' 2 (b2n (sideFailed s)) + s.prot.active.val)

end Sys2Proof.Machine
end

