-- ==== Sys2Proof/Machine/Gov.lean ====
section
/-! DEFINITION. The thermal governor: the allowance of a tick and its payment, the shed list, the weighted plan, and the
firedamp trip (R300 to R304, R464 to R472). Energies are in picojoules. -/
namespace Sys2Proof.Machine

/-- Change the power controller's state. -/
def modPwr (f : PwrState → PwrState) (s : State) : State := { s with pwr := f s.pwr }

/-- A register of temperatures in °C + 64, as the field shows it. -/
def tempField (t : Int) : Nat := (t + 64).toNat % 256

/-- P_cap × 125 µs. -/
def capPj (s : State) : Nat := rfld Reg.PWR_GOV_CAP 15 0 s * 15625000

/-- 250 W × 125 µs. -/
def fullPj : Nat := 31250000000

/-- P_th × 125 µs (R464): 250 W without a measurement. -/
def thermalPj (powerMw : Option Nat) (tj : Int) (s : State) : Nat :=
  match powerMw with
  | none => fullPj
  | some p =>
    let k := rfld Reg.PWR_GOV_THERM 15 0 s
    let target : Int := rfld Reg.PWR_GOV_THERM 31 24 s
    min fullPj ((p : Int) * 125000 + k * 7812500 * (target - tj)).toNat

/-- The highest of some readings, with the lowest-numbered sensor that gives it. -/
def hottest : Nat → List Int → Nat × Int → Nat × Int
  | _, [], best => best
  | n, t :: ts, best => hottest (n + 1) ts (if best.2 < t then (n, t) else best)

/-- TJ and the sensor that gives it. -/
def junctionMax (l : List Int) : Nat × Int :=
  match l with
  | [] => (0, -64)
  | t :: ts => hottest 1 ts (0, t)

/-! ### The forecast (R465, R466) -/

/-- Whether a port group is in LPI: a port of it is up, and every one that is up asserts LPI. -/
def groupLpi (g : Nat) (s : State) : Bool :=
  let up := s.ports.filter (fun e => e.1 / 64 == g && e.2.link)
  up != [] && up.all (fun e => e.2.lpiTx)

/-- The blocks shed in a port group. -/
def shedIn (g : Nat) (s : State) : Nat := ((List.range 16).filter (fun b => s.pwr.shedBlocks.getLsbD (16 * g + b))).length

/-- What a domain adds to E_fix; one that wakes or is being entered counts as ON. -/
def domFix (d : Nat) (s : State) : Nat :=
  let on := rfld (Reg.PWR_DOM_EFIX d) 15 0 s
  let low := rfld (Reg.PWR_DOM_EFIX d) 31 16 s
  match domState d s with
  | .ret => 0
  | .off => 0
  | .gated => low * 1000000
  | _ =>
    if 7 ≤ d ∧ d ≤ 14 then
      if groupLpi (d - 7) s then low * 1000000 else on * 1000000 - shedIn (d - 7) s * ((on - low) * 62500)
    else on * 1000000

/-- E_fix. -/
def fixPj (s : State) : Nat := ((List.range 23).map (fun d => domFix d s)).sum

/-- Bytes of the payloads of HELD slots. -/
def heldBytes (s : State) : Nat := (((usedSlotsOf s).filter (fun e => e.2.st == .held)).map (fun e => e.2.payload.length)).sum

/-- The bytes of a continuation of a promised sub-queue or of the tally tier. -/
def strictCont (x : AllocQueue) : Nat :=
  match x.cont with
  | some c => if c.weighted then 0 else c.rest.length
  | none => 0

/-- The energy of the backlog of lanes, strict queues, promised sub-queues and tally tiers, continuations included. -/
def strictBacklogPj (s : State) : Nat :=
  let frame (f : QFrame) : Nat := frameL f.bytes * portCoef f.line s
  let ports := s.sched.ports.map (fun e =>
    ((e.2.consign ++ e.2.circ).map frame).sum
      + (e.2.queues.map (fun q => if isStrict e.2.strict q.1 then (q.2.frames.map frame).sum else 0)).sum)
  let e1 := rfld (Reg.PWR_EPB 1) 15 0 s
  let aqs := s.sched.aqs.map (fun e =>
    (strictCont e.2 + lineBytes e.2.tally
      + (e.2.subs.map (fun q => if promised e.1 q.1 s then lineBytes q.2 else 0)).sum) * e1)
  ports.sum + aqs.sum

/-- Items 1 to 4 of R466. -/
def promisedPj (s : State) : Nat :=
  fixPj s + Config.forecastHeld (heldBytes s) + (activeCircuits s).length * rfld (Reg.PWR_EPB 6) 15 0 s * 1000
    + Config.forecastStrict s.sched.prevStrictPj (strictBacklogPj s)

/-! ### Shedding (R304, R467, R468) -/

/-- Whether a block stands on the shed list. -/
def onShedList (b : Nat) (s : State) : Bool := rbit (Reg.PWR_SHED (b / 32)) (b % 32) s

/-- The ports of a block: its four lanes, or in 100G mode the lowest alone, the others' registers being ignored (R269). -/
def blockPorts (b : Nat) (s : State) : List Nat :=
  if (port (4 * b) s).mode = 4 then [4 * b] else [4 * b, 4 * b + 1, 4 * b + 2, 4 * b + 3]

/-- Whether R304 skips a block. -/
def shedSkips (b : Nat) (s : State) : Bool :=
  (blockPorts b s).any (fun p => (sched p s).strict != 0 || circuitPort p s || tallyPort p s)

/-- A listed block is shed, or skipped and counted once in the episode. -/
def shedBlock (b : Nat) (s : State) : State :=
  if s.pwr.shedBlocks.getLsbD b then s
  else if shedSkips b s then
    if s.sched.shedSkipped.contains b then s
    else { s with sched := { s.sched with shedSkipped := b :: s.sched.shedSkipped } } |> count Reg.CNT_SCHED_SHED_SKIP
  else
    s |> modPwr (fun x => { x with shedBlocks := x.shedBlocks ||| BitVec.ofNat 128 (2 ^ b) })
      |> each [4 * b, 4 * b + 1, 4 * b + 2, 4 * b + 3] lpiEnter

/-- Every block on the shed list. -/
def shedAll (s : State) : State := each ((List.range 128).filter (fun b => onShedList b s)) shedBlock s

/-- SHED_END (R468): PHI has been 1,024 for TICKS ticks in a row. -/
def shedEnd (s : State) : State :=
  if rfld Reg.PWR_GOV_HYST 15 0 s ≤ s.pwr.phiFullTicks then
    let blocks := (List.range 128).filter (fun b => s.pwr.shedBlocks.getLsbD b)
    { s with sched := { s.sched with shedSkipped := [] }, pwr := { s.pwr with shedBlocks := 0 } }
      |> each (blocks.flatMap (fun b => [4 * b, 4 * b + 1, 4 * b + 2, 4 * b + 3])) lpiLeave
  else s

/-! ### The grant (R23, R24, R464, R466, R467) -/

/-- Pay the items in order from an allowance; where GOV is late the acceptance budget of the tick before applies again (R24,
R212). -/
def payTick (late : Bool) (a : Nat) (s : State) : State :=
  let short := decide (a < promisedPj s)
  let s := when' (short || (s.sched.phi == 0 && s.pwr.shedBlocks != 0)) shedAll s
  let prom := promisedPj s
  let excess := prom - a
  let coef := rfld (Reg.PWR_EPB 5) 15 0 s
  let accept := if short || s.pwr.firedamp then 0 else if late then s.pwr.acceptBytes else if coef = 0 then 49600 else min 49600 ((a - prom) / coef)
  let first := decide (0 < excess) && !s.pwr.overdraft
  s |> modPwr (fun x => { x with
        usedAllowPj := a, promPj := prom, shortfall := short, overdraft := decide (0 < excess), overPj := excess,
        acceptBytes := accept, remainPj := if short then 0 else a - prom - accept * coef })
    |> when' (decide (0 < excess)) (count Reg.CNT_GOV_OVERDRAFT)
    |> when' first (event 0x0F04 (beBytes 4 (a / 1000000) ++ beBytes 4 (prom / 1000000) ++ beBytes 6 s.tick.count.toNat))

/-- GOV_GRANT: the allowance of a tick. Where GOV overruns, SCHED works on the lower of the previous tick's allowance and the
cap, and the grant is shown once it is complete. -/
def govGrant (i : TickInputs) (s : State) : State :=
  let (sensor, tj) := junctionMax i.junction
  let cap := capPj s
  let th := thermalPj i.powerMw tj s
  let a := min cap th
  let prev := s.pwr.usedAllowPj
  let s := modPwr (fun x => { x with
    tj := tj, tjSensor := sensor, caseTemp := i.caseTemp,
    limitThermal := if i.govLate then x.limitThermal else decide (th < cap),
    lateAllowPj := if i.govLate then some a else none, lateLimit := decide (th < cap), shownAllowPj := if i.govLate then x.shownAllowPj else a }) s
  payTick i.govLate (if i.govLate then min prev cap else a) s

/-- GOV_LATE_COMPLETE (R23, R25): the late grant is shown, and used for nothing. -/
def govLate (s : State) : State :=
  match s.pwr.lateAllowPj with
  | some a => modPwr (fun x => { x with shownAllowPj := a, limitThermal := x.lateLimit, lateAllowPj := none }) s
  | none => s

/-! ### The plan (R300 to R302) -/

/-- E_wd: the energy of the weighted demand. -/
def weightedPj (s : State) : Nat :=
  (s.sched.ports.map (fun e => e.2.edgePj)).sum
    + (s.sched.aqs.map (fun e => e.2.edgeDemand * rfld (Reg.PWR_EPB 1) 15 0 s)).sum

/-- E_w: the allowance left, below zero in a shortfall. -/
def leftPj (s : State) : Int := if s.pwr.shortfall then (s.pwr.usedAllowPj : Int) - s.pwr.promPj else s.pwr.remainPj

/-- PHI (R300); 0 in a shortfall (R467). -/
def phiOf (ew : Int) (ewd : Nat) (short : Bool) : Nat :=
  if short then 0 else if ewd = 0 then 1024 else if ew ≤ 0 then 0 else min 1024 (1024 * ew.toNat / ewd)

/-- The caps of this tick: formed from PHI, the demands at the tick edge and the overshoot of the tick before (R302). -/
def formCaps (s : State) : State :=
  s |> each (s.sched.ports.map Prod.fst) (fun p s =>
      modSched p (fun x => { x with capDemand := x.edgeDemand, capOver := x.edgeOver }) s)
    |> each (s.sched.aqs.map Prod.fst) (fun a s =>
      let x := allocQ a s
      setAllocQ a { x with capDemand := x.edgeDemand, capOver := x.edgeOver } s)

/-- SCHED_PLAN: the plan of this tick is written and takes effect (R300, R302). -/
def schedPlan (s : State) : State :=
  let s := settleExc s
  let ewd := weightedPj s
  let ew := leftPj s
  formCaps { s with sched := { s.sched with phi := phiOf ew ewd s.pwr.shortfall, prev := false, eW := ew, eWd := ewd } }

/-- At a tick edge: how many ticks PHI has been 1,024, and the plan in force is the previous one until the next is
written. -/
def planEdge (s : State) : State :=
  { s with sched := { s.sched with prev := true },
           pwr := { s.pwr with phiFullTicks := if s.sched.phi = 1024 then s.pwr.phiFullTicks + 1 else 0 } }

/-! ### Views -/

/-- PWR_GOV_ALLOW, PWR_GOV_STATUS, PWR_TEMP, SCHED_PLAN and SCHED_PLAN_E. -/
def govAllowView (s : State) : Word := word (at' 16 (s.pwr.shownAllowPj / 1000000) + satTo 16 (s.pwr.promPj / 1000000))
def govStatusView (s : State) : Word :=
  word (at' 31 (b2n s.pwr.overdraft) + at' 30 (b2n (s.pwr.shedBlocks != 0)) + at' 29 (b2n s.pwr.limitThermal)
    + satTo 16 (s.pwr.overPj / 1000000))
def tempView (s : State) : Word := word (at' 24 (tempField s.pwr.tj) + at' 20 s.pwr.tjSensor)
def planView (s : State) : Word := word (at' 31 (b2n s.sched.prev) + s.sched.phi)
def planEView (s : State) : Word :=
  word (at' 16 (satTo 16 (s.sched.eWd / 1000000)) + satTo 16 (s.sched.eW.toNat / 1000000))

end Sys2Proof.Machine
end

