-- ==== Sys2Proof/Machine/Steps.lean ====
section
/-! DEFINITION. The ladder and the domains as they move (R445 to R463, R470 to R472), and the votes the terminal's own
clients place (R455). -/
namespace Sys2Proof.Machine

/-! ### Votes (R455) -/

/-- A number with the bits of some domains. -/
def domBits (ds : List Nat) : Nat := ds.foldl (fun a d => a ||| 2 ^ d) 0

/-- The port groups with a port not in MODE 0, as domains. -/
def groupsInUse (s : State) : List Nat :=
  (List.range 8).filterMap (fun g => if s.ports.any (fun e => e.1 / 64 == g && e.2.mode != 0) then some (7 + g) else none)

/-- Whether a window is scanned for some source (R251). -/
def matchInUse (s : State) : Bool :=
  (List.range 512).any (fun p => winLen false p s != 0 && (port p s).mode != 0)
    || allIdents.any (fun i => winLen true i s != 0 && rbit (Reg.JOIN_ID_CFG i) 0 s)

/-- The ladder state the terminal is in or moving to. -/
def goalState (s : State) : Nat := s.pwr.exitTo.getD (s.pwr.entry.getD s.pwr.ladder)

/-- The supervisor's votes: the domains with tick work, PD_MATCH, and port groups in use, in L0 and L1 and on the way there;
none while the terminal enters L2 or deeper or is there (R29, R455). No rule names a client for PD_CIPH (6), whose work
R22 does not list although lines need it: DESIGN CHOICE, the supervisor votes for it with them (log entry 39). -/
def supVotes (s : State) : Nat :=
  if 2 ≤ goalState s then 0
  else domBits ([0, 1, 2, 3, 4, 6, 17, 18, lineDomain s.prot.active.val] ++ groupsInUse s)
    ||| (if matchInUse s then 2 ^ 5 else 0)

/-- SCHED's votes: a queue holds frames; frames are held in DRAM. -/
def schedVotes (s : State) : Nat :=
  let ports := (s.sched.ports.filter (fun e => e.2.consign != [] || e.2.circ != [] || e.2.queues.any (fun q => q.2.frames != []))).map
    (fun e => 7 + e.1 / 64)
  let lines := s.sched.aqs.any (fun e => e.2.cont.isSome || e.2.tally != [] || e.2.subs.any (fun q => q.2 != []))
  let dram := s.sched.ports.any (fun e => e.2.queues.any (fun q => q.2.frames.any (fun f => f.dram.isSome)))
    || s.sched.aqs.any (fun e => e.2.subs.any (fun q => q.2.any (fun f => f.dram.isSome)))
  domBits ports ||| (if ports != [] || lines then 2 ^ 4 else 0) ||| (if dram then 2 ^ 21 else 0)

/-- TALLY's votes: a slot is PENDING or HELD. -/
def tallyVotes (s : State) : Nat := if (usedSlotsOf s).any (fun e => inHand e.2.st) then 2 ^ 17 + 2 ^ 4 else 0

/-- TIME's votes. -/
def timeVotes (s : State) : Nat :=
  let keep := rbit Reg.PWR_LADDER_CTRL 30 s && (rbit Reg.TIME_CTRL 10 s || rbit Reg.TIME_CTRL 11 s)
  if keep || s.regs.any (fun e => decide (Reg.TIME_PTP_PORT 0 ≤ e.1) && decide (e.1 ≤ Reg.TIME_PTP_PORT 511) && fld e.2 10 8 == 2) then 2 ^ 18 else 0

/-- PROT's votes: both sides during a switch; else the active side's line domain, which the shallowest doze state lets go only
in L3, outside the time in which the side is to be up (R155). -/
def protVotes (s : State) : Nat :=
  if s.prot.switching.isSome then 2 ^ 15 + 2 ^ 16
  else if shallowestDoze s = 3 ∧ !lineDue s then 0 else 2 ^ lineDomain s.prot.active.val

/-- CHAIN's votes. -/
def chainVotes (s : State) : Nat := if rbit Reg.PWR_LADDER_CTRL 31 s then 2 ^ 20 + 2 ^ 18 else 0

/-- Every client that votes by what the terminal does. -/
def refreshVotes (s : State) : State :=
  s |> (fun s => setVotes 1 (supVotes s) s) |> (fun s => setVotes 2 (schedVotes s) s) |> (fun s => setVotes 3 (tallyVotes s) s)
    |> (fun s => setVotes 4 (timeVotes s) s) |> (fun s => setVotes 5 (protVotes s) s) |> (fun s => setVotes 7 (chainVotes s) s)
    |> raiseVoted

/-! ### The target (R446) -/

/-- Whether the terminal is idle: local ports down, in LPI or shed, queues empty, no winder channel in RUN. -/
def idleNow (s : State) : Bool :=
  s.ports.all (fun e => !e.2.link || e.2.lpiTx || portShed e.1 s)
    && s.sched.ports.all (fun e => portEmpty e.1 s) && s.sched.aqs.all (fun e => backlog e.1 s == 0)
    && s.wnd.chans.all (fun e => e.2.phase != .run)

/-- At a tick edge: how long the terminal has been idle. -/
def noteIdle (s : State) : State := modPwr (fun x => { x with idleUs := if idleNow s then x.idleUs + 125 else 0 }) s

/-- Compute T (R446); the votes of WAKE last until an evaluation in a tick in which no source fired (R455). -/
def evaluateTarget (s : State) : State :=
  let t := ladderTarget (shallowestDoze s) (rfld Reg.PWR_LADDER_CTRL 15 0 s ≤ s.pwr.idleUs) s
  let fired := s.pwr.wake
  s |> modPwr (fun x => { x with target := t, wake := false }) |> when' (!fired) (setVotes 9 0) |> refreshVotes

/-! ### What a domain's change brings -/

/-- A domain is ON after having been without power: its lanes train, a side's seams search (R92, R365). -/
def domainCameUp (d : Nat) (s : State) : State :=
  if d = 15 ∨ d = 16 then sideDomainUp (d - 15) s
  else if (7 ≤ d ∧ d ≤ 14) ∨ d = 20 then s |> setDom d .on |> laneDomainUp d
  else setDom d .on s

/-- The up ports of a port group. -/
def groupPorts (g : Nat) (s : State) : List Nat := (s.ports.filter (fun e => e.1 / 64 == g && e.2.link)).map Prod.fst

/-- A domain is OFF: its outputs are clamped (R453). -/
def domainWentOff (d : Nat) (s : State) : State :=
  if d = 15 ∨ d = 16 then sideDomainDown (d - 15) s
  else if 7 ≤ d ∧ d ≤ 14 then
    s |> setDom d .off |> each (groupPorts (d - 7) s) (fun p s => portDown p (Reg.CNT_PORT_LINK_DROP p) s) |> laneDomainDown d
  else if d = 20 then s |> setDom d .off |> chainLeave 0 |> chainLeave 1 |> laneDomainDown d
  else if d = 19 then s |> setDom d .off |> hostDown
  else setDom d .off s

/-- A domain reaches a state; one held in a Domain reset stays OFF until it is reloaded (R576). -/
def reachDom (d : Nat) (x : DomState) (s : State) : State :=
  let was := domState d s
  if s.boot.domActive.getLsbD d then s
  else match x with
  | .off => if was = .off then s else domainWentOff d s
  | .on => if was = .on then s else if was = .gated ∨ was = .ret then setDom d .on s else domainCameUp d s
  | _ => setDom d x s

/-! ### Ladder transitions (R447, R448, R459 to R463) -/

/-- Whether a transition of the ladder is in progress. -/
def ladderMoving (s : State) : Bool := s.pwr.entry.isSome || s.pwr.exitTo.isSome

/-- Whether a refused target waits (R459): it is tried again when a vote has changed, otherwise once per second. -/
def refusalHolds (s : State) : Bool :=
  match s.pwr.lastRefusal with
  | none => false
  | some c => decide (s.cycle - c < 10 ^ 9) && s.pwr.refusedVotes == (List.range 10).map (fun k => votesOf k s)

/-- The steps of an entry to ladder state `t` (R459); the firedamp trip overrides every vote (R471). -/
def beginEntry (t : Nat) (s : State) : State :=
  modPwr (fun x => { x with entry := some t, before := x.dom, heldTarget := none }) s
    |> each (changedDomains t s) (fun d s => setDom d .entering s)

/-- The supervisor orders an entry to ladder state `t`: for L2 or deeper it withdraws its votes (R455). -/
def orderEntry (t : Nat) (s : State) : State :=
  if 2 ≤ t then s |> modPwr (fun x => { x with supSaved := BitVec.ofNat 23 (votesOf 1 s) }) |> setVotes 1 0 else s

/-- The checks of an entry that has been ordered (R448, R459): a refused one leaves SUP's votes placed again (R29). -/
def judgeEntry (t : Nat) (s : State) : State :=
  if t = 4 ∧ 85 < s.pwr.caseTemp then s |> refuseEntry 4 (changedDomains 4 s) false (fun _ => 6) 0 |> refreshVotes
  else
    let doms := refusingDomains t s
    if doms != [] then s |> refuseEntry t doms false (fun d => (lowestVoter d s).getD 0) 0 |> refreshVotes
    else beginEntry t s

/-- LADDER_ENTRY (R447, R448, R459, R461): an entry to T where it is deeper than the present state. -/
def ladderEntry (s : State) : State :=
  let s := refreshVotes s
  let t := s.pwr.target
  if t ≤ s.pwr.ladder then s
  else if ladderMoving s then modPwr (fun x => { x with heldTarget := some t }) s
  else
    let o := orderEntry t s
    if s.pwr.firedamp then beginEntry t o else if refusalHolds o then s else judgeEntry t o

/-- LADDER_EXIT (R447): an exit to T where it is shallower; it is never refused. -/
def ladderExit (s : State) : State :=
  let s := refreshVotes s
  let t := s.pwr.target
  if s.pwr.ladder ≤ t then s
  else if ladderMoving s then modPwr (fun x => { x with heldTarget := some t }) s
  else
    let s := s |> modPwr (fun x => { x with exitTo := some t, heldTarget := none }) |> refreshVotes
    each ((changedDomains t s).filter (fun d => domTarget t d s == .on)) (fun d s => setDom d .waking s) s

/-- The client whose vote, wake or refusal moved the state, 0xFF where idle time alone did (EV_LADDER). -/
def ladderCause (old new : Nat) (s : State) : Nat :=
  if s.pwr.firedamp then 6
  else match s.pwr.wakeClient with
    | some c => c
    | none => if old < new ∧ new ≤ 1 then 0xFF else if old < new then 1 else ((List.range 10).find? (fun c => votesOf c s != 0)).getD 0xFF

/-- The terminal is in ladder state `t`: the votes are those of that state, domains and lanes take their states, and terminal
time comes back from the AON counter (R63 note (a), R387). In L0 with no trip the promises hold again (R33); in a dip
episode the shed stands (R64, R67). -/
def reachLadder (t cause : Nat) (s : State) : State :=
  let old := s.pwr.ladder
  let s := s |> modPwr (fun x => { x with
    ladder := t, entry := none, exitTo := none, before := [], wakeClient := none,
    suspended := x.suspended && (x.firedamp || t != 0) }) |> refreshVotes
  let s := when' (3 ≤ old && t < 3) resumeFromAon s
  s |> each (List.range 22) (fun d s => reachDom d (domTarget t d s) s) |> when' (loadShed s) gateShed
    |> lanesLadder t |> ladderEvent old t cause

/-- A request held during a transition is evaluated at its end (R461). -/
def evaluateHeld (s : State) : State :=
  match s.pwr.heldTarget with
  | none => s
  | some t =>
    let s := modPwr (fun x => { x with heldTarget := none, target := if x.firedamp then max 3 t else t }) s
    if s.pwr.ladder < s.pwr.target then ladderEntry s else ladderExit s

/-- POWER_TRANSITION_COMPLETE of the ladder. -/
def ladderComplete (s : State) : State :=
  match s.pwr.exitTo, s.pwr.entry with
  | some t, _ => s |> reachLadder t (ladderCause s.pwr.ladder t s) |> evaluateHeld
  | none, some t => s |> reachLadder t (ladderCause s.pwr.ladder t s) |> evaluateHeld
  | none, none => s

/-- Whether a domain that has woken is gated at once: the shed of R64 stands, and no access waits for it. -/
def shedHolds (d : Nat) (s : State) : Bool :=
  inDip s && shedDomains.contains d && s.pwr.stalled.all (fun x => x.domain != d)

/-- POWER_TRANSITION_COMPLETE of a domain (R456, R461): one that wakes is ON; one that was to go OFF is, unless a vote keeps
it. -/
def domainComplete (d : Nat) (s : State) : State :=
  if d = 22 ∨ s.boot.domActive.getLsbD d then s
  else if domState d s = .waking then s |> domainCameUp d |> when' (shedHolds d s) (setDom d .gated)
  else if domState d s = .entering ∧ s.pwr.entry.isNone then
    reachDom d (domTarget s.pwr.ladder d s) s
  else s

/-- A drop held while a domain woke (R456, R461): in L0 or L1 it begins to go OFF if no vote stands once its accesses have
been performed. -/
def heldDrop (d : Nat) (s : State) : State :=
  let s := refreshVotes s
  if s.pwr.ladder ≤ 1 ∧ domState d s = .on ∧ domTarget s.pwr.ladder d s = .off then setDom d .entering s else s

/-- L4_OVERTEMP (R448): the case temperature rises above 85 °C in L4. -/
def l4Overtemp (t : Int) (s : State) : State :=
  let s := modPwr (fun x => { x with caseTemp := t }) s
  if s.pwr.ladder = 4 ∧ 85 < t then reachLadder 3 6 s else s

/-- A supply warning takes precedence over a ladder transition (R67): it is recorded as refused by GOV, and the domains stand
as the ladder state in force has them. -/
def refuseMoving (s : State) : State :=
  match s.pwr.entry with
  | some t =>
    let s := refuseEntry t (changedDomains t s) false (fun _ => 6) 0 s
    s |> modPwr (fun x => { x with entry := none, dom := x.before, before := [], heldTarget := none }) |> refreshVotes
  | none =>
    match s.pwr.exitTo with
    | some t =>
      let woke := (List.range 22).filter (fun d => domState d s == .waking && domTarget s.pwr.ladder d s != .on)
      s |> refuseEntry t (changedDomains t s) false (fun _ => 6) 0
        |> modPwr (fun x => { x with exitTo := none, heldTarget := none }) |> refreshVotes
        |> each woke (fun d s => setDom d (domTarget s.pwr.ladder d s) s)
    | none => s

/-- The load is shed as the supply warning takes effect (R64, R67). -/
def dipLadder (s : State) : State := s |> refuseMoving |> gateShed

/-! ### Wakes (R449, R455, R156) -/


/-- WAKE_TIMER_EXPIRY: source 1, PWR_WAKE_TIMER having reached 0. -/
def wakeTimer (s : State) : State :=
  if reg Reg.PWR_WAKE_TIMER s = 0 then s else s |> setReg Reg.PWR_WAKE_TIMER 0 |> wakeFires 1 none

/-- PWR_WAKE_TIMER as it reads: the milliseconds left. -/
def wakeTimerView (s : State) : Word :=
  word ((reg Reg.PWR_WAKE_TIMER s).toNat - (s.cycle - s.pwr.wakeSet) / 1000000)

/-- HOST_VOTE_WRITE (R405, R455, R456): a domain that loses its last vote begins to go OFF, one that gains its first wakes. -/
def hostVoteWrite (v : Word) (s : State) : State :=
  let old := votesOf 0 s
  let s := setReg (Reg.PWR_VOTE 0) (v &&& 0x7FFFFF) s |> raiseVoted
  each ((List.range 22).filter (fun d => old / 2 ^ d % 2 == 1 && !votesFor 0 d s)) (fun d s =>
    if coldDomain d s then dropCold (d - 15) s else if voted d s then s else domainDrop d false s) s

/-! ### The firedamp trip (R470 to R472) -/

/-- The first sensor at or above 150 °C in two consecutive samples. -/
def tripSensor (first second : List Int) : Option Nat :=
  ((first.zip second).zipIdx.find? (fun e => decide (150 ≤ e.1.1) && decide (150 ≤ e.1.2))).map (fun e => e.2)

/-- EV_FIREDAMP (R470, R471). -/
def firedampTrip (first second : List Int) (s : State) : State :=
  match tripSensor first second with
  | none => s
  | some k =>
    if s.pwr.firedamp then s
    else
      let s := modPwr (fun x => { x with
        firedamp := true, suspended := true, overTemp := k, target := max 3 x.target, wake := false, acceptBytes := 0 }) s |> gateShed
      let s := { s with tally := { s.tally with left := 0, leftCount := 0 } }
      let s := s |> count Reg.CNT_FIREDAMP |> event 0x0F05 [1, BitVec.ofNat 8 k, BitVec.ofNat 8 (tempField ((second[k]?).getD 0))]
      if s.pwr.ladder = 4 then s else ladderEntry s

/-- FIREDAMP_CLEAR (R472): every sensor has stayed below RESUME_C. -/
def firedampClear (highest : Int) (s : State) : State :=
  if s.pwr.firedamp ∧ highest < (rfld Reg.PWR_FIREDAMP 31 24 s : Int) then
    let s := s |> modPwr (fun x => { x with firedamp := false, suspended := x.ladder != 0 || x.entry.isSome })
      |> event 0x0F05 [0, BitVec.ofNat 8 s.pwr.overTemp, BitVec.ofNat 8 (tempField highest)]
    s |> when' (!loadShed s) ungateShed |> evaluateTarget |> ladderExit
  else s

/-! ### Views -/

/-- PWR_LADDER_STATUS. -/
def ladderView (s : State) : Word :=
  word (at' 29 s.pwr.ladder + at' 26 s.pwr.target + at' 25 (b2n s.pwr.firedamp) + at' 24 (b2n (ladderMoving s))
    + at' 23 (b2n s.pwr.heldTarget.isSome) + at' 8 s.pwr.lastWake + tempField s.pwr.caseTemp)

/-- Whether a request for a domain is held until its transition completes (R461): a drop while it wakes, a vote while it
goes OFF. -/
def domHeld (d : Nat) (s : State) : Bool :=
  d != 22 && decide (s.pwr.ladder ≤ 1)
    && ((domState d s == .waking && domTarget s.pwr.ladder d s == .off)
      || (domState d s == .entering && s.pwr.entry.isNone && domTarget s.pwr.ladder d s != .off))

/-- PWR_DOM_STATUS_d. -/
def domView (d : Nat) (s : State) : Word :=
  let st := match domState d s with
    | .off => 0
    | .ret => 1
    | .gated => 2
    | .on => 3
    | .waking => 4
    | .entering => 5
  word (at' 29 st + at' 28 (b2n (domHeld d s)) + voterBits d s)

/-- PWR_VOTE_c: bit 22 reads 1. -/
def voteView (c : Nat) (s : State) : Word := word (votesOf c s) ||| 0x400000

end Sys2Proof.Machine
end

