-- ==== Sys2Proof/Machine/Faults.lean ====
section
/-! DEFINITION. The fault windows (R503 to R508) and the actions of a lasting fault. -/
namespace Sys2Proof.Machine

/-- Change the assay unit's state. -/
def modAssay (f : AssayState → AssayState) (s : State) : State := { s with assay := f s.assay }

/-! ### Predictions as the windows use them (R500, R503) -/

/-- The prediction of an instance of a class, in tenths of a year: 100 years before any run. -/
def predicted (k i : Nat) (s : State) : Nat := tget (fun _ => 1000) s.assay.predict (k * 65536 + i)

/-- The instances of a class that have a prediction below 100 years, with it. -/
def predictions (k : Nat) (s : State) : List (Nat × Nat) :=
  (s.assay.predict.filter (fun e => e.1 / 65536 == k)).map (fun e => (e.1 % 65536, e.2))

/-- The worst of some predictions, the lowest instance first; instance 0 at 100 years for none. -/
def worstOf : List (Nat × Nat) → Nat × Nat
  | [] => (0, 1000)
  | (i, y) :: l => let r := worstOf l; if y ≤ r.2 then (i, y) else r

/-- The worst instance of a class and its prediction (ASSAY_PREDICT_k). -/
def worstInstance (k : Nat) (s : State) : Nat × Nat := worstOf (predictions k s)

/-- The prediction that governs an instance of a fault source (R503); 100 years where the table names none. -/
def governing (src inst : Nat) (s : State) : Nat :=
  if src = 0 ∨ src = 1 ∨ src = 7 ∨ src = 8 then (worstInstance 0 s).2
  else if src = 3 then predicted 3 inst s
  else if src = 4 then
    (if isLocalLane inst ∨ (isLineRx inst ∧ laneSide inst = activeSide s) then predicted 1 inst s else 1000)
  else if src = 5 then predicted 1 (lineRx (activeSide s) inst) s
  else if src = 6 then (if inst = activeSide s then (worstInstance 2 s).2 else 1000)
  else 1000

/-- The effective threshold (R503): halved, rounded up, while the prediction is below LOW_YEARS. -/
def effectiveThreshold (src inst : Nat) (s : State) : Nat :=
  let t := rfld (Reg.ASSAY_FW_CFG src) 31 24 s
  if governing src inst s < 10 * rfld Reg.ASSAY_CTRL 23 16 s then (t + 1) / 2 else t

/-! ### Actions (R504 to R506) -/

/-- A die is declared failed (R484): recorded, flagged on the survivor; every later access is the survivor's. -/
def failDie (d : Nat) (s : State) : State :=
  event 0x1001 [BitVec.ofNat 8 d] { s with keep := { s.keep with failedDie := some (if d = 0 then 0 else 1) } }
    |> keepWrite 35 (word (2 ^ d))

/-- A package is declared failed (R321): every frame held in DRAM is discarded and counted, and spilling stops. -/
def failPackage (k : Nat) (s : State) : State :=
  s |> discardDram |> modAssay (fun x => { x with ddrFailed := x.ddrFailed ||| BitVec.ofNat 4 (2 ^ k) })

/-- The bank stops giving tubs until it is remapped (R505). -/
def drainBank (b : Nat) (s : State) : State := modAssay (fun x => { x with draining := b :: x.draining }) s

/-- A side switch marks the active side failed at once and gives it its health word (R506). -/
def markSide (s : State) : State := s |> modProt (fun x => { x with marked := true }) |> leftHealth

/-- The action of a declaration, with its code (R504, R508). -/
def faultAction (src inst : Nat) (s : State) : Nat × State :=
  if src ≤ 1 then
    if s.assay.draining.length < s.assay.sramSpares then (1, drainBank inst s) else (2, drainBank inst s)
  else if src = 2 then (3, failPackage inst s)
  else if src = 3 then (if s.keep.failedDie.isSome then (8, s) else (4, failDie inst s))
  else if src = 4 then (5, laneRetire inst true s)
  else if src = 5 then (6, markSide s)
  else if src = 6 then
    if inst = activeSide s then (6, markSide s)
    else (7, setHealth inst (putFld (health inst s) 31 30 2) s)
  else (0, s)

/-- Whether the action of an instance is still in progress (R508): a bank that drains or is retired, a side marked or
switching, a die or a package already failed. -/
def actionBusy (src inst : Nat) (s : State) : Bool :=
  if src ≤ 1 then bankClosed (1024 * inst) s
  else if src = 2 then s.assay.ddrFailed.getLsbD inst
  else if src = 3 then decide (s.keep.failedDie.map Fin.val = some inst)
  else if src = 5 then s.prot.marked || s.prot.switching.isSome
  else if src = 6 then decide (inst = activeSide s) && (s.prot.marked || s.prot.switching.isSome)
  else false

/-- The window in force of a source, in cycles. -/
def windowCycles (src : Nat) (s : State) : Nat := rfld (Reg.ASSAY_FW_CFG src) 15 0 s * 10 ^ 9

/-- A fault window not yet begun. -/
def noWindow (_ : Nat) : FaultWindow := { count := 0, start := 0 }

/-- Count one event of an instance (R503); answers whether it declares a lasting fault. -/
def countFault (src inst : Nat) (s : State) : Bool × State :=
  let k := src * 65536 + inst
  let w := tget noWindow s.assay.windows k
  let w : FaultWindow := if w.count = 0 ∨ windowCycles src s ≤ s.cycle - w.start then { count := 1, start := s.cycle }
    else { w with count := w.count + 1 }
  let declared := decide (effectiveThreshold src inst s ≤ w.count) && !actionBusy src inst s
  let w' := if declared then noWindow 0 else w
  (declared, modAssay (fun x => { x with windows := tput noWindow k w' x.windows }) s)

/-- A declaration (R507): the source's bit, the action, the record and the count. -/
def declareFault (src inst : Nat) (s : State) : State :=
  if actionBusy src inst s then s
  else
    let t := effectiveThreshold src inst s
    let (code, s) := faultAction src inst s
    s |> setReg Reg.ASSAY_FAULT (reg Reg.ASSAY_FAULT s ||| word (2 ^ src))
      |> count Reg.CNT_FW_DECLARED
      |> supEvent 0x1204 ([BitVec.ofNat 8 src, BitVec.ofNat 8 t] ++ beBytes 2 inst
          ++ beBytes 2 (rfld (Reg.ASSAY_FW_CFG src) 15 0 s) ++ [BitVec.ofNat 8 code, 0] ++ beBytes 6 s.tick.count.toNat)

/-- Count events in order; answers the declarations. -/
def countFaults : List (Nat × Nat) → State → List (Nat × Nat) × State
  | [], s => ([], s)
  | e :: l, s =>
    let (d, s) := countFault e.1 e.2 s
    let (r, s) := countFaults l s
    (if d then e :: r else r, s)

/-- The order of declarations of one cycle: ascending source code, then instance (R508). -/
def faultBefore (a b : Nat × Nat) : Bool := a.1 * 65536 + a.2 ≤ b.1 * 65536 + b.2

/-- The fault events of a step are counted, and what they declare takes its action; an action's own events follow. -/
def settleRounds : Nat → State → State
  | 0, s => s
  | n + 1, s =>
    if s.assay.faultsIn = [] then s
    else
      let l := s.assay.faultsIn
      let (d, s) := countFaults l (modAssay (fun x => { x with faultsIn := [] }) s)
      settleRounds n (each (sortBy faultBefore d) (fun e s => declareFault e.1 e.2 s) s)

/-- The end of every step: its fault events are counted (R503). -/
def settleFaults (s : State) : State := settleRounds 3 s

/-- The code of a fault source (R504). -/
def faultCode : FaultSource → Nat
  | .sramCe => 0
  | .sramUe => 1
  | .ddrUe => 2
  | .keepWr => 3
  | .lane => 4
  | .seam => 5
  | .optic => 6
  | .tick => 7
  | .margin => 8

/-- How many instances a source has (R504). -/
def faultInstances : FaultSource → Nat
  | .sramCe => 384
  | .sramUe => 384
  | .ddrUe => 4
  | .keepWr => 2
  | .lane => 532
  | .seam => 4
  | .optic => 2
  | .tick => 7
  | .margin => 1

/-- FAULT_EVENT (R503): an event of a source happens to an instance; a failed keep write is counted for its die. -/
def faultEvent (src : FaultSource) (inst : Nat) (s : State) : State :=
  if inst < faultInstances src then
    let s := if src = .keepWr then count (if inst = 0 then Reg.CNT_KEEP_WRITE_FAIL_A else Reg.CNT_KEEP_WRITE_FAIL_B) s else s
    noteFault (faultCode src) inst s
  else s

/-- Whether every tub with cells in a bank is free. -/
def bankEmpty (b : Nat) (s : State) : Bool :=
  s.tub.tags.all (fun e => e.2.free || decide (4 ≤ poolOf e.1)
    || !(decide (cellOf e.1 < 1024 * (b + 1)) && decide (1024 * b < cellOf e.1 + poolCells (poolOf e.1))))

/-- The banks that were declared before a draining bank and drain still: the spares left serve them first. -/
def drainingBefore (b : Nat) (s : State) : List Nat := (s.assay.draining.dropWhile (· != b)).drop 1

/-- BANK_REMAP (R505): a drained bank's cell numbers go to a spare bank, or leave their pool. -/
def bankRemap (b : Nat) (s : State) : State :=
  if s.assay.draining.contains b ∧ bankEmpty b s then
    let rest := s.assay.draining.filter (· != b)
    if (drainingBefore b s).length < s.assay.sramSpares then modAssay (fun x => { x with draining := rest, sramSpares := x.sramSpares - 1 }) s
    else modAssay (fun x => { x with draining := rest, lostBanks := b :: x.lostBanks }) s
  else s

/-- PHASE 5 of GEN_BOOT_STATUS, HELD under R57, or the lines FAULT_N follows (R507): whether FAULT_N is asserted. -/
def faultN (s : State) : Bool :=
  reg Reg.ASSAY_FAULT s != 0 || s.pwr.firedamp || s.boot.phase == .noImage || s.boot.lineRefHold

end Sys2Proof.Machine
end

