-- ==== Sys2Proof/Machine/Assay.lean ====
section
/-! DEFINITION. The assay run, its re-planning and its predictions (R493 to R501). -/
namespace Sys2Proof.Machine

/-! ### The run (R493, R508) -/

/-- ASSAY_RUN (R493, R508): a run that is due or asked for starts; in a dip episode or in L2 or deeper it is deferred. -/
def assayRun (requested : Bool) (s : State) : State :=
  if s.assay.running ∨ (!requested ∧ !rbit Reg.ASSAY_CTRL 31 s) then s
  else if inDip s ∨ 2 ≤ s.pwr.ladder then
    if s.assay.deferred then s else count Reg.CNT_ASSAY_DEFER (modAssay (fun x => { x with deferred := true }) s)
  else modAssay (fun x => { x with running := true, deferred := false, restart := false }) s

/-- A firedamp trip aborts a run; it restarts when the trip clears (R508). -/
def assayAbort (s : State) : State :=
  modAssay (fun x => if x.running then { x with running := false, aborted := true, restart := true } else x) s

/-- A run that a trip has aborted restarts (R508). -/
def assayRestart (s : State) : State := if s.assay.restart then assayRun true s else s

/-- ASSAY_CTRL written: RUN 1 starts one run (R493). -/
def assayCtrlWrite (v : Word) (s : State) : State := if bitOf v 30 then assayRun true s else s

/-! ### The supply target (R496, R497) -/

/-- The core supply target in millivolts (ASSAY_VCORE): the fused value until one is held. -/
def vcoreMv (s : State) : Nat :=
  if entryBlank 34 s then 715 + 5 * Config.vcoreStep.val else (keepValue 34 s).toNat

/-- Change the supply target, recorded with both values; slack follows at 4 ps per 5 mV (R496, R497). -/
def setVcore (mv : Nat) (s : State) : State :=
  let old := vcoreMv s
  s |> keepWrite 34 (word mv)
    |> modAssay (fun x => { x with slack := x.slack.map (fun v => v + 8 * ((mv : Int) - old)) })
    |> supEvent 0x1202 (beBytes 2 old ++ beBytes 2 mv)

/-- Whether S is known and below G. -/
def slackLow (s : State) : Bool :=
  match s.assay.slack with
  | some v => decide (v < (s.assay.guardTenths : Int))
  | none => false

/-- S below G with the target at 820 mV is an event of source MARGIN (R497). -/
def noteMargin (s : State) : State := if slackLow s ∧ 820 ≤ vcoreMv s then noteFault 8 0 s else s

/-- The tick edge (R497): one step up while S is below G; where the top is reached with S still below G, one event. -/
def vcoreEdge (s : State) : State :=
  if slackLow s ∧ vcoreMv s < 820 then
    setVcore (vcoreMv s + 5) s |> modAssay (fun x => { x with raisedAt := some s.tick.count }) |> noteMargin
  else s

/-- Whether a raise is due, or was made in this tick: it prevails over the lowering step of a run that ends in it (R508). -/
def raiseInTick (s : State) : Bool := (slackLow s && decide (vcoreMv s < 820)) || s.assay.raisedAt == some s.tick.count

/-- SLACK_SAMPLE (R497): S sampled between runs. -/
def slackSample (v : Int) (s : State) : State :=
  if s.assay.running then s else s |> modAssay (fun x => { x with slack := some v }) |> noteMargin

/-- The guard band G (R496) in tenths of a picosecond, for slack `v` at `mv` against the run before. -/
def guardBand (v : Int) (mv : Nat) (s : State) : Nat :=
  match s.assay.lastSlack with
  | none => 250
  | some v' => min 600 (250 + 2 * (v' + 8 * ((mv : Int) - s.assay.lastTarget) - v).toNat)

/-- At the end of a run the target falls by a step when S exceeds G + 15 ps (R497), unless a raise prevails (R508). -/
def lowerVcore (raise : Bool) (v : Int) (s : State) : State :=
  if raise then s
  else if (s.assay.guardTenths : Int) + 150 < v ∧ 715 < vcoreMv s then setVcore (vcoreMv s - 5) s else s

/-! ### Retrain period and laser power (R498, R499) -/

/-- The largest fall in eye opening since the run before, over the lanes measured in both. -/
def eyeFall (eyes : List (Fin 512 × Nat)) (s : State) : Nat :=
  eyes.foldl (fun a e => if s.assay.lastEye.any (fun x => x.1 == e.1.val) then
    max a (tget (fun _ => 0) s.assay.lastEye e.1.val - e.2) else a) 0

/-- LANE_RETRAIN.PERIOD_S from the largest fall (R498). -/
def planRetrain (eyes : List (Fin 512 × Nat)) (s : State) : State :=
  let f := eyeFall eyes s
  s |> setRfld Reg.LANE_RETRAIN 15 0 (if f ≤ 1 then 3600 else if f ≤ 3 then 900 else 300)
    |> modAssay (fun x => { x with lastEye := eyes.foldl (fun t e => tput (fun _ => 0) e.1.val e.2 t) x.lastEye })

/-- The optic of a side. -/
def optic (side : Nat) (s : State) : OpticState := if side = 0 then s.land.opticA else s.land.opticB

/-- Put the optic of a side. -/
def putOptic (side : Nat) (x : OpticState) (s : State) : State :=
  if side = 0 then { s with land := { s.land with opticA := x } } else { s with land := { s.land with opticB := x } }

/-- Whether a power is 0.5 dB or more below a baseline: the twentieth power of their ratio is a tenth or less. -/
def halfDbBelow (power base : Nat) : Bool := power ^ 20 * 10 ≤ base ^ 20

/-- EV_ASSAY_LASER. -/
def laserEvent (side n kind : Nat) (s : State) : State := supEvent 0x1203 [BitVec.ofNat 8 side, BitVec.ofNat 8 n, BitVec.ofNat 8 kind] s

/-- The element at an index of a list, 0 beyond its end. -/
def natAt (l : List Nat) (i : Nat) : Nat := (l[i]?).getD 0

/-- A transmit lane found 0.5 dB or more below its baseline (R499): 0.5 dB more is asked for, as far as the optic allows. -/
def laserLane (side n power : Nat) (s : State) : State :=
  if !halfDbBelow power (keepValue (2441 + 4 * side + n) s).toNat then s
  else
    let o := optic side s
    if !o.control then laserEvent side n 1 s
    else if o.maxSteps ≤ natAt o.requests n then laserEvent side n 2 s
    else
      let r := (List.range 4).map (fun i => natAt o.requests i + (if i = n then 1 else 0))
      s |> putOptic side { o with requests := r } |> emit (.cmisAccess side (.requestOutput n)) |> laserEvent side n 0

/-- The transmit lanes of the active side's optic (R499): a first run after its serial number appeared records baselines. -/
def planLaser (lanes : List (Fin 4 × Nat × Nat × Nat)) (s : State) : State :=
  let side := activeSide s
  if lanes = [] then s
  else if keepValue (2457 + side) s = (optic side s).serialCrc ∧ !entryBlank (2457 + side) s then
    each lanes (fun e s => laserLane side e.1.val e.2.1 s) s
  else
    each lanes (fun e s => s |> keepWrite (2441 + 4 * side + e.1.val) (word e.2.1)
      |> keepWrite (2449 + 4 * side + e.1.val) (word e.2.2.1)) (keepWrite (2457 + side) (optic side s).serialCrc s)

/-! ### Predictions (R500) -/

/-- The age in hours: the sum of ASSAY_HOURS. -/
def ageHours (s : State) : Nat := ((List.range 4).map (fun b => (keepValue (4 + b) s).toNat)).sum

/-- Tenths of a year left of a quantity with `left` between it and its limit, of which `used` has gone since the first run,
8,760 hours to a year; 100 years where none has gone. -/
def yearsLeft (left used : Int) (hours : Nat) : Nat :=
  if used ≤ 0 then 1000 else if left ≤ 0 then 0 else min 1000 (10 * left.toNat * hours / (8760 * used.toNat))

/-- M₀ of an entry; the first run writes it. -/
def firstValue (entry : Nat) (v : Word) (s : State) : State := if entryBlank entry s then keepWrite entry v s else s

/-- Note the prediction of an instance. -/
def setPredict (k i y : Nat) (s : State) : State :=
  modAssay (fun x => { x with predict := tput (fun _ => 1000) (k * 65536 + i) y x.predict }) s

/-- A quantity that falls toward its limit `lo`. -/
def predictFalling (k i entry m lo : Nat) (s : State) : State :=
  let s := firstValue entry (word m) s
  setPredict k i (yearsLeft ((m : Int) - lo) ((keepValue entry s).toNat - (m : Int)) (ageHours s)) s

/-- A quantity that rises toward its limit `hi`. -/
def predictRising (k i entry m hi : Nat) (s : State) : State :=
  let s := firstValue entry (word m) s
  setPredict k i (yearsLeft ((hi : Int) - m) ((m : Int) - (keepValue entry s).toNat) (ageHours s)) s

/-- The core (class 0), from S at `mv`: S_top is the slack at 820 mV. -/
def predictCore (v : Int) (mv : Nat) (s : State) : State :=
  let top := v + 8 * (820 - (mv : Int))
  let s := firstValue 1920 (word (twos 32 (top / 10))) s
  setPredict 0 0 (yearsLeft (top - s.assay.guardTenths) (10 * signed 32 (keepValue 1920 s).toNat - top) (ageHours s)) s

/-- The error count per window that LINE_SD_SET of a seam encodes, the limit of its receive lane (R494). -/
def sdLimit (k : Nat) (s : State) : Nat := (reg (Reg.LINE_SD_SET (k / 4) (k % 4)) s).toNat

/-- The predictions of a run. -/
def predictAll (m : AssayMeasure) (mv : Nat) (s : State) : State :=
  let side := activeSide s
  s |> predictCore m.slack mv
    |> each m.eyes (fun e s => predictFalling 1 e.1.val (1921 + e.1.val) e.2 12 s)
    |> each m.line (fun e s => predictRising 1 (lineRx (e.1.val / 4) (e.1.val % 4)) (2433 + e.1.val) e.2 (sdLimit e.1.val s) s)
    |> each m.optics (fun e s => predictRising 2 e.1.val (2449 + 4 * side + e.1.val) e.2.2.1 e.2.2.2 s)
    |> predictRising 3 0 2459 m.keepA 1000 |> predictRising 3 1 2460 m.keepB 1000

/-- The margin of a lane in a run's measurements, in its class's unit: eye steps above 12, errors below the limit. -/
def laneMargin (m : AssayMeasure) (l : Nat) (s : State) : Int :=
  match m.eyes.find? (fun e => e.1.val == l) with
  | some e => (e.2 : Int) - 12
  | none =>
    match m.line.find? (fun e => lineRx (e.1.val / 4) (e.1.val % 4) == l) with
    | some e => (sdLimit e.1.val s : Int) - e.2
    | none => 0

/-! ### The end of a run (R495) -/

/-- EV_ASSAY_RESULT's payload (R573). -/
def resultPayload (m : AssayMeasure) (s : State) : Bytes :=
  let l := (worstInstance 1 s).1
  beBytes 2 (twos 16 (clipSigned 16 (m.slack / 10))) ++ beBytes 2 (s.assay.guardTenths / 10) ++ beBytes 2 (vcoreMv s)
    ++ beBytes 2 l ++ beBytes 2 (twos 16 (clipSigned 16 (laneMargin m l s)))
    ++ (List.range 4).flatMap (fun k => beBytes 2 (worstInstance k s).2)

/-- EV_ASSAY_RESULT (R495 to R500): the run completes; guard band, supply target, retrain period and laser power are
re-planned and the predictions made. -/
def assayResult (m : AssayMeasure) (s : State) : State :=
  if !s.assay.running then s
  else
    let mv := vcoreMv s
    let raise := raiseInTick s
    let g := guardBand m.slack mv s
    s |> countN Reg.CNT_ASSAY_LANE_SKIP m.skipped
      |> modAssay (fun x => { x with running := false, aborted := false, sinceH := 0, slack := some m.slack, guardTenths := g,
                                     lastSlack := some m.slack, lastTarget := mv })
      |> planRetrain m.eyes |> planLaser m.optics |> predictAll m mv
      |> noteMargin |> lowerVcore raise m.slack
      |> (fun s => supEvent 0x1201 (resultPayload m s) s)
      |> count Reg.CNT_ASSAY_RUN

/-- The band of a case temperature (R501). -/
def hourBand (t : Int) : Nat := if t ≤ 85 then 0 else if t ≤ 105 then 1 else if t ≤ 125 then 2 else 3

/-- HOUR_COUNT (R501): an hour of operation in its band. -/
def hourCount (t : Int) (s : State) : State :=
  let e := 4 + hourBand t
  s |> keepWrite e (satAdd (keepValue e s) 1) |> modAssay (fun x => { x with sinceH := satTo 16 (x.sinceH + 1) })

/-! ### Views -/

/-- ASSAY_STATUS. -/
def assayStatusView (s : State) : Word :=
  word (at' 31 (b2n s.assay.running) + at' 30 (b2n s.assay.deferred) + at' 29 (b2n s.assay.aborted) + s.assay.sinceH)

/-- ASSAY_SLACK: G and S in whole picoseconds. -/
def assaySlackView (s : State) : Word :=
  word (at' 16 (s.assay.guardTenths / 10) + twos 16 (clipSigned 16 (s.assay.slack.getD 0 / 10)))

/-- ASSAY_PREDICT_k. -/
def assayPredictView (k : Nat) (s : State) : Word :=
  let w := worstInstance k s
  word (at' 16 w.1 + w.2)

end Sys2Proof.Machine
end

