-- ==== Sys2Proof/Machine/Keep.lean ====
section
/-! DEFINITION. The keep at mount, its scrub and remapping, and the recorder's walk (R473 to R490). -/
namespace Sys2Proof.Machine

/-- Change the keep. -/
def modKeep (f : KeepState → KeepState) (s : State) : State := { s with keep := f s.keep }

/-! ### Mount (R478, R490) -/

/-- A copy whose write keep power cut short fails its CRC; where it is die A's, die B still holds what stood before (R477,
R478). -/
def tearCopy (die i : Nat) (s : State) : State :=
  let s := setCopy die i { (dieCopy die i s) with valid := false } s
  match if die = 0 then s.keep.recent.find? (fun x => x.1 == i) else none with
  | some (_, _, c) => setCopy 1 i c s
  | none => s

/-- The entries some copy of which has been written. -/
def keepEntries (s : State) : List Nat := ((s.keep.dieA.map Prod.fst) ++ (s.keep.dieB.map Prod.fst)).eraseDups

/-- One entry at mount (R478): the chosen copy stands on both dies; two valid copies of equal WEAR that differ are
recorded. -/
def mountEntry (i : Nat) (s : State) : State :=
  if s.keep.failedDie.isSome then s
  else
    let a := dieCopy 0 i s
    let b := dieCopy 1 i s
    let s := when' (a.valid && b.valid && a.wear == b.wear && a.value != b.value)
      (event 0x1004 (beBytes 2 i ++ beBytes 4 a.value.toNat ++ beBytes 4 b.value.toNat)) s
    let c := keepEntry i s
    if c.valid then s |> setCopy 0 i c |> setCopy 1 i c else s

/-- The failed-die flag the survivor holds (R484). -/
def failedFlag (s : State) : Option (Fin 2) :=
  let v := keepValue 35 (modKeep (fun k => { k with failedDie := none }) s)
  if bitOf v 0 then some 0 else if bitOf v 1 then some 1 else none

/-- SEQ, LEN and the trailer of what stands at an offset of the ring. -/
def seqAt (off : Nat) (s : State) : Nat := (ringUnit (off / 8) s).toNat
def lenAt (off : Nat) (s : State) : Nat := (ringUnit (off / 8 + 2) s).toNat % 65536
def trailerAt (off : Nat) (s : State) : Nat := (ringUnit ((off + recordLength (lenAt off s)) / 8 - 1) s).toNat

/-- Whether a whole record begins at an offset (R489). -/
def wholeAt (off : Nat) (s : State) : Bool :=
  seqAt off s != 0 && decide (lenAt off s ≤ 240) && decide (off % 8192 + recordLength (lenAt off s) ≤ 8192)
    && trailerAt off s == seqAt off s

/-- From a whole record, the last one of its segment that follows without a gap. -/
def walkSegment (s : State) : Nat → Nat → Nat
  | 0, off => off
  | n + 1, off =>
    let next := off + recordLength (lenAt off s)
    if next / 8192 = off / 8192 ∧ wholeAt next s ∧ seqAt next s = (seqAt off s + 1) % 2 ^ 64 then walkSegment s n next else off

/-- The segment with the greatest SEQ (R6) in its first 8 bytes, among those that begin with a whole record. -/
def newestSegment (s : State) : Nat → Option Nat
  | 0 => none
  | g + 1 =>
    let r := newestSegment s g
    if wholeAt (8192 * g) s then
      match r with
      | none => some g
      | some h => if serialBelow 64 (seqAt (8192 * h) s) (seqAt (8192 * g) s) then some g else r
    else r

/-- The first segment after `g` whose first SEQ is not 0, as R490 takes OLDEST from it; segment 0 for none. -/
def oldestSegment (s : State) (g : Nat) : Nat :=
  (((List.range 1023).map (fun k => g + 1 + k)).find? (fun h => decide (h < 1024) && seqAt (8192 * h) s != 0)).getD 0

/-- The walk of R490: NEWEST, OLDEST and where the next record goes. -/
def walkRing (s : State) : State :=
  match newestSegment s 1024 with
  | none => { s with recd := { s.recd with oldestSeq := 0, oldestOff := 0, newestSeq := 0, newestOff := 0, nextOff := 0 } }
  | some g =>
    let last := walkSegment s 256 (8192 * g)
    let h := oldestSegment s g
    { s with recd := { s.recd with newestSeq := seqAt last s, newestOff := last, oldestSeq := seqAt (8192 * h) s,
                                   oldestOff := 8192 * h, nextOff := (last + recordLength (lenAt last s)) % 2 ^ 23 } }

/-- The trailer of the newest record was not written when keep power was lost (R490). -/
def tearRecord (s : State) : State :=
  if s.recd.newestSeq = 0 then s
  else
    let off := s.recd.newestOff
    { s with recd := setRingUnit ((off + recordLength (lenAt off s)) / 8 - 1) 0 s.recd }

/-- The records that wait are written in order, without the bucket (R490). -/
def flushWaiting (s : State) : State :=
  let lost := s.recd.waitingLost
  let r := s.recd.waiting.foldl (fun r w => writeRecord w { r with lost := r.lost || w.lostBefore }) s.recd
  countN Reg.CNT_REC_LOST lost
    { s with recd := { r with waiting := [], waitingLost := 0, lost := r.lost || s.recd.overflowed, overflowed := false } }

/-- KEEP_MOUNT (R478, R484, R490): entries are resolved, the recorder is positioned, and what waited is written; the
upstream counter resumes at its reserve (R432). -/
def keepMount (torn : List (Fin 2 × Fin 4096)) (tornRecord : Bool) (s : State) : State :=
  if s.keep.mounted then s
  else
    let s := s |> each torn (fun e s => tearCopy e.1.val e.2.val s) |> when' tornRecord tearRecord
    let s := modKeep (fun k => { k with failedDie := failedFlag s, recent := [] }) s
    let s := each (keepEntries s) mountEntry s
    s |> walkRing |> modKeep (fun k => { k with mounted := true }) |> flushWaiting |> resumeCounter

/-! ### Scrub and remapping (R481 to R485) -/

/-- The spare units left on a die. -/
def spareLeft (die : Nat) (s : State) : Nat := if die = 0 then s.keep.spareA else s.keep.spareB

/-- The entries a unit holds. -/
def unitEntries (unit : Nat) : List Nat := if 24576 ≤ unit ∧ unit < 24640 then (List.range 64).map (fun k => 64 * (unit - 24576) + k) else []

/-- Lose a unit bad on both dies (R485): a journal slot's copies lose what it held, entries have no valid copy, records of the
unit fail R489. -/
def loseUnit (unit : Nat) (s : State) : State :=
  if unit < 16384 then
    each [0, 1] (fun d s => setSlotCopy d (unit / 2) (if unit % 2 = 0 then { slotCopy d (unit / 2) s with headLost := true }
      else { slotCopy d (unit / 2) s with tailLost := true }) s) s
  else if unit < 24576 then
    { s with recd := (List.range 128).foldl (fun r k => setRingUnit ((unit - 16384) * 128 + k) 0 r) s.recd }
  else each (unitEntries unit) (fun i s => s |> setCopy 0 i { dieCopy 0 i s with valid := false }
    |> setCopy 1 i { dieCopy 1 i s with valid := false }) s

/-- Fill the spare from the other die's copy (R482): a BAD journal slot with STATE FREE. -/
def repairUnit (die unit : Nat) (s : State) : State :=
  if unit < 16384 then
    let bad := (slotCopy die (unit / 2) s).st == .bad || (slotCopy (1 - die) (unit / 2) s).st == .bad
    let s := slotRemapped die (unit / 2) s
    if bad then s else count Reg.CNT_KEEP_REPAIR s
  else s |> each (unitEntries unit) (fun i s => setCopy die i (dieCopy (1 - die) i s) s) |> count Reg.CNT_KEEP_REPAIR

/-- EV_KEEP_REMAP (R482, R483): a failed unit goes to a spare; with none left it stays failed and counts toward the die's
fault window. -/
def remapUnit (die unit : Nat) (otherBad : Bool) (s : State) : State :=
  if s.keep.failedDie.map Fin.val = some die then s
  else
    let s := when' otherBad (loseUnit unit) s
    if spareLeft die s = 0 then
      s |> modKeep (fun k => { k with failedUnits := if k.failedUnits.contains (die * 32768 + unit) then k.failedUnits else (die * 32768 + unit) :: k.failedUnits })
        |> noteFault 3 die
    else
      let n := spareLeft die s - 1
      let s := modKeep (fun k => { k with
        spareA := if die = 0 then n else k.spareA, spareB := if die = 0 then k.spareB else n,
        remap := tput (fun _ => 0) (die * 32768 + unit) (8000 - n) k.remap,
        failedUnits := k.failedUnits.filter (fun u => u != die * 32768 + unit) }) s
      let s := if otherBad then s else repairUnit die unit s
      s |> count Reg.CNT_KEEP_REMAP |> event 0x1003 (beBytes 1 die ++ beBytes 4 (unit * 1024) ++ beBytes 2 n)

/-- SCRUB (R481, R482, R485): the unit the scrub takes next, on one die; it goes on once die B's, or the survivor's, is done. -/
def scrub (die : Nat) (uncorrectable otherBad writePending : Bool) (s : State) : State :=
  if !s.keep.mounted ∨ writePending ∨ s.keep.failedDie.map Fin.val = some die then s
  else
    let unit := s.keep.scrubPos
    let s := when' uncorrectable (remapUnit die unit otherBad) s
    if die = 1 ∨ s.keep.failedDie.isSome then modKeep (fun k => { k with scrubPos := (unit + 1) % 32768 }) s else s

/-! ### Views -/

/-- KEEP_STATUS. -/
def keepStatusView (s : State) : Word :=
  let d : Nat := match s.keep.failedDie with
    | some d => at' 30 1 + at' 29 d.val
    | none => 0
  word (at' 31 (b2n s.keep.mounted) + d + s.keep.scrubPos)

/-- The entry KEEP_WEAR_INDEX names. -/
def wearIndex (s : State) : Nat := rfld Reg.KEEP_WEAR_INDEX 11 0 s

/-- KEEP_WEAR_HI. -/
def wearHiView (s : State) : Word :=
  let w := (keepEntry (wearIndex s) s).wear
  word (at' 30 (wearLevel w) + w / 2 ^ 32 % 256)

/-- The most worn entry, the lowest index first. -/
def topEntry (s : State) : List Nat → Nat
  | [] => 0
  | [i] => i
  | i :: l =>
    let j := topEntry s l
    let (a, b) := ((keepEntry i s).wear, (keepEntry j s).wear)
    if b < a ∨ (a = b ∧ i < j) then i else j

/-- KEEP_WEAR_TOP. -/
def wearTopView (s : State) : Word :=
  let i := topEntry s (keepEntries s)
  word (at' 16 i + (keepEntry i s).wear / 10 ^ 8)

/-- The ring bytes REC_WIN_w shows to a source (R492): four from OFF + 4w on. -/
def recWindow (off w : Nat) (s : State) : Word :=
  let a := off + 4 * w
  let u := (ringUnit (a / 8 % 2 ^ 20) s).toNat
  word (if a % 8 = 0 then u / 2 ^ 32 else u)

end Sys2Proof.Machine
end

