-- ==== Sys2Proof/Machine/Wind.lean ====
section
/-! DEFINITION. The winders (R323 to R335): descriptors, bursts, CRCs, completion and error variants of 64 channels. -/
namespace Sys2Proof.Machine

/-- A channel. -/
def wndChan (c : Nat) (s : State) : WndChan := tget (fun _ => WndChan.reset) s.wnd.chans c

/-- Put a channel. -/
def setChan (c : Nat) (x : WndChan) (s : State) : State :=
  { s with wnd := { s.wnd with chans := tput (fun _ => WndChan.reset) c x s.wnd.chans } }

/-- Change a channel. -/
def modChan (c : Nat) (f : WndChan → WndChan) (s : State) : State := setChan c (f (wndChan c s)) s

/-! ### Addresses (R324, R327) -/

/-- The end of packet SRAM. -/
def sramEnd : Nat := 0x6000000

/-- Where DRAM begins and ends in winder addresses. -/
def dramBase : Nat := 0x100000000
def dramEnd : Nat := 0x900000000

/-- Where the data ports begin. -/
def portBase : Nat := 0xF000000000

/-- Whether a range lies in packet SRAM or in DRAM. -/
def inMemory (a n : Nat) : Bool := decide (a + n ≤ sramEnd) || (decide (dramBase ≤ a) && decide (a + n ≤ dramEnd))

/-- Whether a range lies in a target of R324. -/
def inTarget (a n : Nat) : Bool := inMemory a n || (decide (portBase ≤ a) && decide (a < 2 ^ 64))

/-- Whether an address is in DRAM. -/
def isDram (a : Nat) : Bool := decide (dramBase ≤ a) && decide (a < dramEnd)

/-- Where byte `n` of a transfer from `a` lies: linear for `k` = 0, in the circular window of 2^k bytes otherwise; a
port address does not advance. -/
def wndAddr (k a n : Nat) : Nat :=
  if portBase ≤ a then a else if k = 0 then a + n else a / 2 ^ k * 2 ^ k + (a + n) % 2 ^ k

/-- A byte of memory. -/
def memByte (a : Nat) (s : State) : Byte := if isDram a then dramByte (a - dramBase) s else sramByte a s

/-- Write a byte of memory. -/
def setMemByte (a : Nat) (b : Byte) (s : State) : State :=
  if isDram a then setDram (a - dramBase) b s else setSram a b s

/-- Byte `n` of a source; what a data port gives is a free value. -/
def srcByte (k a n : Nat) (s : State) : Byte := if portBase ≤ a then Config.freeByte s.free n else memByte (wndAddr k a n) s

/-- Write bytes as bytes `n` onward of a destination. -/
def writeDst (k a : Nat) : Nat → Bytes → State → State
  | _, [], s => s
  | n, b :: bs, s => writeDst k a (n + 1) bs (setMemByte (wndAddr k a n) b s)

/-- Write bytes to a destination, a data port included. -/
def putDst (k a n : Nat) (b : Bytes) (s : State) : State :=
  if portBase ≤ a then (if b = [] then s else emit (.portData a b) s) else writeDst k a n b s

/-- A 64-bit word of memory, stored little-endian (R325). -/
def memWord (a : Nat) (s : State) : BitVec 64 :=
  BitVec.ofNat 64 (beNat ((List.range 8).map (fun i => memByte (a + i) s)).reverse)

/-- A 64-bit write to memory. -/
def setMemWord (a : Nat) (v : BitVec 64) (s : State) : State := writeDst 0 a 0 (beBytes 8 v.toNat).reverse s

/-! ### Descriptors (R325, R326) -/

/-- Word `i` of the fetched copy. -/
def descWord (i : Nat) (x : WndChan) : Nat := (x.words.getD i 0).toNat

/-- Bits `hi` to `lo` of word 2. -/
def desc2 (hi lo : Nat) (x : WndChan) : Nat := descWord 2 x / 2 ^ lo % 2 ^ (hi + 1 - lo)

def descSrc (x : WndChan) : Nat := descWord 0 x
def descDst (x : WndChan) : Nat := descWord 1 x
def descBurst (x : WndChan) : Nat := 64 * 2 ^ desc2 59 57 x
def descReq (x : WndChan) : Nat := desc2 56 52 x
def descKDst (x : WndChan) : Nat := desc2 51 47 x
def descKSrc (x : WndChan) : Nat := desc2 46 42 x
def descBarrier (x : WndChan) : Bool := desc2 40 40 x == 1
def descCrc (x : WndChan) : Nat := desc2 39 38 x
def descEvtEn (x : WndChan) : Bool := desc2 37 37 x == 1
def descEvt (x : WndChan) : Nat := desc2 36 32 x
def descLen (x : WndChan) : Nat := desc2 31 0 x
def descLink (x : WndChan) : Nat := descWord 3 x / 32 * 32
def descEoc (x : WndChan) : Bool := descWord 3 x % 2 == 1

/-- Whether K is neither linear nor a circular window of 8 to 30. -/
def badK (k : Nat) : Bool := (decide (1 ≤ k) && decide (k ≤ 7)) || decide (31 ≤ k)

/-- The bytes a descriptor's CRC adds after the last destination byte (R327). -/
def crcBytes (x : WndChan) : Nat := if descCrc x % 2 == 1 then 4 else 0

/-- Whether every byte a side of a transfer touches lies in one target (R326): in a circular window the bytes up to its end,
and those that wrap to its beginning. -/
def rangeOk (k a n : Nat) : Bool :=
  if k = 0 ∨ portBase ≤ a then inTarget a n
  else
    let base := a / 2 ^ k * 2 ^ k
    let head := min n (base + 2 ^ k - a)
    inTarget a head && (n == head || inTarget base (min (n - head) (2 ^ k)))

/-- The error of a descriptor under R326, as WND_CH_STATUS.ERR: 0 none. -/
def descError (x : WndChan) : Nat :=
  let n := descLen x
  let big := fun k => decide (k ≠ 0) && decide (n > 2 ^ k)
  if n = 0 ∨ n > 1073741824 ∨ badK (descKSrc x) ∨ badK (descKDst x) ∨ big (descKSrc x) ∨ big (descKDst x) then 1
  else if !rangeOk (descKSrc x) (descSrc x) n ∨ !rangeOk (descKDst x) (descDst x) (n + crcBytes x) then 2
  else if !descEoc x ∧ !inMemory (descLink x) 32 then 3
  else 0

/-! ### Completion and errors (R328, R329, R331) -/

/-- A pulse of an event line to the consumer WND_EVT_CFG sets; none discards it. -/
def wndPulse (c : Nat) (x : WndChan) (error : Bool) (s : State) : State :=
  let consumer := rfld (Reg.WND_EVT_CFG (descEvt x)) 2 0 s
  if descEvtEn x ∧ consumer ≠ 0 then emit (.wndPulse consumer (descEvt x) c x.cur error) s else s

/-- A descriptor ends with the error variant, and the channel halts (R329, R333). -/
def wndFail (c err : Nat) (s : State) : State :=
  let x := wndChan c s
  s |> setChan c { x with phase := if x.phase = .idle then .idle else .halt, err := err, fetch := none, words := [], moved := 0, stopping := false }
    |> wndPulse c x true
    |> count (Reg.CNT_WND_ERR c)
    |> event 0x0905 ([BitVec.ofNat 8 c, BitVec.ofNat 8 err] ++ beBytes 8 x.cur.toNat)

/-- The destination range of a descriptor, CRC included, becomes undefined (R331). -/
def spoilDst (x : WndChan) (s : State) : State :=
  if portBase ≤ descDst x then s
  else
    let n := descLen x + crcBytes x
    nextFree (writeDst (descKDst x) (descDst x) 0 (freeBytes n s) s)

/-- A descriptor whose bytes are moved and whose writes are still to land, as its channel had it. -/
def landingOf (x : WndChan) (e : BitVec 64 × List (BitVec 64)) : WndChan := { x with cur := e.1, words := e.2 }

/-- EV_WND_ERROR (R331): a DRAM or SRAM error in the oldest descriptor whose writes have not all landed. -/
def wndError (c : Nat) (sram : Bool) (s : State) : State :=
  let x := wndChan c s
  let err := if sram then 5 else 4
  match x.landing with
  | e :: rest =>
    s |> spoilDst (landingOf x e) |> setChan c { landingOf x e with landing := rest } |> wndFail c err
  | [] => if x.phase = .run ∧ x.words ≠ [] then s |> spoilDst x |> wndFail c err else s

/-- Follow a link, or fail where it names no memory. -/
def followLink (c : Nat) (x : WndChan) (s : State) : State :=
  if inMemory (descLink x) 32 then
    setChan c { x with phase := .run, fetch := some (BitVec.ofNat 64 (descLink x)), words := [], moved := 0 } s
  else s |> setChan c x |> wndFail c 3

/-- Re-read word 3 of the last descriptor: RUN when EOC is now 0, PARK otherwise (R333). -/
def rereadLink (c : Nat) (s : State) : State :=
  let x := wndChan c s
  let w3 := memWord (x.cur.toNat + 24) s
  let y := { x with words := x.words.take 3 ++ [w3] }
  if descEoc y then setChan c { x with phase := .park } s else followLink c y s

/-- WND_DOORBELL (R333), after the 64-bit writes made before it. -/
def wndDoorbell (c : Nat) (s : State) : State :=
  let x := wndChan c s
  match x.phase with
  | .idle =>
    if rbit (Reg.WND_CH_CFG c) 31 s then
      let head := (reg (Reg.WND_CH_HEAD_HI c) s).toNat * 2 ^ 32 + (reg (Reg.WND_CH_HEAD_LO c) s).toNat / 32 * 32
      setChan c { x with phase := .run, fetch := some (BitVec.ofNat 64 head), words := [], moved := 0, fresh := true } s
    else s
  | .run => setChan c { x with pend := true } s
  | .park => rereadLink c s
  | .halt => s

/-- The writes of descriptor words an owner makes, in order. -/
def ownerWrites (ws : List (BitVec 64 × BitVec 64)) (s : State) : State :=
  each ws (fun w s => if inMemory w.1.toNat 8 then setMemWord w.1.toNat w.2 s else s) s

/-- WND_DESCRIPTOR_FETCH (R326): the copy is fetched and checked. -/
def wndFetch (c : Nat) (s : State) : State :=
  let x := wndChan c s
  match x.phase, x.fetch with
  | .run, some a =>
    let n := a.toNat
    if !inMemory n 32 then s |> setChan c { x with cur := a } |> wndFail c 2
    else
      let ws := [memWord n s, memWord (n + 8) s, memWord (n + 16) s, memWord (n + 24) s]
      let y := { x with cur := a, fetch := none, words := ws, moved := 0 }
      let crc := if x.fresh || descCrc y ≤ 1 then 0xFFFFFFFF else x.crc
      let s := setChan c { y with crc := crc } s
      let e := descError y
      if e = 0 then s else wndFail c e s
  | _, _ => s

/-- Whether a channel's descriptor has all its bytes moved. -/
def wndDone (x : WndChan) : Bool := x.words != [] && decide (descLen x ≤ x.moved)

/-- A descriptor is complete (R333): the link, a re-read, or PARK; IDLE where EN has been written 0. -/
def wndAdvance (c : Nat) (s : State) : State :=
  let x := wndChan c s
  let x := { x with fresh := decide (descCrc x ≤ 1) }
  if x.stopping then setChan c { x with phase := .idle, words := [], moved := 0, stopping := false } s
  else if !descEoc x then followLink c x s
  else if x.pend then s |> setChan c { x with pend := false } |> rereadLink c
  else setChan c { x with phase := .park } s

/-- The last burst has moved: without BARRIER the channel goes on at once, and the completion pulse waits for the writes to
land; with BARRIER the channel waits for them (R328). -/
def wndMoved (c : Nat) (s : State) : State :=
  let x := wndChan c s
  if wndDone x ∧ !descBarrier x then
    s |> setChan c { x with landing := x.landing ++ [(x.cur, x.words)] } |> wndAdvance c
  else s

/-- WND_DESCRIPTOR_COMPLETE (R328, R333): every write of the channel's oldest unlanded descriptor has landed, and its
completion is pulsed; a descriptor with BARRIER then lets the channel go on. -/
def wndComplete (c : Nat) (s : State) : State :=
  let x := wndChan c s
  match x.landing with
  | e :: rest => s |> setChan c { x with landing := rest } |> wndPulse c (landingOf x e) false
  | [] => if x.phase = .run ∧ wndDone x then s |> wndPulse c x false |> wndAdvance c else s

/-- The bytes the channel's next burst moves. -/
def burstLen (x : WndChan) : Nat := min (descBurst x) (descLen x - x.moved)

/-- The DRAM bytes the next burst draws from the tick's budget (R320), its CRC included. -/
def burstDram (x : WndChan) : Nat :=
  let n := burstLen x
  let crc := if x.moved + n = descLen x then crcBytes x else 0
  (if isDram (descSrc x) then n else 0) + (if isDram (descDst x) then n + crc else 0)

/-- Whether a channel is ready to move a burst (R330, R334, R335). -/
def wndReady (req : BitVec 32) (c : Nat) (s : State) : Bool :=
  let x := wndChan c s
  let owner := rfld (Reg.WND_CH_CFG c) 5 0 s
  x.phase == .run && x.words != [] && decide (x.moved < descLen x)
    && (descReq x == 0 || req.getLsbD (descReq x))
    && (!inDip s || holderOf owner < 3)
    && decide (burstDram x ≤ s.tub.ddrLeft)

/-- The channel that goes next: PRIO 1 first, in round robin, then PRIO 0 (R334). -/
def wndNext (req : BitVec 32) (s : State) : Option Nat :=
  let after := fun (last : Nat) (prio : Bool) =>
    ((List.range 64).map (fun i => (last + 1 + i) % 64)).find? (fun c => rbit (Reg.WND_CH_CFG c) 30 s == prio && wndReady req c s)
  match after s.wnd.lastHigh true with
  | some c => some c
  | none => after s.wnd.lastLow false

/-- Note the channel served in its group. -/
def wndServed (c : Nat) (s : State) : State :=
  if rbit (Reg.WND_CH_CFG c) 30 s then { s with wnd := { s.wnd with lastHigh := c } }
  else { s with wnd := { s.wnd with lastLow := c } }

/-- The CRC value a register spells (R34). -/
def crcValue (r : Nat) : Nat := reflect 32 r ^^^ 0xFFFFFFFF

/-- Move one burst of a channel (R327, R330); the CRC follows the last byte. -/
def moveBurst (c : Nat) (s : State) : State :=
  let x := wndChan c s
  let n := burstLen x
  let data := (List.range n).map (fun i => srcByte (descKSrc x) (descSrc x) (x.moved + i) s)
  let s := if portBase ≤ descSrc x then nextFree s else s
  let crc := if descCrc x = 0 then x.crc else crcBits 32 0x1EDC6F41 x.crc (data.flatMap byteBitsLsb)
  let last := x.moved + n = descLen x
  let s := putDst (descKDst x) (descDst x) x.moved data s
  let s := if last ∧ descCrc x % 2 = 1 then putDst (descKDst x) (descDst x) (descLen x) (beBytes 4 (crcValue crc)) s else s
  { s with tub := { s.tub with ddrLeft := s.tub.ddrLeft - burstDram x } }
  |> setChan c { x with moved := x.moved + n, crc := crc }
  |> wndServed c
  |> wndMoved c

/-- WND_BURST (R330, R334): the request lines are sampled, and the channel whose turn it is moves one burst. -/
def wndBurst (req : BitVec 32) (s : State) : State :=
  match wndNext req s with
  | some c => moveBurst c s
  | none => s

/-- WND_CHANNEL_DISABLE (R333): EN written 0. -/
def wndDisable (c : Nat) (s : State) : State :=
  let s := setRfld (Reg.WND_CH_CFG c) 31 31 0 s
  let x := wndChan c s
  match x.phase with
  | .run =>
    if x.words = [] then setChan c { x with phase := .idle, fetch := none } s else setChan c { x with stopping := true } s
  | .park => setChan c { x with phase := .idle } s
  | .halt => setChan c { x with phase := .idle } s
  | .idle => s

/-- A write of WND_CH_CFG: OWNER only while EN is 0; EN 0 disables (R333). -/
def wndCfgWrite (c : Nat) (v : Word) (s : State) : State :=
  let a := Reg.WND_CH_CFG c
  let en := rbit a 31 s
  let owner := if en then rfld a 5 0 s else fld v 5 0
  let s := setReg a (word (at' 31 (fld v 31 31) + at' 30 (fld v 30 30) + owner)) s
  if bitOf v 31 then s else wndDisable c s

/-- The writes of every descriptor that a channel has left behind have landed. -/
def landAll (c : Nat) (s : State) : State :=
  let x := wndChan c s
  s |> setChan c { x with landing := [] } |> each x.landing (fun e => wndPulse c (landingOf x e) false)

/-- A Domain reset of PD_FAB, before the domain goes down: every channel in RUN ends its descriptor with the error variant
(R335). -/
def wndDomainReset (s : State) : State :=
  each (s.wnd.chans.map Prod.fst) (fun c s =>
    let s := landAll c s
    if (wndChan c s).phase = .run then wndFail c 6 s else s) s

end Sys2Proof.Machine
end

