-- ==== Sys2Proof/Machine/Resets.lean ====
section
/-! DEFINITION. The six kinds of reset (R58 to R63, R576): what each takes and keeps, and which domain a register lies in. -/
namespace Sys2Proof.Machine

/-- Change the start-up state. -/
def modBoot (f : BootState → BootState) (s : State) : State := { s with boot := f s.boot }

/-- Change the supply monitor. -/
def modSupply (f : SupplyState → SupplyState) (s : State) : State := { s with supply := f s.supply }

/-! ### The domain of a register (R59, chapter 1's table of blocks) -/

/-- The domain of a line register: the configuration of a side's seams lies with the supervisor, what they show in the
side's own domain (R111). -/
def lineRegDomain (a : Nat) : Nat := if a % 0x10000 < 0x20 then 18 else 15 + (a - 0x100000) / 0x40000 % 2

/-- The domain of a register of the classifier: the rule registers of a pipeline and a port's word in the pipeline's, what
the pipelines share in PD_PIPE0. -/
def clsRegDomain (a : Nat) : Nat :=
  let d := a - 0x500000
  if d % 0x40000 < 0x30000 then d / 0x40000 % 4
  else if Reg.CLS_PORT_CFG 0 ≤ a ∧ a ≤ Reg.CLS_PORT_CFG 511 then (a - Reg.CLS_PORT_CFG 0) / 4 / 128
  else 0

/-- The domain of a register of a lane: its settings lie with the supervisor, what it shows in the lane's domain. -/
def laneRegDomain (a : Nat) : Nat :=
  if a < 0xD00000 ∧ 8 ≤ a % 0x400 then laneDomain ((a - 0xC00000) / 0x400) else 18

/-- The power domain a register lies in. -/
def regDomain (a : Nat) : Nat :=
  if a < 0x100000 then 22
  else if a < 0x200000 then lineRegDomain a
  else if a < 0x300000 then 18
  else if a < 0x400000 then 4
  else if a < 0x500000 then 17
  else if a < 0x600000 then clsRegDomain a
  else if a < 0x800000 then (if Reg.TUB_SPILL_CTRL ≤ a ∧ a ≤ Reg.TUB_DDR_HELD then 21 else 4)
  else if a < 0xA00000 then 7 + (a - 0x800000) / 0x1000 / 64
  else if a < 0xC00000 then 18
  else if a < 0xE00000 then laneRegDomain a
  else if a < 0xF00000 then 18
  else if a < 0x1000000 then 6
  else if a < 0x1080000 then 22
  else if a < 0x1100000 then 18
  else if a < 0x1200000 then 22
  else if a < 0x1280000 then 20
  else if a < 0x1300000 then 19
  else 22

/-- Whether a Domain reset takes a register back: it lies in the domain, or it is LANE_CFG or LANE_TXEQ of a lane of the
domain, held with the supervisor (R59, R385). -/
def resetsWith (d a : Nat) : Bool :=
  regDomain a == d
    || (decide (0xC00000 ≤ a) && decide (a < 0xC85000) && decide ((a - 0xC00000) % 0x400 < 8) && laneDomain ((a - 0xC00000) / 0x400) == d)

/-- The registers of the PWR block and of the TIME block. -/
def inPwr (a : Nat) : Bool := decide (0x1000000 ≤ a) && decide (a < 0x1080000)
def inTime (a : Nat) : Bool := decide (0xE00000 ≤ a) && decide (a < 0xE80000)

/-- The registers a reset that loads from flash leaves as they are (R63 notes (b) and (h), R454). -/
def keepsReg (k : ResetKind) (a : Nat) : Bool :=
  match k with
  | .cold => false
  | .dip => inPwr a
  | _ => inPwr a || inTime a

/-! ### A reset that loads from flash -/

/-- The order of R61, also the code of GEN_RESET_CAUSE.KIND (R58). -/
def resetRank : ResetKind → Nat
  | .cold => 0
  | .dip => 1
  | .pin => 2
  | .watchdog => 3
  | .chain => 4
  | .domain => 5

/-- Whether a reset loses time and tick count (R63). -/
def losesTime (k : ResetKind) : Bool := k == .cold || k == .dip

/-- The recorder: its ring lies in the keep; what waits and its bucket lie in PD_AON. -/
def resetRec (k : ResetKind) (cycle : Nat) (r : RecState) : RecState :=
  if k = .cold then
    { r with waiting := [], waitingLost := 0, overflowed := false, lost := false, bucket := 65536 * 10 ^ 9,
             bucketCycle := cycle, winOff := [], fwdSeq := 0 }
  else { r with winOff := [] }

/-- The power controller: votes and settings stay but for a Cold reset; the ladder restarts at L0 (R63 note (h), R454). -/
def resetPwr (k : ResetKind) (x : PwrState) : PwrState :=
  if k = .cold then PwrState.reset
  else { x with dom := [], before := [], ladder := 0, target := 0, entry := none, heldTarget := none, exitTo := none,
                wake := false, wakeClient := none, idleUs := 0, stalled := [], suspended := x.firedamp }

/-- The keep is mounted anew at step 7 of R56; its contents stand. -/
def resetKeep (k : ResetKind) (x : KeepState) : KeepState :=
  { x with mounted := false, failedDie := none, scrubPos := if k = .cold then 0 else x.scrubPos }

/-- Start-up begins again; what the straps, the supplies and the reference inputs show is outside the terminal. -/
def resetBoot (k : ResetKind) (sub : Nat) (b : BootState) : BootState :=
  { BootState.reset with
    inReset := some k, lastKind := resetRank k, lastSub := sub, refPresent := b.refPresent, refOut := b.refOut,
    vioReady := b.vioReady, lastDomain := if k = .cold then 0 else b.lastDomain }

/-- A reset of kind Cold, Dip, Pin, Watchdog or Chain takes everything R58 and R63 say. -/
def fullReset (k : ResetKind) (sub : Nat) (s : State) : State :=
  { State.reset with
    pending := s.pending
    cycle := s.cycle
    free := s.free
    outs := s.outs
    regs := s.regs.filter (fun e => keepsReg k e.1)
    tick := if losesTime k then TickState.reset else { s.tick with line := false, slewing := false, phaseNs := 0, overruns := [] }
    boot := resetBoot k sub s.boot
    supply := { SupplyState.reset with vinMv := s.supply.vinMv, vauxLost := s.supply.vauxLost, disconnected := s.supply.disconnected }
    time := if losesTime k then TimeState.reset else s.time
    keep := resetKeep k s.keep
    recd := resetRec k s.cycle s.recd
    pwr := resetPwr k s.pwr
    land := { LandState.reset with perstLow := s.land.perstLow }
    cls := { ClsState.reset with excCycle := s.cycle }
    tally := { TallyState.reset with journal := s.tally.journal, badDies := s.tally.badDies, scanning := true } }

/-- The number of bits set. -/
def popcount (n : Nat) (v : Nat) : Nat := ((List.range n).filter (fun i => v / 2 ^ i % 2 == 1)).length

/-- The Domain resets in progress and those held. -/
def domainsAsked (s : State) : Nat := popcount 21 s.boot.domActive.toNat + popcount 21 s.boot.heldDomains.toNat

/-- A request for such a reset (R61): one of the kind in progress is held until that one is over, a lower one is discarded
and counted, a higher one is carried out, and those it overrides are counted. -/
def requestReset (k : ResetKind) (sub : Nat) (s : State) : State :=
  match s.boot.inReset with
  | some p =>
    if p = k then modBoot (fun b => { b with heldReset := some (k, sub) }) s
    else if resetRank p < resetRank k then count Reg.CNT_RESET_MERGED s
    else s |> fullReset k sub |> countN Reg.CNT_RESET_MERGED (1 + b2n s.boot.heldReset.isSome)
  | none => s |> fullReset k sub |> countN Reg.CNT_RESET_MERGED (domainsAsked s)

/-- COLD_RESET: VAUX has risen. -/
def coldReset (s : State) : State := s |> modSupply (fun x => { x with vauxLost := false }) |> requestReset .cold 0

/-- DIP_RESET (R71): VIN has fallen to 9.6 V with VAUX there. -/
def dipReset (mv : BitVec 16) (s : State) : State :=
  let s := modSupply (fun x => { x with vinMv := mv }) s
  if mv.toNat ≤ 9600 ∧ !s.supply.vauxLost then requestReset .dip 0 s else s

/-- PIN_RESET. -/
def pinReset (s : State) : State := requestReset .pin 0 s

/-- WATCHDOG_RESET: the supervisor's watchdog, which runs while PD_SUP does (R453), or the end of the dip commit of R57. -/
def watchdogReset (refclk : Bool) (s : State) : State :=
  if refclk then (if s.supply.commitAt.isSome then requestReset .watchdog 1 s else s)
  else if s.boot.phase = .running ∧ domState 18 s = .on then requestReset .watchdog 3 s else s

/-- CHAIN_RESET: a write of GEN_RESET_CMD. -/
def chainReset (code : Word) (s : State) : State :=
  if code = 0xA5C1 then requestReset .chain 0 s else count Reg.CNT_RESET_CMD_BAD s

/-! ### Domain resets (R59, R60, R576) -/

/-- The frames queued for local ports and allocations, discarded and counted per queue (R322). -/
def discardQueued (s : State) : State :=
  s |> each (s.sched.ports.map Prod.fst) (fun p s =>
      let x := sched p s
      each x.queues (fun q s => countN (Reg.CNT_SCHED_Q_DROP p q.1) q.2.frames.length s) s)
    |> each (s.sched.aqs.map Prod.fst) (fun a s => countN (Reg.CNT_AQ_DROP a) (allocFrames a s) s)
    |> (fun s => { s with sched := { SchedState.reset with
                                     phi := s.sched.phi, prev := s.sched.prev, eW := s.sched.eW, eWd := s.sched.eWd,
                                     prevStrictPj := s.sched.prevStrictPj } })

/-- A Domain reset of PD_FAB: every queue, circuit buffer and tub is given up (R322, R335); the DRAM pools stay within the
usable packages (R321; DEDUCED, log entry 46). -/
def resetFab (s : State) : State :=
  let s := s |> discardQueued |> freeEveryTub |> cutPools
  { s with
    circuits := []
    tub := { s.tub with waiting := [], sram := [], post := [], take := [], posted := [] }
    ingress := tmap (fun _ => []) (fun fs => fs.filter (fun f => f.tubs == [])) s.ingress
    seams := tmap (fun _ => SeamState.reset) (fun x => { x with partials := [] }) s.seams
    cls := { s.cls with excWait := [], excRing := [], circIn := [] }
    tally := { s.tally with work := tmap (fun _ => SlotWork.none) (fun x => { x with tubs := [] }) s.tally.work }
    join := { s.join with idents := tmap (fun _ => Identity.reset) (fun x => { x with frags := [], gapSince := none, expected := none, bondCut := false }) s.join.idents } }

/-- A Domain reset of PD_PIPEn: what waits there and the tables it holds. -/
def resetPipe (n : Nat) (s : State) : State :=
  let s := s |> each (ingressOf n s) (fun f => freeTubsOf n f.tubs) |> freePartials (seam (activeSide s) n s).partials
  let s := { s with ingress := tput (fun _ => []) n [] s.ingress,
                    cls := { s.cls with rules := s.cls.rules.filter (fun e => e.1 / 16384 != n) } }
  let s := modSeam (activeSide s) n (fun x => { x with partials := [] }) s
  if n = 0 then
    { s with cls := { s.cls with fdb := [], vlans := [], excFrames := ClsState.reset.excFrames,
                                 excBytes := ClsState.reset.excBytes, excCycle := s.cycle } }
  else s

/-- A Domain reset of PD_TALLY: the engine's work is lost, the journal is scanned again (R222). -/
def resetTally (s : State) : State :=
  let s := each s.tally.work (fun e s => freeTubsOf 8 e.2.tubs s) s
  { s with tally := { TallyState.reset with journal := s.tally.journal, badDies := s.tally.badDies, scanning := true },
           cls := { s.cls with tallyIn := [] } }

/-- A Domain reset of PD_SUP: the supervisor starts again; the time unit, the active side and registrations stand
(R63, R403). -/
def resetSup (s : State) : State :=
  let s := canaryAbort s
  { s with
    join := { s.join with lmms := [], idents := tmap (fun _ => Identity.reset) (fun x => { x with msgs := [] }) s.join.idents }
    prot := { s.prot with cmds := [], req := 0, decided := none, denied := false, wtrDue := false, wtrStart := none, wtrPasses := 0 }
    mdio := []
    assay := { AssayState.reset with
               sramSpares := s.assay.sramSpares, lostBanks := s.assay.lostBanks, draining := s.assay.draining,
               ddrFailed := s.assay.ddrFailed } }

/-- The registers of a domain at their Reset values; the PWR and TIME blocks are kept (R59, R63). -/
def clearDomainRegs (d : Nat) (s : State) : State :=
  { s with regs := s.regs.filter (fun e => !resetsWith d e.1 || inTime e.1) }

/-- What the lanes do as their settings go back with PD_SUP: a test ends (R372, R374, R376). -/
def laneSettingsGone (old : List (Nat × Word)) (s : State) : State :=
  each old (fun e s => laneCfgChanged e.1 e.2 s) s

/-- The lanes with a setting in LANE_CFG. -/
def laneSettings (s : State) : List (Nat × Word) :=
  (s.lanes.filter (fun e => reg (Reg.LANE_CFG e.1) s != 0)).map (fun e => (e.1, reg (Reg.LANE_CFG e.1) s))

/-- What a Domain reset brings as it is asserted; the domain is then OFF until it is released. -/
def assertDomain (d : Nat) (s : State) : State :=
  let settings := laneSettings s
  let s := s |> when' (d == 4) wndDomainReset |> clearDomainRegs d |> when' (d == 18) (laneSettingsGone settings)
  if d ≤ 3 then s |> resetPipe d |> setDom d .off
  else if d = 4 then s |> resetFab |> setDom d .off
  else if d = 5 then { s with cls := { s.cls with automaton := [] } } |> setDom d .off
  else if d = 6 then s |> loadEpochs (activeSide s) |> setDom d .off
  else if d ≤ 14 then
    let g := d - 7
    let s := s |> each ((List.range 64).map (64 * g + ·)) (fun p s => portDown p (Reg.CNT_PORT_LINK_DROP p) s) |> domainWentOff d
      |> dropSaved (fun l => laneDomain l == d)
    { s with ports := s.ports.filter (fun e => e.1 / 64 != g) }
  else if d ≤ 16 then
    s |> when' (s.prot.canary.map Fin.val == some (d - 15)) canaryAbort |> domainWentOff d |> dropSaved (fun l => laneDomain l == d)
  else if d = 17 then s |> resetTally |> setDom d .off
  else if d = 18 then s |> resetSup |> setDom d .off
  else if d = 20 then s |> domainWentOff d |> dropSaved (fun l => laneDomain l == d)
  else domainWentOff d s

/-- A Domain reset of one domain; a terminal with a failed package takes a Chain reset in its place (R321). -/
def domainReset (d : Nat) (s : State) : State :=
  if s.boot.inReset.isSome then count Reg.CNT_RESET_MERGED s
  else if s.assay.ddrFailed ≠ 0 then requestReset .chain 2 s
  else s |> modBoot (fun x => { x with domActive := x.domActive ||| BitVec.ofNat 21 (2 ^ d) }) |> assertDomain d

/-- The domains of a mask. -/
def maskDomains (mask : BitVec 21) : List Nat := (List.range 21).filter (fun d => mask.getLsbD d)

/-- DOMAIN_RESET: a write of GEN_DOMAIN_RESET. Domains named by one write are reset together; while a Domain reset is in
progress the request is held (R61, log entry 40). -/
def domainResets (mask : BitVec 21) (s : State) : State :=
  if s.boot.inReset.isNone ∧ s.boot.domActive ≠ 0 then modBoot (fun b => { b with heldDomains := b.heldDomains ||| mask }) s
  else each (maskDomains mask) domainReset s

/-- The Domain resets held while one was in progress begin once it is over (R61). -/
def heldDomainsBegin (s : State) : State :=
  if s.boot.domActive = 0 ∧ s.boot.heldDomains ≠ 0 then
    s |> modBoot (fun b => { b with heldDomains := 0 }) |> domainResets s.boot.heldDomains
  else s

/-- EV_RESET (R62). -/
def resetEvent (kind sub dom : Nat) (s : State) : State :=
  event 0x0201 ([BitVec.ofNat 8 kind, BitVec.ofNat 8 sub, BitVec.ofNat 8 dom, 0] ++ beBytes 6 s.tick.count.toNat) s

/-! ### Loss of what PD_FAB holds (R63, R322) -/

/-- Only the frames held in DRAM survive. -/
def dramOnly (fs : List QFrame) : List QFrame := (fs.filter (fun f => f.dram.isSome)).map (fun f => { f with tubs := [] })

/-- Packet SRAM is lost in L3 and L4: on-die frames are gone, tubs on-die are FREE, circuits' buffers are empty; the frames
of the deep buffer survive in order (R63, R322). -/
def loseSram (s : State) : State :=
  let port (x : PortSched) : PortSched :=
    { x with consign := [], circ := [], queues := tmap (fun _ => PortQueue.reset) (fun q => { q with frames := dramOnly q.frames }) x.queues,
             active := x.active.filter (fun q => dramOnly (queueOf x q).frames != []), flight := none, granted := false }
  let alloc (x : AllocQueue) : AllocQueue :=
    { x with cont := none, tally := [], subs := tmap (fun _ => []) (fun q => dramOnly q) x.subs }
  { s with
    sched := { s.sched with ports := tmap (fun _ => PortSched.reset) (fun x => port x) s.sched.ports, aqs := tmap (fun _ => AllocQueue.reset) (fun x => alloc x) s.sched.aqs }
    tub := { s.tub with tags := s.tub.tags.filter (fun e => decide (4 ≤ poolOf e.1)),
                        taken := s.tub.taken.filter (fun e => decide (4 ≤ e.1)), cells := [], waiting := [], frees := [], asks := [], sram := [],
                        post := [], take := [], posted := [] }
    circuits := tmap (fun _ => Circuit.reset) (fun x => { x with tubs := [], packets := [], playing := false, fills := [], trib := [], rx := [], tx := [] }) s.circuits
    cls := { s.cls with excWait := [], excRing := [], circIn := [] }
    ingress := []
    seams := tmap (fun _ => SeamState.reset) (fun x => { x with partials := [] }) s.seams
    tally := { s.tally with work := tmap (fun _ => SlotWork.none) (fun x => { x with tubs := [] }) s.tally.work }
    join := { s.join with bursts := [], idents := tmap (fun _ => Identity.reset) (fun x => { x with frags := [], gapSince := none, expected := none, bondCut := false }) s.join.idents } }

end Sys2Proof.Machine
end

