-- ==== Sys2Proof/Machine/Image.lean ====
section
/-! DEFINITION. The configuration image: its header, its sections, how a candidate is chosen and verified, and start-up up
to the point where its records are applied (R34 to R39, R46 to R57). -/
namespace Sys2Proof.Machine

/-! ### Headers (R35, R36, R48, R51) -/

/-- Fields of a header. -/
def imgLength (b : Bytes) : Nat := beAt b 12 4
def imgGeneration (b : Bytes) : Word := word (beAt b 8 4)

/-- The status code of a header, 0 where it is acceptable: the checks of R48 in their order. -/
def headerCode (b : Bytes) (minGen : Word) : Nat :=
  if beAt b 0 4 ≠ 0x56595649 ∨ b.length < 64 then 4
  else if crc32c (b.take 60) ≠ word (beAt b 60 4) then 4
  else if beAt b 4 2 ≠ 1 then 9
  else if imgLength b % 16 ≠ 0 ∨ imgLength b < 256 ∨ 67108864 < imgLength b then 4
  else if serialBelow 32 (imgGeneration b).toNat minGen.toNat then 5
  else 0

/-- The code of what a flash answers: 3 for no answer. -/
def flashCode (r : FlashRead) (minGen : Word) : Nat :=
  match r with
  | .noAnswer => 3
  | .bytes b => headerCode b minGen

/-- The GENERATION of a flash whose header is acceptable. -/
def flashGen (r : FlashRead) (minGen : Word) : Option Word :=
  match r with
  | .noAnswer => none
  | .bytes b => if headerCode b minGen = 0 then some (imgGeneration b) else none

/-! ### Sections and the checks of a candidate (R37 to R39, R46, R50) -/

/-- A length padded to a multiple of `n`. -/
def padTo (n len : Nat) : Nat := (len + n - 1) / n * n

/-- The sections of an image from the bytes between header and tag: none where their number, a length, a BODY_CRC, a TYPE or
the place of the firmware section is wrong. -/
def parseSections : Nat → Bool → Bytes → Option (List Section)
  | 0, _, b => if b = [] then some [] else none
  | n + 1, first, b =>
    let len := beAt b 4 4
    let type := beAt b 0 2
    if b.length < 16 + padTo 16 len then none
    else
      let body := slice b 16 len
      if crc32c body ≠ word (beAt b 8 4) ∨ type = 0 ∨ 4 < type ∨ ((type == 1) != first) then none
      else (parseSections n false (b.drop (16 + padTo 16 len))).map (fun l => { type := type, body := body, crc := word (beAt b 8 4) } :: l)

/-- The sections of a whole image, SECTIONS from 1 to 64. -/
def imageSections (b : Bytes) : Option (List Section) :=
  let n := beAt b 6 2
  if n = 0 ∨ 64 < n then none else parseSections n true (slice b 64 (imgLength b - 80))

/-- Whether a firmware section is well built: BODY_LEN 108 + CODE_LEN, KEY_INDEX 0 or 1. -/
def firmwareFits (fw : Bytes) : Bool := decide (fw.length = 108 + beAt fw 8 4) && decide (beAt fw 4 1 ≤ 1)

/-- Whether its signature is right: ECDSA P-384 with SHA-384 over the body before SIG_R, under the key of KEY_INDEX. -/
def firmwareSigned (fw : Bytes) : Bool :=
  let n := 12 + beAt fw 8 4
  let key := Config.romKey (beAt fw 4 1)
  ecdsaValid (key.1.toNat, key.2.toNat) (fw.take n) (beAt fw n 48) (beAt fw (n + 48) 48)

/-- The root a tag is derived from: the device root key, or the operator root key if the terminal holds one. -/
def tagRoot (b : Bytes) (s : State) : Option Bytes :=
  if beAt b 27 1 % 2 = 0 then some (beBytes 32 Config.deviceRoot.toNat) else s.keep.opRoot

/-- Whether the tag is right (R46): label "IMAGE". -/
def tagRight (b : Bytes) (s : State) : Bool :=
  match tagRoot b s with
  | none => false
  | some root =>
    decide (aesCmac (kdf root [0x49, 0x4D, 0x41, 0x47, 0x45] [] 256) (b.take (imgLength b - 16)) = slice b (imgLength b - 16) 16)

/-- The outcome of the verification of a candidate: its status code, 1 for valid, and its sections. -/
def verifyImage (r : FlashRead) (s : State) : Nat × List Section :=
  match r with
  | .noAnswer => (3, [])
  | .bytes b =>
    let c := headerCode b (keepValue 0 s)
    if c ≠ 0 then (c, [])
    else match imageSections b with
      | none => (6, [])
      | some l =>
        let fw := (l.head?.map (·.body)).getD []
        if !firmwareFits fw then (6, []) else if !firmwareSigned fw then (7, []) else if !tagRight b s then (8, []) else (1, l)

/-! ### Choosing a candidate (R47, R49) -/

/-- The candidate read first: true for flash B. For GENERATIONs exactly 2^31 apart R6 does not say which of the two is the
value under test: DESIGN CHOICE, flash A's is, so that it is taken as below and flash B is read first (log entry 38). -/
def firstCandidate (sel : BitVec 2) (a b : Option Word) : Option Bool :=
  match a, b with
  | none, none => none
  | some _, none => some false
  | none, some _ => some true
  | some ga, some gb =>
    if sel = 1 then some false else if sel = 2 then some true else some (serialBelow 32 ga.toNat gb.toNat)

/-- Set the status code of a flash. -/
def setCode (flashB : Bool) (c : Nat) (x : BootState) : BootState := if flashB then { x with codeB := c } else { x with codeA := c }

/-! ### Step 1 to 3 of R56 -/

/-- EV_REFCLK_LOSS. -/
def refclkEvent (n : Nat) (s : State) : State := event 0x0206 [BitVec.ofNat 8 n] s

/-- The domains that run on the core and DRAM PLLs. -/
def coreDomains : List Nat := [0, 1, 2, 3, 4, 5, 6, 17, 18, 21]

/-- Step 3: the PLLs lock, the LPDDR4X is trained, and the domains whose work needs them are ON. -/
def startStep3 (ddrFail : BitVec 4) (s : State) : State :=
  s |> trainDram ddrFail |> each coreDomains (fun d s => setDom d .on s)

/-- The state a domain takes before votes are placed: ON where start-up has its clock. -/
def startDom (d : Nat) (s : State) : DomState :=
  if coreDomains.contains d then (if s.boot.lineRefHold then .off else .on)
  else if d = 19 ∨ d = 20 then (if s.boot.refPresent.getLsbD 3 then .on else .off)
  else .off

/-- No image is found (R52): EV_IMG_NONE with both codes. -/
def noImage (s : State) : State :=
  s |> modBoot (fun x => { x with phase := .noImage, candidate := none })
    |> romEvent 0x0204 [BitVec.ofNat 8 s.boot.codeA, BitVec.ofNat 8 s.boot.codeB]

/-- The boot ROM starts (R56 steps 1 to 3): headers are read and judged, a candidate is chosen, the DRAM epoch advances
(R439), reference inputs are judged (R57). -/
def startUp (r : ReleaseInputs) (s : State) : State :=
  let min := keepValue 0 s
  let a := flashGen r.flashA min
  let b := flashGen r.flashB min
  let first := firstCandidate r.straps.imgsel a b
  let s := s |> modBoot (fun x => { x with
      genA := a, genB := b, codeA := flashCode r.flashA min, codeB := flashCode r.flashB min, candidate := first,
      phase := .loading, refPresent := r.refs, lineRefHold := !r.refs.getLsbD 2, heldRelease := some r })
    |> keepWrite 32 (keepValue 32 s + 1)
    |> each ((List.range 4).filter (fun n => !r.refs.getLsbD n)) refclkEvent
    |> when' (r.refs.getLsbD 3) (fun s => s |> setDom 19 .on |> setDom 20 .on)
    |> when' (r.refs.getLsbD 2) (startStep3 r.ddrFail)
  if first.isNone then noImage s else s

/-- RESET_RELEASE (R47, R56, R62): the edge t_r. Start-up goes on once VIO18 and VIO33 are within their ranges (R538). A
request of the same kind held during the reset is carried out now that it is over (R61, log entry 40). -/
def resetRelease (r : ReleaseInputs) (s : State) : State :=
  match s.boot.inReset with
  | none => s
  | some _ =>
    if s.supply.vauxLost then s
    else
      let held := s.boot.heldReset
      let s := s |> modBoot (fun x => { x with inReset := none, heldReset := none, straps := r.straps, heldRelease := some r })
        |> modSupply (fun x => { x with disconnected := false })
        |> resetEvent s.boot.lastKind s.boot.lastSub 0
      match held with
      | some (k, sub) => fullReset k sub s
      | none => if s.boot.vioReady then startUp r s else s

/-- VIO_READY (R538). -/
def vioReady (s : State) : State :=
  let first := !s.boot.vioReady
  let s := modBoot (fun x => { x with vioReady := true }) s
  match s.boot.heldRelease with
  | some r => if first ∧ s.boot.phase = .rom ∧ s.boot.inReset.isNone then startUp r s else s
  | none => s

/-! ### Verification (R49, R50, R52, R53) -/

/-- The candidate is valid: the image is loaded, the flashes are released (R54), and a boot hold stops the start-up (R53). -/
def imageLoaded (flashB : Bool) (b : Bytes) (l : List Section) (s : State) : State :=
  let fw := (l.head?.map (·.body)).getD []
  let im : Image := { generation := imgGeneration b, fwVersion := word (beAt fw 0 4), sections := l }
  let other := if flashB then s.boot.codeA else s.boot.codeB
  let s := modBoot (fun x =>
    let x := if other = 0 then setCode (!flashB) 2 x else x
    { x with image := some im, srcB := flashB, flashReleased := true, candidate := none }) s
  let s := when' s.boot.secondTried (romEvent 0x0203 [BitVec.ofNat 8 s.boot.codeA, BitVec.ofNat 8 s.boot.codeB]) s
  if s.boot.straps.bootHold then
    s |> modBoot (fun x => { x with phase := .held }) |> romEvent 0x0205 (beBytes 1 (b2n flashB) ++ beBytes 4 im.generation.toNat)
  else s

/-- IMAGE_VERIFY_DONE. -/
def imageVerifyDone (r : FlashRead) (s : State) : State :=
  match s.boot.candidate with
  | none => s
  | some flashB =>
    let v := verifyImage r s
    let s := modBoot (setCode flashB v.1) s
    if v.1 = 1 then
      match r with
      | .bytes b => imageLoaded flashB b v.2 s
      | .noAnswer => s
    else if !s.boot.secondTried ∧ (if flashB then s.boot.genA else s.boot.genB).isSome then
      modBoot (fun x => { x with candidate := some (!flashB), secondTried := true }) s
    else
      s |> when' s.boot.secondTried (romEvent 0x0203 [BitVec.ofNat 8 s.boot.codeA, BitVec.ofNat 8 s.boot.codeB]) |> noImage

/-- RELEASE (R53): ends a boot hold, and is ignored in any other phase. -/
def bootRelease (s : State) : State :=
  if s.boot.phase = .held then modBoot (fun x => { x with phase := .applying }) s else s

/-! ### Reference inputs (R57, R547) -/

/-- The lanes of a local half lose their reference: their port groups go down. -/
def halfDown (h : Nat) (s : State) : State :=
  s |> each ((List.range 256).map (256 * h + ·)) (fun p s => portDown p (Reg.CNT_PORT_LINK_DROP p) s)
    |> each ((List.range 256).map (256 * h + ·)) (fun l s => laneOff l s)

/-- EV_REFCLK_LOSS: an input that was there is missing. -/
def refclkLoss (n : Nat) (s : State) : State :=
  if s.boot.inReset.isSome ∨ !s.boot.refPresent.getLsbD n then s
  else
    let s := s |> modBoot (fun x => { x with refPresent := x.refPresent &&& ~~~ BitVec.ofNat 4 (2 ^ n) }) |> refclkEvent n
    if n = 2 then
      { s with supply := { s.supply with commitAt := some (s.supply.commitAt.getD s.cycle) },
               prot := { s.prot with switching := none, decided := none } }
    else if n = 3 then s |> chainLeave 0 |> chainLeave 1 |> hostDown
    else halfDown n s

/-- REFCLK_RETRY: start-up held at step 3 goes on once the line reference is there. -/
def refclkRetry (present : Bool) (s : State) : State :=
  if s.boot.lineRefHold ∧ present then
    match s.boot.heldRelease with
    | some r => s |> modBoot (fun x => { x with lineRefHold := false, refPresent := x.refPresent ||| 4 }) |> startStep3 r.ddrFail
    | none => s
  else s

/-- A signed number within the range of 16 bits. -/
def clip16 (v : Int) : Nat := twos 16 (clipSigned 16 v)

/-- One input as it is measured: the deviation in ppm. -/
def refclkOne (n : Nat) (ppm : Option Int) (s : State) : State :=
  match ppm with
  | none => s
  | some v =>
    let s := setReg (Reg.GEN_REFCLK_PPM n) (word (clip16 (10 * v))) s
    let bit : BitVec 4 := BitVec.ofNat 4 (2 ^ n)
    if 500 < v ∨ v < -500 then
      if s.boot.refOut.getLsbD n then refclkLoss n s else modBoot (fun x => { x with refOut := x.refOut ||| bit }) s
    else
      modBoot (fun x => { x with refOut := x.refOut &&& ~~~ bit,
                                 refPresent := if n = 2 ∧ x.lineRefHold then x.refPresent else x.refPresent ||| bit }) s

/-- REFCLK_MEASURE (R547): an input out of range at two measurements running, 1 ms apart, is treated as absent. -/
def refclkMeasure (ppm : List (Option Int)) (s : State) : State :=
  each (ppm.zipIdx.take 4) (fun e s => refclkOne e.2 e.1 s) s

end Sys2Proof.Machine
end

