-- ==== Sys2Proof/Machine/Supply.lean ====
section
/-! DEFINITION. The supply warning, the ride-through of a dip, and the loss of a supply (R64 to R71, R539, R541). -/
namespace Sys2Proof.Machine

/-- The lower of two readings. -/
def lowerMv (a b : BitVec 16) : BitVec 16 := if b.toNat < a.toNat then b else a

/-- EV_VIN_WARN (R64, R67): VIN below 10.4 V for two samples; the episode begins, the load is shed. -/
def vinWarn (mv : BitVec 16) (s : State) : State :=
  let s := modSupply (fun x => { x with vinMv := mv }) s
  if s.supply.warning ∨ 10400 ≤ mv.toNat ∨ s.boot.inReset.isSome then s
  else
    s |> modSupply (fun x => { x with warning := true, lowestMv := mv, dropped := 0 })
      |> event 0x0207 (beBytes 2 mv.toNat) |> dipLadder

/-- VIN_WARN_REPEAT (R69): below 10.4 V again during the 1 ms of R68, in the same episode. -/
def vinWarnRepeat (mv : BitVec 16) (s : State) : State :=
  let s := modSupply (fun x => { x with vinMv := mv }) s
  if s.supply.warning ∧ mv.toNat < 10400 then
    s |> modSupply (fun x => { x with lowestMv := lowerMv x.lowestMv mv }) |> count Reg.CNT_VIN_WARN_REPEAT
  else s

/-- The ACCEPTs held in the episode are sent (R66, R68). -/
def sendHeldAccepts (s : State) : State :=
  let l := s.supply.heldAccepts
  each l (fun e s => admitLane e.1 8 e.2 false s) (modSupply (fun x => { x with heldAccepts := [] }) s)

/-- EV_VIN_RECOVER (R68): VIN at or above 10.6 V for 1 ms; the terminal resumes. -/
def vinRecover (mv : BitVec 16) (us : Word) (lowest : BitVec 16) (s : State) : State :=
  let s := modSupply (fun x => { x with vinMv := mv }) s
  if !s.supply.warning ∨ mv.toNat < 10600 then s
  else
    let low := lowerMv s.supply.lowestMv lowest
    s |> count64 Reg.CNT_DIP_FRAMES_LOST_LO s.supply.dropped
      |> modSupply (fun x => { x with warning := false, dropped := 0, resumedCycle := some s.cycle })
      |> when' (!s.pwr.suspended) ungateShed |> lanesResume |> circResume |> sendHeldAccepts |> resendAll
      |> event 0x0208 (beBytes 4 us.toNat ++ beBytes 2 low.toNat)

/-- VAUX_LOSS (R541): the dip commit runs from the hold-up store; then every domain is held in reset (`vauxEnd`). -/
def vauxLoss (s : State) : State :=
  if s.supply.vauxLost then s
  else modSupply (fun x => { x with vauxLost := true, commitAt := some (x.commitAt.getD s.cycle) }) s

/-- The end of the bound of R205, 142 µs after VAUX was lost: every domain is in reset. -/
def vauxEnd (s : State) : State :=
  match s.supply.commitAt with
  | some c => if s.supply.vauxLost ∧ s.boot.inReset.isNone ∧ c + 142000 ≤ s.cycle then fullReset .cold 0 s else s
  | none => s

/-- VIN_OVERCURRENT_DISCONNECT (R539): VIN is disconnected, which is a fall to 9.6 V (R58). -/
def vinDisconnect (s : State) : State :=
  s |> modSupply (fun x => { x with disconnected := true, vinMv := 0 }) |> when' (!s.supply.vauxLost) (requestReset .dip 0)

end Sys2Proof.Machine
end

