-- ==== Sys2Proof/Machine/Views.lean ====
section
/-! DEFINITION. What a register shows: the registers whose value is a part of the state, computed from it. A register not
named here shows what it is held with. -/
namespace Sys2Proof.Machine

/-- The low and the high word of a number. -/
def loWord (n : Nat) : Word := word n
def hiWord (n : Nat) : Word := word (n / 2 ^ 32)

/-- The code of a start-up phase. -/
def phaseCodeBoot : Phase → Nat
  | .rom => 0 | .loading => 1 | .held => 2 | .applying => 3 | .running => 4 | .noImage => 15

/-- GEN_TICK_STATUS: PHASE_ERR in units of 8 ns. -/
def tickStatusView (s : State) : Word :=
  let t := s.tick
  word (at' 16 (twos 16 (clipSigned 16 (t.phaseNs / 8))) + at' 4 t.seam.val + at' 3 t.side.val + at' 2 (b2n t.slewing)
    + b2n t.line)

/-- GEN_BOOT_STATUS. -/
def bootStatusView (s : State) : Word :=
  let b := s.boot
  word (at' 8 b.straps.chainAddr.toNat + at' 7 (b2n b.straps.bootHold) + at' 5 b.straps.imgsel.toNat + at' 4 (b2n b.srcB)
    + phaseCodeBoot b.phase)

/-- GEN_VIN_STATUS: STATE 2 while VIN has come back to 10.6 V in an episode (R68). -/
def vinView (s : State) : Word :=
  word (at' 16 (if !s.supply.warning then 0 else if 10600 ≤ s.supply.vinMv.toNat then 2 else 1) + s.supply.vinMv.toNat)

/-- The GEN and IMG blocks. -/
def genView (a : Nat) (s : State) : Word :=
  if a = Reg.GEN_TICK_STATUS then tickStatusView s
  else if a = Reg.GEN_TICK_COUNT_LO then loWord s.tick.count.toNat
  else if a = Reg.GEN_TICK_COUNT_HI then hiWord s.tick.count.toNat
  else if a = Reg.GEN_RESET_CAUSE then word (at' 16 s.boot.lastDomain + at' 8 s.boot.lastSub + s.boot.lastKind)
  else if a = Reg.GEN_BOOT_STATUS then bootStatusView s
  else if a = Reg.GEN_VIN_STATUS then vinView s
  else if a = Reg.GEN_REFCLK_STATUS then word s.boot.refPresent.toNat
  else if a = Reg.IMG_ACTIVE then (match s.boot.image with | some i => i.generation | none => 0)
  else if a = Reg.IMG_FW_VERSION then (match s.boot.image with | some i => i.fwVersion | none => 0)
  else if a = Reg.IMG_A_STATUS then word s.boot.codeA
  else if a = Reg.IMG_B_STATUS then word s.boot.codeB
  else reg a s

/-- The code of a seam's alignment state. -/
def alignCode : SeamAlign → Nat
  | .off => 0 | .hunt => 1 | .presync => 2 | .sync => 3

/-- LINE_STATUS. -/
def lineStatusView (side n : Nat) (s : State) : Word :=
  let x := seam side n s
  word (at' 20 x.cands.length + at' 19 (b2n x.heRdi) + at' 18 (b2n x.mfAligned) + at' 16 (alignCode x.align)
    + at' 7 (b2n x.heidBad) + at' 4 (b2n x.sd) + at' 3 (b2n x.sf) + at' 2 (b2n x.lomf) + at' 1 (b2n x.lof) + b2n x.los)

/-- The LINE block. -/
def lineView (a : Nat) (s : State) : Word :=
  let side := (a - 0x100000) / 0x40000
  let n := (a - 0x100000) % 0x40000 / 0x10000
  if a = Reg.LINE_STATUS side n then lineStatusView side n s
  else if a = Reg.LINE_FC_LO side n then loWord (seam side n s).fc.toNat
  else if a = Reg.LINE_FC_HI side n then hiWord (seam side n s).fc.toNat
  else if a = Reg.LINE_HEID side n then word (seam side n s).heid.toNat
  else reg a s

/-- JOIN_ID_STATUS. -/
def idStatusView (i : Nat) (s : State) : Word :=
  let x := ident i s
  let cause := if x.phase = .held then causeCode x.cause else 0
  let doze := match dozeIn s.tick.count x with | some d => d.state | none => 0
  let tn := match x.tn with | some t => t.toNat | none => 0xFFF
  word (at' 24 (phaseCode x.phase) + at' 20 cause + at' 16 doze + tn)

/-- JOIN_ID_SAVED. -/
def idSavedView (i : Nat) (s : State) : Word :=
  let side := activeSide s
  word (at' 17 (b2n (expelledFlag i s)) + at' 16 (b2n (savedValid side i s))
    + (if savedValid side i s then savedHeid side i s else 0))

/-- JOIN_ALLOC. -/
def allocView (a : Nat) (s : State) : Word :=
  let x := ident (a / 8) s
  let home := tget (fun _ => 0) x.homes (a % 8)
  if hasAlloc (a / 8) (a % 8) s then
    word (at' 31 1 + at' 30 (b2n (home != 0)) + at' 28 (home - 1)
      + (if a % 8 = 0 then (match x.tn with | some t => t.toNat | none => 0) else allocIdOf (a / 8) (a % 8) s))
  else 0

/-- The JOIN block. -/
def joinView (a : Nat) (s : State) : Word :=
  let d := a - 0x200000
  if a = Reg.JOIN_EQD 0 then eqdWord 0 s
  else if a = Reg.JOIN_EQD 1 then eqdWord 1 s
  else if a = Reg.JOIN_SERIAL_LO then word (Config.moduleSerial.toNat % 2 ^ 25 * 128)
  else if a = Reg.JOIN_SERIAL_HI then word (Config.moduleSerial.toNat / 2 ^ 25)
  else if 0x100 ≤ d ∧ d < 0x200 then keepValue (profileEntry ((d - 0x100) / 0x80) (d % 0x80 / 0x10) (d % 0x10 / 4)) s
  else if 0x1000 ≤ d ∧ d < 0x1800 then
    let i := (d - 0x1000) / 0x10
    if a = Reg.JOIN_ID_STATUS i then idStatusView i s
    else if a = Reg.JOIN_ID_SAVED i then idSavedView i s
    else reg a s
  else if 0x2000 ≤ d ∧ d < 0x3000 then allocView ((d - 0x2000) / 4) s
  else reg a s

/-- Whether an active circuit is in LOP. -/
def circLop (c : Nat) (s : State) : Bool := (circuit c s).active && (circuit c s).lop

/-- CIRC_LOP_SUM. -/
def lopSumView (w : Nat) (s : State) : Word :=
  word ((List.range 32).foldl (fun n b => n + at' b (b2n (circLop (32 * w + b) s))) 0)

/-- CIRC_STATUS: the pointers of a circuit that is not active read 0. -/
def circStatusView (c : Nat) (s : State) : Word :=
  let x := circuit c s
  word (at' 31 (b2n x.active) + at' 28 x.refuse + (if x.active then at' 27 (b2n x.lop) + at' 26 (b2n x.loss)
    + at' 16 x.p + x.ptrSent else 0))

/-- The CIRC block. -/
def circView (a : Nat) (s : State) : Word :=
  let c := (a - 0x301000) / 0x40
  if 0x300010 ≤ a ∧ a < 0x300090 then lopSumView ((a - 0x300010) / 4) s
  else if a < 0x301000 ∨ 0x340000 ≤ a then reg a s
  else if a = Reg.CIRC_STATUS c then circStatusView c s
  else if a = Reg.CIRC_FILL c then word (circuit c s).fill
  else reg a s

/-- The TALLY block. -/
def tallyView (a : Nat) (s : State) : Word :=
  let f := (a - 0x401000) / 0x10
  if a = Reg.TALLY_ACC_BUDGET then tallyBudgetView s
  else if a = Reg.TALLY_NEXT_LO then loWord s.tally.next
  else if a = Reg.TALLY_NEXT_HI then hiWord s.tally.next
  else if a = Reg.TALLY_JOURNAL then tallyJournalView s
  else if a = Reg.TALLY_JOURNAL_FREE then tallyFreeView s
  else if a < 0x401000 ∨ 0x409000 ≤ a then reg a s
  else if a = Reg.TALLY_FLOW_STATUS f then flowStatusView f s
  else if a = Reg.TALLY_FLOW_NEXT f then word (shownNext f s)
  else if a = Reg.TALLY_FLOW_OLDEST f then word (oldestTally f s)
  else reg a s

/-- A cap as a register shows it. -/
def capView : Option Nat → Word
  | some c => word (satTo 32 c)
  | none => 0xFFFFFFFF

/-- A credit in whole bytes. -/
def creditView (c : Credit) : Word := word (twos 32 (clipSigned 32 (c.amount / 256000000)))

/-- SCHED_PORT_PAUSE. -/
def pauseView (p : Nat) (s : State) : Word :=
  word (at' 8 (b2n (lanesPaused p s)) + (List.range 8).foldl (fun n q => n + at' q (b2n (queuePaused p q s))) 0)

/-- SCHED_GATE_CTRL: COUNT as it is held, PENDING and ERR. -/
def gateCtrlView (p : Nat) (s : State) : Word :=
  word (at' 30 (b2n (sched p s).pend.isSome) + at' 27 (sched p s).gateErr + rfld (Reg.SCHED_GATE_CTRL p) 8 0 s)

/-- SCHED_GATE_STATUS. -/
def gateStatusView (p : Nat) (s : State) : Word :=
  match (sched p s).oper with
  | none => 0
  | some g =>
    let spans := gateSpans g.cycleNs g.entries 0
    let e := (spans.findIdx? (fun x => decide (gatePos g s < x.1))).getD 0
    word (at' 31 1 + at' 8 e + (match spans[e]? with | some x => x.2 | none => 0))

/-- The start S of a port's operating list, in nanoseconds. -/
def gateStartOf (p : Nat) (s : State) : Nat :=
  match (sched p s).pend, (sched p s).oper with
  | some g, _ => g.startNs
  | none, some g => g.startNs
  | none, none => 0

/-- SCHED_Q_DEPTH. -/
def queueDepthView (p q : Nat) (s : State) : Word :=
  word (at' 16 (satTo 16 ((queue p q s).deficit / 64)) + satTo 16 (queueCells (queue p q s).frames))

/-- The SCHED block. -/
def schedView (a : Nat) (s : State) : Word :=
  let p := (a - 0x610000) / 0x200
  let q := ((a - 0x610000) % 0x200 - 0x100) / 0x20
  let k := (a - 0x660000) / 0x10
  if a = Reg.SCHED_PLAN then planView s
  else if a = Reg.SCHED_PLAN_E then planEView s
  else if a < 0x610000 then reg a s
  else if 0x660000 ≤ a then (if a = Reg.SCHED_AQ_BACKLOG k then word (satTo 32 (backlog k s)) else reg a s)
  else if a = Reg.SCHED_PORT_CREDIT p then creditView (portCredit p s)
  else if a = Reg.SCHED_PORT_WCAP p then capView (portCap p s)
  else if a = Reg.SCHED_PORT_PAUSE p then pauseView p s
  else if a = Reg.SCHED_GATE_CTRL p then gateCtrlView p s
  else if a = Reg.SCHED_GATE_STATUS p then gateStatusView p s
  else if a = Reg.SCHED_GATE_START_NS p then word (gateStartOf p s % 10 ^ 9)
  else if a = Reg.SCHED_GATE_START_SEC_LO p then loWord (gateStartOf p s / 10 ^ 9)
  else if a = Reg.SCHED_GATE_START_SEC_HI p then hiWord (gateStartOf p s / 10 ^ 9)
  else if (a - 0x610000) % 0x200 < 0x100 then reg a s
  else if a = Reg.SCHED_Q_CREDIT p q then creditView (queueCredit p q s)
  else if a = Reg.SCHED_Q_DEPTH p q then queueDepthView p q s
  else reg a s

/-- The bytes of the frames of a list that DRAM holds. -/
def dramBytesOf (fs : List QFrame) : Nat := ((fs.filter (fun f => f.dram.isSome)).map (fun f => f.bytes.length)).sum

/-- The frame bytes held in DRAM. -/
def dramHeld (s : State) : Nat :=
  (s.sched.ports.map (fun e => (e.2.queues.map (fun x => dramBytesOf x.2.frames)).sum)).sum
    + (s.sched.aqs.map (fun e => (e.2.subs.map (fun x => dramBytesOf x.2)).sum)).sum

/-- The TUB block: ring 0 is the supervisor's, set up as it reads (R318). -/
def tubView (a : Nat) (s : State) : Word :=
  let r := (a - 0x700100) / 0x10
  let h := (a - 0x700040) / 4
  if 0x700040 ≤ a ∧ a < 0x70004C then word (cellsUsed h s)
  else if a = Reg.TUB_SHARED_SIZE then word (393216 - floorSum s)
  else if a = Reg.TUB_SHARED_USED then word (cellsUsed 3 s)
  else if a = Reg.TUB_DDR_STATUS then
    word (at' 16 (satTo 16 (s.tub.ddrLeft / 1024)) + at' 8 (b2n s.tub.trained) + at' 4 s.assay.ddrFailed.toNat
      + s.tub.mappedOut.toNat)
  else if a = Reg.TUB_DDR_HELD then word ((dramHeld s + 1023) / 1024)
  else if a = Reg.TUB_RING_CFG 0 then 0x8A0A0000
  else if 0x700100 ≤ a ∧ a = Reg.TUB_RING_POS r then word (at' 16 (ringPostIdx r s) + ringTakeIdx r s)
  else reg a s

/-- The code of a channel's state. -/
def wndPhaseCode : WndPhase → Nat
  | .idle => 0 | .run => 1 | .park => 2 | .halt => 3

/-- The WND block. -/
def wndView (a : Nat) (s : State) : Word :=
  let c := (a - 0x781000) / 0x20
  if a < 0x781000 then reg a s
  else if a = Reg.WND_CH_STATUS c then
    word (at' 8 (wndChan c s).err + at' 3 (b2n (wndChan c s).pend) + wndPhaseCode (wndChan c s).phase)
  else if a = Reg.WND_CH_CUR_LO c then loWord (wndChan c s).cur.toNat
  else if a = Reg.WND_CH_CUR_HI c then hiWord (wndChan c s).cur.toNat
  else reg a s

/-- The PORT block. -/
def portView (a : Nat) (s : State) : Word :=
  let l := (a - 0x800000) / 0x1000
  if a = Reg.PORT_CFG l then portCfgView l s
  else if a = Reg.PORT_STATUS l then portStatus l s
  else if a = Reg.PORT_EEE_STATUS l then word (at' 16 (port l s).partRxTw + (port l s).twTx)
  else reg a s

/-- The registers all ports share. -/
def portSharedView (a : Nat) (s : State) : Word :=
  let g := (a - 0xA00100) / 0x20
  let n := (a - 0xA00010) / 4
  if a = Reg.PORT_RATE_TOTAL then word (rateTotal (modesNow s))
  else if a < 0xA00100 then word (ratePipe (modesNow s) n)
  else if a = Reg.PORT_MDIO_CMD g 0 then mdioCmdView g 0 s
  else if a = Reg.PORT_MDIO_CMD g 1 then mdioCmdView g 1 s
  else if a = Reg.PORT_MDIO_RDATA g 0 then word (tget (fun _ => 0) (mdioBus g s).rdata 0)
  else if a = Reg.PORT_MDIO_RDATA g 1 then word (tget (fun _ => 0) (mdioBus g s).rdata 1)
  else reg a s

/-- The LANE block. What LANE_RAW_CAP holds is what the lane receives: a free value. -/
def laneView (a : Nat) (s : State) : Word :=
  let l := (a - 0xC00000) / 0x400
  if 0xD00000 ≤ a then reg a s
  else if a = Reg.LANE_STATUS l then laneStatus l s
  else if a = Reg.LANE_EYE_CTRL l then word (at' 31 (b2n (lane l s).scan)) ||| reg a s
  else if a = Reg.LANE_EYE_RESULT l then (lane l s).eye
  else if a = Reg.LANE_RAW_CAP l then word (Config.freeNat s.free)
  else reg a s

/-- The TIME block. -/
def timeView (a : Nat) (s : State) : Word :=
  let t := s.time
  if a = Reg.TIME_STATUS then
    word (at' 8 (b2n t.stepRefused) + at' 6 t.sel + at' 3 t.qual.toNat + at' 2 (b2n t.locked) + at' 1 (b2n t.holdover)
      + b2n t.valid)
  else if a = Reg.TIME_SRC_OFFSET then word (twos 32 (clipSigned 32 (t.offsetPs.getD t.lastOffsetPs)))
  else if a = Reg.TIME_NOW_NS then word (timeNs s)
  else if a = Reg.TIME_NOW_SEC_LO then loWord (timeSeconds s)
  else if a = Reg.TIME_NOW_SEC_HI then hiWord (timeSeconds s)
  else if a = Reg.TIME_NOW_FRAC then word (timeFrac s)
  else reg a s

/-- The PROT block. -/
def protView (a : Nat) (s : State) : Word :=
  if a = Reg.PROT_CMD then word (at' 4 s.prot.err)
  else if a = Reg.PROT_STATUS then protStatus s
  else if a = Reg.PROT_HEALTH 0 then healthView 0 s
  else if a = Reg.PROT_HEALTH 1 then healthView 1 s
  else if a = Reg.PROT_LAST_SWITCH then s.prot.lastSwitch
  else reg a s

/-- CIPH_ROOT_STATUS and CIPH_LOADED_STATUS: the check values of R425. -/
def rootStatusView (s : State) : Word :=
  match s.keep.opRoot with
  | some k => word (at' 31 1 + keyCheck k)
  | none => 0

def loadedStatusView (k : Nat) (s : State) : Word :=
  let b := tget (fun _ => []) s.keep.loaded k
  if b.isEmpty then 0 else word (at' 31 1 + at' 30 (b2n (b.length == 32)) + keyCheck b)

/-- The CIPH block. -/
def ciphView (a : Nat) (s : State) : Word :=
  let i := (a - 0xF01000) / 0x10
  if a = Reg.CIPH_ROOT_STATUS then rootStatusView s
  else if Reg.CIPH_LOADED_STATUS 0 ≤ a ∧ a ≤ Reg.CIPH_LOADED_STATUS 63 then
    loadedStatusView ((a - Reg.CIPH_LOADED_STATUS 0) / 4) s
  else if a = Reg.CIPH_CTR_NEXT_LO then loWord s.ciph.ctr
  else if a = Reg.CIPH_CTR_NEXT_HI then hiWord s.ciph.ctr
  else if a = Reg.CIPH_DRAM_EPOCH then keepValue 32 s
  else if a = Reg.CIPH_JOURNAL_EPOCH then journalEpoch s
  else if a = Reg.CIPH_SLOTS then word (at' 16 (pendingSlots s) + freeSlots s)
  else if a < 0xF01000 then reg a s
  else if a = Reg.CIPH_ID_EPOCH_DS i then (keyDir i false s).cur.epoch
  else if a = Reg.CIPH_ID_EPOCH_US i then (keyDir i true s).cur.epoch
  else if a = Reg.CIPH_ID_STATUS i then ciphStatus i s
  else reg a s

/-- The PWR block. -/
def pwrView (a : Nat) (s : State) : Word :=
  let c := (a - Reg.PWR_VOTE 0) / 4
  let d := (a - 0x1000400) / 0x10
  if a = Reg.PWR_LADDER_STATUS then ladderView s
  else if a = Reg.PWR_WAKE_TIMER then wakeTimerView s
  else if Reg.PWR_VOTE 0 ≤ a ∧ a ≤ Reg.PWR_VOTE 9 then voteView c s
  else if a = Reg.PWR_GOV_ALLOW then govAllowView s
  else if a = Reg.PWR_GOV_STATUS then govStatusView s
  else if a = Reg.PWR_TEMP then tempView s
  else if 0x1000400 ≤ a ∧ a = Reg.PWR_DOM_STATUS d then domView d s
  else reg a s

/-- The ASSAY block. -/
def assayView (a : Nat) (s : State) : Word :=
  let k := (a - Reg.ASSAY_PREDICT 0) / 4
  if a = Reg.ASSAY_STATUS then assayStatusView s
  else if a = Reg.ASSAY_VCORE then word (vcoreMv s)
  else if a = Reg.ASSAY_SLACK then assaySlackView s
  else if Reg.ASSAY_PREDICT 0 ≤ a ∧ a ≤ Reg.ASSAY_PREDICT 3 then assayPredictView k s
  else reg a s

/-- A source's number: the key of its latches and of its REC_WIN_OFF. -/
def srcCode : Source → Nat
  | .host => 0 | .chain => 1 | .sup => 2

/-- REC_WIN_OFF of a source. -/
def winOffOf (src : Source) (s : State) : Word := tget (fun _ => 0) s.recd.winOff (srcCode src)

/-- The KEEP and REC blocks. -/
def keepView (src : Source) (a : Nat) (s : State) : Word :=
  if a = Reg.KEEP_STATUS then keepStatusView s
  else if a = Reg.KEEP_SPARE 0 then word (spareLeft 0 s)
  else if a = Reg.KEEP_SPARE 1 then word (spareLeft 1 s)
  else if a = Reg.KEEP_ENTRY_ADDR then word (regOfEntry (wearIndex s))
  else if a = Reg.KEEP_WEAR_LO then loWord (keepEntry (wearIndex s) s).wear
  else if a = Reg.KEEP_WEAR_HI then wearHiView s
  else if a = Reg.KEEP_WEAR_TOP then wearTopView s
  else if a = Reg.REC_OLDEST_SEQ_LO then loWord s.recd.oldestSeq
  else if a = Reg.REC_OLDEST_SEQ_HI then hiWord s.recd.oldestSeq
  else if a = Reg.REC_OLDEST_OFF then word s.recd.oldestOff
  else if a = Reg.REC_NEWEST_SEQ_LO then loWord s.recd.newestSeq
  else if a = Reg.REC_NEWEST_SEQ_HI then hiWord s.recd.newestSeq
  else if a = Reg.REC_NEWEST_OFF then word s.recd.newestOff
  else if a = Reg.REC_WIN_OFF then winOffOf src s
  else if a = Reg.REC_BUCKET then word (bucketNow s.cycle s.recd / 10 ^ 9)
  else if Reg.REC_WIN 0 ≤ a ∧ a ≤ Reg.REC_WIN 69 then recWindow (winOffOf src s).toNat ((a - Reg.REC_WIN 0) / 4) s
  else reg a s

/-- Whether exactly one chain port is out of service (CHAIN_STATUS.WRAP). -/
def chainWrap (s : State) : Bool := chainUp 0 s != chainUp 1 s

/-- The alert causes (CHAIN_ALERT_CAUSE, R526). -/
def alertCauses (s : State) : Word :=
  word (b2n (faultN s) + at' 1 (b2n (inDip s)) + at' 2 (b2n s.pwr.firedamp) + at' 3 (b2n s.time.holdover)
    + at' 4 (b2n s.keep.failedDie.isSome) + at' 5 (b2n (chainWrap s)) + at' 6 (b2n s.chain.dup)
    + at' 7 (b2n (!s.chain.reachable)))

/-- The causes CHAIN_ALERT_EN lets through. -/
def maskedCauses (s : State) : Word := alertCauses s &&& reg Reg.CHAIN_ALERT_EN s

/-- ALERT_N (R526). -/
def alertN (s : State) : Bool :=
  maskedCauses s != 0
    || (isBanksman s && (reg Reg.HOST_ALERT_MEMBER_LO s != 0 || reg Reg.HOST_ALERT_MEMBER_HI s != 0))

/-- CHAIN_STATUS. -/
def chainStatusView (s : State) : Word :=
  word (at' 31 (b2n s.chain.reachable) + at' 30 (b2n (isBanksman s)) + at' 29 (b2n s.chain.dup)
    + at' 28 (b2n (chainWrap s)) + at' 16 s.chain.banksman + at' 10 (chainPortCode 0 s) + at' 8 (chainPortCode 1 s)
    + chainAddr s)

/-- The CHAIN and HOST blocks. -/
def chainView (a : Nat) (s : State) : Word :=
  if a = Reg.CHAIN_STATUS then chainStatusView s
  else if a = Reg.CHAIN_TIME_OFFSET then s.chain.timeOffset
  else if a = Reg.CHAIN_ALERT_CAUSE then alertCauses s
  else if a = Reg.HOST_ID then word (at' 16 0x0512 + Config.pciVendor.toNat)
  else if a = Reg.HOST_STATUS then
    word (at' 31 (b2n s.host.link) + at' 28 s.host.speed + at' 24 s.host.width + s.host.inflight.length)
  else reg a s

/-- What the register at an address shows to a source. -/
def regView (src : Source) (a : Nat) (s : State) : Word :=
  match entryOfReg a with
  | some i => keepValue i s
  | none =>
    if a < 0x100000 then genView a s
    else if a < 0x200000 then lineView a s
    else if a < 0x300000 then joinView a s
    else if a < 0x400000 then circView a s
    else if a < 0x500000 then tallyView a s
    else if a < 0x600000 then (if a = Reg.CLS_FDB_COUNT then word (fdbCount s) else reg a s)
    else if a < 0x700000 then schedView a s
    else if a < 0x780000 then tubView a s
    else if a < 0x800000 then wndView a s
    else if a < 0xA00000 then portView a s
    else if a < 0xC00000 then portSharedView a s
    else if a < 0xE00000 then laneView a s
    else if a < 0xE80000 then timeView a s
    else if a < 0xF00000 then protView a s
    else if a < 0x1000000 then ciphView a s
    else if a < 0x1080000 then pwrView a s
    else if a < 0x1100000 then assayView a s
    else if a < 0x1200000 then keepView src a s
    else chainView a s

end Sys2Proof.Machine
end

