-- ==== Sys2Proof/Machine/RegAccess.lean ====
section
/-! DEFINITION. Accesses to registers (R7 to R15, R40, R52, R53, R457): what a read returns and does, what a write of each
register sets and starts, and how an access is judged. -/
namespace Sys2Proof.Machine

/-! ### Reads (R12, R14, R15) -/

/-- The bits of a row that a read returns: a WO field reads 0. -/
def RegRow.readMask (r : RegRow) : Word :=
  (word r.rw ||| word r.ro ||| word r.rc ||| word r.w1c ||| word r.w1s ||| word r.pw ||| word r.lr) &&& ~~~ word r.wo

/-- The key of a latch. -/
def latchKey (src : Source) (a : Nat) : Nat := srcCode src * 2 ^ 32 + a

/-- Latch a high word for a source. -/
def setLatch (src : Source) (a : Nat) (v : Word) (s : State) : State :=
  { s with latch := tput (fun _ => 0) (latchKey src a) v s.latch }

/-- Whether the register at an address is the high word of an LR group. -/
def isHigh (a : Nat) : Bool :=
  match regRow a with
  | some r => r.kind == .high
  | none => false

/-- Latch the words that follow a low word, as far as they are of its group. -/
def latchGroup (src : Source) : Nat → Nat → State → State
  | 0, _, s => s
  | n + 1, a, s => if isHigh a then latchGroup src n (a + 4) (setLatch src a (regView src a s) s) else s

/-- Whether a register shows a free value: LANE_RAW_CAP. -/
def showsFree (a : Nat) : Bool := decide (0xC00000 ≤ a) && decide (a < 0xD00000) && a % 0x400 == 0x18

/-- Whether a register is an FEC counter that reads 0: its lane runs in modes 1 to 3 (R362). -/
def fecHidden (a : Nat) (s : State) : Bool :=
  let p := (a - 0x800000) / 0x1000
  let m := laneMode p s
  decide (0x800000 ≤ a) && decide (a < 0xA00000) && decide (1 ≤ m) && decide (m ≤ 3)
    && [Reg.CNT_PORT_FEC_CORR_LO p, Reg.CNT_PORT_FEC_CORR_LO p + 4, Reg.CNT_PORT_FEC_UNCORR_LO p,
        Reg.CNT_PORT_FEC_UNCORR_LO p + 4].contains a

/-- The value a register read returns and the state after it; `inc` counts what falls in the cycle of the read (R14). -/
def readReg (src : Source) (a inc : Nat) (s : State) : Word × State :=
  match regRow a with
  | none => (0, s)
  | some r =>
    match r.kind with
    | .rc => (reg a s, setReg a (word (satTo 32 inc)) s)
    | .low1 =>
      let hidden := fecHidden a s
      (if hidden then 0 else reg a s,
        s |> setLatch src (a + 4) (if hidden then 0 else reg (a + 4) s) |> setReg a (loWord inc) |> setReg (a + 4) (hiWord inc))
    | .low0 => (regView src a s, latchGroup src 3 (a + 4) s)
    | .high => (if fecHidden a s then 0 else tget (fun _ => 0) s.latch (latchKey src a), s)
    | .plain | .pw | .perSource => (regView src a s &&& r.readMask, when' (showsFree a) nextFree s)

/-! ### Writes -/

/-- The RW bits of a written value: a field out of its range keeps what it held. -/
def RegRow.rwValue (r : RegRow) (old v : Word) : Word :=
  r.lims.foldl (fun x f => if fld v f.hi f.lo < f.min ∨ f.max < fld v f.hi f.lo then putFld x f.hi f.lo (fld old f.hi f.lo)
    else x) (v &&& word r.rw)

/-- A register after a plain write (R12, R13): `same` are W1C bits whose source sets them in the same cycle. -/
def RegRow.written (r : RegRow) (old v same : Word) : Word :=
  (old &&& ~~~ (word r.rw ||| (v &&& word r.w1c))) ||| (r.rwValue old v &&& word r.rw) ||| (v &&& word r.w1s)
    ||| (same &&& word r.w1c)

/-- A write that only sets what the register holds. -/
def plainWrite (a : Nat) (v same : Word) (s : State) : State :=
  match regRow a with
  | some r => setReg a (r.written (reg a s) v same) s
  | none => s

/-- A write of GEN_LED_CFG (R572): DIV and PERIOD_MS stay where the time in which 1,056 bits are shifted out would reach
PERIOD_MS. -/
def ledCfgWrite (v : Word) (s : State) : State :=
  let old := rfld Reg.GEN_LED_CFG 15 0 s
  let s := plainWrite Reg.GEN_LED_CFG v 0 s
  if rfld Reg.GEN_LED_CFG 7 0 s * 20000 ≤ 1056 * rfld Reg.GEN_LED_CFG 15 8 s then setRfld Reg.GEN_LED_CFG 15 0 old s else s

/-- Writes in the GEN and IMG blocks. -/
def genWrite (src : Source) (a : Nat) (v same : Word) (s : State) : State :=
  if a = Reg.GEN_RESET_CMD then chainReset v s
  else if a = Reg.GEN_DOMAIN_RESET then domainResets (BitVec.ofNat 21 v.toNat) s
  else if a = Reg.GEN_BOOT_CTRL then (if bitOf v 0 ∧ src ≠ .sup then bootRelease s else s)
  else if a = Reg.GEN_LED_CFG then ledCfgWrite v s
  else plainWrite a v same s

/-- Writes in the LINE block: a CLR above SET is ignored. -/
def lineWrite (a : Nat) (v same : Word) (s : State) : State :=
  let side := (a - 0x100000) / 0x40000
  let n := (a - 0x100000) % 0x40000 / 0x10000
  if a = Reg.LINE_SD_CLR side n ∧ (reg (Reg.LINE_SD_SET side n) s).toNat < v.toNat then s
  else plainWrite a v same s

/-- A write of JOIN_ID_CFG (R144): UNEXPEL first, then EN. -/
def idCfgWrite (i : Nat) (v : Word) (s : State) : State :=
  s |> plainWrite (Reg.JOIN_ID_CFG i) v 0 |> when' (bitOf v 31) (unexpel i) |> idCfgWritten i

/-- Writes in the JOIN block. -/
def joinWrite (a : Nat) (v same : Word) (s : State) : State :=
  let i := (a - 0x201000) / 0x10
  if 0x201000 ≤ a ∧ a < 0x201800 ∧ a = Reg.JOIN_ID_CFG i then idCfgWrite i v s else plainWrite a v same s

/-- A write of CIRC_CFG (R184): EN from 0 to 1 samples the circuit's fields. -/
def circCfgWrite (c : Nat) (v : Word) (s : State) : State :=
  let was := rbit (Reg.CIRC_CFG c) 31 s
  s |> plainWrite (Reg.CIRC_CFG c) v 0 |> when' (!was && bitOf v 31) (sampleCircuit c)

/-- Writes in the CIRC block. -/
def circWrite (a : Nat) (v same : Word) (s : State) : State :=
  let c := (a - 0x301000) / 0x40
  if 0x301000 ≤ a ∧ a < 0x340000 ∧ a = Reg.CIRC_CFG c then circCfgWrite c v s else plainWrite a v same s

/-- A write of TALLY_RESERVE (R209): one that is not greater than the value held is ignored and counted. -/
def tallyReserveWrite (v : Word) (s : State) : State :=
  if v.toNat ≤ (keepValue 1 s).toNat then count Reg.CNT_TALLY_CFG_BAD s else keepWrite 1 v s

/-- Writes in the TALLY block. -/
def tallyWrite (a : Nat) (v same : Word) (s : State) : State :=
  let f := (a - 0x401000) / 0x10
  if a = Reg.TALLY_RESERVE then tallyReserveWrite v s
  else if 0x401000 ≤ a ∧ a < 0x409000 ∧ a = Reg.TALLY_FLOW_CFG f then flowCfgWrite f v s
  else plainWrite a v same s

/-- A write of CLS_RULE_CMD. -/
def ruleCmdWrite (n : Nat) (v : Word) (s : State) : State :=
  if fld v 17 16 = 1 then ruleWrite n v s
  else if fld v 17 16 = 2 then ruleRead n v s
  else plainWrite (Reg.CLS_RULE_CMD n) v 0 s

/-- A write of CLS_FDB_CMD. -/
def fdbCmdWrite (v : Word) (s : State) : State :=
  if fld v 2 0 = 1 then fdbInsert true s
  else if fld v 2 0 = 2 then fdbInsert false s
  else if fld v 2 0 = 3 then fdbDelete s
  else if fld v 2 0 = 4 then fdbLookup s
  else if fld v 2 0 = 5 then fdbDeleteByDest s
  else s

/-- A write of CLS_VLAN_CMD. -/
def vlanCmdWrite (v : Word) (s : State) : State :=
  if fld v 17 16 = 1 then vlanWrite v s
  else if fld v 17 16 = 2 then vlanRead v s
  else plainWrite Reg.CLS_VLAN_CMD v 0 s

/-- Writes in the CLS block. -/
def clsWrite (a : Nat) (v same : Word) (s : State) : State :=
  let n := (a - 0x500000) / 0x40000
  if a = Reg.CLS_RULE_CMD n then ruleCmdWrite n v s
  else if a = Reg.CLS_FDB_CMD then fdbCmdWrite v s
  else if a = Reg.CLS_VLAN_CMD then vlanCmdWrite v s
  else if a = Reg.CLS_EXC_RATE ∨ a = Reg.CLS_EXC_DEPTH then s |> settleExc |> plainWrite a v same |> settleExc
  else plainWrite a v same s

/-- A write of SCHED_GCL_CMD. -/
def gclCmdWrite (v : Word) (s : State) : State :=
  if fld v 29 28 = 1 then gclWrite v s
  else if fld v 29 28 = 2 then gclRead v s
  else plainWrite Reg.SCHED_GCL_CMD v 0 s

/-- A write of SCHED_POL_CMD. -/
def polCmdWrite (v : Word) (s : State) : State :=
  if fld v 29 28 = 1 then policerWrite v s
  else if fld v 29 28 = 2 then policerRead v s
  else if fld v 29 28 = 3 then policerReadClear v s
  else plainWrite Reg.SCHED_POL_CMD v 0 s

/-- A write of SCHED_POL_SRC that would name a policer beyond 8,191 for an enabled class is ignored (R281). -/
def polSrcWrite (a : Nat) (v : Word) (s : State) : State :=
  if (List.range 16).any (fun c => bitOf v c && decide (8191 < fld v 28 16 + c)) then s else plainWrite a v 0 s

/-- Writes in the SCHED block. -/
def schedWrite (a : Nat) (v same : Word) (s : State) : State :=
  let p := (a - 0x610000) / 0x200
  let q := ((a - 0x610000) % 0x200 - 0x100) / 0x20
  if a = Reg.SCHED_GCL_CMD then gclCmdWrite v s
  else if a = Reg.SCHED_POL_CMD then polCmdWrite v s
  else if 0x601000 ≤ a ∧ a < 0x610000 then polSrcWrite a v s
  else if a < 0x610000 ∨ 0x660000 ≤ a then plainWrite a v same s
  else if a = Reg.SCHED_PORT_RATE p then portRateWrite p v s
  else if a = Reg.SCHED_PORT_BURST p then portBurstWrite p v s
  else if a = Reg.SCHED_GATE_CTRL p then gateCommit p v s
  else if (a - 0x610000) % 0x200 < 0x100 then plainWrite a v same s
  else if a = Reg.SCHED_Q_RATE p q then queueRateWrite p q v s
  else if a = Reg.SCHED_Q_BURST p q then queueBurstWrite p q v s
  else plainWrite a v same s

/-- Writes in the TUB block: the partition only while APPLYING (R307), or as a Domain reset of PD_FAB replays it exactly as at
start-up (R59), when the domain takes no other write; ring 0 fixed, a base only while EN is 0. -/
def tubWrite (a : Nat) (v same : Word) (s : State) : State :=
  let r := (a - 0x700100) / 0x10
  if a < 0x70003C then (if s.boot.phase = .applying ∨ s.boot.replay = some 4 then plainWrite a v same s else count Reg.CNT_TUB_CFG_BAD s)
  else if a < 0x700100 then plainWrite a v same s
  else if r = 0 then s
  else if a = Reg.TUB_RING_BASE r ∧ rbit (Reg.TUB_RING_CFG r) 31 s then s
  else plainWrite a v same s

/-- Writes in the WND block: a head only in IDLE, its low five bits 0. -/
def wndWrite (a : Nat) (v same : Word) (s : State) : State :=
  let c := (a - 0x781000) / 0x20
  if a < 0x781000 then plainWrite a v same s
  else if a = Reg.WND_CH_CFG c then wndCfgWrite c v s
  else if a = Reg.WND_CH_DOORBELL c then wndDoorbell c s
  else if a = Reg.WND_CH_HEAD_LO c then (if (wndChan c s).phase = .idle then setReg a (v &&& 0xFFFFFFE0) s else s)
  else if a = Reg.WND_CH_HEAD_HI c then (if (wndChan c s).phase = .idle then setReg a v s else s)
  else plainWrite a v same s

/-- Writes in the PORT block. -/
def portWrite (src : Source) (a : Nat) (v same : Word) (s : State) : State :=
  let l := (a - 0x800000) / 0x1000
  let g := (a - 0xA00100) / 0x20
  if a < 0xA00000 then
    (if a = Reg.PORT_CFG l then portModeWrite l v s
     else if a = Reg.PORT_EEE_CFG l then eeeCfgWrite l v s
     else plainWrite a v same s)
  else if a < 0xA00100 then s
  else if a = Reg.PORT_MDIO_CMD g 0 then mdioStart g 0 src v s
  else if a = Reg.PORT_MDIO_CMD g 1 then mdioStart g 1 src v s
  else if a = Reg.PORT_MDIO_ARG g 0 then mdioArgWrite g 0 src v s
  else if a = Reg.PORT_MDIO_ARG g 1 then mdioArgWrite g 1 src v s
  else plainWrite a v same s

/-- Writes in the LANE block. -/
def laneWrite (a : Nat) (v same : Word) (s : State) : State :=
  let l := (a - 0xC00000) / 0x400
  if 0xD00000 ≤ a then
    (if Reg.LANE_RETIRED 0 ≤ a ∧ a ≤ Reg.LANE_RETIRED 16 then retiredWrite ((a - Reg.LANE_RETIRED 0) / 4) v s
     else plainWrite a v same s)
  else if a = Reg.LANE_CFG l then laneCfgWrite l v s
  else if a = Reg.LANE_TXEQ l then txeqWrite l v s
  else if a = Reg.LANE_ALIGN l then slip l v s
  else if a = Reg.LANE_EYE_CTRL l then eyeScanStart l v s
  else plainWrite a v same s

/-- A write of TIME_PTP_PORT (R393): EN beyond 64 ports is ignored and counted, TRANSPORT 3 is ignored, STATE follows. -/
def ptpPortWrite (l : Nat) (v : Word) (s : State) : State :=
  let a := Reg.TIME_PTP_PORT l
  if bitOf v 31 && !rbit a 31 s && decide (64 ≤ ptpEnabledCount s) then count Reg.CNT_TIME_OWNER_BAD s
  else
    let was := rbit a 31 s
    let s := plainWrite a v 0 s
    let now := rbit a 31 s
    let s := when' (was != now) (setPtpPort l { ptpPort0 with listenAt := if now then some s.cycle else none }) s
    s |> setRfld a 10 8 (ptpDecide l s) |> runBmca

/-- Writes in the TIME block. -/
def timeWrite (src : Source) (a : Nat) (v same : Word) (s : State) : State :=
  let l := (a - 0xE01000) / 4
  if a = Reg.TIME_CTRL then ownerChange v s
  else if a = Reg.TIME_INC_LO then (if ownsTime src s then setReg a v s else count Reg.CNT_TIME_OWNER_BAD s)
  else if a = Reg.TIME_INC_HI then timeIncWrite src v s
  else if a = Reg.TIME_STEP_ALLOW then keepWrite 2 (v &&& 1) s
  else if a = Reg.TIME_ADJ_NS then timeAdj src v s
  else if 0xE01000 ≤ a then ptpPortWrite l v s
  else plainWrite a v same s

/-- Writes in the PROT block. -/
def protWrite (a : Nat) (v same : Word) (s : State) : State :=
  if a = Reg.PROT_CMD then (if 1 ≤ fld v 2 0 ∧ fld v 2 0 ≤ 4 then protCommand (fld v 2 0) s else s)
  else plainWrite a v same s

/-- A write of CIPH_UNWRAP_CMD. -/
def unwrapCmdWrite (v : Word) (s : State) : State :=
  if fld v 27 26 = 1 then unwrapKey v false s
  else if fld v 27 26 = 2 then eraseKey v s
  else plainWrite Reg.CIPH_UNWRAP_CMD v 0 s

/-- Writes in the CIPH block: the data registers of a root or a blob hold what is written, and read 0. -/
def ciphWrite (a : Nat) (v same : Word) (s : State) : State :=
  if Reg.CIPH_OPROOT_DATA 0 ≤ a ∧ a ≤ Reg.CIPH_OPROOT_DATA 7 then setReg a v s
  else if Reg.CIPH_UNWRAP_DATA 0 ≤ a ∧ a ≤ Reg.CIPH_UNWRAP_DATA 10 then setReg a v s
  else if a = Reg.CIPH_OPROOT_CMD then (if bitOf v 0 then oprootCommit s else s)
  else if a = Reg.CIPH_UNWRAP_CMD then unwrapCmdWrite v s
  else if a = Reg.CIPH_STORE_CMD then (if bitOf v 0 then rekey s else s)
  else if a = Reg.CIPH_CTR_RESERVE then (if v.toNat ≤ (keepValue 3 s).toNat then s else keepWrite 3 v s)
  else plainWrite a v same s

/-- Writes in the PWR block. -/
def pwrWrite (a : Nat) (v same : Word) (s : State) : State :=
  if a = Reg.PWR_WAKE_TIMER then setReg a v { s with pwr := { s.pwr with wakeSet := s.cycle } }
  else if a = Reg.PWR_VOTE 0 then hostVoteWrite v s
  else plainWrite a v same s

/-- Writes in the ASSAY block: ASSAY_HOURS is the terminal's own. -/
def assayWrite (a : Nat) (v same : Word) (s : State) : State :=
  if a = Reg.ASSAY_CTRL then s |> plainWrite a v same |> assayCtrlWrite v
  else if Reg.ASSAY_HOURS 0 ≤ a ∧ a ≤ Reg.ASSAY_HOURS 3 then s
  else plainWrite a v same s

/-- Writes in the KEEP and REC blocks: each source has its own window (R492). -/
def keepRegWrite (src : Source) (a : Nat) (v same : Word) (s : State) : State :=
  if a = Reg.REC_WIN_OFF then
    { s with recd := { s.recd with winOff := tput (fun _ => 0) (srcCode src) (v &&& 0x7FFFF8) s.recd.winOff } }
  else plainWrite a v same s

/-- A burst under R369 that wakes a neighbour on a chain port (R528): 0 east, 1 west. -/
def chainBurst (d : Nat) (s : State) : State := emit (.trainingBurst (529 + 2 * d)) s

/-- Writes in the CHAIN and HOST blocks: a ring's base only while its EN is 0; EN written 1 sets HEAD and TAIL to 0; while
PERST_N holds PD_HOST in reset (R553), its registers keep their reset values. -/
def chainWrite (a : Nat) (v same : Word) (s : State) : State :=
  let r := (a - 0x1280010) / 0x10
  if s.land.perstLow ∧ 0x1280000 ≤ a then s
  else if a = Reg.CHAIN_CTRL then
    s |> plainWrite a v same |> when' (bitOf v 30) (chainBurst 0) |> when' (bitOf v 29) (chainBurst 1)
  else if a < 0x1280010 ∨ 0x1280030 ≤ a then plainWrite a v same s
  else if a = Reg.HOST_RING_BASE_LO r then
    (if rbit (Reg.HOST_RING_CFG r) 31 s then s else setReg a (v &&& 0xFFFFFFC0) s)
  else if a = Reg.HOST_RING_BASE_HI r then (if rbit (Reg.HOST_RING_CFG r) 31 s then s else setReg a v s)
  else if a = Reg.HOST_RING_CFG r then s |> plainWrite a v same |> when' (bitOf v 31) (setReg (Reg.HOST_RING_POS r) 0)
  else plainWrite a v same s

/-- A write of the register at an address, made by a source: `same` are W1C bits set in the same cycle (R13). -/
def writeReg (src : Source) (a : Nat) (v same : Word) (s : State) : State :=
  match regRow a with
  | none => s
  | some _ =>
    if a = Reg.IMG_MIN_GEN then keepWrite 0 v s
    else if a < 0x100000 then genWrite src a v same s
    else if a < 0x200000 then lineWrite a v same s
    else if a < 0x300000 then joinWrite a v same s
    else if a < 0x400000 then circWrite a v same s
    else if a < 0x500000 then tallyWrite a v same s
    else if a < 0x600000 then clsWrite a v same s
    else if a < 0x700000 then schedWrite a v same s
    else if a < 0x780000 then tubWrite a v same s
    else if a < 0x800000 then wndWrite a v same s
    else if a < 0xC00000 then portWrite src a v same s
    else if a < 0xE00000 then laneWrite a v same s
    else if a < 0xE80000 then timeWrite src a v same s
    else if a < 0xF00000 then protWrite a v same s
    else if a < 0x1000000 then ciphWrite a v same s
    else if a < 0x1080000 then pwrWrite a v same s
    else if a < 0x1100000 then assayWrite a v same s
    else if a < 0x1200000 then keepRegWrite src a v same s
    else chainWrite a v same s

/-! ### How an access is judged -/

/-- The registers read 0 and ignore writes while their domain is off, and accesses do not wake it (R111, R457): what line
seams and lanes show. -/
def silentOff (a : Nat) : Bool :=
  (decide (0x100000 ≤ a) && decide (a < 0x200000) && decide (0x20 ≤ a % 0x10000))
    || (decide (0xC00000 ≤ a) && decide (a < 0xD00000) && decide (8 ≤ a % 0x400))

/-- Whether an access outside the GEN and IMG blocks is refused (R52, R53). -/
def refusesAccess (a : Nat) (s : State) : Bool :=
  decide (0x100000 ≤ a) && (s.boot.phase == .held || s.boot.phase == .noImage)

/-- Answer an access: over the chain with READ_RESP or WRITE_RESP (R521), to another source with the value read. -/
def answerAccess (src : Source) (tag : Option (Nat × Nat)) (addr : Word) (data : Option Word) (status : Nat)
    (s : State) : State :=
  match tag, data with
  | some (dst, t), d => sendResponse dst t d status s
  | none, some v => emit (.readReply src addr v) s
  | none, none => s

/-- Refuse an access (R52, R53): over the chain with STATUS 1; the DATA of a refused READ_RESP is open. -/
def refuseAccess (src : Source) (tag : Option (Nat × Nat)) (addr : Word) (isWrite : Bool) (s : State) : State :=
  match tag with
  | some (dst, t) =>
    if isWrite then sendResponse dst t none 1 s
    else sendResponse dst t (some (word (Config.freeNat s.free))) 1 (nextFree s)
  | none => emit (.accessRefused src addr) s

/-- Perform a read. -/
def performRead (src : Source) (tag : Option (Nat × Nat)) (addr : Word) (inc : Nat) (s : State) : State :=
  let (v, s) := readReg src addr.toNat inc s
  answerAccess src tag addr (some v) 0 s

/-- Perform a write; one that starts a Chain reset is answered before (R521). -/
def performWrite (src : Source) (tag : Option (Nat × Nat)) (addr v same : Word) (s : State) : State :=
  if addr.toNat = Reg.GEN_RESET_CMD then s |> answerAccess src tag addr none 0 |> writeReg src addr.toNat v same
  else s |> writeReg src addr.toNat v same |> answerAccess src tag addr none 0

/-- Complete an access to an address that holds no register (R9). -/
def performAbsent (src : Source) (tag : Option (Nat × Nat)) (addr : Word) (write : Option Word) (s : State) : State :=
  answerAccess src tag addr (if write.isSome then none else some 0) 0 s

/-- What becomes of an access. -/
inductive Verdict where
  | refused | absent | stall | perform
  deriving DecidableEq, Repr

/-- Judge an aligned 32-bit access: refused by phase (R52, R53), without a register (R9), to a domain that is not ON
(R111, R457), or performed. -/
def judge (a : Nat) (s : State) : Verdict :=
  if refusesAccess a s then .refused
  else if (regRow a).isNone then .absent
  else if domState (regDomain a) s = .on then .perform
  else if silentOff a ∨ !wakeable (regDomain a) s then .absent
  else .stall

/-- An access (R8 to R15): `write` the value and the W1C bits set in the same cycle, none for a read, for which `inc`
counts; `tag` for one the chain answers. -/
def access (src : Source) (tag : Option (Nat × Nat)) (addr : Word) (write : Option (Word × Word)) (inc : Nat)
    (s : State) : State :=
  match judge addr.toNat s with
  | .refused => refuseAccess src tag addr write.isSome s
  | .absent => performAbsent src tag addr (write.map (fun x => x.1)) s
  | .stall => accessWake (regDomain addr.toNat) src addr (write.map (fun x => x.1)) tag s
  | .perform =>
    match write with
    | some (v, same) => performWrite src tag addr v same s
    | none => performRead src tag addr inc s

/-- A misaligned access, or one that is not 32 bits wide (R8): counted, before every other judgement. -/
def misalignedAccess (src : Source) (tag : Option (Nat × Nat)) (addr : Word) (isWrite : Bool) (s : State) : State :=
  let s := { s with misaligned := satAdd s.misaligned 1 }
  match tag with
  | some (dst, t) => sendResponse dst t (if isWrite then none else some 0) 3 s
  | none => if isWrite then s else emit (.readReply src addr 0) s

/-- Whether an access is 32 bits wide and aligned. -/
def aligned (addr : Word) (bytes : Nat) : Bool := bytes == 4 && addr.toNat % 4 == 0

/-- An access of any width and alignment. -/
def anyAccess (src : Source) (tag : Option (Nat × Nat)) (addr : Word) (bytes : Nat) (write : Option Word) (s : State) : State :=
  if aligned addr bytes then access src tag addr (write.map (fun v => (v, 0))) 0 s
  else misalignedAccess src tag addr write.isSome s

/-- A command that is the write of a register, made by a source: `f` is the write's effect where the access is
performed. -/
def commandWrite (src : Source) (a : Nat) (v : Word) (f : State → State) (s : State) : State :=
  match judge a s with
  | .refused => refuseAccess src none (word a) true s
  | .absent => s
  | .stall => accessWake (regDomain a) src (word a) (some v) none s
  | .perform => f s

/-- A stalled access whose domain is ON is performed. -/
def finishStalled (x : StalledAccess) (s : State) : State :=
  match x.write with
  | some v => performWrite x.src x.tag x.addr v 0 s
  | none => performRead x.src x.tag x.addr 0 s

/-- The accesses that stall on domains now ON are performed, oldest first (R457). -/
def completeStalled (s : State) : State :=
  let ready := s.pwr.stalled.filter (fun x => domState x.domain s == .on)
  each ready finishStalled
    { s with pwr := { s.pwr with stalled := s.pwr.stalled.filter (fun x => domState x.domain s != .on) } }

end Sys2Proof.Machine
end

