-- ==== Sys2Proof/Machine/Records.lean ====
section
/-! DEFINITION. The records of the image: register writes, table loads, initialisers; their application at start-up and
their replay at a Domain reset (R40 to R45, R59, R246, R290). -/
namespace Sys2Proof.Machine

/-! ### Sections cut into records (R40 to R42, R44) -/

/-- Records of equal length; a shorter tail is a fragment. -/
def fixedRecords (sect type len : Nat) : Nat → Nat → Bytes → List ImageRecord
  | 0, _, _ => []
  | fuel + 1, off, b =>
    if b.isEmpty then []
    else if b.length < len then [{ sect := sect, type := type, offset := off, bytes := b, fragment := true }]
    else { sect := sect, type := type, offset := off, bytes := b.take len, fragment := false }
      :: fixedRecords sect type len fuel (off + len) (b.drop len)

/-- Table-load records: a header of 12 bytes, its data padded to a multiple of 4. The spec does not say whether a last record
whole but for that padding is truncated: DESIGN CHOICE, it is, and is skipped (log entry 38). -/
def tableRecords (sect : Nat) : Nat → Nat → Bytes → List ImageRecord
  | 0, _, _ => []
  | fuel + 1, off, b =>
    let n := 12 + padTo 4 (beAt b 8 4)
    if b.isEmpty then []
    else if b.length < 12 ∨ b.length < n then [{ sect := sect, type := 3, offset := off, bytes := b, fragment := true }]
    else { sect := sect, type := 3, offset := off, bytes := b.take n, fragment := false }
      :: tableRecords sect fuel (off + n) (b.drop n)

/-- The records of a section. -/
def sectionRecords (sect : Nat) (x : Section) : List ImageRecord :=
  if x.type = 2 then fixedRecords sect 2 12 (x.body.length + 1) 0 x.body
  else if x.type = 3 then tableRecords sect (x.body.length + 1) 0 x.body
  else if x.type = 4 then fixedRecords sect 4 8 (x.body.length + 1) 0 x.body
  else []

/-- The records of an image, in order (R43). -/
def imageRecords (l : List Section) : List ImageRecord := l.zipIdx.flatMap (fun e => sectionRecords e.2 e.1)

/-! ### Skipped records (R44) -/

/-- A record is skipped: counted and recorded with its position. -/
def skipRecord (r : ImageRecord) (s : State) : State :=
  s |> count Reg.CNT_IMG_REC_SKIPPED
    |> romEvent 0x0202 ([BitVec.ofNat 8 r.sect, 0] ++ beBytes 4 r.offset ++ beBytes 2 r.type)

/-- The registers no register-write record may name. -/
def recordForbidden (a : Nat) : Bool :=
  a == Reg.GEN_RESET_CMD || a == Reg.GEN_DOMAIN_RESET || a == Reg.GEN_BOOT_CTRL || a == Reg.CIPH_OPROOT_CMD
    || (decide (Reg.CIPH_OPROOT_DATA 0 ≤ a) && decide (a ≤ Reg.CIPH_OPROOT_DATA 7))

/-- Whether a register-write record to an address is skipped. -/
def writeSkipped (a : Nat) : Bool :=
  match regRow a with
  | none => true
  | some r => (entryOfReg a).isSome || recordForbidden a || (r.rw == 0 && r.wo == 0)

/-! ### Register-write records (R40, R45) -/

/-- The value a record writes: RW fields keep what its mask leaves, the others take VALUE AND MASK. -/
def recordValue (a : Nat) (v m : Word) (s : State) : Word :=
  match regRow a with
  | some r => (regView .sup a s &&& ~~~ m &&& word r.rw) ||| (v &&& m)
  | none => 0

/-- A register-write record: it acts as a write of the supervisor. -/
def writeRecordAt (r : ImageRecord) (s : State) : State :=
  let a := beAt r.bytes 0 4
  if writeSkipped a then skipRecord r s
  else writeReg .sup a (recordValue a (word (beAt r.bytes 4 4)) (word (beAt r.bytes 8 4)) s) 0 s

/-- Whether a register has a BUSY field that outlasts its write: an eye scan, an MDIO command. -/
def isBusyReg (a : Nat) : Bool :=
  (decide (0xC00000 ≤ a) && decide (a < 0xD00000) && a % 0x400 == 0x10)
    || (decide (0xA00100 ≤ a) && decide (a < 0xA00200) && (a % 0x20 == 8 || a % 0x20 == 0x14))

/-- Whether a register's command is busy. -/
def busyNow (a : Nat) (s : State) : Bool := isBusyReg a && bitOf (regView .sup a s) 31

/-! ### Table-load records (R41, R246, R290) -/

/-- Load data into a table of entries of `size` bytes from a byte offset on: an entry written in part keeps its other
bytes. Answers whether no entry was refused; the refused one and those after it are not loaded. -/
def loadEntries (size : Nat) (get : Nat → State → Bytes) (put : Nat → Bytes → State → Option State) :
    Nat → Nat → Bytes → State → Bool × State
  | 0, _, _, s => (true, s)
  | fuel + 1, off, data, s =>
    if data.isEmpty then (true, s)
    else
      let e := off / size
      let start := off % size
      let n := min (size - start) data.length
      let old := get e s
      match put e (old.take start ++ data.take n ++ old.drop (start + n)) s with
      | none => (false, s)
      | some s => loadEntries size get put fuel (off + n) (data.drop n) s

/-- A rule as 176 bytes, and a rule loaded. -/
def ruleBytes (n e : Nat) (s : State) : Bytes :=
  let x := ruleAt n e s
  beBytes 80 x.key.toNat ++ beBytes 80 x.mask.toNat ++ beBytes 4 x.action.toNat ++ zeros 12

def loadRule (n e : Nat) (b : Bytes) (s : State) : Option State :=
  let a := word (beAt b 160 4)
  if actionRefused a then none
  else some (setRule n e { key := BitVec.ofNat 640 (beAt b 0 80), mask := BitVec.ofNat 640 (beAt b 80 80),
                           action := a &&& 0x8003FFF0 } s)

/-- A byte of an automaton, and one loaded. -/
def automatonByte (n e : Nat) (s : State) : Bytes := [tget (fun _ => 0) s.cls.automaton (2097152 * n + e)]

def loadAutomaton (n e : Nat) (b : Bytes) (s : State) : Option State :=
  some (modCls (fun c => { c with automaton := tput (fun _ => 0) (2097152 * n + e) (b.headD 0) c.automaton }) s)

/-- An FDB seed: inserted as a static entry; one whose set is full is counted. -/
def loadSeed (_ : Nat) (b : Bytes) (s : State) : Option State :=
  let x := fdbEntryOf b true true
  if beAt b 8 2 / 2 ^ 15 = 0 then some s
  else if 0x27F < x.dest.toNat ∨ vidRefused x.vid.toNat then none
  else
    let (ok, s) := fdbPut x s
    some (if ok then s else count Reg.CNT_FDB_FULL s)

/-- A VLAN entry as 128 bytes, and one loaded: VID 0 and 4,095 are never written. -/
def vlanBytes (e : Nat) (s : State) : Bytes :=
  let x := vlan e s
  (List.range 16).flatMap (fun w => beBytes 4 (x.members.toNat / 2 ^ (32 * w))) ++ beBytes 4 x.flags.toNat ++ zeros 60

def loadVlan (e : Nat) (b : Bytes) (s : State) : Option State :=
  if vidRefused e then some s
  else
    let m := ((List.range 16).map (fun w => beAt b (4 * w) 4 * 2 ^ (32 * w))).sum
    some (setVlan e { members := BitVec.ofNat 512 m, flags := word (beAt b 64 4) &&& 0xE000007F } s)

/-- An entry of the administrative gate lists as 8 bytes, and one loaded. -/
def gateBytes (e : Nat) (s : State) : Bytes :=
  let (g, n) := adminEntry (e / 256) (e % 256) s
  beBytes 4 n ++ beBytes 1 g ++ zeros 3

def loadGate (e : Nat) (b : Bytes) (s : State) : Option State :=
  some (setAdminEntry (e / 256) (e % 256) (beAt b 4 1, beAt b 0 4) s)

/-- The extent of a table; none for an unknown one. -/
def tableExtent (t : Nat) : Option Nat :=
  if 0x100 ≤ t ∧ t < 0x104 then some 2883584
  else if 0x110 ≤ t ∧ t < 0x114 then some 2097152
  else if t = 0x130 then some 4194304
  else if t = 0x140 then some 524288
  else if t = 0x200 then some 1048576
  else none

/-- The power domain a table lies in. -/
def tableDomain (t : Nat) : Nat :=
  if 0x100 ≤ t ∧ t < 0x104 then t - 0x100 else if 0x110 ≤ t ∧ t < 0x114 then 5 else if t = 0x200 then 4 else 0

/-- Load data into a table. -/
def loadTable (t off : Nat) (data : Bytes) (s : State) : Bool × State :=
  let n := t % 4
  let f := data.length
  if t < 0x104 then loadEntries 176 (ruleBytes n) (loadRule n) f off data s
  else if t < 0x114 then loadEntries 1 (automatonByte n) (loadAutomaton n) f off data s
  else if t = 0x130 then loadEntries 16 (fun _ _ => zeros 16) loadSeed f off data s
  else if t = 0x140 then loadEntries 128 vlanBytes loadVlan f off data s
  else loadEntries 8 gateBytes loadGate f off data s

/-- A table-load record. -/
def tableRecordAt (r : ImageRecord) (s : State) : State :=
  let t := beAt r.bytes 0 2
  let off := beAt r.bytes 4 4
  let len := beAt r.bytes 8 4
  match tableExtent t with
  | none => skipRecord r s
  | some n =>
    if n < off + len then skipRecord r s
    else
      let (ok, s) := loadTable t off (slice r.bytes 12 len) s
      if ok then s else skipRecord r s

/-! ### Initialisers (R42) -/

/-- An initialiser: written only where the entry is blank; one whose address is that of no persistent register is
skipped. -/
def initRecordAt (r : ImageRecord) (s : State) : State :=
  let a := beAt r.bytes 0 4
  match if (regRow a).isSome then entryOfReg a else none with
  | none => skipRecord r s
  | some i =>
    let v := word (beAt r.bytes 4 4)
    let v := if i = 2 then v &&& 1 else if i = 24 then v &&& 0xFFFFF else v
    if entryBlank i s then keepWrite i v s else s

/-- One record. -/
def applyRecord (r : ImageRecord) (s : State) : State :=
  if r.fragment then skipRecord r s
  else if r.type = 2 then writeRecordAt r s
  else if r.type = 3 then tableRecordAt r s
  else initRecordAt r s

/-! ### The release of a Domain reset (R59) -/

/-- The bytes of the cache that DRAM upsets have changed. -/
def upsetCache (ups : List (Nat × Nat × Byte)) (l : List Section) : List Section :=
  l.zipIdx.map (fun e => { e.1 with body := ups.foldl (fun b u =>
    if u.1 = e.2 ∧ u.2.1 < b.length then b.set u.2.1 u.2.2 else b) e.1.body })

/-- Whether a Domain reset uses a section: those with register writes or table loads, and the firmware for PD_SUP. -/
def sectionUsed (d : Nat) (x : Section) : Bool := x.type == 2 || x.type == 3 || (d == 18 && x.type == 1)

/-- Whether a record lies in a domain; the TIME block is kept (R63). A truncated record lies where its ADDRESS or its table
does, if it is long enough to hold that field (log entry 15). -/
def recordIn (d : Nat) (r : ImageRecord) : Bool :=
  let a := beAt r.bytes 0 4
  let t := beAt r.bytes 0 2
  if r.type = 2 then decide (4 ≤ r.bytes.length) && resetsWith d a && !inTime a
  else if r.type = 3 then decide (2 ≤ r.bytes.length) && (tableExtent t).isSome && tableDomain t == d
  else false

/-- A domain's records have been replayed: it leaves OFF (R452, R62); the partition of
PD_FAB is judged (R307), PD_CIPH requests the saved keys and resumes its
counter (R429, R432). Domain resets held meanwhile begin (R61). -/
def domainReloaded (d : Nat) (s : State) : State :=
  let bit : BitVec 21 := BitVec.ofNat 21 (2 ^ d)
  s |> modBoot (fun b => { b with records := [], busyReg := none, replay := none, domActive := b.domActive &&& ~~~ bit,
                                  lastKind := 5, lastSub := 0, lastDomain := d })
    |> when' (d == 4) checkPartition
    |> when' (d == 6) (fun s => s |> requestSaved |> resumeCounter)
    |> (fun s => reachDom d (if s.boot.phase = .running then domTarget s.pwr.ladder d s else startDom d s) s)
    |> resetEvent 5 0 d |> heldDomainsBegin

/-! ### Application at start-up (R43, R45) -/

/-- Every record has been applied: the partition is judged (R307), the terminal starts on the preferred side (R403). -/
def recordsApplied (s : State) : State :=
  let s := s |> modBoot (fun b => { b with records := [], busyReg := none, applied := true }) |> checkPartition
  modProt (fun p => { p with active := if rbit Reg.PROT_CTRL 0 s then 1 else 0 }) s

/-- What follows the last record: at start-up, or of a Domain reset's replay. -/
def recordsDone (s : State) : State :=
  match s.boot.replay with
  | some d => domainReloaded d s
  | none => recordsApplied s

/-- Records in order, up to one whose command stays busy. -/
def applyImage : List ImageRecord → State → State
  | [], s => recordsDone s
  | r :: rest, s =>
    let a := beAt r.bytes 0 4
    let s := applyRecord r s
    if r.type = 2 ∧ !r.fragment ∧ !writeSkipped a ∧ busyNow a s then
      modBoot (fun b => { b with records := r :: rest, busyReg := some a }) s
    else applyImage rest s

/-- IMAGE_APPLY (R43): the verified image is copied to the cache and its records are applied; a boot hold waits for its
release, and a missing line reference for its return (R53, R57). -/
def imageApply (s : State) : State :=
  match s.boot.image with
  | none => s
  | some im =>
    if s.boot.inReset.isSome ∨ s.boot.lineRefHold ∨ s.boot.applied ∨ s.boot.busyReg.isSome
        ∨ !(s.boot.phase == .loading || s.boot.phase == .applying) then s
    else
      s |> modBoot (fun b => { b with phase := .applying, cache := im.sections, records := imageRecords im.sections })
        |> applyImage (imageRecords im.sections)

/-! ### The release of a Domain reset, its row (R59) -/

/-- The cached sections are checked and the domain's records replayed, as at start-up. -/
def replayDomain (d : Nat) (ups : List (Nat × Nat × Byte)) (s : State) : State :=
  let s := modBoot (fun b => { b with cache := upsetCache ups b.cache }) s
  if s.boot.cache.any (fun x => sectionUsed d x && crc32c x.body != x.crc) then requestReset .chain 2 s
  else
    let l := (imageRecords s.boot.cache).filter (recordIn d)
    s |> modBoot (fun b => { b with replay := some d, records := l }) |> applyImage l

/-- The releases that wait go on, each once no command of a record is waited for. -/
def releaseWaiting : Nat → State → State
  | 0, s => s
  | fuel + 1, s =>
    match s.boot.releases with
    | [] => s
    | (d, ups) :: rest =>
      if s.boot.busyReg.isSome then s
      else
        let s := modBoot (fun b => { b with releases := rest }) s
        s |> when' (s.boot.domActive.getLsbD d && s.boot.inReset.isNone) (replayDomain d ups) |> releaseWaiting fuel

/-- IMG_RECORD_BUSY_WAIT (R45): the command of a record is no longer busy, or its 10 ms have run out. -/
def recordBusyWait (expired : Bool) (s : State) : State :=
  match s.boot.busyReg, s.boot.records with
  | some a, r :: rest =>
    if !busyNow a s || expired then
      s |> modBoot (fun b => { b with busyReg := none }) |> when' (busyNow a s) (skipRecord r) |> applyImage rest
        |> releaseWaiting s.boot.releases.length
    else s
  | _, _ => s

/-- DOMAIN_RESET_RELEASE (R59): the domain's release; one that falls while another replay, or the application of the image,
waits for a busy command goes on after it. -/
def domainRelease (d : Nat) (ups : List (Nat × Nat × Byte)) (s : State) : State :=
  if !s.boot.domActive.getLsbD d ∨ s.boot.inReset.isSome ∨ s.boot.replay = some d ∨ s.boot.releases.any (fun e => e.1 == d) then s
  else if s.boot.busyReg.isSome then modBoot (fun b => { b with releases := b.releases ++ [(d, ups)] }) s
  else replayDomain d ups s

/-! ### The end of start-up (R56 step 7) -/

/-- After the journal scan of a start-up the terminal runs: saved registrations are taken up, keys requested (R429),
identities start (R144), votes placed, and the active side's optic leaves low-power mode (step 9). -/
def startRunning (s : State) : State :=
  if s.boot.phase = .applying then
    s |> modBoot (fun b => { b with phase := .running }) |> loadEpochs (activeSide s) |> requestSaved |> startIdents
      |> refreshVotes |> raiseVoted |> setOptic (activeSide s) false false |> setOptic (coldSide s) true true
  else s

/-- JOURNAL_SCAN: the supervisor runs it once the image has been applied and the keep is mounted (R56, R222). -/
def scanRow (torn unmarked : List (Fin 2 × Fin 8192)) (s : State) : State :=
  if s.boot.applied ∧ s.keep.mounted ∧ s.boot.inReset.isNone then s |> journalScan torn unmarked |> startRunning else s

end Sys2Proof.Machine
end

