-- ==== Sys2Proof/Machine/Chain.lean ====
section
/-! DEFINITION. The management chain and the host interface (R509 to R529). -/
namespace Sys2Proof.Machine

/-- Change the chain's state. -/
def modChain (f : ChainState → ChainState) (s : State) : State := { s with chain := f s.chain }

/-- Change the endpoint's state. -/
def modHost (f : HostState → HostState) (s : State) : State := { s with host := f s.host }

/-! ### The banksman (R524) -/

/-- The addresses of the banksmen: this member while it is one, and those whose TIME frames have said so within 3 s. -/
def banksmen (s : State) : List Nat :=
  (List.range 64).filter (fun a => (a == chainAddr s && isBanksman s)
    || (match tget (fun _ => none) s.chain.heard a with
        | some c => decide (s.cycle < c + 3 * 10 ^ 9)
        | none => false))

/-- The banksman taken, the lowest address, and a second one: a change is recorded. `was` are the banksmen before. -/
def evalBanksman (was : List Nat) (s : State) : State :=
  let now := banksmen s
  match now with
  | [] =>
    if s.chain.reachable then
      s |> modChain (fun c => { c with reachable := false }) |> event 0x1303 [0, BitVec.ofNat 8 s.chain.banksman, 0xFF]
    else s
  | a :: rest =>
    if !s.chain.reachable || s.chain.banksman != a || (rest != [] && now.any (fun x => !was.contains x)) then
      s |> modChain (fun c => { c with reachable := true, banksman := a })
        |> event 0x1303 [1, BitVec.ofNat 8 a, BitVec.ofNat 8 (rest.head?.getD 0xFF)]
    else s

/-- BANKSMAN_UNREACHABLE (R524): the banksman's TIME frame has not arrived for 3 s. -/
def banksmanUnreachable (s : State) : State :=
  let was := banksmen s
  s |> modChain (fun c => { c with heard := tput (fun _ => none) c.banksman none c.heard }) |> evalBanksman was

/-! ### Host rings (R522) -/

/-- An entry of a host ring: KIND, SRC, GAP, LEN and the record. -/
def hostRingEntry (kind src : Nat) (gap : Bool) (record : Bytes) : Bytes :=
  [BitVec.ofNat 8 kind, BitVec.ofNat 8 src, BitVec.ofNat 8 (b2n gap * 128), 0] ++ beBytes 2 record.length ++ zeros 2 ++ record
    ++ zeros (312 - record.length)

/-- The host bus address of a ring. -/
def ringBase (r : Nat) (s : State) : Nat :=
  (reg (Reg.HOST_RING_BASE_HI r) s).toNat * 2 ^ 32 + (reg (Reg.HOST_RING_BASE_LO r) s).toNat

/-- MSI-X vector `r`, at most once per tick for each ring. -/
def ringVector (r : Nat) (s : State) : State :=
  if s.host.vectorSent.contains r then s
  else s |> modHost (fun h => { h with vectorSent := r :: h.vectorSent }) |> emit (.msix r)

/-- Write an entry into a host ring and advance HEAD; discarded and counted where the ring is full or not in use. -/
def hostEntry (r src : Nat) (gap : Bool) (record : Bytes) (s : State) : State :=
  let n := 2 ^ rfld (Reg.HOST_RING_CFG r) 3 0 s
  let head := rfld (Reg.HOST_RING_POS r) 31 16 s
  let tail := rfld (Reg.HOST_RING_POS r) 15 0 s
  if !rbit (Reg.HOST_RING_CFG r) 31 s || (head + 1) % n == tail % n then count Reg.CNT_HOST_FWD_DROP s
  else
    s |> emit (.hostEntry (ringBase r s + 320 * head) (hostRingEntry (r + 1) src gap record))
      |> setRfld (Reg.HOST_RING_POS r) 31 16 ((head + 1) % n) |> ringVector r

/-- EVENT_FWD at the banksman. -/
def eventFwd (src : Nat) (gap : Bool) (record : Bytes) (s : State) : State :=
  if isBanksman s then hostEntry 0 src gap record s else s

/-- EXC_FWD at the banksman. -/
def excFwd (src : Nat) (record : Bytes) (s : State) : State :=
  if isBanksman s then hostEntry 1 src false record s else s

/-! ### Forwarding (R267, R525) -/

/-- Send a record to the banksman, or into its own ring where this member is the banksman. -/
def sendRecord (r : Nat) (gap : Bool) (record : Bytes) (s : State) : State :=
  if s.chain.banksman = chainAddr s then (if isBanksman s then hostEntry r (chainAddr s) gap record s else s)
  else
    let (tag, s) := nextTag s
    sendChain (4 + r) false false s.chain.banksman tag record s

/-- From a record, the whole one with a SEQ in the same segment, walking on. -/
def findInSegment (seq : Nat) (s : State) : Nat → Nat → Option Nat
  | 0, _ => none
  | n + 1, off =>
    if !wholeAt off s then none
    else if seqAt off s = seq then some off
    else
      let next := off + recordLength (lenAt off s)
      if next / 8192 = off / 8192 then findInSegment seq s n next else none

/-- The segment a SEQ stands in: that of the greatest first SEQ not above it (R6). -/
def segmentOf (seq : Nat) (s : State) : Nat → Option Nat
  | 0 => none
  | g + 1 =>
    let r := segmentOf seq s g
    let f := seqAt (8192 * g) s
    if f = 0 ∨ serialBelow 64 seq f then r
    else match r with
      | none => some g
      | some h => if serialBelow 64 (seqAt (8192 * h) s) f then some g else r

/-- The record with a SEQ in the ring. -/
def findRecord (seq : Nat) (s : State) : Option Nat :=
  match segmentOf seq s 1024 with
  | none => none
  | some g => findInSegment seq s 256 (8192 * g)

/-- The bytes of the record at an offset. -/
def recordAt (off : Nat) (s : State) : Bytes :=
  (List.range (recordLength (lenAt off s) / 8)).flatMap (fun k => beBytes 8 (ringUnit (off / 8 + k) s).toNat)

/-- Forward the record with a SEQ; one the keep has lost is skipped and counted. -/
def forwardSeq (seq : Nat) (gap : Bool) (s : State) : State :=
  let s := { s with recd := { s.recd with fwdSeq := seq } }
  match findRecord seq s with
  | some off => s |> modChain (fun c => { c with gap := false }) |> sendRecord 0 gap (recordAt off s)
  | none => s |> modChain (fun c => { c with gap := true }) |> count Reg.CNT_CHAIN_FWD_SKIP

/-- RECORD_FORWARD (R525): the record after the last one forwarded; where that place has been retired, OLDEST with GAP. -/
def recordForward (s : State) : State :=
  if !rbit Reg.CHAIN_CTRL 31 s || !s.chain.reachable || !s.keep.mounted || !serialBelow 64 s.recd.fwdSeq s.recd.newestSeq then s
  else if serialBelow 64 ((s.recd.fwdSeq + 1) % 2 ^ 64) s.recd.oldestSeq then
    s |> count Reg.CNT_CHAIN_FWD_SKIP |> forwardSeq s.recd.oldestSeq true
  else forwardSeq ((s.recd.fwdSeq + 1) % 2 ^ 64) s.chain.gap s

/-- EXC_FORWARD (R267): the oldest record of the exception ring is forwarded or discarded. -/
def excForward (s : State) : State :=
  let s := settleExceptions s
  match s.cls.excRing with
  | [] => s
  | x :: rest =>
    let s := s |> modCls (fun c => { c with excRing := rest })
      |> (fun s => match x.tubs with
          | h :: _ => tubFree 10 h true s
          | [] => s)
    if bitOf (reg Reg.CLS_EXC_CTRL s) (27 + (x.bytes.headD 1).toNat) && s.chain.reachable then
      s |> count Reg.CNT_EXC_FWD |> sendRecord 1 false (excCopy x.bytes)
    else count Reg.CNT_EXC_SUP_DROP s

/-! ### Requests of the host (R518 to R521) -/

/-- Send the request of the host that goes first. -/
def sendRequest (q : HostRequest) (s : State) : State :=
  let s := modHost (fun h => { h with inflight := h.inflight ++ [q] }) s
  match q.write with
  | some v => sendChain 2 false false q.member q.tag (beBytes 4 q.addr.toNat ++ beBytes 4 v.toNat) s
  | none => sendChain 1 false false q.member q.tag (beBytes 4 q.addr.toNat) s

/-- Requests that wait are sent in order as the limits of R520 allow: 64 in flight, one to each member. -/
def startRequests : Nat → State → State
  | 0, s => s
  | n + 1, s =>
    if 64 ≤ s.host.inflight.length then s
    else match splitAt? (fun q => !s.host.inflight.any (fun x => x.member == q.member)) s.host.waiting with
      | some (before, q, after) =>
        s |> modHost (fun h => { h with waiting := before ++ after }) |> sendRequest q |> startRequests n
      | none => s

/-- The requests that may now start. -/
def serveRequests (s : State) : State := startRequests s.host.waiting.length s

/-- Queue a request with a fresh TAG. -/
def queueRequest (member : Nat) (addr : Word) (write : Option Word) (s : State) : State :=
  let (tag, s) := nextTag s
  s |> modHost (fun h => { h with waiting := h.waiting ++ [{ member := member, addr := addr, write := write, tag := tag }] })
    |> serveRequests

/-- BAR0_ACCESS (R518, R519). -/
def bar0Access (a : Bar0Access) (bytes : Nat) (s : State) : State :=
  let addr := a.addr.setWidth 32
  if !isBanksman s then s
  else if a.member.val = chainAddr s then anyAccess .host none addr bytes a.write s
  else if !aligned addr bytes then misalignedAccess .host none addr a.write.isSome s
  else match a.write with
    | none => queueRequest a.member.val addr none s
    | some v =>
      if rbit Reg.HOST_CTRL 0 s then queueRequest a.member.val addr (some v) s
      else
        let (tag, s) := nextTag s
        sendChain 3 false false a.member.val tag (beBytes 4 addr.toNat ++ beBytes 4 v.toNat) s

/-- Send a broadcast of this member; it counts as acted on here. -/
def sendBroadcast (type : Nat) (payload : Bytes) (s : State) : State :=
  let (tag, s) := nextTag s
  s |> modChain (fun c => { c with lastBcast := tput (fun _ => none) (chainAddr s) (some tag) c.lastBcast })
    |> sendChain type false true 0 tag payload

/-- BAR2_WRITE (R518): broadcast as POSTED and made at the banksman itself. -/
def bar2Write (a : BitVec 25) (v : Word) (bytes : Nat) (s : State) : State :=
  let addr := a.setWidth 32
  if !isBanksman s then s
  else if !aligned addr bytes then misalignedAccess .host none addr true s
  else s |> sendBroadcast 3 (beBytes 4 addr.toNat ++ beBytes 4 v.toNat) |> access .host none addr (some (v, 0)) 0

/-- The request in flight a response answers (R520): by TAG and kind. -/
def answered (tag : Nat) (isWrite : Bool) (s : State) : Option (List HostRequest × HostRequest × List HostRequest) :=
  splitAt? (fun q => q.tag == tag && q.write.isSome == isWrite) s.host.inflight

/-- READ_RESP (R520): completes the host's read; unmatched, it is discarded. -/
def readResp (tag : Nat) (data : Word) (s : State) : State :=
  match answered tag false s with
  | some (before, q, after) =>
    s |> modHost (fun h => { h with inflight := before ++ after }) |> emit (.hostCompletion q.member q.addr data) |> serveRequests
  | none => s

/-- WRITE_RESP (R520). -/
def writeResp (tag : Nat) (s : State) : State :=
  match answered tag true s with
  | some (before, _, after) => s |> modHost (fun h => { h with inflight := before ++ after }) |> serveRequests
  | none => s

/-- HOST_REQUEST_TIMEOUT (R520). -/
def hostTimeout (member : Nat) (s : State) : State :=
  match splitAt? (fun q => q.member == member) s.host.inflight with
  | some (before, q, after) =>
    s |> modHost (fun h => { h with inflight := before ++ after })
      |> when' q.write.isNone (emit (.hostCompletion q.member q.addr 0xFFFFFFFF)) |> count Reg.CNT_HOST_TIMEOUT |> serveRequests
  | none => s

/-! ### Requests answered (R521) -/

/-- READ (R521). -/
def chainRead (src tag : Nat) (addr : Word) (s : State) : State := anyAccess .chain (some (src, tag)) addr 4 none s

/-- WRITE (R521). -/
def chainWriteReq (src tag : Nat) (addr data : Word) (s : State) : State :=
  anyAccess .chain (some (src, tag)) addr 4 (some data) s

/-- POSTED (R519): made without response. -/
def chainPosted (addr data : Word) (s : State) : State := anyAccess .chain none addr 4 (some data) s

/-! ### TIME and ALERT (R523, R526, R527) -/

/-- The payload of a TIME frame. -/
def timePayload (s : State) : Bytes :=
  beBytes 8 Config.moduleSerial.toNat ++ beBytes 8 (timeSeconds s) ++ beBytes 4 (timeNs s) ++ beBytes 2 (timeFrac s)
    ++ beBytes 6 s.tick.count.toNat
    ++ [BitVec.ofNat 8 (at' 7 (b2n (isBanksman s)) + at' 3 (b2n s.time.valid) + at' 2 (b2n s.time.holdover) + s.time.sel)]
    ++ zeros 3

/-- The second has elapsed: this member broadcasts TIME. -/
def timeSend (s : State) : State := let was := banksmen s; s |> sendBroadcast 6 (timePayload s) |> evalBanksman was

/-- The time a TIME frame carries, in units of 2^-16 ns. -/
def timeOfPayload (b : Bytes) : Nat := (beAt b 8 8 * 10 ^ 9 + beAt b 16 4) * 2 ^ 16 + beAt b 20 2

/-- A TIME frame of another member says the time: CHAIN_TIME_OFFSET, saturating. -/
def noteOffsetOf (b : Bytes) (s : State) : State :=
  modChain (fun c => { c with
    timeOffset := word (twos 32 (clipSigned 32 (((s.time.now / 2 ^ 40 : Nat) - (timeOfPayload b : Int)) / 2 ^ 16))) }) s

/-- A TIME frame received (R523, R524, R527). -/
def timeReceived (src : Nat) (b : Bytes) (s : State) : State :=
  let was := banksmen s
  let bank := (b.getD 28 0).getLsbD 7
  let dup := src == chainAddr s && beAt b 0 8 != Config.moduleSerial.toNat
  let s := when' dup (fun s => s |> modChain (fun c => { c with dup := true }) |> event 0x1302 (slice b 0 8)) s
  if !bank then s
  else
    let s := s |> modChain (fun c => { c with heard := tput (fun _ => none) src (some s.cycle) c.heard }) |> evalBanksman was
    when' (s.chain.banksman == src) (noteOffsetOf b) s

/-- The bit of a member in HOST_ALERT_MEMBER is set; a bit that was 0 sends MSI-X vector 2 (R526). -/
def alertMember (src : Nat) (s : State) : State :=
  let a := if src < 32 then Reg.HOST_ALERT_MEMBER_LO else Reg.HOST_ALERT_MEMBER_HI
  if rbit a (src % 32) s then s else s |> setReg a (reg a s ||| word (2 ^ (src % 32))) |> emit (.msix 2)

/-- An ALERT received at the banksman. -/
def alertReceived (src : Nat) (cause : Word) (s : State) : State :=
  if isBanksman s && cause != 0 then alertMember src s else s

/-- The member's own ALERT (R526): its masked causes have changed, or are not zero. -/
def alertSend (s : State) : State :=
  let c := maskedCauses s
  if !s.chain.reachable || (c == s.chain.alertSent && c == 0) then s
  else
    let s := modChain (fun x => { x with alertSent := c }) s
    if s.chain.banksman = chainAddr s then alertReceived (chainAddr s) c s
    else
      let (tag, s) := nextTag s
      sendChain 7 false false s.chain.banksman tag (beBytes 4 c.toNat) s

/-! ### Frames of the ring (R511 to R515) -/

/-- Whether a frame's TYPE, RESP and LEN are those of R512. -/
def chainTypeOk (type : Nat) (resp : Bool) (len : Nat) : Bool :=
  if type = 1 then len == (if resp then 8 else 4)
  else if type = 2 then len == (if resp then 4 else 8)
  else if resp then false
  else if type = 3 then len == 8
  else if type = 4 then decide (40 ≤ len) && decide (len ≤ 280)
  else if type = 5 then decide (16 ≤ len) && decide (len ≤ 272)
  else if type = 6 then len == 32
  else if type = 7 then len == 4
  else type == 8 && len == 0

/-- The fields of a received frame (R511). -/
structure ChainFrame where
  type : Nat
  wrap : Bool
  resp : Bool
  bcast : Bool
  dst : Nat
  src : Nat
  hops : Nat
  tag : Nat
  payload : Bytes
  deriving DecidableEq, Repr

/-- A frame whose length and CRC are right. -/
def chainParse (b : Bytes) : Option ChainFrame :=
  let len := beAt b 6 2
  let b0 := b.getD 0 0
  let b1 := b.getD 1 0
  if b.length < 12 ∨ b.length ≠ 12 + len ∨ beAt b (8 + len) 4 ≠ (crc32c (b.take (8 + len))).toNat then none
  else some { type := b0.toNat / 16, wrap := b0.getLsbD 3, resp := b0.getLsbD 2, bcast := b1.getLsbD 7,
              dst := b1.toNat % 64, src := (b.getD 2 0).toNat % 64, hops := (b.getD 3 0).toNat, tag := beAt b 4 2,
              payload := slice b 8 len }

/-- A frame consumed, or acted on as a broadcast. -/
def chainConsume (f : ChainFrame) (s : State) : State :=
  let w (i : Nat) : Word := word (beAt f.payload i 4)
  if f.type = 1 then (if f.resp then readResp f.tag (w 0) s else chainRead f.src f.tag (w 0) s)
  else if f.type = 2 then (if f.resp then writeResp f.tag s else chainWriteReq f.src f.tag (w 0) (w 4) s)
  else if f.type = 3 then chainPosted (w 0) (w 4) s
  else if f.type = 4 then eventFwd f.src (Config.freeNat s.free % 2 == 1) f.payload (nextFree s)
  else if f.type = 5 then excFwd f.src f.payload s
  else if f.type = 6 then timeReceived f.src f.payload s
  else if f.type = 7 then alertReceived f.src (w 0) s
  else s

/-- Whether a broadcast is acted on (R515 step 3): POSTED or TIME, not the last one acted on from its SRC. -/
def bcastActs (f : ChainFrame) (s : State) : Bool :=
  (f.type == 3 || f.type == 6) && tget (fun _ => none) s.chain.lastBcast f.src != some f.tag

/-- A broadcast is acted on and noted. -/
def bcastAct (f : ChainFrame) (s : State) : State :=
  if bcastActs f s then
    s |> modChain (fun c => { c with lastBcast := tput (fun _ => none) f.src (some f.tag) c.lastBcast }) |> chainConsume f
  else s

/-- The frame as it is sent on, with one hop less. -/
def forwardBytes (f : ChainFrame) (wrap : Bool) : Bytes :=
  withCrc (chainHeader f.type wrap f.resp f.bcast f.dst f.src (f.hops - 1) f.tag f.payload.length ++ f.payload)

/-- Steps 4 and 5 of R515. -/
def chainForward (port : Nat) (f : ChainFrame) (s : State) : State :=
  if f.hops ≤ 1 then count Reg.CNT_CHAIN_HOPS_DROP s
  else if chainUp (1 - port) s then emit (.chainFrame (1 - port) (forwardBytes f f.wrap)) s
  else if f.wrap then count Reg.CNT_CHAIN_UNREACH s
  else emit (.chainFrame port (forwardBytes f true)) s

/-- Whether a TIME frame shows another member with this address (R527). -/
def foreignTime (f : ChainFrame) (s : State) : Bool :=
  f.type == 6 && f.src == chainAddr s && beAt f.payload 0 8 != Config.moduleSerial.toNat

/-- A frame received on a port in service (R515). -/
def chainHandle (port : Nat) (f : ChainFrame) (s : State) : State :=
  if f.type = 8 then s
  else if !f.bcast then (if f.dst = chainAddr s then chainConsume f s else chainForward port f s)
  else if f.src = chainAddr s ∧ !f.wrap then (if foreignTime f s then timeReceived f.src f.payload s else s)
  else if foreignTime f s then s |> timeReceived f.src f.payload |> chainForward port f
  else s |> bcastAct f |> chainForward port f

/-- CHAIN_FRAME_RECEIVE (R512, R513, R515). -/
def chainFrameReceive (port : Nat) (b : Bytes) (s : State) : State :=
  if domState 20 s ≠ .on then s
  else match chainParse b with
    | none => count Reg.CNT_CHAIN_CRC_ERR s
    | some f =>
      let s := if chainUp port s then s else setChainPort port ⟨false, true⟩ s
      if !chainTypeOk f.type f.resp f.payload.length then count Reg.CNT_CHAIN_CRC_ERR s
      else if chainUp port s then chainHandle port f s
      else s

/-! ### Ports (R513, R528) -/

/-- Whether a port's lanes let it be in service: the receive lane ACTIVE, neither retired, OPEN or SHORT. -/
def chainLanesGood (d : Nat) (s : State) : Bool :=
  (lane (528 + 2 * d) s).st == .active
    && [528 + 2 * d, 529 + 2 * d].all (fun l => !laneRetired l s && !(lane l s).isOpen && !(lane l s).short)

/-- EV_CHAIN_PORT (R513). -/
def chainPortChange (d : Nat) (up : Bool) (s : State) : State :=
  if !up then chainLeave d s
  else if chainUp d s || domState 20 s != .on || !s.boot.refPresent.getLsbD 3 || !chainLanesGood d s then s
  else
    let s := setChainPort d ⟨true, false⟩ s
    event 0x1301 [BitVec.ofNat 8 d, BitVec.ofNat 8 (chainPortCode d s)] s

/-- KEEPALIVE (R513): sent unless the port's receiver detects no energy (R528) or its transmitter is held at zero. -/
def keepalive (d : Nat) (s : State) : State :=
  let tx := 529 + 2 * d
  if domState 20 s != .on || !s.boot.refPresent.getLsbD 3 || laneRetired tx s || (lane tx s).short
      || !(lane (528 + 2 * d) s).energy then s
  else
    let (tag, s) := nextTag s
    s |> emit (.chainFrame d (withCrc (chainHeader 8 false false false (Config.freeNat s.free % 64) (chainAddr s) 128 tag 0)))
      |> nextFree

/-! ### The endpoint (R517, R529, R553) -/

/-- HOST_LINK_UP (R517): the member becomes banksman, and PD_HOST and PD_CHAIN are voted. -/
def hostLinkUp (speed width : Nat) (s : State) : State :=
  if s.host.link || domState 19 s != .on || !s.boot.refPresent.getLsbD 3 || s.land.perstLow then s
  else
    let was := banksmen s
    s |> modHost (fun h => { h with link := true, speed := speed, width := width })
      |> hostVoteWrite (reg (Reg.PWR_VOTE 0) s ||| 0x180000)
      |> event 0x1304 [1, BitVec.ofNat 8 speed, BitVec.ofNat 8 width] |> evalBanksman was

/-- EV_HOST_LINK (R529). -/
def hostLinkDown (s : State) : State := let was := banksmen s; s |> hostDown |> evalBanksman was

end Sys2Proof.Machine
end

