-- ==== Sys2Proof/Machine/Tick.lean ====
section
/-! DEFINITION. The tick (R18 to R27) and the work that starts at its edge, and the supervisor's loops of a tick (R22). -/
namespace Sys2Proof.Machine

/-- Change the tick's state. -/
def modTick (f : TickState → TickState) (s : State) : State := { s with tick := f s.tick }

/-- Whether a domain's logic works: ON, or GATED with its clocks a moment away (R452). -/
def works (d : Nat) (s : State) : Bool := domState d s == .on || domState d s == .gated

/-- A phase error after one tick's move toward the target: at most 2 µs (R20). -/
def slewNs (x : Int) : Int := if x < -2000 then x + 2000 else if 2000 < x then x - 2000 else 0

/-- The overruns of the tick that ends are recorded in ascending block order (R26, R27). -/
def recordOverruns (s : State) : State :=
  let l := sortBy (fun a b => decide (a.1 ≤ b.1)) s.tick.overruns
  each l (fun e s => event 0x0101 ([BitVec.ofNat 8 e.1, 0] ++ beBytes 2 e.2.1.toNat ++ beBytes 6 e.2.2.toNat) s)
    (modTick (fun t => { t with overruns := [] }) s)

/-- The edge itself: its source, its count and its phase (R18 to R21). `phaseNs` is the phase of the edge against the
target of a new source. -/
def newEdge (phaseNs : Int) (s : State) : State :=
  let t := s.tick
  let side := activeSide s
  let next := t.count + 1
  match lowestSync side s with
  | none =>
    let e := slewNs t.phaseNs
    modTick (fun t => { t with line := false, count := next, phaseNs := e, slewing := decide (8 ≤ e.natAbs) }) s
  | some n =>
    let fc := (seam side n s).fc + 1
    let same := t.line && t.side == sideOf side && t.seam.val == n
    let e := slewNs (if same then t.phaseNs else phaseNs)
    s |> modTick (fun t => { t with line := true, side := sideOf side, seam := Fin.ofNat 4 n, count := fc, phaseNs := e,
                                    slewing := decide (8 ≤ e.natAbs) })
      |> when' (fc != next) (event 0x0102 (beBytes 6 next.toNat ++ beBytes 6 fc.toNat))

/-- Whether the supervisor runs: PD_SUP is on, and the start-up has reached step 7 (R56). -/
def supRuns (s : State) : Bool := works 18 s && s.boot.phase == .running && s.boot.inReset.isNone

/-- A block has overrun in this tick (R24, R26): its bit, its counter, a fault event, and the record that the next edge
writes, with LATE_US 0xFFFF until the work's completion is told. -/
def markOverrun (block : Nat) (s : State) : State :=
  if s.tick.overruns.any (fun e => e.1 == block) then s
  else
    s |> setReg Reg.GEN_TICK_OVERRUN (reg Reg.GEN_TICK_OVERRUN s ||| word (2 ^ block)) |> count (Reg.GEN_TICK_OVR_CNT block)
      |> modTick (fun t => { t with overruns := t.overruns ++ [(block, 0xFFFF, t.count)] }) |> noteFault 7 block

/-- The records of the plans of this tick that SHIFT is to apply (R121). -/
def shiftDue (s : State) : Nat :=
  ((List.range 4).map (fun n =>
    let x := seam (activeSide s) n s
    if x.planFc.isSome && !x.skewed then concernCount x.plan s else 0)).sum

/-- SHIFT's work: the plan of the frame that gives this tick; a budget that ends before its last record is an overrun. -/
def shiftEdge (i : TickInputs) (s : State) : State :=
  let due := shiftDue s
  s |> shiftApplyAll i.shiftDone
    |> when' (match i.shiftDone with | some k => decide (k < due) | none => false) (markOverrun 0)

/-- CIRC's work; a budget that ends before the last circuit is an overrun. -/
def circEdge (i : TickInputs) (s : State) : State :=
  let n := (activeCircuits s).length
  s |> circTick s.tick.count i.circDone (hasGrant s)
    |> when' (match i.circDone with | some k => decide (k < n) | none => false) (markOverrun 3)

/-- GATE's work: what the last tick's late check has found is corrected at the next frame boundary; this tick's check is
made, or it is late. -/
def gateEdge (i : TickInputs) (s : State) : State :=
  s |> gateLateDue |> (if i.gateLate then markOverrun 4 else gateCheck false)

/-- TALLY's work: the window of the previous tick is closed, or its receipts count in the next one. -/
def tallyEdge (i : TickInputs) (s : State) : State := if i.tallyLate then markOverrun 5 s else s |> settleReceipts |> tallyWindow

/-- The work of the tick's blocks in the order of R22 and R23: CIRC takes its configuration, SHIFT, CIRC, GATE, TALLY and the
scheduler's demands, then the grant of GOV, which PD_AON holds, on which the tally acceptance budget and SCHED_PLAN rest. -/
def edgeWork (i : TickInputs) (s : State) : State :=
  let fab := works 4 s
  s |> when' fab circEdges
    |> when' (works 18 s) (shiftEdge i)
    |> when' fab (circEdge i)
    |> when' fab (gateEdge i)
    |> when' (works 17 s) (tallyEdge i)
    |> when' fab schedEdge
    |> planEdge
    |> govGrant i
    |> when' i.govLate (markOverrun 1)
    |> when' (works 17 s) grantBudget

/-- What the other units take at a tick edge: the time unit's owner and source, the idle time, the core supply target, and
T where the supervisor sleeps (R388, R391, R446, R497). -/
def edgeRest (s : State) : State :=
  s |> ownerAtEdge |> when' (works 18 s) (fun s => selectSource (activeSide s) s) |> when' (supRuns s) vcoreEdge
    |> noteIdle |> modHost (fun h => { h with vectorSent := [] }) |> when' (!works 18 s) evaluateTarget

/-- A tick edge and all that starts at it. -/
def edge (i : TickInputs) (s : State) : State :=
  s |> settleTubs |> settleExceptions |> recordOverruns |> newEdge i.phaseNs |> edgeWork i |> edgeRest

/-- TICK_EDGE (R18): from the line, or locally generated where no seam of the active side is in SYNC. -/
def tickEdge (i : TickInputs) (s : State) : State := if s.boot.inReset.isSome then s else edge i s

/-- LOCAL_TICK_COUNT_EXPIRY (R19): only while no seam of the active side is in SYNC. -/
def localExpiry (i : TickInputs) (s : State) : State :=
  if s.boot.inReset.isSome || (lowestSync (activeSide s) s).isSome then s else edge i s

/-- TICK_OVERRUN (R24, R26): the block's overrun, where the edge has not marked it already, and LATE_US of the work completed
late (R25); a late gate check is then complete, and any correction waits for the next tick. -/
def tickOverrun (block : Nat) (lateUs : Option (BitVec 16)) (s : State) : State :=
  let s := s |> markOverrun block |> when' (block == 2) formCaps
  match lateUs with
  | none => s
  | some us =>
    s |> modTick (fun t => { t with overruns := t.overruns.map (fun e => if e.1 = block then (block, us, e.2.2) else e) })
      |> when' (block == 4 && works 4 s) (gateCheck true)

/-- SCHED_PLAN after SCHED's overrun: the previous plan stays in force for this tick (R24), and the caps are re-formed from
it with the overshoot carried (R305). -/
def planRow (s : State) : State :=
  if s.tick.overruns.any (fun e => e.1 == 2) then formCaps s else schedPlan s

/-- SUP_LOOPS (R22): the messages not yet acted on first (R24), then the boundary clock's port states (R394), the time servo,
the protection decision with the canary's steps, and T with the votes. -/
def supLoops (s : State) : State :=
  if supRuns s then s |> actLmms |> runBmca |> servoLoop |> protDecide |> canaryStep3 |> canaryRetry |> evaluateTarget else s

end Sys2Proof.Machine
end

