-- ==== Sys2Proof/Machine/Land.lean ====
section
/-! DEFINITION. The module's sideband lands: readback of outputs, optics, LED frames and PERST_N (R543 to R555). -/
namespace Sys2Proof.Machine

/-- Change the state of the lands. -/
def modLand (f : LandState → LandState) (s : State) : State := { s with land := f s.land }

/-! ### Readback (R543) -/

/-- Whether an output is driven, so that it is read back: an open-drain one, ALERT_N or FAULT_N, only while low. -/
def landDriven (output : Nat) (s : State) : Bool :=
  if output = 0 then alertN s else if output = 1 then faultN s else true

/-- Disagreeing readbacks in a row, by output. -/
def setMismatch (output n : Nat) (s : State) : State :=
  modLand (fun x => { x with mismatches := tput (fun _ => 0) output n x.mismatches }) s

/-- Whether a burst is leaving through its lane: it has left, and its last block's time has not passed (53.0944 bits to a
nanosecond, in the units of `burstSpan`). -/
def burstLeaving (b : Burst) (s : State) : Bool :=
  match b.leftAt with
  | none => false
  | some c =>
    let span := burstSpan b.fc b b.eqd s
    decide (s.cycle < c + ((span.2 - span.1) / 530944).toNat)

/-- BE_sn is disabled while a burst is in flight (R555): the lane drops to zero, and the burst's grants count as missed. -/
def cutBursts (side n : Nat) (s : State) : State :=
  match s.join.bursts.filter (fun b => b.side == side && b.seam == n && burstLeaving b s) with
  | [] => s
  | l => s |> emit (.burstCut side n)
    |> each l (fun b => if b.ranging then when' b.ident.isSome grantMissed else each b.records (fun _ => grantMissed))

/-- LAND_READBACK: the fourth disagreeing readback in a row disables the output. -/
def landReadback (output : Nat) (agrees : Bool) (s : State) : State :=
  if rbit Reg.GEN_LAND_SHORT output s || !landDriven output s then s
  else if agrees then setMismatch output 0 s
  else
    let n := tget (fun _ => 0) s.land.mismatches output + 1
    if n < 4 then setMismatch output n s
    else s |> setMismatch output 0 |> setRfld Reg.GEN_LAND_SHORT output output 1 |> count Reg.CNT_LAND_SHORT
      |> when' (decide (11 ≤ output) && decide (output ≤ 18)) (cutBursts ((output - 11) / 4) ((output - 11) % 4))

/-- LAND_SHORT_RETRY: a disabled output is driven for 10 µs; it is enabled when all four readbacks agree. -/
def landShortRetry (output : Nat) (readbacks : List Bool) (s : State) : State :=
  if rbit Reg.GEN_LAND_SHORT output s && readbacks.all id && decide (4 ≤ readbacks.length) then
    setRfld Reg.GEN_LAND_SHORT output output 0 s
  else s

/-! ### Optics (R549, R550) -/

/-- GEN_OPTIC from its fields. -/
def opticWord (tOpt : Nat) (ok intLow lpmode inReset present : Bool) : Word :=
  word (at' 16 tOpt + at' 4 (b2n ok) + at' 3 (b2n intLow) + at' 2 (b2n lpmode) + at' 1 (b2n inReset) + b2n present)

/-- OPTIC_INSERT: RESET_N is released and CMIS is read; the cold side's optic, one of a revision below 4.0, and before step 9
of R56 any optic, is held in low-power mode. -/
def opticInsert (side : Nat) (x : CmisData) (s : State) : State :=
  if rbit (Reg.GEN_OPTIC side) 0 s then s
  else
    let ok := decide (0x40 ≤ x.revision.toNat)
    let cold := side != activeSide s || s.boot.phase != .running
    s |> putOptic side { serialCrc := crc32c x.serial, control := x.control, maxSteps := x.maxSteps, txPower := x.txPower,
                         bias := x.bias, requests := [], txDisabled := cold }
      |> setReg (Reg.GEN_OPTIC side) (opticWord x.tOptMs.toNat ok false (cold || !ok) false true)
      |> emit (.cmisAccess side (.readPages true [0, 1])) |> emit (.cmisAccess side (.lowPower (cold || !ok)))
      |> when' cold (emit (.cmisAccess side (.txDisable true)))

/-- OPTIC_REMOVE: RESET_N low, LPMODE high, T_opt 100 ms. -/
def opticRemove (side : Nat) (s : State) : State :=
  if rbit (Reg.GEN_OPTIC side) 0 s then
    s |> putOptic side OpticState.reset |> setReg (Reg.GEN_OPTIC side) (opticWord 100 false false true true false)
  else s

/-- CMIS_POLL: the lower memory, and Page 11h of the active side's optic. -/
def cmisPoll (side : Nat) (intLow : Bool) (txPower bias : List Nat) (s : State) : State :=
  if rbit (Reg.GEN_OPTIC side) 0 s then
    let act := side == activeSide s
    s |> setRfld (Reg.GEN_OPTIC side) 3 3 (b2n intLow) |> emit (.cmisAccess side (.readPages true (if act then [0x11] else [])))
      |> when' act (fun s => putOptic side { optic side s with txPower := txPower, bias := bias } s)
  else s

/-- CMIS_TIMEOUT: counted, and an event of fault source OPTIC. -/
def cmisTimeout (side : Nat) (s : State) : State :=
  if rbit (Reg.GEN_OPTIC side) 0 s then s |> count (Reg.CNT_OPTIC_TIMEOUT side) |> noteFault 6 side else s

/-! ### LEDs and PERST_N (R553, R554) -/

/-- The bits of an LED frame before INV. -/
def ledBits (s : State) : List Bool :=
  (List.range 512).flatMap (fun l => [(port l s).link, s.land.ledActivity.getLsbD l])
    ++ [faultN s, alertN s, activeSide s == 0, activeSide s == 1, s.time.locked, s.time.holdover, isBanksman s, inDip s,
        s.pwr.firedamp, s.keep.failedDie.isSome]
    ++ List.replicate 22 false

/-- LED_FRAME: shifted out while its three outputs are enabled; the next period's activity begins afresh. -/
def ledFrameOut (s : State) : State :=
  if rbit Reg.GEN_LED_CFG 31 s then
    let bits := (ledBits s).map (fun b => b != rbit Reg.GEN_LED_CFG 30 s)
    s |> when' (rfld Reg.GEN_LAND_SHORT 4 2 s == 0) (emit (.ledFrame bits)) |> modLand (fun x => { x with ledActivity := 0 })
  else s

/-- PERST_N (R553): low, it holds PD_HOST in reset. -/
def perstN (low : Bool) (s : State) : State :=
  let s := modLand (fun x => { x with perstLow := low }) s
  if low then s |> hostLinkDown |> clearDomainRegs 19 else s

end Sys2Proof.Machine
end

