-- ==== Sys2Proof/Machine/Doze.lean ====
section
/-! DEFINITION. Doze requests and wakes of identities (R152, R155, R156), and the line rows with what follows from them for
identities and protection (R102, R144, R415). -/
namespace Sys2Proof.Machine

/-! ### Doze -/

/-- The conditions of R152: DOZE_EN, no accepted consignment awaiting the head end, no circuit, empty queues. DEDUCED: they are
judged when the request is queued (log entry 42). -/
def mayDoze (i : Nat) (s : State) : Bool :=
  rbit (Reg.JOIN_ID_CFG i) 1 s && (ident i s).phase == .serving && (dozeOf i s).isNone
    && (usedSlotsOf s).all (fun e => e.2.down || e.2.ident != i || !inHand e.2.st)
    && (activeCircuits s).all (fun e => e.2.ident != i)
    && (List.range 8).all (fun k => backlog (8 * i + k) s == 0)

/-- DOZE_REQUEST (R152): STATE no deeper than DOZE_MAX, 1 to 3. -/
def dozeRequest (i st period : Nat) (s : State) : State :=
  let max := rfld (Reg.JOIN_ID_CFG i) 10 8 s
  if mayDoze i s && decide (1 ≤ st) && decide (st ≤ max) && decide (max ≤ 3) then
    queueMsg i 0x84 ([BitVec.ofNat 8 st, 0] ++ beBytes 2 period) none s
  else s

/-- DOZE_WAKE (R156): a local frame for a dozing identity. -/
def dozeWakeRow (i : Nat) (s : State) : State :=
  if (dozeOf i s).isSome then s |> wakeFires 7 none |> dozeWake i else s

/-- DOZE_TIMER (R155): the line side is brought up ahead of the earliest aware frame, at the point of L2 or L3; the dozes go
on. -/
def dozeTimer (s : State) : State := when' (2 ≤ shallowestDoze s && lineDue s) (fun s => s |> wakeFires 4 none |> refreshVotes) s

/-! ### The line -/

/-- EVAL_PERIOD_END (R91): where the seam enters SYNC, identities and protection take note. -/
def evalPeriodRow (side n : Nat) (s : State) : State :=
  let (s, entered) := evalPeriodEnd side n s
  if entered then
    s |> lineFound side n |> when' (side == activeSide s) noteUnfailed
  else s

/-- LOS_DECLARE (R99). -/
def losDeclareRow (side n : Nat) (sdLand energyLoss : Bool) (s : State) : State :=
  let before := (lowestSync side s).isSome
  s |> losDeclare side n sdLand energyLoss |> noteLineLost side before

/-- LOS_CLEAR (R99). -/
def losClearRow (side n : Nat) (sdLand energyLoss : Bool) (s : State) : State :=
  s |> losClear side n sdLand energyLoss |> when' (side == activeSide s) noteUnfailed

/-- SF_WINDOW_END (R99). -/
def sfWindowRow (side n : Nat) (s : State) : State := s |> sfWindowEnd side n |> when' (side == activeSide s) noteUnfailed

/-! ### Split writes (R211, R226) -/

/-- EV_TALLY_SPLIT (R211): the failures count first, and where they declare the die failed the declaration prevails, so that the
write is judged on the surviving die (R226). -/
def splitRow (j : Nat) (dies unwritable : BitVec 2) (s : State) : State :=
  s |> splitFaults j dies |> settleFaults |> evTallySplit j dies unwritable

/-! ### The ladder reaches or leaves L3 (R63, R429) -/

/-- What a change of ladder state brings: packet SRAM and the key slots are lost in L3 and L4, and on leaving them the keys of the saved epochs
are derived again. `old` is the state before. -/
def afterLadder (old : Nat) (s : State) : State :=
  if old < 3 ∧ 3 ≤ s.pwr.ladder then s |> loseSram |> loadEpochs (activeSide s)
  else if 3 ≤ old ∧ s.pwr.ladder < 3 then requestSaved s
  else s

/-- POWER_TRANSITION_COMPLETE (R461): the ladder's, or a domain's. -/
def transitionComplete (d : Option Nat) (s : State) : State :=
  let old := s.pwr.ladder
  let s := match d with
    | some d => domainComplete d s
    | none => ladderComplete s
  afterLadder old s

/-- EV_FIREDAMP (R471): the trip also aborts an assay run. -/
def firedampRow (first second : List Int) (s : State) : State :=
  let was := s.pwr.firedamp
  let s := firedampTrip first second s
  if !was && s.pwr.firedamp then assayAbort s else s

/-- FIREDAMP_CLEAR (R472): an aborted run starts anew. -/
def firedampClearRow (highest : Int) (s : State) : State :=
  let was := s.pwr.firedamp
  let s := firedampClear highest s
  if was && !s.pwr.firedamp then assayRestart s else s

end Sys2Proof.Machine
end

