-- ==== Sys2Proof/WellFormed.lean ====
section
/-! DEFINITION. The shapes of operands a command of the spec has: lists of a fixed length, records and frames of the
lengths their tables give. A command of another shape is refused as ill-formed. -/
namespace Sys2Proof

/-- 16 junction sensors (R464). -/
def TickInputs.wf (i : TickInputs) : Bool := i.junction.length == 16

/-- A serial number of 16 bytes and four lanes (R549). -/
def CmisData.wf (x : CmisData) : Bool := x.serial.length == 16 && x.txPower.length == 4 && x.bias.length == 4

/-- Whether a command's operands have their shapes: codewords of 544 symbols (R75), at most 2,440 of them in a frame (R74),
eight PFC times (R295), records of the recorder (R487) and chain payloads (R512) of their lengths, PCI Express speeds and
widths (R517). -/
def Instr.wf : Instr → Bool
  | .tickEdge i => i.wf
  | .localTickCountExpiry i => i.wf
  | .refclkMeasure ppm => ppm.length == 4
  | .syncSighting _ _ _ word => word.length == 544
  | .candidateExamine _ _ _ word => word.length == 544
  | .downstreamFrame _ _ words _ => decide (words.length ≤ 2440) && words.all (fun w => w.length == 544)
  | .pfc _ _ times => times.length == 8
  | .evFiredamp first second => first.length == 16 && second.length == 16
  | .recordEvent _ _ payload => decide (payload.length ≤ 240)
  | .eventFwd _ _ record => decide (40 ≤ record.length) && decide (record.length ≤ 280)
  | .excFwd _ record => decide (16 ≤ record.length) && decide (record.length ≤ 272)
  | .time received => received.all (fun x => x.2.length == 32)
  | .hostLinkUp speed width => decide (1 ≤ speed.toNat) && decide (speed.toNat ≤ 4) && (width == 1 || width == 2 || width == 4)
  | .landShortRetry _ readbacks => readbacks.length == 4
  | .opticInsert _ cmis => cmis.wf
  | .cmisPoll _ _ txPower bias => txPower.length == 4 && bias.length == 4
  | .govLateComplete | .schedPlan | .supLoops | .tickOverrun .. | .regWrite .. | .regMisaligned ..
  | .rcClearingRead .. | .lrLowWordRead .. | .coldReset | .dipReset .. | .pinReset | .watchdogReset ..
  | .chainReset .. | .domainReset .. | .domainResetRelease .. | .resetRelease .. | .imageVerifyDone ..
  | .release | .imageApply | .imgRecordBusyWait .. | .evRefclkLoss .. | .refclkRetry .. | .evVinWarn ..
  | .vinWarnRepeat .. | .evVinRecover .. | .vauxLoss | .vinOvercurrentDisconnect | .sideDomainUp ..
  | .sideDomainDown .. | .evalPeriodEnd .. | .losDeclare .. | .losClear .. | .sdWindowEnd .. | .sfWindowEnd ..
  | .upstreamBurst .. | .announce .. | .rangingReply .. | .assignTn .. | .rangingTime .. | .allocAssign ..
  | .deactivate .. | .expel .. | .hold .. | .keyEpoch .. | .burstProfile .. | .dozeGrant .. | .echoRequest ..
  | .resumeAck .. | .timeOfDay .. | .ack .. | .joinTimeout .. | .resumeTimeout .. | .unexpel ..
  | .dozeRequest .. | .dozeWake .. | .dozeTimer | .bondGapTimerExpiry .. | .circEnable .. | .circDisable ..
  | .circPacket .. | .submit .. | .journalWriteVerified .. | .evTallySplit .. | .deliver .. | .tallyResendHe ..
  | .deliverToRecipient .. | .tallyResendLocal .. | .receiptFromHeadEnd .. | .receiptFromRecipient ..
  | .refuseFromHeadEnd .. | .status .. | .evTallyStall .. | .flowClose .. | .purge .. | .journalScan ..
  | .classifyFrame .. | .excForward | .ruleWrite .. | .ruleRead .. | .fdbInsertStatic | .fdbInsertDynamic
  | .fdbDelete | .fdbLookup | .fdbDeleteByDest | .fdbSweep | .vlanWrite .. | .vlanRead .. | .portFrameStart ..
  | .pause .. | .pauseExpiry .. | .lanePauseDrop .. | .gateCommit .. | .gateListStart .. | .gclWrite ..
  | .gclRead .. | .policerWrite .. | .policerRead .. | .policerReadClear .. | .tubTake .. | .tubFree ..
  | .tubHandOver .. | .ringPost .. | .ringFill .. | .spill .. | .refill .. | .wndDoorbell ..
  | .wndDescriptorFetch .. | .wndDescriptorComplete .. | .wndBurst .. | .evWndError .. | .wndChannelDisable ..
  | .portModeWrite .. | .macRxFrame .. | .linkUp .. | .linkDown .. | .lpiEnter .. | .lpiExit .. | .lldpSend ..
  | .lldpReceive .. | .lldpTtlExpiry .. | .mdioAddress .. | .mdioWrite .. | .mdioRead ..
  | .mdioReadIncrement .. | .mdioAddressWrite .. | .mdioAddressRead .. | .partnerLpi .. | .localFault ..
  | .laneTrain .. | .retrainWindow | .laneWake .. | .laneNoEnergy .. | .slip .. | .eyeScanStart ..
  | .eyeScanDone .. | .laneCfgWrite .. | .receiverDetect .. | .evLaneShort .. | .shortRetry .. | .laneRetire ..
  | .laneUnretire .. | .prbsCheckerLock .. | .prbsCheckerLockLoss .. | .timeIncWrite .. | .ownerChange ..
  | .timeNowRead .. | .timeAdj .. | .holdoverEnter | .ptpMessage .. | .ppsInEdge .. | .ppsOutPulse ..
  | .canaryRun | .evCanary .. | .canaryAbort | .seamEligible .. | .sideFailed | .manual | .forced | .lockout
  | .clear | .protectionSwitch | .evProtSwitch | .evProtSwitchFail | .waitToRestoreExpiry | .oprootCommit
  | .keyDerived | .keyRetire .. | .unwrap .. | .erase .. | .rekey | .ladderEntry | .ladderExit | .wakeN
  | .wakeTimerExpiry | .wake .. | .domainAccessWake .. | .evPwrWakeFail .. | .domainDrop .. | .hostVoteWrite ..
  | .l4Overtemp .. | .shedEnd | .firedampClear .. | .pwWrite .. | .keepMount .. | .scrub .. | .evKeepRemap ..
  | .assayRun .. | .evAssayResult .. | .slackSample .. | .hourCount .. | .faultEvent .. | .bankRemap ..
  | .chainFrameReceive .. | .read .. | .write .. | .posted .. | .readResp .. | .writeResp ..
  | .hostRequestTimeout .. | .bar0Access .. | .bar2Write .. | .recordForward | .banksmanUnreachable | .alert ..
  | .keepalive .. | .evChainPort .. | .wakeE | .wakeW | .evHostLink | .landReadback .. | .opticRemove ..
  | .cmisTimeout .. | .ledFrame | .perstN .. | .vioReady | .powerTransitionComplete .. | .ptpSyncInterval .. => true

end Sys2Proof
end

