-- ==== Sys2Proof/Machine/Finish.lean ====
section
/-! DEFINITION. How every command ends: the accesses that stalled on a domain that is now ON are performed (R457), and the
fault events of the step are counted (R503). -/
namespace Sys2Proof.Machine

/-- The accesses that wait for a domain that is now ON are performed. -/
def settleStalled (s : State) : State :=
  if s.pwr.stalled.any (fun x => domState x.domain s == .on) then completeStalled s else s

/-- The state a command leaves. -/
def finish (s : State) : Host.Outcome State Fault Refusal := .next (settleFaults (settleStalled s))

/-- One cycle of the free-running clock, 1 ns (log entry 2), and what ends with it: the frees and takes of the cycle
are made (R315), its exceptions are taken (R268), and the hold-up time after the loss of VAUX may be over (R541). -/
def idleCycle (s : State) : State := s |> settleTubs |> settleExceptions |> clockCycle |> vauxEnd

/-- The front of the queue: the command a word spells is put before those that wait. -/
def pushFront (c : Option Instr) (s : State) : State :=
  match c with
  | some i => { s with pending := i :: s.pending }
  | none => s

end Sys2Proof.Machine
end

