-- ==== Sys2Proof/Machine/ExecAssay.lean ====
section
/-! DEFINITION. The meanings of the commands of assay and faults (R493 to R508), one definition per command. -/
namespace Sys2Proof.Machine

/-- ASSAY_RUN (R493): whether a run is due by time (or asked for by RUN). -/
def execAssayRun (requested : Bool) (s : State) : Host.Outcome State Fault Refusal :=
  finish (assayRun requested s)

/-- EV_ASSAY_RESULT (R495): the run's measurements. -/
def execEvAssayResult (m : AssayMeasure) (s : State) : Host.Outcome State Fault Refusal :=
  finish (assayResult m s)

/-- SLACK_SAMPLE (R497): S in tenths of a picosecond. -/
def execSlackSample (slack : Int) (s : State) : Host.Outcome State Fault Refusal :=
  finish (slackSample slack s)

/-- HOUR_COUNT (R501): the hour's highest case temperature. -/
def execHourCount (caseTemp : Int) (s : State) : Host.Outcome State Fault Refusal :=
  finish (hourCount caseTemp s)

/-- FAULT_EVENT (R503): the source and the instance. -/
def execFaultEvent (source : FaultSource) (inst : BitVec 16) (s : State) : Host.Outcome State Fault Refusal :=
  finish (faultEvent source inst.toNat s)

/-- BANK_REMAP (R505): the SRAM bank whose tubs are all free. -/
def execBankRemap (bank : Fin 384) (s : State) : Host.Outcome State Fault Refusal :=
  finish (bankRemap bank.val s)

end Sys2Proof.Machine
end

