-- ==== Sys2Proof/Machine/ExecChain.lean ====
section
/-! DEFINITION. The meanings of the commands of the chain and the host (R509 to R531), one definition per command. -/
namespace Sys2Proof.Machine

/-- A TIME frame received, or sent where the second has elapsed (R523). -/
def timeRow (received : Option (Fin 64 × Bytes)) (s : State) : State :=
  match received with
  | some (src, b) => timeReceived src.val b s
  | none => timeSend s

/-- An ALERT received at the banksman, or the member's own (R526). -/
def alertRow (received : Option (Fin 64 × Word)) (s : State) : State :=
  match received with
  | some (src, cause) => alertReceived src.val cause s
  | none => alertSend s

/-- CHAIN_FRAME_RECEIVE (R515): the port it arrives on (0 east, 1 west) and its bytes, CRC included. -/
def execChainFrameReceive (port : Fin 2) (frame : Bytes) (s : State) : Host.Outcome State Fault Refusal :=
  finish (chainFrameReceive port.val frame s)

/-- READ (R521): a READ consumed. -/
def execRead (src : Fin 64) (tag : BitVec 16) (addr : Word) (s : State) : Host.Outcome State Fault Refusal :=
  finish (chainRead src.val tag.toNat addr s)

/-- WRITE (R521): a WRITE consumed. -/
def execWrite (src : Fin 64) (tag : BitVec 16) (addr data : Word) (s : State) : Host.Outcome State Fault Refusal :=
  finish (chainWriteReq src.val tag.toNat addr data s)

/-- POSTED (R519): a POSTED consumed, or acted on as a broadcast. -/
def execPosted (addr data : Word) (s : State) : Host.Outcome State Fault Refusal :=
  finish (chainPosted addr data s)

/-- READ_RESP (R520): at the banksman. -/
def execReadResp (_src : Fin 64) (tag : BitVec 16) (data : Word) (_status : BitVec 8) (s : State) :
    Host.Outcome State Fault Refusal :=
  finish (readResp tag.toNat data s)

/-- WRITE_RESP (R520). -/
def execWriteResp (_src : Fin 64) (tag : BitVec 16) (_status : BitVec 8) (s : State) :
    Host.Outcome State Fault Refusal :=
  finish (writeResp tag.toNat s)

/-- HOST_REQUEST_TIMEOUT (R520): of the request to a member. -/
def execHostRequestTimeout (member : Fin 64) (s : State) : Host.Outcome State Fault Refusal :=
  finish (hostTimeout member.val s)

/-- BAR0_ACCESS (R519): the access, of how many bytes. -/
def execBar0Access (a : Bar0Access) (bytes : Nat) (s : State) : Host.Outcome State Fault Refusal :=
  finish (bar0Access a bytes s)

/-- BAR2_WRITE (R518). -/
def execBar2Write (addr : BitVec 25) (value : Word) (bytes : Nat) (s : State) : Host.Outcome State Fault Refusal :=
  finish (bar2Write addr value bytes s)

/-- EVENT_FWD (R522): a record forwarded by a member, at the banksman. -/
def execEventFwd (src : Fin 64) (gap : Bool) (record : Bytes) (s : State) : Host.Outcome State Fault Refusal :=
  if (Instr.eventFwd src gap record).wf then finish (eventFwd src.val gap record s) else .refused .illFormed

/-- EXC_FWD (R522). -/
def execExcFwd (src : Fin 64) (record : Bytes) (s : State) : Host.Outcome State Fault Refusal :=
  if (Instr.excFwd src record).wf then finish (excFwd src.val record s) else .refused .illFormed

/-- RECORD_FORWARD (R525). -/
def execRecordForward (s : State) : Host.Outcome State Fault Refusal :=
  finish (recordForward s)

/-- TIME (R523): a TIME frame received (its SRC and payload); none where the second has elapsed and one is sent. -/
def execTime (received : Option (Fin 64 × Bytes)) (s : State) : Host.Outcome State Fault Refusal :=
  if (Instr.time received).wf then finish (timeRow received s) else .refused .illFormed

/-- BANKSMAN_UNREACHABLE (R524). -/
def execBanksmanUnreachable (s : State) : Host.Outcome State Fault Refusal :=
  finish (banksmanUnreachable s)

/-- ALERT (R526): an ALERT received (its SRC and CAUSE), at the banksman; none where the member's own masked causes have
changed or the second has elapsed. -/
def execAlert (received : Option (Fin 64 × Word)) (s : State) : Host.Outcome State Fault Refusal :=
  finish (alertRow received s)

/-- KEEPALIVE (R513). -/
def execKeepalive (port : Fin 2) (s : State) : Host.Outcome State Fault Refusal :=
  finish (keepalive port.val s)

/-- EV_CHAIN_PORT (R513): the port has had HOLD_MS of good frames (`up`), or a gap or a loss of block lock ends its
service. -/
def execEvChainPort (port : Fin 2) (up : Bool) (s : State) : Host.Outcome State Fault Refusal :=
  finish (chainPortChange port.val up s)

/-- WAKE_E (R528). -/
def execWakeE (s : State) : Host.Outcome State Fault Refusal :=
  finish (commandWrite .host Reg.CHAIN_CTRL (reg Reg.CHAIN_CTRL s ||| 0x40000000) (chainBurst 0) s)

/-- WAKE_W (R528). -/
def execWakeW (s : State) : Host.Outcome State Fault Refusal :=
  finish (commandWrite .host Reg.CHAIN_CTRL (reg Reg.CHAIN_CTRL s ||| 0x20000000) (chainBurst 1) s)

/-- HOST_LINK_UP (R517): the speed (1 to 4) and the lanes in use. -/
def execHostLinkUp (speed : BitVec 3) (width : BitVec 4) (s : State) : Host.Outcome State Fault Refusal :=
  if (Instr.hostLinkUp speed width).wf then finish (hostLinkUp speed.toNat width.toNat s) else .refused .illFormed

/-- EV_HOST_LINK (R529): the link goes down. -/
def execEvHostLink (s : State) : Host.Outcome State Fault Refusal :=
  finish (hostLinkDown s)

end Sys2Proof.Machine
end

