-- ==== Sys2Proof/Machine/ExecCiph.lean ====
section
/-! DEFINITION. The meanings of the commands of keys (R423 to R444), one definition per command. -/
namespace Sys2Proof.Machine

/-- OPROOT_COMMIT (R423). -/
def execOprootCommit (s : State) : Host.Outcome State Fault Refusal :=
  finish (commandWrite .host Reg.CIPH_OPROOT_CMD 1 (oprootCommit) s)

/-- KEY_DERIVED (R429). -/
def execKeyDerived (s : State) : Host.Outcome State Fault Refusal :=
  finish (keyDerived s)

/-- KEY_RETIRE (R434). -/
def execKeyRetire (ident : Fin 128) (s : State) : Host.Outcome State Fault Refusal :=
  finish (keyRetire ident.val s)

/-- UNWRAP (R443): the value written to CIPH_UNWRAP_CMD, and whether the keep fails to write the key. -/
def execUnwrap (value : Word) (keepFails : Bool) (s : State) : Host.Outcome State Fault Refusal :=
  finish (commandWrite .host Reg.CIPH_UNWRAP_CMD (putFld value 27 26 1) (unwrapKey (putFld value 27 26 1) keepFails) s)

/-- ERASE (R443). -/
def execErase (value : Word) (s : State) : Host.Outcome State Fault Refusal :=
  finish (commandWrite .host Reg.CIPH_UNWRAP_CMD (putFld value 27 26 2) (eraseKey (putFld value 27 26 2)) s)

/-- REKEY (R440). -/
def execRekey (s : State) : Host.Outcome State Fault Refusal :=
  finish (commandWrite .host Reg.CIPH_STORE_CMD 1 (rekey) s)

end Sys2Proof.Machine
end

