-- ==== Sys2Proof/Machine/ExecCirc.lean ====
section
/-! DEFINITION. The meanings of the commands of circuits (R163 to R186), one definition per command. -/
namespace Sys2Proof.Machine

/-- CIRC_ENABLE (R184). -/
def execCircEnable (circuit : Fin 1024) (s : State) : Host.Outcome State Fault Refusal :=
  finish (circEnable circuit.val s)

/-- CIRC_DISABLE (R185). -/
def execCircDisable (circuit : Fin 1024) (s : State) : Host.Outcome State Fault Refusal :=
  finish (circDisable circuit.val s)

/-- CIRC_PACKET (R177): a packet from its control word on; none takes the next one the classifier has handed over. -/
def execCircPacket (packet : Option (Fin 1024 × Bytes)) (s : State) : Host.Outcome State Fault Refusal :=
  finish (circPacketRow packet s)

end Sys2Proof.Machine
end

