-- ==== Sys2Proof/Machine/ExecCls.lean ====
section
/-! DEFINITION. The meanings of the commands of classification and bridging (R235 to R268), one definition per command. -/
namespace Sys2Proof.Machine

/-- CLASSIFY_FRAME (R252): the next frame that waits at a pipeline. -/
def execClassifyFrame (pipe : Fin 4) (s : State) : Host.Outcome State Fault Refusal :=
  finish (classifyFrame pipe.val s)

/-- EXC_FORWARD (R267): the oldest record of the exception ring. -/
def execExcForward (s : State) : Host.Outcome State Fault Refusal :=
  finish (excForward s)

/-- RULE_WRITE (R245): the value written to CLS_RULE_CMD. -/
def execRuleWrite (pipe : Fin 4) (value : Word) (s : State) : Host.Outcome State Fault Refusal :=
  finish (commandWrite .host (Reg.CLS_RULE_CMD pipe.val) (putFld value 17 16 1) (ruleWrite pipe.val (putFld value 17 16 1)) s)

/-- RULE_READ (R242). -/
def execRuleRead (pipe : Fin 4) (value : Word) (s : State) : Host.Outcome State Fault Refusal :=
  finish (commandWrite .host (Reg.CLS_RULE_CMD pipe.val) (putFld value 17 16 2) (ruleRead pipe.val (putFld value 17 16 2)) s)

/-- FDB_INSERT_STATIC (R262). -/
def execFdbInsertStatic (s : State) : Host.Outcome State Fault Refusal :=
  finish (commandWrite .host Reg.CLS_FDB_CMD 1 (fdbInsert true) s)

/-- FDB_INSERT_DYNAMIC (R262). -/
def execFdbInsertDynamic (s : State) : Host.Outcome State Fault Refusal :=
  finish (commandWrite .host Reg.CLS_FDB_CMD 2 (fdbInsert false) s)

/-- FDB_DELETE (R258). -/
def execFdbDelete (s : State) : Host.Outcome State Fault Refusal :=
  finish (commandWrite .host Reg.CLS_FDB_CMD 3 (fdbDelete) s)

/-- FDB_LOOKUP (R258). -/
def execFdbLookup (s : State) : Host.Outcome State Fault Refusal :=
  finish (commandWrite .host Reg.CLS_FDB_CMD 4 (fdbLookup) s)

/-- FDB_DELETE_BY_DEST (R256). -/
def execFdbDeleteByDest (s : State) : Host.Outcome State Fault Refusal :=
  finish (commandWrite .host Reg.CLS_FDB_CMD 5 (fdbDeleteByDest) s)

/-- FDB_SWEEP (R261). -/
def execFdbSweep (s : State) : Host.Outcome State Fault Refusal :=
  finish (fdbSweep s)

/-- VLAN_WRITE (R254): the value written to CLS_VLAN_CMD. -/
def execVlanWrite (value : Word) (s : State) : Host.Outcome State Fault Refusal :=
  finish (commandWrite .host Reg.CLS_VLAN_CMD (putFld value 17 16 1) (vlanWrite (putFld value 17 16 1)) s)

/-- VLAN_READ (R254). -/
def execVlanRead (value : Word) (s : State) : Host.Outcome State Fault Refusal :=
  finish (commandWrite .host Reg.CLS_VLAN_CMD (putFld value 17 16 2) (vlanRead (putFld value 17 16 2)) s)

end Sys2Proof.Machine
end

