-- ==== Sys2Proof/Machine/ExecJoin.lean ====
section
/-! DEFINITION. The meanings of the commands of bursts, line management and identities (R112 to R162), one definition per command. -/
namespace Sys2Proof.Machine

/-- UPSTREAM_BURST (R127): the next burst placed on the seam of the active side leaves. -/
def execUpstreamBurst (seam : Fin 4) (s : State) : Host.Outcome State Fault Refusal :=
  finish (upstreamBurst seam.val s)

/-- ANNOUNCE (R145): the burst of an announce window leaves. -/
def execAnnounce (seam : Fin 4) (s : State) : Host.Outcome State Fault Refusal :=
  finish (announce seam.val s)

/-- RANGING_REPLY (R144): the burst of a directed ranging window leaves. -/
def execRangingReply (seam : Fin 4) (s : State) : Host.Outcome State Fault Refusal :=
  finish (rangingReply seam.val s)

/-- ASSIGN_TN (R144): IDSER and NEW_TN. -/
def execAssignTn (m : LmmHead) (idser : BitVec 64) (newTn : BitVec 12) (s : State) :
    Host.Outcome State Fault Refusal :=
  finish (assignTn m idser.toNat newTn.toNat s)

/-- RANGING_TIME (R147). -/
def execRangingTime (m : LmmHead) (eqd : BitVec 26) (effFc : BitVec 48) (now : Bool) (s : State) :
    Host.Outcome State Fault Refusal :=
  finish (rangingTime m eqd.toNat effFc now s)

/-- ALLOC_ASSIGN (R149). -/
def execAllocAssign (m : LmmHead) (allocId : BitVec 14) (remove : Bool) (index : BitVec 3) (s : State) :
    Host.Outcome State Fault Refusal :=
  finish (allocAssign m allocId.toNat remove index.toNat s)

/-- DEACTIVATE (R144). -/
def execDeactivate (m : LmmHead) (s : State) : Host.Outcome State Fault Refusal :=
  finish (deactivate m s)

/-- EXPEL (R144). -/
def execExpel (m : LmmHead) (idser : BitVec 64) (enable : Bool) (s : State) : Host.Outcome State Fault Refusal :=
  finish (expel m idser.toNat enable s)

/-- HOLD (R144). -/
def execHold (m : LmmHead) (release : Bool) (s : State) : Host.Outcome State Fault Refusal :=
  finish (hold m release s)

/-- KEY_EPOCH (R434). -/
def execKeyEpoch (m : LmmHead) (up : Bool) (epoch : Word) (switchFc : BitVec 48) (s : State) :
    Host.Outcome State Fault Refusal :=
  finish (keyEpoch m up epoch switchFc s)

/-- BURST_PROFILE (R142). -/
def execBurstProfile (m : LmmHead) (profile : BitVec 3) (preamble : BitVec 10) (pattern : Word) (delimiter : BitVec 64)
    (s : State) : Host.Outcome State Fault Refusal :=
  finish (burstProfile m profile.toNat preamble.toNat pattern delimiter s)

/-- DOZE_GRANT (R153). -/
def execDozeGrant (m : LmmHead) (state : BitVec 3) (period aware : BitVec 16) (s : State) :
    Host.Outcome State Fault Refusal :=
  finish (dozeGrant m state.toNat period.toNat aware.toNat s)

/-- ECHO_REQUEST (R142): the data as a number, most significant byte first. -/
def execEchoRequest (m : LmmHead) (data : BitVec 288) (s : State) : Host.Outcome State Fault Refusal :=
  finish (echoRequest m data s)

/-- RESUME_ACK (R436). -/
def execResumeAck (m : LmmHead) (dsEpoch usEpoch : Word) (s : State) : Host.Outcome State Fault Refusal :=
  finish (resumeAck m dsEpoch usEpoch s)

/-- TIME_OF_DAY (R392). -/
def execTimeOfDay (m : LmmHead) (markFc : BitVec 48) (seconds : BitVec 64) (ns : Word) (frac : BitVec 16)
    (s : State) : Host.Outcome State Fault Refusal :=
  finish (timeOfDay m markFc seconds.toNat ns.toNat frac.toNat s)

/-- ACK (R122): a message of type `type` and SEQ received in frame `fc` for the identity is to be acknowledged. -/
def execAck (ident : Fin 128) (type seq : BitVec 8) (fc : BitVec 48) (s : State) : Host.Outcome State Fault Refusal :=
  finish (queueAck ident.val type.toNat seq.toNat fc s)

/-- JOIN_TIMEOUT (R144). -/
def execJoinTimeout (ident : Fin 128) (s : State) : Host.Outcome State Fault Refusal :=
  finish (joinTimeout ident.val s)

/-- RESUME_TIMEOUT (R144). -/
def execResumeTimeout (ident : Fin 128) (s : State) : Host.Outcome State Fault Refusal :=
  finish (resumeTimeout ident.val s)

/-- UNEXPEL (R144). -/
def execUnexpel (ident : Fin 128) (s : State) : Host.Outcome State Fault Refusal :=
  finish (commandWrite .host (Reg.JOIN_ID_CFG ident.val) (reg (Reg.JOIN_ID_CFG ident.val) s ||| 0x80000000) (unexpel ident.val) s)

/-- DOZE_REQUEST (R152): the ladder state and the period the supervisor wants. -/
def execDozeRequest (ident : Fin 128) (state : BitVec 3) (period : BitVec 16) (s : State) :
    Host.Outcome State Fault Refusal :=
  finish (dozeRequest ident.val state.toNat period.toNat s)

/-- DOZE_WAKE (R156). -/
def execDozeWake (ident : Fin 128) (s : State) : Host.Outcome State Fault Refusal :=
  finish (dozeWakeRow ident.val s)

/-- DOZE_TIMER (R155). -/
def execDozeTimer (s : State) : Host.Outcome State Fault Refusal :=
  finish (dozeTimer s)

/-- BOND_GAP_TIMER_EXPIRY (R160). -/
def execBondGapTimerExpiry (ident : Fin 128) (s : State) : Host.Outcome State Fault Refusal :=
  finish (bondGapExpiry ident.val s)

end Sys2Proof.Machine
end

