-- ==== Sys2Proof/Machine/ExecKeep.lean ====
section
/-! DEFINITION. The meanings of the commands of the keep and the recorder (R475 to R492), one definition per command. -/
namespace Sys2Proof.Machine

/-- KEEP_MOUNT (R478): entry copies found torn, by die and entry: their write was not verified when keep power was lost;
and whether the newest record was torn so. -/
def execKeepMount (torn : List (Fin 2 × Fin 4096)) (tornRecord : Bool) (s : State) :
    Host.Outcome State Fault Refusal :=
  finish (keepMount torn tornRecord s)

/-- SCRUB (R481): what the read of the unit finds on the die. -/
def execScrub (die : Fin 2) (uncorrectable : Bool) (otherBad : Bool) (writePending : Bool) (s : State) :
    Host.Outcome State Fault Refusal :=
  finish (scrub die.val uncorrectable otherBad writePending s)

/-- EV_KEEP_REMAP (R482): the die, the failed unit, and whether the other die's copy of it is also bad. -/
def execEvKeepRemap (die : Fin 2) (unit : Fin 32768) (otherBad : Bool) (s : State) :
    Host.Outcome State Fault Refusal :=
  finish (remapUnit die.val unit.val otherBad s)

/-- RECORD_EVENT (R488): the event code, the source (0 hardware, 1 supervisor, 2 boot ROM) and the payload. -/
def execRecordEvent (code : BitVec 16) (source : Fin 3) (payload : Bytes) (s : State) :
    Host.Outcome State Fault Refusal :=
  if (Instr.recordEvent code source payload).wf then finish (recordEvent code source.val payload s) else .refused .illFormed

end Sys2Proof.Machine
end

