-- ==== Sys2Proof/Machine/ExecLand.lean ====
section
/-! DEFINITION. The meanings of the commands of the lands (R532 to R560), one definition per command. -/
namespace Sys2Proof.Machine

/-- LAND_READBACK (R543): the output by its bit of GEN_LAND_SHORT, and whether it reads back as driven. -/
def execLandReadback (output : Fin 27) (agrees : Bool) (s : State) : Host.Outcome State Fault Refusal :=
  finish (landReadback output.val agrees s)

/-- LAND_SHORT_RETRY (R543): the four readbacks of the 10 µs. -/
def execLandShortRetry (output : Fin 27) (readbacks : List Bool) (s : State) : Host.Outcome State Fault Refusal :=
  if (Instr.landShortRetry output readbacks).wf then finish (landShortRetry output.val readbacks s) else .refused .illFormed

/-- OPTIC_INSERT (R550): the side, and what CMIS shows. -/
def execOpticInsert (side : Fin 2) (cmis : CmisData) (s : State) : Host.Outcome State Fault Refusal :=
  if (Instr.opticInsert side cmis).wf then finish (opticInsert side.val cmis s) else .refused .illFormed

/-- OPTIC_REMOVE (R550). -/
def execOpticRemove (side : Fin 2) (s : State) : Host.Outcome State Fault Refusal :=
  finish (opticRemove side.val s)

/-- CMIS_POLL (R549): the side, whether INT_N is low, and the lane powers and biases of Page 11h. -/
def execCmisPoll (side : Fin 2) (intLow : Bool) (txPower bias : List Nat) (s : State) :
    Host.Outcome State Fault Refusal :=
  if (Instr.cmisPoll side intLow txPower bias).wf then finish (cmisPoll side.val intLow txPower bias s) else .refused .illFormed

/-- CMIS_TIMEOUT (R550). -/
def execCmisTimeout (side : Fin 2) (s : State) : Host.Outcome State Fault Refusal :=
  finish (cmisTimeout side.val s)

/-- LED_FRAME (R554). -/
def execLedFrame (s : State) : Host.Outcome State Fault Refusal :=
  finish (ledFrameOut s)

/-- PERST_N (R553): the level. -/
def execPerstN (low : Bool) (s : State) : Host.Outcome State Fault Refusal :=
  finish (perstN low s)

end Sys2Proof.Machine
end

