-- ==== Sys2Proof/Machine/ExecLane.lean ====
section
/-! DEFINITION. The meanings of the commands of lanes (R363 to R385), one definition per command. -/
namespace Sys2Proof.Machine

/-- LANE_TRAIN (R365). -/
def execLaneTrain (lane : Fin 532) (s : State) : Host.Outcome State Fault Refusal :=
  finish (laneTrain lane.val s)

/-- RETRAIN_WINDOW (R366). -/
def execRetrainWindow (s : State) : Host.Outcome State Fault Refusal :=
  finish (retrainWindow s)

/-- LANE_WAKE (R369): whether the receiver detects energy. -/
def execLaneWake (lane : Fin 532) (energy : Bool) (s : State) : Host.Outcome State Fault Refusal :=
  finish (laneWake lane.val energy s)

/-- LANE_NO_ENERGY (R368): whether a wake falls in the same cycle (R385). -/
def execLaneNoEnergy (lane : Fin 532) (wake : Bool) (s : State) : Host.Outcome State Fault Refusal :=
  finish (laneNoEnergy lane.val wake s)

/-- SLIP (R372): the value written to LANE_ALIGN. -/
def execSlip (lane : Fin 532) (value : Word) (s : State) : Host.Outcome State Fault Refusal :=
  finish (commandWrite .host (Reg.LANE_ALIGN lane.val) value (slip lane.val value) s)

/-- EYE_SCAN_START (R373): the value written to LANE_EYE_CTRL. -/
def execEyeScanStart (lane : Fin 532) (value : Word) (s : State) : Host.Outcome State Fault Refusal :=
  finish (commandWrite .host (Reg.LANE_EYE_CTRL lane.val) value (eyeScanStart lane.val value) s)

/-- EYE_SCAN_DONE (R373): the disagreements counted. -/
def execEyeScanDone (lane : Fin 532) (errors : Nat) (s : State) : Host.Outcome State Fault Refusal :=
  finish (eyeScanDone lane.val errors s)

/-- LANE_CFG_WRITE (R375): the value written to LANE_CFG. -/
def execLaneCfgWrite (lane : Fin 532) (value : Word) (s : State) : Host.Outcome State Fault Refusal :=
  finish (commandWrite .host (Reg.LANE_CFG lane.val) value (laneCfgWrite lane.val value) s)

/-- RECEIVER_DETECT (R378): whether a far-end termination is found. -/
def execReceiverDetect (lane : Fin 532) (found : Bool) (s : State) : Host.Outcome State Fault Refusal :=
  finish (receiverDetect lane.val found s)

/-- EV_LANE_SHORT (R379). -/
def execEvLaneShort (lane : Fin 532) (s : State) : Host.Outcome State Fault Refusal :=
  finish (laneShort lane.val s)

/-- SHORT_RETRY (R379): whether the limit is reached again. -/
def execShortRetry (lane : Fin 532) (limited : Bool) (s : State) : Host.Outcome State Fault Refusal :=
  finish (shortRetry lane.val limited s)

/-- LANE_RETIRE (R381): whether a lasting fault is declared (otherwise its bit is written 1). -/
def execLaneRetire (lane : Fin 532) (declared : Bool) (s : State) : Host.Outcome State Fault Refusal :=
  finish (if declared then laneRetire lane.val true s
          else commandWrite .host (Reg.LANE_RETIRED (lane.val / 32))
            (keepValue (8 + lane.val / 32) s ||| BitVec.ofNat 32 (2 ^ (lane.val % 32))) (laneRetire lane.val false) s)

/-- LANE_UNRETIRE (R383). -/
def execLaneUnretire (lane : Fin 532) (s : State) : Host.Outcome State Fault Refusal :=
  finish (commandWrite .host (Reg.LANE_RETIRED (lane.val / 32))
          (keepValue (8 + lane.val / 32) s &&& ~~~ BitVec.ofNat 32 (2 ^ (lane.val % 32))) (laneUnretire lane.val) s)

/-- PRBS_CHECKER_LOCK (R374): the bits the checker has checked and the errors among them since it was last heard of. -/
def execPrbsCheckerLock (lane : Fin 532) (bits errors : Nat) (s : State) : Host.Outcome State Fault Refusal :=
  finish (prbsLockOn lane.val bits errors s)

/-- PRBS_CHECKER_LOCK_LOSS (R374): the same, up to the loss. -/
def execPrbsCheckerLockLoss (lane : Fin 532) (bits errors : Nat) (s : State) : Host.Outcome State Fault Refusal :=
  finish (prbsLockLoss lane.val bits errors s)

end Sys2Proof.Machine
end

