-- ==== Sys2Proof/Machine/ExecLine.lean ====
section
/-! DEFINITION. The meanings of the commands of the line receivers (R72 to R111), one definition per command. -/
namespace Sys2Proof.Machine

/-- SIDE_DOMAIN_UP (R92). -/
def execSideDomainUp (side : Fin 2) (s : State) : Host.Outcome State Fault Refusal :=
  finish (sideUpRow side.val s)

/-- SIDE_DOMAIN_DOWN (R92). -/
def execSideDomainDown (side : Fin 2) (s : State) : Host.Outcome State Fault Refusal :=
  finish (sideDomainDown side.val s)

/-- SYNC_SIGHTING (R87): the bit offset within the evaluation period and the 5,440 bits received from there. -/
def execSyncSighting (side : Fin 2) (seam : Fin 4) (offset : Fin 13273600) (word : Codeword) (s : State) :
    Host.Outcome State Fault Refusal :=
  if (Instr.syncSighting side seam offset word).wf then finish (syncSighting side.val seam.val offset.val word s) else .refused .illFormed

/-- CANDIDATE_EXAMINE (R90): the candidate's bit offset and the 5,440 bits received there one frame later. -/
def execCandidateExamine (side : Fin 2) (seam : Fin 4) (offset : Fin 13273600) (word : Codeword) (s : State) :
    Host.Outcome State Fault Refusal :=
  if (Instr.candidateExamine side seam offset word).wf then finish (candidateExamine side.val seam.val offset.val word s) else .refused .illFormed

/-- EVAL_PERIOD_END (R91). -/
def execEvalPeriodEnd (side : Fin 2) (seam : Fin 4) (s : State) : Host.Outcome State Fault Refusal :=
  finish (evalPeriodRow side.val seam.val s)

/-- DOWNSTREAM_FRAME (R94): the codewords received (those after the last one listed carry only idle fill without error)
and how long after the tick edge the sync word arrived, in nanoseconds (R121). -/
def execDownstreamFrame (side : Fin 2) (seam : Fin 4) (words : List Codeword) (lateNs : BitVec 32) (s : State) :
    Host.Outcome State Fault Refusal :=
  if (Instr.downstreamFrame side seam words lateNs).wf then finish (downstreamFrame side.val seam.val words lateNs.toNat s) else .refused .illFormed

/-- LOS_DECLARE (R99): the signal-detect land's level and whether the energy detector shows loss, for 1 µs. -/
def execLosDeclare (side : Fin 2) (seam : Fin 4) (sdLand : Bool) (energyLoss : Bool) (s : State) :
    Host.Outcome State Fault Refusal :=
  finish (losDeclareRow side.val seam.val sdLand energyLoss s)

/-- LOS_CLEAR (R99): the same, for 125 µs. -/
def execLosClear (side : Fin 2) (seam : Fin 4) (sdLand : Bool) (energyLoss : Bool) (s : State) :
    Host.Outcome State Fault Refusal :=
  finish (losClearRow side.val seam.val sdLand energyLoss s)

/-- SD_WINDOW_END (R100). -/
def execSdWindowEnd (side : Fin 2) (seam : Fin 4) (s : State) : Host.Outcome State Fault Refusal :=
  finish (sdWindowEnd side.val seam.val s)

/-- SF_WINDOW_END (R100). -/
def execSfWindowEnd (side : Fin 2) (seam : Fin 4) (s : State) : Host.Outcome State Fault Refusal :=
  finish (sfWindowRow side.val seam.val s)

end Sys2Proof.Machine
end

