-- ==== Sys2Proof/Machine/ExecPort.lean ====
section
/-! DEFINITION. The meanings of the commands of local ports (R336 to R362), one definition per command. -/
namespace Sys2Proof.Machine

/-- PORT_MODE_WRITE (R339): a write of PORT_CFG. -/
def execPortModeWrite (port : Fin 512) (value : Word) (s : State) : Host.Outcome State Fault Refusal :=
  finish (commandWrite .host (Reg.PORT_CFG port.val) value (portModeWrite port.val value) s)

/-- MAC_RX_FRAME (R341): the frame from its destination address through its FCS (none: the next one a loopback returns,
R377), whether a PCS error lies in it, and the RS-FEC codewords corrected and uncorrectable since the last one. -/
def execMacRxFrame (port : Fin 512) (frame : Option Bytes) (codeErr : Bool) (fecCorr fecUncorr : Nat) (s : State) :
    Host.Outcome State Fault Refusal :=
  finish (macRxFrame port.val frame codeErr fecCorr fecUncorr s)

/-- LINK_UP (R345). -/
def execLinkUp (port : Fin 512) (s : State) : Host.Outcome State Fault Refusal :=
  finish (linkUp port.val s)

/-- LINK_DOWN (R345). -/
def execLinkDown (port : Fin 512) (s : State) : Host.Outcome State Fault Refusal :=
  finish (linkDown port.val s)

/-- LPI_ENTER (R349). -/
def execLpiEnter (port : Fin 512) (s : State) : Host.Outcome State Fault Refusal :=
  finish (lpiEnter port.val s)

/-- LPI_EXIT (R351). -/
def execLpiExit (port : Fin 512) (s : State) : Host.Outcome State Fault Refusal :=
  finish (lpiLeave port.val s)

/-- LLDP_SEND (R350). -/
def execLldpSend (port : Fin 512) (s : State) : Host.Outcome State Fault Refusal :=
  finish (lldpSend port.val s)

/-- LLDP_RECEIVE (R352): the Receive Tw of the EEE TLV, if the LLDPDU carries one. -/
def execLldpReceive (port : Fin 512) (rxTw : Option (BitVec 16)) (s : State) : Host.Outcome State Fault Refusal :=
  finish (lldpReceive port.val rxTw s)

/-- LLDP_TTL_EXPIRY (R350). -/
def execLldpTtlExpiry (port : Fin 512) (s : State) : Host.Outcome State Fault Refusal :=
  finish (loseEee port.val s)

/-- A row of the bus for operation `op`: the write that starts it is made, and the frames go out where its slot's turn has
come. -/
def mdioRow (op g : Nat) (start : Option MdioStart) (answer : Option (BitVec 16)) (s : State) : State :=
  let s := match start with
    | some x => commandWrite x.src (mdioCmd g x.slot.val) x.value (mdioStart g x.slot.val x.src x.value) s
    | none => s
  mdioTurn op g answer s

/-- MDIO_ADDRESS (R354): the write that starts it, or the next command the bus takes. -/
def execMdioAddress (bus : Fin 8) (start : Option MdioStart) (s : State) : Host.Outcome State Fault Refusal :=
  finish (mdioRow 1 bus.val start none s)

/-- MDIO_WRITE (R354). -/
def execMdioWrite (bus : Fin 8) (start : Option MdioStart) (s : State) : Host.Outcome State Fault Refusal :=
  finish (mdioRow 2 bus.val start none s)

/-- MDIO_READ (R356): what the PHY answers; none where it does not drive the turnaround. -/
def execMdioRead (bus : Fin 8) (start : Option MdioStart) (answer : Option (BitVec 16)) (s : State) :
    Host.Outcome State Fault Refusal :=
  finish (mdioRow 3 bus.val start answer s)

/-- MDIO_READ_INCREMENT (R354). -/
def execMdioReadIncrement (bus : Fin 8) (start : Option MdioStart) (answer : Option (BitVec 16)) (s : State) :
    Host.Outcome State Fault Refusal :=
  finish (mdioRow 4 bus.val start answer s)

/-- MDIO_ADDRESS_WRITE (R355). -/
def execMdioAddressWrite (bus : Fin 8) (start : Option MdioStart) (s : State) : Host.Outcome State Fault Refusal :=
  finish (mdioRow 5 bus.val start none s)

/-- MDIO_ADDRESS_READ (R355). -/
def execMdioAddressRead (bus : Fin 8) (start : Option MdioStart) (answer : Option (BitVec 16)) (s : State) :
    Host.Outcome State Fault Refusal :=
  finish (mdioRow 6 bus.val start answer s)

/-- PARTNER_LPI (R351): whether the partner enters or leaves LPI. -/
def execPartnerLpi (port : Fin 512) (enter : Bool) (s : State) : Host.Outcome State Fault Refusal :=
  finish (partnerLpi port.val enter s)

/-- LOCAL_FAULT (R346): whether it is the remote fault, and whether it is present. -/
def execLocalFault (port : Fin 512) (remote present : Bool) (s : State) : Host.Outcome State Fault Refusal :=
  finish (localFault port.val remote present s)

end Sys2Proof.Machine
end

