-- ==== Sys2Proof/Machine/ExecProt.lean ====
section
/-! DEFINITION. The meanings of the commands of protection (R403 to R422), one definition per command. -/
namespace Sys2Proof.Machine

/-- CANARY_RUN (R409). -/
def execCanaryRun (s : State) : Host.Outcome State Fault Refusal :=
  finish (canaryRun s)

/-- EV_CANARY (R412): what the optic check found. -/
def execEvCanary (optic : CanaryOptic) (s : State) : Host.Outcome State Fault Refusal :=
  finish (canaryDone optic s)

/-- CANARY_ABORT (R414). -/
def execCanaryAbort (s : State) : Host.Outcome State Fault Refusal :=
  finish (canaryAbort s)

/-- SEAM_ELIGIBLE (R415). -/
def execSeamEligible (seam : Fin 4) (s : State) : Host.Outcome State Fault Refusal :=
  finish (seamEligible seam.val s)

/-- SIDE_FAILED (R415): a failed seam has stayed failed for HOLD_MS. -/
def execSideFailed (s : State) : Host.Outcome State Fault Refusal :=
  finish (sideFails s)

/-- MANUAL (R417): PROT_CMD is written with CMD 1. -/
def execManual (s : State) : Host.Outcome State Fault Refusal :=
  finish (commandWrite .host Reg.PROT_CMD 1 (protCommand 1) s)

/-- FORCED (R417): CMD 2. -/
def execForced (s : State) : Host.Outcome State Fault Refusal :=
  finish (commandWrite .host Reg.PROT_CMD 2 (protCommand 2) s)

/-- LOCKOUT (R417): CMD 3. -/
def execLockout (s : State) : Host.Outcome State Fault Refusal :=
  finish (commandWrite .host Reg.PROT_CMD 3 (protCommand 3) s)

/-- CLEAR (R417): CMD 4. -/
def execClear (s : State) : Host.Outcome State Fault Refusal :=
  finish (commandWrite .host Reg.PROT_CMD 4 (protCommand 4) s)

/-- PROTECTION_SWITCH (R419). -/
def execProtectionSwitch (s : State) : Host.Outcome State Fault Refusal :=
  finish (protSwitch s)

/-- EV_PROT_SWITCH (R419). -/
def execEvProtSwitch (s : State) : Host.Outcome State Fault Refusal :=
  finish (switchDone s)

/-- EV_PROT_SWITCH_FAIL (R420). -/
def execEvProtSwitchFail (s : State) : Host.Outcome State Fault Refusal :=
  finish (switchFail s)

/-- WAIT_TO_RESTORE_EXPIRY (R422). -/
def execWaitToRestoreExpiry (s : State) : Host.Outcome State Fault Refusal :=
  finish (wtrExpiry s)

end Sys2Proof.Machine
end

