-- ==== Sys2Proof/Machine/ExecPwr.lean ====
section
/-! DEFINITION. The meanings of the commands of power (R445 to R474), one definition per command. -/
namespace Sys2Proof.Machine

/-- An access to a register of a domain that is not ON (R457); an access that is not one has no effect here. -/
def accessToSleeper (d : Nat) (src : Source) (addr : Word) (write : Option Word) (s : State) : State :=
  if aligned addr 4 ∧ regDomain addr.toNat = d ∧ domState d s ≠ .on then
    access src none addr (write.map (fun v => (v, 0))) 0 s
  else s

/-- The end of a transition (R461); the accesses a woken domain held are performed before a drop held meanwhile begins. -/
def transitionRow (d : Option Nat) (s : State) : State :=
  let woke := d.any (fun d => domState d s == .waking)
  s |> transitionComplete d |> settleStalled |> when' woke (heldDrop (d.getD 22))

/-- LADDER_ENTRY (R459): an entry to the target state of R446, where that is deeper than the present one. -/
def execLadderEntry (s : State) : Host.Outcome State Fault Refusal :=
  finish (ladderEntry s)

/-- LADDER_EXIT (R447): an exit to the target state, where that is shallower. -/
def execLadderExit (s : State) : Host.Outcome State Fault Refusal :=
  finish (ladderExit s)

/-- WAKE_N (R449). -/
def execWakeN (s : State) : Host.Outcome State Fault Refusal :=
  finish (wakeFires 0 none s)

/-- WAKE_TIMER_EXPIRY (R449). -/
def execWakeTimerExpiry (s : State) : Host.Outcome State Fault Refusal :=
  finish (wakeTimer s)

/-- WAKE (R449): the wake source and the domain it wakes, if it wakes one. -/
def execWake (source : Fin 8) (domain : Option (Fin 23)) (s : State) : Host.Outcome State Fault Refusal :=
  finish (wakeFires source.val (domain.map (fun d => d.val)) s)

/-- DOMAIN_ACCESS_WAKE (R457): the domain and the access that stalls. -/
def execDomainAccessWake (domain : Fin 23) (src : Source) (addr : Word) (write : Option Word) (s : State) :
    Host.Outcome State Fault Refusal :=
  finish (accessToSleeper domain.val src addr write s)

/-- EV_PWR_WAKE_FAIL (R457). -/
def execEvPwrWakeFail (domain : Fin 23) (s : State) : Host.Outcome State Fault Refusal :=
  finish (wakeFail domain.val s)

/-- DOMAIN_DROP (R456): the domain, and a vote placed in the same cycle. -/
def execDomainDrop (domain : Fin 23) (votePlaced : Bool) (s : State) : Host.Outcome State Fault Refusal :=
  finish (domainDrop domain.val votePlaced s)

/-- HOST_VOTE_WRITE (R405): the value written to PWR_VOTE_0. -/
def execHostVoteWrite (src : Source) (value : Word) (s : State) : Host.Outcome State Fault Refusal :=
  finish (commandWrite src (Reg.PWR_VOTE 0) value (hostVoteWrite value) s)

/-- L4_OVERTEMP (R448): the case temperature. -/
def execL4Overtemp (caseTemp : Int) (s : State) : Host.Outcome State Fault Refusal :=
  finish (l4Overtemp caseTemp s)

/-- SHED_END (R468). -/
def execShedEnd (s : State) : Host.Outcome State Fault Refusal :=
  finish (shedEnd s)

/-- EV_FIREDAMP (R471): two consecutive sets of samples of the 16 junction sensors, 10 µs apart (R470). -/
def execEvFiredamp (first second : List Int) (s : State) : Host.Outcome State Fault Refusal :=
  if (Instr.evFiredamp first second).wf then finish (firedampRow first second s) else .refused .illFormed

/-- FIREDAMP_CLEAR (R472): the highest sensor reading of the last RESUME_S seconds. -/
def execFiredampClear (highest : Int) (s : State) : Host.Outcome State Fault Refusal :=
  finish (firedampClearRow highest s)

/-- POWER_TRANSITION_COMPLETE (R461): the domain whose transition completes; none for the ladder's. -/
def execPowerTransitionComplete (domain : Option (Fin 23)) (s : State) : Host.Outcome State Fault Refusal :=
  finish (transitionRow (domain.map (fun d => d.val)) s)

end Sys2Proof.Machine
end

