-- ==== Sys2Proof/Machine/ExecReg.lean ====
section
/-! DEFINITION. The meanings of the commands of register accesses (R7 to R15, R477), one definition per command. -/
namespace Sys2Proof.Machine

/-- REG_WRITE (R12): the source, the address, the value, and the bits whose own source sets them in the same cycle
(R13). -/
def execRegWrite (src : Source) (addr value setSame : Word) (s : State) : Host.Outcome State Fault Refusal :=
  finish (if addr.toNat % 4 = 0 then access src none addr (some (value, setSame)) 0 s
          else misalignedAccess src none addr true s)

/-- REG_MISALIGNED (R8): an access of `bytes` bytes at `addr`. -/
def execRegMisaligned (src : Source) (addr : Word) (bytes : Nat) (write : Bool) (s : State) :
    Host.Outcome State Fault Refusal :=
  finish (if aligned addr bytes then s else misalignedAccess src none addr write s)

/-- RC_CLEARING_READ (R14): the increments that fall in the cycle of the read. -/
def execRcClearingRead (src : Source) (addr : Word) (inc : Word) (s : State) : Host.Outcome State Fault Refusal :=
  finish (if addr.toNat % 4 = 0 then access src none addr none inc.toNat s else misalignedAccess src none addr false s)

/-- LR_LOW_WORD_READ (R15): the increments that fall in the cycle of the read. -/
def execLrLowWordRead (src : Source) (addr : Word) (inc : Word) (s : State) : Host.Outcome State Fault Refusal :=
  finish (if aligned addr 4 then access src none addr none inc.toNat s else misalignedAccess src none addr false s)

/-- PW_WRITE (R477): a write of a register coded PW. -/
def execPwWrite (src : Source) (addr value : Word) (s : State) : Host.Outcome State Fault Refusal :=
  finish (if aligned addr 4 then access src none addr (some (value, 0)) 0 s else misalignedAccess src none addr true s)

end Sys2Proof.Machine
end

