-- ==== Sys2Proof/Machine/ExecReset.lean ====
section
/-! DEFINITION. The meanings of the commands of resets, start-up and the supplies (R34 to R71, R538 to R547), one definition per command. -/
namespace Sys2Proof.Machine

/-- COLD_RESET (R58). -/
def execColdReset (s : State) : Host.Outcome State Fault Refusal :=
  finish (coldReset s)

/-- DIP_RESET (R71): the VIN sample in millivolts. -/
def execDipReset (vinMv : BitVec 16) (s : State) : Host.Outcome State Fault Refusal :=
  finish (dipReset vinMv s)

/-- PIN_RESET (R58). -/
def execPinReset (s : State) : Host.Outcome State Fault Refusal :=
  finish (pinReset s)

/-- WATCHDOG_RESET (R58): the supervisor watchdog, or the REFCLK case of R57. -/
def execWatchdogReset (refclk : Bool) (s : State) : Host.Outcome State Fault Refusal :=
  finish (watchdogReset refclk s)

/-- CHAIN_RESET (R58): the value written to GEN_RESET_CMD. -/
def execChainReset (code : Word) (s : State) : Host.Outcome State Fault Refusal :=
  finish (commandWrite .host Reg.GEN_RESET_CMD code (chainReset code) s)

/-- DOMAIN_RESET (R576): the value written to GEN_DOMAIN_RESET. -/
def execDomainReset (mask : BitVec 21) (s : State) : Host.Outcome State Fault Refusal :=
  finish (commandWrite .host Reg.GEN_DOMAIN_RESET (mask.setWidth 32) (domainResets mask) s)

/-- DOMAIN_RESET_RELEASE (R59): the domain, and the bytes of the image cache that DRAM upsets have changed (section,
byte offset in its body, value). -/
def execDomainResetRelease (domain : Fin 21) (upsets : List (Nat × Nat × Byte)) (s : State) :
    Host.Outcome State Fault Refusal :=
  finish (domainRelease domain.val upsets s)

/-- RESET_RELEASE (R56): the straps, what each flash answers to the read of its header, the LPDDR4X packages that fail
training (R321), and the reference inputs that are there at step 3 (R57). -/
def execResetRelease (straps : Straps) (flashA flashB : FlashRead) (ddrFail refs : BitVec 4) (s : State) :
    Host.Outcome State Fault Refusal :=
  finish (resetRelease ⟨straps, flashA, flashB, ddrFail, refs⟩ s)

/-- IMAGE_VERIFY_DONE (R50): the bytes read of the candidate; none where the read failed (R51). -/
def execImageVerifyDone (read : FlashRead) (s : State) : Host.Outcome State Fault Refusal :=
  finish (imageVerifyDone read s)

/-- RELEASE (R53): a write of 1 to GEN_BOOT_CTRL.RELEASE. -/
def execRelease (s : State) : Host.Outcome State Fault Refusal :=
  finish (commandWrite .host Reg.GEN_BOOT_CTRL 1 bootRelease s)

/-- IMAGE_APPLY (R43). -/
def execImageApply (s : State) : Host.Outcome State Fault Refusal :=
  finish (imageApply s)

/-- IMG_RECORD_BUSY_WAIT (R45): whether the 10 ms have run out. -/
def execImgRecordBusyWait (expired : Bool) (s : State) : Host.Outcome State Fault Refusal :=
  finish (recordBusyWait expired s)

/-- EV_REFCLK_LOSS (R57): the reference input. -/
def execEvRefclkLoss (input : Fin 4) (s : State) : Host.Outcome State Fault Refusal :=
  finish (refclkLoss input.val s)

/-- REFCLK_RETRY (R57): whether the line reference is there at the retry. -/
def execRefclkRetry (present : Bool) (s : State) : Host.Outcome State Fault Refusal :=
  finish (refclkRetry present s)

/-- REFCLK_MEASURE (R547): the deviation of each input in ppm; none where it is absent. -/
def execRefclkMeasure (ppm : List (Option Int)) (s : State) : Host.Outcome State Fault Refusal :=
  if (Instr.refclkMeasure ppm).wf then finish (refclkMeasure ppm s) else .refused .illFormed

/-- EV_VIN_WARN (R64): VIN in millivolts. -/
def execEvVinWarn (vinMv : BitVec 16) (s : State) : Host.Outcome State Fault Refusal :=
  finish (vinWarn vinMv s)

/-- VIN_WARN_REPEAT (R69). -/
def execVinWarnRepeat (vinMv : BitVec 16) (s : State) : Host.Outcome State Fault Refusal :=
  finish (vinWarnRepeat vinMv s)

/-- EV_VIN_RECOVER (R68): VIN, the microseconds from t_w to resumption and the lowest VIN sampled in the episode. -/
def execEvVinRecover (vinMv : BitVec 16) (durationUs : Word) (lowestMv : BitVec 16) (s : State) :
    Host.Outcome State Fault Refusal :=
  finish (vinRecover vinMv durationUs lowestMv s)

/-- VAUX_LOSS (R541). -/
def execVauxLoss (s : State) : Host.Outcome State Fault Refusal :=
  finish (vauxLoss s)

/-- VIN_OVERCURRENT_DISCONNECT (R539). -/
def execVinOvercurrentDisconnect (s : State) : Host.Outcome State Fault Refusal :=
  finish (vinDisconnect s)

/-- VIO_READY (R538). -/
def execVioReady (s : State) : Host.Outcome State Fault Refusal :=
  finish (vioReady s)

end Sys2Proof.Machine
end

