-- ==== Sys2Proof/Machine/ExecSched.lean ====
section
/-! DEFINITION. The meanings of the commands of the scheduler (R269 to R305), one definition per command. -/
namespace Sys2Proof.Machine

/-- The head frames of a port's lanes and queues: (source, frame), the lanes as 8 (consignments) and 9 (circuits). -/
def headFrames (p : Nat) (s : State) : List (Nat × QFrame) :=
  let x := sched p s
  (x.consign.take 1).map (fun f => (8, f)) ++ (x.circ.take 1).map (fun f => (9, f))
    ++ (List.range 8).flatMap (fun q => ((queueOf x q).frames.take 1).map (fun f => (q, f)))

/-- How many frames wait at a source of a port. -/
def waitingAt (p src : Nat) (s : State) : Nat :=
  let x := sched p s
  if src = 8 then x.consign.length else if src = 9 then x.circ.length else (queueOf x src).frames.length

/-- The frame that would start now at a port, with its source; none where none would. -/
def startsNow (p : Nat) (s : State) : Option (Nat × QFrame) :=
  let t := portFrameStart p s
  (headFrames p s).find? (fun e => waitingAt p e.1 t < waitingAt p e.1 s)

/-- The head frame of a source is to leave with its FCS inverted. -/
def spoilHead (p src : Nat) (s : State) : State :=
  let spoil := fun (fs : List QFrame) => (fs.take 1).map (fun f => { f with bad := true }) ++ fs.drop 1
  if src = 8 then modSched p (fun x => { x with consign := spoil x.consign }) s
  else if src = 9 then modSched p (fun x => { x with circ := spoil x.circ }) s
  else setQueue p src { queue p src s with frames := spoil (queue p src s).frames } s

/-- The head frame of a source is discarded: its tubs are freed; an emptied weighted queue leaves the active list (R278). -/
def discardHead (p src : Nat) (f : QFrame) (s : State) : State :=
  if src = 8 then s |> modSched p (fun x => { x with consign := x.consign.drop 1 }) |> freeFrame 8 f
  else if src = 9 then s |> modSched p (fun x => { x with circ := x.circ.drop 1 }) |> freeFrame 7 f
  else s |> putFrames p src ((queue p src s).frames.drop 1) |> freeFrame 4 f

/-- An uncorrectable error in the read of a frame: counted, and an event of fault source SRAM_UE for its bank. -/
def noteSramUe (f : QFrame) (s : State) : State :=
  match f.tubs with
  | h :: _ => s |> count Reg.CNT_ASSAY_SRAM_UE |> noteFault 1 (cellOf h / 1024)
  | [] => count Reg.CNT_ASSAY_SRAM_UE s

/-- A frame boundary (R272) with the outcome of the read of the frame that starts (R505). -/
def frameStart (p : Nat) (read : SramRead) (s : State) : State :=
  match read, startsNow p s with
  | .good, _ => portFrameStart p s
  | _, none => portFrameStart p s
  | .badAfter, some (src, f) => s |> spoilHead p src |> portFrameStart p |> noteSramUe f
  | .badBefore, some (src, f) => s |> discardHead p src f |> noteSramUe f

/-- PORT_FRAME_START (R272): a frame boundary of the port, and how the read of the frame that starts goes. -/
def execPortFrameStart (port : Fin 512) (read : SramRead) (s : State) : Host.Outcome State Fault Refusal :=
  finish (frameStart port.val read s)

/-- PAUSE (R293): a good PAUSE frame with time T. -/
def execPause (port : Fin 512) (t : BitVec 16) (s : State) : Host.Outcome State Fault Refusal :=
  finish (pauseRx port.val t.toNat s)

/-- PFC (R295): a good PFC frame, its priority enable vector and its eight times, priority 0 first. -/
def execPfc (port : Fin 512) (enable : BitVec 8) (times : List (BitVec 16)) (s : State) :
    Host.Outcome State Fault Refusal :=
  if (Instr.pfc port enable times).wf then finish (pfcRx port.val enable times s) else .refused .illFormed

/-- PAUSE_EXPIRY (R293): of the port's PAUSE, or of a priority. -/
def execPauseExpiry (port : Fin 512) (pri : Option (Fin 8)) (s : State) : Host.Outcome State Fault Refusal :=
  finish (pauseExpiry port.val (pri.map (fun k => k.val)) s)

/-- LANE_PAUSE_DROP (R296): the first circuit packet of the paused lane has waited more than 1 ms. -/
def execLanePauseDrop (port : Fin 512) (s : State) : Host.Outcome State Fault Refusal :=
  finish (lanePauseDrop port.val s)

/-- GATE_COMMIT (R289): the value written to SCHED_GATE_CTRL. -/
def execGateCommit (port : Fin 512) (value : Word) (s : State) : Host.Outcome State Fault Refusal :=
  finish (commandWrite .host (Reg.SCHED_GATE_CTRL port.val) (value ||| 0x80000000) (gateCommit port.val (value ||| 0x80000000)) s)

/-- GATE_LIST_START (R291). -/
def execGateListStart (port : Fin 512) (s : State) : Host.Outcome State Fault Refusal :=
  finish (gateListStart port.val s)

/-- GCL_WRITE (R289): the value written to SCHED_GCL_CMD. -/
def execGclWrite (value : Word) (s : State) : Host.Outcome State Fault Refusal :=
  finish (commandWrite .host Reg.SCHED_GCL_CMD (putFld value 29 28 1) (gclWrite (putFld value 29 28 1)) s)

/-- GCL_READ (R289). -/
def execGclRead (value : Word) (s : State) : Host.Outcome State Fault Refusal :=
  finish (commandWrite .host Reg.SCHED_GCL_CMD (putFld value 29 28 2) (gclRead (putFld value 29 28 2)) s)

/-- POLICER_WRITE (R283): the value written to SCHED_POL_CMD. -/
def execPolicerWrite (value : Word) (s : State) : Host.Outcome State Fault Refusal :=
  finish (commandWrite .host Reg.SCHED_POL_CMD (putFld value 29 28 1) (policerWrite (putFld value 29 28 1)) s)

/-- POLICER_READ (R282). -/
def execPolicerRead (value : Word) (s : State) : Host.Outcome State Fault Refusal :=
  finish (commandWrite .host Reg.SCHED_POL_CMD (putFld value 29 28 2) (policerRead (putFld value 29 28 2)) s)

/-- POLICER_READ_CLEAR (R282). -/
def execPolicerReadClear (value : Word) (s : State) : Host.Outcome State Fault Refusal :=
  finish (commandWrite .host Reg.SCHED_POL_CMD (putFld value 29 28 3) (policerReadClear (putFld value 29 28 3)) s)

end Sys2Proof.Machine
end

