-- ==== Sys2Proof/Machine/ExecTally.lean ====
section
/-! DEFINITION. The meanings of the commands of tally (R187 to R227), one definition per command. -/
namespace Sys2Proof.Machine

/-- SUBMIT (R207): the port and the frame (without FCS); none takes the oldest SUBMIT the classifier has handed over. -/
def execSubmit (msg : Option (Fin 512 × Bytes)) (s : State) : Host.Outcome State Fault Refusal :=
  finish (tallyRow false 0x01 msg submit s)

/-- JOURNAL_WRITE_VERIFIED (R210): the oldest write of the slot not yet verified is verified on both dies, or on the
survivor. -/
def execJournalWriteVerified (slot : Fin 8192) (s : State) : Host.Outcome State Fault Refusal :=
  finish (journalWriteVerified slot.val s)

/-- EV_TALLY_SPLIT (R211): the slot, the dies its PENDING write failed on (bit 0 die A), and those on which STATE BAD
cannot be written. -/
def execEvTallySplit (slot : Fin 8192) (dies unwritable : BitVec 2) (s : State) : Host.Outcome State Fault Refusal :=
  finish (splitRow slot.val dies unwritable s)

/-- DELIVER (R218): the identity and the frame from the head end; none as for SUBMIT. -/
def execDeliver (msg : Option (Fin 128 × Bytes)) (s : State) : Host.Outcome State Fault Refusal :=
  finish (tallyRow true 0x04 msg deliver s)

/-- TALLY_RESEND_HE (R215): the resends chosen for a flow. -/
def execTallyResendHe (flow : Fin 2048) (s : State) : Host.Outcome State Fault Refusal :=
  finish (tallyResendHe flow.val s)

/-- DELIVER_TO_RECIPIENT (R219): the first sendings of a flow. -/
def execDeliverToRecipient (flow : Fin 2048) (s : State) : Host.Outcome State Fault Refusal :=
  finish (deliverToRecipient flow.val s)

/-- TALLY_RESEND_LOCAL (R219): the resends chosen for a flow. -/
def execTallyResendLocal (flow : Fin 2048) (s : State) : Host.Outcome State Fault Refusal :=
  finish (tallyResendLocal flow.val s)

/-- RECEIPT_FROM_HEAD_END (R217). -/
def execReceiptFromHeadEnd (msg : Option (Fin 128 × Bytes)) (s : State) : Host.Outcome State Fault Refusal :=
  finish (tallyRow true 0x05 msg receiptFromHeadEnd s)

/-- RECEIPT_FROM_RECIPIENT (R220). -/
def execReceiptFromRecipient (msg : Option (Fin 512 × Bytes)) (s : State) : Host.Outcome State Fault Refusal :=
  finish (tallyRow false 0x05 msg receiptFromRecipient s)

/-- REFUSE_FROM_HEAD_END (R217). -/
def execRefuseFromHeadEnd (msg : Option (Fin 128 × Bytes)) (s : State) : Host.Outcome State Fault Refusal :=
  finish (tallyRow true 0x03 msg refuseFromHeadEnd s)

/-- STATUS (R196). -/
def execStatus (msg : Option (Fin 512 × Bytes)) (s : State) : Host.Outcome State Fault Refusal :=
  finish (tallyRow false 0x06 msg status s)

/-- EV_TALLY_STALL (R221). -/
def execEvTallyStall (flow : Fin 2048) (s : State) : Host.Outcome State Fault Refusal :=
  finish (evTallyStall flow.val s)

/-- FLOW_CLOSE (R190). -/
def execFlowClose (flow : Fin 2048) (s : State) : Host.Outcome State Fault Refusal :=
  finish (commandWrite .host (Reg.TALLY_FLOW_CFG flow.val) (putFld (flowCfg flow.val s) 31 31 0) (flowClose flow.val) s)

/-- PURGE (R226). -/
def execPurge (flow : Fin 2048) (s : State) : Host.Outcome State Fault Refusal :=
  finish (commandWrite .host (Reg.TALLY_FLOW_CFG flow.val) (putFld (flowCfg flow.val s) 29 29 1) (purge flow.val) s)

/-- JOURNAL_SCAN (R223): the copies the scan finds invalid, and those on which the slot's last mark had not been
written, by die and slot. -/
def execJournalScan (torn unmarked : List (Fin 2 × Fin 8192)) (s : State) : Host.Outcome State Fault Refusal :=
  finish (scanRow torn unmarked s)

end Sys2Proof.Machine
end

