-- ==== Sys2Proof/Machine/ExecTick.lean ====
section
/-! DEFINITION. The meanings of the commands of the tick (R18 to R33), one definition per command. -/
namespace Sys2Proof.Machine

/-- TICK_EDGE (R18). -/
def execTickEdge (i : TickInputs) (s : State) : Host.Outcome State Fault Refusal :=
  if (Instr.tickEdge i).wf then finish (tickEdge i s) else .refused .illFormed

/-- LOCAL_TICK_COUNT_EXPIRY (R19). -/
def execLocalTickCountExpiry (i : TickInputs) (s : State) : Host.Outcome State Fault Refusal :=
  if (Instr.localTickCountExpiry i).wf then finish (localExpiry i s) else .refused .illFormed

/-- GOV_LATE_COMPLETE (R23). -/
def execGovLateComplete (s : State) : Host.Outcome State Fault Refusal :=
  finish (govLate s)

/-- SCHED_PLAN (R300). -/
def execSchedPlan (s : State) : Host.Outcome State Fault Refusal :=
  finish (planRow s)

/-- SUP_LOOPS (R22). -/
def execSupLoops (s : State) : Host.Outcome State Fault Refusal :=
  finish (supLoops s)

/-- TICK_OVERRUN (R24): the block's code and the microseconds from budget end to completion, none where the work was
abandoned. -/
def execTickOverrun (block : Fin 7) (lateUs : Option (BitVec 16)) (s : State) : Host.Outcome State Fault Refusal :=
  finish (tickOverrun block lateUs s)

end Sys2Proof.Machine
end

