-- ==== Sys2Proof/Machine/ExecTime.lean ====
section
/-! DEFINITION. The meanings of the commands of time (R386 to R402), one definition per command. -/
namespace Sys2Proof.Machine

/-- HOLDOVER_ENTER: the selected source no longer qualifies and none other does (R399). -/
def holdover (s : State) : State :=
  if s.time.sel ≠ 0 ∧ firstSource (activeSide s) s = 0 then
    enterHoldover { s with time := { s.time with qual := qualBits (activeSide s) s } }
  else s

/-- TIME_INC_WRITE (R387): a write of TIME_INC_HI. -/
def execTimeIncWrite (src : Source) (value : Word) (s : State) : Host.Outcome State Fault Refusal :=
  finish (commandWrite src Reg.TIME_INC_HI value (timeIncWrite src value) s)

/-- OWNER_CHANGE (R388): a write of TIME_CTRL. -/
def execOwnerChange (src : Source) (value : Word) (s : State) : Host.Outcome State Fault Refusal :=
  finish (commandWrite src Reg.TIME_CTRL value (ownerChange value) s)

/-- TIME_NOW_READ (R389): a read of TIME_NOW_NS. -/
def execTimeNowRead (src : Source) (s : State) : Host.Outcome State Fault Refusal :=
  finish (access src none (word Reg.TIME_NOW_NS) none 0 s)

/-- TIME_ADJ (R398): a write of TIME_ADJ_NS. -/
def execTimeAdj (src : Source) (value : Word) (s : State) : Host.Outcome State Fault Refusal :=
  finish (commandWrite src Reg.TIME_ADJ_NS value (timeAdj src value) s)

/-- HOLDOVER_ENTER (R399). -/
def execHoldoverEnter (s : State) : Host.Outcome State Fault Refusal :=
  finish (holdover s)

/-- PTP_MESSAGE (R393): the local port and the message. -/
def execPtpMessage (port : Fin 512) (m : PtpMessage) (s : State) : Host.Outcome State Fault Refusal :=
  finish (ptpMessage port.val m s)

/-- PPS_IN_EDGE (R395): whether the edge rises. -/
def execPpsInEdge (rising : Bool) (s : State) : Host.Outcome State Fault Refusal :=
  finish (ppsInEdge rising s)

/-- PPS_OUT_PULSE (R396): whether PPS_OUT rises (at a whole second) or falls. -/
def execPpsOutPulse (rise : Bool) (s : State) : Host.Outcome State Fault Refusal :=
  finish (ppsOutPulse rise s)

/-- PTP_SYNC_INTERVAL (R393): the port, and whether the Announce interval (rather than the Sync interval) elapses. -/
def execPtpSyncInterval (port : Fin 512) (announce : Bool) (s : State) : Host.Outcome State Fault Refusal :=
  finish (ptpSyncInterval port.val announce s)

end Sys2Proof.Machine
end

