-- ==== Sys2Proof/Machine/Deep.lean ====
section
/-! DEFINITION. The deep buffer's spill and refill, and the DRAM budget they share with the winders (R319, R320, R334). -/
namespace Sys2Proof.Machine

/-! ### The tick's DRAM budget (R320) -/

/-- Draw DRAM bytes from the tick's budget. -/
def drawDram (n : Nat) (s : State) : State := { s with tub := { s.tub with ddrLeft := s.tub.ddrLeft - n } }

/-- The DRAM bytes of the bursts of unpaced channels that are ready: they go before refills and spills. A paced channel has
none due until its request line is sampled (R330). -/
def winderDue (s : State) : Nat := ((s.wnd.chans.filter (fun e => wndReady 0 e.1 s)).map (fun e => burstDram e.2)).sum

/-- The DRAM bytes of the oldest frames that fill a queue up to its threshold. -/
def refillBytes (limit : Nat) : Nat → List QFrame → Nat
  | _, [] => 0
  | onDie, f :: fs =>
    if limit ≤ onDie then 0
    else if f.dram.isSome then frameL f.bytes + refillBytes limit (onDie + frameL f.bytes) fs
    else refillBytes limit onDie fs

/-- Whether a queue's refill is due (R319): it has begun, or the on-die bytes have fallen below half the threshold. -/
def refillIsDue (r : QueueRef) (fs : List QFrame) (s : State) : Bool :=
  (isRefilling r s || decide (2 * onDieBytes fs < spillThreshold (isAlloc r) s)) && !inDip s && fs.any (fun f => f.dram.isSome)

/-- The DRAM bytes of a queue's refill, where it is due. -/
def queueRefillDue (r : QueueRef) (s : State) : Nat :=
  let fs := queueFrames r s
  if refillIsDue r fs s then refillBytes (spillThreshold (isAlloc r) s) (onDieBytes fs) fs else 0

/-- The queues that hold frames in DRAM. -/
def dramQueues (s : State) : List QueueRef :=
  (s.sched.ports.flatMap (fun e => (e.2.queues.filter (fun q => q.2.frames.any (fun f => f.dram.isSome))).map
      (fun q => QueueRef.loc (Fin.ofNat 512 e.1) (Fin.ofNat 8 q.1))))
    ++ s.sched.aqs.flatMap (fun e => (e.2.subs.filter (fun q => q.2.any (fun f => f.dram.isSome))).map
      (fun q => QueueRef.alloc (Fin.ofNat 1024 e.1) (Fin.ofNat 8 q.1)))

/-- The DRAM bytes of the refills that are due: they go before spills. -/
def refillDue (s : State) : Nat := ((dramQueues s).map (fun r => queueRefillDue r s)).sum

/-! ### Spill and refill (R319, R320, R335) -/

/-- SPILL (R319, R320): the first frame marked for it moves to DRAM, within what due winder bursts and refills leave of the
budget; where it cannot, it is discarded if the queue holds frames in DRAM and stays on-die otherwise. In a dip episode
spilling stops, and the frame keeps its mark (R335). -/
def spill (r : QueueRef) (s : State) : State :=
  match (if inDip s then none else spillQueue r s) with
  | none => s
  | some fs =>
    match splitAt? (fun f => f.spill && f.dram.isNone) fs with
    | none => s
    | some (before, f, after) =>
      let l := frameL f.bytes
      let deny := fun (s : State) =>
        if fs.any (fun f => f.dram.isSome) then
          s |> freeFrame (queueAgent r) f |> putSpillQueue r (before ++ after) |> count Reg.CNT_TUB_SPILL_DENY
        else putSpillQueue r (before ++ { f with spill := false } :: after) s
      if spillOn s ∧ l + winderDue s + refillDue s ≤ s.tub.ddrLeft then
        match takeDram f.bytes.length s with
        | (some h, s) =>
          s |> writeTub h f.bytes |> freeTubsOf (queueAgent r) f.tubs |> drawDram l
            |> putSpillQueue r (before ++ { f with spill := false, tubs := [], dram := some h } :: after)
        | (none, s) => deny s
      else deny s

/-- Bring the queue's oldest DRAM frames back on-die until the threshold is reached, the budget that due winder bursts leave is
spent or no tub is free (R319, R320). -/
def refillLoop (r : QueueRef) : Nat → State → State
  | 0, s => s
  | n + 1, s =>
    let fs := queueFrames r s
    if spillThreshold (isAlloc r) s ≤ onDieBytes fs then setRefilling r false s
    else match splitAt? (fun f => f.dram.isSome) fs with
      | none => setRefilling r false s
      | some (before, f, after) =>
        let l := frameL f.bytes
        if s.tub.ddrLeft < l + winderDue s then s
        else match storeData 11 f.bytes true s with
          | (some hs, s) =>
            let s := match f.dram with
              | some h => tubFree 11 h false s
              | none => s
            let s := match hs with
              | [] => s
              | h :: _ => handOver h (queueAgent r) s
            refillLoop r n (s |> drawDram l |> putSpillQueue r (before ++ { f with tubs := hs, dram := none } :: after))
          | (none, s) => s

/-- REFILL (R319): begins when the on-die bytes fall below half the threshold. A queue that has become strict is refilled
too. -/
def refill (r : QueueRef) (s : State) : State :=
  let fs := queueFrames r s
  if refillIsDue r fs s then refillLoop r (fs.length + 1) (setRefilling r true s) else s

end Sys2Proof.Machine
end

