-- ==== Sys2Proof/Machine/ExecTub.lean ====
section
/-! DEFINITION. The meanings of the commands of the tub store and the winder (R306 to R335), one definition per command. -/
namespace Sys2Proof.Machine

/-- TUB_TAKE (R311): the agent, the length of its data, and whether the length is known at the time of taking; served as the
cycle ends (R315). -/
def execTubTake (agent : BitVec 6) (len : BitVec 16) (known : Bool) (s : State) : Host.Outcome State Fault Refusal :=
  finish (askTake agent.toNat len.toNat known s)

/-- TUB_FREE (R313): the agent, a handle, and whether the chain that follows it is freed too; judged as the cycle ends
(R315). -/
def execTubFree (agent : BitVec 6) (handle : Word) (chain : Bool) (s : State) : Host.Outcome State Fault Refusal :=
  finish (askFree agent.toNat handle.toNat chain s)

/-- TUB_HAND_OVER (R309): the first tub of a frame and the receiving agent. -/
def execTubHandOver (handle : Word) (agent : BitVec 6) (s : State) : Host.Outcome State Fault Refusal :=
  finish (tubHandOver handle.toNat agent.toNat s)

/-- RING_POST (R316). -/
def execRingPost (ring : Fin 8) (handle : Word) (s : State) : Host.Outcome State Fault Refusal :=
  finish (ringPost ring.val handle.toNat s)

/-- RING_FILL (R316): the producer and the frame it fills posted tubs with. -/
def execRingFill (ring : Fin 8) (producer : BitVec 6) (frame : Bytes) (s : State) :
    Host.Outcome State Fault Refusal :=
  finish (ringFill ring.val producer.toNat frame s)

/-- SPILL (R319). -/
def execSpill (queue : QueueRef) (s : State) : Host.Outcome State Fault Refusal :=
  finish (spill queue s)

/-- REFILL (R319). -/
def execRefill (queue : QueueRef) (s : State) : Host.Outcome State Fault Refusal :=
  finish (refill queue s)

/-- WND_DOORBELL (R333): the channel, and the 64-bit writes (address, value) its owner has made before it (R323, R332). -/
def execWndDoorbell (channel : Fin 64) (writes : List (BitVec 64 × BitVec 64)) (s : State) :
    Host.Outcome State Fault Refusal :=
  finish (s |> ownerWrites writes |> commandWrite .host (Reg.WND_CH_DOORBELL channel.val) 1 (wndDoorbell channel.val))

/-- WND_DESCRIPTOR_FETCH (R326). -/
def execWndDescriptorFetch (channel : Fin 64) (s : State) : Host.Outcome State Fault Refusal :=
  finish (wndFetch channel.val s)

/-- WND_DESCRIPTOR_COMPLETE (R328). -/
def execWndDescriptorComplete (channel : Fin 64) (s : State) : Host.Outcome State Fault Refusal :=
  finish (wndComplete channel.val s)

/-- WND_BURST (R330): the request lines as sampled. -/
def execWndBurst (req : BitVec 32) (s : State) : Host.Outcome State Fault Refusal :=
  finish (wndBurst req s)

/-- EV_WND_ERROR (R331): the channel, and whether SRAM (rather than DRAM) reports the error. -/
def execEvWndError (channel : Fin 64) (sram : Bool) (s : State) : Host.Outcome State Fault Refusal :=
  finish (wndError channel.val sram s)

/-- WND_CHANNEL_DISABLE (R333): EN written 0. -/
def execWndChannelDisable (channel : Fin 64) (s : State) : Host.Outcome State Fault Refusal :=
  finish (commandWrite .host (Reg.WND_CH_CFG channel.val) (putFld (reg (Reg.WND_CH_CFG channel.val) s) 31 31 0) (wndDisable channel.val) s)

end Sys2Proof.Machine
end

