-- ==== Sys2Proof/Machine/Dispatch.lean ====
section
/-! DEFINITION. Dispatch: the meaning of each command, one arm per row of the opcode table. -/
namespace Sys2Proof.Machine

/-- The effect of a command on everything but the queue. -/
def exec (i : Instr) (s : State) : Host.Outcome State Fault Refusal :=
  match i with
  | .tickEdge inputs => Sys2Proof.Machine.execTickEdge inputs s
  | .localTickCountExpiry inputs => Sys2Proof.Machine.execLocalTickCountExpiry inputs s
  | .govLateComplete => Sys2Proof.Machine.execGovLateComplete s
  | .schedPlan => Sys2Proof.Machine.execSchedPlan s
  | .supLoops => Sys2Proof.Machine.execSupLoops s
  | .tickOverrun block lateUs => Sys2Proof.Machine.execTickOverrun block lateUs s
  | .regWrite src addr value setSame => Sys2Proof.Machine.execRegWrite src addr value setSame s
  | .regMisaligned src addr bytes write => Sys2Proof.Machine.execRegMisaligned src addr bytes write s
  | .rcClearingRead src addr inc => Sys2Proof.Machine.execRcClearingRead src addr inc s
  | .lrLowWordRead src addr inc => Sys2Proof.Machine.execLrLowWordRead src addr inc s
  | .coldReset => Sys2Proof.Machine.execColdReset s
  | .dipReset vinMv => Sys2Proof.Machine.execDipReset vinMv s
  | .pinReset => Sys2Proof.Machine.execPinReset s
  | .watchdogReset refclk => Sys2Proof.Machine.execWatchdogReset refclk s
  | .chainReset code => Sys2Proof.Machine.execChainReset code s
  | .domainReset mask => Sys2Proof.Machine.execDomainReset mask s
  | .domainResetRelease domain upsets => Sys2Proof.Machine.execDomainResetRelease domain upsets s
  | .resetRelease straps flashA flashB ddrFail refs => Sys2Proof.Machine.execResetRelease straps flashA flashB ddrFail refs s
  | .imageVerifyDone read => Sys2Proof.Machine.execImageVerifyDone read s
  | .release => Sys2Proof.Machine.execRelease s
  | .imageApply => Sys2Proof.Machine.execImageApply s
  | .imgRecordBusyWait expired => Sys2Proof.Machine.execImgRecordBusyWait expired s
  | .evRefclkLoss input => Sys2Proof.Machine.execEvRefclkLoss input s
  | .refclkRetry present => Sys2Proof.Machine.execRefclkRetry present s
  | .refclkMeasure ppm => Sys2Proof.Machine.execRefclkMeasure ppm s
  | .evVinWarn vinMv => Sys2Proof.Machine.execEvVinWarn vinMv s
  | .vinWarnRepeat vinMv => Sys2Proof.Machine.execVinWarnRepeat vinMv s
  | .evVinRecover vinMv durationUs lowestMv => Sys2Proof.Machine.execEvVinRecover vinMv durationUs lowestMv s
  | .vauxLoss => Sys2Proof.Machine.execVauxLoss s
  | .vinOvercurrentDisconnect => Sys2Proof.Machine.execVinOvercurrentDisconnect s
  | .sideDomainUp side => Sys2Proof.Machine.execSideDomainUp side s
  | .sideDomainDown side => Sys2Proof.Machine.execSideDomainDown side s
  | .syncSighting side seam offset word => Sys2Proof.Machine.execSyncSighting side seam offset word s
  | .candidateExamine side seam offset word => Sys2Proof.Machine.execCandidateExamine side seam offset word s
  | .evalPeriodEnd side seam => Sys2Proof.Machine.execEvalPeriodEnd side seam s
  | .downstreamFrame side seam words lateNs => Sys2Proof.Machine.execDownstreamFrame side seam words lateNs s
  | .losDeclare side seam sdLand energyLoss => Sys2Proof.Machine.execLosDeclare side seam sdLand energyLoss s
  | .losClear side seam sdLand energyLoss => Sys2Proof.Machine.execLosClear side seam sdLand energyLoss s
  | .sdWindowEnd side seam => Sys2Proof.Machine.execSdWindowEnd side seam s
  | .sfWindowEnd side seam => Sys2Proof.Machine.execSfWindowEnd side seam s
  | .upstreamBurst seam => Sys2Proof.Machine.execUpstreamBurst seam s
  | .announce seam => Sys2Proof.Machine.execAnnounce seam s
  | .rangingReply seam => Sys2Proof.Machine.execRangingReply seam s
  | .assignTn m idser newTn => Sys2Proof.Machine.execAssignTn m idser newTn s
  | .rangingTime m eqd effFc now => Sys2Proof.Machine.execRangingTime m eqd effFc now s
  | .allocAssign m allocId remove index => Sys2Proof.Machine.execAllocAssign m allocId remove index s
  | .deactivate m => Sys2Proof.Machine.execDeactivate m s
  | .expel m idser enable => Sys2Proof.Machine.execExpel m idser enable s
  | .hold m release => Sys2Proof.Machine.execHold m release s
  | .keyEpoch m up epoch switchFc => Sys2Proof.Machine.execKeyEpoch m up epoch switchFc s
  | .burstProfile m profile preamble pattern delimiter => Sys2Proof.Machine.execBurstProfile m profile preamble pattern delimiter s
  | .dozeGrant m state period aware => Sys2Proof.Machine.execDozeGrant m state period aware s
  | .echoRequest m data => Sys2Proof.Machine.execEchoRequest m data s
  | .resumeAck m dsEpoch usEpoch => Sys2Proof.Machine.execResumeAck m dsEpoch usEpoch s
  | .timeOfDay m markFc seconds ns frac => Sys2Proof.Machine.execTimeOfDay m markFc seconds ns frac s
  | .ack ident type seq fc => Sys2Proof.Machine.execAck ident type seq fc s
  | .joinTimeout ident => Sys2Proof.Machine.execJoinTimeout ident s
  | .resumeTimeout ident => Sys2Proof.Machine.execResumeTimeout ident s
  | .unexpel ident => Sys2Proof.Machine.execUnexpel ident s
  | .dozeRequest ident state period => Sys2Proof.Machine.execDozeRequest ident state period s
  | .dozeWake ident => Sys2Proof.Machine.execDozeWake ident s
  | .dozeTimer => Sys2Proof.Machine.execDozeTimer s
  | .bondGapTimerExpiry ident => Sys2Proof.Machine.execBondGapTimerExpiry ident s
  | .circEnable circuit => Sys2Proof.Machine.execCircEnable circuit s
  | .circDisable circuit => Sys2Proof.Machine.execCircDisable circuit s
  | .circPacket packet => Sys2Proof.Machine.execCircPacket packet s
  | .submit msg => Sys2Proof.Machine.execSubmit msg s
  | .journalWriteVerified slot => Sys2Proof.Machine.execJournalWriteVerified slot s
  | .evTallySplit slot dies unwritable => Sys2Proof.Machine.execEvTallySplit slot dies unwritable s
  | .deliver msg => Sys2Proof.Machine.execDeliver msg s
  | .tallyResendHe flow => Sys2Proof.Machine.execTallyResendHe flow s
  | .deliverToRecipient flow => Sys2Proof.Machine.execDeliverToRecipient flow s
  | .tallyResendLocal flow => Sys2Proof.Machine.execTallyResendLocal flow s
  | .receiptFromHeadEnd msg => Sys2Proof.Machine.execReceiptFromHeadEnd msg s
  | .receiptFromRecipient msg => Sys2Proof.Machine.execReceiptFromRecipient msg s
  | .refuseFromHeadEnd msg => Sys2Proof.Machine.execRefuseFromHeadEnd msg s
  | .status msg => Sys2Proof.Machine.execStatus msg s
  | .evTallyStall flow => Sys2Proof.Machine.execEvTallyStall flow s
  | .flowClose flow => Sys2Proof.Machine.execFlowClose flow s
  | .purge flow => Sys2Proof.Machine.execPurge flow s
  | .journalScan torn unmarked => Sys2Proof.Machine.execJournalScan torn unmarked s
  | .classifyFrame pipe => Sys2Proof.Machine.execClassifyFrame pipe s
  | .excForward => Sys2Proof.Machine.execExcForward s
  | .ruleWrite pipe value => Sys2Proof.Machine.execRuleWrite pipe value s
  | .ruleRead pipe value => Sys2Proof.Machine.execRuleRead pipe value s
  | .fdbInsertStatic => Sys2Proof.Machine.execFdbInsertStatic s
  | .fdbInsertDynamic => Sys2Proof.Machine.execFdbInsertDynamic s
  | .fdbDelete => Sys2Proof.Machine.execFdbDelete s
  | .fdbLookup => Sys2Proof.Machine.execFdbLookup s
  | .fdbDeleteByDest => Sys2Proof.Machine.execFdbDeleteByDest s
  | .fdbSweep => Sys2Proof.Machine.execFdbSweep s
  | .vlanWrite value => Sys2Proof.Machine.execVlanWrite value s
  | .vlanRead value => Sys2Proof.Machine.execVlanRead value s
  | .portFrameStart port read => Sys2Proof.Machine.execPortFrameStart port read s
  | .pause port t => Sys2Proof.Machine.execPause port t s
  | .pfc port enable times => Sys2Proof.Machine.execPfc port enable times s
  | .pauseExpiry port pri => Sys2Proof.Machine.execPauseExpiry port pri s
  | .lanePauseDrop port => Sys2Proof.Machine.execLanePauseDrop port s
  | .gateCommit port value => Sys2Proof.Machine.execGateCommit port value s
  | .gateListStart port => Sys2Proof.Machine.execGateListStart port s
  | .gclWrite value => Sys2Proof.Machine.execGclWrite value s
  | .gclRead value => Sys2Proof.Machine.execGclRead value s
  | .policerWrite value => Sys2Proof.Machine.execPolicerWrite value s
  | .policerRead value => Sys2Proof.Machine.execPolicerRead value s
  | .policerReadClear value => Sys2Proof.Machine.execPolicerReadClear value s
  | .tubTake agent len known => Sys2Proof.Machine.execTubTake agent len known s
  | .tubFree agent handle chain => Sys2Proof.Machine.execTubFree agent handle chain s
  | .tubHandOver handle agent => Sys2Proof.Machine.execTubHandOver handle agent s
  | .ringPost ring handle => Sys2Proof.Machine.execRingPost ring handle s
  | .ringFill ring producer frame => Sys2Proof.Machine.execRingFill ring producer frame s
  | .spill queue => Sys2Proof.Machine.execSpill queue s
  | .refill queue => Sys2Proof.Machine.execRefill queue s
  | .wndDoorbell channel writes => Sys2Proof.Machine.execWndDoorbell channel writes s
  | .wndDescriptorFetch channel => Sys2Proof.Machine.execWndDescriptorFetch channel s
  | .wndDescriptorComplete channel => Sys2Proof.Machine.execWndDescriptorComplete channel s
  | .wndBurst req => Sys2Proof.Machine.execWndBurst req s
  | .evWndError channel sram => Sys2Proof.Machine.execEvWndError channel sram s
  | .wndChannelDisable channel => Sys2Proof.Machine.execWndChannelDisable channel s
  | .portModeWrite port value => Sys2Proof.Machine.execPortModeWrite port value s
  | .macRxFrame port frame codeErr fecCorr fecUncorr => Sys2Proof.Machine.execMacRxFrame port frame codeErr fecCorr fecUncorr s
  | .linkUp port => Sys2Proof.Machine.execLinkUp port s
  | .linkDown port => Sys2Proof.Machine.execLinkDown port s
  | .lpiEnter port => Sys2Proof.Machine.execLpiEnter port s
  | .lpiExit port => Sys2Proof.Machine.execLpiExit port s
  | .lldpSend port => Sys2Proof.Machine.execLldpSend port s
  | .lldpReceive port rxTw => Sys2Proof.Machine.execLldpReceive port rxTw s
  | .lldpTtlExpiry port => Sys2Proof.Machine.execLldpTtlExpiry port s
  | .mdioAddress bus start => Sys2Proof.Machine.execMdioAddress bus start s
  | .mdioWrite bus start => Sys2Proof.Machine.execMdioWrite bus start s
  | .mdioRead bus start answer => Sys2Proof.Machine.execMdioRead bus start answer s
  | .mdioReadIncrement bus start answer => Sys2Proof.Machine.execMdioReadIncrement bus start answer s
  | .mdioAddressWrite bus start => Sys2Proof.Machine.execMdioAddressWrite bus start s
  | .mdioAddressRead bus start answer => Sys2Proof.Machine.execMdioAddressRead bus start answer s
  | .partnerLpi port enter => Sys2Proof.Machine.execPartnerLpi port enter s
  | .localFault port remote present => Sys2Proof.Machine.execLocalFault port remote present s
  | .laneTrain lane => Sys2Proof.Machine.execLaneTrain lane s
  | .retrainWindow => Sys2Proof.Machine.execRetrainWindow s
  | .laneWake lane energy => Sys2Proof.Machine.execLaneWake lane energy s
  | .laneNoEnergy lane wake => Sys2Proof.Machine.execLaneNoEnergy lane wake s
  | .slip lane value => Sys2Proof.Machine.execSlip lane value s
  | .eyeScanStart lane value => Sys2Proof.Machine.execEyeScanStart lane value s
  | .eyeScanDone lane errors => Sys2Proof.Machine.execEyeScanDone lane errors s
  | .laneCfgWrite lane value => Sys2Proof.Machine.execLaneCfgWrite lane value s
  | .receiverDetect lane found => Sys2Proof.Machine.execReceiverDetect lane found s
  | .evLaneShort lane => Sys2Proof.Machine.execEvLaneShort lane s
  | .shortRetry lane limited => Sys2Proof.Machine.execShortRetry lane limited s
  | .laneRetire lane declared => Sys2Proof.Machine.execLaneRetire lane declared s
  | .laneUnretire lane => Sys2Proof.Machine.execLaneUnretire lane s
  | .prbsCheckerLock lane bits errors => Sys2Proof.Machine.execPrbsCheckerLock lane bits errors s
  | .prbsCheckerLockLoss lane bits errors => Sys2Proof.Machine.execPrbsCheckerLockLoss lane bits errors s
  | .timeIncWrite src value => Sys2Proof.Machine.execTimeIncWrite src value s
  | .ownerChange src value => Sys2Proof.Machine.execOwnerChange src value s
  | .timeNowRead src => Sys2Proof.Machine.execTimeNowRead src s
  | .timeAdj src value => Sys2Proof.Machine.execTimeAdj src value s
  | .holdoverEnter => Sys2Proof.Machine.execHoldoverEnter s
  | .ptpMessage port m => Sys2Proof.Machine.execPtpMessage port m s
  | .ppsInEdge rising => Sys2Proof.Machine.execPpsInEdge rising s
  | .ppsOutPulse rise => Sys2Proof.Machine.execPpsOutPulse rise s
  | .canaryRun => Sys2Proof.Machine.execCanaryRun s
  | .evCanary optic => Sys2Proof.Machine.execEvCanary optic s
  | .canaryAbort => Sys2Proof.Machine.execCanaryAbort s
  | .seamEligible seam => Sys2Proof.Machine.execSeamEligible seam s
  | .sideFailed => Sys2Proof.Machine.execSideFailed s
  | .manual => Sys2Proof.Machine.execManual s
  | .forced => Sys2Proof.Machine.execForced s
  | .lockout => Sys2Proof.Machine.execLockout s
  | .clear => Sys2Proof.Machine.execClear s
  | .protectionSwitch => Sys2Proof.Machine.execProtectionSwitch s
  | .evProtSwitch => Sys2Proof.Machine.execEvProtSwitch s
  | .evProtSwitchFail => Sys2Proof.Machine.execEvProtSwitchFail s
  | .waitToRestoreExpiry => Sys2Proof.Machine.execWaitToRestoreExpiry s
  | .oprootCommit => Sys2Proof.Machine.execOprootCommit s
  | .keyDerived => Sys2Proof.Machine.execKeyDerived s
  | .keyRetire ident => Sys2Proof.Machine.execKeyRetire ident s
  | .unwrap value keepFails => Sys2Proof.Machine.execUnwrap value keepFails s
  | .erase value => Sys2Proof.Machine.execErase value s
  | .rekey => Sys2Proof.Machine.execRekey s
  | .ladderEntry => Sys2Proof.Machine.execLadderEntry s
  | .ladderExit => Sys2Proof.Machine.execLadderExit s
  | .wakeN => Sys2Proof.Machine.execWakeN s
  | .wakeTimerExpiry => Sys2Proof.Machine.execWakeTimerExpiry s
  | .wake source domain => Sys2Proof.Machine.execWake source domain s
  | .domainAccessWake domain src addr write => Sys2Proof.Machine.execDomainAccessWake domain src addr write s
  | .evPwrWakeFail domain => Sys2Proof.Machine.execEvPwrWakeFail domain s
  | .domainDrop domain votePlaced => Sys2Proof.Machine.execDomainDrop domain votePlaced s
  | .hostVoteWrite src value => Sys2Proof.Machine.execHostVoteWrite src value s
  | .l4Overtemp caseTemp => Sys2Proof.Machine.execL4Overtemp caseTemp s
  | .shedEnd => Sys2Proof.Machine.execShedEnd s
  | .evFiredamp first second => Sys2Proof.Machine.execEvFiredamp first second s
  | .firedampClear highest => Sys2Proof.Machine.execFiredampClear highest s
  | .pwWrite src addr value => Sys2Proof.Machine.execPwWrite src addr value s
  | .keepMount torn tornRecord => Sys2Proof.Machine.execKeepMount torn tornRecord s
  | .scrub die uncorrectable otherBad writePending => Sys2Proof.Machine.execScrub die uncorrectable otherBad writePending s
  | .evKeepRemap die unit otherBad => Sys2Proof.Machine.execEvKeepRemap die unit otherBad s
  | .recordEvent code source payload => Sys2Proof.Machine.execRecordEvent code source payload s
  | .assayRun requested => Sys2Proof.Machine.execAssayRun requested s
  | .evAssayResult m => Sys2Proof.Machine.execEvAssayResult m s
  | .slackSample slack => Sys2Proof.Machine.execSlackSample slack s
  | .hourCount caseTemp => Sys2Proof.Machine.execHourCount caseTemp s
  | .faultEvent source inst => Sys2Proof.Machine.execFaultEvent source inst s
  | .bankRemap bank => Sys2Proof.Machine.execBankRemap bank s
  | .chainFrameReceive port frame => Sys2Proof.Machine.execChainFrameReceive port frame s
  | .read src tag addr => Sys2Proof.Machine.execRead src tag addr s
  | .write src tag addr data => Sys2Proof.Machine.execWrite src tag addr data s
  | .posted addr data => Sys2Proof.Machine.execPosted addr data s
  | .readResp src tag data status => Sys2Proof.Machine.execReadResp src tag data status s
  | .writeResp src tag status => Sys2Proof.Machine.execWriteResp src tag status s
  | .hostRequestTimeout member => Sys2Proof.Machine.execHostRequestTimeout member s
  | .bar0Access a bytes => Sys2Proof.Machine.execBar0Access a bytes s
  | .bar2Write addr value bytes => Sys2Proof.Machine.execBar2Write addr value bytes s
  | .eventFwd src gap record => Sys2Proof.Machine.execEventFwd src gap record s
  | .excFwd src record => Sys2Proof.Machine.execExcFwd src record s
  | .recordForward => Sys2Proof.Machine.execRecordForward s
  | .time received => Sys2Proof.Machine.execTime received s
  | .banksmanUnreachable => Sys2Proof.Machine.execBanksmanUnreachable s
  | .alert received => Sys2Proof.Machine.execAlert received s
  | .keepalive port => Sys2Proof.Machine.execKeepalive port s
  | .evChainPort port up => Sys2Proof.Machine.execEvChainPort port up s
  | .wakeE => Sys2Proof.Machine.execWakeE s
  | .wakeW => Sys2Proof.Machine.execWakeW s
  | .hostLinkUp speed width => Sys2Proof.Machine.execHostLinkUp speed width s
  | .evHostLink => Sys2Proof.Machine.execEvHostLink s
  | .landReadback output agrees => Sys2Proof.Machine.execLandReadback output agrees s
  | .landShortRetry output readbacks => Sys2Proof.Machine.execLandShortRetry output readbacks s
  | .opticInsert side cmis => Sys2Proof.Machine.execOpticInsert side cmis s
  | .opticRemove side => Sys2Proof.Machine.execOpticRemove side s
  | .cmisPoll side intLow txPower bias => Sys2Proof.Machine.execCmisPoll side intLow txPower bias s
  | .cmisTimeout side => Sys2Proof.Machine.execCmisTimeout side s
  | .ledFrame => Sys2Proof.Machine.execLedFrame s
  | .perstN low => Sys2Proof.Machine.execPerstN low s
  | .vioReady => Sys2Proof.Machine.execVioReady s
  | .powerTransitionComplete domain => Sys2Proof.Machine.execPowerTransitionComplete domain s
  | .ptpSyncInterval port announce => Sys2Proof.Machine.execPtpSyncInterval port announce s

end Sys2Proof.Machine
end

