-- ==== Sys2Proof/Safety.lean ====
section
/-! DEFINITION. What counts as a safe run: no step of it stops, and what the spec says can never be undone stands. -/
namespace Sys2Proof.Machine

/-- The commands that wait have the shapes of the spec's operands. -/
def State.wfQueue (s : State) : Prop := ∀ c ∈ s.pending, c.wf = true

/-- Nothing of an earlier command waits to be settled: no access stalls on a sleeping domain (R457) and no fault event is
still to be counted (R503). -/
def State.quiet (s : State) : Prop := s.pwr.stalled = [] ∧ s.assay.faultsIn = []

/-- A part of the state: a field of `State`, or a field of one of them that claims speak of by itself. -/
inductive Part where
  | pending | cycle | free | outs | regs | latch | misaligned | tick | boot | supply | time | keep | recd | pwr | assay | land | prot
  | seams | tub | wnd | sched | ports | mdio | ingress | join | ciph | cls | tally | circuits | looped | lanes | chain | host
  | stalled | faultsIn | opRoot | tickCount | dom | phase | now | ladder | votes | active | sram | dram | mounted | warning | ring
  deriving DecidableEq, Repr

/-- The part is the same in both states. -/
def Part.same : Part → State → State → Prop
  | .pending, s, t => t.pending = s.pending
  | .cycle, s, t => t.cycle = s.cycle
  | .free, s, t => t.free = s.free
  | .outs, s, t => t.outs = s.outs
  | .regs, s, t => t.regs = s.regs
  | .latch, s, t => t.latch = s.latch
  | .misaligned, s, t => t.misaligned = s.misaligned
  | .tick, s, t => t.tick = s.tick
  | .boot, s, t => t.boot = s.boot
  | .supply, s, t => t.supply = s.supply
  | .time, s, t => t.time = s.time
  | .keep, s, t => t.keep = s.keep
  | .recd, s, t => t.recd = s.recd
  | .pwr, s, t => t.pwr = s.pwr
  | .assay, s, t => t.assay = s.assay
  | .land, s, t => t.land = s.land
  | .prot, s, t => t.prot = s.prot
  | .seams, s, t => t.seams = s.seams
  | .tub, s, t => t.tub = s.tub
  | .wnd, s, t => t.wnd = s.wnd
  | .sched, s, t => t.sched = s.sched
  | .ports, s, t => t.ports = s.ports
  | .mdio, s, t => t.mdio = s.mdio
  | .ingress, s, t => t.ingress = s.ingress
  | .join, s, t => t.join = s.join
  | .ciph, s, t => t.ciph = s.ciph
  | .cls, s, t => t.cls = s.cls
  | .tally, s, t => t.tally = s.tally
  | .circuits, s, t => t.circuits = s.circuits
  | .looped, s, t => t.looped = s.looped
  | .lanes, s, t => t.lanes = s.lanes
  | .chain, s, t => t.chain = s.chain
  | .host, s, t => t.host = s.host
  | .stalled, s, t => t.pwr.stalled = s.pwr.stalled
  | .faultsIn, s, t => t.assay.faultsIn = s.assay.faultsIn
  | .opRoot, s, t => t.keep.opRoot = s.keep.opRoot
  | .tickCount, s, t => t.tick.count = s.tick.count
  | .dom, s, t => t.pwr.dom = s.pwr.dom
  | .phase, s, t => t.boot.phase = s.boot.phase
  | .now, s, t => t.time.now = s.time.now
  | .ladder, s, t => t.pwr.ladder = s.pwr.ladder
  | .votes, s, t => t.pwr.votes = s.pwr.votes
  | .active, s, t => t.prot.active = s.prot.active
  | .sram, s, t => t.tub.sram = s.tub.sram
  | .dram, s, t => t.tub.dram = s.tub.dram
  | .mounted, s, t => t.keep.mounted = s.keep.mounted
  | .warning, s, t => t.supply.warning = s.supply.warning
  | .ring, s, t => t.recd.ring = s.recd.ring

/-- The frame of a command: nothing but the parts listed has changed. A part listed whole (`pwr`) frees its fields only as
far as they are listed too (`stalled`, `dom`, `ladder`, `votes`). -/
def SameBut (ps : List Part) (s t : State) : Prop := ∀ p : Part, p ∉ ps → p.same s t

/-- Registers other than those listed hold what they held. -/
def RegsBut (as : List Nat) (s t : State) : Prop := ∀ a, a ∉ as → reg a t = reg a s

/-- The canonical form of everything that is held as a table: registers and their latches, both tub memories, the ring, the entries
of both dies, and the seams, ports, MDIO buses, circuits, lanes, identities, queues and winder channels. -/
def State.wf (s : State) : Prop :=
  twf resetValue s.regs = true ∧ twf (fun _ => 0) s.tub.sram = true ∧ twf (fun _ => 0) s.tub.dram = true
    ∧ twf (fun _ => 0) s.recd.ring = true ∧ twf (fun _ => 0) s.latch = true ∧ twf blankCopy s.keep.dieA = true
    ∧ twf blankCopy s.keep.dieB = true ∧ twf (fun _ => SeamState.reset) s.seams = true
    ∧ twf (fun _ => PortState.reset) s.ports = true ∧ twf (fun _ => MdioState.reset) s.mdio = true
    ∧ twf (fun _ => Circuit.reset) s.circuits = true ∧ twf (fun _ => LaneState.reset) s.lanes = true
    ∧ twf (fun _ => Identity.reset) s.join.idents = true ∧ twf (fun _ => PortSched.reset) s.sched.ports = true
    ∧ twf (fun _ => AllocQueue.reset) s.sched.aqs = true ∧ twf (fun _ => WndChan.reset) s.wnd.chans = true

/-- A register whose write does more than R12 and R13 say of its bits: it is held elsewhere (the keep, REC_WIN_OFF), limited by
another register, or a command. -/
def actsOnWrite (a : Nat) : Bool :=
  let i := (a - 0x201000) / 0x10
  let c := (a - 0x301000) / 0x40
  let p := (a - 0x610000) / 0x200
  let q := ((a - 0x610000) % 0x200 - 0x100) / 0x20
  let w := (a - 0x781000) / 0x20
  let l := (a - 0x800000) / 0x1000
  let g := (a - 0xA00100) / 0x20
  let k := (a - 0xC00000) / 0x400
  a == Reg.IMG_MIN_GEN || a == Reg.GEN_RESET_CMD || a == Reg.GEN_DOMAIN_RESET || a == Reg.GEN_BOOT_CTRL
    || a == Reg.GEN_LED_CFG
    || (decide (0x100000 ≤ a) && decide (a < 0x200000)
        && a == Reg.LINE_SD_CLR ((a - 0x100000) / 0x40000) ((a - 0x100000) % 0x40000 / 0x10000))
    || (decide (0x201000 ≤ a) && decide (a < 0x201800) && a == Reg.JOIN_ID_CFG i)
    || (decide (0x301000 ≤ a) && decide (a < 0x340000) && a == Reg.CIRC_CFG c)
    || a == Reg.TALLY_RESERVE || (decide (0x401000 ≤ a) && decide (a < 0x409000) && a == Reg.TALLY_FLOW_CFG ((a - 0x401000) / 0x10))
    || (decide (0x500000 ≤ a) && decide (a < 0x600000) && a == Reg.CLS_RULE_CMD ((a - 0x500000) / 0x40000))
    || a == Reg.CLS_FDB_CMD || a == Reg.CLS_VLAN_CMD || a == Reg.CLS_EXC_RATE || a == Reg.CLS_EXC_DEPTH
    || a == Reg.SCHED_GCL_CMD || a == Reg.SCHED_POL_CMD || (decide (0x601000 ≤ a) && decide (a < 0x610000))
    || (decide (0x610000 ≤ a) && decide (a < 0x660000)
        && (a == Reg.SCHED_PORT_RATE p || a == Reg.SCHED_PORT_BURST p || a == Reg.SCHED_GATE_CTRL p
            || a == Reg.SCHED_Q_RATE p q || a == Reg.SCHED_Q_BURST p q))
    || (decide (0x700000 ≤ a) && decide (a < 0x70003C)) || (decide (0x700100 ≤ a) && decide (a < 0x780000))
    || (decide (0x781000 ≤ a) && decide (a < 0x800000)
        && (a == Reg.WND_CH_CFG w || a == Reg.WND_CH_DOORBELL w || a == Reg.WND_CH_HEAD_LO w || a == Reg.WND_CH_HEAD_HI w))
    || (decide (0x800000 ≤ a) && decide (a < 0xA00000) && (a == Reg.PORT_CFG l || a == Reg.PORT_EEE_CFG l))
    || (decide (0xA00000 ≤ a) && decide (a < 0xC00000)
        && (decide (a < 0xA00100) || a == Reg.PORT_MDIO_CMD g 0 || a == Reg.PORT_MDIO_CMD g 1 || a == Reg.PORT_MDIO_ARG g 0
          || a == Reg.PORT_MDIO_ARG g 1))
    || (decide (0xC00000 ≤ a) && decide (a < 0xD00000)
        && (a == Reg.LANE_CFG k || a == Reg.LANE_TXEQ k || a == Reg.LANE_ALIGN k || a == Reg.LANE_EYE_CTRL k))
    || (decide (Reg.LANE_RETIRED 0 ≤ a) && decide (a ≤ Reg.LANE_RETIRED 16))
    || (decide (0xE00000 ≤ a) && decide (a < 0xE80000)
        && (a == Reg.TIME_CTRL || a == Reg.TIME_INC_LO || a == Reg.TIME_INC_HI || a == Reg.TIME_STEP_ALLOW
            || a == Reg.TIME_ADJ_NS || decide (0xE01000 ≤ a)))
    || a == Reg.PROT_CMD || (decide (0xF00000 ≤ a) && decide (a < 0xF01000)) || a == Reg.PWR_WAKE_TIMER
    || a == Reg.PWR_VOTE 0 || a == Reg.ASSAY_CTRL || (decide (Reg.ASSAY_HOURS 0 ≤ a) && decide (a ≤ Reg.ASSAY_HOURS 3))
    || a == Reg.REC_WIN_OFF || a == Reg.CHAIN_CTRL || decide (0x1280000 ≤ a)

end Sys2Proof.Machine
end

