-- ==== Sys2Proof/Certificates/Slice0/Obligations.lean ====
section
/-! DEFINITION. The statements for the provers, by family. A statement of what a command does says under which conditions on the state
and the operands it answers a next state and what that state holds; `SameBut` and `RegsBut` say what it leaves alone. -/
open Sys2Proof Sys2Proof.Machine

/-! ### The machine -/

/-- A step takes the command in front of the queue and executes it on the state with the rest of the queue (log entry 2); no
command puts anything into the queue. -/
def Obligations.StepExecutesTheFrontCommand : Prop :=
  ∀ (c : Instr) (rest : List Instr) (s : State), s.pending = c :: rest →
    step s = exec c { s with pending := rest } ∧ ∀ t, step s = .next t → t.pending = rest

/-- With an empty queue a step is one cycle of the model's clock, 1 ns (the model's choice: log entry 2). Terminal time
advances by the increment in force, below L3, and by 1 ns from the AON counter in L3 and L4. The frees and takes of the cycle
are made as it ends (R315) and its exceptions become records (R268); where none waits, nothing else happens while no supply
of VAUX is lost. -/
def Obligations.EmptyQueuePassesOneCycle : Prop :=
  ∀ s : State, s.pending = [] →
    ∃ t, step s = .next t ∧ t.pending = [] ∧
      (s.supply.vauxLost = false →
        t = { settleExceptions (settleTubs s) with cycle := s.cycle + 1, time := t.time } ∧
        (s.tub.frees = [] → s.tub.asks = [] → s.cls.excWait = [] → settleExceptions (settleTubs s) = s) ∧
        (s.pwr.ladder < 3 → t.time = { s.time with now := s.time.now + s.time.inc * 2 ^ 16 }) ∧
        (3 ≤ s.pwr.ladder →
          t.time = { s.time with now := s.time.now + 2 ^ 56, aonCycles := s.time.aonCycles + 1 }))

/-- What reset leaves: every register at its Reset column (R11), time at 0 s not valid (R400), the tick at count 0 (R63), no vote
(R454), nothing in the queue; and every memory in canonical form with nothing waiting to be settled, which is what
the claims about the machine start from. -/
def Obligations.ResetLeavesResetValues : Prop :=
  (∀ a, reg a State.reset = resetValue a) ∧ State.reset.time.now = 0 ∧ State.reset.time.valid = false ∧
    State.reset.tick.count = 0 ∧ (∀ c, votesOf c State.reset = 0) ∧ State.reset.pending = [] ∧
    State.reset.wf ∧ State.reset.wfQueue ∧ State.reset.quiet

/-- Every table that stands for memory stays in its one canonical form in every step, so that equal contents are equal data: the
registers, the tub store's SRAM and DRAM, the recorder's ring. -/
def Obligations.StepKeepsMemoriesCanonical : Prop :=
  ∀ s t : State, s.wf → step s = .next t → t.wf

/-- R423: once present, the operator root key is neither replaced nor erased, whatever command a step executes. -/
def Obligations.OperatorRootKeyIsPermanent : Prop :=
  ∀ (s t : State) (k : Bytes), s.keep.opRoot = some k → step s = .next t → t.keep.opRoot = some k

/-- No step stops the machine: with commands of the spec's shapes waiting, it answers a next state, in which the commands that
wait are those that waited behind the first. No output is taken back, and no free value is drawn twice.

A command is executed exactly where its operands have the shapes the spec gives them (`Instr.wf`): whatever the state, every
constructor of `Instr` then answers a next state, with the queue as it was; any other command is refused as ill-formed. -/
def Obligations.CommandsStopOnlyWhereIllFormed : Prop :=
  (∀ s : State, s.wfQueue →
    ∃ t, step s = .next t ∧ t.wfQueue ∧ t.pending = s.pending.tail ∧ s.outs <:+ t.outs ∧ s.free ≤ t.free) ∧
  (∀ (c : Instr) (s : State), (exec c s = .refused .illFormed ↔ c.wf = false) ∧
    (c.wf = true → ∃ t, exec c s = .next t ∧ t.pending = s.pending))

/-! ### Registers -/

/-- R9, for every way an access is made: at an address that holds no register, a read answers 0 and a write changes nothing. -/
def Obligations.AbsentRegisterReadsZero : Prop :=
  ∀ (src : Source) (addr value same inc : Word) (s : State), s.quiet → addr.toNat % 4 = 0 →
    (regRow addr.toNat).isNone = true → refusesAccess addr.toNat s = false →
    exec (.regWrite src addr value same) s = .next s ∧
    exec (.pwWrite src addr value) s = .next s ∧
    exec (.rcClearingRead src addr inc) s = .next { s with outs := .readReply src addr 0 :: s.outs } ∧
    exec (.lrLowWordRead src addr inc) s = .next { s with outs := .readReply src addr 0 :: s.outs }

/-- Completes, under conditions on the state and the operands alone: regMisaligned.
R8: an access that is not 32 bits wide or not aligned is counted in CNT_REG_MISALIGNED and has no other effect; a read
answers 0. No hypothesis names the boot phase, so it is so in HELD and NO_IMAGE too. Over the chain it is answered with
STATUS 3. An access of 4 bytes at an aligned address is no such access. -/
def Obligations.MisalignedAccessIsCountedOnly : Prop :=
  ∀ (src : Source) (addr value same inc : Word) (bytes : Nat) (s : State), s.quiet →
    (∀ a b, (bytes = 4 ∧ addr.toNat % 4 = 0 → exec (.regMisaligned a addr bytes b) s = .next s)) ∧
    (¬ (bytes = 4 ∧ addr.toNat % 4 = 0) →
      exec (.regMisaligned src addr bytes true) s = .next { s with misaligned := satAdd s.misaligned 1 } ∧
      exec (.regMisaligned src addr bytes false) s =
        .next { s with misaligned := satAdd s.misaligned 1, outs := .readReply src addr 0 :: s.outs }) ∧
    (addr.toNat % 4 ≠ 0 →
      exec (.regWrite src addr value same) s = .next { s with misaligned := satAdd s.misaligned 1 } ∧
      exec (.pwWrite src addr value) s = .next { s with misaligned := satAdd s.misaligned 1 } ∧
      exec (.rcClearingRead src addr inc) s =
        .next { s with misaligned := satAdd s.misaligned 1, outs := .readReply src addr 0 :: s.outs } ∧
      exec (.lrLowWordRead src addr inc) s =
        .next { s with misaligned := satAdd s.misaligned 1, outs := .readReply src addr 0 :: s.outs } ∧
      ∀ (dst : Fin 64) (tag : BitVec 16),
        exec (.read dst tag addr) s =
          .next (sendResponse dst.val tag.toNat (some 0) 3 { s with misaligned := satAdd s.misaligned 1 }) ∧
        exec (.write dst tag addr value) s =
          .next (sendResponse dst.val tag.toNat none 3 { s with misaligned := satAdd s.misaligned 1 }))

/-- Completes, under conditions on the state and the operands alone: rcClearingRead, lrLowWordRead.
R14: the read of a counter coded RC answers the value held, and the counter then holds the increments that fell in the cycle
of the read, saturated; a 64-bit counter is cleared with both words, and its high word is latched for the source. Nothing
else changes. -/
def Obligations.ClearingReadCarriesIncrements : Prop :=
  ∀ (src : Source) (addr inc : Word) (r : RegRow) (s : State), s.quiet → s.wf → addr.toNat % 4 = 0 →
    judge addr.toNat s = .perform → regRow addr.toNat = some r →
    (r.kind = .rc → ∃ t, exec (.rcClearingRead src addr inc) s = .next t ∧
      t.outs = .readReply src addr (reg addr.toNat s) :: s.outs ∧ reg addr.toNat t = inc ∧
      RegsBut [addr.toNat] s t ∧ SameBut [.outs, .regs] s t) ∧
    (r.kind = .low1 → ∃ t, exec (.rcClearingRead src addr inc) s = .next t ∧ exec (.lrLowWordRead src addr inc) s = .next t ∧
      t.outs = .readReply src addr (reg addr.toNat s) :: s.outs ∧ reg addr.toNat t = inc ∧ reg (addr.toNat + 4) t = 0 ∧
      tget (fun _ => 0) t.latch (latchKey src (addr.toNat + 4)) = reg (addr.toNat + 4) s ∧
      (∀ k, k ≠ latchKey src (addr.toNat + 4) → tget (fun _ => 0) t.latch k = tget (fun _ => 0) s.latch k) ∧
      RegsBut [addr.toNat, addr.toNat + 4] s t ∧ SameBut [.outs, .regs, .latch] s t)

/-- Completes, under conditions on the state and the operands alone: lrLowWordRead.
R15: a read of the low word of an LR pair latches the high word for the source that reads, and for no other source; the
high word answers what the last low-word read of the SAME source latched, and changes nothing; a latch belongs to one
source and one address. (The pairs whose low word is RC too are in `ClearingReadCarriesIncrements`.) -/
def Obligations.HighWordAnswersItsOwnLatch : Prop :=
  (∀ (src : Source) (addr inc : Word) (r : RegRow) (s : State), s.quiet → s.wf → addr.toNat % 4 = 0 →
    judge addr.toNat s = .perform → regRow addr.toNat = some r →
    (r.kind = .low0 → ∃ t, exec (.lrLowWordRead src addr inc) s = .next t ∧
      t.outs = .readReply src addr (regView src addr.toNat s) :: s.outs ∧
      (isHigh (addr.toNat + 4) = true → isHigh (addr.toNat + 8) = false →
        tget (fun _ => 0) t.latch (latchKey src (addr.toNat + 4)) = regView src (addr.toNat + 4) s ∧
        ∀ k, k ≠ latchKey src (addr.toNat + 4) → tget (fun _ => 0) t.latch k = tget (fun _ => 0) s.latch k) ∧
      (∀ (b : Source) (x : Word), b ≠ src →
        tget (fun _ => 0) t.latch (latchKey b x.toNat) = tget (fun _ => 0) s.latch (latchKey b x.toNat)) ∧
      SameBut [.outs, .latch] s t) ∧
    (r.kind = .high →
      exec (.lrLowWordRead src addr inc) s = .next { s with
        outs := .readReply src addr (tget (fun _ => 0) s.latch (latchKey src addr.toNat)) :: s.outs })) ∧
  (∀ (a b : Source) (x y : Word), latchKey a x.toNat = latchKey b y.toNat → a = b ∧ x = y)

/-- Completes, under conditions on the state and the operands alone: regWrite.
R12 and R13 for every register whose write does nothing more (`actsOnWrite`): RW fields take the written value, where it is in
their range; a W1C bit is cleared by a 1 unless its source sets it in the same cycle; a W1S bit is set by a 1; every other
bit stays. Nothing but this register changes. -/
def Obligations.PlainWriteFollowsAccessCodes : Prop :=
  ∀ (src : Source) (addr value same : Word) (r : RegRow) (s : State), s.quiet → s.wf → addr.toNat % 4 = 0 →
    judge addr.toNat s = .perform → regRow addr.toNat = some r → actsOnWrite addr.toNat = false →
    ∃ t, exec (.regWrite src addr value same) s = .next t ∧
      reg addr.toNat t = (reg addr.toNat s &&& ~~~ (word r.rw ||| (value &&& word r.w1c)))
        ||| (r.rwValue (reg addr.toNat s) value &&& word r.rw) ||| (value &&& word r.w1s) ||| (same &&& word r.w1c) ∧
      RegsBut [addr.toNat] s t ∧ SameBut [.regs] s t

/-- Completes, under conditions on the state and the operands alone: regWrite.
R13: when a W1C bit is cleared by a write in the same cycle that its source sets it, the bit stays set, whatever else is
written. -/
def Obligations.W1cBitSetInSameCycleStaysSet : Prop :=
  ∀ (src : Source) (addr value same : Word) (r : RegRow) (s : State) (i : Nat), s.quiet → s.wf → addr.toNat % 4 = 0 →
    judge addr.toNat s = .perform → regRow addr.toNat = some r → actsOnWrite addr.toNat = false →
    (word r.w1c).getLsbD i = true → same.getLsbD i = true →
    ∃ t, exec (.regWrite src addr value same) s = .next t ∧ (reg addr.toNat t).getLsbD i = true

/-- Completes, under conditions on the state and the operands alone: pwWrite.
A write of a persistent register (R477, R479) sets the value on both dies and counts one write of its entry, while no die
is degraded, the value is another one and the wear limit stands off; writing the value held writes nothing. Shown for
IMG_MIN_GEN (entry 0) and for TIME_STEP_ALLOW (entry 2). -/
def Obligations.PersistentWriteReachesBothDies : Prop :=
  ∀ (src : Source) (value : Word) (s : State), s.quiet → s.wf →
    ∀ (a i : Nat) (v : Word), (a = Reg.IMG_MIN_GEN ∧ i = 0 ∧ v = value) ∨ (a = Reg.TIME_STEP_ALLOW ∧ i = 2 ∧ v = value &&& 1) →
    judge a s = .perform →
    ((keepEntry i s).valid = true → (keepEntry i s).value = v → exec (.pwWrite src (word a) value) s = .next s) ∧
    (s.keep.failedDie = none → s.keep.failedUnits = [] → (keepEntry i s).value ≠ v → (keepEntry i s).wear + 1 < 500000000000 →
      ∃ t, exec (.pwWrite src (word a) value) s = .next t ∧
        dieCopy 0 i t = ⟨(keepEntry i s).wear + 1, v, true⟩ ∧ dieCopy 1 i t = ⟨(keepEntry i s).wear + 1, v, true⟩ ∧
        keepValue i t = v ∧ (∀ j, j ≠ i → dieCopy 0 j t = dieCopy 0 j s ∧ dieCopy 1 j t = dieCopy 1 j s) ∧
        SameBut [.keep] s t)

/-- In HELD and NO_IMAGE the terminal answers accesses of the GEN and IMG blocks and refuses every other one (R52, R53): a
refused access changes nothing, and its source is told. -/
def Obligations.HeldTerminalRefusesOtherBlocks : Prop :=
  ∀ (src : Source) (addr value same inc : Word) (s : State), s.quiet → addr.toNat % 4 = 0 →
    (s.boot.phase = .held ∨ s.boot.phase = .noImage) →
    (0x100000 ≤ addr.toNat →
      exec (.regWrite src addr value same) s = .next { s with outs := .accessRefused src addr :: s.outs } ∧
      exec (.pwWrite src addr value) s = .next { s with outs := .accessRefused src addr :: s.outs } ∧
      exec (.rcClearingRead src addr inc) s = .next { s with outs := .accessRefused src addr :: s.outs } ∧
      exec (.lrLowWordRead src addr inc) s = .next { s with outs := .accessRefused src addr :: s.outs }) ∧
    (addr.toNat < 0x100000 → judge addr.toNat s ≠ .refused)

/-! ### The tick -/

/-- Completes, under conditions on the state and the operands alone: tickEdge, localTickCountExpiry, tickOverrun.
R18 to R21: outside a reset, TICK_EDGE counts. With a seam of the active side in SYNC the tick is line-derived from the
lowest-numbered one and its count is the FC of the frame that gives the edge; with none it is locally generated and the
count advances by one. The phase moves by at most 2 µs toward its target, and SLEWING stands until it is within 8 ns. The
records of the overruns before it are written and a new tick has none but those its own budgets bring (R26): none where
every block's work is done within its budget, GOV's where its grant is late.
LOCAL_TICK_COUNT_EXPIRY gives the same edge where no seam is in SYNC, and none where one is.

R24 and R26: the first overrun of a block in a tick sets its bit of GEN_TICK_OVERRUN and counts in its GEN_TICK_OVR_CNT at
the budget end, with the fault event of R504; its record, with the count of the tick overrun and LATE_US (0xFFFF where
the work was abandoned), waits for the next edge. A second one in the same tick is not counted again; it only says LATE_US of
the record. With SCHED's overrun the caps of the tick are formed from the plan in force (R305); GATE's late check is made. -/
def Obligations.TickEdgesAndOverrunsCount : Prop :=
  (∀ (i : TickInputs) (s : State), s.quiet → i.wf = true → s.boot.inReset = none →
    (∃ t, exec (.tickEdge i) s = .next (settleFaults t) ∧
      (∀ n, lowestSync (activeSide s) s = some n →
        t.tick.line = true ∧ t.tick.seam = Fin.ofNat 4 n ∧ t.tick.count = (seam (activeSide s) n s).fc + 1) ∧
      (lowestSync (activeSide s) s = none →
        t.tick.line = false ∧ t.tick.count = s.tick.count + 1 ∧ (t.tick.phaseNs - s.tick.phaseNs).natAbs ≤ 2000) ∧
      (t.tick.slewing = true ↔ 8 ≤ t.tick.phaseNs.natAbs) ∧ t.host.vectorSent = [] ∧
      (i.shiftDone = none → i.circDone = none → i.gateLate = false → i.tallyLate = false → i.govLate = false →
        t.tick.overruns = []) ∧
      (i.govLate = true → t.tick.overruns.any (fun e => e.1 == 1) = true ∧ t.pwr.lateAllowPj.isSome = true) ∧
      SameBut [.free, .outs, .regs, .tick, .tickCount, .time, .keep, .recd, .ring, .pwr, .dom, .votes, .assay, .faultsIn,
        .seams, .tub, .sram, .dram, .sched, .ports, .join, .ciph, .cls, .tally, .circuits, .host] s t) ∧
    (lowestSync (activeSide s) s = none → ∃ t, exec (.localTickCountExpiry i) s = .next (settleFaults t) ∧
      t.tick.line = false ∧ t.tick.count = s.tick.count + 1 ∧ exec (.localTickCountExpiry i) s = exec (.tickEdge i) s) ∧
    (lowestSync (activeSide s) s ≠ none → exec (.localTickCountExpiry i) s = .next s)) ∧
  (∀ (block : Fin 7) (lateUs : Option (BitVec 16)) (s : State), s.quiet → s.wf →
    ((s.tick.overruns.any (fun e => e.1 == block.val)) = false →
      ∃ u, exec (.tickOverrun block lateUs) s = .next (settleFaults u) ∧
        (block = 2 → ∀ p, (sched p u).capDemand = (sched p s).edgeDemand ∧ (sched p u).capOver = (sched p s).edgeOver) ∧
        (block ≠ 2 → block ≠ 4 → u.sched = s.sched) ∧
        reg Reg.GEN_TICK_OVERRUN u = reg Reg.GEN_TICK_OVERRUN s ||| word (2 ^ block.val) ∧
        reg (Reg.GEN_TICK_OVR_CNT block.val) u = satAdd (reg (Reg.GEN_TICK_OVR_CNT block.val) s) 1 ∧
        u.tick = { s.tick with overruns := s.tick.overruns ++ [(block.val, lateUs.getD 0xFFFF, s.tick.count)] } ∧
        u.assay.faultsIn = [(7, block.val)] ∧ RegsBut [Reg.GEN_TICK_OVERRUN, Reg.GEN_TICK_OVR_CNT block.val] s u ∧
        SameBut [.regs, .tick, .assay, .faultsIn, .sched] s u) ∧
    ((s.tick.overruns.any (fun e => e.1 == block.val)) = true → block ≠ 2 →
      exec (.tickOverrun block none) s = .next s ∧
      ∀ us, block ≠ 4 → exec (.tickOverrun block (some us)) s = .next { s with tick := { s.tick with
        overruns := s.tick.overruns.map (fun e => if e.1 = block.val then (block.val, us, e.2.2) else e) } }))

/-- Completes, under conditions on the state and the operands alone: govLateComplete, schedPlan, supLoops.
The work of a tick after its edge: GOV_LATE_COMPLETE shows a late grant and uses it for nothing (R23, R25); SCHED_PLAN
writes the plan of this tick (R300, R302), unless SCHED has overrun, when the previous one stays in force (R24) and only the
caps are formed from it (R305); SUP_LOOPS acts on the messages not yet acted on (R24), then runs the port states of the
boundary clock, the time servo, the protection decision, the canary's steps and the ladder target (R22), where PD_SUP works,
the start-up is over and no reset is in progress; anywhere else it does nothing. -/
def Obligations.TickWorkRuns : Prop :=
  ∀ s : State, s.quiet → s.wf →
    (∀ a, s.pwr.lateAllowPj = some a →
      exec .govLateComplete s = .next { s with pwr := { s.pwr with
        shownAllowPj := a, limitThermal := s.pwr.lateLimit, lateAllowPj := none } }) ∧
    (s.pwr.lateAllowPj = none → exec .govLateComplete s = .next s) ∧
    ((s.tick.overruns.any (fun e => e.1 == 2)) = false →
      ∃ t, exec .schedPlan s = .next t ∧ t.sched.prev = false ∧ t.sched.eW = leftPj (settleExc s) ∧
        t.sched.eWd = weightedPj s ∧ t.sched.phi = phiOf t.sched.eW t.sched.eWd s.pwr.shortfall ∧
        (∀ p, (sched p t).capDemand = (sched p s).edgeDemand ∧ (sched p t).capOver = (sched p s).edgeOver) ∧
        SameBut [.sched, .cls] s t) ∧
    ((s.tick.overruns.any (fun e => e.1 == 2)) = true →
      ∃ t, exec .schedPlan s = .next t ∧ t.sched.phi = s.sched.phi ∧ t.sched.prev = s.sched.prev ∧
        (∀ p, (sched p t).capDemand = (sched p s).edgeDemand ∧ (sched p t).capOver = (sched p s).edgeOver) ∧
        SameBut [.sched] s t) ∧
    (supRuns s = true →
      ∃ t, exec .supLoops s = .next t ∧
        t = (s |> actLmms |> runBmca |> servoLoop |> protDecide |> canaryStep3 |> canaryRetry |> evaluateTarget) ∧
        t.pwr.wake = false ∧
        SameBut [.free, .outs, .regs, .time, .now, .keep, .recd, .ring, .pwr, .dom, .votes, .land, .prot, .tub, .sram, .dram,
          .sched, .ports, .lanes, .join, .ciph, .tally] s t) ∧
    (supRuns s = false → exec .supLoops s = .next s)

/-! ### Resets and start-up -/

/-- Completes, under conditions on the state and the operands alone: coldReset, dipReset, pinReset, watchdogReset,
chainReset, vinOvercurrentDisconnect.
The five resets that load from flash (R58, R63, R576), each with its trigger, where no reset is in progress: what every one of
them takes and keeps. Registers return to their Reset column but for those the kind keeps; time and tick count are lost
by Cold and Dip and kept by the others; persistent entries, the operator root key, loaded keys, the recorder's ring
and the journal stand; everything held in SRAM and every registration in progress is gone; start-up begins in phase ROM.

R61, while a reset of kind `p` is in progress: a request of its own kind is held until that one is over; a lower one is
discarded and counted in CNT_RESET_MERGED; a higher one is carried out, and those it overrides are counted: the one in
progress and the one held. Shown for COLD_RESET, PIN_RESET and CHAIN_RESET; a wrong code in GEN_RESET_CMD is counted and
resets nothing. -/
def Obligations.ResetsTakeKeepAndOutrank : Prop :=
  (∀ (s : State) (mv : BitVec 16) (c : Instr) (k : ResetKind) (sub : Nat), s.quiet → s.boot.inReset = none →
    (c = .coldReset ∧ k = .cold ∧ sub = 0) ∨
    (c = .dipReset mv ∧ mv.toNat ≤ 9600 ∧ s.supply.vauxLost = false ∧ k = .dip ∧ sub = 0) ∨
    (c = .vinOvercurrentDisconnect ∧ s.supply.vauxLost = false ∧ k = .dip ∧ sub = 0) ∨
    (c = .pinReset ∧ k = .pin ∧ sub = 0) ∨
    (c = .watchdogReset true ∧ s.supply.commitAt.isSome = true ∧ k = .watchdog ∧ sub = 1) ∨
    (c = .watchdogReset false ∧ s.boot.phase = .running ∧ domState 18 s = .on ∧ k = .watchdog ∧ sub = 3) ∨
    (c = .chainReset 0xA5C1 ∧ k = .chain ∧ sub = 0) →
    ∃ t, exec c s = .next t ∧
      t.boot.inReset = some k ∧ t.boot.lastKind = resetRank k ∧ t.boot.lastSub = sub ∧ t.boot.phase = .rom ∧
      t.boot.domActive = 0 ∧ t.boot.image = none ∧
      (∀ a, a ≠ Reg.CNT_RESET_MERGED → reg a t = if keepsReg k a then reg a s else resetValue a) ∧
      (losesTime k = true → t.time = TimeState.reset ∧ t.tick = TickState.reset) ∧
      (losesTime k = false → t.time = s.time ∧ t.tick.count = s.tick.count) ∧
      t.keep.dieA = s.keep.dieA ∧ t.keep.dieB = s.keep.dieB ∧ t.keep.opRoot = s.keep.opRoot ∧ t.keep.loaded = s.keep.loaded ∧
      t.keep.mounted = false ∧ t.recd.ring = s.recd.ring ∧ t.recd.newestSeq = s.recd.newestSeq ∧
      t.recd.oldestSeq = s.recd.oldestSeq ∧ t.tally.journal = s.tally.journal ∧
      (k = .cold → t.pwr = PwrState.reset) ∧ (k ≠ .cold → t.pwr.votes = s.pwr.votes ∧ t.pwr.ladder = 0) ∧
      t.tub = TubState.reset ∧ t.sched = SchedState.reset ∧ t.join = JoinState.reset ∧ t.ciph = CiphState.reset ∧
      t.prot = ProtState.reset ∧ t.seams = [] ∧ t.ports = [] ∧ t.lanes = [] ∧ t.circuits = [] ∧ t.ingress = [] ∧
      t.outs = s.outs ∧ t.free = s.free ∧ t.cycle = s.cycle ∧ t.pending = s.pending) ∧
  (∀ (s : State) (p : ResetKind), s.quiet → s.wf → s.boot.inReset = some p →
    (p = .pin → exec .pinReset s = .next { s with boot := { s.boot with heldReset := some (.pin, 0) } }) ∧
    (p = .chain → exec (.chainReset 0xA5C1) s = .next { s with boot := { s.boot with heldReset := some (.chain, 0) } }) ∧
    (p = .cold → exec .coldReset s = .next { s with
      boot := { s.boot with heldReset := some (.cold, 0) }, supply := { s.supply with vauxLost := false } }) ∧
    (resetRank p < 2 → exec .pinReset s = .next (count Reg.CNT_RESET_MERGED s)) ∧
    (resetRank p < 4 → exec (.chainReset 0xA5C1) s = .next (count Reg.CNT_RESET_MERGED s)) ∧
    (2 < resetRank p → ∃ t, exec .pinReset s = .next t ∧ t.boot.inReset = some .pin ∧
      reg Reg.CNT_RESET_MERGED t = satAdd 0 (if s.boot.heldReset.isSome then 2 else 1)) ∧
    (∀ code : Word, code ≠ 0xA5C1 →
      exec (.chainReset code) s = .next (count Reg.CNT_RESET_CMD_BAD s)))

/-- Completes, under conditions on the state and the operands alone: domainReset, domainResetRelease.
R59, R60 and R576: a Domain reset holds the domain OFF and returns its registers to their Reset column, but those of the
TIME block; shown for the pipelines, whose tables it clears too. In whatever phase (R58); while another Domain reset is in
progress it is held (R61), and during a reset of another kind it is counted as merged.

DOMAIN_RESET_RELEASE (R59, R62): a cached section that fails its BODY_CRC makes it a Chain reset with SUBCAUSE CACHE (2); with
a good cache and no record of the image in the domain, the domain is reloaded at once: it is no longer held, and
EV_RESET names it. While a command of a record is waited for (R45), the release waits. A domain that is not held is not
released. -/
def Obligations.DomainResetsHoldAndReload : Prop :=
  (∀ (s : State) (d : Fin 21), s.quiet →
    (s.boot.inReset = none → s.boot.domActive = 0 → s.assay.ddrFailed = 0 → d.val ≤ 3 →
      ∃ t, exec (.domainReset (BitVec.ofNat 21 (2 ^ d.val))) s = .next t ∧
        t.boot = { s.boot with domActive := BitVec.ofNat 21 (2 ^ d.val) } ∧
        t.pwr = { s.pwr with dom := tput (fun _ => .off) d.val .off s.pwr.dom } ∧
        (ingressOf d.val s = [] → (seam (activeSide s) d.val s).partials = [] → t.tub = s.tub ∧ t.outs = s.outs ∧
          ∀ a, reg a t = if resetsWith d.val a = false ∨ inTime a = true then reg a s else resetValue a) ∧
        (∀ e ∈ t.cls.rules, e.1 / 16384 ≠ d.val) ∧
        SameBut [.free, .outs, .regs, .boot, .pwr, .dom, .recd, .ring, .seams, .tub, .sram, .dram, .sched, .ingress, .cls] s t) ∧
    (∀ mask, s.boot.inReset = none → s.boot.domActive ≠ 0 →
      exec (.domainReset mask) s = .next { s with boot := { s.boot with heldDomains := s.boot.heldDomains ||| mask } }) ∧
    (s.boot.inReset.isSome = true →
      exec (.domainReset (BitVec.ofNat 21 (2 ^ d.val))) s = .next (count Reg.CNT_RESET_MERGED s))) ∧
  (∀ (s : State) (d : Fin 21) (ups : List (Nat × Nat × Byte)), s.quiet →
    (s.boot.domActive.getLsbD d.val = false → exec (.domainResetRelease d ups) s = .next s) ∧
    (s.boot.domActive.getLsbD d.val = true → s.boot.inReset = none → s.boot.busyReg.isSome = true → s.boot.replay ≠ some d.val →
      (s.boot.releases.any (fun e => e.1 == d.val)) = false →
      exec (.domainResetRelease d ups) s =
        .next { s with boot := { s.boot with releases := s.boot.releases ++ [(d.val, ups)] } }) ∧
    (s.boot.domActive.getLsbD d.val = true → s.boot.inReset = none → s.boot.replay = none → s.boot.busyReg = none →
      s.boot.releases = [] → s.boot.heldDomains = 0 →
      ((upsetCache ups s.boot.cache).any (fun x => sectionUsed d.val x && crc32c x.body != x.crc) = true →
        ∃ t, exec (.domainResetRelease d ups) s = .next t ∧ t.boot.inReset = some .chain ∧ t.boot.lastSub = 2) ∧
      ((upsetCache ups s.boot.cache).any (fun x => sectionUsed d.val x && crc32c x.body != x.crc) = false →
        (imageRecords (upsetCache ups s.boot.cache)).filter (recordIn d.val) = [] →
        ∃ u, exec (.domainResetRelease d ups) s = .next (settleFaults u) ∧
          u.boot.domActive = s.boot.domActive &&& ~~~ BitVec.ofNat 21 (2 ^ d.val) ∧
          u.boot.lastKind = 5 ∧ u.boot.lastDomain = d.val ∧ u.boot.replay = none ∧ u.boot.inReset = none)))

/-- Completes, under conditions on the state and the operands alone: resetRelease, vioReady.
RESET_RELEASE and VIO_READY (R47 to R49, R56, R538): at the release the straps are sampled and EV_RESET is taken; start-up
goes on once VIO18 and VIO33 are within their ranges, with the straps and flashes of the release: both headers are
judged, a candidate is chosen, and the DRAM epoch (entry 32) advances; with no candidate the phase is NO_IMAGE. A reset of
the same kind that was held meanwhile begins at the release (R61).

VIO_READY lets the start-up that waits go on as the release would have (R538). -/
def Obligations.ReleaseStartsUpFromACandidate : Prop :=
  (∀ (s : State) (straps : Straps) (fa fb : FlashRead) (ddr refs : BitVec 4) (k : ResetKind), s.quiet →
    s.boot.inReset = some k → s.supply.vauxLost = false →
    let a := flashGen fa (keepValue 0 s)
    let b := flashGen fb (keepValue 0 s)
    (∀ h, s.boot.heldReset = some h →
      ∃ t, exec (.resetRelease straps fa fb ddr refs) s = .next t ∧ t.boot.inReset = some h.1 ∧ t.boot.lastSub = h.2 ∧
        t.boot.heldReset = none) ∧
    (s.boot.heldReset = none →
     ∃ t, exec (.resetRelease straps fa fb ddr refs) s = .next t ∧ t.boot.inReset = none ∧ t.boot.straps = straps ∧
      t.supply = { s.supply with disconnected := false } ∧
      (s.boot.vioReady = false → t.boot.phase = s.boot.phase ∧ t.boot.heldRelease = some ⟨straps, fa, fb, ddr, refs⟩) ∧
      (s.boot.vioReady = true →
        t.boot.genA = a ∧ t.boot.genB = b ∧ t.boot.codeA = flashCode fa (keepValue 0 s) ∧
        t.boot.codeB = flashCode fb (keepValue 0 s) ∧ t.boot.candidate = firstCandidate straps.imgsel a b ∧
        t.boot.refPresent = refs ∧ t.boot.lineRefHold = !refs.getLsbD 2 ∧
        (firstCandidate straps.imgsel a b = none → t.boot.phase = .noImage) ∧
        (firstCandidate straps.imgsel a b ≠ none → t.boot.phase = .loading)) ∧
      SameBut [.regs, .boot, .phase, .supply, .keep, .recd, .ring, .pwr, .dom, .tub] s t)) ∧
  (∀ (s : State) (r : ReleaseInputs), s.quiet → s.boot.inReset = none → s.boot.vioReady = false → s.boot.phase = .rom →
    s.boot.heldRelease = some r →
    ∃ t, exec .vioReady s = .next t ∧ t.boot.vioReady = true ∧
      t.boot.candidate = firstCandidate r.straps.imgsel (flashGen r.flashA (keepValue 0 s)) (flashGen r.flashB (keepValue 0 s)) ∧
      (t.boot.phase = .loading ∨ t.boot.phase = .noImage) ∧
      SameBut [.regs, .boot, .phase, .keep, .recd, .ring, .pwr, .dom, .tub] s t)

/-- Completes, under conditions on the state and the operands alone: imageVerifyDone, release, imageApply,
imgRecordBusyWait.
IMAGE_VERIFY_DONE (R49, R50, R52, R53): a valid candidate is loaded and the flashes are released; with the boot hold strap the
terminal stops in HELD, until RELEASE. An invalid one gives way to the other flash's, once; with none left the phase is
NO_IMAGE. RELEASE is ignored in any other phase.

IMAGE_APPLY and IMG_RECORD_BUSY_WAIT (R40, R43 to R45): the verified image is copied to the cache and its records are applied
in order. Shown for an image without records and for one whose only record writes a register that does nothing more: the
register takes (current value AND NOT MASK) OR (VALUE AND MASK) by its access codes, and the terminal then starts on the
preferred side. A record whose command stays busy is waited for; when its 10 ms run out it is skipped and counted. -/
def Obligations.ImagesAreVerifiedAndApplied : Prop :=
  (∀ s : State, s.quiet →
    (s.boot.phase = .held → exec .release s = .next { s with boot := { s.boot with phase := .applying } }) ∧
    (s.boot.phase ≠ .held → exec .release s = .next s) ∧
    ∀ (r : FlashRead) (flashB : Bool), s.boot.candidate = some flashB →
    ∃ t, exec (.imageVerifyDone r) s = .next t ∧
      ((verifyImage r s).1 = 1 →
        t.boot.image.isSome = true ∧ t.boot.srcB = flashB ∧ t.boot.flashReleased = true ∧ t.boot.candidate = none ∧
        (s.boot.straps.bootHold = true → t.boot.phase = .held) ∧
        (s.boot.straps.bootHold = false → t.boot.phase = s.boot.phase)) ∧
      ((verifyImage r s).1 ≠ 1 → t.boot.image = s.boot.image ∧
        (s.boot.secondTried = false → (if flashB then s.boot.genA else s.boot.genB).isSome = true →
          t.boot.candidate = some (!flashB) ∧ t.boot.secondTried = true ∧ t.boot.phase = s.boot.phase) ∧
        (s.boot.secondTried = true ∨ (if flashB then s.boot.genA else s.boot.genB) = none →
          t.boot.candidate = none ∧ t.boot.phase = .noImage)) ∧
      SameBut [.regs, .boot, .phase, .recd, .ring] s t) ∧
  (∀ (s : State) (im : Image), s.quiet → s.wf → s.boot.image = some im → s.boot.inReset = none → s.boot.lineRefHold = false →
    s.boot.applied = false → s.boot.busyReg = none → s.boot.replay = none → (s.boot.phase = .loading ∨ s.boot.phase = .applying) →
    (imageRecords im.sections = [] → partitionFaults s = 0 →
      ∃ t, exec .imageApply s = .next t ∧ t.boot.phase = .applying ∧ t.boot.applied = true ∧ t.boot.cache = im.sections ∧
        t.prot.active = (if rbit Reg.PROT_CTRL 0 s then 1 else 0) ∧ SameBut [.boot, .phase, .prot, .active] s t) ∧
    (∀ (r : ImageRecord) (row : RegRow) (a : Nat) (u : State), imageRecords im.sections = [r] → r.type = 2 → r.fragment = false →
      a = beAt r.bytes 0 4 → writeSkipped a = false → regRow a = some row → actsOnWrite a = false → isBusyReg a = false →
      u = setReg a (row.written (reg a s) (recordValue a (word (beAt r.bytes 4 4)) (word (beAt r.bytes 8 4))
        { s with boot := { s.boot with phase := .applying, cache := im.sections, records := [r] } }) 0) s →
      partitionFaults u = 0 →
      ∃ t, exec .imageApply s = .next t ∧ t.regs = u.regs ∧ t.boot.applied = true ∧ t.boot.phase = .applying ∧
        t.prot.active = (if rbit Reg.PROT_CTRL 0 u then 1 else 0) ∧ SameBut [.regs, .boot, .phase, .prot, .active] s t) ∧
    (∀ (v : State) (a : Nat) (r : ImageRecord), v.quiet → v.wf → v.boot.busyReg = some a → v.boot.records = [r] →
      v.boot.replay = none →
      (busyNow a v = true → exec (.imgRecordBusyWait false) v = .next v) ∧
      (busyNow a v = false → partitionFaults v = 0 → ∀ e, ∃ t, exec (.imgRecordBusyWait e) v = .next t ∧
        t.boot.busyReg = none ∧ t.boot.applied = true ∧ t.boot.records = [] ∧ t.regs = v.regs) ∧
      (busyNow a v = true → partitionFaults v = 0 → ∃ t, exec (.imgRecordBusyWait true) v = .next t ∧
        reg Reg.CNT_IMG_REC_SKIPPED t = satAdd (reg Reg.CNT_IMG_REC_SKIPPED v) 1 ∧ t.boot.busyReg = none ∧
        t.boot.applied = true)))

/-- Completes, under conditions on the state and the operands alone: evRefclkLoss, refclkRetry, refclkMeasure, evVinWarn,
vinWarnRepeat, evVinRecover, vauxLoss.
Reference inputs (R57, R547). EV_REFCLK_LOSS of an input that was there marks it missing; the line input starts the dip
commit, the chain and host input takes both chain ports and the host link down. An input measured within 500 ppm is shown
and present. REFCLK_RETRY lets a start-up held for the line input go on: the domains of step 3 come ON.

A dip episode (R64, R68, R69): EV_VIN_WARN below 10.4 V begins it with the frames dropped at 0, and of the domains the
shed names none stays ON: those that were ON are GATED; VIN_WARN_REPEAT below 10.4 V
belongs to the same episode, and is counted; EV_VIN_RECOVER at or above 10.6 V ends it, and the frames dropped are added to
CNT_DIP_FRAMES_LOST, and the gated domains that the ladder state has ON are ON again. VAUX_LOSS starts the commit from the
hold-up store (R541). -/
def Obligations.ReferencesAndSuppliesAreMonitored : Prop :=
  (∀ s : State, s.quiet → s.wf →
    (∀ n : Fin 4, s.boot.inReset = none → s.boot.refPresent.getLsbD n.val = true →
      ∃ t, exec (.evRefclkLoss n) s = .next t ∧
        t.boot = { s.boot with refPresent := s.boot.refPresent &&& ~~~ BitVec.ofNat 4 (2 ^ n.val) } ∧
        (n = 2 → t.supply.commitAt = some (s.supply.commitAt.getD s.cycle) ∧ t.prot.switching = none) ∧
        (n = 3 → t.chain.east.service = false ∧ t.chain.west.service = false ∧ t.host.link = false) ∧
        SameBut [.free, .outs, .regs, .boot, .supply, .recd, .ring, .prot, .tub, .sched, .ports, .lanes, .chain, .host] s t) ∧
    (∀ (n : Fin 4) (v : Int), 500 < v → s.boot.inReset = none →
      (s.boot.refOut.getLsbD n.val = false → n = 0 →
        ∃ t, exec (.refclkMeasure [some v, none, none, none]) s = .next t ∧
          t.boot = { s.boot with refOut := s.boot.refOut ||| 1 } ∧ SameBut [.regs, .boot] s t)) ∧
    (∀ n : Fin 4, s.boot.refPresent.getLsbD n.val = false → exec (.evRefclkLoss n) s = .next s) ∧
    (∀ v : Int, -500 ≤ v → v ≤ 500 →
      ∃ t, exec (.refclkMeasure [some v, none, none, none]) s = .next t ∧
        reg (Reg.GEN_REFCLK_PPM 0) t = word (twos 16 (clipSigned 16 (10 * v))) ∧
        t.boot = { s.boot with refOut := s.boot.refOut &&& ~~~ 1, refPresent := s.boot.refPresent ||| 1 } ∧
        RegsBut [Reg.GEN_REFCLK_PPM 0] s t ∧ SameBut [.regs, .boot] s t) ∧
    (∀ r, s.boot.lineRefHold = true → s.boot.heldRelease = some r →
      ∃ t, exec (.refclkRetry true) s = .next t ∧
        t.boot = { s.boot with lineRefHold := false, refPresent := s.boot.refPresent ||| 4 } ∧ t.tub.trained = true ∧
        t.tub.mappedOut = r.ddrFail ∧ (∀ d ∈ [0, 1, 2, 3, 4, 5, 6, 17, 18, 21], domState d t = .on) ∧
        SameBut [.regs, .boot, .recd, .ring, .pwr, .dom, .tub] s t) ∧
    exec (.refclkRetry false) s = .next s) ∧
  (∀ (s : State) (mv : BitVec 16), s.quiet → s.wf →
    (s.supply.warning = false → mv.toNat < 10400 → s.boot.inReset = none → s.pwr.entry = none → s.pwr.exitTo = none →
      ∃ t, exec (.evVinWarn mv) s = .next t ∧
        t.supply = { s.supply with vinMv := mv, warning := true, lowestMv := mv, dropped := 0 } ∧
        (∀ d, domState d t = if d ∈ shedDomains ∧ domState d s = .on then .gated else domState d s) ∧
        SameBut [.regs, .supply, .warning, .recd, .ring, .pwr, .dom] s t) ∧
    (s.supply.warning = true → mv.toNat < 10400 →
      ∃ t, exec (.vinWarnRepeat mv) s = .next t ∧
        t.supply = { s.supply with vinMv := mv, lowestMv := lowerMv s.supply.lowestMv mv } ∧
        reg Reg.CNT_VIN_WARN_REPEAT t = satAdd (reg Reg.CNT_VIN_WARN_REPEAT s) 1 ∧
        RegsBut [Reg.CNT_VIN_WARN_REPEAT] s t ∧ SameBut [.regs, .supply] s t) ∧
    (∀ us low, s.supply.warning = true → 10600 ≤ mv.toNat →
      ∃ t, exec (.evVinRecover mv us low) s = .next t ∧ t.supply.warning = false ∧ t.supply.heldAccepts = [] ∧
        t.supply.resumedCycle = some s.cycle ∧ t.supply.dropped = 0 ∧
        (s.pwr.suspended = false → s.pwr.ladder = 0 → ∀ d ∈ shedDomains, domState d t ≠ .gated) ∧
        SameBut [.free, .outs, .regs, .supply, .warning, .recd, .ring, .pwr, .dom, .votes, .tub, .sram, .dram, .sched, .ports,
          .join, .tally, .circuits, .lanes] s t) ∧
    (s.supply.vauxLost = false →
      exec .vauxLoss s = .next { s with supply := { s.supply with
        vauxLost := true, commitAt := some (s.supply.commitAt.getD s.cycle) } }))

/-! ### The line -/

/-- Completes, under conditions on the state and the operands alone: syncSighting, candidateExamine, evalPeriodEnd.
The search for the sync word (R87 to R90, R93). In HUNT and PRESYNC a sighting that passes the HEID check and the reference check
opens a candidate with run 1 and no confirmation; one beyond four candidates, or out of the reference, is counted only. A
candidate whose next header follows is confirmed; one whose position shows no header, or another, is dropped, and in the
second case its position is judged again. A seam that does not search takes neither command.

EVAL_PERIOD_END (R91, R92): the winner among the candidates with three confirmations takes the seam into SYNC, with LOF cleared
and every other candidate dropped; bursts carry REI 0 until a window completes (R108), and LINE_REI_LAST goes on showing the
last window completed (R111); of several that qualify EV_ALIGN_AMBIGUOUS is recorded and counted. Where none
qualifies, or the seam is not in PRESYNC, nothing happens. -/
def Obligations.SightingsBringASeamIntoSync : Prop :=
  (∀ (s : State) (side : Fin 2) (n : Fin 4) (o : Fin 13273600) (w : Codeword), s.quiet → s.wf → w.length = 544 →
    let x := seam side.val n.val s
    let heidOk := fun (b : Bytes) => rbit (Reg.LINE_CTRL side.val n.val) 8 s = false ∨
      (hdrHeid b).toNat = rfld (Reg.LINE_HEID_EXP side.val n.val) 15 0 s
    let fcOk := fun (b : Bytes) => ∀ r, refFc side.val n.val s = some r → fcNear (hdrFc b) r = true
    (searching side.val n.val s = false →
      exec (.syncSighting side n o w) s = .next s ∧ exec (.candidateExamine side n o w) s = .next s) ∧
    (sightingHeader side.val n.val w s = none → exec (.syncSighting side n o w) s = .next s) ∧
    (x.cands.find? (fun c => c.offset == o.val) = none → exec (.candidateExamine side n o w) s = .next s) ∧
    (∀ b, searching side.val n.val s = true → sightingHeader side.val n.val w s = some b → heidOk b →
      x.cands.all (fun c => c.offset != o.val) = true →
      (fcOk b → x.cands.length < 4 → ∃ t, exec (.syncSighting side n o w) s = .next t ∧
        (seam side.val n.val t).cands
          = x.cands ++ [{ offset := o.val, run := 1, conf := 0, fc := hdrFc b, heid := hdrHeid b }] ∧
        (seam side.val n.val t).heid = hdrHeid b ∧ (seam side.val n.val t).align = x.align ∧ SameBut [.seams] s t) ∧
      (fcOk b → 4 ≤ x.cands.length → ∃ t, exec (.syncSighting side n o w) s = .next t ∧
        (seam side.val n.val t).cands = x.cands ∧
        reg (Reg.CNT_ALIGN_CAND_FULL side.val n.val) t = satAdd (reg (Reg.CNT_ALIGN_CAND_FULL side.val n.val) s) 1 ∧
        RegsBut [Reg.CNT_ALIGN_CAND_FULL side.val n.val] s t ∧ SameBut [.regs, .seams] s t) ∧
      (¬ fcOk b → ∃ t, exec (.syncSighting side n o w) s = .next t ∧ (seam side.val n.val t).cands = x.cands ∧
        reg (Reg.CNT_ALIGN_FC_REJECT side.val n.val) t = satAdd (reg (Reg.CNT_ALIGN_FC_REJECT side.val n.val) s) 1 ∧
        RegsBut [Reg.CNT_ALIGN_FC_REJECT side.val n.val] s t ∧ SameBut [.regs, .seams] s t)) ∧
    (∀ c, searching side.val n.val s = true → x.cands.find? (fun c => c.offset == o.val) = some c →
      (∀ b, sightingHeader side.val n.val w s = some b → hdrFc b = c.fc + 1 →
        ∃ t, exec (.candidateExamine side n o w) s = .next t ∧ (seam side.val n.val t).align = .presync ∧
          (seam side.val n.val t).cands.find? (fun c => c.offset == o.val)
            = some { c with run := c.run + 1, conf := c.conf + 1, fc := c.fc + 1, heid := hdrHeid b } ∧
          SameBut [.seams] s t) ∧
      (sightingHeader side.val n.val w s = none → ∃ t, exec (.candidateExamine side n o w) s = .next t ∧
        (seam side.val n.val t).cands = x.cands.filter (fun c => c.offset != o.val) ∧ SameBut [.seams] s t) ∧
      (∀ b, sightingHeader side.val n.val w s = some b → hdrFc b ≠ c.fc + 1 → heidOk b → fcOk b → x.cands.length ≤ 4 →
        ∃ t, exec (.candidateExamine side n o w) s = .next t ∧
          (seam side.val n.val t).cands = x.cands.filter (fun c => c.offset != o.val)
            ++ [{ offset := o.val, run := 1, conf := 0, fc := hdrFc b, heid := hdrHeid b }] ∧ SameBut [.seams] s t))) ∧
  (∀ (s : State) (side : Fin 2) (n : Fin 4), s.quiet → s.wf →
    let x := seam side.val n.val s
    let q := x.cands.filter (fun c => 3 ≤ c.conf)
    (x.align ≠ .presync ∨ x.los = true ∨ q = [] → exec (.evalPeriodEnd side n) s = .next s) ∧
    (x.align = .presync → x.los = false → q ≠ [] → ∃ t c, exec (.evalPeriodEnd side n) s = .next t ∧ c ∈ q ∧
      (∀ d ∈ q, d.run ≤ c.run) ∧
      (seam side.val n.val t).align = .sync ∧ (seam side.val n.val t).fc = c.fc ∧ (seam side.val n.val t).cands = [] ∧
      (seam side.val n.val t).lof = false ∧ (seam side.val n.val t).lomf = false ∧
      (seam side.val n.val t).rei = 0 ∧ reg (Reg.LINE_REI_LAST side.val n.val) t = reg (Reg.LINE_REI_LAST side.val n.val) s ∧
      SameBut [.free, .outs, .regs, .keep, .recd, .ring, .prot, .seams, .tub, .sram, .dram, .sched, .join] s t ∧
      (side.val ≠ activeSide s →
        reg (Reg.CNT_ALIGN_AMBIGUOUS side.val n.val) t
          = (if 1 < q.length then satAdd (reg (Reg.CNT_ALIGN_AMBIGUOUS side.val n.val) s) 1
             else reg (Reg.CNT_ALIGN_AMBIGUOUS side.val n.val) s) ∧
        SameBut [.regs, .recd, .ring, .seams] s t)))

/-- Completes, under conditions on the state and the operands alone: downstreamFrame.
DOWNSTREAM_FRAME (R92, R94, R95). A seam that is not in SYNC takes nothing. On the side that is not active: a valid header whose
FC follows is used; one that is not valid lets the FC count on, is counted in CNT_HDR_CRC_ERR and CNT_SHIFT_LOST; the
fourth bad sync word in a row declares LOF and returns the seam to HUNT. On the active side, whatever the frame holds,
the header that follows is used too and the seam stays in SYNC. -/
def Obligations.SyncFollowsTheHeader : Prop :=
  ∀ (s : State) (side : Fin 2) (n : Fin 4) (w : Codeword) (ws : List Codeword) (late : BitVec 32), s.quiet → s.wf →
    (w :: ws).length ≤ 2440 → (∀ v ∈ w :: ws, v.length = 544) →
    let x := seam side.val n.val s
    let c := Instr.downstreamFrame side n (w :: ws) late
    (x.align ≠ .sync → exec c s = .next s) ∧
    (x.align = .sync → syncBad side.val n.val (w :: ws) s = false → rbit (Reg.LINE_CTRL side.val n.val) 8 s = false →
      (∀ b, headerOf w = some b → headerValid b = true → hdrFc b = x.fc + 1 → (side.val = activeSide s → s.pwr.ladder < 2) →
        ∃ t, exec c s = .next t ∧ (seam side.val n.val t).fc = hdrFc b ∧ (seam side.val n.val t).align = .sync ∧
          (seam side.val n.val t).jump = none ∧ (seam side.val n.val t).badSync = 0 ∧
          (seam side.val n.val t).heid = hdrHeid b ∧
          (side.val ≠ activeSide s → SameBut [.regs, .recd, .ring, .seams] s t)) ∧
      ((∀ b, headerOf w = some b → headerValid b = false) → side.val ≠ activeSide s →
        ∃ t, exec c s = .next t ∧ (seam side.val n.val t).fc = x.fc + 1 ∧ (seam side.val n.val t).align = .sync ∧
          reg (Reg.CNT_HDR_CRC_ERR side.val n.val) t = satAdd (reg (Reg.CNT_HDR_CRC_ERR side.val n.val) s) 1 ∧
          reg (Reg.CNT_SHIFT_LOST side.val n.val) t = satAdd (reg (Reg.CNT_SHIFT_LOST side.val n.val) s) 1 ∧
          SameBut [.regs, .recd, .ring, .seams] s t)) ∧
    (x.align = .sync → syncBad side.val n.val (w :: ws) s = true → x.badSync = 3 → side.val ≠ activeSide s →
      ∃ t, exec c s = .next t ∧ (seam side.val n.val t).align = .hunt ∧ (seam side.val n.val t).lof = true ∧
        reg (Reg.CNT_LOF_ENTRY side.val n.val) t = satAdd (reg (Reg.CNT_LOF_ENTRY side.val n.val) s) 1 ∧
        (x.partials = [] → SameBut [.regs, .recd, .ring, .seams] s t) ∧
        SameBut [.free, .outs, .regs, .recd, .ring, .seams, .tub, .sram, .dram, .sched] s t)

/-- Completes, under conditions on the state and the operands alone: sideDomainUp, sideDomainDown, losDeclare, losClear,
sdWindowEnd, sfWindowEnd.
The defects of R99. LOS is declared by the sources LINE_CTRL.LOS_SRC selects and takes the seam to HUNT, from SYNC with LOF; it
clears where they show signal and the lane is not retired. A completed SD window, and a completed SF window, declare or
clear by their thresholds and give LINE_BER_LAST, and LINE_REI_LAST with the REI counts of bursts. A fault event that SEAM
counts is settled at the end of the command.

R92: a side's domain coming up puts every seam of the side into HUNT with LOF declared, and LOS too on a retired receive lane;
going down it clears every defect. A domain already there takes nothing, and a domain that nothing keeps ON does not come up:
the cold side is powered only by the votes of R17. -/
def Obligations.DefectsAndSidesComeAndGo : Prop :=
  (∀ (s : State) (side : Fin 2) (n : Fin 4) (sd energy : Bool), s.quiet → s.wf →
    let x := seam side.val n.val s
    (sourcesLost side.val n.val sd energy s = false ∨ x.align = .off ∨ x.los = true →
      exec (.losDeclare side n sd energy) s = .next s) ∧
    (sourcesLost side.val n.val sd energy s = true → x.align ≠ .off → x.los = false →
      ∃ u, exec (.losDeclare side n sd energy) s = .next (settleFaults u) ∧
        (seam side.val n.val u).los = true ∧ (seam side.val n.val u).align = .hunt ∧ (seam side.val n.val u).cands = [] ∧
        (x.align = .sync → (seam side.val n.val u).lof = true) ∧
        SameBut [.free, .outs, .regs, .recd, .ring, .assay, .faultsIn, .seams, .tub, .sram, .dram, .sched, .join] s u ∧
        (side.val ≠ activeSide s → settleFaults u = u ∧ (reg (Reg.LINE_DEFECT side.val n.val) u).getLsbD 0 = true ∧
          (x.partials = [] → SameBut [.regs, .recd, .ring, .seams] s u))) ∧
    (x.los = false ∨ sourcesPresent side.val n.val sd energy s = false →
      ∃ t, exec (.losClear side n sd energy) s = .next t ∧ SameBut [.prot] s t) ∧
    (x.los = true → laneRetired (lineRx side.val n.val) s = false → sourcesPresent side.val n.val sd energy s = true →
      ∃ t, exec (.losClear side n sd energy) s = .next t ∧ (seam side.val n.val t).los = false ∧
        (seam side.val n.val t).align = x.align ∧ (seam side.val n.val t).lof = x.lof ∧
        SameBut [.regs, .recd, .ring, .prot, .seams] s t) ∧
    (x.sdClosed = [] → exec (.sdWindowEnd side n) s = .next s) ∧
    (∀ e rest, x.sdClosed = e :: rest → ∃ t, exec (.sdWindowEnd side n) s = .next t ∧
      reg (Reg.LINE_BER_LAST side.val n.val) t = satAdd 0 e ∧ (seam side.val n.val t).sdClosed = rest ∧
      (seam side.val n.val t).sd = (if x.sd then decide ((reg (Reg.LINE_SD_CLR side.val n.val) s).toNat < e)
        else decide ((reg (Reg.LINE_SD_SET side.val n.val) s).toNat < e)) ∧
      SameBut [.regs, .recd, .ring, .seams] s t) ∧
    (∀ corr unc rest, x.sfClosed = (corr, unc) :: rest →
      ∃ u, exec (.sfWindowEnd side n) s = .next (settleFaults u) ∧
        let thr := rfld (Reg.LINE_SF_CTRL side.val n.val) 14 0 s
        let good := if unc ≤ thr then x.sfGood + 1 else 0
        reg (Reg.LINE_REI_LAST side.val n.val) u = word (at' 16 unc + corr) ∧ (seam side.val n.val u).sfClosed = rest ∧
        (seam side.val n.val u).rei = word (at' 16 unc + corr) ∧
        (seam side.val n.val u).sf = (if x.sf then decide (good < rfld (Reg.LINE_SF_CTRL side.val n.val) 23 16 s)
          else decide (thr < unc)) ∧
        SameBut [.regs, .recd, .ring, .assay, .faultsIn, .prot, .seams] s u)) ∧
  (∀ (s : State) (side : Fin 2), s.quiet → s.wf →
    (domState (lineDomain side.val) s = .on ∨ sideKept side.val s = false → exec (.sideDomainUp side) s = .next s) ∧
    (sideKept side.val s = true → domState (lineDomain side.val) s ≠ .on → ∃ u, exec (.sideDomainUp side) s = .next (settleFaults u) ∧
      u.pwr = { s.pwr with dom := tput (fun _ => .off) (lineDomain side.val) .on s.pwr.dom } ∧
      (∀ n : Fin 4, (seam side.val n.val u).align = .hunt ∧ (seam side.val n.val u).lof = true ∧
        (seam side.val n.val u).los = laneRetired (lineRx side.val n.val) s ∧
        (seam side.val n.val u).cands = [] ∧ reg (Reg.CNT_LOF_ENTRY side.val n.val) u = 0) ∧
      (∀ n : Fin 4, seam (1 - side.val) n.val u = seam (1 - side.val) n.val s) ∧
      SameBut [.regs, .latch, .recd, .ring, .pwr, .dom, .assay, .faultsIn, .seams, .lanes] s u) ∧
    (domState (lineDomain side.val) s = .off → exec (.sideDomainDown side) s = .next s) ∧
    (domState (lineDomain side.val) s ≠ .off → ∃ t, exec (.sideDomainDown side) s = .next t ∧
      t.pwr = { s.pwr with dom := tput (fun _ => .off) (lineDomain side.val) .off s.pwr.dom } ∧ (∀ n : Fin 4, seam side.val n.val t = SeamState.reset) ∧
      (side.val = activeSide s → t.prot.failed = false) ∧ (side.val ≠ activeSide s → t.prot = s.prot ∧ t.join = s.join) ∧
      (∀ n : Fin 4, seam (1 - side.val) n.val t = seam (1 - side.val) n.val s) ∧
      SameBut [.free, .outs, .regs, .latch, .recd, .ring, .pwr, .dom, .prot, .seams, .tub, .sram, .dram, .sched, .join, .lanes] s t))

/-! ### Identities, line management and bursts -/

/-- Completes, under conditions on the state and the operands alone: allocAssign, keyEpoch, burstProfile, dozeGrant,
echoRequest, timeOfDay.
R141: a message that concerns no identity of this terminal is not acted on; a duplicate, with the TYPE and SEQ of the last message
the identity acted on, is acknowledged again and not acted on again.

The other messages of the head end: ALLOC_ASSIGN gives and removes allocations 1 to 7 (R149, R150); KEY_EPOCH names the pending
epoch, or answers KEY_READY for one in force (R434, R435); BURST_PROFILE stores a profile of the active side (R117); DOZE_GRANT
begins and ends a doze (R153, R158), or counts where the identity or the
terminal woke in the tick (R157); ECHO_REQUEST is answered with its data (R142); TIME_OF_DAY gives the LINE offset on the
seam that gives the tick (R392). -/
def Obligations.MessagesAreActedOnAndSetTheirState : Prop :=
  (∀ (s : State) (m : LmmHead) (alloc : BitVec 14) (remove : Bool) (k : BitVec 3) (eqd : BitVec 26) (eff : BitVec 48)
    (epoch us : Word) (st : BitVec 3) (period aware : BitVec 16) (data : BitVec 288), s.quiet → s.wf →
    (concerned m s = [] →
      exec (.rangingTime m eqd eff remove) s = .next s ∧ exec (.allocAssign m alloc remove k) s = .next s ∧
      exec (.deactivate m) s = .next s ∧ exec (.hold m remove) s = .next s ∧ exec (.keyEpoch m remove epoch eff) s = .next s ∧
      exec (.dozeGrant m st period aware) s = .next s ∧ exec (.echoRequest m data) s = .next s ∧
      exec (.resumeAck m epoch us) s = .next s) ∧
    (∀ (i : Nat) (type : Nat) (c : Instr), m.tn ≠ 0xFFF → concerned m s = [i] →
      (ident i s).lastMsg = some (type, m.seq.toNat) →
      (type = 2 ∧ eqd.toNat ≤ 53094400 ∧ c = .rangingTime m eqd eff remove) ∨ (type = 3 ∧ c = .allocAssign m alloc remove k) ∨
      (type = 4 ∧ c = .deactivate m) ∨ (type = 6 ∧ c = .hold m remove) ∨ (type = 7 ∧ c = .keyEpoch m remove epoch eff) ∨
      (type = 9 ∧ c = .dozeGrant m st period aware) ∨ (type = 10 ∧ c = .echoRequest m data) ∨
      (type = 11 ∧ c = .resumeAck m epoch us) →
      exec c s = .next (if m.ackReq then
        modIdent i (fun x => { x with msgs := x.msgs
          ++ [{ type := 0x83, body := [BitVec.ofNat 8 type, BitVec.ofNat 8 m.seq.toNat], after := some m.fc }] }) s else s))) ∧
  (∀ (s : State) (m : LmmHead) (i : Fin 128), s.quiet → s.wf →
    let x := ident i.val s
    let fresh := fun (type : Nat) => concerned m s = [i.val] ∧ (m.tn = 0xFFF ∨ x.lastMsg ≠ some (type, m.seq.toNat))
    let others := fun (t : State) => ∀ j, j ≠ i.val → ident j t = ident j s
    (∀ (id : BitVec 14) (k : BitVec 3), fresh 3 → k.toNat ≠ 0 → 4096 ≤ id.toNat → id.toNat ≤ 16382 →
      ((∀ e ∈ allocHolders id.toNat s, e = (i.val, k.toNat)) → ∃ t, exec (.allocAssign m id false k) s = .next t ∧
        tget (fun _ => 0) (ident i.val t).allocs k.toNat = id.toNat ∧ (ident i.val t).phase = x.phase ∧ others t ∧
        SameBut [.free, .outs, .regs, .keep, .recd, .ring, .tub, .sram, .dram, .sched, .join] s t) ∧
      (hasAlloc i.val k.toNat s = true → ∃ t, exec (.allocAssign m id true k) s = .next t ∧
        (ident i.val t).allocs = tput (fun _ => 0) k.toNat 0 x.allocs ∧ others t ∧
        SameBut [.free, .outs, .regs, .keep, .recd, .ring, .tub, .sram, .dram, .sched, .join] s t)) ∧
    (∀ (id : BitVec 14) (k : BitVec 3) (remove : Bool), fresh 3 → k = 0 ∨ id.toNat < 4096 ∨ id.toNat = 16383 →
      exec (.allocAssign m id remove k) s = .next (count Reg.CNT_LMM_REJECT s)) ∧
    (∀ (up : Bool) (epoch : Word) (fc : BitVec 48), fresh 7 →
      ((keyDir i.val up s).cur.epoch ≠ epoch → ∃ t, exec (.keyEpoch m up epoch fc) s = .next t ∧
        (keyDir i.val up t).pend.map (·.epoch) = some epoch ∧ (keyDir i.val up t).pendFc = fc ∧
        (keyDir i.val up t).cur.epoch = (keyDir i.val up s).cur.epoch ∧
        { ident := i.val, up := up, pend := true, ready := true } ∈ t.ciph.jobs ∧ others t ∧ SameBut [.regs, .join, .ciph] s t) ∧
      ((keyDir i.val up s).cur.epoch = epoch → (keyDir i.val up s).cur.key.isSome = true → m.ackReq = false →
        ∃ t, exec (.keyEpoch m up epoch fc) s = .next t ∧ (ident i.val t).msgs = x.msgs
          ++ [{ type := 0x87, body := [BitVec.ofNat 8 (b2n up), 0, 0, 0] ++ beBytes 4 epoch.toNat, after := none }] ∧
          others t ∧ SameBut [.join] s t)) ∧
    (∀ (p : BitVec 3) (preamble : BitVec 10) (pattern : Word) (delimiter : BitVec 64), m.tn = 0xFFF →
      (preamble = 0 → exec (.burstProfile m p preamble pattern delimiter) s = .next (count Reg.CNT_LMM_REJECT s)) ∧
      (preamble ≠ 0 → s.keep.failedDie = none → s.keep.failedUnits = [] →
        (∀ w, w < 4 → (keepEntry (profileEntry (activeSide s) p.toNat w) s).wear + 1 < 500000000000) →
        ∃ t, exec (.burstProfile m p preamble pattern delimiter) s = .next t ∧
          keepValue (profileEntry (activeSide s) p.toNat 0) t = word (2 ^ 31 + preamble.toNat) ∧
          keepValue (profileEntry (activeSide s) p.toNat 1) t = pattern ∧
          keepValue (profileEntry (activeSide s) p.toNat 2) t = delimiter.extractLsb' 32 32 ∧
          keepValue (profileEntry (activeSide s) p.toNat 3) t = delimiter.extractLsb' 0 32 ∧
          (∀ j, (ident j t).msgs = (if j ∈ concerned m s ∧ m.ackReq = true then (ident j s).msgs
            ++ [{ type := 0x83, body := [8, BitVec.ofNat 8 m.seq.toNat], after := some m.fc }] else (ident j s).msgs)) ∧
          SameBut [.keep, .join] s t)) ∧
    (∀ (st : BitVec 3) (period aware : BitVec 16), fresh 9 → m.ackReq = false →
      (x.phase ≠ .serving ∨ 3 < st.toNat → exec (.dozeGrant m st period aware) s = .next (count Reg.CNT_LMM_REJECT s)) ∧
      (x.phase = .serving → x.wokeAt ≠ some s.tick.count → s.pwr.wakeAt ≠ some s.tick.count → st = 0 →
        ∃ t, exec (.dozeGrant m st period aware) s = .next t ∧
          (ident i.val t).doze = (dozeOf i.val s).map (fun d => { d with ends := some (d.ends.getD (m.fc + 1)) }) ∧
          (ident i.val t).grantAt = some s.tick.count ∧ others t ∧ SameBut [.join] s t) ∧
      (x.phase = .serving → 1 ≤ st.toNat → st.toNat ≤ 2 → 8 ≤ period.toNat → 2 ≤ aware.toNat → aware.toNat < period.toNat →
        (x.wokeAt = some s.tick.count ∨ s.pwr.wakeAt = some s.tick.count → ∃ t, exec (.dozeGrant m st period aware) s = .next t ∧
          reg Reg.CNT_DOZE_ABORT t = reg Reg.CNT_DOZE_ABORT (count Reg.CNT_DOZE_ABORT s) ∧
          (ident i.val t).doze = x.doze ∧ others t ∧ SameBut [.regs, .join] s t) ∧
        (x.wokeAt ≠ some s.tick.count → s.pwr.wakeAt ≠ some s.tick.count →
          ∃ t, exec (.dozeGrant m st period aware) s = .next t ∧
            (ident i.val t).doze
              = some { state := st.toNat, f0 := m.fc + 8, period := period.toNat, aware := aware.toNat, ends := none } ∧
            (ident i.val t).grantAt = some s.tick.count ∧ others t ∧ SameBut [.join] s t))) ∧
    (∀ data : BitVec 288, fresh 10 → m.ackReq = false → ∃ t, exec (.echoRequest m data) s = .next t ∧
      (ident i.val t).msgs = x.msgs ++ [{ type := 0x85, body := beBytes 36 data.toNat, after := none }] ∧
      others t ∧ SameBut [.join] s t) ∧
    (∀ (mark : BitVec 48) (seconds : BitVec 64) (ns : Word) (frac : BitVec 16), m.tn = 0xFFF →
      (s.tick.line = false ∨ s.tick.side.val ≠ activeSide s ∨ s.tick.seam ≠ m.seam →
        exec (.timeOfDay m mark seconds ns frac) s = .next s) ∧
      (s.tick.line = true → s.tick.side.val = activeSide s → s.tick.seam = m.seam →
        (7 < (m.fc - mark).toNat →
          exec (.timeOfDay m mark seconds ns frac) s = .next (count Reg.CNT_LMM_REJECT s)) ∧
        ((m.fc - mark).toNat ≤ 7 → (∀ e ∈ (seam (activeSide s) m.seam.val s).stamps, e.1 ≠ mark) →
          exec (.timeOfDay m mark seconds ns frac) s
            = .next (each (concerned m s) (ackLmm m 12) (count Reg.CNT_TIME_TOD_STALE s))) ∧
        (∀ stamp, (m.fc - mark).toNat ≤ 7 →
          (seam (activeSide s) m.seam.val s).stamps.find? (fun e => e.1 == mark) = some (mark, stamp) → s.time.sel = 1 →
          exec (.timeOfDay m mark seconds ns frac) s = .next (each (concerned m s) (ackLmm m 12) { s with time := { s.time with
            lastTod := some s.cycle,
            offsetPs := some (lineOffsetPs (stamp * 2 ^ 16) ((seconds.toNat * 10 ^ 9 + ns.toNat) * 2 ^ 16 + frac.toNat)
              (lineDelayPs (rfld Reg.TIME_LINE_TEQ 21 0 s) (eqdAt (activeSide s) mark s)
                (signed 32 (reg Reg.TIME_LINE_ASYM s).toNat))) } })))))

/-- Completes, under conditions on the state and the operands alone: assignTn, rangingTime, resumeAck, joinTimeout,
resumeTimeout.
How an identity registers (R144, R147): ASSIGN_TN takes it from Announcing to Ranging with the TN, RANGING_TIME to Serving with the
EqD taking effect, RESUME_ACK from Held to Serving; the join and the resume timer end it in Listening without a TN. What
a message may not do is counted in CNT_LMM_REJECT. -/
def Obligations.RegistrationFollowsTheMessages : Prop :=
  ∀ (s : State) (m : LmmHead) (i : Fin 128) (idser : BitVec 64) (tn : BitVec 12) (eqd : BitVec 26) (eff : BitVec 48)
    (ds us : Word), s.quiet → s.wf →
    let x := ident i.val s
    let fresh := fun (type : Nat) => concerned m s = [i.val] ∧ (m.tn = 0xFFF ∨ x.lastMsg ≠ some (type, m.seq.toNat))
    (identOfSerial idser.toNat = none → exec (.assignTn m idser tn) s = .next s) ∧
    (identOfSerial idser.toNat = some i.val → tn = 0xFFF ∨ (x.phase ≠ .announcing ∧ ¬ (holdsTn x = true ∧ x.tn = some tn)) →
      exec (.assignTn m idser tn) s = .next (count Reg.CNT_LMM_REJECT s)) ∧
    (identOfSerial idser.toNat = some i.val → tn ≠ 0xFFF → x.phase = .announcing →
      ((identOfTn tn.toNat s).isSome = true →
        ∃ t, exec (.assignTn m idser tn) s = .next t ∧ t.join = s.join ∧ SameBut [.regs, .recd, .ring] s t) ∧
      (identOfTn tn.toNat s = none → ∃ t, exec (.assignTn m idser tn) s = .next t ∧ (ident i.val t).phase = .ranging ∧
        (ident i.val t).tn = some tn ∧ (ident i.val t).timer = some s.cycle ∧ (ident i.val t).heid = heidHeard m s ∧
        (ident i.val t).allocs = [] ∧
        (ident i.val t).msgs = (if m.ackReq then
          [{ type := 0x83, body := [1, BitVec.ofNat 8 m.seq.toNat], after := some m.fc }] else []) ∧
        (∀ j, j ≠ i.val → ident j t = ident j s) ∧ SameBut [.regs, .recd, .ring, .join] s t)) ∧
    (concerned m s ≠ [] → 53094400 < eqd.toNat →
      exec (.rangingTime m eqd eff true) s = .next (count Reg.CNT_LMM_REJECT s)) ∧
    (fresh 2 → eqd.toNat ≤ 53094400 → ∃ t, exec (.rangingTime m eqd eff true) s = .next t ∧
      (ident i.val t).phase = (if x.phase = .ranging then .serving else x.phase) ∧ (ident i.val t).tn = x.tn ∧
      t.join.eqdNext = s.join.eqdNext.filter (fun e => e.1 != activeSide s || serialBelow 48 e.2.1.toNat (m.fc + 2).toNat)
        ++ [(activeSide s, m.fc + 2, eqd.toNat)] ∧
      (∀ j, j ≠ i.val → ident j t = ident j s) ∧
      SameBut [.free, .outs, .regs, .keep, .recd, .ring, .tub, .sram, .dram, .sched, .join, .tally] s t) ∧
    (fresh 11 → x.phase = .held → x.cause ≠ .head → ∃ t, exec (.resumeAck m ds us) s = .next t ∧
      (ident i.val t).phase = .serving ∧ (ident i.val t).tn = x.tn ∧ (ident i.val t).timer = none ∧
      (∀ j, j ≠ i.val → ident j t = ident j s) ∧
      SameBut [.free, .outs, .regs, .keep, .recd, .ring, .tub, .sram, .dram, .sched, .join, .ciph, .tally] s t) ∧
    (fresh 11 → x.phase ≠ .held ∨ x.cause = .head →
      exec (.resumeAck m ds us) s = .next (count Reg.CNT_LMM_REJECT s)) ∧
    (x.phase ≠ .ranging ∨ x.timer = none → exec (.joinTimeout i) s = .next s) ∧
    (x.phase = .ranging → x.timer.isSome = true → ∃ t, exec (.joinTimeout i) s = .next t ∧
      (ident i.val t).phase = .listening ∧ (ident i.val t).tn = none ∧ (ident i.val t).allocs = [] ∧
      (∀ j, j ≠ i.val → ident j t = ident j s) ∧ SameBut [.free, .outs, .regs, .recd, .ring, .tub, .sram, .dram, .sched, .join] s t) ∧
    (x.phase ≠ .held ∨ x.cause = .head ∨ x.timer = none → exec (.resumeTimeout i) s = .next s) ∧
    (x.phase = .held → x.cause ≠ .head → x.timer.isSome = true → ∃ t, exec (.resumeTimeout i) s = .next t ∧
      (ident i.val t).phase = .listening ∧ (ident i.val t).tn = none ∧ (ident i.val t).allocs = [] ∧
      (∀ j, j ≠ i.val → ident j t = ident j s) ∧ SameBut [.free, .outs, .regs, .keep, .recd, .ring, .tub, .sram, .dram, .sched, .join] s t)

/-- Completes, under conditions on the state and the operands alone: deactivate, expel, hold, unexpel.
How the head end ends and suspends a registration (R141, R144): DEACTIVATE returns the identity to Listening, EXPEL takes it to
Expelled and, enabling, back to Listening, as UNEXPEL does; HOLD takes it from Serving to Held with cause HEAD and its
release back. What may not be is counted in CNT_LMM_REJECT. -/
def Obligations.HeadEndEndsAndHolds : Prop :=
  ∀ (s : State) (m : LmmHead) (i : Fin 128) (idser : BitVec 64), s.quiet → s.wf →
    let x := ident i.val s
    let fresh := fun (type : Nat) => concerned m s = [i.val] ∧ (m.tn = 0xFFF ∨ x.lastMsg ≠ some (type, m.seq.toNat))
    (fresh 4 → ∃ t, exec (.deactivate m) s = .next t ∧ (ident i.val t).phase = .listening ∧ (ident i.val t).tn = none ∧
      (ident i.val t).allocs = [] ∧ (∀ j, j ≠ i.val → ident j t = ident j s) ∧
      SameBut [.free, .outs, .regs, .keep, .recd, .ring, .tub, .sram, .dram, .sched, .join] s t) ∧
    (identOfSerial idser.toNat = none → ∀ e, exec (.expel m idser e) s = .next s) ∧
    (identOfSerial idser.toNat = some i.val →
      (x.phase = .expelled → exec (.expel m idser false) s = .next s) ∧
      (x.phase = .parked → exec (.expel m idser false) s = .next (count Reg.CNT_LMM_REJECT s)) ∧
      (x.phase ≠ .expelled → x.phase ≠ .parked → ∃ t, exec (.expel m idser false) s = .next t ∧
        (ident i.val t).phase = .expelled ∧ (ident i.val t).tn = none ∧ (ident i.val t).allocs = [] ∧
        (∀ j, j ≠ i.val → ident j t = ident j s) ∧
        SameBut [.free, .outs, .regs, .keep, .recd, .ring, .tub, .sram, .dram, .sched, .join] s t) ∧
      (x.phase = .expelled → ∃ t, exec (.expel m idser true) s = .next t ∧ (ident i.val t).phase = .listening ∧
        (∀ j, j ≠ i.val → ident j t = ident j s) ∧ SameBut [.regs, .keep, .recd, .ring, .join] s t)) ∧
    (judge (Reg.JOIN_ID_CFG i.val) s = .perform →
      (x.phase ≠ .expelled → exec (.unexpel i) s = .next s) ∧
      (x.phase = .expelled → ∃ t, exec (.unexpel i) s = .next t ∧ (ident i.val t).phase = .listening ∧
        (∀ j, j ≠ i.val → ident j t = ident j s) ∧ SameBut [.regs, .keep, .recd, .ring, .join] s t)) ∧
    (fresh 6 →
      (x.phase = .serving → ∃ t, exec (.hold m false) s = .next t ∧ (ident i.val t).phase = .held ∧
        (ident i.val t).cause = .head ∧ (ident i.val t).tn = x.tn ∧ (ident i.val t).allocs = x.allocs ∧
        (∀ j, j ≠ i.val → ident j t = ident j s) ∧ SameBut [.regs, .recd, .ring, .join] s t) ∧
      (x.phase = .held → x.cause = .head → ∃ t, exec (.hold m true) s = .next t ∧ (ident i.val t).phase = .serving ∧
        (ident i.val t).tn = x.tn ∧ (∀ j, j ≠ i.val → ident j t = ident j s) ∧
        SameBut [.free, .outs, .regs, .recd, .ring, .tub, .sram, .dram, .sched, .join, .tally] s t) ∧
      (x.phase ≠ .serving → exec (.hold m false) s = .next (count Reg.CNT_LMM_REJECT s)) ∧
      (x.phase ≠ .held ∨ x.cause ≠ .head → exec (.hold m true) s = .next (count Reg.CNT_LMM_REJECT s)))

/-- Completes, under conditions on the state and the operands alone: upstreamBurst, announce, rangingReply, ack,
dozeRequest, dozeWake, dozeTimer, bondGapTimerExpiry.
What leaves for the identities (R122, R127, R145, R146, R152, R155, R156): an ACK waits for a grant with the frame it answers; a
burst placed for an identity in Serving leaves with the coded messages of its records, one for an identity that is not in
Serving does not, and on a dead transmit lane its grants are missed (the KS of its records switches the epoch all the same, R151); ANNOUNCE and RANGING_REPLY send the burst of their
window; DOZE_REQUEST and DOZE_WAKE queue a DOZE_REQUEST message.

BOND_GAP_TIMER_EXPIRY (R160): what is held up to the next fragment with FIRST = 1 beyond the gap is voided and counted once. Shown
for one fragment held beyond the gap: with FIRST it stands and is expected next, without it it goes; the frame in the gap is
not counted again where it has been given up before. -/
def Obligations.BurstsLeaveAndBondGapsAreVoided : Prop :=
  (∀ (s : State) (n : Fin 4) (i : Fin 128) (b : Burst), s.quiet → s.wf →
    let x := ident i.val s
    (∀ (type seq : BitVec 8) (fc : BitVec 48), ∃ t, exec (.ack i type seq fc) s = .next t ∧
      (ident i.val t).msgs = x.msgs
        ++ [{ type := 0x83, body := [BitVec.ofNat 8 type.toNat, BitVec.ofNat 8 seq.toNat], after := some fc }] ∧
      (∀ j, j ≠ i.val → ident j t = ident j s) ∧ SameBut [.join] s t) ∧
    (nextBurst n.val (fun b => !b.ranging) s = none → exec (.upstreamBurst n) s = .next s) ∧
    (nextBurst n.val (fun b => !b.ranging) s = some b → b.ident = some i.val →
      (x.phase ≠ .serving → exec (.upstreamBurst n) s = .next (ksSwitches b (markSent b s))) ∧
      (x.phase = .serving → lineTxDead b.side n.val s = true → ∃ t, exec (.upstreamBurst n) s = .next t ∧
        reg Reg.CNT_GRANT_MISSED t = satAdd (reg Reg.CNT_GRANT_MISSED s) b.records.length ∧
        t.join = (markSent b s).join ∧ SameBut [.regs, .keep, .recd, .ring, .join, .ciph] s t ∧
        ((∀ r ∈ b.records, r.ks = false) → RegsBut [Reg.CNT_GRANT_MISSED] s t ∧ SameBut [.regs, .join] s t)) ∧
      (x.phase = .serving → lineTxDead b.side n.val s = false → ∃ t p, exec (.upstreamBurst n) s = .next t ∧
        let u := markSent b s
        let r := burstMessage i.val b (b.records.zip (burstHeads i.val b u)) u
        t.outs = .burst p :: r.2.outs ∧ p.side = b.side ∧ p.seam = b.seam ∧ p.fc = b.fc ∧ p.block = b.first ∧ p.eqd = b.eqd ∧
        p.preamble = b.preamble ∧
        p.words = codeWords (burstWords b) (scrambleFrom (upSeed b.fc b.seam) r.1) ∧
        (ident i.val t).waking = false ∧
        SameBut [.free, .outs, .regs, .keep, .recd, .ring, .tub, .sram, .dram, .sched, .join, .ciph, .circuits] s t)) ∧
    (nextBurst n.val (fun b => b.ranging && b.ident.isNone) s = none → exec (.announce n) s = .next s) ∧
    (nextBurst n.val (fun b => b.ranging && b.ident.isNone) s = some b →
      (lineTxDead b.side n.val s = true → exec (.announce n) s = .next (markSent b s)) ∧
      (lineTxDead b.side n.val s = false → x.phase = .announcing → x.backoff = 0 → loadShed s = false →
        ∃ t p, exec (.announce n) s = .next t ∧ t.outs = .burst p :: s.outs ∧ p.fc = b.fc ∧ p.block = b.first ∧
          p.words.length = 2 ∧ t.join.announceSeq = (s.join.announceSeq + 1) % 256 ∧
          SameBut [.free, .outs, .regs, .recd, .ring, .join] s t)) ∧
    (nextBurst n.val (fun b => b.ranging && b.ident.isSome) s = none → exec (.rangingReply n) s = .next s) ∧
    (nextBurst n.val (fun b => b.ranging && b.ident.isSome) s = some b → b.ident = some i.val →
      (lineTxDead b.side n.val s = true →
        exec (.rangingReply n) s = .next (count Reg.CNT_GRANT_MISSED (ksSwitches b (markSent b s)))) ∧
      (lineTxDead b.side n.val s = false → x.phase = .listening → exec (.rangingReply n) s = .next (ksSwitches b (markSent b s))) ∧
      (lineTxDead b.side n.val s = false → x.phase = .ranging ∨ x.phase = .serving → loadShed s = false →
        ∃ t p, exec (.rangingReply n) s = .next t ∧ t.outs = .burst p :: s.outs ∧ p.fc = b.fc ∧ p.block = b.first ∧
          p.words.length = 2 ∧ (ident i.val t).seqTx = (x.seqTx + 1) % 256 ∧ (ident i.val t).phase = x.phase ∧
          (∀ j, j ≠ i.val → ident j t = ident j s) ∧
          SameBut [.free, .outs, .regs, .keep, .recd, .ring, .join, .ciph] s t ∧
          ((∀ r ∈ b.records, r.ks = false) → SameBut [.free, .outs, .join] s t))) ∧
    (∀ (st : BitVec 3) (period : BitVec 16),
      (mayDoze i.val s = false → exec (.dozeRequest i st period) s = .next s) ∧
      (mayDoze i.val s = true → 1 ≤ st.toNat → st.toNat ≤ rfld (Reg.JOIN_ID_CFG i.val) 10 8 s →
        rfld (Reg.JOIN_ID_CFG i.val) 10 8 s ≤ 3 → ∃ t, exec (.dozeRequest i st period) s = .next t ∧
          (ident i.val t).msgs = x.msgs
            ++ [{ type := 0x84, body := [BitVec.ofNat 8 st.toNat, 0] ++ beBytes 2 period.toNat, after := none }] ∧
          (∀ j, j ≠ i.val → ident j t = ident j s) ∧ SameBut [.join] s t)) ∧
    (dozeOf i.val s = none → exec (.dozeWake i) s = .next s) ∧
    ((dozeOf i.val s).isSome = true → ∃ t, exec (.dozeWake i) s = .next t ∧ (ident i.val t).doze = none ∧
      (ident i.val t).waking = true ∧ (ident i.val t).wokeAt = some s.tick.count ∧
      (ident i.val t).msgs = x.msgs ++ [{ type := 0x84, body := [0, 0, 0, 0], after := none }] ∧
      (∀ j, j ≠ i.val → ident j t = ident j s) ∧ SameBut [.regs, .recd, .ring, .pwr, .dom, .votes, .join] s t) ∧
    (shallowestDoze s < 2 ∨ lineDue s = false → exec .dozeTimer s = .next s) ∧
    (2 ≤ shallowestDoze s → lineDue s = true → rbit Reg.PWR_WAKE_CFG 4 s = true → s.pwr.ladder = 2 ∨ s.pwr.ladder = 3 → s.pwr.firedamp = false →
      ∃ t, exec .dozeTimer s = .next t ∧ t.pwr.wake = true ∧ t.pwr.lastWake = 4 ∧ t.pwr.target = 0 ∧
        t.pwr.ladder = s.pwr.ladder ∧ t.join = s.join ∧ SameBut [.regs, .recd, .ring, .pwr, .dom, .votes] s t)) ∧
  (∀ (s : State) (i : Fin 128), s.quiet → s.wf →
    let x := ident i.val s
    (x.expected = none ∨ x.gapSince = none → exec (.bondGapTimerExpiry i) s = .next s) ∧
    (∀ e f, x.expected = some e → x.gapSince.isSome = true → x.frags = [f] → f.bseq ≠ e →
      (f.first = true → f.last = false → ∃ t, exec (.bondGapTimerExpiry i) s = .next t ∧
        (ident i.val t).expected = some f.bseq ∧ (ident i.val t).frags = [f] ∧ (ident i.val t).gapSince = none ∧
        reg Reg.CNT_BOND_VOID t = satAdd (reg Reg.CNT_BOND_VOID s) (if x.bondCut then 0 else 1) ∧
        RegsBut [Reg.CNT_BOND_VOID] s t ∧
        (∀ j, j ≠ i.val → ident j t = ident j s) ∧ SameBut [.regs, .join] s t) ∧
      (f.first = false → f.tubs = [] → ∃ t, exec (.bondGapTimerExpiry i) s = .next t ∧
        (ident i.val t).expected = some ((f.bseq + 1) % 2 ^ 24) ∧ (ident i.val t).frags = [] ∧
        (ident i.val t).gapSince = none ∧ (ident i.val t).bondCut = !f.last ∧
        reg Reg.CNT_BOND_VOID t = satAdd (reg Reg.CNT_BOND_VOID s) (if x.bondCut then 0 else 1) ∧
        (∀ j, j ≠ i.val → ident j t = ident j s) ∧ SameBut [.regs, .join] s t)))

/-! ### Circuits -/

/-- Completes, under conditions on the state and the operands alone: circEnable, circDisable, circPacket.
CIRC_ENABLE and CIRC_DISABLE at the tick edge (R184, R185), and a packet of an active circuit (R177, R180, R183). A circuit sampled
for the edge that passes the checks of R185 becomes active with an empty buffer, its pointer machine in LOP; one that fails one stays
off with the number of the first as REFUSE. One whose EN is 0, or became 0 and 1 again, is taken out and its tubs returned, the containers formed
staying in their places (R173). A packet whose payload is not PKT_BYTES long is counted only. -/
def Obligations.CircuitsTakeEnablesAndPackets : Prop :=
  ∀ (s : State) (c : Fin 1024) (body : Bytes), s.quiet → s.wf →
    let x := circuit c.val s
    (x.next = none ∨ x.active = true → exec (.circEnable c) s = .next s) ∧
    (∀ f, x.next = some f → x.active = false →
      (circRefusal (circOf f) s ≠ 0 → ∃ t, exec (.circEnable c) s = .next t ∧
        circuit c.val t = { x with next := none, refuse := circRefusal (circOf f) s } ∧
        SameBut [.regs, .recd, .ring, .circuits] s t) ∧
      (circRefusal (circOf f) s = 0 → ∃ t, exec (.circEnable c) s = .next t ∧
        circuit c.val t = { circOf f with active := true, tubs := (circuit c.val t).tubs, tx := x.tx } ∧
        (circuit c.val t).packets = [] ∧ (circuit c.val t).playing = false ∧ (circuit c.val t).lop = true ∧
        (circuit c.val t).refuse = 0 ∧ (circuit c.val t).n = f.n ∧ (circuit c.val t).dsOffset = f.dsOffset ∧
        (circuit c.val t).tubs.length ≤ 1 ∧
        (∀ d, d ≠ c.val → circuit d t = circuit d s) ∧ SameBut [.free, .regs, .recd, .ring, .tub, .circuits] s t)) ∧
    (let en := rbit (Reg.CIRC_CFG c.val) 31 s
     (en = true ∧ x.next = none ∨ en = true ∧ x.active = false ∨ x.active = false ∧ x.next = none →
        exec (.circDisable c) s = .next s) ∧
     (en = false → x.active = false → x.next.isSome = true → ∃ t, exec (.circDisable c) s = .next t ∧
        circuit c.val t = { x with next := none } ∧ (∀ d, d ≠ c.val → circuit d t = circuit d s) ∧ SameBut [.circuits] s t) ∧
     (x.active = true → en = false ∨ x.next.isSome = true → ∃ t, exec (.circDisable c) s = .next t ∧
        circuit c.val t = { Circuit.reset with refuse := x.refuse, next := (if en then x.next else none), tx := x.tx } ∧
        (∀ d, d ≠ c.val → circuit d t = circuit d s) ∧
        SameBut [.free, .outs, .regs, .recd, .ring, .tub, .sram, .dram, .sched, .circuits] s t)) ∧
    (x.active = false → exec (.circPacket (some (c, body))) s = .next s) ∧
    (loadShed s = true → exec (.circPacket (some (c, body))) s = .next s) ∧
    (x.active = true → loadShed s = false →
      let b := circCut body
      (b.length < 4 ∨ beAt b 1 1 / 64 ≠ 0 ∨ (b.length ≠ 4 + x.pktBytes ∧ b.length ≠ 4) →
        exec (.circPacket (some (c, body))) s = .next (count (Reg.CNT_CIRC_PKT_DISCARD c.val) s)) ∧
      (b.length = 4 + x.pktBytes → beAt b 1 1 / 64 = 0 → beAt b 0 1 / 8 % 2 = 0 → x.anchor = none →
        tget (fun _ => []) x.packets x.play = [] → x.pktBytes ≤ 2 * x.d * x.n →
        let newest := max x.newest (x.play + x.pktBytes)
        ∃ t, exec (.circPacket (some (c, body))) s = .next t ∧
          circuit c.val t = { x with
            packets := tput (fun _ => []) x.play (b.drop 4) x.packets, newest := newest,
            anchor := some (beAt b 2 2, x.play), playing := x.playing || decide (x.d * x.n ≤ newest - x.play),
            loss := x.loss && !(!x.playing && decide (x.d * x.n ≤ newest - x.play)) } ∧
          (∀ d, d ≠ c.val → circuit d t = circuit d s) ∧ SameBut [.circuits] s t)) ∧
    (∀ rest, s.cls.circIn = (c.val, body) :: rest → exec (.circPacket none) s =
      exec (.circPacket (some (c, body))) { s with cls := { s.cls with circIn := rest } })

/-! ### Classification and bridging -/

/-- Completes, under conditions on the state and the operands alone: ruleWrite, ruleRead, vlanWrite, vlanRead.
RULE_WRITE and RULE_READ, VLAN_WRITE and VLAN_READ (R244, R245, R255): a write puts the data registers into the entry the command
names, with the reserved bits of the action dropped, and a read brings an entry back into them; a rule action with DISP 3 or
colour 3, and VID 0 and 4,095, are refused with bit 30 and change no table. -/
def Obligations.RulesAndVlansAreWrittenAndRead : Prop :=
  ∀ (s : State) (n : Fin 4) (v : Word), s.quiet → s.wf →
    let r := fld v 13 0
    let vid := fld v 11 0
    let action := reg (Reg.CLS_RULE_DATA n.val 40) s
    (judge (Reg.CLS_RULE_CMD n.val) s = .perform →
      (actionRefused action = true →
        exec (.ruleWrite n v) s = .next (setReg (Reg.CLS_RULE_CMD n.val) (word (2 ^ 30 + r)) s)) ∧
      (actionRefused action = false → ∃ t x, exec (.ruleWrite n v) s = .next t ∧
        t.cls = { s.cls with rules := tput ruleDefault (16384 * n.val + r) x s.cls.rules } ∧ x.action = action &&& 0x8003FFF0 ∧
        (∀ w, w < 20 → word (beAt (beBytes 80 x.key.toNat) (4 * w) 4) = reg (Reg.CLS_RULE_DATA n.val w) s ∧
          word (beAt (beBytes 80 x.mask.toNat) (4 * w) 4) = reg (Reg.CLS_RULE_DATA n.val (20 + w)) s) ∧
        reg (Reg.CLS_RULE_CMD n.val) t = word r ∧ RegsBut [Reg.CLS_RULE_CMD n.val] s t ∧ SameBut [.regs, .cls] s t) ∧
      (∃ t, exec (.ruleRead n v) s = .next t ∧
        let x := ruleAt n.val r s
        (∀ w, w < 20 → reg (Reg.CLS_RULE_DATA n.val w) t = word (beAt (beBytes 80 x.key.toNat) (4 * w) 4) ∧
          reg (Reg.CLS_RULE_DATA n.val (20 + w)) t = word (beAt (beBytes 80 x.mask.toNat) (4 * w) 4)) ∧
        reg (Reg.CLS_RULE_DATA n.val 40) t = x.action ∧
        reg (Reg.CLS_RULE_CMD n.val) t = word ((if rbit (Reg.CLS_RULE_CMD n.val) 30 s then 2 ^ 30 else 0) + r) ∧
        SameBut [.regs] s t)) ∧
    (judge Reg.CLS_VLAN_CMD s = .perform →
      (vid = 0 ∨ vid = 4095 →
        exec (.vlanWrite v) s = .next (setReg Reg.CLS_VLAN_CMD (word (2 ^ 30 + vid)) s) ∧
        exec (.vlanRead v) s = .next (setReg Reg.CLS_VLAN_CMD (word (2 ^ 30 + vid)) s)) ∧
      (vid ≠ 0 → vid ≠ 4095 →
        (∃ t x, exec (.vlanWrite v) s = .next t ∧ t.cls = { s.cls with vlans := tput vlanDefault vid x s.cls.vlans } ∧
          x.flags = reg Reg.CLS_VLAN_DATA_16 s &&& 0xE000007F ∧
          (∀ p, p < 512 → x.members.getLsbD p = (reg (Reg.CLS_VLAN_DATA (p / 32)) s).getLsbD (p % 32)) ∧
          reg Reg.CLS_VLAN_CMD t = word vid ∧ RegsBut [Reg.CLS_VLAN_CMD] s t ∧ SameBut [.regs, .cls] s t) ∧
        (∃ t, exec (.vlanRead v) s = .next t ∧ reg Reg.CLS_VLAN_DATA_16 t = (vlan vid s).flags ∧
          (∀ w, w < 16 → reg (Reg.CLS_VLAN_DATA w) t = word ((vlan vid s).members.toNat / 2 ^ (32 * w))) ∧
          reg Reg.CLS_VLAN_CMD t = word vid ∧ SameBut [.regs] s t)))

/-- Completes, under conditions on the state and the operands alone: fdbInsertStatic, fdbInsertDynamic, fdbDelete,
fdbLookup, fdbDeleteByDest, fdbSweep.
The forwarding database (R256, R258, R261 to R263). An insert puts the entry of CLS_FDB_DATA over the one that holds its address
and VLAN or in the first free way of its set, a full set gives RESULT 1; a delete removes it and a lookup gives it, an
absent one RESULT 2; a destination or VID out of range gives RESULT 3. Delete by destination removes the dynamic entries
of one destination; the sweep ages dynamic entries and removes those aged already, and leaves static ones. -/
def Obligations.ForwardingDatabaseCommands : Prop :=
  ∀ (s : State) (static : Bool), s.quiet → s.wf →
    let c := if static then Instr.fdbInsertStatic else Instr.fdbInsertDynamic
    let x := fdbEntryOf (fdbData s) static true
    let vid := x.vid.toNat
    let mac := x.mac.toNat
    let d := beAt (fdbData s) 8 2 % 1024
    (judge Reg.CLS_FDB_CMD s = .perform →
      (0x27F < x.dest.toNat ∨ vidRefused vid = true → exec c s = .next (setReg Reg.CLS_FDB_CMD (word (at' 28 3)) s)) ∧
      (x.dest.toNat ≤ 0x27F → vidRefused vid = false →
        ((fdbFind vid mac s).isSome = true ∨ (fdbFree vid mac s).isSome = true → ∃ t, exec c s = .next t ∧
          (fdbFind vid mac t).map (·.2) = some x ∧ reg Reg.CLS_FDB_CMD t = 0 ∧ RegsBut [Reg.CLS_FDB_CMD] s t ∧
          (∀ k, k / 4 ≠ fdbSet vid mac → fdbWay k t = fdbWay k s) ∧ SameBut [.regs, .cls] s t) ∧
        (fdbFind vid mac s = none → fdbFree vid mac s = none →
          ∃ t, exec c s = .next t ∧ t.cls.fdb = s.cls.fdb ∧ reg Reg.CLS_FDB_CMD t = word (at' 28 1) ∧
            RegsBut [Reg.CLS_FDB_CMD] s t ∧ SameBut [.regs, .cls] s t)) ∧
      (vidRefused vid = true → exec .fdbDelete s = .next (setReg Reg.CLS_FDB_CMD (word (at' 28 3)) s) ∧
        exec .fdbLookup s = .next (setReg Reg.CLS_FDB_CMD (word (at' 28 3)) s)) ∧
      (vidRefused vid = false → fdbFind vid mac s = none →
        exec .fdbDelete s = .next (setReg Reg.CLS_FDB_CMD (word (at' 28 2)) s) ∧
        exec .fdbLookup s = .next (setReg Reg.CLS_FDB_CMD (word (at' 28 2)) s)) ∧
      (∀ k y, vidRefused vid = false → fdbFind vid mac s = some (k, y) →
        (∃ t, exec .fdbDelete s = .next t ∧ t.cls = { s.cls with fdb := tput (fun _ => none) k none s.cls.fdb,
                                                                   fdbTouched := t.cls.fdbTouched, fdbCycle := s.cycle } ∧
          reg Reg.CLS_FDB_CMD t = 0 ∧ RegsBut [Reg.CLS_FDB_CMD] s t ∧ SameBut [.regs, .cls] s t) ∧
        (∃ t, exec .fdbLookup s = .next t ∧ reg (Reg.CLS_FDB_DATA 2) t
            = word (2 ^ 31 + b2n y.static * 2 ^ 30 + b2n y.age * 2 ^ 29 + y.dest.toNat * 2 ^ 16) ∧
          reg Reg.CLS_FDB_CMD t = 0 ∧ RegsBut [Reg.CLS_FDB_CMD, Reg.CLS_FDB_DATA 2] s t ∧ SameBut [.regs] s t)) ∧
      (0x27F < d → exec .fdbDeleteByDest s = .next (setReg Reg.CLS_FDB_CMD (word (at' 28 3)) s)) ∧
      (d ≤ 0x27F → ∃ t, exec .fdbDeleteByDest s = .next t ∧ reg Reg.CLS_FDB_CMD t = 0 ∧
        (∀ k y, (k, some y) ∈ t.cls.fdb ↔ (k, some y) ∈ s.cls.fdb ∧ (y.static = true ∨ y.dest.toNat ≠ d)) ∧
        RegsBut [Reg.CLS_FDB_CMD] s t ∧ SameBut [.regs, .cls] s t)) ∧
    (rfld Reg.CLS_FDB_AGE 15 0 s = 0 → exec .fdbSweep s = .next s) ∧
    (rfld Reg.CLS_FDB_AGE 15 0 s ≠ 0 → ∃ t, exec .fdbSweep s = .next t ∧
      (∀ k y, (k, some y) ∈ t.cls.fdb ↔ (y.static = true ∧ (k, some y) ∈ s.cls.fdb) ∨
        (y.static = false ∧ y.age = false ∧ (k, some { y with age := true }) ∈ s.cls.fdb)) ∧
      SameBut [.cls] s t)

/-- Completes, under conditions on the state and the operands alone: classifyFrame, excForward.
CLASSIFY_FRAME for a frame of the line (R252): it takes the frame that has waited longest at the pipeline, while no dip episode
gates it and its domain is ON. A malformed frame is counted and no rule is looked for; the rule with disposition DROP that
matches is hit and the frame dropped; with disposition FORWARD its source is learned and it is policed and forwarded; with
no rule that matches it is counted and learned.

EXC_FORWARD (R267): the oldest record of the exception ring, with those of the cycle put there first (R268), is forwarded to the host
where CLS_EXC_CTRL forwards records of its reason and the banksman is reachable, and is dropped and counted otherwise; an
empty ring gives nothing. -/
def Obligations.FramesAreClassifiedAndExcepted : Prop :=
  (∀ (s : State) (n : Fin 4) (f : InFrame) (rest : List InFrame), s.quiet → s.wf →
    (inDip s = true ∨ domState n.val s ≠ .on ∨ ingressOf n.val s = [] → exec (.classifyFrame n) s = .next s) ∧
    (inDip s = false → domState n.val s = .on → ingressOf n.val s = f :: rest → f.line = true → f.bad = false →
      let p := parse (parseCfg false s) f.bytes
      let u := freeTubsOf n.val f.tubs { s with ingress := tput (fun _ => []) n.val rest s.ingress }
      let left := [Part.free, .outs, .regs, .recd, .ring, .tub, .sram, .dram, .sched, .ingress, .cls]
      (p.malformed = true → ∃ t, exec (.classifyFrame n) s = .next t ∧ t.ingress = u.ingress ∧
        reg (Reg.CNT_CLS_MALFORMED n.val) t = satAdd (reg (Reg.CNT_CLS_MALFORMED n.val) s) 1 ∧
        RegsBut [Reg.CNT_CLS_MALFORMED n.val] u t ∧ t.cls = { s.cls with excWait := t.cls.excWait } ∧
        t.cls.excWait.length = s.cls.excWait.length + 1 ∧ SameBut left s t) ∧
      (p.malformed = false → p.deep = false → p.tally = false → winLen true f.src s = 0 →
        (findRule n.val (ruleKey f.bytes p true f.src 0) s = none → ∃ t, exec (.classifyFrame n) s = .next t ∧
          t.ingress = u.ingress ∧
          reg (Reg.CNT_CLS_NO_MATCH n.val) t = satAdd (reg (Reg.CNT_CLS_NO_MATCH n.val) s) 1 ∧
          t.cls.excWait.length = s.cls.excWait.length + 1 ∧ SameBut left s t) ∧
        (∀ r x, findRule n.val (ruleKey f.bytes p true f.src 0) s = some (r, x) →
          (fld x.action 17 16 = 2 → ∃ t, exec (.classifyFrame n) s = .next t ∧ t.ingress = u.ingress ∧
            reg (Reg.CLS_RULE_HIT n.val r) t = satAdd (reg (Reg.CLS_RULE_HIT n.val r) s) 1 ∧
            reg (Reg.CNT_CLS_DROP n.val) t = satAdd (reg (Reg.CNT_CLS_DROP n.val) s) 1 ∧
            RegsBut [Reg.CLS_RULE_HIT n.val r, Reg.CNT_CLS_DROP n.val] u t ∧ t.cls = s.cls ∧ SameBut left s t) ∧
          (fld x.action 17 16 = 0 →
            let cfg := sourceCfg true f.src s
            exec (.classifyFrame n) s = .next
              (forwardFrame n.val f (forwardingVlan p cfg) (classGiven x.action cfg) (colourGiven x.action)
                (queueGiven x.action cfg) (learnFrame f (forwardingVlan p cfg) (count (Reg.CLS_RULE_HIT n.val r) u)))))))) ∧
  (∀ s : State, s.quiet → s.wf →
    let u := settleExceptions s
    let left := [Part.free, .outs, .regs, .recd, .ring, .tub, .sram, .dram, .sched, .cls]
    (u.cls.excRing = [] → exec .excForward s = .next u) ∧
    (∀ x rest, u.cls.excRing = x :: rest →
      let fwd := bitOf (reg Reg.CLS_EXC_CTRL s) (27 + (x.bytes.headD 1).toNat) && s.chain.reachable
      (fwd = false → ∃ t, exec .excForward s = .next t ∧ t.cls = { u.cls with excRing := rest } ∧
        reg Reg.CNT_EXC_SUP_DROP t = satAdd (reg Reg.CNT_EXC_SUP_DROP s) 1 ∧
        (x.tubs = [] → RegsBut [Reg.CNT_EXC_SUP_DROP] u t) ∧ SameBut left s t) ∧
      (fwd = true → ∃ t, exec .excForward s = .next t ∧ t.cls = { u.cls with excRing := rest } ∧
        reg Reg.CNT_EXC_FWD t = satAdd (reg Reg.CNT_EXC_FWD s) 1 ∧ SameBut (.chain :: .host :: left) s t)))

/-! ### Consignments and tallies -/

/-- Completes, under conditions on the state and the operands alone: submit, journalWriteVerified, evTallySplit, deliver.
SUBMIT and DELIVER (R194, R207, R208, R218), the message given or the oldest that waits. During the scan all are dropped; a message too
short or with a wrong CRC is counted. A well-formed one is refused during a dip episode, on a closed flow, beyond the
next SSEQ, and for the journal's reasons; none of these changes the tally engine. What passes all is written PENDING into
the next slot, a SUBMIT with the next tally.

JOURNAL_WRITE_VERIFIED accepts (R210): a PENDING slot that no lower SSEQ of its flow waits before becomes HELD and is counted as
accepted; a write of another slot is taken from those outstanding and nothing else. EV_TALLY_SPLIT (R211) counts the failures
toward the die's declaration first, which prevails (R226); a write that failed on a die still in use refuses its PENDING
slot, is counted, and makes the slot BAD where its units can be written. -/
def Obligations.ConsignmentsAreJudgedAndJournalled : Prop :=
  (∀ (s : State) (port : Fin 512) (i : Fin 128) (b : Bytes), s.quiet → s.wf →
    let p := udpPayload b s
    let dest := (port.val, replyHeader b s)
    let sub := Instr.submit (some (port, b))
    let del := Instr.deliver (some (i, b))
    (s.tally.scanning = true → exec sub s = .next s ∧ exec del s = .next s) ∧
    (s.tally.scanning = false → p.length < 24 →
      exec sub s = .next (count Reg.CNT_TALLY_MALFORMED s) ∧ exec del s = .next (count Reg.CNT_TALLY_MALFORMED s)) ∧
    (s.tally.scanning = false → 24 ≤ p.length → tallyCrcOk p = false →
      exec sub s = .next (count Reg.CNT_TALLY_CRC_ERR s) ∧ exec del s = .next (count Reg.CNT_TALLY_CRC_ERR s)) ∧
    (∀ m, receiveTally false port.val 1 (.port dest) p s = (some m, s) →
      let next := nextSseq m.flow s
      (refusesDip s = true → ∃ t, exec sub s = .next t ∧ t.tally = s.tally ∧
        t = refuse (.port dest) m.flow m.sseq m.tally 3 0 s) ∧
      (refusesDip s = false → s.supply.resumedCycle ≠ some s.cycle → next.all (fun n => !serialBelow 32 m.sseq n) = true →
        (flowOpen m.flow s = false → ∃ t, exec sub s = .next t ∧ t.tally = s.tally ∧
          t = refuse (.port dest) m.flow m.sseq m.tally 2 0 s) ∧
        (flowOpen m.flow s = true → (∃ n, next = some n ∧ n ≠ m.sseq) → ∃ t, exec sub s = .next t ∧ t.tally = s.tally ∧
          t = refuse (.port dest) m.flow m.sseq (next.getD 0) 5 6 s) ∧
        (flowOpen m.flow s = true → next = none ∨ next = some m.sseq → journalSteps m.len s ≠ (0, 0) →
          ∃ t, exec sub s = .next t ∧ t.tally = s.tally) ∧
        (flowOpen m.flow s = true → next = none ∨ next = some m.sseq → journalSteps m.len s = (0, 0) →
          ∃ t j, exec sub s = .next t ∧ nextSlot s = some j ∧
            slotAt j t = sealSlot j { SlotCopy.blank with
              st := .pending, down := false, ident := flowIdent m.flow s, flow := m.flow, sseq := m.sseq,
              tally := s.tally.next, epoch := journalEpoch s, payload := m.payload } ∧
            (work j t).verified = false ∧ (work j t).reply = some dest ∧ t.tally.next = s.tally.next + 1 ∧ t.tally.last = j ∧
            t.tally.left = s.tally.left - journalBytes m.len ∧ t.tally.leftCount = s.tally.leftCount - 1 ∧
            (∀ k, k ≠ j → k < 8192 → j < 8192 → slotAt k t = slotAt k s) ∧
            SameBut [.free, .regs, .keep, .recd, .ring, .tub, .sram, .dram, .tally] s t))) ∧
    (∀ m, receiveTally true i.val 4 (.head i.val) p s = (some m, s) → refusesDip s = false →
      nextSseq m.flow s = none ∨ nextSseq m.flow s = some m.sseq → flowOpen m.flow s = true →
      journalSteps m.len s = (0, 0) →
      ∃ t j, exec del s = .next t ∧ nextSlot s = some j ∧
        slotAt j t = sealSlot j { SlotCopy.blank with
          st := .pending, down := true, ident := i.val, flow := m.flow, sseq := m.sseq,
          tally := m.tally, epoch := journalEpoch s, payload := m.payload } ∧ copyValid j (slotAt j t) = true ∧
        t.tally.next = s.tally.next ∧ SameBut [.free, .regs, .keep, .recd, .ring, .tub, .sram, .dram, .tally] s t) ∧
    (s.cls.tallyIn = [] → exec (.submit none) s = .next s ∧ exec (.deliver none) s = .next s)) ∧
  (∀ (s : State) (j : Fin 8192) (dies : BitVec 2), s.quiet → s.wf →
    let c := slotAt j.val s
    (c.st ≠ .pending → exec (.journalWriteVerified j) s = .next (pumpWrites { s with tally := { s.tally with
      writes := dropWrite j.val s.tally.writes } })) ∧
    (c.st = .pending → flowSlots c.flow (· == .pending) s = [(j.val, c)] →
      ∃ t, exec (.journalWriteVerified j) s = .next t ∧ (slotAt j.val t).st = .held ∧ (slotAt j.val t).tally = c.tally ∧
        (slotAt j.val t).payload = c.payload ∧ (work j.val t).since = s.cycle ∧ (work j.val t).reply = none ∧
        (c.down = true → reg Reg.CNT_TALLY_DS_ACCEPT_LO t = reg Reg.CNT_TALLY_DS_ACCEPT_LO s + 1) ∧
        (c.down = false → reg Reg.CNT_TALLY_ACCEPT_LO t = reg Reg.CNT_TALLY_ACCEPT_LO s + 1) ∧
        SameBut [.free, .outs, .regs, .supply, .tub, .sram, .dram, .sched, .ports, .tally] s t) ∧
    (splitDies j.val dies s = [] → ∀ u, exec (.evTallySplit j dies u) s = .next s) ∧
    (splitDies j.val dies s ≠ [] →
      let v := settleFaults (splitFaults j.val dies s)
      (splitDies j.val dies v = [] → ∀ u, exec (.evTallySplit j dies u) s = .next v) ∧
      (splitDies j.val dies v ≠ [] → flowSlots c.flow (· == .pending) s = [(j.val, c)] →
        ∃ t, exec (.evTallySplit j dies 0) s = .next t ∧ (slotAt j.val t).st = .bad ∧
          reg Reg.CNT_TALLY_SPLIT t = satAdd (reg Reg.CNT_TALLY_SPLIT s) 1 ∧ t.tally.next = s.tally.next ∧
          SameBut [.free, .outs, .regs, .recd, .ring, .tub, .sram, .dram, .sched, .ports, .tally] v t)))

/-- Completes, under conditions on the state and the operands alone: tallyResendHe, deliverToRecipient, tallyResendLocal,
receiptFromHeadEnd, receiptFromRecipient, refuseFromHeadEnd, status, evTallyStall.
Sendings of HELD consignments (R215, R216, R219). TALLY_RESEND_HE and TALLY_RESEND_LOCAL send again what is due, and count it;
nothing due, or a dip episode, sends nothing. DELIVER_TO_RECIPIENT makes the first sending of a slot while LOCAL_WIN
allows. Shown for a flow with one HELD consignment.

Receipts, refusals, status and the stall (R196, R217, R220, R221). A well-formed RECEIPT is noted for the HELD consignment it
names, and counted as stray where there is none; a REFUSE of the head end is counted; a STATUS request is answered; a
flow that has waited beyond STALL_S is stalled once. -/
def Obligations.HeldConsignmentsAreSentAndReceipted : Prop :=
  (∀ (s : State) (f : Fin 2048) (j : Nat) (c : SlotCopy), s.quiet → s.wf →
    ((∀ e ∈ flowSlots f.val (· == .held) s, (work e.1 s).due = false ∧ (work e.1 s).sentAt.isSome = true) →
      exec (.tallyResendHe f) s = .next s ∧ exec (.tallyResendLocal f) s = .next s ∧
      exec (.deliverToRecipient f) s = .next s) ∧
    (inDip s = true → exec (.tallyResendHe f) s = .next s ∧ exec (.tallyResendLocal f) s = .next s) ∧
    (flowSlots f.val (· == .held) s = [(j, c)] →
      (c.down = false → (work j s).due = true → maySendUp c.ident s = true → inDip s = false →
        ∃ t, exec (.tallyResendHe f) s = .next t ∧ (work j t).due = false ∧ (work j t).sentAt = some s.tick.count ∧
          reg Reg.CNT_TALLY_RTX_HE t = satAdd (reg Reg.CNT_TALLY_RTX_HE s) 1 ∧ t.tally.journal = s.tally.journal ∧
          SameBut [.free, .regs, .tub, .sram, .dram, .sched, .tally] s t) ∧
      (c.down = true → (work j s).due = true → inDip s = false →
        ∃ t, exec (.tallyResendLocal f) s = .next t ∧ (work j t).due = false ∧ (work j t).sentAt = some s.tick.count ∧
          reg Reg.CNT_TALLY_RTX_LOCAL t = satAdd (reg Reg.CNT_TALLY_RTX_LOCAL s) 1 ∧ t.tally.journal = s.tally.journal ∧
          SameBut [.free, .outs, .regs, .tub, .sram, .dram, .sched, .ports, .tally] s t) ∧
      (c.down = true → (work j s).sentAt = none → (work j s).resend = false → 0 < rfld Reg.TALLY_RTX 7 0 s →
        ∃ t, exec (.deliverToRecipient f) s = .next t ∧ (work j t).sentAt = some s.tick.count ∧
          reg Reg.CNT_TALLY_RTX_LOCAL t = reg Reg.CNT_TALLY_RTX_LOCAL s ∧ t.tally.journal = s.tally.journal ∧
          SameBut [.free, .outs, .regs, .tub, .sram, .dram, .sched, .ports, .tally] s t))) ∧
  (∀ (s : State) (port : Fin 512) (i : Fin 128) (f : Fin 2048) (b : Bytes) (m : TallyMsg), s.quiet → s.wf →
    let p := udpPayload b s
    (receiveTally true i.val 5 (.head i.val) p s = (some m, s) →
      let found := (flowSlots m.flow (· == .held) s).find? (fun e => e.2.tally == m.tally && !e.2.down && e.2.ident == i.val)
      (found = none → exec (.receiptFromHeadEnd (some (i, b))) s = .next (count Reg.CNT_TALLY_RECEIPT_STRAY s)) ∧
      (∀ j c, found = some (j, c) → ∃ t, exec (.receiptFromHeadEnd (some (i, b))) s = .next t ∧
        (work j t).receipted = true ∧ t.tally.journal = s.tally.journal ∧ SameBut [.tally] s t)) ∧
    (receiveTally false port.val 5 (.port (port.val, [])) p s = (some m, s) →
      let found := (flowSlots m.flow (· == .held) s).find? (fun e => e.2.tally == m.tally && e.2.sseq == m.sseq && e.2.down)
      (found = none → exec (.receiptFromRecipient (some (port, b))) s = .next (count Reg.CNT_TALLY_RECEIPT_STRAY s)) ∧
      (∀ j c, found = some (j, c) → ∃ t, exec (.receiptFromRecipient (some (port, b))) s = .next t ∧
        (work j t).receipted = true ∧ t.tally.journal = s.tally.journal ∧ SameBut [.tally] s t)) ∧
    (receiveTally true i.val 3 (.head i.val) p s = (some m, s) →
      exec (.refuseFromHeadEnd (some (i, b))) s = .next (count Reg.CNT_TALLY_HE_REFUSE s)) ∧
    (receiveTally false port.val 6 (.port (port.val, replyHeader b s)) p s = (some m, s) →
      ∃ t, exec (.status (some (port, b))) s = .next t ∧
        t = sendReply (port.val, replyHeader b s)
          (encodeTally 6 m.flow m.sseq (newestTally m.flow s) 1 0 (statusPayload m.flow s)) s ∧
        t.tally = s.tally ∧ SameBut [.free, .outs, .regs, .tub, .sram, .dram, .sched, .ports] s t) ∧
    (overStall f.val s = false ∨ s.tally.stalled.contains f.val = true → exec (.evTallyStall f) s = .next s) ∧
    (overStall f.val s = true → s.tally.stalled.contains f.val = false → ∃ t, exec (.evTallyStall f) s = .next t ∧
      t.tally = { s.tally with stalled := f.val :: s.tally.stalled } ∧ SameBut [.regs, .recd, .ring, .tally] s t))

/-- Completes, under conditions on the state and the operands alone: flowClose, purge, journalScan.
FLOW_CLOSE, PURGE and JOURNAL_SCAN (R190, R222 to R226). Closing clears OPEN and nothing else; a purge of a closed flow makes every
slot it holds in PENDING or HELD VOID, and of an open one is counted only. The scan is made once, after start-up has
applied the image and mounted the keep; it gives the next tally from the reserve, ends SCANNING and
the terminal runs. -/
def Obligations.FlowsCloseAndTheScanBegins : Prop :=
  ∀ (s : State) (f : Fin 2048) (torn unmarked : List (Fin 2 × Fin 8192)), s.quiet → s.wf →
    let a := Reg.TALLY_FLOW_CFG f.val
    (judge a s = .perform → bitOf (reg a s) 29 = false → ∃ t, exec (.flowClose f) s = .next t ∧
      reg a t = reg a s &&& 0x7FFFFFFF ∧ RegsBut [a] s t ∧ SameBut [.regs] s t) ∧
    (judge a s = .perform → bitOf (reg a s) 31 = true → ∃ t, exec (.purge f) s = .next t ∧
      reg Reg.CNT_TALLY_CFG_BAD t = satAdd (reg Reg.CNT_TALLY_CFG_BAD s) 1 ∧ reg a t = reg a s ∧ SameBut [.regs] s t) ∧
    (judge a s = .perform → bitOf (reg a s) 31 = false → ∃ t, exec (.purge f) s = .next t ∧
      (∀ e ∈ flowSlots f.val inHand s, (slotAt e.1 t).st = .void) ∧ t.tally.next = s.tally.next ∧
      SameBut [.free, .outs, .regs, .recd, .ring, .tub, .sram, .dram, .sched, .tally] s t) ∧
    (s.boot.applied = false ∨ s.keep.mounted = false ∨ s.boot.inReset.isSome = true →
      exec (.journalScan torn unmarked) s = .next s) ∧
    (s.boot.applied = true → s.keep.mounted = true → s.boot.inReset = none → s.tally.scanning = true →
      ∃ t, exec (.journalScan torn unmarked) s = .next t ∧ t.tally.scanning = false ∧
        t.tally.next = tallyReserve s * 2 ^ 24 ∧ (s.boot.phase = .applying → t.boot.phase = .running))

/-! ### The scheduler -/

/-- Completes, under conditions on the state and the operands alone: pause, pfc, pauseExpiry, lanePauseDrop.
PAUSE, PFC and their expiry, and the lane pause drop (R293 to R296). A PAUSE stops the eight queues and the lanes for its quanta
where the port takes it and PFC does not rule; PFC stops the queues its enable vector names, and the lanes with the queue
they follow; a frame of the kind not enabled is counted as ignored. The expiry makes them eligible again. -/
def Obligations.PausesStopAndExpire : Prop :=
  ∀ (s : State) (p : Fin 512) (quanta : BitVec 16) (enable : BitVec 8) (times : List (BitVec 16)) (pri : Fin 8),
    s.quiet → s.wf → twf (fun _ => PortQueue.reset) (sched p.val s).queues = true → times.length = 8 →
    let cfg := reg (Reg.SCHED_PORT_CFG p.val) s
    (bitOf cfg 30 = false → exec (.pause p quanta) s = .next (count (Reg.CNT_SCHED_PAUSE_IGN p.val) s)) ∧
    (bitOf cfg 30 = true → bitOf cfg 29 = true → exec (.pause p quanta) s = .next s) ∧
    (bitOf cfg 30 = true → bitOf cfg 29 = false → ∃ t, exec (.pause p quanta) s = .next t ∧
      (∀ q, q < 8 → queue p.val q t = { queue p.val q s with pausedTo := pauseEnd p.val quanta.toNat s }) ∧
      (sched p.val t).lanesPausedTo = pauseEnd p.val quanta.toNat s ∧
      reg (Reg.CNT_SCHED_PAUSE_RX p.val) t = satAdd (reg (Reg.CNT_SCHED_PAUSE_RX p.val) s) 1 ∧
      RegsBut [Reg.CNT_SCHED_PAUSE_RX p.val] s t ∧ SameBut [.regs, .sched] s t) ∧
    (bitOf cfg 29 = false → exec (.pfc p enable times) s = .next (count (Reg.CNT_SCHED_PAUSE_IGN p.val) s)) ∧
    (bitOf cfg 29 = true → ∃ t, exec (.pfc p enable times) s = .next t ∧
      (∀ q, q < 8 → queue p.val q t = if enable.getLsbD q then
        { queue p.val q s with pausedTo := pauseEnd p.val (times.getD q 0).toNat s } else queue p.val q s) ∧
      (sched p.val t).lanesPausedTo = (if enable.getLsbD (fld cfg 18 16) then
        pauseEnd p.val (times.getD (fld cfg 18 16) 0).toNat s else (sched p.val s).lanesPausedTo) ∧
      reg (Reg.CNT_SCHED_PFC_RX p.val) t = satAdd (reg (Reg.CNT_SCHED_PFC_RX p.val) s) 1 ∧
      RegsBut [Reg.CNT_SCHED_PFC_RX p.val] s t ∧ SameBut [.regs, .sched] s t) ∧
    (∃ t, exec (.pauseExpiry p none) s = .next t ∧ (sched p.val t).lanesPausedTo = 0 ∧
      (∀ q, q < 8 → queue p.val q t = { queue p.val q s with pausedTo := 0 }) ∧ SameBut [.sched] s t) ∧
    (∃ t, exec (.pauseExpiry p (some pri)) s = .next t ∧ queue p.val pri.val t = { queue p.val pri.val s with pausedTo := 0 } ∧
      (∀ q, q ≠ pri.val → queue p.val q t = queue p.val q s) ∧
      (sched p.val t).lanesPausedTo = (if fld cfg 18 16 = pri.val then 0 else (sched p.val s).lanesPausedTo) ∧
      SameBut [.sched] s t) ∧
    (lanesPaused p.val s = false ∨ (sched p.val s).circ = [] → exec (.lanePauseDrop p) s = .next s) ∧
    (∀ f rest, lanesPaused p.val s = true → (sched p.val s).circ = f :: rest → ∃ t, exec (.lanePauseDrop p) s = .next t ∧
      (sched p.val t).circ = rest ∧
      reg (Reg.CNT_SCHED_LANE_PAUSE_DROP p.val) t = satAdd (reg (Reg.CNT_SCHED_LANE_PAUSE_DROP p.val) s) 1 ∧
      SameBut [.free, .outs, .regs, .recd, .ring, .tub, .sram, .dram, .sched] s t)

/-- Completes, under conditions on the state and the operands alone: gateCommit, gateListStart, gclWrite, gclRead.
Gates (R289 to R291): GCL_WRITE and GCL_READ move an entry of a port's administrative list; GATE_COMMIT refuses a bad list with
the first reason, leaving the pending list, or makes it pending with the start R291 gives; GATE_LIST_START makes the
pending list the operating one.

R291: a list committed less than 250 µs before its base starts at the first of the base's repetitions that lies 250 µs ahead;
any other starts at the base. -/
def Obligations.GateListsAreCommittedAndStart : Prop :=
  (∀ (s : State) (p : Fin 512) (v : Word), s.quiet → s.wf →
    let n := fld v 8 0
    let e := commitErr p.val n s
    (judge Reg.SCHED_GCL_CMD s = .perform →
      (∃ t, exec (.gclWrite v) s = .next t ∧ t.sched = { s.sched with
          admin := tput (fun _ => (0, 0)) (256 * fld v 16 8 + fld v 7 0)
            (rfld Reg.SCHED_GCL_DATA1 7 0 s, (reg Reg.SCHED_GCL_DATA0 s).toNat) s.sched.admin } ∧
        reg Reg.SCHED_GCL_CMD t = v &&& 0x1FFFF ∧ RegsBut [Reg.SCHED_GCL_CMD] s t ∧ SameBut [.regs, .sched] s t) ∧
      (∃ t, exec (.gclRead v) s = .next t ∧
        reg Reg.SCHED_GCL_DATA0 t = word (adminEntry (fld v 16 8) (fld v 7 0) s).2 ∧
        reg Reg.SCHED_GCL_DATA1 t = word (adminEntry (fld v 16 8) (fld v 7 0) s).1 ∧
        reg Reg.SCHED_GCL_CMD t = v &&& 0x1FFFF ∧
        RegsBut [Reg.SCHED_GCL_CMD, Reg.SCHED_GCL_DATA0, Reg.SCHED_GCL_DATA1] s t ∧ SameBut [.regs] s t)) ∧
    (judge (Reg.SCHED_GATE_CTRL p.val) s = .perform →
      (e ≠ 0 → ∃ t, exec (.gateCommit p v) s = .next t ∧ sched p.val t = { sched p.val s with gateErr := e } ∧
        SameBut [.regs, .recd, .ring, .sched] s t) ∧
      (e = 0 → ∃ t g, exec (.gateCommit p v) s = .next t ∧
        sched p.val t = { sched p.val s with pend := some g, gateErr := 0 } ∧
        g.entries = (List.range n).map (fun k => adminEntry p.val k s) ∧
        g.cycleNs = (reg (Reg.SCHED_GATE_CYCLE p.val) s).toNat ∧
        g.startNs = gateStart (gateBase p.val s) (reg (Reg.SCHED_GATE_CYCLE p.val) s).toNat (timeInNs s) ∧
        (timeInNs s + 250000 ≤ gateBase p.val s → SameBut [.regs, .sched] s t) ∧
        SameBut [.regs, .recd, .ring, .sched] s t)) ∧
    ((sched p.val s).pend = none → exec (.gateListStart p) s = .next s) ∧
    (∀ g, (sched p.val s).pend = some g → ∃ t, exec (.gateListStart p) s = .next t ∧
      sched p.val t = { sched p.val s with
        oper := some { g with setTime := (timeInNs s : Int), setCycle := s.cycle }, pend := none, gateFix := false,
        gateLate := false } ∧
      RegsBut [Reg.CNT_SCHED_GATE_OVERRUN p.val] s t ∧ SameBut [.regs, .sched] s t)) ∧
  (∀ (b cycle now : Nat), 0 < cycle →
    (now + 250000 ≤ b → gateStart b cycle now = b) ∧
    (b < now + 250000 → ∃ k, gateStart b cycle now = b + k * cycle ∧ now + 250000 ≤ gateStart b cycle now ∧
      ∀ j, now + 250000 ≤ b + j * cycle → k ≤ j))

/-- Completes, under conditions on the state and the operands alone: policerWrite, policerRead, policerReadClear.
Policers (R281 to R284): POLICER_WRITE sets a policer's words with both buckets full, or refuses a two-rate policer whose PIR lies
below its CIR with bit 30; POLICER_READ shows words and counts; POLICER_READ_CLEAR also clears the counts. -/
def Obligations.PolicersAreWrittenAndRead : Prop :=
  ∀ (s : State) (v : Word), s.quiet → s.wf → judge Reg.SCHED_POL_CMD s = .perform →
    let i := fld v 12 0
    let d := fun w => reg (Reg.SCHED_POL_DATA w) s
    let x := policer i s
    let new := { x with
      words := [d 0 &&& 0xE0000000, d 1, d 2 &&& 0xFFFFFF, d 3, d 4 &&& 0xFFFFFF], cycle := s.cycle,
      tc := polUnits (d 2 &&& 0xFFFFFF).toNat, te := polUnits (d 4 &&& 0xFFFFFF).toNat }
    (bitOf (d 0) 31 = true → d 3 < d 1 →
      exec (.policerWrite v) s = .next (setReg Reg.SCHED_POL_CMD (word (2 ^ 30 + i)) s)) ∧
    (bitOf (d 0) 31 = false ∨ d 1 ≤ d 3 → ∃ t, exec (.policerWrite v) s = .next t ∧
      t.sched = { s.sched with policers := tput (fun _ => Policer.reset) i new s.sched.policers } ∧
      reg Reg.SCHED_POL_CMD t = word i ∧ RegsBut [Reg.SCHED_POL_CMD] s t ∧ SameBut [.regs, .sched] s t) ∧
    (∀ c, c = Instr.policerRead v ∨ c = Instr.policerReadClear v → ∃ t, exec c s = .next t ∧
      (∀ w, w < 5 → reg (Reg.SCHED_POL_DATA w) t = x.words.getD w 0) ∧ reg (Reg.SCHED_POL_DATA 5) t = x.green ∧
      reg (Reg.SCHED_POL_DATA 6) t = x.yellow ∧ reg (Reg.SCHED_POL_DATA 7) t = x.red ∧
      t.sched = (if c = .policerRead v then s.sched else { s.sched with
        policers := tput (fun _ => Policer.reset) i { x with green := 0, yellow := 0, red := 0 } s.sched.policers }) ∧ SameBut [.regs, .sched] s t)

/-- Completes, under conditions on the state and the operands alone: portFrameStart.
PORT_FRAME_START (R272, R292, R342): a port at a frame boundary that may send starts the consignment lane first, then the circuit
lane, unless they are paused or their first frame waits for its tubs (R312), then the highest strict queue with an eligible frame. The frame goes on the wire as R342 and
R344 say. A port that may not send starts nothing. A frame read with an uncorrectable error before it starts is counted. -/
def Obligations.PortsSendInOrder : Prop :=
  ∀ (s : State) (p : Fin 512) (f : QFrame) (rest : List QFrame), s.quiet → s.wf →
    twf (fun _ => PortQueue.reset) (sched p.val s).queues = true →
    (portMaySend p.val s = false → exec (.portFrameStart p .good) s = .next s) ∧
    (portMaySend p.val s = true → (sched p.val s).gateFix = false → portLoop p.val s = 0 →
      (lanesPaused p.val s = false → laneHead (sched p.val s).consign = some (f, rest) → ∃ t l, exec (.portFrameStart p .good) s = .next t ∧
        t.outs = l ++ .portFrame p.val (wireFrame p.val f s).1 :: s.outs ∧ (sched p.val t).consign = rest ∧
        (sched p.val t).circ = (sched p.val s).circ ∧ (sched p.val t).flight = none ∧
        SameBut [.free, .outs, .regs, .recd, .ring, .land, .tub, .sram, .dram, .sched] s t) ∧
      (lanesPaused p.val s = false → laneHead (sched p.val s).consign = none →
        laneHead (sched p.val s).circ = some (f, rest) →
        ∃ t l, exec (.portFrameStart p .good) s = .next t ∧
          t.outs = l ++ .portFrame p.val (wireFrame p.val f s).1 :: s.outs ∧ (sched p.val t).circ = rest ∧
          (sched p.val t).flight = none ∧ SameBut [.free, .outs, .regs, .recd, .ring, .land, .tub, .sram, .dram, .sched] s t) ∧
      (∀ q, q < 8 → lanesPaused p.val s = true ∨
          (laneHead (sched p.val s).consign = none ∧ laneHead (sched p.val s).circ = none) → isStrict (sched p.val s).strict q = true →
        (sched p.val s).strict ≤ 8 → (∀ k, q < k → k < 8 → (queue p.val k s).frames = []) →
        (queue p.val q s).frames = f :: rest → eligibleButGate p.val q s = true →
        gateAllows p.val q (frameL f.bytes) s = true →
        ∃ t l, exec (.portFrameStart p .good) s = .next t ∧
          t.outs = l ++ .portFrame p.val (wireFrame p.val f s).1 :: s.outs ∧ (queue p.val q t).frames = rest ∧
          (∀ k, k < 8 → k ≠ q → queue p.val k t = queue p.val k s) ∧
          SameBut [.free, .outs, .regs, .recd, .ring, .land, .tub, .sram, .dram, .sched] s t)) ∧
    (startsNow p.val s = some (8, f) →
      ∃ u, exec (.portFrameStart p .badBefore) s = .next (settleFaults u) ∧
        (sched p.val u).consign = (sched p.val s).consign.drop 1 ∧
        reg Reg.CNT_ASSAY_SRAM_UE u = satAdd (reg Reg.CNT_ASSAY_SRAM_UE s) 1 ∧ u.land = s.land ∧
        (sched p.val u).busyTo = (sched p.val s).busyTo)

/-! ### The tub store and the winders -/

/-- Completes, under conditions on the state and the operands alone: tubTake, tubFree, tubHandOver.
TUB_TAKE, TUB_FREE and TUB_HAND_OVER (R309 to R315). Takes and frees are noted and made as their cycle ends, hand-overs at once. A
take of known length gives a free tub of the smallest pool that holds it, owned by the agent; a holder of a floor waits
where its floor is spent, another is refused. A free marks the tub FREE; one that fails a condition of R313, or an agent
number that is not assigned, is counted and returns nothing. A hand-over rewrites OWNER. -/
def Obligations.TubsAreTakenFreedAndHandedOver : Prop :=
  ∀ (s : State) (agent : BitVec 6) (len : BitVec 16) (known : Bool) (h : Word) (chain : Bool), s.quiet → s.wf →
    twf tagDefault s.tub.tags = true →
    let asked := { s with tub := { s.tub with
      asks := s.tub.asks ++ [{ agent := agent.toNat, len := len.toNat, known := known, dest := .agent }] } }
    let freeing := { s with tub := { s.tub with
      frees := s.tub.frees ++ [{ agent := agent.toNat, handle := h.toNat, chain := chain }] } }
    let gone := fun (t : State) => t.tub = s.tub ∧ reg Reg.CNT_TUB_BAD_FREE t = satAdd (reg Reg.CNT_TUB_BAD_FREE s) 1 ∧
      SameBut [.free, .regs, .recd, .ring] s t
    exec (.tubTake agent len known) s = .next asked ∧
    exec (.tubFree agent h chain) s = .next freeing ∧
    (12 ≤ agent.toNat →
      (∃ t, exec (.tubHandOver h agent) s = .next t ∧ gone t) ∧
      (s.tub.frees = [] → s.tub.asks = [] → gone (settleTubs asked) ∧ gone (settleTubs freeing))) ∧
    (agent.toNat < 12 →
      ((tagOf h.toNat s).free = true → exec (.tubHandOver h agent) s = .next s) ∧
      ((tagOf h.toNat s).free = false → (tagOf h.toNat s).next = 0xFFFFFFFF → ∃ t, exec (.tubHandOver h agent) s = .next t ∧
        tagOf h.toNat t = { tagOf h.toNat s with owner := agent.toNat } ∧
        (∀ j, j ≠ h.toNat → tagOf j t = tagOf j s) ∧ t.tub.sram = s.tub.sram ∧ SameBut [.tub] s t) ∧
      (s.tub.frees = [] → s.tub.asks = [] →
        (∀ p, known = true → poolFor len.toNat s = some p → mayUse agent.toNat (poolCells p) s = true →
          (∃ i, i < poolTubs p s ∧ tubOpen p (poolBase p s + i * poolCells p) s = true) →
          ∃ k, (settleTubs asked).outs = .tubsGiven agent.toNat [k] :: s.outs ∧
            poolBase p s ≤ k - p * 2 ^ 29 ∧ k - p * 2 ^ 29 < poolEnd p s ∧ len.toNat ≤ 256 * poolCells p ∧
            (tagOf k s).free = true ∧ tagOf k (settleTubs asked) = { free := false, owner := agent.toNat, next := 0xFFFFFFFF } ∧
            (∀ j, j ≠ k → tagOf j (settleTubs asked) = tagOf j s) ∧ (settleTubs asked).tub.sram = s.tub.sram ∧
            SameBut [.free, .outs, .tub] s (settleTubs asked)) ∧
        (∀ p, known = true → poolFor len.toNat s = some p → mayUse agent.toNat (poolCells p) s = false →
          (holderOf agent.toNat = 3 → settleTubs asked = s) ∧
          (holderOf agent.toNat < 3 →
            (settleTubs asked).tub = { s.tub with
              waiting := s.tub.waiting ++ [{ agent := agent.toNat, len := len.toNat, known := true, dest := .agent }] } ∧
            reg Reg.CNT_TUB_FLOOR_WAIT (settleTubs asked) = satAdd (reg Reg.CNT_TUB_FLOOR_WAIT s) 1 ∧
            SameBut [.regs, .tub] s (settleTubs asked))) ∧
        (s.tub.waiting = [] →
          (freeReason agent.toNat h.toNat s ≠ 0 → gone (settleTubs freeing)) ∧
          (freeReason agent.toNat h.toNat s = 0 → chain = false →
            tagOf h.toNat (settleTubs freeing) = { tagOf h.toNat s with free := true } ∧
            (∀ j, j ≠ h.toNat → tagOf j (settleTubs freeing) = tagOf j s) ∧
            (settleTubs freeing).tub.sram = s.tub.sram ∧ (settleTubs freeing).tub.dram = s.tub.dram ∧
            SameBut [.tub] s (settleTubs freeing)))))

/-- Completes, under conditions on the state and the operands alone: ringPost, ringFill.
RING_POST and RING_FILL (R316, R317). A handle posted stands little-endian at its entry, and no other byte of packet SRAM
changes; a full ring or one not in use takes none. A frame that a posted on-die tub holds is written into it and the entry
taken, the tub going back to the consumer; a ring that runs dry hands over nothing and is counted, and so is a fill by an
agent number that is not assigned (R310). -/
def Obligations.RingsArePostedAndFilled : Prop :=
  ∀ (s : State) (r : Fin 8) (h : Word) (producer : BitVec 6) (frame : Bytes), s.quiet → s.wf →
    twf tagDefault s.tub.tags = true →
    (ringEnabled r.val s = false ∨ ringSize r.val s ≤ ringPosted r.val s → exec (.ringPost r h) s = .next s) ∧
    (ringEnabled r.val s = true → ringPosted r.val s < ringSize r.val s → ∃ t, exec (.ringPost r h) s = .next t ∧
      let a := ringEntryAddr r.val (ringPostIdx r.val s) s
      sramWord a t = h.toNat ∧ (∀ b, b < a ∨ a + 4 ≤ b → sramByte b t = sramByte b s) ∧
      t.tub.post = tput (fun _ => 0) r.val ((ringPostIdx r.val s + 1) % ringSize r.val s) s.tub.post ∧
      t.tub.posted = tput (fun _ => 0) r.val (ringPosted r.val s + 1) s.tub.posted ∧ t.tub.dram = s.tub.dram ∧
      SameBut [.tub, .sram] s t) ∧
    (producer.toNat < 12 → ringEnabled r.val s = true → 0 < ringPosted r.val s → frame ≠ [] →
      let k := ringEntry r.val 0 s
      poolOf k < 4 → frame.length ≤ tubSize k → ∃ t, exec (.ringFill r producer frame) s = .next t ∧
        (∀ i, i < frame.length → sramByte (256 * cellOf k + i) t = frame.getD i 0) ∧
        (∀ b, b < 256 * cellOf k ∨ 256 * cellOf k + frame.length ≤ b → sramByte b t = sramByte b s) ∧
        t.tub.take = tput (fun _ => 0) r.val ((ringTakeIdx r.val s + 1) % ringSize r.val s) s.tub.take ∧
        t.tub.posted = tput (fun _ => 0) r.val (ringPosted r.val s - 1) s.tub.posted ∧ t.tub.dram = s.tub.dram ∧
        ((tagOf k s).free = false →
          tagOf k t = { free := false, owner := ringConsumer r.val s, next := 0xFFFFFFFF }) ∧
        (∀ j, j ≠ k → tagOf j t = tagOf j s) ∧ SameBut [.tub, .sram] s t) ∧
    (12 ≤ producer.toNat → ∃ t, exec (.ringFill r producer frame) s = .next t ∧ t.tub = s.tub ∧
      reg Reg.CNT_TUB_BAD_FREE t = satAdd (reg Reg.CNT_TUB_BAD_FREE s) 1 ∧ SameBut [.free, .regs, .recd, .ring] s t) ∧
    (producer.toNat < 12 → ringPosted r.val s = 0 → frame ≠ [] → ∃ t, exec (.ringFill r producer frame) s = .next t ∧ t.tub = s.tub ∧
      let a := if r = 0 then Reg.CNT_EXC_RING_FULL else Reg.CNT_TUB_RING_DRY
      reg a t = satAdd (reg a s) 1 ∧ SameBut [.free, .regs, .recd, .ring] s t)

/-- Completes, under conditions on the state and the operands alone: spill, refill.
SPILL and REFILL of a weighted queue of a port (R319, R320). The first frame marked moves to a DRAM tub where the deep buffer may
be used, its size is within what due winder bursts and refills leave of the tick's budget and a tub is free; where it may
not, it stays on-die while no frame of the queue is in DRAM; in a dip episode it keeps its mark (R335). A lone frame in DRAM comes back on-die when the queue has fallen below half the threshold. -/
def Obligations.FramesSpillAndRefill : Prop :=
  ∀ (s : State) (p : Fin 512) (q : Fin 8) (f : QFrame) (rest : List QFrame), s.quiet → s.wf →
    let c := Instr.spill (.loc p q)
    let x := queue p.val q.val s
    let room := fun (others : Nat) => frameL f.bytes + others ≤ s.tub.ddrLeft
    (isStrict (sched p.val s).strict q.val = true ∨ inDip s = true → exec c s = .next s) ∧
    (x.frames.all (fun f => !(f.spill && f.dram.isNone)) = true → exec c s = .next s) ∧
    (isStrict (sched p.val s).strict q.val = false → inDip s = false → x.frames = f :: rest → f.spill = true → f.dram = none →
      (spillOn s = true → room (winderDue s + refillDue s) → (takeDram f.bytes.length s).1.isSome = true →
        ∃ t h, exec c s = .next t ∧ (queue p.val q.val t).frames = { f with spill := false, tubs := [], dram := some h } :: rest ∧
          t.tub.ddrLeft = s.tub.ddrLeft - frameL f.bytes ∧
          SameBut [.free, .outs, .regs, .recd, .ring, .tub, .sram, .dram, .sched] s t ∧
          (f.tubs = [] → t.tub.sram = s.tub.sram ∧ SameBut [.free, .tub, .dram, .sched] s t)) ∧
      (spillOn s = false ∨ ¬ room (winderDue s + refillDue s) → x.frames.all (fun f => f.dram.isNone) = true →
        ∃ t, exec c s = .next t ∧ (queue p.val q.val t).frames = { f with spill := false } :: rest ∧
          SameBut [.sched] s t)) ∧
    (inDip s = true ∨ x.frames.all (fun f => f.dram.isNone) = true → exec (.refill (.loc p q)) s = .next s) ∧
    (∀ h, x.frames = [f] → f.dram = some h → inDip s = false →
      0 < spillThreshold false s → room (winderDue s) → (storeData 11 f.bytes true s).1.isSome = true →
      s.tub.waiting = [] →
      ∃ t hs, exec (.refill (.loc p q)) s = .next t ∧
        (queue p.val q.val t).frames = [{ f with tubs := hs, dram := none }] ∧
        (queue p.val q.val t).refilling = false ∧ t.tub.ddrLeft = s.tub.ddrLeft - frameL f.bytes ∧
        SameBut [.free, .regs, .recd, .ring, .tub, .sram, .dram, .sched] s t)

/-- Completes, under conditions on the state and the operands alone: wndDoorbell, wndDescriptorFetch, wndDescriptorComplete,
wndBurst, evWndError, wndChannelDisable.
The states of a winder channel (R326, R328, R329, R331, R333): the doorbell starts an idle enabled channel at its head, is kept
for a running one and changes no halted one; a descriptor fetched is checked and becomes the copy in progress, or halts
the channel with its error; one left behind without BARRIER is complete when its writes have landed; a finished one ends in idle where the channel is to stop, follows its link, or parks; an error
halts; a disable stops.

WND_BURST (R327, R330): where no channel is ready nothing moves. The channel whose turn it is moves its next burst, at most the
burst length and what is left; from packet SRAM to packet SRAM, both linear and without a CRC, every byte of the source is
found at its place in the destination and no other byte changes; after the last one a channel without BARRIER goes on and
leaves its descriptor to land (R328). -/
def Obligations.WinderChannelsMoveAndCopy : Prop :=
  (∀ (s : State) (c : Fin 64), s.quiet → s.wf →
    let x := wndChan c.val s
    (judge (Reg.WND_CH_DOORBELL c.val) s = .perform →
      (x.phase = .halt → exec (.wndDoorbell c []) s = .next s ∧
        ∀ a v, inMemory a.toNat 8 = true → isDram a.toNat = false →
          ∃ t, exec (.wndDoorbell c [(a, v)]) s = .next t ∧ memWord a.toNat t = v ∧
            (∀ b, b < a.toNat ∨ a.toNat + 8 ≤ b → sramByte b t = sramByte b s) ∧ SameBut [.tub, .sram] s t) ∧
      (x.phase = .idle → rbit (Reg.WND_CH_CFG c.val) 31 s = false → exec (.wndDoorbell c []) s = .next s) ∧
      (x.phase = .idle → rbit (Reg.WND_CH_CFG c.val) 31 s = true → ∃ t, exec (.wndDoorbell c []) s = .next t ∧
        wndChan c.val t = { x with
          phase := .run, words := [], moved := 0, fresh := true,
          fetch := some ((reg (Reg.WND_CH_HEAD_HI c.val) s) ++ (reg (Reg.WND_CH_HEAD_LO c.val) s &&& 0xFFFFFFE0)) } ∧
        SameBut [.wnd] s t) ∧
      (x.phase = .run → ∃ t, exec (.wndDoorbell c []) s = .next t ∧ wndChan c.val t = { x with pend := true } ∧
        SameBut [.wnd] s t)) ∧
    (x.phase ≠ .run ∨ x.fetch = none → exec (.wndDescriptorFetch c) s = .next s) ∧
    (∀ a, x.phase = .run → x.fetch = some a → inMemory a.toNat 32 = true →
      let n := a.toNat
      let y := { x with
        cur := a, fetch := none, moved := 0, words := [memWord n s, memWord (n + 8) s, memWord (n + 16) s, memWord (n + 24) s] }
      (descError y = 0 → ∃ t, exec (.wndDescriptorFetch c) s = .next t ∧
        wndChan c.val t = { y with crc := if x.fresh || descCrc y ≤ 1 then 0xFFFFFFFF else x.crc } ∧ SameBut [.wnd] s t) ∧
      (descError y ≠ 0 → ∃ t, exec (.wndDescriptorFetch c) s = .next t ∧ (wndChan c.val t).phase = .halt ∧
        (wndChan c.val t).err = descError y ∧
        reg (Reg.CNT_WND_ERR c.val) t = satAdd (reg (Reg.CNT_WND_ERR c.val) s) 1 ∧
        SameBut [.outs, .regs, .recd, .ring, .wnd] s t)) ∧
    (x.landing = [] → x.phase ≠ .run ∨ wndDone x = false → exec (.wndDescriptorComplete c) s = .next s) ∧
    (∀ e rest, x.landing = e :: rest → ∃ t, exec (.wndDescriptorComplete c) s = .next t ∧
      wndChan c.val t = { x with landing := rest } ∧ SameBut [.outs, .wnd] s t) ∧
    (x.landing = [] → x.phase = .run → wndDone x = true →
      (x.stopping = true → ∃ t, exec (.wndDescriptorComplete c) s = .next t ∧ (wndChan c.val t).phase = .idle ∧
        (wndChan c.val t).words = [] ∧ SameBut [.outs, .wnd] s t) ∧
      (x.stopping = false → descEoc x = false → inMemory (descLink x) 32 = true →
        ∃ t, exec (.wndDescriptorComplete c) s = .next t ∧ (wndChan c.val t).phase = .run ∧
          (wndChan c.val t).fetch = some (BitVec.ofNat 64 (descLink x)) ∧ (wndChan c.val t).words = [] ∧
          SameBut [.outs, .wnd] s t) ∧
      (x.stopping = false → descEoc x = true → x.pend = false → ∃ t, exec (.wndDescriptorComplete c) s = .next t ∧
        (wndChan c.val t).phase = .park ∧ SameBut [.outs, .wnd] s t)) ∧
    (∀ sram, (x.landing = [] → x.phase ≠ .run ∨ x.words = [] → exec (.evWndError c sram) s = .next s) ∧
      (∀ e rest, x.landing = e :: rest → ∃ t, exec (.evWndError c sram) s = .next t ∧
        (wndChan c.val t).phase = (if x.phase = .idle then .idle else .halt) ∧ (wndChan c.val t).landing = rest ∧
        (wndChan c.val t).err = (if sram then 5 else 4) ∧ (wndChan c.val t).cur = e.1 ∧
        reg (Reg.CNT_WND_ERR c.val) t = satAdd (reg (Reg.CNT_WND_ERR c.val) s) 1 ∧
        SameBut [.free, .outs, .regs, .recd, .ring, .tub, .sram, .dram, .wnd] s t) ∧
      (x.landing = [] → x.phase = .run → x.words ≠ [] → ∃ t, exec (.evWndError c sram) s = .next t ∧ (wndChan c.val t).phase = .halt ∧
        (wndChan c.val t).err = (if sram then 5 else 4) ∧
        reg (Reg.CNT_WND_ERR c.val) t = satAdd (reg (Reg.CNT_WND_ERR c.val) s) 1 ∧
        SameBut [.free, .outs, .regs, .recd, .ring, .tub, .sram, .dram, .wnd] s t)) ∧
    (judge (Reg.WND_CH_CFG c.val) s = .perform → ∃ t, exec (.wndChannelDisable c) s = .next t ∧
      reg (Reg.WND_CH_CFG c.val) t = reg (Reg.WND_CH_CFG c.val) s &&& 0x7FFFFFFF ∧ RegsBut [Reg.WND_CH_CFG c.val] s t ∧
      (wndChan c.val t).phase = (if x.phase = .run ∧ x.words ≠ [] then .run else .idle) ∧
      (x.phase = .run → x.words ≠ [] → wndChan c.val t = { x with stopping := true }) ∧ SameBut [.regs, .wnd] s t)) ∧
  (∀ (s : State) (req : BitVec 32), s.quiet → s.wf →
    (wndNext req s = none → exec (.wndBurst req) s = .next s) ∧
    (∀ c, wndNext req s = some c →
      let x := wndChan c s
      let n := min (descBurst x) (descLen x - x.moved)
      descKSrc x = 0 → descKDst x = 0 → descCrc x = 0 → descSrc x + descLen x ≤ sramEnd → descDst x + descLen x ≤ sramEnd →
      ∃ t, exec (.wndBurst req) s = .next t ∧ 0 < n ∧
        (descBarrier x = true ∨ x.moved + n < descLen x →
          (wndChan c t).moved = x.moved + n ∧ (wndChan c t).landing = x.landing ∧ SameBut [.tub, .sram, .wnd] s t) ∧
        (descBarrier x = false → x.moved + n = descLen x → (wndChan c t).landing = x.landing ++ [(x.cur, x.words)]) ∧
        (∀ i, i < n → sramByte (descDst x + x.moved + i) t = sramByte (descSrc x + x.moved + i) s) ∧
        (∀ b, b < descDst x + x.moved ∨ descDst x + x.moved + n ≤ b → sramByte b t = sramByte b s) ∧
        t.tub.dram = s.tub.dram ∧ t.tub.ddrLeft = s.tub.ddrLeft ∧ (∀ k, k ≠ c → wndChan k t = wndChan k s) ∧
        SameBut [.outs, .regs, .recd, .ring, .tub, .sram, .wnd] s t))

/-! ### Local ports and lanes -/

/-- Completes, under conditions on the state and the operands alone: portModeWrite, macRxFrame.
PORT_MODE_WRITE and MAC_RX_FRAME (R337 to R343, R348, R362). A MODE that R339 refuses leaves PORT_CFG and the port as they are but for
ERR; one that changes takes the port down into the new mode; without a change only PORT_CFG is written, an out-of-range
MAX_FRAME ignored. A frame received with a fault is counted in the counter of the first row of R341 it meets; a good one
is counted by length and address and handed to the port's pipeline; a port that is down takes none, and in a dip episode
one is dropped. -/
def Obligations.PortModesAndReceivedFrames : Prop :=
  ∀ (s : State) (p : Fin 512) (v : Word) (frame : Bytes) (corr uncorr : Nat), s.quiet → s.wf →
    let x := port p.val s
    let mode := if underBlock p.val s then x.mode else fld v 18 16
    let mf := if 1518 ≤ fld v 13 0 ∧ fld v 13 0 ≤ 12288 then fld v 13 0 else rfld (Reg.PORT_CFG p.val) 13 0 s
    let new := word (mode * 2 ^ 16 + b2n (bitOf v 15) * 2 ^ 15 + mf)
    (judge (Reg.PORT_CFG p.val) s = .perform →
      (mode = x.mode → exec (.portModeWrite p v) s = .next (setReg (Reg.PORT_CFG p.val) new s)) ∧
      (mode ≠ x.mode → modeReason p.val mode s ≠ 0 → ∃ t, exec (.portModeWrite p v) s = .next t ∧
        port p.val t = { x with err := modeReason p.val mode s } ∧
        reg (Reg.PORT_CFG p.val) t = reg (Reg.PORT_CFG p.val) s ∧ SameBut [.regs, .recd, .ring, .ports] s t) ∧
      (mode ≠ x.mode → modeReason p.val mode s = 0 → ∃ t, exec (.portModeWrite p v) s = .next t ∧
        reg (Reg.PORT_CFG p.val) t = new ∧ (port p.val t).mode = mode ∧ (port p.val t).link = false ∧
        (port p.val t).locFault = false ∧ (port p.val t).remFault = false ∧
        SameBut [.free, .outs, .regs, .recd, .ring, .tub, .sram, .dram, .sched, .ports, .lanes] s t)) ∧
    (∀ f code, x.mode = 4 → inDip s = false → exec (.macRxFrame p f code corr uncorr) s = exec (.macRxFrame p f code 0 0)
      (count64 (Reg.CNT_PORT_FEC_UNCORR_LO p.val) uncorr (count64 (Reg.CNT_PORT_FEC_CORR_LO p.val) corr s))) ∧
    (x.mode ≠ 4 ∨ (corr = 0 ∧ uncorr = 0) →
      (x.link = false → exec (.macRxFrame p (some frame) false corr uncorr) s = .next s) ∧
      (x.link = true → inDip s = true → exec (.macRxFrame p (some frame) false corr uncorr) s
        = .next { s with supply := { s.supply with dropped := s.supply.dropped + 1 } }) ∧
      (x.link = true → inDip s = false →
        (∀ code a, rxFault p.val frame code s = some a → frame.length ≤ 128 →
          exec (.macRxFrame p (some frame) code corr uncorr) s = .next (count64 a 1 s)) ∧
        (rxFault p.val frame false s = none →
          let b := frame.take (frame.length - 4)
          (beAt b 12 2 ≠ 0x8808 → isLldp p.val b s = false → domState (p.val / 128) s = .on →
            ∃ t hs, exec (.macRxFrame p (some frame) false corr uncorr) s = .next t ∧
              ingressOf (p.val / 128) t = ingressOf (p.val / 128) s
                ++ [{ bytes := b, line := false, src := p.val, stamp := rxStamp p.val s, bad := false, tubs := hs }] ∧
              reg (Reg.CNT_PORT_RX_FRAMES_OK_LO p.val) t = reg (Reg.CNT_PORT_RX_FRAMES_OK_LO p.val) s + 1 ∧
              SameBut [.free, .regs, .land, .tub, .sram, .dram, .ingress] s t) ∧
          (beAt b 12 2 = 0x8808 → beAt b 14 2 ≠ 1 → beAt b 14 2 ≠ 0x101 →
            ∃ t, exec (.macRxFrame p (some frame) false corr uncorr) s = .next t ∧
              reg (Reg.CNT_PORT_RX_CTRL_BAD_LO p.val) t = reg (Reg.CNT_PORT_RX_CTRL_BAD_LO p.val) s + 1 ∧
              t.ingress = s.ingress ∧ SameBut [.regs, .land] s t))) ∧
      (s.looped.find? (fun e => e.1 == p.val) = none → exec (.macRxFrame p none false corr uncorr) s = .next s))

/-- Completes, under conditions on the state and the operands alone: linkUp, linkDown, lpiEnter, lpiExit, lldpSend,
lldpReceive, lldpTtlExpiry, partnerLpi, localFault.
Link, faults, energy-efficient idle and LLDP (R345, R346, R348 to R352). A port whose lanes are ready and that sees no fault comes up,
and an up port goes down with its frames discarded; a fault is shown and answered; LPI is asserted where it is wanted and
deasserted where not; the partner's LPI is shown; an LLDPDU is sent, and taken once a second; its expiry loses the
negotiated wake time. -/
def Obligations.PortsFollowLinkIdleAndLldp : Prop :=
  ∀ (s : State) (p : Fin 512) (tw : BitVec 16), s.quiet → s.wf →
    let x := port p.val s
    let may := x.link = false ∧ x.mode ≠ 0 ∧ underBlock p.val s = false ∧ lanesReady p.val s = true ∧ x.locFault = false ∧
      x.remFault = false ∧ inDip s = false
    (may → ∃ t, exec (.linkUp p) s = .next t ∧ port p.val t = { x with link := true } ∧
      SameBut [.regs, .recd, .ring, .ports] s t) ∧
    (¬ may → exec (.linkUp p) s = .next s) ∧
    (x.link = false ∨ inDip s = true → exec (.linkDown p) s = .next s) ∧
    (x.link = true → inDip s = false → ∃ t, exec (.linkDown p) s = .next t ∧ (port p.val t).link = false ∧
      (port p.val t).eeeNeg = false ∧ (port p.val t).mode = x.mode ∧ (sched p.val t).consign = [] ∧ (sched p.val t).circ = [] ∧
      SameBut [.free, .outs, .regs, .recd, .ring, .tub, .sram, .dram, .sched, .ports] s t) ∧
    (∀ remote present, (x.mode < 2 → exec (.localFault p remote present) s = .next s) ∧
      (2 ≤ x.mode → ∃ t k, exec (.localFault p remote present) s = .next t ∧
        port p.val t = (if remote then { x with remFault := present } else { x with locFault := present }) ∧
        t.outs = .portSignal p.val k :: s.outs ∧ (k = 1 ↔ (port p.val t).locFault = true) ∧
        (k = 2 ↔ (port p.val t).locFault = false ∧ (port p.val t).remFault = true) ∧ SameBut [.outs, .ports] s t)) ∧
    (lpiWanted p.val s = false ∨ x.lpiTx = true → exec (.lpiEnter p) s = .next s) ∧
    (lpiWanted p.val s = true → x.lpiTx = false → ∃ t, exec (.lpiEnter p) s = .next t ∧
      port p.val t = { x with lpiTx := true, lpiTxAt := s.cycle } ∧ t.outs = .lpi p.val true :: s.outs ∧
      reg (Reg.CNT_PORT_TX_LPI_ENTRY_LO p.val) t = reg (Reg.CNT_PORT_TX_LPI_ENTRY_LO p.val) s + 1 ∧
      SameBut [.outs, .regs, .ports] s t) ∧
    (lpiWanted p.val s = true ∨ x.lpiTx = false → exec (.lpiExit p) s = .next s) ∧
    (lpiWanted p.val s = false → x.lpiTx = true → ∃ t, exec (.lpiExit p) s = .next t ∧
      port p.val t = { x with lpiTx := false, wakeTo := s.cycle + x.twTx * 1000 } ∧
      t.outs = .lpi p.val false :: s.outs ∧ SameBut [.outs, .regs, .sched, .ports] s t) ∧
    (∀ enter, (x.mode < 2 ∨ x.link = false ∨ x.lpiRx = enter → exec (.partnerLpi p enter) s = .next s) ∧
      (2 ≤ x.mode → x.link = true → x.lpiRx ≠ enter → ∃ t, exec (.partnerLpi p enter) s = .next t ∧
        (port p.val t).lpiRx = enter ∧ (port p.val t).link = true ∧ SameBut [.regs, .ports] s t)) ∧
    (let on := rbit (Reg.PORT_EEE_CFG p.val) 30 s
     (on = false ∨ supMaySend p.val s = false → exec (.lldpSend p) s = .next s) ∧
     (on = true → supMaySend p.val s = true → ∃ t, exec (.lldpSend p) s = .next t ∧
       (portLoop p.val s = 0 → t.outs = .lldp p.val (rfld (Reg.PORT_EEE_CFG p.val) 15 8 s) x.twTx :: s.outs) ∧
       (portLoop p.val s ≠ 0 → t.outs = s.outs) ∧ SameBut [.free, .outs, .regs, .land] s t) ∧
     (on = false ∨ x.link = false ∨ inDip s = true → exec (.lldpReceive p (some tw)) s = .next s) ∧
     (on = true → x.link = true → inDip s = false →
       (∀ c, x.lldpAt = some c → s.cycle - c < 1000000000 →
         exec (.lldpReceive p (some tw)) s = .next (count (Reg.CNT_PORT_LLDP_DROP p.val) s)) ∧
       (x.lldpAt = none → ∃ t, exec (.lldpReceive p (some tw)) s = .next t ∧ (port p.val t).eeeNeg = true ∧
         (port p.val t).partRxTw = tw.toNat ∧ (port p.val t).twTx = max tw.toNat (rfld (Reg.PORT_EEE_CFG p.val) 7 0 s) ∧
         (port p.val t).lldpAt = some s.cycle ∧ (port p.val t).supStamp = rxStamp p.val s ∧ SameBut [.ports] s t))) ∧
    (∃ t, exec (.lldpTtlExpiry p) s = .next t ∧ (port p.val t).eeeNeg = false ∧ (port p.val t).twTx = 0 ∧
      (port p.val t).lpiTx = false ∧ (port p.val t).link = x.link ∧ SameBut [.outs, .regs, .sched, .ports] s t)

/-- Completes, under conditions on the state and the operands alone: mdioAddress, mdioWrite, mdioRead, mdioReadIncrement,
mdioAddressWrite, mdioAddressRead.
MDIO (R353 to R356): the command of the slot whose turn it is goes out as its Clause 45 frames, an address frame first where the
operation has one, and its slot is free after it. A read gives RDATA; without a turnaround ERR is 1 and RDATA 0xFFFF. A row
whose operation waits in no slot sends nothing, and PD_SUP drives the bus. The write that starts a command is made first; a
bus whose output is disabled sends nothing (R543). -/
def Obligations.MdioFramesGoOut : Prop :=
  ∀ (s : State) (g : Fin 8) (d : BitVec 16), s.quiet → s.wf →
    (domState 18 s ≠ .on → exec (.mdioAddress g none) s = .next s ∧ exec (.mdioWrite g none) s = .next s ∧
      exec (.mdioAddressWrite g none) s = .next s ∧ ∀ a, exec (.mdioRead g none a) s = .next s ∧
        exec (.mdioReadIncrement g none a) s = .next s ∧ exec (.mdioAddressRead g none a) s = .next s) ∧
    (∀ x : MdioStart, judge (Reg.PORT_MDIO_CMD g.val x.slot.val) s = .perform →
      let u := mdioStart g.val x.slot.val x.src x.value s
      exec (.mdioAddress g (some x)) s = exec (.mdioAddress g none) u ∧ exec (.mdioWrite g (some x)) s = exec (.mdioWrite g none) u ∧
      exec (.mdioAddressWrite g (some x)) s = exec (.mdioAddressWrite g none) u ∧
      ∀ a, exec (.mdioRead g (some x) a) s = exec (.mdioRead g none a) u ∧
        exec (.mdioReadIncrement g (some x) a) s = exec (.mdioReadIncrement g none a) u ∧
        exec (.mdioAddressRead g (some x) a) s = exec (.mdioAddressRead g none a) u) ∧
    (∀ slot, slot < 2 → domState 18 s = .on → mdioNext g.val s = some slot →
      let cmd := reg (Reg.PORT_MDIO_CMD g.val slot) s
      let arg := reg (Reg.PORT_MDIO_ARG g.val slot) s
      let out := fun (bits : Nat) (x : Option Nat) => Output.mdio g.val (rfld (Reg.PORT_MDIO_CFG g.val) 7 0 s)
        (!rbit (Reg.PORT_MDIO_CFG g.val) 8 s) bits (fld cmd 9 5) (fld cmd 4 0) x
      let sent := fun (l : List Output) => if rbit Reg.GEN_LAND_SHORT (19 + g.val) s then s.outs else l ++ s.outs
      let x := mdioBus g.val s
      let free := fun (y : MdioState) => { y with op := tput (fun _ => 0) slot 0 x.op, last := slot }
      let read := fun (y : MdioState) => { y with
        err := tput (fun _ => false) slot false x.err, rdata := tput (fun _ => 0) slot d.toNat x.rdata }
      let silent := fun (y : MdioState) => { y with
        err := tput (fun _ => false) slot true x.err, rdata := tput (fun _ => 0) slot 0xFFFF x.rdata }
      let addr := out 0 (some (fld arg 31 16))
      let data := out 1 (some (fld arg 15 0))
      let does := fun (c : Instr) (l : List Output) (y : MdioState) => ∃ t, exec c s = .next t ∧ t.outs = sent l ∧
        mdioBus g.val t = y ∧ SameBut [.outs, .mdio] s t
      (mdioOp g.val slot s = 1 → does (.mdioAddress g none) [addr] (free x)) ∧
      (mdioOp g.val slot s = 2 → does (.mdioWrite g none) [data] (free x)) ∧
      (mdioOp g.val slot s = 3 → does (.mdioRead g none (some d)) [out 3 none] (read (free x)) ∧
        does (.mdioRead g none none) [out 3 none] (silent (free x))) ∧
      (mdioOp g.val slot s = 4 → does (.mdioReadIncrement g none (some d)) [out 2 none] (read (free x)) ∧
        does (.mdioReadIncrement g none none) [out 2 none] (silent (free x))) ∧
      (mdioOp g.val slot s = 5 → does (.mdioAddressWrite g none) [data, addr] (free x)) ∧
      (mdioOp g.val slot s = 6 → does (.mdioAddressRead g none (some d)) [out 3 none, addr] (read (free x)) ∧
        does (.mdioAddressRead g none none) [out 3 none, addr] (silent (free x))) ∧
      (mdioOp g.val slot s ≠ 1 → exec (.mdioAddress g none) s = .next s) ∧
      (mdioOp g.val slot s ≠ 2 → exec (.mdioWrite g none) s = .next s) ∧
      (mdioOp g.val slot s ≠ 5 → exec (.mdioAddressWrite g none) s = .next s) ∧
      (∀ a, (mdioOp g.val slot s ≠ 3 → exec (.mdioRead g none a) s = .next s) ∧
        (mdioOp g.val slot s ≠ 4 → exec (.mdioReadIncrement g none a) s = .next s) ∧
        (mdioOp g.val slot s ≠ 6 → exec (.mdioAddressRead g none a) s = .next s)))

/-- Completes, under conditions on the state and the operands alone: laneTrain, retrainWindow, laneWake, laneNoEnergy, slip,
eyeScanStart, eyeScanDone, laneCfgWrite, prbsCheckerLock, prbsCheckerLockLoss.
Training, sleep and the checks of a lane (R365, R366, R368 to R374, R384, R385). A lane that trains and is to run becomes ACTIVE;
in the retrain window an ACTIVE one re-adapts, unless a scan or a dip episode makes it wait; energy or its want wakes a
lane and puts it to sleep; a slip, a scan and a test setting are obeyed where R384 refuses none of them, and a refused one
shows its lowest reason; checkers count while they are locked. -/
def Obligations.LanesTrainSleepAndTest : Prop :=
  ∀ (s : State) (l : Fin 532) (v : Word) (bits errors : Nat), s.quiet → s.wf →
    let x := lane l.val s
    let ready := x.st = .train ∧ x.isOpen = false ∧ laneWanted l.val s = true
    let kept := laneHeld l.val s = true
    (¬ ready → exec (.laneTrain l) s = .next s) ∧
    (ready → kept → exec (.laneTrain l) s = .next (setLane l.val { x with held := x.held ++ [.trained] } s)) ∧
    (ready → ¬ kept → ∃ t, exec (.laneTrain l) s = .next t ∧ (lane l.val t).st = .active ∧ (lane l.val t).cdr = true ∧
      (lane l.val t).adapted = true ∧ (lane l.val t).slipPos < laneWord l.val ∧ (lane l.val t).saved = x.saved ∧
      SameBut [.free, .lanes] s t) ∧
    (∃ t, exec .retrainWindow s = .next t ∧ SameBut [.lanes] s t ∧
      (hasRx l.val = true → x.st = .active → x.cdr = true →
        (lane l.val t).retrainDue = (inDip s || x.scan)) ∧
      (lane l.val t).st = x.st) ∧
    (∀ energy, laneWanted l.val s = false → exec (.laneWake l energy) s = .next s) ∧
    (∀ energy, laneWanted l.val s = true → kept → s.pwr.ladder = 0 → exec (.laneWake l energy) s = .next (setLane l.val
      { x with energy := energy, held := x.held ++ [.wake energy] } s)) ∧
    (laneHeld l.val s = false → laneWanted l.val s = true → s.pwr.ladder = 0 →
      (x.st = .eidle → ∃ t, exec (.laneWake l true) s = .next t ∧ (lane l.val t).st = .active ∧
        t.outs = (if hasTx l.val then .trainingBurst l.val :: s.outs else s.outs) ∧ SameBut [.outs, .lanes] s t) ∧
      (x.st = .deep ∨ x.st = .off → ∃ t, exec (.laneWake l true) s = .next t ∧ (lane l.val t).st = .train ∧
        (lane l.val t).cdr = false ∧ (lane l.val t).adapted = savedUsable x s ∧ SameBut [.lanes] s t)) ∧
    (exec (.laneNoEnergy l true) s = .next s) ∧
    (isLocalLane l.val = true → laneHeld l.val s = false → (port (portOfLane l.val s) s).link = false → x.st = .active →
      ∃ t, exec (.laneNoEnergy l false) s = .next t ∧ (lane l.val t).st = .deep ∧ (lane l.val t).noEnergy = true ∧
        (lane l.val t).cdr = false ∧
        (lane l.val t).saved = (if x.adapted then some (s.pwr.caseTemp, s.cycle) else x.saved) ∧ SameBut [.lanes] s t) ∧
    (isLocalLane l.val = true → kept → (port (portOfLane l.val s) s).link = false →
      exec (.laneNoEnergy l false) s = .next (setLane l.val { x with energy := false, held := x.held ++ [.noEnergy] } s)) ∧
    (judge (Reg.LANE_ALIGN l.val) s = .perform →
      (bitOf v 0 = false → exec (.slip l v) s = .next s) ∧
      (bitOf v 0 = true → laneRetired l.val s = true → ∃ t, exec (.slip l v) s = .next t ∧ (lane l.val t).err = 4 ∧
        reg (Reg.CNT_LANE_CFG_REFUSED l.val) t = satAdd (reg (Reg.CNT_LANE_CFG_REFUSED l.val) s) 1 ∧
        SameBut [.regs, .lanes] s t) ∧
      (bitOf v 0 = true → laneRetired l.val s = false → rbit (Reg.LANE_CFG l.val) 9 s = true ∨ rfld (Reg.LANE_CFG l.val) 2 0 s ≠ 0 →
        ∃ t, exec (.slip l v) s = .next t ∧ lane l.val t = { x with slipPos := (x.slipPos + 1) % laneWord l.val } ∧
          SameBut [.lanes] s t)) ∧
    (judge (Reg.LANE_EYE_CTRL l.val) s = .perform → fld v 18 12 ≠ 64 →
      (bitOf v 30 = true → isLocalLane l.val = false → ∃ t, exec (.eyeScanStart l v) s = .next t ∧ (lane l.val t).err = 3 ∧
        (lane l.val t).scan = x.scan ∧ SameBut [.regs, .lanes] s t) ∧
      (bitOf v 30 = true → isLocalLane l.val = true → laneRetired l.val s = false → x.scan = false → x.st = .active →
        x.cdr = true → ∃ t, exec (.eyeScanStart l v) s = .next t ∧
          lane l.val t = { x with scan := true, scanHeld := inDip s } ∧
          reg (Reg.LANE_EYE_CTRL l.val) t = v &&& 0x00F7F03F ∧ RegsBut [Reg.LANE_EYE_CTRL l.val] s t ∧
          SameBut [.regs, .lanes] s t)) ∧
    (x.scan = false ∨ x.scanHeld = true → exec (.eyeScanDone l errors) s = .next s) ∧
    (x.scan = true → x.scanHeld = false → ∃ t, exec (.eyeScanDone l errors) s = .next t ∧ (lane l.val t).scan = false ∧
      (lane l.val t).eye = satAdd 0 errors ∧ SameBut [.lanes] s t) ∧
    (judge (Reg.LANE_CFG l.val) s = .perform →
      (cfgReason l.val v s ≠ 0 → ∃ t, exec (.laneCfgWrite l v) s = .next t ∧
        lane l.val t = { x with err := cfgReason l.val v s } ∧
        reg (Reg.CNT_LANE_CFG_REFUSED l.val) t = satAdd (reg (Reg.CNT_LANE_CFG_REFUSED l.val) s) 1 ∧
        RegsBut [Reg.CNT_LANE_CFG_REFUSED l.val] s t ∧ SameBut [.regs, .lanes] s t) ∧
      (cfgReason l.val v s = 0 → ∃ t, exec (.laneCfgWrite l v) s = .next t ∧ reg (Reg.LANE_CFG l.val) t = v &&& 0x2F7 ∧
        SameBut [.free, .outs, .regs, .recd, .ring, .tub, .sched, .ports, .lanes] s t)) ∧
    (let on := rbit (Reg.LANE_CFG l.val) 5 s = true ∧ x.st = .active ∧ x.cdr = true
     (¬ on → exec (.prbsCheckerLock l bits errors) s = .next s) ∧
     (on → ∃ t, exec (.prbsCheckerLock l bits errors) s = .next t ∧ (lane l.val t).prbsLock = true ∧
       (lane l.val t).prbsErr = x.prbsErr + errors ∧
       reg (Reg.CNT_LANE_PRBS_BITS_LO l.val) t = reg (Reg.CNT_LANE_PRBS_BITS_LO l.val) s + word bits ∧
       reg (Reg.CNT_LANE_PRBS_ERR_LO l.val) t = reg (Reg.CNT_LANE_PRBS_ERR_LO l.val) s + word errors ∧
       SameBut [.regs, .lanes] s t)) ∧
    (x.prbsLock = false → exec (.prbsCheckerLockLoss l bits errors) s = .next s) ∧
    (x.prbsLock = true → ∃ t, exec (.prbsCheckerLockLoss l bits errors) s = .next t ∧ (lane l.val t).prbsLock = false ∧
      (lane l.val t).prbsErr = x.prbsErr + errors ∧ SameBut [.regs, .lanes] s t)

/-- Completes, under conditions on the state and the operands alone: receiverDetect, evLaneShort, shortRetry, laneRetire,
laneUnretire.
Wiring faults and retirement (R378 to R383): a transmit lane found open or shorted is shown and counted once, and a fault event of
LANE is noted; a short is tried again. Retirement sets the lane's bit of LANE_RETIRED and holds the lane OFF, and its end
clears the bit and trains the lane. Shown for lanes in no port's use. -/
def Obligations.LaneFaultsAndRetirement : Prop :=
  ∀ (s : State) (l : Fin 532), s.quiet → s.wf →
    let x := lane l.val s
    let e := 8 + l.val / 32
    (hasTx l.val = false ∨ x.st = .active ∨ x.st = .off → ∀ f, exec (.receiverDetect l f) s = .next s) ∧
    (hasTx l.val = true → x.st ≠ .active → x.st ≠ .off →
      (∃ t, exec (.receiverDetect l true) s = .next t ∧ lane l.val t = { x with isOpen := false } ∧ SameBut [.lanes] s t) ∧
      (x.isOpen = false → ∃ u, exec (.receiverDetect l false) s = .next (settleFaults u) ∧
        lane l.val u = { x with isOpen := true } ∧
        reg (Reg.CNT_LANE_OPEN l.val) u = satAdd (reg (Reg.CNT_LANE_OPEN l.val) s) 1 ∧
        SameBut [.regs, .recd, .ring, .assay, .faultsIn, .lanes, .chain] s u)) ∧
    (hasTx l.val = false ∨ x.st = .off ∨ x.short = true → exec (.evLaneShort l) s = .next s) ∧
    (hasTx l.val = true → x.st ≠ .off → x.short = false → ∃ u, exec (.evLaneShort l) s = .next (settleFaults u) ∧
      lane l.val u = { x with short := true } ∧
      reg (Reg.CNT_LANE_SHORT l.val) u = satAdd (reg (Reg.CNT_LANE_SHORT l.val) s) 1 ∧
      SameBut [.free, .outs, .regs, .recd, .ring, .assay, .faultsIn, .tub, .sched, .ports, .lanes, .chain] s u) ∧
    exec (.shortRetry l true) s = .next s ∧
    (∃ t, exec (.shortRetry l false) s = .next t ∧ lane l.val t = { x with short := false } ∧ SameBut [.lanes] s t) ∧
    (laneRetired l.val s = true → exec (.laneRetire l true) s = .next s) ∧
    (judge (Reg.LANE_RETIRED (l.val / 32)) s = .perform → laneRetired l.val s = false → exec (.laneUnretire l) s = .next s) ∧
    (s.keep.failedDie = none → s.keep.failedUnits = [] → (keepEntry e s).wear + 1 < 500000000000 →
      (laneRetired l.val s = false → ∃ u, exec (.laneRetire l true) s = .next (settleFaults u) ∧
        laneRetired l.val u = true ∧ (lane l.val u).st = .off ∧
        (∀ k, k < 532 → k ≠ l.val → laneRetired k u = laneRetired k s) ∧
        SameBut [.free, .outs, .regs, .keep, .recd, .ring, .assay, .faultsIn, .seams, .tub, .sched, .ports, .lanes, .chain] s u) ∧
      (judge (Reg.LANE_RETIRED (l.val / 32)) s = .perform → laneRetired l.val s = true →
        ∃ t, exec (.laneUnretire l) s = .next t ∧ laneRetired l.val t = false ∧
          (∀ k, k < 532 → k ≠ l.val → laneRetired k t = laneRetired k s) ∧
          (laneWanted l.val t = true → (lane l.val t).st = .train) ∧ SameBut [.keep, .lanes] s t))
/-! ### Time -/

/-- Completes, under conditions on the state and the operands alone: timeIncWrite, ownerChange, timeNowRead, timeAdj.
TIME_INC_WRITE, OWNER_CHANGE, TIME_ADJ, TIME_NOW_READ (R387 to R389, R397, R398). A write of the increment or of a step by
a party that does not own the time is counted only; an increment in range is in force at once; a step is made while time is not
valid, or of STEP_NS at most, or once as TIME_STEP_ALLOW lets it, and is otherwise refused. A new OWNER waits for the tick. A read
of TIME_NOW_NS answers the nanoseconds and latches the seconds and the fraction of the same instant for its source. -/
def Obligations.TimeIsWrittenByItsOwner : Prop :=
  ∀ (src : Source) (v : Word) (s : State), s.quiet → s.wf →
    let inc := incOf v (reg Reg.TIME_INC_LO s)
    let ps := (signed 32 (reg Reg.TIME_ADJ_SEC s).toNat * 10 ^ 9 + signed 32 v.toNat) * 1000
    let small := (ps.natAbs : Int) ≤ (reg Reg.TIME_STEP_NS s).toNat * 1000
    let stepped := { s.time with now := (movedTime ps s).toNat, valid := true, beforeStep := some (s.cycle, stampBase s) }
    (judge Reg.TIME_INC_HI s = .perform →
      (ownsTime src s = false → exec (.timeIncWrite src v) s = .next (count Reg.CNT_TIME_OWNER_BAD s)) ∧
      (ownsTime src s = true → incInRange inc = false → exec (.timeIncWrite src v) s = .next (count Reg.CNT_TIME_INC_BAD s)) ∧
      (ownsTime src s = true → incInRange inc = true → ∃ t, exec (.timeIncWrite src v) s = .next t ∧
        t.time = { s.time with inc := inc } ∧ reg Reg.TIME_INC_LO t = word inc ∧
        reg Reg.TIME_INC_HI t = word (inc / 2 ^ 32 % 2 ^ 10) ∧ RegsBut [Reg.TIME_INC_LO, Reg.TIME_INC_HI] s t ∧
        SameBut [.regs, .time] s t)) ∧
    (judge Reg.TIME_CTRL s = .perform → ∃ t, exec (.ownerChange src v) s = .next t ∧
      reg Reg.TIME_CTRL t = v &&& 0x1F3F ∧ t.time.owner = s.time.owner ∧ RegsBut [Reg.TIME_CTRL] s t ∧ SameBut [.regs] s t) ∧
    (judge Reg.TIME_ADJ_NS s = .perform →
      (ownsTime src s = false → exec (.timeAdj src v) s = .next (count Reg.CNT_TIME_OWNER_BAD s)) ∧
      (ownsTime src s = true →
        (0 ≤ movedTime ps s → s.time.valid = false ∨ small → ∃ t, exec (.timeAdj src v) s = .next t ∧ t.time = stepped ∧
          SameBut [.regs, .recd, .ring, .time, .now, .sched] s t) ∧
        (0 ≤ movedTime ps s → s.time.valid = true → ¬ small → stepOnce s = true → s.keep.failedDie = none →
          s.keep.failedUnits = [] → (keepEntry 2 s).wear + 1 < 500000000000 → ∃ t, exec (.timeAdj src v) s = .next t ∧
          t.time = stepped ∧ keepValue 2 t = 0 ∧ SameBut [.regs, .keep, .recd, .ring, .time, .now, .sched] s t) ∧
        (movedTime ps s < 0 ∨ s.time.valid = true ∧ ¬ small ∧ stepOnce s = false → ∃ t, exec (.timeAdj src v) s = .next t ∧
          t.time = { s.time with stepRefused := true } ∧
          reg Reg.CNT_TIME_STEP_REFUSED t = satAdd (reg Reg.CNT_TIME_STEP_REFUSED s) 1 ∧
          SameBut [.regs, .recd, .ring, .time] s t))) ∧
    (judge Reg.TIME_NOW_NS s = .perform → ∃ t, exec (.timeNowRead src) s = .next t ∧
      t.outs = .readReply src (word Reg.TIME_NOW_NS) (word (timeNs s)) :: s.outs ∧
      tget (fun _ => 0) t.latch (latchKey src Reg.TIME_NOW_SEC_LO) = loWord (timeSeconds s) ∧
      tget (fun _ => 0) t.latch (latchKey src Reg.TIME_NOW_SEC_HI) = hiWord (timeSeconds s) ∧
      tget (fun _ => 0) t.latch (latchKey src Reg.TIME_NOW_FRAC) = word (timeFrac s) ∧ SameBut [.outs, .latch] s t)

/-- Completes, under conditions on the state and the operands alone: holdoverEnter, ptpMessage, ppsInEdge, ppsOutPulse,
ptpSyncInterval.
HOLDOVER_ENTER, PTP_MESSAGE, PTP_SYNC_INTERVAL, PPS_IN_EDGE, PPS_OUT_PULSE (R359, R360, R390 to R396, R399, R400). Holdover is entered
when the selected source ceases to qualify and no other does. The boundary clock answers what its port's state lets it answer,
takes a Sync's and a Follow_Up's measurement from the master it follows, and sends Sync with Follow_Up, or Announce, while
MASTER; a Follow_Up carries the transmit stamp of its Sync. Exchange and fields are those of IEEE 1588-2019 (PRESUMED, log
48). An input edge near a whole second is accepted and measured, any other counted; the output pulse rises once a second and
falls. -/
def Obligations.TimeSourcesAreMeasured : Prop :=
  ∀ (l : Fin 512) (m : PtpMessage) (s : State), s.quiet → s.wf →
    let p := ptpPort l.val s
    let st := ptpState l.val s
    let p2p := rbit (Reg.TIME_PTP_PORT l.val) 29 s
    let lost := s.time.sel ≠ 0 ∧ firstSource (activeSide s) s = 0
    let up := (port l.val s).link = true ∧ inDip s = false
    let heard := rbit (Reg.TIME_PTP_PORT l.val) 31 s = true ∧ m.domain.toNat = rfld Reg.TIME_PTP_CFG 31 24 s
    let rx : Int := rxStamp l.val s
    let tx := txStamp l.val s
    let corr := signed 64 m.correction.toNat
    let wire := portLoop l.val s = 0
    let sends := [Part.outs, .regs, .land, .time]
    (¬ lost → exec .holdoverEnter s = .next s) ∧
    (lost → ∃ t, exec .holdoverEnter s = .next t ∧
      t.time = { s.time with
        qual := qualBits (activeSide s) s, holdover := true, sel := 0, offsetPs := none } ∧
      SameBut [.regs, .recd, .ring, .time] s t) ∧
    ((port l.val s).link = false → exec (.ptpMessage l m) s = .next s) ∧
    ((port l.val s).link = true → inDip s = true → exec (.ptpMessage l m) s
      = .next { s with supply := { s.supply with dropped := s.supply.dropped + 1 } }) ∧
    (up → ¬ heard → exec (.ptpMessage l m) s = .next s) ∧
    (up → heard →
      (∀ d, m.kind = .announce d → p.foreign = [] → ∃ t, exec (.ptpMessage l m) s = .next t ∧
        (ptpPort l.val t).foreign
          = [{ data := d, sender := m.sender, senderPort := m.senderPort.toNat, cycle := s.cycle, prev := none }] ∧
        SameBut [.regs, .time] s t) ∧
      (m.kind = .sync → fromParent l.val m s = true → ∃ t, exec (.ptpMessage l m) s = .next t ∧
        ptpPort l.val t = { p with
          lastSync := some s.cycle, syncSeq := m.seq.toNat, syncCorr := corr, t2 := some rx, t1 := none } ∧
        SameBut [.time] s t) ∧
      (fromParent l.val m s = false → m.kind = .sync ∨ (∃ o, m.kind = .followUp o) ∨ (∃ r a, m.kind = .delayResp r a) →
        exec (.ptpMessage l m) s = .next s) ∧
      (∀ o b, m.kind = .followUp o → fromParent l.val m s = true → p.syncSeq = m.seq.toNat → p.t2 = some b → p.t1 = none →
        ∃ t, exec (.ptpMessage l m) s = .next t ∧ (ptpPort l.val t).reqSeq = p.txReqSeq ∧
          (wire → supMaySend l.val s = true →
            t.outs = .ptp l.val p.txReqSeq (if p2p then .pdelayReq else .delayReq) :: s.outs ∧
            (ptpPort l.val t).t3 = some tx) ∧
          t.time.offsetPs = (if s.time.sel = 2 then
            some ((b - ((o : Int) * 65536 + p.syncCorr + corr) - p.meanPath) * 1000 / 65536) else s.time.offsetPs) ∧
          SameBut sends s t) ∧
      (∀ r a x y z, m.kind = .delayResp r a → fromParent l.val m s = true → p2p = false → answersMine l.val m a s = true →
        p.t1 = some x → p.t2 = some y → p.t3 = some z →
        exec (.ptpMessage l m) s = .next (setPtpPort l.val { p with
          meanPath := ((y - x) + ((r : Int) * 65536 - corr - z)) / 2, t3 := none } s)) ∧
      (m.kind = .delayReq → st = 2 → p2p = false → exec (.ptpMessage l m) s
        = .next (sendPtp l.val m.seq.toNat (.delayResp m.sender m.senderPort (stampNs rx) (corr - stampFrac rx)) s)) ∧
      (m.kind = .delayReq → st ≠ 2 ∨ p2p = true → exec (.ptpMessage l m) s = .next s) ∧
      (m.kind = .pdelayReq → p2p = true → wire → supMaySend l.val s = true → ∃ t, exec (.ptpMessage l m) s = .next t ∧
        t.outs = .ptp l.val m.seq.toNat (.pdelayRespFollowUp m.sender m.senderPort (stampNs tx) (corr + stampFrac tx))
          :: .ptp l.val m.seq.toNat (.pdelayResp m.sender m.senderPort (stampNs rx) (-(stampFrac rx))) :: s.outs ∧
        SameBut sends s t) ∧
      (m.kind = .other → exec (.ptpMessage l m) s = .next s)) ∧
    (∀ announce, st ≠ 2 ∨ supMaySend l.val s = false → exec (.ptpSyncInterval l announce) s = .next s) ∧
    (st = 2 → supMaySend l.val s = true →
      (∃ t, exec (.ptpSyncInterval l false) s = .next t ∧ (ptpPort l.val t).txSyncSeq = (p.txSyncSeq + 1) % 2 ^ 16 ∧
        (wire → t.outs = .ptp l.val p.txSyncSeq (.followUp (stampNs tx) (stampFrac tx)) :: .ptp l.val p.txSyncSeq .sync :: s.outs) ∧
        SameBut sends s t) ∧
      (∃ t, exec (.ptpSyncInterval l true) s = .next t ∧ ptpPort l.val t = { p with txAnnSeq := (p.txAnnSeq + 1) % 2 ^ 16 } ∧
        (wire → t.outs = .ptp l.val p.txAnnSeq (.announce (announcedDataset s)) :: s.outs) ∧ SameBut sends s t)) ∧
    (exec (.ppsInEdge (rbit Reg.TIME_CTRL 9 s)) s = .next s) ∧
    (let e := toWholeSecond (ppsStamp s)
     let ok := e.natAbs ≤ 10 ^ 8 ∧ ∀ c, s.time.ppsLast = some c → 9 * 10 ^ 8 ≤ s.cycle - c
     (ok → exec (.ppsInEdge (!rbit Reg.TIME_CTRL 9 s)) s = .next { s with
       time := { s.time with
         ppsLast := some s.cycle, ppsAccepted := (true :: s.time.ppsAccepted).take 2,
         offsetPs := if s.time.sel = 3 then some e else s.time.offsetPs } }) ∧
     (¬ ok → ∃ t, exec (.ppsInEdge (!rbit Reg.TIME_CTRL 9 s)) s = .next t ∧
       t.time = { s.time with
         ppsAccepted := (false :: s.time.ppsAccepted).take 2 } ∧
       reg Reg.CNT_TIME_PPS_REJECT t = satAdd (reg Reg.CNT_TIME_PPS_REJECT s) 1 ∧
       RegsBut [Reg.CNT_TIME_PPS_REJECT] s t ∧ SameBut [.regs, .time] s t)) ∧
    (rbit Reg.GEN_LAND_SHORT 5 s = false →
      (rbit Reg.TIME_CTRL 10 s = true → domState 18 s = .on → (∀ k, s.time.ppsOutSecond = some k → k < (ppsOutSecondNow s).toNat) →
        exec (.ppsOutPulse true) s = .next { s with
          time := { s.time with
            ppsOutSecond := some (ppsOutSecondNow s).toNat, ppsOutHigh := true },
          outs := .ppsOut true :: s.outs }) ∧
      (s.time.ppsOutHigh = true → exec (.ppsOutPulse false) s = .next { s with
        time := { s.time with
          ppsOutHigh := false },
        outs := .ppsOut false :: s.outs })) ∧
    (rbit Reg.TIME_CTRL 10 s = false ∨ domState 18 s ≠ .on → exec (.ppsOutPulse true) s = .next s)

/-! ### Protection -/

/-- Completes, under conditions on the state and the operands alone: canaryRun, evCanary, canaryAbort.
CANARY_RUN, EV_CANARY, CANARY_ABORT (R408 to R414). With the canary enabled and no run and no switch in progress a due run sets the
test fields of the cold side's lanes and votes for the side's domain, or is skipped, which is counted once. A run that
ends passes where every seam required has passed both tests and the optic is good; an aborted run keeps its former result. -/
def Obligations.CanaryRunsAreMadeAndJudged : Prop :=
  ∀ (o : CanaryOptic) (s : State), s.quiet → s.wf →
    let side := coldSide s
    let due := rbit Reg.PROT_CTRL 3 s = true ∧ s.prot.canary = none ∧ s.prot.switching = none
    (¬ due → exec .canaryRun s = .next s) ∧
    (due → canarySkips s = true →
      (s.prot.retry = true → exec .canaryRun s = .next s) ∧
      (s.prot.retry = false → ∃ t, exec .canaryRun s = .next t ∧ t.prot.retry = true ∧ t.prot.canary = none ∧
        health side t = health side s ||| word (2 ^ 28) ∧
        reg Reg.CNT_CANARY_SKIP t = satAdd (reg Reg.CNT_CANARY_SKIP s) 1 ∧ SameBut [.regs, .prot] s t)) ∧
    (due → canarySkips s = false → ∃ t, exec .canaryRun s = .next t ∧
      t.prot = { s.prot with
        retry := false, canary := some (sideOf side), canaryAt := s.cycle, canaryPrbs := none } ∧
      (∀ n, n < 4 → reg (Reg.LANE_CFG (lineRx side n)) t = 0xA1 ∧ reg (Reg.LANE_CFG (lineTx side n)) t = 0x90) ∧
      votesFor 8 (lineDomain side) t = true ∧ SameBut [.outs, .regs, .pwr, .land, .prot, .lanes, .dom, .votes] s t) ∧
    (s.prot.canary = none → exec .canaryAbort s = .next s ∧ exec (.evCanary o) s = .next s) ∧
    (∀ c, s.prot.canary = some c →
      (∃ t, exec .canaryAbort s = .next t ∧ t.prot.canary = none ∧
        health c.val t = health c.val s ||| word (2 ^ 29) ∧
        SameBut [.free, .outs, .regs, .recd, .ring, .prot, .tub, .sched, .ports, .lanes] s t) ∧
      ∃ u, exec (.evCanary o) s = .next (settleFaults u) ∧ u.prot.canary = none ∧
        reg Reg.CNT_CANARY_RUN u = satAdd (reg Reg.CNT_CANARY_RUN s) 1 ∧
        (fld (health c.val u) 31 30 = 1 ∨ fld (health c.val u) 31 30 = 2) ∧
        (fld (health c.val u) 31 30 = 1 ↔
          o.present = true ∧ o.answered = true ∧ o.pathActive = true ∧ o.alarm = false ∧
          rbit (Reg.GEN_OPTIC c.val) 4 s = true ∧
          ∀ n, n < 4 → rbit Reg.PROT_CTRL (4 + n) s = true →
            (s.prot.canaryPrbs = none → (lane (lineRx c.val n) s).prbsSeen = true ∧ (lane (lineRx c.val n) s).prbsErr ≤ 10) ∧
            (∀ w ∈ s.prot.canaryPrbs, w / 2 ^ n % 2 = 1) ∧ inSync c.val n s = true ∧
            fcNear (seam c.val n s).fc s.tick.count = true) ∧
        SameBut [.free, .outs, .regs, .recd, .ring, .pwr, .dom, .votes, .assay, .faultsIn, .land, .prot, .tub, .sched, .ports,
          .lanes] s u)

/-- Completes, under conditions on the state and the operands alone: seamEligible, sideFailed, manual, forced, lockout,
clear, protectionSwitch, evProtSwitch, evProtSwitchFail, waitToRestoreExpiry.
SEAM_ELIGIBLE, SIDE_FAILED, MANUAL, FORCED, LOCKOUT, CLEAR, PROTECTION_SWITCH, EV_PROT_SWITCH, EV_PROT_SWITCH_FAIL,
WAIT_TO_RESTORE_EXPIRY (R415 to R422). A command waits for the decision of a tick; during Lockout only Clear does, and a
Manual that could not switch is refused. A switch decided makes the cold side active; it ends when a seam of the new side is in
SYNC, or has failed. -/
def Obligations.ProtectionRequestsSwitchSides : Prop :=
  ∀ s : State, s.quiet → s.wf →
    let p := s.prot
    let wait := fun (c : Nat) => { s with prot := { p with cmds := p.cmds ++ [c] } }
    let shown := fun (r : SwitchRun) (failed : Nat) =>
      word (r.req * 2 ^ 29 + failed * 2 ^ 28 + min ((s.cycle - r.cycle) / 10000) 0xFFFF)
    let wtr := wtrRuns s = true ∧ p.wtrStart.isSome = true ∧ 2 ≤ p.wtrPasses
    (∀ n : Fin 4,
      (domState (lineDomain (activeSide s)) s = .on → ∃ t, exec (.seamEligible n) s = .next t ∧
        (seam (activeSide s) n.val t).eligible = true ∧ SameBut [.seams] s t) ∧
      (domState (lineDomain (activeSide s)) s ≠ .on → exec (.seamEligible n) s = .next s)) ∧
    (anySeamFailed s = false → exec .sideFailed s = .next s) ∧
    (anySeamFailed s = true → ∃ t, exec .sideFailed s = .next t ∧ t.prot.failed = true ∧ t.prot.canary = none ∧
      SameBut [.free, .outs, .regs, .recd, .ring, .prot, .tub, .sched, .ports, .lanes] s t) ∧
    (judge Reg.PROT_CMD s = .perform →
      (p.req = 1 → exec .lockout s = .next { s with prot := { p with err := 2 } } ∧
        (∃ t, exec .forced s = .next t ∧ t.prot = { p with err := 2 } ∧
          reg Reg.CNT_PROT_DENIED t = satAdd (reg Reg.CNT_PROT_DENIED s) 1 ∧ SameBut [.regs, .recd, .ring, .prot] s t) ∧
        ∃ t, exec .manual s = .next t ∧ t.prot = { p with err := 2 } ∧
          reg Reg.CNT_PROT_DENIED t = satAdd (reg Reg.CNT_PROT_DENIED s) 1 ∧ SameBut [.regs, .recd, .ring, .prot] s t) ∧
      (p.canary = none → exec .clear s = .next (wait 4) ∧
        (p.req ≠ 1 → exec .forced s = .next (wait 2) ∧ exec .lockout s = .next (wait 3) ∧
          exec .manual s = .next (if coldEligible s && !sideFailed s then wait 1 else { s with prot := { p with err := 1 } })))) ∧
    (p.decided = none ∨ p.switching.isSome = true ∨ inDip s = true → exec .protectionSwitch s = .next s) ∧
    (∀ req, p.decided = some req → p.switching = none → inDip s = false → ∃ t, exec .protectionSwitch s = .next t ∧
      activeSide t = coldSide s ∧ t.prot.switching = some { req := req, tick := s.tick.count, cycle := s.cycle } ∧
      t.prot.decided = none ∧ t.prot.failed = false ∧ t.prot.marked = false ∧ t.prot.canary = none ∧
      (∀ side n, (seam side n t).stamps = []) ∧ (req = 3 → fld (health (activeSide s) t) 31 30 = 2) ∧
      SameBut [.free, .outs, .regs, .keep, .recd, .ring, .pwr, .dom, .votes, .land, .prot, .active, .seams, .tub, .sched, .ports,
        .join, .ciph, .circuits, .lanes] s t) ∧
    (p.switching = none → exec .evProtSwitch s = .next s ∧ exec .evProtSwitchFail s = .next s) ∧
    (∀ r, p.switching = some r →
      ((lowestSync (activeSide s) s).isSome = true → exec .evProtSwitchFail s = .next s ∧
        ∃ t, exec .evProtSwitch s = .next t ∧ t.prot.switching = none ∧ t.prot.lastSwitch = shown r 0 ∧
        reg Reg.CNT_PROT_SWITCH t = satAdd (reg Reg.CNT_PROT_SWITCH s) 1 ∧
        SameBut [.free, .outs, .regs, .keep, .recd, .ring, .pwr, .dom, .votes, .land, .prot, .seams, .tub, .sched, .join, .lanes]
          s t) ∧
      ((lowestSync (activeSide s) s).isSome = false → exec .evProtSwitch s = .next s ∧
        ∃ t, exec .evProtSwitchFail s = .next t ∧ t.prot.switching = none ∧ t.prot.lastSwitch = shown r 1 ∧
          fld (health (coldSide s) t) 31 30 = 2 ∧
          reg Reg.CNT_PROT_SWITCH_FAIL t = satAdd (reg Reg.CNT_PROT_SWITCH_FAIL s) 1 ∧
          SameBut [.outs, .regs, .recd, .ring, .pwr, .dom, .votes, .land, .prot, .seams, .join, .lanes] s t)) ∧
    (wtr → exec .waitToRestoreExpiry s = .next { s with prot := { p with wtrDue := true } }) ∧
    (¬ wtr → exec .waitToRestoreExpiry s = .next s)

/-! ### Keys, keep and recorder -/

/-- Completes, under conditions on the state and the operands alone: oprootCommit, keyDerived, keyRetire, unwrap, erase,
rekey.
OPROOT_COMMIT, KEY_DERIVED, KEY_RETIRE, UNWRAP, ERASE, REKEY (R423, R428, R429, R434, R440, R442, R443). The operator root key is
written once, from data that is not all zero, outside dip episodes, and the data registers are then 0. The first derivation
in request order that has its slot completes, or fails for want of its root. A retired key is gone. An unwrap shows its
result and on success leaves the key in its slot; an erased slot is empty. A rekey is refused while slots in hand carry the
former epoch or the scan runs, and otherwise raises the epoch. -/
def Obligations.KeysAreCommittedDerivedAndErased : Prop :=
  ∀ (i : Fin 128) (v : Word) (keepFails : Bool) (s : State), s.quiet → s.wf →
    let root := regBytes Reg.CIPH_OPROOT_DATA 8 s
    let err := if s.keep.opRoot.isSome then 1 else if root.all (· == 0) then 2 else if inDip s then 3 else 0
    (judge Reg.CIPH_OPROOT_CMD s = .perform →
      ∃ t, exec .oprootCommit s = .next t ∧ rfld Reg.CIPH_OPROOT_CMD 5 4 t = err ∧
        (err ≠ 0 → RegsBut [Reg.CIPH_OPROOT_CMD] s t ∧ SameBut [.regs] s t) ∧
        (err = 0 → t.keep = { s.keep with opRoot := some root } ∧ (∀ w, w < 8 → reg (Reg.CIPH_OPROOT_DATA w) t = 0) ∧
          SameBut [.regs, .keep, .opRoot] s t)) ∧
    (s.ciph.jobs = [] → exec .keyDerived s = .next s) ∧
    (∀ j rest k, s.ciph.jobs = j :: rest → jobKey j s = some k → k.slot = true →
      ∃ t, exec .keyDerived s = .next t ∧ t.ciph.jobs = rest ∧ SameBut [.regs, .recd, .ring, .join, .ciph] s t ∧
        (lineRoot j.ident s = none → t.ciph.dirs = s.ciph.dirs ∧
          (j.ident < 128 → t.ciph.noRoot.getLsbD j.ident = true) ∧ SameBut [.regs, .recd, .ring, .ciph] s t) ∧
        ∀ r, lineRoot j.ident s = some r → t.ciph.noRoot.getLsbD j.ident = false ∧
          jobKey j t = some { k with
            key := some (deriveLine r j.ident j.up k.epoch.toNat (ident j.ident s).heid.toNat
              (rbit (Reg.CIPH_ID_CFG j.ident) 9 s)) }) ∧
    (twf (fun _ => KeyDir.reset) s.ciph.dirs = true → ∃ t, exec (.keyRetire i) s = .next t ∧
      (keyDir i.val false t).old = none ∧ (keyDir i.val false t).cur.epoch = (keyDir i.val false s).cur.epoch ∧
      (keyDir i.val false t).cur.key = (keyDir i.val false s).cur.key ∧ SameBut [.ciph] s t) ∧
    (judge Reg.CIPH_UNWRAP_CMD s = .perform →
      (let w := putFld v 27 26 1
       let out := unwrapResult (fld w 13 8) keepFails s
       ∃ t, exec (.unwrap v keepFails) s = .next t ∧
         reg Reg.CIPH_UNWRAP_CMD t = word (out.1 * 2 ^ 28 + fld w 13 8 * 2 ^ 8 + fld w 5 0) ∧
         (out.1 = 0 → tget (fun _ => []) t.keep.loaded (fld w 5 0) = out.2) ∧
         (out.1 ≠ 0 → t.keep = s.keep ∧
           reg Reg.CNT_CIPH_UNWRAP_FAIL t = satAdd (reg Reg.CNT_CIPH_UNWRAP_FAIL s) 1) ∧
         (∀ k, k ≠ fld w 5 0 → tget (fun _ => []) t.keep.loaded k = tget (fun _ => []) s.keep.loaded k) ∧
         SameBut [.regs, .keep, .recd, .ring] s t) ∧
      (let w := putFld v 27 26 2
       twf (fun _ => ([] : Bytes)) s.keep.loaded = true → ∃ t, exec (.erase v) s = .next t ∧
         tget (fun _ => []) t.keep.loaded (fld w 5 0) = [] ∧
         (∀ k, k ≠ fld w 5 0 → tget (fun _ => []) t.keep.loaded k = tget (fun _ => []) s.keep.loaded k) ∧
         SameBut [.regs, .keep, .recd, .ring] s t)) ∧
    (judge Reg.CIPH_STORE_CMD s = .perform →
      let refused := s.tally.scanning = true ∨
        ((usedSlotsOf s).any fun x => inHand x.2.st && x.2.epoch != journalEpoch s) = true
      (refused → ∃ t, exec .rekey s = .next t ∧ rfld Reg.CIPH_STORE_CMD 1 1 t = 1 ∧ RegsBut [Reg.CIPH_STORE_CMD] s t ∧
        SameBut [.regs] s t) ∧
      (¬ refused → s.keep.failedDie = none → s.keep.failedUnits = [] → (keepEntry 33 s).wear + 1 < 500000000000 →
        ∃ t, exec .rekey s = .next t ∧ rfld Reg.CIPH_STORE_CMD 1 1 t = 0 ∧ journalEpoch t = journalEpoch s + 1 ∧
          RegsBut [Reg.CIPH_STORE_CMD] s t ∧ SameBut [.regs, .keep] s t))

/-- Completes, under conditions on the state and the operands alone: keepMount, scrub, evKeepRemap, recordEvent.
KEEP_MOUNT, SCRUB, EV_KEEP_REMAP, RECORD_EVENT (R478, R481 to R483, R487, R488, R490). A mount takes place once, writes the records
that waited, and lets the upstream counter go on at a whole reserve. The scrub passes over the units of both dies in turn. A
failed unit goes to the die's next spare, is counted, and with no spare left stays failed and counts toward the die's fault
window. A record goes into the ring under the next SEQ while the bucket allows it, is lost and counted where not, and waits
before the mount. -/
def Obligations.KeepIsMountedScrubbedAndRemapped : Prop :=
  ∀ (die : Fin 2) (unit : Fin 32768) (torn : List (Fin 2 × Fin 4096)) (tornRecord : Bool) (code : BitVec 16) (source : Fin 3)
      (payload : Bytes) (s : State), s.quiet → s.wf →
    let key := die.val * 32768 + unit.val
    let len := recordLength payload.length
    (s.keep.mounted = true → exec (.keepMount torn tornRecord) s = .next s) ∧
    (s.keep.mounted = false → ∃ t, exec (.keepMount torn tornRecord) s = .next t ∧ t.keep.mounted = true ∧
      t.recd.waiting = [] ∧ t.recd.overflowed = false ∧ t.ciph.ctr % 2 ^ 36 = 0 ∧
      SameBut [.regs, .keep, .mounted, .recd, .ring, .ciph] s t) ∧
    (∀ bad other busy, s.keep.mounted = false ∨ busy = true ∨ s.keep.failedDie = some die →
      exec (.scrub die bad other busy) s = .next s) ∧
    (∀ other, s.keep.mounted = true → s.keep.failedDie ≠ some die →
      exec (.scrub die false other false) s = .next (if die = 1 ∨ s.keep.failedDie.isSome = true then
        { s with keep := { s.keep with scrubPos := (s.keep.scrubPos + 1) % 32768 } } else s)) ∧
    (∀ other, s.keep.failedDie = some die → exec (.evKeepRemap die unit other) s = .next s) ∧
    (s.keep.failedDie ≠ some die → spareLeft die.val s = 0 →
      ∃ u, exec (.evKeepRemap die unit false) s = .next (settleFaults u) ∧ u.keep.failedUnits.contains key = true ∧
        u.assay.faultsIn = [(3, die.val)] ∧ SameBut [.keep, .assay, .faultsIn] s u) ∧
    (s.keep.failedDie ≠ some die → 0 < spareLeft die.val s → spareLeft die.val s ≤ 8000 →
      ∃ t, exec (.evKeepRemap die unit false) s = .next t ∧ spareLeft die.val t = spareLeft die.val s - 1 ∧
        spareLeft (1 - die.val) t = spareLeft (1 - die.val) s ∧
        tget (fun _ => 0) t.keep.remap key = 8000 - spareLeft die.val t ∧ t.keep.failedUnits.contains key = false ∧
        reg Reg.CNT_KEEP_REMAP t = satAdd (reg Reg.CNT_KEEP_REMAP s) 1 ∧
        SameBut [.regs, .keep, .recd, .ring, .tally] s t) ∧
    (payload.length ≤ 240 →
      (s.keep.mounted = true → bucketAllows code len (bucketNow s.cycle s.recd) = true →
        ∃ t, exec (.recordEvent code source payload) s = .next t ∧ t.recd.newestSeq = s.recd.newestSeq + 1 ∧
          t.recd.bucket = bucketNow s.cycle s.recd - len * 10 ^ 9 ∧ t.recd.bucketCycle = s.cycle ∧ t.recd.lost = false ∧
          t.recd.waiting = s.recd.waiting ∧ SameBut [.recd, .ring] s t) ∧
      (s.keep.mounted = true → bucketAllows code len (bucketNow s.cycle s.recd) = false →
        ∃ t, exec (.recordEvent code source payload) s = .next t ∧ t.recd.newestSeq = s.recd.newestSeq ∧ t.recd.lost = true ∧
          reg Reg.CNT_REC_LOST t = satAdd (reg Reg.CNT_REC_LOST s) 1 ∧ RegsBut [Reg.CNT_REC_LOST] s t ∧
          SameBut [.regs, .recd] s t) ∧
      (s.keep.mounted = false → waitingBytes s.recd + len ≤ 4096 →
        exec (.recordEvent code source payload) s = .next { s with
          recd := { s.recd with
            waiting := s.recd.waiting
              ++ [{ takeRecord code source.val payload s with lostBefore := s.recd.overflowed }],
            overflowed := false } }))

/-! ### Power -/

/-- Completes, under conditions on the state and the operands alone: ladderEntry, ladderExit, l4Overtemp, shedEnd,
evFiredamp, firedampClear, powerTransitionComplete.
LADDER_ENTRY, LADDER_EXIT, POWER_TRANSITION_COMPLETE, L4_OVERTEMP, SHED_END, EV_FIREDAMP, FIREDAMP_CLEAR (R447, R448, R459, R461, R468,
R470 to R472). An entry begins where the target is deeper and no vote, heat or pending refusal stands against it; votes
refuse it, counted for each domain, but not during the firedamp trip. An exit is never refused. The end of a transition is
the state reached, and a waking domain is ON. The trip takes the terminal to L3 at least and ends below RESUME_C. -/
def Obligations.LadderFollowsTargetAndVotes : Prop :=
  ∀ s : State, s.quiet → s.wf →
    let r := refreshVotes s
    let k := s.pwr.target
    let o := orderEntry k r
    (k ≤ s.pwr.ladder → exec .ladderEntry s = .next r) ∧
    (s.pwr.ladder ≤ k → exec .ladderExit s = .next r) ∧
    (s.pwr.ladder < k → ladderMoving s = false →
      (s.pwr.firedamp = true ∨
          refusalHolds o = false ∧ ¬ (k = 4 ∧ 85 < s.pwr.caseTemp) ∧ refusingDomains k o = [] →
        ∃ t, exec .ladderEntry s = .next t ∧ t.pwr.entry = some k ∧
          (∀ d, d ∈ changedDomains k r → domState d t = .entering) ∧ SameBut [.pwr, .dom, .votes] s t) ∧
      (s.pwr.firedamp = false → refusalHolds o = true → exec .ladderEntry s = .next r) ∧
      (s.pwr.firedamp = false → refusalHolds o = false → ¬ (k = 4 ∧ 85 < s.pwr.caseTemp) → refusingDomains k o ≠ [] →
        ∃ t, exec .ladderEntry s = .next t ∧ t.pwr.entry = none ∧
          (2 ≤ k → votesOf 1 t = supVotes t) ∧
          (∀ d, d ∈ refusingDomains k o →
            reg (Reg.CNT_PWR_REFUSE d) t = satAdd (reg (Reg.CNT_PWR_REFUSE d) s) 1) ∧
          SameBut [.regs, .recd, .ring, .pwr, .dom, .votes] s t)) ∧
    (k < s.pwr.ladder → ladderMoving s = false → ∃ t, exec .ladderExit s = .next t ∧ t.pwr.exitTo = some k ∧
      (∀ d, d ∈ changedDomains k r → domTarget k d r = .on → domState d t = .waking) ∧ SameBut [.pwr, .dom, .votes] s t) ∧
    (ladderMoving s = false → exec (.powerTransitionComplete none) s = .next s) ∧
    (∀ e, s.pwr.exitTo = some e ∨ s.pwr.exitTo = none ∧ s.pwr.entry = some e → s.pwr.heldTarget = none →
      ∃ u, exec (.powerTransitionComplete none) s = .next (settleFaults u) ∧ u.pwr.ladder = e ∧ u.pwr.entry = none ∧
        u.pwr.exitTo = none ∧ u.keep = s.keep ∧ u.cycle = s.cycle) ∧
    (∀ d : Fin 23, d.val ≠ 22 → s.boot.domActive.getLsbD d.val = false → domState d.val s = .waking →
      ∃ u, exec (.powerTransitionComplete (some d)) s = .next (settleFaults u) ∧
        (domState d.val u = .on ∨ s.pwr.ladder ≤ 1 ∧ domState d.val u = .entering) ∧
        SameBut [.free, .outs, .regs, .recd, .ring, .pwr, .dom, .votes, .assay, .faultsIn, .prot, .seams, .tub, .sched, .ports,
          .join, .lanes, .chain, .host] s u) ∧
    (∀ c : Int,
      (¬ (s.pwr.ladder = 4 ∧ 85 < c) → exec (.l4Overtemp c) s = .next { s with
        pwr := { s.pwr with
          caseTemp := c } }) ∧
      (s.pwr.ladder = 4 → 85 < c → ∃ u, exec (.l4Overtemp c) s = .next (settleFaults u) ∧ u.pwr.ladder = 3 ∧
        u.pwr.caseTemp = c ∧ u.keep = s.keep)) ∧
    (s.pwr.phiFullTicks < rfld Reg.PWR_GOV_HYST 15 0 s → exec .shedEnd s = .next s) ∧
    (rfld Reg.PWR_GOV_HYST 15 0 s ≤ s.pwr.phiFullTicks → ∃ t, exec .shedEnd s = .next t ∧ t.pwr.shedBlocks = 0 ∧
      t.sched.shedSkipped = [] ∧ SameBut [.outs, .regs, .pwr, .sched, .ports] s t) ∧
    (∀ first second : List Int, first.length = 16 → second.length = 16 →
      (tripSensor first second = none ∨ s.pwr.firedamp = true → exec (.evFiredamp first second) s = .next s) ∧
      (∀ n, tripSensor first second = some n → s.pwr.firedamp = false → ∃ t, exec (.evFiredamp first second) s = .next t ∧
        t.pwr.firedamp = true ∧ t.pwr.overTemp = n ∧ t.pwr.target = max 3 k ∧ t.pwr.acceptBytes = 0 ∧ t.tally.left = 0 ∧
        t.assay.running = false ∧ reg Reg.CNT_FIREDAMP t = satAdd (reg Reg.CNT_FIREDAMP s) 1 ∧
        (s.pwr.ladder < 3 → ladderMoving s = false → t.pwr.entry = some (max 3 k)) ∧
        SameBut [.regs, .recd, .ring, .pwr, .dom, .votes, .assay, .tally] s t)) ∧
    (∀ highest : Int,
      let tripped := s.pwr.firedamp = true ∧ highest < (rfld Reg.PWR_FIREDAMP 31 24 s : Int)
      (¬ tripped → exec (.firedampClear highest) s = .next s) ∧
      (tripped → ∃ t, exec (.firedampClear highest) s = .next t ∧ t.pwr.firedamp = false ∧
        SameBut [.regs, .recd, .ring, .pwr, .dom, .votes, .assay] s t))

/-- Completes, under conditions on the state and the operands alone: wakeN, wakeTimerExpiry, wake, domainAccessWake,
evPwrWakeFail, domainDrop, hostVoteWrite.
WAKE_N, WAKE_TIMER_EXPIRY, WAKE, DOMAIN_ACCESS_WAKE, EV_PWR_WAKE_FAIL, DOMAIN_DROP, HOST_VOTE_WRITE (R405, R449, R455 to R457, R459,
R462). A source enabled and active in the ladder state wakes: the WAKE client votes, and an entry in progress ends. An access to
a domain that is not ON stalls and wakes it; where the wake fails a stalled read answers 0. A domain without a vote begins
to go OFF, and a vote held refuses that; the host's votes do as much for the domains they name. -/
def Obligations.WakesAndVotesMoveDomains : Prop :=
  ∀ (src : Source) (addr v : Word) (d : Fin 23) (w : Option Word) (x : StalledAccess) (s : State), s.quiet → s.wf →
    let fires := fun (k : Nat) => rbit Reg.PWR_WAKE_CFG k s = true ∧ wakeActive k s.pwr.ladder = true
    let woken := fun (k : Nat) (t : State) => t.pwr.lastWake = k ∧ t.pwr.wake = true ∧ t.pwr.entry = none ∧
      votesFor 9 18 t = true ∧ SameBut [.regs, .recd, .ring, .pwr, .dom, .votes, .join] s t
    (fires 0 → ∃ t, exec .wakeN s = .next t ∧ woken 0 t) ∧
    (reg Reg.PWR_WAKE_TIMER s = 0 → exec .wakeTimerExpiry s = .next s) ∧
    (reg Reg.PWR_WAKE_TIMER s ≠ 0 → fires 1 → ∃ t, exec .wakeTimerExpiry s = .next t ∧ woken 1 t ∧
      reg Reg.PWR_WAKE_TIMER t = 0) ∧
    (∀ (k : Fin 8) (e : Option (Fin 23)),
      (rbit Reg.PWR_WAKE_CFG k.val s = false → exec (.wake k e) s = .next s) ∧
      (fires k.val → ∃ t, exec (.wake k e) s = .next t ∧ woken k.val t ∧ ∀ y, e = some y → votesFor 9 y.val t = true)) ∧
    (¬ (aligned addr 4 = true ∧ regDomain addr.toNat = d.val ∧ domState d.val s ≠ .on) →
      exec (.domainAccessWake d src addr w) s = .next s) ∧
    (aligned addr 4 = true → regDomain addr.toNat = d.val → judge addr.toNat s = .stall → s.pwr.entry = none →
      ∃ t, exec (.domainAccessWake d src addr w) s = .next t ∧
        t.pwr.stalled = [{ src := src, addr := addr, write := w, domain := d.val, tag := none }] ∧
        (s.boot.domActive.getLsbD d.val = false → domState d.val t = .waking) ∧
        SameBut [.regs, .recd, .ring, .pwr, .stalled, .dom, .votes] s t) ∧
    (domState d.val s ≠ .waking → exec (.evPwrWakeFail d) s = .next s) ∧
    (domState d.val s = .waking → x.domain = d.val → x.tag = none → x.write = none →
      ∃ t, exec (.evPwrWakeFail d) { s with pwr := { s.pwr with stalled := [x] } } = .next t ∧
        t.outs = .readReply x.src x.addr 0 :: s.outs ∧ t.pwr.stalled = [] ∧
        reg Reg.CNT_PWR_WAKE_FAIL t = satAdd (reg Reg.CNT_PWR_WAKE_FAIL s) 1 ∧ SameBut [.outs, .regs, .recd, .ring] s t) ∧
    (exec (.domainDrop d true) s = .next s) ∧
    (s.pwr.ladder ≤ 1 → d.val ≠ 22 → domState d.val s ≠ .off → domState d.val s ≠ .waking →
      (lowestVoter d.val s = none → exec (.domainDrop d false) s = .next (setDom d.val .entering s)) ∧
      (∀ c, lowestVoter d.val s = some c → ∃ t, exec (.domainDrop d false) s = .next t ∧
        reg (Reg.CNT_PWR_REFUSE d.val) t = satAdd (reg (Reg.CNT_PWR_REFUSE d.val) s) 1 ∧ domState d.val t = domState d.val s ∧
        SameBut [.regs, .recd, .ring, .pwr] s t)) ∧
    (judge (Reg.PWR_VOTE 0) s = .perform → ∃ t, exec (.hostVoteWrite src v) s = .next t ∧
      reg (Reg.PWR_VOTE 0) t = v &&& 0x7FFFFF ∧ SameBut [.regs, .recd, .ring, .pwr, .dom] s t ∧
      (s.pwr.ladder ≤ 1 → d.val < 22 → coldDomain d.val s = false →
        (bitOf v d.val = false → votesFor 0 d.val s = true → (∀ c, 0 < c → c < 10 → votesFor c d.val s = false) →
          domState d.val s = .on → domState d.val t = .entering) ∧
        (bitOf v d.val = true → domState d.val s = .off → s.boot.domActive.getLsbD d.val = false →
          domState d.val t = .waking)))

/-! ### Assay and faults -/

/-- Completes, under conditions on the state and the operands alone: assayRun, evAssayResult, slackSample, hourCount,
faultEvent, bankRemap.
ASSAY_RUN, EV_ASSAY_RESULT, SLACK_SAMPLE, HOUR_COUNT, FAULT_EVENT, BANK_REMAP (R493, R495 to R498, R501, R503 to R505, R507, R508). A
run starts once, deferred in a dip episode and in L2 or deeper; its end re-plans the guard band and the retrain period. A
slack sampled below the guard band with the target at its highest is a fault event. An hour counts in its temperature's
band. A fault event within its window counts on, and at the threshold declares the source. A drained bank goes to a spare. -/
def Obligations.RunsHoursAndFaultsAreCounted : Prop :=
  ∀ (asked : Bool) (m : AssayMeasure) (v : Int) (src : FaultSource) (inst : BitVec 16) (bank : Fin 384) (s : State),
    s.quiet → s.wf →
    let a := s.assay
    let due := a.running = false ∧ (asked = true ∨ rbit Reg.ASSAY_CTRL 31 s = true)
    let late := inDip s = true ∨ 2 ≤ s.pwr.ladder
    (¬ due → exec (.assayRun asked) s = .next s) ∧
    (due → late → exec (.assayRun asked) s = .next (if a.deferred then s else
      count Reg.CNT_ASSAY_DEFER { s with assay := { a with deferred := true } })) ∧
    (due → ¬ late → exec (.assayRun asked) s = .next { s with
      assay := { a with
        running := true, deferred := false, restart := false } }) ∧
    (a.running = false → exec (.evAssayResult m) s = .next s) ∧
    (a.running = true → ∃ u, exec (.evAssayResult m) s = .next (settleFaults u) ∧ u.assay.running = false ∧
      u.assay.aborted = false ∧ u.assay.sinceH = 0 ∧ u.assay.lastSlack = some m.slack ∧
      u.assay.guardTenths = guardBand m.slack (vcoreMv s) s ∧
      rfld Reg.LANE_RETRAIN 15 0 u = (if eyeFall m.eyes s ≤ 1 then 3600 else if eyeFall m.eyes s ≤ 3 then 900 else 300) ∧
      reg Reg.CNT_ASSAY_RUN u = satAdd (reg Reg.CNT_ASSAY_RUN s) 1 ∧
      SameBut [.outs, .regs, .keep, .recd, .ring, .assay, .faultsIn, .land] s u) ∧
    (a.running = true → exec (.slackSample v) s = .next s) ∧
    (a.running = false → exec (.slackSample v) s = .next (settleFaults { s with
      assay := { a with
        slack := some v, faultsIn := if v < (a.guardTenths : Int) ∧ 820 ≤ vcoreMv s then [(8, 0)] else [] } })) ∧
    (let e := 4 + (if v ≤ 85 then 0 else if v ≤ 105 then 1 else if v ≤ 125 then 2 else 3)
     s.keep.failedDie = none → s.keep.failedUnits = [] → (keepEntry e s).wear + 1 < 500000000000 →
       ∃ t, exec (.hourCount v) s = .next t ∧ keepValue e t = satAdd (keepValue e s) 1 ∧
         t.assay = { a with sinceH := min (a.sinceH + 1) 0xFFFF } ∧ SameBut [.keep, .assay] s t) ∧
    (faultInstances src ≤ inst.toNat → exec (.faultEvent src inst) s = .next s) ∧
    (inst.toNat < faultInstances src → ∃ u, exec (.faultEvent src inst) s = .next (settleFaults u) ∧
      u.assay = { a with faultsIn := [(faultCode src, inst.toNat)] } ∧
      (src ≠ .keepWr → SameBut [.assay, .faultsIn] s u) ∧ SameBut [.regs, .assay, .faultsIn] s u) ∧
    (inst.toNat < 7 →
      let w := tget noWindow a.windows (7 * 65536 + inst.toNat)
      let fresh := w.count = 0 ∨ windowCycles 7 s ≤ s.cycle - w.start
      let n := if fresh then 1 else w.count + 1
      (n < effectiveThreshold 7 inst.toNat s → ∃ t, exec (.faultEvent .tick inst) s = .next t ∧
        tget noWindow t.assay.windows (7 * 65536 + inst.toNat)
          = { count := n, start := if fresh then s.cycle else w.start } ∧ SameBut [.assay] s t) ∧
      (effectiveThreshold 7 inst.toNat s ≤ n → ∃ t, exec (.faultEvent .tick inst) s = .next t ∧
        rbit Reg.ASSAY_FAULT 7 t = true ∧ reg Reg.CNT_FW_DECLARED t = satAdd (reg Reg.CNT_FW_DECLARED s) 1 ∧
        SameBut [.regs, .recd, .ring, .assay] s t)) ∧
    (let rest := a.draining.filter (· != bank.val)
     let drained := a.draining.contains bank.val = true ∧ bankEmpty bank.val s = true
     (¬ drained → exec (.bankRemap bank) s = .next s) ∧
     (drained → exec (.bankRemap bank) s = .next { s with
       assay := if 0 < a.sramSpares then { a with draining := rest, sramSpares := a.sramSpares - 1 }
         else { a with draining := rest, lostBanks := bank.val :: a.lostBanks } }))

/-! ### Chain, host and lands -/

/-- Completes, under conditions on the state and the operands alone: chainFrameReceive, eventFwd, excFwd, recordForward,
time, banksmanUnreachable, alert, keepalive, evChainPort, wakeE, wakeW.
CHAIN_FRAME_RECEIVE, KEEPALIVE, EV_CHAIN_PORT, WAKE_E, WAKE_W, TIME, ALERT, BANKSMAN_UNREACHABLE, RECORD_FORWARD (R511 to R515, R523 to
R526, R528). A frame that fails its CRC or its shape is counted; one for another member goes on with one hop less, around a
broken link with WRAP, and is counted where it cannot; frames on a port out of service hold it off. A port in service
leaves it, a good one enters it. TIME and ALERT are sent and taken, and a banksman not heard is given up. -/
def Obligations.ChainFramesAreSentOnAndTaken : Prop :=
  ∀ (port : Fin 2) (b : Bytes) (src : Fin 64) (cause : Word) (s : State), s.quiet → s.wf →
    let d := port.val
    let e := 1 - d
    (domState 20 s ≠ .on → exec (.chainFrameReceive port b) s = .next s) ∧
    (domState 20 s = .on →
      (chainParse b = none → exec (.chainFrameReceive port b) s = .next (count Reg.CNT_CHAIN_CRC_ERR s)) ∧
      (∀ f, chainParse b = some f → chainTypeOk f.type f.resp f.payload.length = true →
        (chainUp d s = false → exec (.chainFrameReceive port b) s = .next (setChainPort d ⟨false, true⟩ s)) ∧
        (chainUp d s = true → f.type = 8 → exec (.chainFrameReceive port b) s = .next s) ∧
        (chainUp d s = true → f.type ≠ 8 → f.bcast = false → f.dst ≠ chainAddr s →
          let sent := fun (wrap : Bool) => withCrc (chainHeader f.type wrap f.resp false f.dst f.src (f.hops - 1) f.tag
            f.payload.length ++ f.payload)
          exec (.chainFrameReceive port b) s = .next (
            if f.hops ≤ 1 then count Reg.CNT_CHAIN_HOPS_DROP s
            else if chainUp e s then { s with outs := .chainFrame e (sent f.wrap) :: s.outs }
            else if f.wrap then count Reg.CNT_CHAIN_UNREACH s
            else { s with outs := .chainFrame d (sent true) :: s.outs })))) ∧
    (let may := domState 20 s = .on ∧ s.boot.refPresent.getLsbD 3 = true ∧ laneRetired (529 + 2 * d) s = false ∧
       (lane (529 + 2 * d) s).short = false ∧ (lane (528 + 2 * d) s).energy = true
     (¬ may → exec (.keepalive port) s = .next s) ∧
     (may → ∃ t dst, exec (.keepalive port) s = .next t ∧
       t.outs = .chainFrame d (withCrc (chainHeader 8 false false false dst (chainAddr s) 128 s.chain.tag 0)) :: s.outs ∧
       t.chain = { s.chain with tag := (s.chain.tag + 1) % 65536 } ∧ SameBut [.free, .outs, .chain] s t)) ∧
    (chainUp d s = true → ∃ t, exec (.evChainPort port false) s = .next t ∧ chainUp d t = false ∧ chainUp e t = chainUp e s ∧
      reg Reg.CNT_CHAIN_PORT_DOWN t = satAdd (reg Reg.CNT_CHAIN_PORT_DOWN s) 1 ∧
      SameBut [.regs, .recd, .ring, .chain] s t) ∧
    (chainUp d s = false → exec (.evChainPort port false) s = .next (setChainPort d ⟨false, false⟩ s)) ∧
    (let may := domState 20 s = .on ∧ s.boot.refPresent.getLsbD 3 = true ∧ chainLanesGood d s = true
     (chainUp d s = true ∨ ¬ may → exec (.evChainPort port true) s = .next s) ∧
     (chainUp d s = false → may → ∃ t, exec (.evChainPort port true) s = .next t ∧ chainUp d t = true ∧
       chainUp e t = chainUp e s ∧ SameBut [.regs, .recd, .ring, .chain] s t)) ∧
    (judge Reg.CHAIN_CTRL s = .perform →
      exec .wakeE s = .next { s with outs := .trainingBurst 529 :: s.outs } ∧
      exec .wakeW s = .next { s with outs := .trainingBurst 531 :: s.outs }) ∧
    (chainUp 0 s = true → ∃ t, exec (.time none) s = .next t ∧
      t.outs = .chainFrame 0 (withCrc (chainHeader 6 false false true 0 (chainAddr s) 128 s.chain.tag 32 ++ timePayload s))
        :: s.outs ∧ t.chain.tag = (s.chain.tag + 1) % 65536 ∧ SameBut [.outs, .regs, .recd, .ring, .chain] s t) ∧
    (b.length = 32 →
      ((b.getD 28 0).getLsbD 7 = false → src.val ≠ chainAddr s → exec (.time (some (src, b))) s = .next s) ∧
      ((b.getD 28 0).getLsbD 7 = true → ∃ t, exec (.time (some (src, b))) s = .next t ∧
        tget (fun _ => none) t.chain.heard src.val = some s.cycle ∧ t.chain.reachable = true ∧
        t.chain.banksman ≤ src.val ∧ SameBut [.regs, .recd, .ring, .chain] s t)) ∧
    (let a := if src.val < 32 then Reg.HOST_ALERT_MEMBER_LO else Reg.HOST_ALERT_MEMBER_HI
     (isBanksman s = false ∨ cause = 0 → exec (.alert (some (src, cause))) s = .next s) ∧
     (isBanksman s = true → cause ≠ 0 → ∃ t, exec (.alert (some (src, cause))) s = .next t ∧
       rbit a (src.val % 32) t = true ∧ t.outs = (if rbit a (src.val % 32) s then s.outs else .msix 2 :: s.outs) ∧
       RegsBut [a] s t ∧ SameBut [.outs, .regs] s t)) ∧
    (let c := maskedCauses s
     (s.chain.reachable = false ∨ c = s.chain.alertSent ∧ c = 0 → exec (.alert none) s = .next s) ∧
     (s.chain.reachable = true → ¬ (c = s.chain.alertSent ∧ c = 0) → s.chain.banksman ≠ chainAddr s → chainUp 0 s = true →
       exec (.alert none) s = .next { s with
         chain := { s.chain with
           alertSent := c, tag := (s.chain.tag + 1) % 65536 },
         outs := .chainFrame 0 (withCrc (chainHeader 7 false false false s.chain.banksman (chainAddr s) 128 s.chain.tag 4
           ++ beBytes 4 c.toNat)) :: s.outs })) ∧
    (twf (fun _ => (none : Option Nat)) s.chain.heard = true → ∃ t, exec .banksmanUnreachable s = .next t ∧
      tget (fun _ => none) t.chain.heard s.chain.banksman = none ∧
      (isBanksman s = false → (∀ a, a ≠ s.chain.banksman → tget (fun _ => none) s.chain.heard a = none) →
        t.chain.reachable = false) ∧ SameBut [.regs, .recd, .ring, .chain] s t) ∧
    (let r := s.recd
     let next := if r.fwdSeq + 1 < r.oldestSeq then r.oldestSeq else r.fwdSeq + 1
     let may := rbit Reg.CHAIN_CTRL 31 s = true ∧ s.chain.reachable = true ∧ s.keep.mounted = true ∧ r.fwdSeq < r.newestSeq
     (¬ may → exec .recordForward s = .next s) ∧
     (may → ∃ t, exec .recordForward s = .next t ∧ t.recd = { r with fwdSeq := next } ∧
       SameBut [.outs, .regs, .recd, .chain, .host] s t))

/-- Completes, under conditions on the state and the operands alone: read, write, posted, readResp, writeResp,
hostRequestTimeout, bar0Access, bar2Write, hostLinkUp, evHostLink.
READ, WRITE, POSTED, READ_RESP, WRITE_RESP, HOST_REQUEST_TIMEOUT, BAR0_ACCESS, BAR2_WRITE, EVENT_FWD, EXC_FWD, HOST_LINK_UP,
EV_HOST_LINK (R517 to R522, R529). A member answers READ and WRITE and makes POSTED without an answer. The banksman sends the host's
requests, completes them by their responses or with all ones after the time-out, broadcasts BAR2 writes, and puts forwarded
records into its rings while they have room. The link makes a member banksman, and its loss ends that. -/
def Obligations.HostRequestsAreCarriedAndCompleted : Prop :=
  ∀ (d : Fin 64) (tag : BitVec 16) (addr v : Word) (stat : BitVec 8) (gap : Bool) (record : Bytes) (s : State),
    s.quiet → s.wf →
    let plain := fun (r : RegRow) (x : Word) => judge x.toNat s = .perform ∧ regRow x.toNat = some r ∧ x.toNat % 4 = 0 ∧
      actsOnWrite x.toNat = false
    let wrote := fun (r : RegRow) (x : Word) (t : State) => reg x.toNat t = r.written (reg x.toNat s) v 0
    (∀ r, judge addr.toNat s = .perform → regRow addr.toNat = some r → addr.toNat % 4 = 0 → r.kind = .plain →
      showsFree addr.toNat = false → exec (.read d tag addr) s
        = .next (sendResponse d.val tag.toNat (some (regView .chain addr.toNat s &&& r.readMask)) 0 s)) ∧
    (∀ r, plain r addr →
      ∃ t, exec (.posted addr v) s = .next t ∧ exec (.write d tag addr v) s = .next (sendResponse d.val tag.toNat none 0 t) ∧
        wrote r addr t ∧ RegsBut [addr.toNat] s t ∧ SameBut [.regs] s t) ∧
    (let mine := fun (q : HostRequest) (w : Bool) => q.tag = tag.toNat ∧ q.write.isSome = w
     ((∀ q ∈ s.host.inflight, ¬ mine q false) → exec (.readResp d tag v stat) s = .next s) ∧
     ((∀ q ∈ s.host.inflight, ¬ mine q true) → exec (.writeResp d tag stat) s = .next s) ∧
     (∀ before q after, s.host.inflight = before ++ q :: after → s.host.waiting = [] →
       (mine q false → (∀ x ∈ before, ¬ mine x false) → exec (.readResp d tag v stat) s = .next { s with
         host := { s.host with
           inflight := before ++ after },
         outs := .hostCompletion q.member q.addr v :: s.outs }) ∧
       (mine q true → (∀ x ∈ before, ¬ mine x true) → exec (.writeResp d tag stat) s = .next { s with
         host := { s.host with
           inflight := before ++ after } }) ∧
       (q.member = d.val → (∀ x ∈ before, x.member ≠ d.val) → ∃ t, exec (.hostRequestTimeout d) s = .next t ∧
         t.host = { s.host with inflight := before ++ after } ∧
         t.outs = (if q.write.isNone then .hostCompletion q.member q.addr 0xFFFFFFFF :: s.outs else s.outs) ∧
         reg Reg.CNT_HOST_TIMEOUT t = satAdd (reg Reg.CNT_HOST_TIMEOUT s) 1 ∧ SameBut [.outs, .regs, .host] s t))) ∧
    (∀ (x : Bar0Access) (y : BitVec 25) (n : Nat), isBanksman s = false →
      exec (.bar0Access x n) s = .next s ∧ exec (.bar2Write y v n) s = .next s) ∧
    (isBanksman s = true → chainUp 0 s = true →
      let head := fun (type : Nat) (bcast : Bool) (dst len : Nat) =>
        chainHeader type false false bcast dst (chainAddr s) 128 s.chain.tag len
      (∀ x : Bar0Access, x.member.val ≠ chainAddr s → x.addr.toNat % 4 = 0 →
        (x.write = none → s.host.inflight = [] → s.host.waiting = [] → ∃ t, exec (.bar0Access x 4) s = .next t ∧
          t.host.inflight = [{ member := x.member.val, addr := x.addr.setWidth 32, write := none, tag := s.chain.tag }] ∧
          t.outs = .chainFrame 0 (withCrc (head 1 false x.member.val 4 ++ beBytes 4 x.addr.toNat)) :: s.outs ∧
          t.chain.tag = (s.chain.tag + 1) % 65536 ∧ SameBut [.outs, .chain, .host] s t) ∧
        (x.write = some v → rbit Reg.HOST_CTRL 0 s = false → ∃ t, exec (.bar0Access x 4) s = .next t ∧
          t.outs = .chainFrame 0 (withCrc (head 3 false x.member.val 8 ++ (beBytes 4 x.addr.toNat ++ beBytes 4 v.toNat)))
            :: s.outs ∧ t.chain.tag = (s.chain.tag + 1) % 65536 ∧ SameBut [.outs, .chain] s t)) ∧
      (∀ (y : BitVec 25) (r : RegRow), plain r (y.setWidth 32) → ∃ t, exec (.bar2Write y v 4) s = .next t ∧
        wrote r (y.setWidth 32) t ∧
        t.outs = .chainFrame 0 (withCrc (head 3 true 0 8 ++ (beBytes 4 y.toNat ++ beBytes 4 v.toNat))) :: s.outs ∧
        t.chain.tag = (s.chain.tag + 1) % 65536 ∧ RegsBut [(y.setWidth 32 : Word).toNat] s t ∧
        SameBut [.outs, .regs, .chain] s t)) ∧
    (let put := fun (r : Nat) (c : Instr) (k : Bool) =>
       let n := 2 ^ rfld (Reg.HOST_RING_CFG r) 3 0 s
       let at1 := rfld (Reg.HOST_RING_POS r) 31 16 s
       let full := rbit (Reg.HOST_RING_CFG r) 31 s = false ∨ (at1 + 1) % n = rfld (Reg.HOST_RING_POS r) 15 0 s % n
       (isBanksman s = false → exec c s = .next s) ∧
       (isBanksman s = true → full → exec c s = .next (count Reg.CNT_HOST_FWD_DROP s)) ∧
       (isBanksman s = true → ¬ full → ∃ t, exec c s = .next t ∧
         rfld (Reg.HOST_RING_POS r) 31 16 t = (at1 + 1) % n ∧
         .hostEntry (ringBase r s + 320 * at1) (hostRingEntry (r + 1) d.val k record) ∈ t.outs ∧
         RegsBut [Reg.HOST_RING_POS r] s t ∧ SameBut [.outs, .regs, .host] s t)
     (40 ≤ record.length → record.length ≤ 280 → put 0 (.eventFwd d gap record) gap) ∧
     (16 ≤ record.length → record.length ≤ 272 → put 1 (.excFwd d record) false)) ∧
    (∀ (speed : BitVec 3) (width : BitVec 4), (Instr.hostLinkUp speed width).wf = true →
      let may := s.host.link = false ∧ domState 19 s = .on ∧ s.boot.refPresent.getLsbD 3 = true ∧ s.land.perstLow = false
      (¬ may → exec (.hostLinkUp speed width) s = .next s) ∧
      (may → ∃ t, exec (.hostLinkUp speed width) s = .next t ∧
        t.host = { s.host with link := true, speed := speed.toNat, width := width.toNat } ∧
        votesFor 0 19 t = true ∧ votesFor 0 20 t = true ∧
        SameBut [.regs, .recd, .ring, .pwr, .dom, .chain, .host] s t)) ∧
    (∃ t, exec .evHostLink s = .next t ∧ t.host.link = false ∧
      (s.host.link = true → t.host.inflight = [] ∧ t.host.waiting = []) ∧ (s.host.link = false → t.host = s.host) ∧
      SameBut [.regs, .recd, .ring, .chain, .host] s t)

/-- Completes, under conditions on the state and the operands alone: landReadback, landShortRetry, opticInsert, opticRemove,
cmisPoll, cmisTimeout, ledFrame, perstN.
LAND_READBACK, LAND_SHORT_RETRY, OPTIC_INSERT, OPTIC_REMOVE, CMIS_POLL, CMIS_TIMEOUT, LED_FRAME, PERST_N (R543, R549, R550, R553, R554).
The fourth disagreeing readback in a row disables an output, counted; four that agree enable it. An optic inserted is read
and shown, kept in low-power mode on the cold side or of an old revision; one removed shows its reset values; a poll
reads an optic that is present, and a time-out is an event of fault source OPTIC. The LED frame goes out, and PERST_N
low takes the link. -/
def Obligations.OutputsOpticsAndLandsAreWatched : Prop :=
  ∀ (out : Fin 27) (side : Fin 2) (cmis : CmisData) (low : Bool) (txPower bias : List Nat) (s : State), s.quiet → s.wf →
    let n := out.val
    let bad := tget (fun _ => 0) s.land.mismatches n
    let g := Reg.GEN_OPTIC side.val
    let old := optic side.val s
    let cold := side.val ≠ activeSide s
    (rbit Reg.GEN_LAND_SHORT n s = true ∨ landDriven n s = false → ∀ ok, exec (.landReadback out ok) s = .next s) ∧
    (rbit Reg.GEN_LAND_SHORT n s = false → landDriven n s = true →
      (bad < 3 → ∃ t, exec (.landReadback out false) s = .next t ∧ tget (fun _ => 0) t.land.mismatches n = bad + 1 ∧
        SameBut [.land] s t) ∧
      (3 ≤ bad → ∃ t, exec (.landReadback out false) s = .next t ∧ rbit Reg.GEN_LAND_SHORT n t = true ∧
        reg Reg.CNT_LAND_SHORT t = satAdd (reg Reg.CNT_LAND_SHORT s) 1 ∧
        RegsBut [Reg.GEN_LAND_SHORT, Reg.CNT_LAND_SHORT] s t ∧ SameBut [.regs, .land] s t) ∧
      (twf (fun _ => 0) s.land.mismatches = true → ∃ t, exec (.landReadback out true) s = .next t ∧
        tget (fun _ => 0) t.land.mismatches n = 0 ∧ SameBut [.land] s t)) ∧
    (∀ l : List Bool, l.length = 4 →
      (rbit Reg.GEN_LAND_SHORT n s = false ∨ false ∈ l → exec (.landShortRetry out l) s = .next s) ∧
      (rbit Reg.GEN_LAND_SHORT n s = true → false ∉ l → ∃ t, exec (.landShortRetry out l) s = .next t ∧
        rbit Reg.GEN_LAND_SHORT n t = false ∧ RegsBut [Reg.GEN_LAND_SHORT] s t ∧ SameBut [.regs] s t)) ∧
    (cmis.wf = true →
      (rbit g 0 s = true → exec (.opticInsert side cmis) s = .next s) ∧
      (rbit g 0 s = false → ∃ t, exec (.opticInsert side cmis) s = .next t ∧
        (optic side.val t).serialCrc = crc32c cmis.serial ∧ (optic side.val t).txPower = cmis.txPower ∧
        ((optic side.val t).txDisabled = true ↔ cold) ∧ rbit g 0 t = true ∧ rbit g 1 t = false ∧
        (rbit g 4 t = true ↔ 0x40 ≤ cmis.revision.toNat) ∧
        (rbit g 2 t = true ↔ cold ∨ cmis.revision.toNat < 0x40) ∧ RegsBut [g] s t ∧ SameBut [.outs, .regs, .land] s t)) ∧
    (rbit g 0 s = false → exec (.opticRemove side) s = .next s ∧ exec (.cmisTimeout side) s = .next s) ∧
    (rbit g 0 s = true →
      (∃ t, exec (.opticRemove side) s = .next t ∧ optic side.val t = OpticState.reset ∧ rbit g 0 t = false ∧
        rbit g 1 t = true ∧ rfld g 31 16 t = 100 ∧ RegsBut [g] s t ∧ SameBut [.regs, .land] s t) ∧
      ∃ u, exec (.cmisTimeout side) s = .next (settleFaults u) ∧ u.assay.faultsIn = [(6, side.val)] ∧
        reg (Reg.CNT_OPTIC_TIMEOUT side.val) u = satAdd (reg (Reg.CNT_OPTIC_TIMEOUT side.val) s) 1 ∧
        SameBut [.regs, .assay, .faultsIn] s u) ∧
    (txPower.length = 4 → bias.length = 4 →
      (rbit g 0 s = false → exec (.cmisPoll side low txPower bias) s = .next s) ∧
      (rbit g 0 s = true → ∃ t, exec (.cmisPoll side low txPower bias) s = .next t ∧ rbit g 3 t = low ∧
        (cold → t.land = s.land) ∧ (¬ cold → optic side.val t = { old with txPower := txPower, bias := bias }) ∧
        RegsBut [g] s t ∧ SameBut [.outs, .regs, .land] s t)) ∧
    (rbit Reg.GEN_LED_CFG 31 s = false → exec .ledFrame s = .next s) ∧
    (rbit Reg.GEN_LED_CFG 31 s = true → rfld Reg.GEN_LAND_SHORT 4 2 s = 0 → exec .ledFrame s = .next { s with
      land := { s.land with
        ledActivity := 0 },
      outs := .ledFrame ((ledBits s).map (fun b => b != rbit Reg.GEN_LED_CFG 30 s)) :: s.outs }) ∧
    (exec (.perstN false) s = .next { s with
      land := { s.land with
        perstLow := false } }) ∧
    (∃ t, exec (.perstN true) s = .next t ∧ t.land = { s.land with perstLow := true } ∧ t.host.link = false ∧
      SameBut [.regs, .recd, .ring, .land, .chain, .host] s t)
end

