-- ==== Sys2Proof/Laws/Frame.lean ====
section
/-! SUPPORT. What a change of state leaves alone: `Frame m s t` says that `t` agrees with `s` in every part whose bit of the
mask `m` is 0, and holds what no command may ever do whatever `m` is: touch the queue, take back an output, draw a free
value twice, change the operator root key once present (R423), or leave a memory out of its canonical form. -/
set_option Elab.async false
set_option linter.all false

namespace Sys2Proof.Machine

/-- What every command keeps, whatever it changes. -/
structure Lasting (s t : State) : Prop where
  pending : t.pending = s.pending
  free : s.free ≤ t.free
  outs : s.outs <:+ t.outs
  opRoot : ∀ k, s.keep.opRoot = some k → t.keep.opRoot = some k
  regs : twf resetValue s.regs = true → twf resetValue t.regs = true
  sram : twf (fun _ => 0) s.tub.sram = true → twf (fun _ => 0) t.tub.sram = true
  dram : twf (fun _ => 0) s.tub.dram = true → twf (fun _ => 0) t.tub.dram = true
  ring : twf (fun _ => 0) s.recd.ring = true → twf (fun _ => 0) t.recd.ring = true
  latch : twf (fun _ => 0) s.latch = true → twf (fun _ => 0) t.latch = true
  dieA : twf blankCopy s.keep.dieA = true → twf blankCopy t.keep.dieA = true
  dieB : twf blankCopy s.keep.dieB = true → twf blankCopy t.keep.dieB = true
  seams : twf (fun _ => SeamState.reset) s.seams = true → twf (fun _ => SeamState.reset) t.seams = true
  ports : twf (fun _ => PortState.reset) s.ports = true → twf (fun _ => PortState.reset) t.ports = true
  mdio : twf (fun _ => MdioState.reset) s.mdio = true → twf (fun _ => MdioState.reset) t.mdio = true
  circuits : twf (fun _ => Circuit.reset) s.circuits = true → twf (fun _ => Circuit.reset) t.circuits = true
  lanes : twf (fun _ => LaneState.reset) s.lanes = true → twf (fun _ => LaneState.reset) t.lanes = true
  idents : twf (fun _ => Identity.reset) s.join.idents = true → twf (fun _ => Identity.reset) t.join.idents = true
  portScheds : twf (fun _ => PortSched.reset) s.sched.ports = true → twf (fun _ => PortSched.reset) t.sched.ports = true
  aqs : twf (fun _ => AllocQueue.reset) s.sched.aqs = true → twf (fun _ => AllocQueue.reset) t.sched.aqs = true
  chans : twf (fun _ => WndChan.reset) s.wnd.chans = true → twf (fun _ => WndChan.reset) t.wnd.chans = true

/-- Agreement outside a mask. The bits: the parts of the state in their order from `cycle` (0) on, then single fields of a part. -/
structure Frame (m : Nat) (s t : State) : Prop where
  lasting : Lasting s t
  cycle : m.testBit 0 = false → t.cycle = s.cycle
  free : m.testBit 1 = false → t.free = s.free
  outs : m.testBit 2 = false → t.outs = s.outs
  regs : m.testBit 3 = false → t.regs = s.regs
  latch : m.testBit 4 = false → t.latch = s.latch
  misaligned : m.testBit 5 = false → t.misaligned = s.misaligned
  tick : m.testBit 6 = false → t.tick = s.tick
  boot : m.testBit 7 = false → t.boot = s.boot
  supply : m.testBit 8 = false → t.supply = s.supply
  time : m.testBit 9 = false → t.time = s.time
  keep : m.testBit 10 = false → t.keep = s.keep
  recd : m.testBit 11 = false → t.recd = s.recd
  pwr : m.testBit 12 = false → t.pwr = s.pwr
  assay : m.testBit 13 = false → t.assay = s.assay
  land : m.testBit 14 = false → t.land = s.land
  prot : m.testBit 15 = false → t.prot = s.prot
  seams : m.testBit 16 = false → t.seams = s.seams
  tub : m.testBit 17 = false → t.tub = s.tub
  wnd : m.testBit 18 = false → t.wnd = s.wnd
  sched : m.testBit 19 = false → t.sched = s.sched
  ports : m.testBit 20 = false → t.ports = s.ports
  mdio : m.testBit 21 = false → t.mdio = s.mdio
  ingress : m.testBit 22 = false → t.ingress = s.ingress
  join : m.testBit 23 = false → t.join = s.join
  ciph : m.testBit 24 = false → t.ciph = s.ciph
  cls : m.testBit 25 = false → t.cls = s.cls
  tally : m.testBit 26 = false → t.tally = s.tally
  circuits : m.testBit 27 = false → t.circuits = s.circuits
  looped : m.testBit 28 = false → t.looped = s.looped
  lanes : m.testBit 29 = false → t.lanes = s.lanes
  chain : m.testBit 30 = false → t.chain = s.chain
  host : m.testBit 31 = false → t.host = s.host
  stalled_ : m.testBit 32 = false → t.pwr.stalled = s.pwr.stalled
  faultsIn_ : m.testBit 33 = false → t.assay.faultsIn = s.assay.faultsIn
  opRoot_ : m.testBit 34 = false → t.keep.opRoot = s.keep.opRoot
  tickCount_ : m.testBit 35 = false → t.tick.count = s.tick.count
  dom_ : m.testBit 36 = false → t.pwr.dom = s.pwr.dom
  phase_ : m.testBit 37 = false → t.boot.phase = s.boot.phase
  now_ : m.testBit 38 = false → t.time.now = s.time.now
  ladder_ : m.testBit 39 = false → t.pwr.ladder = s.pwr.ladder
  votes_ : m.testBit 40 = false → t.pwr.votes = s.pwr.votes
  active_ : m.testBit 41 = false → t.prot.active = s.prot.active
  sram_ : m.testBit 42 = false → t.tub.sram = s.tub.sram
  dram_ : m.testBit 43 = false → t.tub.dram = s.tub.dram
  mounted_ : m.testBit 44 = false → t.keep.mounted = s.keep.mounted
  warning_ : m.testBit 45 = false → t.supply.warning = s.supply.warning
  ring_ : m.testBit 46 = false → t.recd.ring = s.recd.ring

theorem Lasting.rfl' {s : State} : Lasting s s :=
  ⟨rfl, Nat.le_refl _, List.suffix_refl _, fun _ h => h, fun h => h, fun h => h, fun h => h, fun h => h, fun h => h, fun h => h, fun h => h, fun h => h, fun h => h, fun h => h, fun h => h, fun h => h, fun h => h, fun h => h, fun h => h, fun h => h⟩

theorem Lasting.trans {s t u : State} (h : Lasting s t) (g : Lasting t u) : Lasting s u :=
  ⟨g.pending.trans h.pending, Nat.le_trans h.free g.free, h.outs.trans g.outs, fun k e => g.opRoot k (h.opRoot k e),
   fun e => g.regs (h.regs e), fun e => g.sram (h.sram e), fun e => g.dram (h.dram e), fun e => g.ring (h.ring e), fun e => g.latch (h.latch e), fun e => g.dieA (h.dieA e), fun e => g.dieB (h.dieB e), fun e => g.seams (h.seams e), fun e => g.ports (h.ports e), fun e => g.mdio (h.mdio e), fun e => g.circuits (h.circuits e), fun e => g.lanes (h.lanes e), fun e => g.idents (h.idents e), fun e => g.portScheds (h.portScheds e), fun e => g.aqs (h.aqs e), fun e => g.chans (h.chans e)⟩

theorem testBit_of_land {m a k : Nat} (h : m &&& a = a) (g : a.testBit k = true) : m.testBit k = true := by
  rw [← h, Nat.testBit_and, Bool.and_eq_true] at g
  exact g.1

theorem land_trans {m a b : Nat} (h : m &&& a = a) (g : a &&& b = b) : m &&& b = b := by
  rw [← g, ← Nat.and_assoc, h]

theorem Frame.rfl' {m : Nat} {s : State} : Frame m s s := by
  constructor <;> first | exact Lasting.rfl' | exact fun _ => rfl

theorem Frame.trans {m : Nat} {s t u : State} (h : Frame m s t) (g : Frame m t u) : Frame m s u := by
  constructor
  · exact h.lasting.trans g.lasting
  · exact fun e => (g.cycle e).trans (h.cycle e)
  · exact fun e => (g.free e).trans (h.free e)
  · exact fun e => (g.outs e).trans (h.outs e)
  · exact fun e => (g.regs e).trans (h.regs e)
  · exact fun e => (g.latch e).trans (h.latch e)
  · exact fun e => (g.misaligned e).trans (h.misaligned e)
  · exact fun e => (g.tick e).trans (h.tick e)
  · exact fun e => (g.boot e).trans (h.boot e)
  · exact fun e => (g.supply e).trans (h.supply e)
  · exact fun e => (g.time e).trans (h.time e)
  · exact fun e => (g.keep e).trans (h.keep e)
  · exact fun e => (g.recd e).trans (h.recd e)
  · exact fun e => (g.pwr e).trans (h.pwr e)
  · exact fun e => (g.assay e).trans (h.assay e)
  · exact fun e => (g.land e).trans (h.land e)
  · exact fun e => (g.prot e).trans (h.prot e)
  · exact fun e => (g.seams e).trans (h.seams e)
  · exact fun e => (g.tub e).trans (h.tub e)
  · exact fun e => (g.wnd e).trans (h.wnd e)
  · exact fun e => (g.sched e).trans (h.sched e)
  · exact fun e => (g.ports e).trans (h.ports e)
  · exact fun e => (g.mdio e).trans (h.mdio e)
  · exact fun e => (g.ingress e).trans (h.ingress e)
  · exact fun e => (g.join e).trans (h.join e)
  · exact fun e => (g.ciph e).trans (h.ciph e)
  · exact fun e => (g.cls e).trans (h.cls e)
  · exact fun e => (g.tally e).trans (h.tally e)
  · exact fun e => (g.circuits e).trans (h.circuits e)
  · exact fun e => (g.looped e).trans (h.looped e)
  · exact fun e => (g.lanes e).trans (h.lanes e)
  · exact fun e => (g.chain e).trans (h.chain e)
  · exact fun e => (g.host e).trans (h.host e)
  · exact fun e => (g.stalled_ e).trans (h.stalled_ e)
  · exact fun e => (g.faultsIn_ e).trans (h.faultsIn_ e)
  · exact fun e => (g.opRoot_ e).trans (h.opRoot_ e)
  · exact fun e => (g.tickCount_ e).trans (h.tickCount_ e)
  · exact fun e => (g.dom_ e).trans (h.dom_ e)
  · exact fun e => (g.phase_ e).trans (h.phase_ e)
  · exact fun e => (g.now_ e).trans (h.now_ e)
  · exact fun e => (g.ladder_ e).trans (h.ladder_ e)
  · exact fun e => (g.votes_ e).trans (h.votes_ e)
  · exact fun e => (g.active_ e).trans (h.active_ e)
  · exact fun e => (g.sram_ e).trans (h.sram_ e)
  · exact fun e => (g.dram_ e).trans (h.dram_ e)
  · exact fun e => (g.mounted_ e).trans (h.mounted_ e)
  · exact fun e => (g.warning_ e).trans (h.warning_ e)
  · exact fun e => (g.ring_ e).trans (h.ring_ e)

/-- A frame under a mask is one under every larger mask. -/
theorem Frame.mono {m n : Nat} {s t : State} (h : Frame m s t) (e : n &&& m = m) : Frame n s t := by
  have k : ∀ i, n.testBit i = false → m.testBit i = false := by
    intro i hi
    rw [← e, Nat.testBit_and, hi, Bool.false_and]
  constructor
  · exact h.lasting
  · exact fun b => h.cycle (k _ b)
  · exact fun b => h.free (k _ b)
  · exact fun b => h.outs (k _ b)
  · exact fun b => h.regs (k _ b)
  · exact fun b => h.latch (k _ b)
  · exact fun b => h.misaligned (k _ b)
  · exact fun b => h.tick (k _ b)
  · exact fun b => h.boot (k _ b)
  · exact fun b => h.supply (k _ b)
  · exact fun b => h.time (k _ b)
  · exact fun b => h.keep (k _ b)
  · exact fun b => h.recd (k _ b)
  · exact fun b => h.pwr (k _ b)
  · exact fun b => h.assay (k _ b)
  · exact fun b => h.land (k _ b)
  · exact fun b => h.prot (k _ b)
  · exact fun b => h.seams (k _ b)
  · exact fun b => h.tub (k _ b)
  · exact fun b => h.wnd (k _ b)
  · exact fun b => h.sched (k _ b)
  · exact fun b => h.ports (k _ b)
  · exact fun b => h.mdio (k _ b)
  · exact fun b => h.ingress (k _ b)
  · exact fun b => h.join (k _ b)
  · exact fun b => h.ciph (k _ b)
  · exact fun b => h.cls (k _ b)
  · exact fun b => h.tally (k _ b)
  · exact fun b => h.circuits (k _ b)
  · exact fun b => h.looped (k _ b)
  · exact fun b => h.lanes (k _ b)
  · exact fun b => h.chain (k _ b)
  · exact fun b => h.host (k _ b)
  · exact fun b => h.stalled_ (k _ b)
  · exact fun b => h.faultsIn_ (k _ b)
  · exact fun b => h.opRoot_ (k _ b)
  · exact fun b => h.tickCount_ (k _ b)
  · exact fun b => h.dom_ (k _ b)
  · exact fun b => h.phase_ (k _ b)
  · exact fun b => h.now_ (k _ b)
  · exact fun b => h.ladder_ (k _ b)
  · exact fun b => h.votes_ (k _ b)
  · exact fun b => h.active_ (k _ b)
  · exact fun b => h.sram_ (k _ b)
  · exact fun b => h.dram_ (k _ b)
  · exact fun b => h.mounted_ (k _ b)
  · exact fun b => h.warning_ (k _ b)
  · exact fun b => h.ring_ (k _ b)
theorem twfFrom_mono {α : Type} [DecidableEq α] {d : Nat → α} {lo lo' : Nat} {t : Table α} (h : lo' ≤ lo)
    (e : twfFrom d lo t = true) : twfFrom d lo' t = true := by
  cases t with
  | nil => rfl
  | cons x t =>
    obtain ⟨k, v⟩ := x
    simp only [twfFrom, Bool.and_eq_true, decide_eq_true_eq] at e ⊢
    exact ⟨⟨Nat.le_trans h e.1.1, e.1.2⟩, e.2⟩

theorem twfFrom_tput {α : Type} [DecidableEq α] {d : Nat → α} {k : Nat} {v : α} {lo : Nat} {t : Table α} (h : lo ≤ k)
    (e : twfFrom d lo t = true) : twfFrom d lo (tput d k v t) = true := by
  induction t generalizing lo with
  | nil =>
    unfold tput
    split
    · rfl
    · simp_all [twfFrom]
  | cons x t ih =>
    obtain ⟨k', v'⟩ := x
    simp only [twfFrom, Bool.and_eq_true, decide_eq_true_eq, Bool.not_eq_true', decide_eq_false_iff_not] at e
    obtain ⟨⟨h1, h2⟩, h3⟩ := e
    unfold tput
    split
    · split
      · simp [twfFrom, h1, h2, h3]
      · rename_i g1 g2
        have : k + 1 ≤ k' := g1
        simp [twfFrom, h, g2, this, h2, h3]
    · split
      · rename_i g1 g2
        subst g2
        split
        · exact twfFrom_mono (by omega) h3
        · rename_i g3
          simp [twfFrom, h, g3, h3]
      · have : k' + 1 ≤ k := by omega
        simp [twfFrom, h1, h2, ih this h3]

/-- Writing a table keeps its canonical form. -/
theorem twf_tput {α : Type} [DecidableEq α] {d : Nat → α} {k : Nat} {v : α} {t : Table α} (e : twf d t = true) :
    twf d (tput d k v t) = true := twfFrom_tput (Nat.zero_le k) e

theorem twfFrom_filter {α : Type} [DecidableEq α] {d : Nat → α} {p : Nat × α → Bool} {lo : Nat} {t : Table α}
    (e : twfFrom d lo t = true) : twfFrom d lo (t.filter p) = true := by
  induction t generalizing lo with
  | nil => rfl
  | cons x t ih =>
    obtain ⟨k, v⟩ := x
    simp only [twfFrom, Bool.and_eq_true, decide_eq_true_eq] at e
    simp only [List.filter_cons]
    split
    · simp only [twfFrom, Bool.and_eq_true, decide_eq_true_eq]
      exact ⟨e.1, ih e.2⟩
    · exact twfFrom_mono (by omega) (ih e.2)

/-- Dropping entries of a table keeps its canonical form. -/
theorem twf_filter {α : Type} [DecidableEq α] {d : Nat → α} {p : Nat × α → Bool} {t : Table α} (e : twf d t = true) :
    twf d (t.filter p) = true := twfFrom_filter e

theorem tget_tput_same {α : Type} [DecidableEq α] {d : Nat → α} {k : Nat} {v : α} {t : Table α} {lo : Nat}
    (e : twfFrom d lo t = true) : tget d (tput d k v t) k = v := by
  induction t generalizing lo with
  | nil =>
    unfold tput
    split
    · simp_all [tget]
    · simp [tget]
  | cons x t ih =>
    obtain ⟨k', v'⟩ := x
    simp only [twfFrom, Bool.and_eq_true, decide_eq_true_eq] at e
    have below : ∀ (t : Table α) lo, k < lo → twfFrom d lo t = true → tget d t k = d k := by
      intro t
      induction t with
      | nil => intros; rfl
      | cons y t ih2 =>
        intro lo hl he
        obtain ⟨k2, v2⟩ := y
        simp only [twfFrom, Bool.and_eq_true, decide_eq_true_eq] at he
        have : k ≠ k2 := by omega
        simp only [tget, this, if_false]
        exact ih2 (k2 + 1) (by omega) he.2
    unfold tput
    split
    · rename_i g
      split
      · rename_i g2
        have : k ≠ k' := by omega
        simp only [tget, this, if_false, g2]
        exact below t (k' + 1) (by omega) e.2
      · simp [tget]
    · split
      · rename_i g2
        subst g2
        split
        · rename_i g3
          rw [g3]
          exact below t (k + 1) (by omega) e.2
        · simp [tget]
      · rename_i g g2
        simp only [tget, g2, if_false]
        exact ih e.2

/-- A content reads back as written. -/
theorem tget_tput {α : Type} [DecidableEq α] {d : Nat → α} {k : Nat} {v : α} {t : Table α} (e : twf d t = true) :
    tget d (tput d k v t) k = v := tget_tput_same e

/-- Other contents stay. -/
theorem tget_tput_ne {α : Type} [DecidableEq α] {d : Nat → α} {k j : Nat} {v : α} {t : Table α} (h : j ≠ k) :
    tget d (tput d k v t) j = tget d t j := by
  induction t with
  | nil =>
    unfold tput
    split
    · rfl
    · simp [tget, h]
  | cons x t ih =>
    obtain ⟨k', v'⟩ := x
    unfold tput
    split
    · split
      · rfl
      · simp [tget, h]
    · split
      · rename_i g2
        subst g2
        split <;> simp [tget, h]
      · simp only [tget, ih]


theorem twfFrom_tmap {α : Type} [DecidableEq α] {d : Nat → α} {f : α → α} {lo : Nat} {t : Table α}
    (e : twfFrom d lo t = true) : twfFrom d lo (tmap d f t) = true := by
  induction t generalizing lo with
  | nil => rfl
  | cons x t ih =>
    obtain ⟨k, v⟩ := x
    simp only [twfFrom, Bool.and_eq_true, decide_eq_true_eq] at e
    unfold tmap
    split
    · exact twfFrom_mono (by omega) (ih e.2)
    · rename_i g
      simp [twfFrom, e.1.1, g, ih e.2]

/-- Changing every content keeps the canonical form. -/
theorem twf_tmap {α : Type} [DecidableEq α] {d : Nat → α} {f : α → α} {t : Table α} (e : twf d t = true) :
    twf d (tmap d f t) = true := twfFrom_tmap e

theorem twf_nil {α : Type} [DecidableEq α] {d : Nat → α} : twf d [] = true := rfl


/-- A state written field by field over another one. -/
theorem Frame.lit {m : Nat} {r u : State}
    {v_pending : List Instr} {v_cycle : Nat} {v_free : Nat} {v_outs : List Output} {v_regs : Table Word} {v_latch : Table Word} {v_misaligned : Word} {v_tick : TickState} {v_boot : BootState} {v_supply : SupplyState} {v_time : TimeState} {v_keep : KeepState} {v_recd : RecState} {v_pwr : PwrState} {v_assay : AssayState} {v_land : LandState} {v_prot : ProtState} {v_seams : Table SeamState} {v_tub : TubState} {v_wnd : WndState} {v_sched : SchedState} {v_ports : Table PortState} {v_mdio : Table MdioState} {v_ingress : Table (List InFrame)} {v_join : JoinState} {v_ciph : CiphState} {v_cls : ClsState} {v_tally : TallyState} {v_circuits : Table Circuit} {v_looped : List (Nat × Bytes)} {v_lanes : Table LaneState} {v_chain : ChainState} {v_host : HostState}
    (h : Frame m r u) (e_pending : v_pending = u.pending)
    (l_free : u.free ≤ v_free := by first | exact Nat.le_refl _ | exact Nat.le_succ _)
    (l_outs : u.outs <:+ v_outs := by first | exact List.suffix_refl _ | exact List.suffix_cons _ _)
    (l_opRoot : ∀ k, u.keep.opRoot = some k → v_keep.opRoot = some k := by exact fun _ h => h)
    (l_regs : twf resetValue u.regs = true → twf resetValue v_regs = true := by first | with_reducible exact fun h => h | with_reducible exact fun h => twf_tput h | with_reducible exact fun h => twf_filter h | with_reducible exact fun h => twf_tmap h | with_reducible exact fun _ => twf_nil | exact fun h => h | with_unfolding_all exact fun _ => twf_nil)
    (l_sram : twf (fun _ => 0) u.tub.sram = true → twf (fun _ => 0) v_tub.sram = true := by first | with_reducible exact fun h => h | with_reducible exact fun h => twf_tput h | with_reducible exact fun h => twf_filter h | with_reducible exact fun h => twf_tmap h | with_reducible exact fun _ => twf_nil | exact fun h => h | with_unfolding_all exact fun _ => twf_nil)
    (l_dram : twf (fun _ => 0) u.tub.dram = true → twf (fun _ => 0) v_tub.dram = true := by first | with_reducible exact fun h => h | with_reducible exact fun h => twf_tput h | with_reducible exact fun h => twf_filter h | with_reducible exact fun h => twf_tmap h | with_reducible exact fun _ => twf_nil | exact fun h => h | with_unfolding_all exact fun _ => twf_nil)
    (l_ring : twf (fun _ => 0) u.recd.ring = true → twf (fun _ => 0) v_recd.ring = true := by first | with_reducible exact fun h => h | with_reducible exact fun h => twf_tput h | with_reducible exact fun h => twf_filter h | with_reducible exact fun h => twf_tmap h | with_reducible exact fun _ => twf_nil | exact fun h => h | with_unfolding_all exact fun _ => twf_nil)
    (l_latch : twf (fun _ => 0) u.latch = true → twf (fun _ => 0) v_latch = true := by first | with_reducible exact fun h => h | with_reducible exact fun h => twf_tput h | with_reducible exact fun h => twf_filter h | with_reducible exact fun h => twf_tmap h | with_reducible exact fun _ => twf_nil | exact fun h => h | with_unfolding_all exact fun _ => twf_nil)
    (l_dieA : twf blankCopy u.keep.dieA = true → twf blankCopy v_keep.dieA = true := by first | with_reducible exact fun h => h | with_reducible exact fun h => twf_tput h | with_reducible exact fun h => twf_filter h | with_reducible exact fun h => twf_tmap h | with_reducible exact fun _ => twf_nil | exact fun h => h | with_unfolding_all exact fun _ => twf_nil)
    (l_dieB : twf blankCopy u.keep.dieB = true → twf blankCopy v_keep.dieB = true := by first | with_reducible exact fun h => h | with_reducible exact fun h => twf_tput h | with_reducible exact fun h => twf_filter h | with_reducible exact fun h => twf_tmap h | with_reducible exact fun _ => twf_nil | exact fun h => h | with_unfolding_all exact fun _ => twf_nil)
    (l_seams : twf (fun _ => SeamState.reset) u.seams = true → twf (fun _ => SeamState.reset) v_seams = true := by first | with_reducible exact fun h => h | with_reducible exact fun h => twf_tput h | with_reducible exact fun h => twf_filter h | with_reducible exact fun h => twf_tmap h | with_reducible exact fun _ => twf_nil | exact fun h => h | with_unfolding_all exact fun _ => twf_nil)
    (l_ports : twf (fun _ => PortState.reset) u.ports = true → twf (fun _ => PortState.reset) v_ports = true := by first | with_reducible exact fun h => h | with_reducible exact fun h => twf_tput h | with_reducible exact fun h => twf_filter h | with_reducible exact fun h => twf_tmap h | with_reducible exact fun _ => twf_nil | exact fun h => h | with_unfolding_all exact fun _ => twf_nil)
    (l_mdio : twf (fun _ => MdioState.reset) u.mdio = true → twf (fun _ => MdioState.reset) v_mdio = true := by first | with_reducible exact fun h => h | with_reducible exact fun h => twf_tput h | with_reducible exact fun h => twf_filter h | with_reducible exact fun h => twf_tmap h | with_reducible exact fun _ => twf_nil | exact fun h => h | with_unfolding_all exact fun _ => twf_nil)
    (l_circuits : twf (fun _ => Circuit.reset) u.circuits = true → twf (fun _ => Circuit.reset) v_circuits = true := by first | with_reducible exact fun h => h | with_reducible exact fun h => twf_tput h | with_reducible exact fun h => twf_filter h | with_reducible exact fun h => twf_tmap h | with_reducible exact fun _ => twf_nil | exact fun h => h | with_unfolding_all exact fun _ => twf_nil)
    (l_lanes : twf (fun _ => LaneState.reset) u.lanes = true → twf (fun _ => LaneState.reset) v_lanes = true := by first | with_reducible exact fun h => h | with_reducible exact fun h => twf_tput h | with_reducible exact fun h => twf_filter h | with_reducible exact fun h => twf_tmap h | with_reducible exact fun _ => twf_nil | exact fun h => h | with_unfolding_all exact fun _ => twf_nil)
    (l_idents : twf (fun _ => Identity.reset) u.join.idents = true → twf (fun _ => Identity.reset) v_join.idents = true := by first | with_reducible exact fun h => h | with_reducible exact fun h => twf_tput h | with_reducible exact fun h => twf_filter h | with_reducible exact fun h => twf_tmap h | with_reducible exact fun _ => twf_nil | exact fun h => h | with_unfolding_all exact fun _ => twf_nil)
    (l_portScheds : twf (fun _ => PortSched.reset) u.sched.ports = true → twf (fun _ => PortSched.reset) v_sched.ports = true := by first | with_reducible exact fun h => h | with_reducible exact fun h => twf_tput h | with_reducible exact fun h => twf_filter h | with_reducible exact fun h => twf_tmap h | with_reducible exact fun _ => twf_nil | exact fun h => h | with_unfolding_all exact fun _ => twf_nil)
    (l_aqs : twf (fun _ => AllocQueue.reset) u.sched.aqs = true → twf (fun _ => AllocQueue.reset) v_sched.aqs = true := by first | with_reducible exact fun h => h | with_reducible exact fun h => twf_tput h | with_reducible exact fun h => twf_filter h | with_reducible exact fun h => twf_tmap h | with_reducible exact fun _ => twf_nil | exact fun h => h | with_unfolding_all exact fun _ => twf_nil)
    (l_chans : twf (fun _ => WndChan.reset) u.wnd.chans = true → twf (fun _ => WndChan.reset) v_wnd.chans = true := by first | with_reducible exact fun h => h | with_reducible exact fun h => twf_tput h | with_reducible exact fun h => twf_filter h | with_reducible exact fun h => twf_tmap h | with_reducible exact fun _ => twf_nil | exact fun h => h | with_unfolding_all exact fun _ => twf_nil)
    (e_cycle : m.testBit 0 = true ∨ v_cycle = u.cycle := by first | exact Or.inl (testBit_of_land (by assumption) (by decide)) | exact Or.inr rfl)
    (e_free : m.testBit 1 = true ∨ v_free = u.free := by first | exact Or.inl (testBit_of_land (by assumption) (by decide)) | exact Or.inr rfl)
    (e_outs : m.testBit 2 = true ∨ v_outs = u.outs := by first | exact Or.inl (testBit_of_land (by assumption) (by decide)) | exact Or.inr rfl)
    (e_regs : m.testBit 3 = true ∨ v_regs = u.regs := by first | exact Or.inl (testBit_of_land (by assumption) (by decide)) | exact Or.inr rfl)
    (e_latch : m.testBit 4 = true ∨ v_latch = u.latch := by first | exact Or.inl (testBit_of_land (by assumption) (by decide)) | exact Or.inr rfl)
    (e_misaligned : m.testBit 5 = true ∨ v_misaligned = u.misaligned := by first | exact Or.inl (testBit_of_land (by assumption) (by decide)) | exact Or.inr rfl)
    (e_tick : m.testBit 6 = true ∨ v_tick = u.tick := by first | exact Or.inl (testBit_of_land (by assumption) (by decide)) | exact Or.inr rfl)
    (e_boot : m.testBit 7 = true ∨ v_boot = u.boot := by first | exact Or.inl (testBit_of_land (by assumption) (by decide)) | exact Or.inr rfl)
    (e_supply : m.testBit 8 = true ∨ v_supply = u.supply := by first | exact Or.inl (testBit_of_land (by assumption) (by decide)) | exact Or.inr rfl)
    (e_time : m.testBit 9 = true ∨ v_time = u.time := by first | exact Or.inl (testBit_of_land (by assumption) (by decide)) | exact Or.inr rfl)
    (e_keep : m.testBit 10 = true ∨ v_keep = u.keep := by first | exact Or.inl (testBit_of_land (by assumption) (by decide)) | exact Or.inr rfl)
    (e_recd : m.testBit 11 = true ∨ v_recd = u.recd := by first | exact Or.inl (testBit_of_land (by assumption) (by decide)) | exact Or.inr rfl)
    (e_pwr : m.testBit 12 = true ∨ v_pwr = u.pwr := by first | exact Or.inl (testBit_of_land (by assumption) (by decide)) | exact Or.inr rfl)
    (e_assay : m.testBit 13 = true ∨ v_assay = u.assay := by first | exact Or.inl (testBit_of_land (by assumption) (by decide)) | exact Or.inr rfl)
    (e_land : m.testBit 14 = true ∨ v_land = u.land := by first | exact Or.inl (testBit_of_land (by assumption) (by decide)) | exact Or.inr rfl)
    (e_prot : m.testBit 15 = true ∨ v_prot = u.prot := by first | exact Or.inl (testBit_of_land (by assumption) (by decide)) | exact Or.inr rfl)
    (e_seams : m.testBit 16 = true ∨ v_seams = u.seams := by first | exact Or.inl (testBit_of_land (by assumption) (by decide)) | exact Or.inr rfl)
    (e_tub : m.testBit 17 = true ∨ v_tub = u.tub := by first | exact Or.inl (testBit_of_land (by assumption) (by decide)) | exact Or.inr rfl)
    (e_wnd : m.testBit 18 = true ∨ v_wnd = u.wnd := by first | exact Or.inl (testBit_of_land (by assumption) (by decide)) | exact Or.inr rfl)
    (e_sched : m.testBit 19 = true ∨ v_sched = u.sched := by first | exact Or.inl (testBit_of_land (by assumption) (by decide)) | exact Or.inr rfl)
    (e_ports : m.testBit 20 = true ∨ v_ports = u.ports := by first | exact Or.inl (testBit_of_land (by assumption) (by decide)) | exact Or.inr rfl)
    (e_mdio : m.testBit 21 = true ∨ v_mdio = u.mdio := by first | exact Or.inl (testBit_of_land (by assumption) (by decide)) | exact Or.inr rfl)
    (e_ingress : m.testBit 22 = true ∨ v_ingress = u.ingress := by first | exact Or.inl (testBit_of_land (by assumption) (by decide)) | exact Or.inr rfl)
    (e_join : m.testBit 23 = true ∨ v_join = u.join := by first | exact Or.inl (testBit_of_land (by assumption) (by decide)) | exact Or.inr rfl)
    (e_ciph : m.testBit 24 = true ∨ v_ciph = u.ciph := by first | exact Or.inl (testBit_of_land (by assumption) (by decide)) | exact Or.inr rfl)
    (e_cls : m.testBit 25 = true ∨ v_cls = u.cls := by first | exact Or.inl (testBit_of_land (by assumption) (by decide)) | exact Or.inr rfl)
    (e_tally : m.testBit 26 = true ∨ v_tally = u.tally := by first | exact Or.inl (testBit_of_land (by assumption) (by decide)) | exact Or.inr rfl)
    (e_circuits : m.testBit 27 = true ∨ v_circuits = u.circuits := by first | exact Or.inl (testBit_of_land (by assumption) (by decide)) | exact Or.inr rfl)
    (e_looped : m.testBit 28 = true ∨ v_looped = u.looped := by first | exact Or.inl (testBit_of_land (by assumption) (by decide)) | exact Or.inr rfl)
    (e_lanes : m.testBit 29 = true ∨ v_lanes = u.lanes := by first | exact Or.inl (testBit_of_land (by assumption) (by decide)) | exact Or.inr rfl)
    (e_chain : m.testBit 30 = true ∨ v_chain = u.chain := by first | exact Or.inl (testBit_of_land (by assumption) (by decide)) | exact Or.inr rfl)
    (e_host : m.testBit 31 = true ∨ v_host = u.host := by first | exact Or.inl (testBit_of_land (by assumption) (by decide)) | exact Or.inr rfl)
    (x_stalled : m.testBit 32 = true ∨ v_pwr.stalled = u.pwr.stalled := by first | exact Or.inl (testBit_of_land (by assumption) (by decide)) | exact Or.inr rfl)
    (x_faultsIn : m.testBit 33 = true ∨ v_assay.faultsIn = u.assay.faultsIn := by first | exact Or.inl (testBit_of_land (by assumption) (by decide)) | exact Or.inr rfl)
    (x_opRoot : m.testBit 34 = true ∨ v_keep.opRoot = u.keep.opRoot := by first | exact Or.inl (testBit_of_land (by assumption) (by decide)) | exact Or.inr rfl)
    (x_tickCount : m.testBit 35 = true ∨ v_tick.count = u.tick.count := by first | exact Or.inl (testBit_of_land (by assumption) (by decide)) | exact Or.inr rfl)
    (x_dom : m.testBit 36 = true ∨ v_pwr.dom = u.pwr.dom := by first | exact Or.inl (testBit_of_land (by assumption) (by decide)) | exact Or.inr rfl)
    (x_phase : m.testBit 37 = true ∨ v_boot.phase = u.boot.phase := by first | exact Or.inl (testBit_of_land (by assumption) (by decide)) | exact Or.inr rfl)
    (x_now : m.testBit 38 = true ∨ v_time.now = u.time.now := by first | exact Or.inl (testBit_of_land (by assumption) (by decide)) | exact Or.inr rfl)
    (x_ladder : m.testBit 39 = true ∨ v_pwr.ladder = u.pwr.ladder := by first | exact Or.inl (testBit_of_land (by assumption) (by decide)) | exact Or.inr rfl)
    (x_votes : m.testBit 40 = true ∨ v_pwr.votes = u.pwr.votes := by first | exact Or.inl (testBit_of_land (by assumption) (by decide)) | exact Or.inr rfl)
    (x_active : m.testBit 41 = true ∨ v_prot.active = u.prot.active := by first | exact Or.inl (testBit_of_land (by assumption) (by decide)) | exact Or.inr rfl)
    (x_sram : m.testBit 42 = true ∨ v_tub.sram = u.tub.sram := by first | exact Or.inl (testBit_of_land (by assumption) (by decide)) | exact Or.inr rfl)
    (x_dram : m.testBit 43 = true ∨ v_tub.dram = u.tub.dram := by first | exact Or.inl (testBit_of_land (by assumption) (by decide)) | exact Or.inr rfl)
    (x_mounted : m.testBit 44 = true ∨ v_keep.mounted = u.keep.mounted := by first | exact Or.inl (testBit_of_land (by assumption) (by decide)) | exact Or.inr rfl)
    (x_warning : m.testBit 45 = true ∨ v_supply.warning = u.supply.warning := by first | exact Or.inl (testBit_of_land (by assumption) (by decide)) | exact Or.inr rfl)
    (x_ring : m.testBit 46 = true ∨ v_recd.ring = u.recd.ring := by first | exact Or.inl (testBit_of_land (by assumption) (by decide)) | exact Or.inr rfl)
    : Frame m r ⟨v_pending, v_cycle, v_free, v_outs, v_regs, v_latch, v_misaligned, v_tick, v_boot, v_supply, v_time, v_keep, v_recd, v_pwr, v_assay, v_land, v_prot, v_seams, v_tub, v_wnd, v_sched, v_ports, v_mdio, v_ingress, v_join, v_ciph, v_cls, v_tally, v_circuits, v_looped, v_lanes, v_chain, v_host⟩ := by
  refine h.trans ?_
  have k : ∀ i, m.testBit i = true → ¬ m.testBit i = false := fun i a b => by simp [a] at b
  constructor
  · exact ⟨e_pending, l_free, l_outs, l_opRoot, l_regs, l_sram, l_dram, l_ring, l_latch, l_dieA, l_dieB, l_seams, l_ports, l_mdio, l_circuits, l_lanes, l_idents, l_portScheds, l_aqs, l_chans⟩
  · exact fun b => e_cycle.resolve_left fun a => k _ a b
  · exact fun b => e_free.resolve_left fun a => k _ a b
  · exact fun b => e_outs.resolve_left fun a => k _ a b
  · exact fun b => e_regs.resolve_left fun a => k _ a b
  · exact fun b => e_latch.resolve_left fun a => k _ a b
  · exact fun b => e_misaligned.resolve_left fun a => k _ a b
  · exact fun b => e_tick.resolve_left fun a => k _ a b
  · exact fun b => e_boot.resolve_left fun a => k _ a b
  · exact fun b => e_supply.resolve_left fun a => k _ a b
  · exact fun b => e_time.resolve_left fun a => k _ a b
  · exact fun b => e_keep.resolve_left fun a => k _ a b
  · exact fun b => e_recd.resolve_left fun a => k _ a b
  · exact fun b => e_pwr.resolve_left fun a => k _ a b
  · exact fun b => e_assay.resolve_left fun a => k _ a b
  · exact fun b => e_land.resolve_left fun a => k _ a b
  · exact fun b => e_prot.resolve_left fun a => k _ a b
  · exact fun b => e_seams.resolve_left fun a => k _ a b
  · exact fun b => e_tub.resolve_left fun a => k _ a b
  · exact fun b => e_wnd.resolve_left fun a => k _ a b
  · exact fun b => e_sched.resolve_left fun a => k _ a b
  · exact fun b => e_ports.resolve_left fun a => k _ a b
  · exact fun b => e_mdio.resolve_left fun a => k _ a b
  · exact fun b => e_ingress.resolve_left fun a => k _ a b
  · exact fun b => e_join.resolve_left fun a => k _ a b
  · exact fun b => e_ciph.resolve_left fun a => k _ a b
  · exact fun b => e_cls.resolve_left fun a => k _ a b
  · exact fun b => e_tally.resolve_left fun a => k _ a b
  · exact fun b => e_circuits.resolve_left fun a => k _ a b
  · exact fun b => e_looped.resolve_left fun a => k _ a b
  · exact fun b => e_lanes.resolve_left fun a => k _ a b
  · exact fun b => e_chain.resolve_left fun a => k _ a b
  · exact fun b => e_host.resolve_left fun a => k _ a b
  · exact fun b => x_stalled.resolve_left fun a => k _ a b
  · exact fun b => x_faultsIn.resolve_left fun a => k _ a b
  · exact fun b => x_opRoot.resolve_left fun a => k _ a b
  · exact fun b => x_tickCount.resolve_left fun a => k _ a b
  · exact fun b => x_dom.resolve_left fun a => k _ a b
  · exact fun b => x_phase.resolve_left fun a => k _ a b
  · exact fun b => x_now.resolve_left fun a => k _ a b
  · exact fun b => x_ladder.resolve_left fun a => k _ a b
  · exact fun b => x_votes.resolve_left fun a => k _ a b
  · exact fun b => x_active.resolve_left fun a => k _ a b
  · exact fun b => x_sram.resolve_left fun a => k _ a b
  · exact fun b => x_dram.resolve_left fun a => k _ a b
  · exact fun b => x_mounted.resolve_left fun a => k _ a b
  · exact fun b => x_warning.resolve_left fun a => k _ a b
  · exact fun b => x_ring.resolve_left fun a => k _ a b

theorem each_frame {α : Type} {m : Nat} {r : State} {l : List α} {f : α → State → State} {u : State} (h : Frame m r u)
    (hf : ∀ x v, Frame m r v → Frame m r (f x v)) : Frame m r (each l f u) := by
  unfold each
  induction l generalizing u with
  | nil => exact h
  | cons x l ih => exact ih (hf x u h)

theorem when'_frame {m : Nat} {r u : State} {c : Bool} {f : State → State} (h : Frame m r u)
    (hf : ∀ v, Frame m r v → Frame m r (f v)) : Frame m r (when' c f u) := by
  unfold when'
  split
  · exact hf u h
  · exact h

theorem foldl_frame {α : Type} {m : Nat} {r : State} {l : List α} {f : State → α → State} {u : State} (h : Frame m r u)
    (hf : ∀ x v, Frame m r v → Frame m r (f v x)) : Frame m r (l.foldl f u) := by
  induction l generalizing u with
  | nil => exact h
  | cons x l ih => exact ih (hf x u h)

theorem ite_frame {m : Nat} {r a b : State} {c : Prop} [Decidable c] (h : Frame m r a) (g : Frame m r b) :
    Frame m r (if c then a else b) := by
  split
  · exact h
  · exact g

theorem foldl_fst_frame {α β : Type} {m : Nat} {r : State} {l : List α} {f : State × β → α → State × β} {p : State × β}
    (h : Frame m r p.1) (hf : ∀ x q, Frame m r q.1 → Frame m r (f q x).1) : Frame m r (l.foldl f p).1 := by
  induction l generalizing p with
  | nil => exact h
  | cons x l ih => exact ih (hf x p h)

end Sys2Proof.Machine
end

