-- ==== Sys2Proof/Laws/Frame0.lean ====
section
/-! SUPPORT. The frames of the operations that take a function, and the tables they keep in canonical form. -/
set_option Elab.async false
set_option linter.all false

namespace Sys2Proof.Machine

theorem setRingUnit_ring {k : Nat} {v : BitVec 64} {x : RecState} (h : twf (fun _ => 0) x.ring = true) :
    twf (fun _ => 0) (setRingUnit k v x).ring = true := twf_tput h

theorem writeUnits_ring {k : Nat} {l : List (BitVec 64)} {x : RecState} (h : twf (fun _ => 0) x.ring = true) :
    twf (fun _ => 0) (writeUnits k l x).ring = true := by
  induction l generalizing k x with
  | nil => exact h
  | cons v l ih => exact ih (setRingUnit_ring h)

theorem retireSegment_ring {g : Nat} {x : RecState} : (retireSegment g x).ring = x.ring := by
  unfold retireSegment
  split <;> rfl

theorem placeRecord_ring {n : Nat} {x : RecState} (h : twf (fun _ => 0) x.ring = true) :
    twf (fun _ => 0) (placeRecord n x).ring = true := by
  unfold placeRecord
  dsimp only
  split
  · split
    · rw [retireSegment_ring]
      exact h
    · exact h
  · rw [retireSegment_ring]
    split
    · exact setRingUnit_ring h
    · exact h

/-- Writing a record keeps the ring in canonical form. -/
theorem writeRecord_ring {w : WaitingRecord} {x : RecState} (h : twf (fun _ => 0) x.ring = true) :
    twf (fun _ => 0) (writeRecord w x).ring = true := by
  unfold writeRecord
  exact writeUnits_ring (placeRecord_ring h)

/-- The frame of `modPwr`. -/
theorem modPwr_frame {m : Nat} {r u : State} {f : PwrState → PwrState} (h : Frame m r u) (hm : m &&& 4096 = 4096)
    (h_stalled : m.testBit 32 = true ∨ ∀ y : PwrState, (f y).stalled = y.stalled)
    (h_dom : m.testBit 36 = true ∨ ∀ y : PwrState, (f y).dom = y.dom)
    (h_ladder : m.testBit 39 = true ∨ ∀ y : PwrState, (f y).ladder = y.ladder)
    (h_votes : m.testBit 40 = true ∨ ∀ y : PwrState, (f y).votes = y.votes) :
    Frame m r (modPwr f u) := by
  unfold modPwr
  exact Frame.lit h rfl (x_stalled := h_stalled.imp id fun g => g _) (x_dom := h_dom.imp id fun g => g _) (x_ladder := h_ladder.imp id fun g => g _) (x_votes := h_votes.imp id fun g => g _)

/-- The frame of `modAssay`. -/
theorem modAssay_frame {m : Nat} {r u : State} {f : AssayState → AssayState} (h : Frame m r u) (hm : m &&& 8192 = 8192)
    (h_faultsIn : m.testBit 33 = true ∨ ∀ y : AssayState, (f y).faultsIn = y.faultsIn) :
    Frame m r (modAssay f u) := by
  unfold modAssay
  exact Frame.lit h rfl (x_faultsIn := h_faultsIn.imp id fun g => g _)

/-- The frame of `modKeep`. -/
theorem modKeep_frame {m : Nat} {r u : State} {f : KeepState → KeepState} (h : Frame m r u) (hm : m &&& 1024 = 1024)
    (h_mounted : m.testBit 44 = true ∨ ∀ y : KeepState, (f y).mounted = y.mounted)
    (h_opRoot : ∀ (y : KeepState) k, y.opRoot = some k → (f y).opRoot = some k)
    (h_root : m.testBit 34 = true ∨ ∀ y : KeepState, (f y).opRoot = y.opRoot)
    (h_dieA : ∀ y : KeepState, twf blankCopy y.dieA = true → twf blankCopy (f y).dieA = true)
    (h_dieB : ∀ y : KeepState, twf blankCopy y.dieB = true → twf blankCopy (f y).dieB = true) :
    Frame m r (modKeep f u) := by
  unfold modKeep
  exact Frame.lit h rfl (x_mounted := h_mounted.imp id fun g => g _) (l_opRoot := h_opRoot _) (x_opRoot := h_root.imp id fun g => g _) (l_dieA := h_dieA _) (l_dieB := h_dieB _)

/-- The frame of `modProt`. -/
theorem modProt_frame {m : Nat} {r u : State} {f : ProtState → ProtState} (h : Frame m r u) (hm : m &&& 32768 = 32768)
    (h_active : m.testBit 41 = true ∨ ∀ y : ProtState, (f y).active = y.active) :
    Frame m r (modProt f u) := by
  unfold modProt
  exact Frame.lit h rfl (x_active := h_active.imp id fun g => g _)

/-- The frame of `modTick`. -/
theorem modTick_frame {m : Nat} {r u : State} {f : TickState → TickState} (h : Frame m r u) (hm : m &&& 64 = 64)
    (h_count : m.testBit 35 = true ∨ ∀ y : TickState, (f y).count = y.count) :
    Frame m r (modTick f u) := by
  unfold modTick
  exact Frame.lit h rfl (x_tickCount := h_count.imp id fun g => g _)

/-- The frame of `modSupply`. -/
theorem modSupply_frame {m : Nat} {r u : State} {f : SupplyState → SupplyState} (h : Frame m r u) (hm : m &&& 256 = 256)
    (h_warning : m.testBit 45 = true ∨ ∀ y : SupplyState, (f y).warning = y.warning) :
    Frame m r (modSupply f u) := by
  unfold modSupply
  exact Frame.lit h rfl (x_warning := h_warning.imp id fun g => g _)

/-- The frame of `modBoot`. -/
theorem modBoot_frame {m : Nat} {r u : State} {f : BootState → BootState} (h : Frame m r u) (hm : m &&& 128 = 128)
    (h_phase : m.testBit 37 = true ∨ ∀ y : BootState, (f y).phase = y.phase) :
    Frame m r (modBoot f u) := by
  unfold modBoot
  exact Frame.lit h rfl (x_phase := h_phase.imp id fun g => g _)

end Sys2Proof.Machine
end

