-- ==== Sys2Proof/Laws/FrameOps.lean ====
section
/-! SUPPORT. The frames of the operations of Machine/Ops.lean: each changes nothing outside its mask (see Laws/Frame.lean). -/
set_option Elab.async false
set_option linter.all false

namespace Sys2Proof.Machine

theorem setReg_frame {m : Nat} {r u : State} {x0 x1} (h : Frame m r u) (hm : m &&& 8 = 8) : Frame m r (setReg x0 x1 u) := by
  unfold setReg
  try dsimp only
  repeat' first
    | with_reducible assumption
    | intro _
    | exact land_trans hm rfl
    | exact testBit_of_land hm (by decide)
    | with_reducible apply ite_frame
    | (split <;> try (rename_i hq; replace hq := congrArg Prod.snd hq; dsimp only at hq; subst hq))
    | (rename_i hq; replace hq := congrArg Prod.snd hq; dsimp only at hq; subst hq)
    | (rename_i hq; injection hq with hq; subst hq)
    | (with_reducible refine Frame.lit ?_ rfl; first | with_reducible assumption | split)

theorem setRfld_frame {m : Nat} {r u : State} {x0 x1 x2 x3} (h : Frame m r u) (hm : m &&& 8 = 8) : Frame m r (setRfld x0 x1 x2 x3 u) := by
  unfold setRfld
  try dsimp only
  repeat' first
    | with_reducible assumption
    | intro _
    | exact land_trans hm rfl
    | exact testBit_of_land hm (by decide)
    | with_reducible apply setReg_frame
    | with_reducible apply ite_frame
    | (split <;> try (rename_i hq; replace hq := congrArg Prod.snd hq; dsimp only at hq; subst hq))
    | (rename_i hq; replace hq := congrArg Prod.snd hq; dsimp only at hq; subst hq)
    | (rename_i hq; injection hq with hq; subst hq)

theorem countN_frame {m : Nat} {r u : State} {x0 x1} (h : Frame m r u) (hm : m &&& 8 = 8) : Frame m r (countN x0 x1 u) := by
  unfold countN
  try dsimp only
  repeat' first
    | with_reducible assumption
    | intro _
    | exact land_trans hm rfl
    | exact testBit_of_land hm (by decide)
    | with_reducible apply setReg_frame
    | with_reducible apply ite_frame
    | (split <;> try (rename_i hq; replace hq := congrArg Prod.snd hq; dsimp only at hq; subst hq))
    | (rename_i hq; replace hq := congrArg Prod.snd hq; dsimp only at hq; subst hq)
    | (rename_i hq; injection hq with hq; subst hq)

theorem count_frame {m : Nat} {r u : State} {x0} (h : Frame m r u) (hm : m &&& 8 = 8) : Frame m r (count x0 u) := by
  unfold count
  try dsimp only
  repeat' first
    | with_reducible assumption
    | intro _
    | exact land_trans hm rfl
    | exact testBit_of_land hm (by decide)
    | with_reducible apply countN_frame
    | with_reducible apply ite_frame
    | (split <;> try (rename_i hq; replace hq := congrArg Prod.snd hq; dsimp only at hq; subst hq))
    | (rename_i hq; replace hq := congrArg Prod.snd hq; dsimp only at hq; subst hq)
    | (rename_i hq; injection hq with hq; subst hq)

theorem count64_frame {m : Nat} {r u : State} {x0 x1} (h : Frame m r u) (hm : m &&& 8 = 8) : Frame m r (count64 x0 x1 u) := by
  unfold count64
  try dsimp only
  repeat' first
    | with_reducible assumption
    | intro _
    | exact land_trans hm rfl
    | exact testBit_of_land hm (by decide)
    | with_reducible apply setReg_frame
    | with_reducible apply ite_frame
    | (split <;> try (rename_i hq; replace hq := congrArg Prod.snd hq; dsimp only at hq; subst hq))
    | (rename_i hq; replace hq := congrArg Prod.snd hq; dsimp only at hq; subst hq)
    | (rename_i hq; injection hq with hq; subst hq)

theorem emit_frame {m : Nat} {r u : State} {x0} (h : Frame m r u) (hm : m &&& 4 = 4) : Frame m r (emit x0 u) := by
  unfold emit
  try dsimp only
  repeat' first
    | with_reducible assumption
    | intro _
    | exact land_trans hm rfl
    | exact testBit_of_land hm (by decide)
    | with_reducible apply ite_frame
    | (split <;> try (rename_i hq; replace hq := congrArg Prod.snd hq; dsimp only at hq; subst hq))
    | (rename_i hq; replace hq := congrArg Prod.snd hq; dsimp only at hq; subst hq)
    | (rename_i hq; injection hq with hq; subst hq)
    | (with_reducible refine Frame.lit ?_ rfl; first | with_reducible assumption | split)

theorem emitLand_frame {m : Nat} {r u : State} {x0 x1} (h : Frame m r u) (hm : m &&& 4 = 4) : Frame m r (emitLand x0 x1 u) := by
  unfold emitLand
  try dsimp only
  repeat' first
    | with_reducible assumption
    | intro _
    | exact land_trans hm rfl
    | exact testBit_of_land hm (by decide)
    | with_reducible apply emit_frame
    | with_reducible apply ite_frame
    | (split <;> try (rename_i hq; replace hq := congrArg Prod.snd hq; dsimp only at hq; subst hq))
    | (rename_i hq; replace hq := congrArg Prod.snd hq; dsimp only at hq; subst hq)
    | (rename_i hq; injection hq with hq; subst hq)

theorem nextFree_frame {m : Nat} {r u : State} (h : Frame m r u) (hm : m &&& 2 = 2) : Frame m r (nextFree u) := by
  unfold nextFree
  try dsimp only
  repeat' first
    | with_reducible assumption
    | intro _
    | exact land_trans hm rfl
    | exact testBit_of_land hm (by decide)
    | with_reducible apply ite_frame
    | (split <;> try (rename_i hq; replace hq := congrArg Prod.snd hq; dsimp only at hq; subst hq))
    | (rename_i hq; replace hq := congrArg Prod.snd hq; dsimp only at hq; subst hq)
    | (rename_i hq; injection hq with hq; subst hq)
    | (with_reducible refine Frame.lit ?_ rfl; first | with_reducible assumption | split)

theorem dropAtIngress_frame {m : Nat} {r u : State} (h : Frame m r u) (hm : m &&& 256 = 256) : Frame m r (dropAtIngress u) := by
  unfold dropAtIngress
  try dsimp only
  repeat' first
    | with_reducible assumption
    | intro _
    | exact land_trans hm rfl
    | exact testBit_of_land hm (by decide)
    | with_reducible apply ite_frame
    | (split <;> try (rename_i hq; replace hq := congrArg Prod.snd hq; dsimp only at hq; subst hq))
    | (rename_i hq; replace hq := congrArg Prod.snd hq; dsimp only at hq; subst hq)
    | (rename_i hq; injection hq with hq; subst hq)
    | (with_reducible refine Frame.lit ?_ rfl; first | with_reducible assumption | split)

theorem noteFault_frame {m : Nat} {r u : State} {x0 x1} (h : Frame m r u) (hm : m &&& 8589942784 = 8589942784) : Frame m r (noteFault x0 x1 u) := by
  unfold noteFault
  try dsimp only
  repeat' first
    | with_reducible assumption
    | intro _
    | exact land_trans hm rfl
    | exact testBit_of_land hm (by decide)
    | with_reducible apply ite_frame
    | (split <;> try (rename_i hq; replace hq := congrArg Prod.snd hq; dsimp only at hq; subst hq))
    | (rename_i hq; replace hq := congrArg Prod.snd hq; dsimp only at hq; subst hq)
    | (rename_i hq; injection hq with hq; subst hq)
    | (with_reducible refine Frame.lit ?_ rfl; first | with_reducible assumption | split)

theorem setDom_frame {m : Nat} {r u : State} {x0 x1} (h : Frame m r u) (hm : m &&& 68719480832 = 68719480832) : Frame m r (setDom x0 x1 u) := by
  unfold setDom
  try dsimp only
  repeat' first
    | with_reducible assumption
    | intro _
    | exact land_trans hm rfl
    | exact testBit_of_land hm (by decide)
    | with_reducible apply ite_frame
    | (split <;> try (rename_i hq; replace hq := congrArg Prod.snd hq; dsimp only at hq; subst hq))
    | (rename_i hq; replace hq := congrArg Prod.snd hq; dsimp only at hq; subst hq)
    | (rename_i hq; injection hq with hq; subst hq)
    | (with_reducible refine Frame.lit ?_ rfl; first | with_reducible assumption | split)

theorem recordEvent_frame {m : Nat} {r u : State} {x0 x1 x2} (h : Frame m r u) (hm : m &&& 70368744179720 = 70368744179720) : Frame m r (recordEvent x0 x1 x2 u) := by
  unfold recordEvent
  dsimp only
  split
  · split
    · refine Frame.lit h rfl (l_ring := fun e => writeRecord_ring e)
    · exact count_frame (Frame.lit h rfl) (land_trans hm rfl)
  · split <;> exact Frame.lit h rfl


theorem event_frame {m : Nat} {r u : State} {x0 x1} (h : Frame m r u) (hm : m &&& 70368744179720 = 70368744179720) : Frame m r (event x0 x1 u) := by
  unfold event
  try dsimp only
  repeat' first
    | with_reducible assumption
    | intro _
    | exact land_trans hm rfl
    | exact testBit_of_land hm (by decide)
    | with_reducible apply recordEvent_frame
    | with_reducible apply ite_frame
    | (split <;> try (rename_i hq; replace hq := congrArg Prod.snd hq; dsimp only at hq; subst hq))
    | (rename_i hq; replace hq := congrArg Prod.snd hq; dsimp only at hq; subst hq)
    | (rename_i hq; injection hq with hq; subst hq)

theorem supEvent_frame {m : Nat} {r u : State} {x0 x1} (h : Frame m r u) (hm : m &&& 70368744179720 = 70368744179720) : Frame m r (supEvent x0 x1 u) := by
  unfold supEvent
  try dsimp only
  repeat' first
    | with_reducible assumption
    | intro _
    | exact land_trans hm rfl
    | exact testBit_of_land hm (by decide)
    | with_reducible apply recordEvent_frame
    | with_reducible apply ite_frame
    | (split <;> try (rename_i hq; replace hq := congrArg Prod.snd hq; dsimp only at hq; subst hq))
    | (rename_i hq; replace hq := congrArg Prod.snd hq; dsimp only at hq; subst hq)
    | (rename_i hq; injection hq with hq; subst hq)

theorem romEvent_frame {m : Nat} {r u : State} {x0 x1} (h : Frame m r u) (hm : m &&& 70368744179720 = 70368744179720) : Frame m r (romEvent x0 x1 u) := by
  unfold romEvent
  try dsimp only
  repeat' first
    | with_reducible assumption
    | intro _
    | exact land_trans hm rfl
    | exact testBit_of_land hm (by decide)
    | with_reducible apply recordEvent_frame
    | with_reducible apply ite_frame
    | (split <;> try (rename_i hq; replace hq := congrArg Prod.snd hq; dsimp only at hq; subst hq))
    | (rename_i hq; replace hq := congrArg Prod.snd hq; dsimp only at hq; subst hq)
    | (rename_i hq; injection hq with hq; subst hq)

end Sys2Proof.Machine
end

