-- ==== Sys2Proof/Laws/FrameKeepOps.lean ====
section
/-! SUPPORT. The frames of the operations of Machine/KeepOps.lean: each changes nothing outside its mask (see Laws/Frame.lean). -/
set_option Elab.async false
set_option linter.all false

namespace Sys2Proof.Machine

theorem setCopy_frame {m : Nat} {r u : State} {x0 x1 x2} (h : Frame m r u) (hm : m &&& 1024 = 1024) : Frame m r (setCopy x0 x1 x2 u) := by
  unfold setCopy
  try dsimp only
  repeat' first
    | with_reducible assumption
    | intro _
    | exact land_trans hm rfl
    | exact testBit_of_land hm (by decide)
    | with_reducible apply ite_frame
    | (split <;> try (rename_i hq; replace hq := congrArg Prod.snd hq; dsimp only at hq; subst hq))
    | (rename_i hq; replace hq := congrArg Prod.snd hq; dsimp only at hq; subst hq)
    | (rename_i hq; injection hq with hq; subst hq)
    | (with_reducible refine Frame.lit ?_ rfl; first | with_reducible assumption | split)

theorem setCopies_frame {m : Nat} {r u : State} {x0 x1} (h : Frame m r u) (hm : m &&& 1024 = 1024) : Frame m r (setCopies x0 x1 u) := by
  unfold setCopies
  try dsimp only
  repeat' first
    | with_reducible assumption
    | intro _
    | exact land_trans hm rfl
    | exact testBit_of_land hm (by decide)
    | with_reducible apply setCopy_frame
    | with_reducible apply ite_frame
    | (split <;> try (rename_i hq; replace hq := congrArg Prod.snd hq; dsimp only at hq; subst hq))
    | (rename_i hq; replace hq := congrArg Prod.snd hq; dsimp only at hq; subst hq)
    | (rename_i hq; injection hq with hq; subst hq)

theorem wearEvent_frame {m : Nat} {r u : State} {x0 x1 x2} (h : Frame m r u) (hm : m &&& 70368744179720 = 70368744179720) : Frame m r (wearEvent x0 x1 x2 u) := by
  unfold wearEvent
  try dsimp only
  repeat' first
    | with_reducible assumption
    | intro _
    | exact land_trans hm rfl
    | exact testBit_of_land hm (by decide)
    | with_reducible apply event_frame
    | with_reducible apply ite_frame
    | (split <;> try (rename_i hq; replace hq := congrArg Prod.snd hq; dsimp only at hq; subst hq))
    | (rename_i hq; replace hq := congrArg Prod.snd hq; dsimp only at hq; subst hq)
    | (rename_i hq; injection hq with hq; subst hq)

theorem keepWrite_frame {m : Nat} {r u : State} {x0 x1} (h : Frame m r u) (hm : m &&& 70368744180744 = 70368744180744) : Frame m r (keepWrite x0 x1 u) := by
  unfold keepWrite
  try dsimp only
  repeat' first
    | with_reducible assumption
    | intro _
    | exact land_trans hm rfl
    | exact testBit_of_land hm (by decide)
    | with_reducible apply count_frame
    | with_reducible apply wearEvent_frame
    | with_reducible apply setCopies_frame
    | with_reducible apply ite_frame
    | (split <;> try (rename_i hq; replace hq := congrArg Prod.snd hq; dsimp only at hq; subst hq))
    | (rename_i hq; replace hq := congrArg Prod.snd hq; dsimp only at hq; subst hq)
    | (rename_i hq; injection hq with hq; subst hq)
    | (with_reducible refine Frame.lit ?_ rfl; first | with_reducible assumption | with_reducible apply count_frame | with_reducible apply wearEvent_frame | with_reducible apply setCopies_frame| split)

end Sys2Proof.Machine
end

