-- ==== Sys2Proof/Laws/FrameTubs.lean ====
section
/-! SUPPORT. The frames of the operations of Machine/Tubs.lean: each changes nothing outside its mask (see Laws/Frame.lean). -/
set_option Elab.async false
set_option linter.all false

namespace Sys2Proof.Machine

theorem setTag_frame {m : Nat} {r u : State} {x0 x1} (h : Frame m r u) (hm : m &&& 131072 = 131072) : Frame m r (setTag x0 x1 u) := by
  unfold setTag
  try dsimp only
  repeat' first
    | with_reducible assumption
    | intro _
    | exact land_trans hm rfl
    | exact testBit_of_land hm (by decide)
    | with_reducible apply ite_frame
    | (split <;> try (rename_i hq; replace hq := congrArg Prod.snd hq; dsimp only at hq; subst hq))
    | (rename_i hq; replace hq := congrArg Prod.snd hq; dsimp only at hq; subst hq)
    | (rename_i hq; injection hq with hq; subst hq)
    | (with_reducible refine Frame.lit ?_ rfl; first | with_reducible assumption | split)

theorem countTub_frame {m : Nat} {r u : State} {x0 x1 x2} (h : Frame m r u) (hm : m &&& 131072 = 131072) : Frame m r (countTub x0 x1 x2 u) := by
  unfold countTub
  try dsimp only
  repeat' first
    | with_reducible assumption
    | intro _
    | exact land_trans hm rfl
    | exact testBit_of_land hm (by decide)
    | with_reducible apply ite_frame
    | (split <;> try (rename_i hq; replace hq := congrArg Prod.snd hq; dsimp only at hq; subst hq))
    | (rename_i hq; replace hq := congrArg Prod.snd hq; dsimp only at hq; subst hq)
    | (rename_i hq; injection hq with hq; subst hq)
    | (with_reducible refine Frame.lit ?_ rfl; first | with_reducible assumption | split)

theorem giveTub_frame {m : Nat} {r u : State} {x0 x1} (h : Frame m r u) (hm : m &&& 131074 = 131074) : Frame m r (giveTub x0 x1 u).2 := by
  unfold giveTub
  try dsimp only
  repeat' first
    | with_reducible assumption
    | intro _
    | exact land_trans hm rfl
    | exact testBit_of_land hm (by decide)
    | with_reducible apply nextFree_frame
    | with_reducible apply countTub_frame
    | with_reducible apply setTag_frame
    | with_reducible apply ite_frame
    | (split <;> try (rename_i hq; replace hq := congrArg Prod.snd hq; dsimp only at hq; subst hq))
    | (rename_i hq; replace hq := congrArg Prod.snd hq; dsimp only at hq; subst hq)
    | (rename_i hq; injection hq with hq; subst hq)

theorem giveChain_frame {m : Nat} {r u : State} {x0 x1} (h : Frame m r u) (hm : m &&& 131074 = 131074) : Frame m r (giveChain x0 x1 u).2 := by
  induction x1 generalizing  u with
  | zero =>
    unfold giveChain
    try dsimp only
    repeat' first
      | with_reducible assumption
      | intro _
      | exact land_trans hm rfl
      | exact testBit_of_land hm (by decide)
      | with_reducible apply giveTub_frame
      | with_reducible apply setTag_frame
      | with_reducible apply ite_frame
      | (split <;> try (rename_i hq; replace hq := congrArg Prod.snd hq; dsimp only at hq; subst hq))
      | (rename_i hq; replace hq := congrArg Prod.snd hq; dsimp only at hq; subst hq)
      | (rename_i hq; injection hq with hq; subst hq)
  | succ n ih =>
    unfold giveChain
    try dsimp only
    repeat' first
      | with_reducible assumption
      | intro _
      | exact land_trans hm rfl
      | exact testBit_of_land hm (by decide)
      | with_reducible apply giveTub_frame
      | with_reducible apply setTag_frame
      | with_reducible apply ih
      | with_reducible apply ite_frame
      | (split <;> try (rename_i hq; replace hq := congrArg Prod.snd hq; dsimp only at hq; subst hq))
      | (rename_i hq; replace hq := congrArg Prod.snd hq; dsimp only at hq; subst hq)
      | (rename_i hq; injection hq with hq; subst hq)

theorem takeTubs_frame {m : Nat} {r u : State} {x0 x1 x2} (h : Frame m r u) (hm : m &&& 131074 = 131074) : Frame m r (takeTubs x0 x1 x2 u).2 := by
  unfold takeTubs
  try dsimp only
  repeat' first
    | with_reducible assumption
    | intro _
    | exact land_trans hm rfl
    | exact testBit_of_land hm (by decide)
    | with_reducible apply giveTub_frame
    | with_reducible apply giveChain_frame
    | with_reducible apply ite_frame
    | (split <;> try (rename_i hq; replace hq := congrArg Prod.snd hq; dsimp only at hq; subst hq))
    | (rename_i hq; replace hq := congrArg Prod.snd hq; dsimp only at hq; subst hq)
    | (rename_i hq; injection hq with hq; subst hq)

theorem takeDram_frame {m : Nat} {r u : State} {x0} (h : Frame m r u) (hm : m &&& 131074 = 131074) : Frame m r (takeDram x0 u).2 := by
  unfold takeDram
  try dsimp only
  repeat' first
    | with_reducible assumption
    | intro _
    | exact land_trans hm rfl
    | exact testBit_of_land hm (by decide)
    | with_reducible apply giveTub_frame
    | with_reducible apply ite_frame
    | (split <;> try (rename_i hq; replace hq := congrArg Prod.snd hq; dsimp only at hq; subst hq))
    | (rename_i hq; replace hq := congrArg Prod.snd hq; dsimp only at hq; subst hq)
    | (rename_i hq; injection hq with hq; subst hq)

theorem setSram_frame {m : Nat} {r u : State} {x0 x1} (h : Frame m r u) (hm : m &&& 4398046642176 = 4398046642176) : Frame m r (setSram x0 x1 u) := by
  unfold setSram
  try dsimp only
  repeat' first
    | with_reducible assumption
    | intro _
    | exact land_trans hm rfl
    | exact testBit_of_land hm (by decide)
    | with_reducible apply ite_frame
    | (split <;> try (rename_i hq; replace hq := congrArg Prod.snd hq; dsimp only at hq; subst hq))
    | (rename_i hq; replace hq := congrArg Prod.snd hq; dsimp only at hq; subst hq)
    | (rename_i hq; injection hq with hq; subst hq)
    | (with_reducible refine Frame.lit ?_ rfl; first | with_reducible assumption | split)

theorem setDram_frame {m : Nat} {r u : State} {x0 x1} (h : Frame m r u) (hm : m &&& 8796093153280 = 8796093153280) : Frame m r (setDram x0 x1 u) := by
  unfold setDram
  try dsimp only
  repeat' first
    | with_reducible assumption
    | intro _
    | exact land_trans hm rfl
    | exact testBit_of_land hm (by decide)
    | with_reducible apply ite_frame
    | (split <;> try (rename_i hq; replace hq := congrArg Prod.snd hq; dsimp only at hq; subst hq))
    | (rename_i hq; replace hq := congrArg Prod.snd hq; dsimp only at hq; subst hq)
    | (rename_i hq; injection hq with hq; subst hq)
    | (with_reducible refine Frame.lit ?_ rfl; first | with_reducible assumption | split)

theorem writeSram_frame {m : Nat} {r u : State} {x0 x1} (h : Frame m r u) (hm : m &&& 4398046642176 = 4398046642176) : Frame m r (writeSram x0 x1 u) := by
  induction x1 generalizing x0 u with
  | nil =>
    unfold writeSram
    try dsimp only
    repeat' first
      | with_reducible assumption
      | intro _
      | exact land_trans hm rfl
      | exact testBit_of_land hm (by decide)
      | with_reducible apply setSram_frame
      | with_reducible apply ite_frame
      | (split <;> try (rename_i hq; replace hq := congrArg Prod.snd hq; dsimp only at hq; subst hq))
      | (rename_i hq; replace hq := congrArg Prod.snd hq; dsimp only at hq; subst hq)
      | (rename_i hq; injection hq with hq; subst hq)
  | cons y l ih =>
    unfold writeSram
    try dsimp only
    repeat' first
      | with_reducible assumption
      | intro _
      | exact land_trans hm rfl
      | exact testBit_of_land hm (by decide)
      | with_reducible apply setSram_frame
      | with_reducible apply ih
      | with_reducible apply ite_frame
      | (split <;> try (rename_i hq; replace hq := congrArg Prod.snd hq; dsimp only at hq; subst hq))
      | (rename_i hq; replace hq := congrArg Prod.snd hq; dsimp only at hq; subst hq)
      | (rename_i hq; injection hq with hq; subst hq)

theorem writeDram_frame {m : Nat} {r u : State} {x0 x1} (h : Frame m r u) (hm : m &&& 8796093153280 = 8796093153280) : Frame m r (writeDram x0 x1 u) := by
  induction x1 generalizing x0 u with
  | nil =>
    unfold writeDram
    try dsimp only
    repeat' first
      | with_reducible assumption
      | intro _
      | exact land_trans hm rfl
      | exact testBit_of_land hm (by decide)
      | with_reducible apply setDram_frame
      | with_reducible apply ite_frame
      | (split <;> try (rename_i hq; replace hq := congrArg Prod.snd hq; dsimp only at hq; subst hq))
      | (rename_i hq; replace hq := congrArg Prod.snd hq; dsimp only at hq; subst hq)
      | (rename_i hq; injection hq with hq; subst hq)
  | cons y l ih =>
    unfold writeDram
    try dsimp only
    repeat' first
      | with_reducible assumption
      | intro _
      | exact land_trans hm rfl
      | exact testBit_of_land hm (by decide)
      | with_reducible apply setDram_frame
      | with_reducible apply ih
      | with_reducible apply ite_frame
      | (split <;> try (rename_i hq; replace hq := congrArg Prod.snd hq; dsimp only at hq; subst hq))
      | (rename_i hq; replace hq := congrArg Prod.snd hq; dsimp only at hq; subst hq)
      | (rename_i hq; injection hq with hq; subst hq)

theorem writeTub_frame {m : Nat} {r u : State} {x0 x1} (h : Frame m r u) (hm : m &&& 13194139664384 = 13194139664384) : Frame m r (writeTub x0 x1 u) := by
  unfold writeTub
  try dsimp only
  repeat' first
    | with_reducible assumption
    | intro _
    | exact land_trans hm rfl
    | exact testBit_of_land hm (by decide)
    | with_reducible apply writeSram_frame
    | with_reducible apply writeDram_frame
    | with_reducible apply ite_frame
    | (split <;> try (rename_i hq; replace hq := congrArg Prod.snd hq; dsimp only at hq; subst hq))
    | (rename_i hq; replace hq := congrArg Prod.snd hq; dsimp only at hq; subst hq)
    | (rename_i hq; injection hq with hq; subst hq)

theorem writeTubs_frame {m : Nat} {r u : State} {x0 x1} (h : Frame m r u) (hm : m &&& 13194139664384 = 13194139664384) : Frame m r (writeTubs x0 x1 u) := by
  induction x0 generalizing x1 u with
  | nil =>
    unfold writeTubs
    try dsimp only
    repeat' first
      | with_reducible assumption
      | intro _
      | exact land_trans hm rfl
      | exact testBit_of_land hm (by decide)
      | with_reducible apply writeTub_frame
      | with_reducible apply ite_frame
      | (split <;> try (rename_i hq; replace hq := congrArg Prod.snd hq; dsimp only at hq; subst hq))
      | (rename_i hq; replace hq := congrArg Prod.snd hq; dsimp only at hq; subst hq)
      | (rename_i hq; injection hq with hq; subst hq)
  | cons y l ih =>
    unfold writeTubs
    try dsimp only
    repeat' first
      | with_reducible assumption
      | intro _
      | exact land_trans hm rfl
      | exact testBit_of_land hm (by decide)
      | with_reducible apply writeTub_frame
      | with_reducible apply ih
      | with_reducible apply ite_frame
      | (split <;> try (rename_i hq; replace hq := congrArg Prod.snd hq; dsimp only at hq; subst hq))
      | (rename_i hq; replace hq := congrArg Prod.snd hq; dsimp only at hq; subst hq)
      | (rename_i hq; injection hq with hq; subst hq)

theorem storeData_frame {m : Nat} {r u : State} {x0 x1 x2} (h : Frame m r u) (hm : m &&& 13194139664386 = 13194139664386) : Frame m r (storeData x0 x1 x2 u).2 := by
  unfold storeData
  try dsimp only
  repeat' first
    | with_reducible assumption
    | intro _
    | exact land_trans hm rfl
    | exact testBit_of_land hm (by decide)
    | with_reducible apply takeTubs_frame
    | with_reducible apply writeTubs_frame
    | with_reducible apply ite_frame
    | (split <;> try (rename_i hq; replace hq := congrArg Prod.snd hq; dsimp only at hq; subst hq))
    | (rename_i hq; replace hq := congrArg Prod.snd hq; dsimp only at hq; subst hq)
    | (rename_i hq; injection hq with hq; subst hq)

theorem setSched_frame {m : Nat} {r u : State} {x0 x1} (h : Frame m r u) (hm : m &&& 524288 = 524288) : Frame m r (setSched x0 x1 u) := by
  unfold setSched
  try dsimp only
  repeat' first
    | with_reducible assumption
    | intro _
    | exact land_trans hm rfl
    | exact testBit_of_land hm (by decide)
    | with_reducible apply ite_frame
    | (split <;> try (rename_i hq; replace hq := congrArg Prod.snd hq; dsimp only at hq; subst hq))
    | (rename_i hq; replace hq := congrArg Prod.snd hq; dsimp only at hq; subst hq)
    | (rename_i hq; injection hq with hq; subst hq)
    | (with_reducible refine Frame.lit ?_ rfl; first | with_reducible assumption | split)

theorem modSched_frame {m : Nat} {r u : State} {x0 x1} (h : Frame m r u) (hm : m &&& 524288 = 524288) : Frame m r (modSched x0 x1 u) := by
  unfold modSched
  try dsimp only
  repeat' first
    | with_reducible assumption
    | intro _
    | exact land_trans hm rfl
    | exact testBit_of_land hm (by decide)
    | with_reducible apply setSched_frame
    | with_reducible apply ite_frame
    | (split <;> try (rename_i hq; replace hq := congrArg Prod.snd hq; dsimp only at hq; subst hq))
    | (rename_i hq; replace hq := congrArg Prod.snd hq; dsimp only at hq; subst hq)
    | (rename_i hq; injection hq with hq; subst hq)

theorem setAllocQ_frame {m : Nat} {r u : State} {x0 x1} (h : Frame m r u) (hm : m &&& 524288 = 524288) : Frame m r (setAllocQ x0 x1 u) := by
  unfold setAllocQ
  try dsimp only
  repeat' first
    | with_reducible assumption
    | intro _
    | exact land_trans hm rfl
    | exact testBit_of_land hm (by decide)
    | with_reducible apply ite_frame
    | (split <;> try (rename_i hq; replace hq := congrArg Prod.snd hq; dsimp only at hq; subst hq))
    | (rename_i hq; replace hq := congrArg Prod.snd hq; dsimp only at hq; subst hq)
    | (rename_i hq; injection hq with hq; subst hq)
    | (with_reducible refine Frame.lit ?_ rfl; first | with_reducible assumption | split)

theorem setWaitFrames_frame {m : Nat} {r u : State} {x0 x1} (h : Frame m r u) (hm : m &&& 524288 = 524288) : Frame m r (setWaitFrames x0 x1 u) := by
  unfold setWaitFrames
  try dsimp only
  repeat' first
    | with_reducible assumption
    | intro _
    | exact land_trans hm rfl
    | exact testBit_of_land hm (by decide)
    | with_reducible apply modSched_frame
    | with_reducible apply setAllocQ_frame
    | with_reducible apply ite_frame
    | (split <;> try (rename_i hq; replace hq := congrArg Prod.snd hq; dsimp only at hq; subst hq))
    | (rename_i hq; replace hq := congrArg Prod.snd hq; dsimp only at hq; subst hq)
    | (rename_i hq; injection hq with hq; subst hq)

theorem badFree_frame {m : Nat} {r u : State} {x0 x1 x2 x3} (h : Frame m r u) (hm : m &&& 70368744179720 = 70368744179720) : Frame m r (badFree x0 x1 x2 x3 u) := by
  unfold badFree
  try dsimp only
  repeat' first
    | with_reducible assumption
    | intro _
    | exact land_trans hm rfl
    | exact testBit_of_land hm (by decide)
    | with_reducible apply event_frame
    | with_reducible apply count_frame
    | with_reducible apply ite_frame
    | (split <;> try (rename_i hq; replace hq := congrArg Prod.snd hq; dsimp only at hq; subst hq))
    | (rename_i hq; replace hq := congrArg Prod.snd hq; dsimp only at hq; subst hq)
    | (rename_i hq; injection hq with hq; subst hq)

theorem badAgent_frame {m : Nat} {r u : State} {x0 x1} (h : Frame m r u) (hm : m &&& 70368744179722 = 70368744179722) : Frame m r (badAgent x0 x1 u) := by
  unfold badAgent
  try dsimp only
  repeat' first
    | with_reducible assumption
    | intro _
    | exact land_trans hm rfl
    | exact testBit_of_land hm (by decide)
    | with_reducible apply nextFree_frame
    | with_reducible apply badFree_frame
    | with_reducible apply ite_frame
    | (split <;> try (rename_i hq; replace hq := congrArg Prod.snd hq; dsimp only at hq; subst hq))
    | (rename_i hq; replace hq := congrArg Prod.snd hq; dsimp only at hq; subst hq)
    | (rename_i hq; injection hq with hq; subst hq)

theorem markFree_frame {m : Nat} {r u : State} {x0} (h : Frame m r u) (hm : m &&& 131072 = 131072) : Frame m r (markFree x0 u) := by
  unfold markFree
  try dsimp only
  repeat' first
    | with_reducible assumption
    | intro _
    | exact land_trans hm rfl
    | exact testBit_of_land hm (by decide)
    | with_reducible apply countTub_frame
    | with_reducible apply setTag_frame
    | with_reducible apply ite_frame
    | (split <;> try (rename_i hq; replace hq := congrArg Prod.snd hq; dsimp only at hq; subst hq))
    | (rename_i hq; replace hq := congrArg Prod.snd hq; dsimp only at hq; subst hq)
    | (rename_i hq; injection hq with hq; subst hq)

theorem freeWalk_frame {m : Nat} {r u : State} {x0 x1 x2 x3} (h : Frame m r u) (hm : m &&& 70368744310792 = 70368744310792) : Frame m r (freeWalk x0 x1 x2 x3 u) := by
  induction x2 generalizing x3 u with
  | zero =>
    unfold freeWalk
    try dsimp only
    repeat' first
      | with_reducible assumption
      | intro _
      | exact land_trans hm rfl
      | exact testBit_of_land hm (by decide)
      | with_reducible apply badFree_frame
      | with_reducible apply markFree_frame
      | with_reducible apply ite_frame
      | (split <;> try (rename_i hq; replace hq := congrArg Prod.snd hq; dsimp only at hq; subst hq))
      | (rename_i hq; replace hq := congrArg Prod.snd hq; dsimp only at hq; subst hq)
      | (rename_i hq; injection hq with hq; subst hq)
  | succ n ih =>
    unfold freeWalk
    try dsimp only
    repeat' first
      | with_reducible assumption
      | intro _
      | exact land_trans hm rfl
      | exact testBit_of_land hm (by decide)
      | with_reducible apply badFree_frame
      | with_reducible apply markFree_frame
      | with_reducible apply ih
      | with_reducible apply ite_frame
      | (split <;> try (rename_i hq; replace hq := congrArg Prod.snd hq; dsimp only at hq; subst hq))
      | (rename_i hq; replace hq := congrArg Prod.snd hq; dsimp only at hq; subst hq)
      | (rename_i hq; injection hq with hq; subst hq)

theorem giveWait_frame {m : Nat} {r u : State} {x0 x1} (h : Frame m r u) (hm : m &&& 13194140188676 = 13194140188676) : Frame m r (giveWait x0 x1 u) := by
  unfold giveWait
  try dsimp only
  repeat' first
    | with_reducible assumption
    | intro _
    | exact land_trans hm rfl
    | exact testBit_of_land hm (by decide)
    | with_reducible apply emit_frame
    | with_reducible apply setWaitFrames_frame
    | with_reducible apply writeTubs_frame
    | with_reducible apply ite_frame
    | (split <;> try (rename_i hq; replace hq := congrArg Prod.snd hq; dsimp only at hq; subst hq))
    | (rename_i hq; replace hq := congrArg Prod.snd hq; dsimp only at hq; subst hq)
    | (rename_i hq; injection hq with hq; subst hq)

theorem serveWaits_frame {m : Nat} {r u : State} (h : Frame m r u) (hm : m &&& 13194140188678 = 13194140188678) : Frame m r (serveWaits u) := by
  unfold serveWaits
  try dsimp only
  repeat' first
    | with_reducible assumption
    | intro _
    | exact land_trans hm rfl
    | exact testBit_of_land hm (by decide)
    | with_reducible apply each_frame
    | with_reducible apply takeTubs_frame
    | with_reducible apply giveWait_frame
    | with_reducible apply ite_frame
    | (split <;> try (rename_i hq; replace hq := congrArg Prod.snd hq; dsimp only at hq; subst hq))
    | (rename_i hq; replace hq := congrArg Prod.snd hq; dsimp only at hq; subst hq)
    | (rename_i hq; injection hq with hq; subst hq)
    | (with_reducible refine Frame.lit ?_ rfl; first | with_reducible assumption | with_reducible apply each_frame | with_reducible apply takeTubs_frame | with_reducible apply giveWait_frame| split)

theorem floorWait_frame {m : Nat} {r u : State} {x0} (h : Frame m r u) (hm : m &&& 131080 = 131080) : Frame m r (floorWait x0 u) := by
  unfold floorWait
  try dsimp only
  repeat' first
    | with_reducible assumption
    | intro _
    | exact land_trans hm rfl
    | exact testBit_of_land hm (by decide)
    | with_reducible apply count_frame
    | with_reducible apply ite_frame
    | (split <;> try (rename_i hq; replace hq := congrArg Prod.snd hq; dsimp only at hq; subst hq))
    | (rename_i hq; replace hq := congrArg Prod.snd hq; dsimp only at hq; subst hq)
    | (rename_i hq; injection hq with hq; subst hq)
    | (with_reducible refine Frame.lit ?_ rfl; first | with_reducible assumption | with_reducible apply count_frame| split)

theorem tubFree_frame {m : Nat} {r u : State} {x0 x1 x2} (h : Frame m r u) (hm : m &&& 83562884368398 = 83562884368398) : Frame m r (tubFree x0 x1 x2 u) := by
  unfold tubFree
  try dsimp only
  repeat' first
    | with_reducible assumption
    | intro _
    | exact land_trans hm rfl
    | exact testBit_of_land hm (by decide)
    | with_reducible apply badAgent_frame
    | with_reducible apply serveWaits_frame
    | with_reducible apply freeWalk_frame
    | with_reducible apply ite_frame
    | (split <;> try (rename_i hq; replace hq := congrArg Prod.snd hq; dsimp only at hq; subst hq))
    | (rename_i hq; replace hq := congrArg Prod.snd hq; dsimp only at hq; subst hq)
    | (rename_i hq; injection hq with hq; subst hq)

theorem freeTubsOf_frame {m : Nat} {r u : State} {x0 x1} (h : Frame m r u) (hm : m &&& 83562884368398 = 83562884368398) : Frame m r (freeTubsOf x0 x1 u) := by
  unfold freeTubsOf
  try dsimp only
  repeat' first
    | with_reducible assumption
    | intro _
    | exact land_trans hm rfl
    | exact testBit_of_land hm (by decide)
    | with_reducible apply tubFree_frame
    | with_reducible apply ite_frame
    | (split <;> try (rename_i hq; replace hq := congrArg Prod.snd hq; dsimp only at hq; subst hq))
    | (rename_i hq; replace hq := congrArg Prod.snd hq; dsimp only at hq; subst hq)
    | (rename_i hq; injection hq with hq; subst hq)

theorem tubTake_frame {m : Nat} {r u : State} {x0 x1 x2} (h : Frame m r u) (hm : m &&& 70368744310798 = 70368744310798) : Frame m r (tubTake x0 x1 x2 u) := by
  unfold tubTake
  try dsimp only
  repeat' first
    | with_reducible assumption
    | intro _
    | exact land_trans hm rfl
    | exact testBit_of_land hm (by decide)
    | with_reducible apply badAgent_frame
    | with_reducible apply takeTubs_frame
    | with_reducible apply emit_frame
    | with_reducible apply floorWait_frame
    | with_reducible apply ite_frame
    | (split <;> try (rename_i hq; replace hq := congrArg Prod.snd hq; dsimp only at hq; subst hq))
    | (rename_i hq; replace hq := congrArg Prod.snd hq; dsimp only at hq; subst hq)
    | (rename_i hq; injection hq with hq; subst hq)

theorem askFree_frame {m : Nat} {r u : State} {x0 x1 x2} (h : Frame m r u) (hm : m &&& 131072 = 131072) : Frame m r (askFree x0 x1 x2 u) := by
  unfold askFree
  try dsimp only
  repeat' first
    | with_reducible assumption
    | intro _
    | exact land_trans hm rfl
    | exact testBit_of_land hm (by decide)
    | with_reducible apply ite_frame
    | (split <;> try (rename_i hq; replace hq := congrArg Prod.snd hq; dsimp only at hq; subst hq))
    | (rename_i hq; replace hq := congrArg Prod.snd hq; dsimp only at hq; subst hq)
    | (rename_i hq; injection hq with hq; subst hq)
    | (with_reducible refine Frame.lit ?_ rfl; first | with_reducible assumption | split)

theorem askTake_frame {m : Nat} {r u : State} {x0 x1 x2} (h : Frame m r u) (hm : m &&& 131072 = 131072) : Frame m r (askTake x0 x1 x2 u) := by
  unfold askTake
  try dsimp only
  repeat' first
    | with_reducible assumption
    | intro _
    | exact land_trans hm rfl
    | exact testBit_of_land hm (by decide)
    | with_reducible apply ite_frame
    | (split <;> try (rename_i hq; replace hq := congrArg Prod.snd hq; dsimp only at hq; subst hq))
    | (rename_i hq; replace hq := congrArg Prod.snd hq; dsimp only at hq; subst hq)
    | (rename_i hq; injection hq with hq; subst hq)
    | (with_reducible refine Frame.lit ?_ rfl; first | with_reducible assumption | split)

theorem settleTubs_frame {m : Nat} {r u : State} (h : Frame m r u) (hm : m &&& 83562884368398 = 83562884368398) : Frame m r (settleTubs u) := by
  unfold settleTubs
  try dsimp only
  repeat' first
    | with_reducible assumption
    | intro _
    | exact land_trans hm rfl
    | exact testBit_of_land hm (by decide)
    | with_reducible apply each_frame
    | with_reducible apply tubTake_frame
    | with_reducible apply tubFree_frame
    | with_reducible apply ite_frame
    | (split <;> try (rename_i hq; replace hq := congrArg Prod.snd hq; dsimp only at hq; subst hq))
    | (rename_i hq; replace hq := congrArg Prod.snd hq; dsimp only at hq; subst hq)
    | (rename_i hq; injection hq with hq; subst hq)
    | (with_reducible refine Frame.lit ?_ rfl; first | with_reducible assumption | with_reducible apply each_frame | with_reducible apply tubTake_frame | with_reducible apply tubFree_frame| split)

theorem ownTub_frame {m : Nat} {r u : State} {x0 x1} (h : Frame m r u) (hm : m &&& 131072 = 131072) : Frame m r (ownTub x0 x1 u) := by
  unfold ownTub
  try dsimp only
  repeat' first
    | with_reducible assumption
    | intro _
    | exact land_trans hm rfl
    | exact testBit_of_land hm (by decide)
    | with_reducible apply countTub_frame
    | with_reducible apply setTag_frame
    | with_reducible apply ite_frame
    | (split <;> try (rename_i hq; replace hq := congrArg Prod.snd hq; dsimp only at hq; subst hq))
    | (rename_i hq; replace hq := congrArg Prod.snd hq; dsimp only at hq; subst hq)
    | (rename_i hq; injection hq with hq; subst hq)

theorem ownWalk_frame {m : Nat} {r u : State} {x0 x1 x2} (h : Frame m r u) (hm : m &&& 131072 = 131072) : Frame m r (ownWalk x0 x1 x2 u) := by
  induction x1 generalizing x2 u with
  | zero =>
    unfold ownWalk
    try dsimp only
    repeat' first
      | with_reducible assumption
      | intro _
      | exact land_trans hm rfl
      | exact testBit_of_land hm (by decide)
      | with_reducible apply ownTub_frame
      | with_reducible apply ite_frame
      | (split <;> try (rename_i hq; replace hq := congrArg Prod.snd hq; dsimp only at hq; subst hq))
      | (rename_i hq; replace hq := congrArg Prod.snd hq; dsimp only at hq; subst hq)
      | (rename_i hq; injection hq with hq; subst hq)
  | succ n ih =>
    unfold ownWalk
    try dsimp only
    repeat' first
      | with_reducible assumption
      | intro _
      | exact land_trans hm rfl
      | exact testBit_of_land hm (by decide)
      | with_reducible apply ownTub_frame
      | with_reducible apply ih
      | with_reducible apply ite_frame
      | (split <;> try (rename_i hq; replace hq := congrArg Prod.snd hq; dsimp only at hq; subst hq))
      | (rename_i hq; replace hq := congrArg Prod.snd hq; dsimp only at hq; subst hq)
      | (rename_i hq; injection hq with hq; subst hq)

theorem handOver_frame {m : Nat} {r u : State} {x0 x1} (h : Frame m r u) (hm : m &&& 131072 = 131072) : Frame m r (handOver x0 x1 u) := by
  unfold handOver
  try dsimp only
  repeat' first
    | with_reducible assumption
    | intro _
    | exact land_trans hm rfl
    | exact testBit_of_land hm (by decide)
    | with_reducible apply ownWalk_frame
    | with_reducible apply ite_frame
    | (split <;> try (rename_i hq; replace hq := congrArg Prod.snd hq; dsimp only at hq; subst hq))
    | (rename_i hq; replace hq := congrArg Prod.snd hq; dsimp only at hq; subst hq)
    | (rename_i hq; injection hq with hq; subst hq)

theorem tubHandOver_frame {m : Nat} {r u : State} {x0 x1} (h : Frame m r u) (hm : m &&& 70368744310794 = 70368744310794) : Frame m r (tubHandOver x0 x1 u) := by
  unfold tubHandOver
  try dsimp only
  repeat' first
    | with_reducible assumption
    | intro _
    | exact land_trans hm rfl
    | exact testBit_of_land hm (by decide)
    | with_reducible apply badAgent_frame
    | with_reducible apply handOver_frame
    | with_reducible apply ite_frame
    | (split <;> try (rename_i hq; replace hq := congrArg Prod.snd hq; dsimp only at hq; subst hq))
    | (rename_i hq; replace hq := congrArg Prod.snd hq; dsimp only at hq; subst hq)
    | (rename_i hq; injection hq with hq; subst hq)

theorem ringPost_frame {m : Nat} {r u : State} {x0 x1} (h : Frame m r u) (hm : m &&& 4398046642176 = 4398046642176) : Frame m r (ringPost x0 x1 u) := by
  unfold ringPost
  try dsimp only
  repeat' first
    | with_reducible assumption
    | intro _
    | exact land_trans hm rfl
    | exact testBit_of_land hm (by decide)
    | with_reducible apply writeSram_frame
    | with_reducible apply ite_frame
    | (split <;> try (rename_i hq; replace hq := congrArg Prod.snd hq; dsimp only at hq; subst hq))
    | (rename_i hq; replace hq := congrArg Prod.snd hq; dsimp only at hq; subst hq)
    | (rename_i hq; injection hq with hq; subst hq)
    | (with_reducible refine Frame.lit ?_ rfl; first | with_reducible assumption | with_reducible apply writeSram_frame| split)

theorem passRing_frame {m : Nat} {r u : State} {x0 x1} (h : Frame m r u) (hm : m &&& 131072 = 131072) : Frame m r (passRing x0 x1 u) := by
  unfold passRing
  try dsimp only
  repeat' first
    | with_reducible assumption
    | intro _
    | exact land_trans hm rfl
    | exact testBit_of_land hm (by decide)
    | with_reducible apply each_frame
    | with_reducible apply ownTub_frame
    | with_reducible apply ite_frame
    | (split <;> try (rename_i hq; replace hq := congrArg Prod.snd hq; dsimp only at hq; subst hq))
    | (rename_i hq; replace hq := congrArg Prod.snd hq; dsimp only at hq; subst hq)
    | (rename_i hq; injection hq with hq; subst hq)

theorem linkChain_frame {m : Nat} {r u : State} {x0} (h : Frame m r u) (hm : m &&& 131072 = 131072) : Frame m r (linkChain x0 u) := by
  induction x0 generalizing u with
  | nil => exact h
  | cons y l ih =>
    cases l with
    | nil => exact setTag_frame h (land_trans hm rfl)
    | cons z l => exact ih (setTag_frame h (land_trans hm rfl))


theorem ringPut_frame {m : Nat} {r u : State} {x0 x1 x2} (h : Frame m r u) (hm : m &&& 83562883844106 = 83562883844106) : Frame m r (ringPut x0 x1 x2 u).2 := by
  unfold ringPut
  try dsimp only
  repeat' first
    | with_reducible assumption
    | intro _
    | exact land_trans hm rfl
    | exact testBit_of_land hm (by decide)
    | with_reducible apply passRing_frame
    | with_reducible apply linkChain_frame
    | with_reducible apply writeTubs_frame
    | with_reducible apply nextFree_frame
    | with_reducible apply event_frame
    | with_reducible apply ite_frame
    | (split <;> try (rename_i hq; replace hq := congrArg Prod.snd hq; dsimp only at hq; subst hq))
    | (rename_i hq; replace hq := congrArg Prod.snd hq; dsimp only at hq; subst hq)
    | (rename_i hq; injection hq with hq; subst hq)
    | (with_reducible refine Frame.lit ?_ rfl; first | with_reducible assumption | with_reducible apply passRing_frame | with_reducible apply linkChain_frame | with_reducible apply writeTubs_frame | with_reducible apply nextFree_frame | with_reducible apply event_frame| split)

theorem ringFill_frame {m : Nat} {r u : State} {x0 x1 x2} (h : Frame m r u) (hm : m &&& 83562883844106 = 83562883844106) : Frame m r (ringFill x0 x1 x2 u) := by
  unfold ringFill
  try dsimp only
  repeat' first
    | with_reducible assumption
    | intro _
    | exact land_trans hm rfl
    | exact testBit_of_land hm (by decide)
    | with_reducible apply badAgent_frame
    | with_reducible apply ringPut_frame
    | with_reducible apply count_frame
    | with_reducible apply ite_frame
    | (split <;> try (rename_i hq; replace hq := congrArg Prod.snd hq; dsimp only at hq; subst hq))
    | (rename_i hq; replace hq := congrArg Prod.snd hq; dsimp only at hq; subst hq)
    | (rename_i hq; injection hq with hq; subst hq)

theorem cutPools_frame {m : Nat} {r u : State} (h : Frame m r u) (hm : m &&& 8 = 8) : Frame m r (cutPools u) := by
  unfold cutPools
  try dsimp only
  repeat' first
    | with_reducible assumption
    | intro _
    | exact land_trans hm rfl
    | exact testBit_of_land hm (by decide)
    | with_reducible apply each_frame
    | with_reducible apply setReg_frame
    | with_reducible apply ite_frame
    | (split <;> try (rename_i hq; replace hq := congrArg Prod.snd hq; dsimp only at hq; subst hq))
    | (rename_i hq; replace hq := congrArg Prod.snd hq; dsimp only at hq; subst hq)
    | (rename_i hq; injection hq with hq; subst hq)

theorem checkPartition_frame {m : Nat} {r u : State} (h : Frame m r u) (hm : m &&& 70368744179720 = 70368744179720) : Frame m r (checkPartition u) := by
  unfold checkPartition
  try dsimp only
  repeat' first
    | with_reducible assumption
    | intro _
    | exact land_trans hm rfl
    | exact testBit_of_land hm (by decide)
    | with_reducible apply each_frame
    | with_reducible apply event_frame
    | with_reducible apply cutPools_frame
    | with_reducible apply setReg_frame
    | with_reducible apply ite_frame
    | (split <;> try (rename_i hq; replace hq := congrArg Prod.snd hq; dsimp only at hq; subst hq))
    | (rename_i hq; replace hq := congrArg Prod.snd hq; dsimp only at hq; subst hq)
    | (rename_i hq; injection hq with hq; subst hq)

theorem trainDram_frame {m : Nat} {r u : State} {x0} (h : Frame m r u) (hm : m &&& 70368744310792 = 70368744310792) : Frame m r (trainDram x0 u) := by
  unfold trainDram
  try dsimp only
  repeat' first
    | with_reducible assumption
    | intro _
    | exact land_trans hm rfl
    | exact testBit_of_land hm (by decide)
    | with_reducible apply each_frame
    | with_reducible apply event_frame
    | with_reducible apply cutPools_frame
    | with_reducible apply ite_frame
    | (split <;> try (rename_i hq; replace hq := congrArg Prod.snd hq; dsimp only at hq; subst hq))
    | (rename_i hq; replace hq := congrArg Prod.snd hq; dsimp only at hq; subst hq)
    | (rename_i hq; injection hq with hq; subst hq)
    | (with_reducible refine Frame.lit ?_ rfl; first | with_reducible assumption | with_reducible apply each_frame | with_reducible apply event_frame | with_reducible apply cutPools_frame| split)

theorem freeEveryTub_frame {m : Nat} {r u : State} (h : Frame m r u) (hm : m &&& 131072 = 131072) : Frame m r (freeEveryTub u) := by
  unfold freeEveryTub
  try dsimp only
  repeat' first
    | with_reducible assumption
    | intro _
    | exact land_trans hm rfl
    | exact testBit_of_land hm (by decide)
    | with_reducible apply ite_frame
    | (split <;> try (rename_i hq; replace hq := congrArg Prod.snd hq; dsimp only at hq; subst hq))
    | (rename_i hq; replace hq := congrArg Prod.snd hq; dsimp only at hq; subst hq)
    | (rename_i hq; injection hq with hq; subst hq)
    | (with_reducible refine Frame.lit ?_ rfl; first | with_reducible assumption | split)

end Sys2Proof.Machine
end

