-- ==== Sys2Proof/Laws/FrameLaneOps.lean ====
section
/-! SUPPORT. The frames of the operations of Machine/LaneOps.lean: each changes nothing outside its mask (see Laws/Frame.lean). -/
set_option Elab.async false
set_option linter.all false

namespace Sys2Proof.Machine

theorem setLane_frame {m : Nat} {r u : State} {x0 x1} (h : Frame m r u) (hm : m &&& 536870912 = 536870912) : Frame m r (setLane x0 x1 u) := by
  unfold setLane
  try dsimp only
  repeat' first
    | with_reducible assumption
    | intro _
    | exact land_trans hm rfl
    | exact testBit_of_land hm (by decide)
    | with_reducible apply ite_frame
    | (split <;> try (rename_i hq; replace hq := congrArg Prod.snd hq; dsimp only at hq; subst hq))
    | (rename_i hq; replace hq := congrArg Prod.snd hq; dsimp only at hq; subst hq)
    | (rename_i hq; injection hq with hq; subst hq)
    | (with_reducible refine Frame.lit ?_ rfl; first | with_reducible assumption | split)

theorem modLane_frame {m : Nat} {r u : State} {x0 x1} (h : Frame m r u) (hm : m &&& 536870912 = 536870912) : Frame m r (modLane x0 x1 u) := by
  unfold modLane
  try dsimp only
  repeat' first
    | with_reducible assumption
    | intro _
    | exact land_trans hm rfl
    | exact testBit_of_land hm (by decide)
    | with_reducible apply setLane_frame
    | with_reducible apply ite_frame
    | (split <;> try (rename_i hq; replace hq := congrArg Prod.snd hq; dsimp only at hq; subst hq))
    | (rename_i hq; replace hq := congrArg Prod.snd hq; dsimp only at hq; subst hq)
    | (rename_i hq; injection hq with hq; subst hq)

theorem setChainPort_frame {m : Nat} {r u : State} {x0 x1} (h : Frame m r u) (hm : m &&& 1073741824 = 1073741824) : Frame m r (setChainPort x0 x1 u) := by
  unfold setChainPort
  try dsimp only
  repeat' first
    | with_reducible assumption
    | intro _
    | exact land_trans hm rfl
    | exact testBit_of_land hm (by decide)
    | with_reducible apply ite_frame
    | (split <;> try (rename_i hq; replace hq := congrArg Prod.snd hq; dsimp only at hq; subst hq))
    | (rename_i hq; replace hq := congrArg Prod.snd hq; dsimp only at hq; subst hq)
    | (rename_i hq; injection hq with hq; subst hq)
    | (with_reducible refine Frame.lit ?_ rfl; first | with_reducible assumption | split)

theorem chainLeave_frame {m : Nat} {r u : State} {x0} (h : Frame m r u) (hm : m &&& 70369817921544 = 70369817921544) : Frame m r (chainLeave x0 u) := by
  unfold chainLeave
  try dsimp only
  repeat' first
    | with_reducible assumption
    | intro _
    | exact land_trans hm rfl
    | exact testBit_of_land hm (by decide)
    | with_reducible apply count_frame
    | with_reducible apply setChainPort_frame
    | with_reducible apply event_frame
    | with_reducible apply ite_frame
    | (split <;> try (rename_i hq; replace hq := congrArg Prod.snd hq; dsimp only at hq; subst hq))
    | (rename_i hq; replace hq := congrArg Prod.snd hq; dsimp only at hq; subst hq)
    | (rename_i hq; injection hq with hq; subst hq)

theorem sendChain_frame {m : Nat} {r u : State} {x0 x1 x2 x3 x4 x5} (h : Frame m r u) (hm : m &&& 12 = 12) : Frame m r (sendChain x0 x1 x2 x3 x4 x5 u) := by
  unfold sendChain
  try dsimp only
  repeat' first
    | with_reducible assumption
    | intro _
    | exact land_trans hm rfl
    | exact testBit_of_land hm (by decide)
    | with_reducible apply emit_frame
    | with_reducible apply count_frame
    | with_reducible apply ite_frame
    | (split <;> try (rename_i hq; replace hq := congrArg Prod.snd hq; dsimp only at hq; subst hq))
    | (rename_i hq; replace hq := congrArg Prod.snd hq; dsimp only at hq; subst hq)
    | (rename_i hq; injection hq with hq; subst hq)

theorem nextTag_frame {m : Nat} {r u : State} (h : Frame m r u) (hm : m &&& 1073741824 = 1073741824) : Frame m r (nextTag u).2 := by
  unfold nextTag
  try dsimp only
  repeat' first
    | with_reducible assumption
    | intro _
    | exact land_trans hm rfl
    | exact testBit_of_land hm (by decide)
    | with_reducible apply ite_frame
    | (split <;> try (rename_i hq; replace hq := congrArg Prod.snd hq; dsimp only at hq; subst hq))
    | (rename_i hq; replace hq := congrArg Prod.snd hq; dsimp only at hq; subst hq)
    | (rename_i hq; injection hq with hq; subst hq)
    | (with_reducible refine Frame.lit ?_ rfl; first | with_reducible assumption | split)

theorem sendResponse_frame {m : Nat} {r u : State} {x0 x1 x2 x3} (h : Frame m r u) (hm : m &&& 12 = 12) : Frame m r (sendResponse x0 x1 x2 x3 u) := by
  unfold sendResponse
  try dsimp only
  repeat' first
    | with_reducible assumption
    | intro _
    | exact land_trans hm rfl
    | exact testBit_of_land hm (by decide)
    | with_reducible apply sendChain_frame
    | with_reducible apply ite_frame
    | (split <;> try (rename_i hq; replace hq := congrArg Prod.snd hq; dsimp only at hq; subst hq))
    | (rename_i hq; replace hq := congrArg Prod.snd hq; dsimp only at hq; subst hq)
    | (rename_i hq; injection hq with hq; subst hq)

theorem hostDown_frame {m : Nat} {r u : State} (h : Frame m r u) (hm : m &&& 70370891663368 = 70370891663368) : Frame m r (hostDown u) := by
  unfold hostDown
  try dsimp only
  repeat' first
    | with_reducible assumption
    | intro _
    | exact land_trans hm rfl
    | exact testBit_of_land hm (by decide)
    | with_reducible apply event_frame
    | with_reducible apply ite_frame
    | (split <;> try (rename_i hq; replace hq := congrArg Prod.snd hq; dsimp only at hq; subst hq))
    | (rename_i hq; replace hq := congrArg Prod.snd hq; dsimp only at hq; subst hq)
    | (rename_i hq; injection hq with hq; subst hq)
    | (with_reducible refine Frame.lit ?_ rfl; first | with_reducible assumption | with_reducible apply event_frame| split)

end Sys2Proof.Machine
end

