-- ==== Sys2Proof/Laws/FrameSched.lean ====
section
/-! SUPPORT. The frames of the operations of Machine/Sched.lean: each changes nothing outside its mask (see Laws/Frame.lean). -/
set_option Elab.async false
set_option linter.all false

namespace Sys2Proof.Machine

theorem setPort_frame {m : Nat} {r u : State} {x0 x1} (h : Frame m r u) (hm : m &&& 1048576 = 1048576) : Frame m r (setPort x0 x1 u) := by
  unfold setPort
  try dsimp only
  repeat' first
    | with_reducible assumption
    | intro _
    | exact land_trans hm rfl
    | exact testBit_of_land hm (by decide)
    | with_reducible apply ite_frame
    | (split <;> try (rename_i hq; replace hq := congrArg Prod.snd hq; dsimp only at hq; subst hq))
    | (rename_i hq; replace hq := congrArg Prod.snd hq; dsimp only at hq; subst hq)
    | (rename_i hq; injection hq with hq; subst hq)
    | (with_reducible refine Frame.lit ?_ rfl; first | with_reducible assumption | split)

theorem modPort_frame {m : Nat} {r u : State} {x0 x1} (h : Frame m r u) (hm : m &&& 1048576 = 1048576) : Frame m r (modPort x0 x1 u) := by
  unfold modPort
  try dsimp only
  repeat' first
    | with_reducible assumption
    | intro _
    | exact land_trans hm rfl
    | exact testBit_of_land hm (by decide)
    | with_reducible apply setPort_frame
    | with_reducible apply ite_frame
    | (split <;> try (rename_i hq; replace hq := congrArg Prod.snd hq; dsimp only at hq; subst hq))
    | (rename_i hq; replace hq := congrArg Prod.snd hq; dsimp only at hq; subst hq)
    | (rename_i hq; injection hq with hq; subst hq)

theorem setQueue_frame {m : Nat} {r u : State} {x0 x1 x2} (h : Frame m r u) (hm : m &&& 524288 = 524288) : Frame m r (setQueue x0 x1 x2 u) := by
  unfold setQueue
  try dsimp only
  repeat' first
    | with_reducible assumption
    | intro _
    | exact land_trans hm rfl
    | exact testBit_of_land hm (by decide)
    | with_reducible apply setSched_frame
    | with_reducible apply ite_frame
    | (split <;> try (rename_i hq; replace hq := congrArg Prod.snd hq; dsimp only at hq; subst hq))
    | (rename_i hq; replace hq := congrArg Prod.snd hq; dsimp only at hq; subst hq)
    | (rename_i hq; injection hq with hq; subst hq)

theorem settlePortCredit_frame {m : Nat} {r u : State} {x0} (h : Frame m r u) (hm : m &&& 524288 = 524288) : Frame m r (settlePortCredit x0 u) := by
  unfold settlePortCredit
  try dsimp only
  repeat' first
    | with_reducible assumption
    | intro _
    | exact land_trans hm rfl
    | exact testBit_of_land hm (by decide)
    | with_reducible apply modSched_frame
    | with_reducible apply ite_frame
    | (split <;> try (rename_i hq; replace hq := congrArg Prod.snd hq; dsimp only at hq; subst hq))
    | (rename_i hq; replace hq := congrArg Prod.snd hq; dsimp only at hq; subst hq)
    | (rename_i hq; injection hq with hq; subst hq)

theorem settleQueueCredit_frame {m : Nat} {r u : State} {x0 x1} (h : Frame m r u) (hm : m &&& 524288 = 524288) : Frame m r (settleQueueCredit x0 x1 u) := by
  unfold settleQueueCredit
  try dsimp only
  repeat' first
    | with_reducible assumption
    | intro _
    | exact land_trans hm rfl
    | exact testBit_of_land hm (by decide)
    | with_reducible apply setQueue_frame
    | with_reducible apply ite_frame
    | (split <;> try (rename_i hq; replace hq := congrArg Prod.snd hq; dsimp only at hq; subst hq))
    | (rename_i hq; replace hq := congrArg Prod.snd hq; dsimp only at hq; subst hq)
    | (rename_i hq; injection hq with hq; subst hq)

theorem drawPort_frame {m : Nat} {r u : State} {x0 x1} (h : Frame m r u) (hm : m &&& 524288 = 524288) : Frame m r (drawPort x0 x1 u) := by
  unfold drawPort
  try dsimp only
  repeat' first
    | with_reducible assumption
    | intro _
    | exact land_trans hm rfl
    | exact testBit_of_land hm (by decide)
    | with_reducible apply modSched_frame
    | with_reducible apply ite_frame
    | (split <;> try (rename_i hq; replace hq := congrArg Prod.snd hq; dsimp only at hq; subst hq))
    | (rename_i hq; replace hq := congrArg Prod.snd hq; dsimp only at hq; subst hq)
    | (rename_i hq; injection hq with hq; subst hq)

theorem drawQueue_frame {m : Nat} {r u : State} {x0 x1 x2} (h : Frame m r u) (hm : m &&& 524288 = 524288) : Frame m r (drawQueue x0 x1 x2 u) := by
  unfold drawQueue
  try dsimp only
  repeat' first
    | with_reducible assumption
    | intro _
    | exact land_trans hm rfl
    | exact testBit_of_land hm (by decide)
    | with_reducible apply setQueue_frame
    | with_reducible apply ite_frame
    | (split <;> try (rename_i hq; replace hq := congrArg Prod.snd hq; dsimp only at hq; subst hq))
    | (rename_i hq; replace hq := congrArg Prod.snd hq; dsimp only at hq; subst hq)
    | (rename_i hq; injection hq with hq; subst hq)

theorem portBurstWrite_frame {m : Nat} {r u : State} {x0 x1} (h : Frame m r u) (hm : m &&& 524296 = 524296) : Frame m r (portBurstWrite x0 x1 u) := by
  unfold portBurstWrite
  try dsimp only
  repeat' first
    | with_reducible assumption
    | intro _
    | exact land_trans hm rfl
    | exact testBit_of_land hm (by decide)
    | with_reducible apply settlePortCredit_frame
    | with_reducible apply modSched_frame
    | with_reducible apply setReg_frame
    | with_reducible apply ite_frame
    | (split <;> try (rename_i hq; replace hq := congrArg Prod.snd hq; dsimp only at hq; subst hq))
    | (rename_i hq; replace hq := congrArg Prod.snd hq; dsimp only at hq; subst hq)
    | (rename_i hq; injection hq with hq; subst hq)

theorem queueBurstWrite_frame {m : Nat} {r u : State} {x0 x1 x2} (h : Frame m r u) (hm : m &&& 524296 = 524296) : Frame m r (queueBurstWrite x0 x1 x2 u) := by
  unfold queueBurstWrite
  try dsimp only
  repeat' first
    | with_reducible assumption
    | intro _
    | exact land_trans hm rfl
    | exact testBit_of_land hm (by decide)
    | with_reducible apply settleQueueCredit_frame
    | with_reducible apply setQueue_frame
    | with_reducible apply setReg_frame
    | with_reducible apply ite_frame
    | (split <;> try (rename_i hq; replace hq := congrArg Prod.snd hq; dsimp only at hq; subst hq))
    | (rename_i hq; replace hq := congrArg Prod.snd hq; dsimp only at hq; subst hq)
    | (rename_i hq; injection hq with hq; subst hq)

theorem portRateWrite_frame {m : Nat} {r u : State} {x0 x1} (h : Frame m r u) (hm : m &&& 524296 = 524296) : Frame m r (portRateWrite x0 x1 u) := by
  unfold portRateWrite
  try dsimp only
  repeat' first
    | with_reducible assumption
    | intro _
    | exact land_trans hm rfl
    | exact testBit_of_land hm (by decide)
    | with_reducible apply setReg_frame
    | with_reducible apply settlePortCredit_frame
    | with_reducible apply ite_frame
    | (split <;> try (rename_i hq; replace hq := congrArg Prod.snd hq; dsimp only at hq; subst hq))
    | (rename_i hq; replace hq := congrArg Prod.snd hq; dsimp only at hq; subst hq)
    | (rename_i hq; injection hq with hq; subst hq)

theorem queueRateWrite_frame {m : Nat} {r u : State} {x0 x1 x2} (h : Frame m r u) (hm : m &&& 524296 = 524296) : Frame m r (queueRateWrite x0 x1 x2 u) := by
  unfold queueRateWrite
  try dsimp only
  repeat' first
    | with_reducible assumption
    | intro _
    | exact land_trans hm rfl
    | exact testBit_of_land hm (by decide)
    | with_reducible apply setReg_frame
    | with_reducible apply settleQueueCredit_frame
    | with_reducible apply ite_frame
    | (split <;> try (rename_i hq; replace hq := congrArg Prod.snd hq; dsimp only at hq; subst hq))
    | (rename_i hq; replace hq := congrArg Prod.snd hq; dsimp only at hq; subst hq)
    | (rename_i hq; injection hq with hq; subst hq)

theorem pauseQueue_frame {m : Nat} {r u : State} {x0 x1 x2} (h : Frame m r u) (hm : m &&& 524288 = 524288) : Frame m r (pauseQueue x0 x1 x2 u) := by
  unfold pauseQueue
  try dsimp only
  repeat' first
    | with_reducible assumption
    | intro _
    | exact land_trans hm rfl
    | exact testBit_of_land hm (by decide)
    | with_reducible apply setQueue_frame
    | with_reducible apply ite_frame
    | (split <;> try (rename_i hq; replace hq := congrArg Prod.snd hq; dsimp only at hq; subst hq))
    | (rename_i hq; replace hq := congrArg Prod.snd hq; dsimp only at hq; subst hq)
    | (rename_i hq; injection hq with hq; subst hq)

theorem pauseLanes_frame {m : Nat} {r u : State} {x0 x1} (h : Frame m r u) (hm : m &&& 524288 = 524288) : Frame m r (pauseLanes x0 x1 u) := by
  unfold pauseLanes
  try dsimp only
  repeat' first
    | with_reducible assumption
    | intro _
    | exact land_trans hm rfl
    | exact testBit_of_land hm (by decide)
    | with_reducible apply modSched_frame
    | with_reducible apply ite_frame
    | (split <;> try (rename_i hq; replace hq := congrArg Prod.snd hq; dsimp only at hq; subst hq))
    | (rename_i hq; replace hq := congrArg Prod.snd hq; dsimp only at hq; subst hq)
    | (rename_i hq; injection hq with hq; subst hq)

theorem pauseRx_frame {m : Nat} {r u : State} {x0 x1} (h : Frame m r u) (hm : m &&& 524296 = 524296) : Frame m r (pauseRx x0 x1 u) := by
  unfold pauseRx
  try dsimp only
  repeat' first
    | with_reducible assumption
    | intro _
    | exact land_trans hm rfl
    | exact testBit_of_land hm (by decide)
    | with_reducible apply each_frame
    | with_reducible apply count_frame
    | with_reducible apply pauseQueue_frame
    | with_reducible apply pauseLanes_frame
    | with_reducible apply ite_frame
    | (split <;> try (rename_i hq; replace hq := congrArg Prod.snd hq; dsimp only at hq; subst hq))
    | (rename_i hq; replace hq := congrArg Prod.snd hq; dsimp only at hq; subst hq)
    | (rename_i hq; injection hq with hq; subst hq)

theorem pfcRx_frame {m : Nat} {r u : State} {x0 x1 x2} (h : Frame m r u) (hm : m &&& 524296 = 524296) : Frame m r (pfcRx x0 x1 x2 u) := by
  unfold pfcRx
  try dsimp only
  repeat' first
    | with_reducible assumption
    | intro _
    | exact land_trans hm rfl
    | exact testBit_of_land hm (by decide)
    | with_reducible apply each_frame
    | with_reducible apply when'_frame
    | with_reducible apply count_frame
    | with_reducible apply pauseLanes_frame
    | with_reducible apply pauseQueue_frame
    | with_reducible apply ite_frame
    | (split <;> try (rename_i hq; replace hq := congrArg Prod.snd hq; dsimp only at hq; subst hq))
    | (rename_i hq; replace hq := congrArg Prod.snd hq; dsimp only at hq; subst hq)
    | (rename_i hq; injection hq with hq; subst hq)

theorem pauseExpiry_frame {m : Nat} {r u : State} {x0 x1} (h : Frame m r u) (hm : m &&& 524288 = 524288) : Frame m r (pauseExpiry x0 x1 u) := by
  unfold pauseExpiry
  try dsimp only
  repeat' first
    | with_reducible assumption
    | intro _
    | exact land_trans hm rfl
    | exact testBit_of_land hm (by decide)
    | with_reducible apply each_frame
    | with_reducible apply when'_frame
    | with_reducible apply pauseQueue_frame
    | with_reducible apply pauseLanes_frame
    | with_reducible apply ite_frame
    | (split <;> try (rename_i hq; replace hq := congrArg Prod.snd hq; dsimp only at hq; subst hq))
    | (rename_i hq; replace hq := congrArg Prod.snd hq; dsimp only at hq; subst hq)
    | (rename_i hq; injection hq with hq; subst hq)

theorem setAdminEntry_frame {m : Nat} {r u : State} {x0 x1 x2} (h : Frame m r u) (hm : m &&& 524288 = 524288) : Frame m r (setAdminEntry x0 x1 x2 u) := by
  unfold setAdminEntry
  try dsimp only
  repeat' first
    | with_reducible assumption
    | intro _
    | exact land_trans hm rfl
    | exact testBit_of_land hm (by decide)
    | with_reducible apply ite_frame
    | (split <;> try (rename_i hq; replace hq := congrArg Prod.snd hq; dsimp only at hq; subst hq))
    | (rename_i hq; replace hq := congrArg Prod.snd hq; dsimp only at hq; subst hq)
    | (rename_i hq; injection hq with hq; subst hq)
    | (with_reducible refine Frame.lit ?_ rfl; first | with_reducible assumption | split)

theorem gclWrite_frame {m : Nat} {r u : State} {x0} (h : Frame m r u) (hm : m &&& 524296 = 524296) : Frame m r (gclWrite x0 u) := by
  unfold gclWrite
  try dsimp only
  repeat' first
    | with_reducible assumption
    | intro _
    | exact land_trans hm rfl
    | exact testBit_of_land hm (by decide)
    | with_reducible apply setAdminEntry_frame
    | with_reducible apply setReg_frame
    | with_reducible apply ite_frame
    | (split <;> try (rename_i hq; replace hq := congrArg Prod.snd hq; dsimp only at hq; subst hq))
    | (rename_i hq; replace hq := congrArg Prod.snd hq; dsimp only at hq; subst hq)
    | (rename_i hq; injection hq with hq; subst hq)

theorem gclRead_frame {m : Nat} {r u : State} {x0} (h : Frame m r u) (hm : m &&& 8 = 8) : Frame m r (gclRead x0 u) := by
  unfold gclRead
  try dsimp only
  repeat' first
    | with_reducible assumption
    | intro _
    | exact land_trans hm rfl
    | exact testBit_of_land hm (by decide)
    | with_reducible apply setReg_frame
    | with_reducible apply ite_frame
    | (split <;> try (rename_i hq; replace hq := congrArg Prod.snd hq; dsimp only at hq; subst hq))
    | (rename_i hq; replace hq := congrArg Prod.snd hq; dsimp only at hq; subst hq)
    | (rename_i hq; injection hq with hq; subst hq)

theorem acceptCommit_frame {m : Nat} {r u : State} {x0 x1} (h : Frame m r u) (hm : m &&& 70368744704008 = 70368744704008) : Frame m r (acceptCommit x0 x1 u) := by
  unfold acceptCommit
  try dsimp only
  repeat' first
    | with_reducible assumption
    | intro _
    | exact land_trans hm rfl
    | exact testBit_of_land hm (by decide)
    | with_reducible apply modSched_frame
    | with_reducible apply event_frame
    | with_reducible apply ite_frame
    | (split <;> try (rename_i hq; replace hq := congrArg Prod.snd hq; dsimp only at hq; subst hq))
    | (rename_i hq; replace hq := congrArg Prod.snd hq; dsimp only at hq; subst hq)
    | (rename_i hq; injection hq with hq; subst hq)

theorem gateCommit_frame {m : Nat} {r u : State} {x0 x1} (h : Frame m r u) (hm : m &&& 70368744704008 = 70368744704008) : Frame m r (gateCommit x0 x1 u) := by
  unfold gateCommit
  try dsimp only
  repeat' first
    | with_reducible assumption
    | intro _
    | exact land_trans hm rfl
    | exact testBit_of_land hm (by decide)
    | with_reducible apply setReg_frame
    | with_reducible apply acceptCommit_frame
    | with_reducible apply event_frame
    | with_reducible apply modSched_frame
    | with_reducible apply ite_frame
    | (split <;> try (rename_i hq; replace hq := congrArg Prod.snd hq; dsimp only at hq; subst hq))
    | (rename_i hq; replace hq := congrArg Prod.snd hq; dsimp only at hq; subst hq)
    | (rename_i hq; injection hq with hq; subst hq)

theorem gateListStart_frame {m : Nat} {r u : State} {x0} (h : Frame m r u) (hm : m &&& 524296 = 524296) : Frame m r (gateListStart x0 u) := by
  unfold gateListStart
  try dsimp only
  repeat' first
    | with_reducible assumption
    | intro _
    | exact land_trans hm rfl
    | exact testBit_of_land hm (by decide)
    | with_reducible apply setSched_frame
    | with_reducible apply count_frame
    | with_reducible apply ite_frame
    | (split <;> try (rename_i hq; replace hq := congrArg Prod.snd hq; dsimp only at hq; subst hq))
    | (rename_i hq; replace hq := congrArg Prod.snd hq; dsimp only at hq; subst hq)
    | (rename_i hq; injection hq with hq; subst hq)

theorem gateCheck_frame {m : Nat} {r u : State} {x0} (h : Frame m r u) (hm : m &&& 524288 = 524288) : Frame m r (gateCheck x0 u) := by
  unfold gateCheck
  try dsimp only
  repeat' first
    | with_reducible assumption
    | intro _
    | exact land_trans hm rfl
    | exact testBit_of_land hm (by decide)
    | with_reducible apply each_frame
    | with_reducible apply modSched_frame
    | with_reducible apply ite_frame
    | (split <;> try (rename_i hq; replace hq := congrArg Prod.snd hq; dsimp only at hq; subst hq))
    | (rename_i hq; replace hq := congrArg Prod.snd hq; dsimp only at hq; subst hq)
    | (rename_i hq; injection hq with hq; subst hq)

theorem gateLateDue_frame {m : Nat} {r u : State} (h : Frame m r u) (hm : m &&& 524288 = 524288) : Frame m r (gateLateDue u) := by
  unfold gateLateDue
  try dsimp only
  repeat' first
    | with_reducible assumption
    | intro _
    | exact land_trans hm rfl
    | exact testBit_of_land hm (by decide)
    | with_reducible apply each_frame
    | with_reducible apply modSched_frame
    | with_reducible apply ite_frame
    | (split <;> try (rename_i hq; replace hq := congrArg Prod.snd hq; dsimp only at hq; subst hq))
    | (rename_i hq; replace hq := congrArg Prod.snd hq; dsimp only at hq; subst hq)
    | (rename_i hq; injection hq with hq; subst hq)

theorem gateCorrect_frame {m : Nat} {r u : State} {x0} (h : Frame m r u) (hm : m &&& 524296 = 524296) : Frame m r (gateCorrect x0 u) := by
  unfold gateCorrect
  try dsimp only
  repeat' first
    | with_reducible assumption
    | intro _
    | exact land_trans hm rfl
    | exact testBit_of_land hm (by decide)
    | with_reducible apply count_frame
    | with_reducible apply setSched_frame
    | with_reducible apply ite_frame
    | (split <;> try (rename_i hq; replace hq := congrArg Prod.snd hq; dsimp only at hq; subst hq))
    | (rename_i hq; replace hq := congrArg Prod.snd hq; dsimp only at hq; subst hq)
    | (rename_i hq; injection hq with hq; subst hq)

theorem freeFrame_frame {m : Nat} {r u : State} {x0 x1} (h : Frame m r u) (hm : m &&& 83562884368398 = 83562884368398) : Frame m r (freeFrame x0 x1 u) := by
  unfold freeFrame
  try dsimp only
  repeat' first
    | with_reducible assumption
    | intro _
    | exact land_trans hm rfl
    | exact testBit_of_land hm (by decide)
    | with_reducible apply freeTubsOf_frame
    | with_reducible apply tubFree_frame
    | with_reducible apply ite_frame
    | (split <;> try (rename_i hq; replace hq := congrArg Prod.snd hq; dsimp only at hq; subst hq))
    | (rename_i hq; replace hq := congrArg Prod.snd hq; dsimp only at hq; subst hq)
    | (rename_i hq; injection hq with hq; subst hq)

theorem freeFrames_frame {m : Nat} {r u : State} {x0 x1} (h : Frame m r u) (hm : m &&& 83562884368398 = 83562884368398) : Frame m r (freeFrames x0 x1 u) := by
  unfold freeFrames
  try dsimp only
  repeat' first
    | with_reducible assumption
    | intro _
    | exact land_trans hm rfl
    | exact testBit_of_land hm (by decide)
    | with_reducible apply each_frame
    | with_reducible apply freeFrame_frame
    | with_reducible apply ite_frame
    | (split <;> try (rename_i hq; replace hq := congrArg Prod.snd hq; dsimp only at hq; subst hq))
    | (rename_i hq; replace hq := congrArg Prod.snd hq; dsimp only at hq; subst hq)
    | (rename_i hq; injection hq with hq; subst hq)

theorem countTxOf_frame {m : Nat} {r u : State} {x0 x1 x2} (h : Frame m r u) (hm : m &&& 8 = 8) : Frame m r (countTxOf x0 x1 x2 u) := by
  unfold countTxOf
  try dsimp only
  repeat' first
    | with_reducible assumption
    | intro _
    | exact land_trans hm rfl
    | exact testBit_of_land hm (by decide)
    | with_reducible apply count64_frame
    | with_reducible apply ite_frame
    | (split <;> try (rename_i hq; replace hq := congrArg Prod.snd hq; dsimp only at hq; subst hq))
    | (rename_i hq; replace hq := congrArg Prod.snd hq; dsimp only at hq; subst hq)
    | (rename_i hq; injection hq with hq; subst hq)

theorem countTx_frame {m : Nat} {r u : State} {x0 x1 x2} (h : Frame m r u) (hm : m &&& 8 = 8) : Frame m r (countTx x0 x1 x2 u) := by
  unfold countTx
  try dsimp only
  repeat' first
    | with_reducible assumption
    | intro _
    | exact land_trans hm rfl
    | exact testBit_of_land hm (by decide)
    | with_reducible apply when'_frame
    | with_reducible apply count64_frame
    | with_reducible apply countTxOf_frame
    | with_reducible apply ite_frame
    | (split <;> try (rename_i hq; replace hq := congrArg Prod.snd hq; dsimp only at hq; subst hq))
    | (rename_i hq; replace hq := congrArg Prod.snd hq; dsimp only at hq; subst hq)
    | (rename_i hq; injection hq with hq; subst hq)

theorem putOnWire_frame {m : Nat} {r u : State} {x0 x1 x2} (h : Frame m r u) (hm : m &&& 268435468 = 268435468) : Frame m r (putOnWire x0 x1 x2 u) := by
  unfold putOnWire
  try dsimp only
  repeat' first
    | with_reducible assumption
    | intro _
    | exact land_trans hm rfl
    | exact testBit_of_land hm (by decide)
    | with_reducible apply count_frame
    | with_reducible apply countTx_frame
    | with_reducible apply emit_frame
    | with_reducible apply ite_frame
    | (split <;> try (rename_i hq; replace hq := congrArg Prod.snd hq; dsimp only at hq; subst hq))
    | (rename_i hq; replace hq := congrArg Prod.snd hq; dsimp only at hq; subst hq)
    | (rename_i hq; injection hq with hq; subst hq)
    | (with_reducible refine Frame.lit ?_ rfl; first | with_reducible assumption | with_reducible apply count_frame | with_reducible apply countTx_frame | with_reducible apply emit_frame| split)

theorem noteActivity_frame {m : Nat} {r u : State} {x0} (h : Frame m r u) (hm : m &&& 16384 = 16384) : Frame m r (noteActivity x0 u) := by
  unfold noteActivity
  try dsimp only
  repeat' first
    | with_reducible assumption
    | intro _
    | exact land_trans hm rfl
    | exact testBit_of_land hm (by decide)
    | with_reducible apply ite_frame
    | (split <;> try (rename_i hq; replace hq := congrArg Prod.snd hq; dsimp only at hq; subst hq))
    | (rename_i hq; replace hq := congrArg Prod.snd hq; dsimp only at hq; subst hq)
    | (rename_i hq; injection hq with hq; subst hq)
    | (with_reducible refine Frame.lit ?_ rfl; first | with_reducible assumption | split)

theorem supSends_frame {m : Nat} {r u : State} {x0 x1 x2} (h : Frame m r u) (hm : m &&& 16396 = 16396) : Frame m r (supSends x0 x1 x2 u) := by
  unfold supSends
  try dsimp only
  repeat' first
    | with_reducible assumption
    | intro _
    | exact land_trans hm rfl
    | exact testBit_of_land hm (by decide)
    | with_reducible apply when'_frame
    | with_reducible apply count_frame
    | with_reducible apply emit_frame
    | with_reducible apply noteActivity_frame
    | with_reducible apply countTxOf_frame
    | with_reducible apply ite_frame
    | (split <;> try (rename_i hq; replace hq := congrArg Prod.snd hq; dsimp only at hq; subst hq))
    | (rename_i hq; replace hq := congrArg Prod.snd hq; dsimp only at hq; subst hq)
    | (rename_i hq; injection hq with hq; subst hq)

theorem transmit_frame {m : Nat} {r u : State} {x0 x1 x2} (h : Frame m r u) (hm : m &&& 268976140 = 268976140) : Frame m r (transmit x0 x1 x2 u) := by
  unfold transmit
  try dsimp only
  repeat' first
    | with_reducible assumption
    | intro _
    | exact land_trans hm rfl
    | exact testBit_of_land hm (by decide)
    | with_reducible apply putOnWire_frame
    | with_reducible apply modSched_frame
    | with_reducible apply noteActivity_frame
    | with_reducible apply ite_frame
    | (split <;> try (rename_i hq; replace hq := congrArg Prod.snd hq; dsimp only at hq; subst hq))
    | (rename_i hq; replace hq := congrArg Prod.snd hq; dsimp only at hq; subst hq)
    | (rename_i hq; injection hq with hq; subst hq)

theorem noteStrict_frame {m : Nat} {r u : State} {x0} (h : Frame m r u) (hm : m &&& 524288 = 524288) : Frame m r (noteStrict x0 u) := by
  unfold noteStrict
  try dsimp only
  repeat' first
    | with_reducible assumption
    | intro _
    | exact land_trans hm rfl
    | exact testBit_of_land hm (by decide)
    | with_reducible apply ite_frame
    | (split <;> try (rename_i hq; replace hq := congrArg Prod.snd hq; dsimp only at hq; subst hq))
    | (rename_i hq; replace hq := congrArg Prod.snd hq; dsimp only at hq; subst hq)
    | (rename_i hq; injection hq with hq; subst hq)
    | (with_reducible refine Frame.lit ?_ rfl; first | with_reducible assumption | split)

theorem sendConsign_frame {m : Nat} {r u : State} {x0 x1 x2} (h : Frame m r u) (hm : m &&& 83563152820238 = 83563152820238) : Frame m r (sendConsign x0 x1 x2 u) := by
  unfold sendConsign
  try dsimp only
  repeat' first
    | with_reducible assumption
    | intro _
    | exact land_trans hm rfl
    | exact testBit_of_land hm (by decide)
    | with_reducible apply noteStrict_frame
    | with_reducible apply freeFrame_frame
    | with_reducible apply transmit_frame
    | with_reducible apply drawPort_frame
    | with_reducible apply modSched_frame
    | with_reducible apply ite_frame
    | (split <;> try (rename_i hq; replace hq := congrArg Prod.snd hq; dsimp only at hq; subst hq))
    | (rename_i hq; replace hq := congrArg Prod.snd hq; dsimp only at hq; subst hq)
    | (rename_i hq; injection hq with hq; subst hq)

theorem sendCirc_frame {m : Nat} {r u : State} {x0 x1 x2} (h : Frame m r u) (hm : m &&& 83563152820238 = 83563152820238) : Frame m r (sendCirc x0 x1 x2 u) := by
  unfold sendCirc
  try dsimp only
  repeat' first
    | with_reducible assumption
    | intro _
    | exact land_trans hm rfl
    | exact testBit_of_land hm (by decide)
    | with_reducible apply noteStrict_frame
    | with_reducible apply freeFrame_frame
    | with_reducible apply transmit_frame
    | with_reducible apply drawPort_frame
    | with_reducible apply modSched_frame
    | with_reducible apply ite_frame
    | (split <;> try (rename_i hq; replace hq := congrArg Prod.snd hq; dsimp only at hq; subst hq))
    | (rename_i hq; replace hq := congrArg Prod.snd hq; dsimp only at hq; subst hq)
    | (rename_i hq; injection hq with hq; subst hq)

theorem sendQueue_frame {m : Nat} {r u : State} {x0 x1 x2 x3} (h : Frame m r u) (hm : m &&& 83563152820238 = 83563152820238) : Frame m r (sendQueue x0 x1 x2 x3 u) := by
  unfold sendQueue
  try dsimp only
  repeat' first
    | with_reducible assumption
    | intro _
    | exact land_trans hm rfl
    | exact testBit_of_land hm (by decide)
    | with_reducible apply freeFrame_frame
    | with_reducible apply transmit_frame
    | with_reducible apply drawQueue_frame
    | with_reducible apply drawPort_frame
    | with_reducible apply setQueue_frame
    | with_reducible apply modSched_frame
    | with_reducible apply noteStrict_frame
    | with_reducible apply ite_frame
    | (split <;> try (rename_i hq; replace hq := congrArg Prod.snd hq; dsimp only at hq; subst hq))
    | (rename_i hq; replace hq := congrArg Prod.snd hq; dsimp only at hq; subst hq)
    | (rename_i hq; injection hq with hq; subst hq)

theorem judgeQueue_frame {m : Nat} {r u : State} {x0 x1} (h : Frame m r u) (hm : m &&& 524296 = 524296) : Frame m r (judgeQueue x0 x1 u).2 := by
  unfold judgeQueue
  try dsimp only
  repeat' first
    | with_reducible assumption
    | intro _
    | exact land_trans hm rfl
    | exact testBit_of_land hm (by decide)
    | with_reducible apply count_frame
    | with_reducible apply setQueue_frame
    | with_reducible apply ite_frame
    | (split <;> try (rename_i hq; replace hq := congrArg Prod.snd hq; dsimp only at hq; subst hq))
    | (rename_i hq; replace hq := congrArg Prod.snd hq; dsimp only at hq; subst hq)
    | (rename_i hq; injection hq with hq; subst hq)

theorem startQueue_frame {m : Nat} {r u : State} {x0 x1} (h : Frame m r u) (hm : m &&& 83563152820238 = 83563152820238) : Frame m r (startQueue x0 x1 u) := by
  unfold startQueue
  try dsimp only
  repeat' first
    | with_reducible assumption
    | intro _
    | exact land_trans hm rfl
    | exact testBit_of_land hm (by decide)
    | with_reducible apply sendQueue_frame
    | with_reducible apply ite_frame
    | (split <;> try (rename_i hq; replace hq := congrArg Prod.snd hq; dsimp only at hq; subst hq))
    | (rename_i hq; replace hq := congrArg Prod.snd hq; dsimp only at hq; subst hq)
    | (rename_i hq; injection hq with hq; subst hq)

theorem serveStrict_frame {m : Nat} {r u : State} {x0 x1} (h : Frame m r u) (hm : m &&& 83563152820238 = 83563152820238) : Frame m r (serveStrict x0 x1 u).2 := by
  induction x1 generalizing  u with
  | nil =>
    unfold serveStrict
    try dsimp only
    repeat' first
      | with_reducible assumption
      | intro _
      | exact land_trans hm rfl
      | exact testBit_of_land hm (by decide)
      | with_reducible apply judgeQueue_frame
      | with_reducible apply startQueue_frame
      | with_reducible apply ite_frame
      | (split <;> try (rename_i hq; replace hq := congrArg Prod.snd hq; dsimp only at hq; subst hq))
      | (rename_i hq; replace hq := congrArg Prod.snd hq; dsimp only at hq; subst hq)
      | (rename_i hq; injection hq with hq; subst hq)
  | cons y l ih =>
    unfold serveStrict
    try dsimp only
    repeat' first
      | with_reducible assumption
      | intro _
      | exact land_trans hm rfl
      | exact testBit_of_land hm (by decide)
      | with_reducible apply judgeQueue_frame
      | with_reducible apply startQueue_frame
      | with_reducible apply ih
      | with_reducible apply ite_frame
      | (split <;> try (rename_i hq; replace hq := congrArg Prod.snd hq; dsimp only at hq; subst hq))
      | (rename_i hq; replace hq := congrArg Prod.snd hq; dsimp only at hq; subst hq)
      | (rename_i hq; injection hq with hq; subst hq)

theorem rotateActive_frame {m : Nat} {r u : State} {x0} (h : Frame m r u) (hm : m &&& 524288 = 524288) : Frame m r (rotateActive x0 u) := by
  unfold rotateActive
  try dsimp only
  repeat' first
    | with_reducible assumption
    | intro _
    | exact land_trans hm rfl
    | exact testBit_of_land hm (by decide)
    | with_reducible apply modSched_frame
    | with_reducible apply ite_frame
    | (split <;> try (rename_i hq; replace hq := congrArg Prod.snd hq; dsimp only at hq; subst hq))
    | (rename_i hq; replace hq := congrArg Prod.snd hq; dsimp only at hq; subst hq)
    | (rename_i hq; injection hq with hq; subst hq)

theorem grantQuantum_frame {m : Nat} {r u : State} {x0 x1} (h : Frame m r u) (hm : m &&& 524288 = 524288) : Frame m r (grantQuantum x0 x1 u) := by
  unfold grantQuantum
  try dsimp only
  repeat' first
    | with_reducible assumption
    | intro _
    | exact land_trans hm rfl
    | exact testBit_of_land hm (by decide)
    | with_reducible apply modSched_frame
    | with_reducible apply setQueue_frame
    | with_reducible apply ite_frame
    | (split <;> try (rename_i hq; replace hq := congrArg Prod.snd hq; dsimp only at hq; subst hq))
    | (rename_i hq; replace hq := congrArg Prod.snd hq; dsimp only at hq; subst hq)
    | (rename_i hq; injection hq with hq; subst hq)

theorem sendWeighted_frame {m : Nat} {r u : State} {x0 x1 x2} (h : Frame m r u) (hm : m &&& 83563152820238 = 83563152820238) : Frame m r (sendWeighted x0 x1 x2 u) := by
  unfold sendWeighted
  try dsimp only
  repeat' first
    | with_reducible assumption
    | intro _
    | exact land_trans hm rfl
    | exact testBit_of_land hm (by decide)
    | with_reducible apply setQueue_frame
    | with_reducible apply startQueue_frame
    | with_reducible apply modSched_frame
    | with_reducible apply ite_frame
    | (split <;> try (rename_i hq; replace hq := congrArg Prod.snd hq; dsimp only at hq; subst hq))
    | (rename_i hq; replace hq := congrArg Prod.snd hq; dsimp only at hq; subst hq)
    | (rename_i hq; injection hq with hq; subst hq)

theorem serveWeighted_frame {m : Nat} {r u : State} {x0 x1 x2} (h : Frame m r u) (hm : m &&& 83563152820238 = 83563152820238) : Frame m r (serveWeighted x0 x1 x2 u) := by
  induction x1 generalizing x2 u with
  | zero =>
    unfold serveWeighted
    try dsimp only
    repeat' first
      | with_reducible assumption
      | intro _
      | exact land_trans hm rfl
      | exact testBit_of_land hm (by decide)
      | with_reducible apply judgeQueue_frame
      | with_reducible apply rotateActive_frame
      | with_reducible apply grantQuantum_frame
      | with_reducible apply sendWeighted_frame
      | with_reducible apply ite_frame
      | (split <;> try (rename_i hq; replace hq := congrArg Prod.snd hq; dsimp only at hq; subst hq))
      | (rename_i hq; replace hq := congrArg Prod.snd hq; dsimp only at hq; subst hq)
      | (rename_i hq; injection hq with hq; subst hq)
  | succ n ih =>
    unfold serveWeighted
    try dsimp only
    repeat' first
      | with_reducible assumption
      | intro _
      | exact land_trans hm rfl
      | exact testBit_of_land hm (by decide)
      | with_reducible apply judgeQueue_frame
      | with_reducible apply rotateActive_frame
      | with_reducible apply grantQuantum_frame
      | with_reducible apply sendWeighted_frame
      | with_reducible apply ih
      | with_reducible apply ite_frame
      | (split <;> try (rename_i hq; replace hq := congrArg Prod.snd hq; dsimp only at hq; subst hq))
      | (rename_i hq; replace hq := congrArg Prod.snd hq; dsimp only at hq; subst hq)
      | (rename_i hq; injection hq with hq; subst hq)

theorem portFrameStart_frame {m : Nat} {r u : State} {x0} (h : Frame m r u) (hm : m &&& 83563152820238 = 83563152820238) : Frame m r (portFrameStart x0 u) := by
  unfold portFrameStart
  try dsimp only
  repeat' first
    | with_reducible assumption
    | intro _
    | exact land_trans hm rfl
    | exact testBit_of_land hm (by decide)
    | with_reducible apply gateCorrect_frame
    | with_reducible apply sendConsign_frame
    | with_reducible apply sendCirc_frame
    | with_reducible apply serveStrict_frame
    | with_reducible apply serveWeighted_frame
    | with_reducible apply ite_frame
    | (split <;> try (rename_i hq; replace hq := congrArg Prod.snd hq; dsimp only at hq; subst hq))
    | (rename_i hq; replace hq := congrArg Prod.snd hq; dsimp only at hq; subst hq)
    | (rename_i hq; injection hq with hq; subst hq)

theorem lanePauseDrop_frame {m : Nat} {r u : State} {x0} (h : Frame m r u) (hm : m &&& 83562884368398 = 83562884368398) : Frame m r (lanePauseDrop x0 u) := by
  unfold lanePauseDrop
  try dsimp only
  repeat' first
    | with_reducible assumption
    | intro _
    | exact land_trans hm rfl
    | exact testBit_of_land hm (by decide)
    | with_reducible apply count_frame
    | with_reducible apply freeFrame_frame
    | with_reducible apply modSched_frame
    | with_reducible apply ite_frame
    | (split <;> try (rename_i hq; replace hq := congrArg Prod.snd hq; dsimp only at hq; subst hq))
    | (rename_i hq; replace hq := congrArg Prod.snd hq; dsimp only at hq; subst hq)
    | (rename_i hq; injection hq with hq; subst hq)

theorem strictAtEdge_frame {m : Nat} {r u : State} {x0} (h : Frame m r u) (hm : m &&& 524288 = 524288) : Frame m r (strictAtEdge x0 u) := by
  unfold strictAtEdge
  try dsimp only
  repeat' first
    | with_reducible assumption
    | intro _
    | exact land_trans hm rfl
    | exact testBit_of_land hm (by decide)
    | with_reducible apply setSched_frame
    | with_reducible apply ite_frame
    | (split <;> try (rename_i hq; replace hq := congrArg Prod.snd hq; dsimp only at hq; subst hq))
    | (rename_i hq; replace hq := congrArg Prod.snd hq; dsimp only at hq; subst hq)
    | (rename_i hq; injection hq with hq; subst hq)

theorem lpiDrop_frame {m : Nat} {r u : State} {x0} (h : Frame m r u) (hm : m &&& 1572876 = 1572876) : Frame m r (lpiDrop x0 u) := by
  unfold lpiDrop
  try dsimp only
  repeat' first
    | with_reducible assumption
    | intro _
    | exact land_trans hm rfl
    | exact testBit_of_land hm (by decide)
    | with_reducible apply each_frame
    | with_reducible apply settleQueueCredit_frame
    | with_reducible apply settlePortCredit_frame
    | with_reducible apply emit_frame
    | with_reducible apply setQueue_frame
    | with_reducible apply modSched_frame
    | with_reducible apply setPort_frame
    | with_reducible apply count64_frame
    | with_reducible apply ite_frame
    | (split <;> try (rename_i hq; replace hq := congrArg Prod.snd hq; dsimp only at hq; subst hq))
    | (rename_i hq; replace hq := congrArg Prod.snd hq; dsimp only at hq; subst hq)
    | (rename_i hq; injection hq with hq; subst hq)

theorem lpiExit_frame {m : Nat} {r u : State} {x0} (h : Frame m r u) (hm : m &&& 1572876 = 1572876) : Frame m r (lpiExit x0 u) := by
  unfold lpiExit
  try dsimp only
  repeat' first
    | with_reducible assumption
    | intro _
    | exact land_trans hm rfl
    | exact testBit_of_land hm (by decide)
    | with_reducible apply lpiDrop_frame
    | with_reducible apply ite_frame
    | (split <;> try (rename_i hq; replace hq := congrArg Prod.snd hq; dsimp only at hq; subst hq))
    | (rename_i hq; replace hq := congrArg Prod.snd hq; dsimp only at hq; subst hq)
    | (rename_i hq; injection hq with hq; subst hq)

theorem enqueuePort_frame {m : Nat} {r u : State} {x0 x1 x2} (h : Frame m r u) (hm : m &&& 1572876 = 1572876) : Frame m r (enqueuePort x0 x1 x2 u) := by
  unfold enqueuePort
  try dsimp only
  repeat' first
    | with_reducible assumption
    | intro _
    | exact land_trans hm rfl
    | exact testBit_of_land hm (by decide)
    | with_reducible apply lpiExit_frame
    | with_reducible apply setSched_frame
    | with_reducible apply ite_frame
    | (split <;> try (rename_i hq; replace hq := congrArg Prod.snd hq; dsimp only at hq; subst hq))
    | (rename_i hq; replace hq := congrArg Prod.snd hq; dsimp only at hq; subst hq)
    | (rename_i hq; injection hq with hq; subst hq)

theorem countColourDrop_frame {m : Nat} {r u : State} {x0 x1 x2} (h : Frame m r u) (hm : m &&& 8 = 8) : Frame m r (countColourDrop x0 x1 x2 u) := by
  unfold countColourDrop
  try dsimp only
  repeat' first
    | with_reducible assumption
    | intro _
    | exact land_trans hm rfl
    | exact testBit_of_land hm (by decide)
    | with_reducible apply when'_frame
    | with_reducible apply count_frame
    | with_reducible apply ite_frame
    | (split <;> try (rename_i hq; replace hq := congrArg Prod.snd hq; dsimp only at hq; subst hq))
    | (rename_i hq; replace hq := congrArg Prod.snd hq; dsimp only at hq; subst hq)
    | (rename_i hq; injection hq with hq; subst hq)

theorem admitPort_frame {m : Nat} {r u : State} {x0 x1 x2 x3 x4 x5 x6} (h : Frame m r u) (hm : m &&& 13194141237262 = 13194141237262) : Frame m r (admitPort x0 x1 x2 x3 x4 x5 x6 u).2 := by
  unfold admitPort
  try dsimp only
  repeat' first
    | with_reducible assumption
    | intro _
    | exact land_trans hm rfl
    | exact testBit_of_land hm (by decide)
    | with_reducible apply count_frame
    | with_reducible apply countColourDrop_frame
    | with_reducible apply storeData_frame
    | with_reducible apply handOver_frame
    | with_reducible apply enqueuePort_frame
    | with_reducible apply ite_frame
    | (split <;> try (rename_i hq; replace hq := congrArg Prod.snd hq; dsimp only at hq; subst hq))
    | (rename_i hq; replace hq := congrArg Prod.snd hq; dsimp only at hq; subst hq)
    | (rename_i hq; injection hq with hq; subst hq)

theorem storeFloor_frame {m : Nat} {r u : State} {x0 x1 x2} (h : Frame m r u) (hm : m &&& 13194139664394 = 13194139664394) : Frame m r (storeFloor x0 x1 x2 u).2 := by
  unfold storeFloor
  try dsimp only
  repeat' first
    | with_reducible assumption
    | intro _
    | exact land_trans hm rfl
    | exact testBit_of_land hm (by decide)
    | with_reducible apply storeData_frame
    | with_reducible apply floorWait_frame
    | with_reducible apply ite_frame
    | (split <;> try (rename_i hq; replace hq := congrArg Prod.snd hq; dsimp only at hq; subst hq))
    | (rename_i hq; replace hq := congrArg Prod.snd hq; dsimp only at hq; subst hq)
    | (rename_i hq; injection hq with hq; subst hq)

theorem admitLane_frame {m : Nat} {r u : State} {x0 x1 x2 x3} (h : Frame m r u) (hm : m &&& 13194141237262 = 13194141237262) : Frame m r (admitLane x0 x1 x2 x3 u) := by
  unfold admitLane
  try dsimp only
  repeat' first
    | with_reducible assumption
    | intro _
    | exact land_trans hm rfl
    | exact testBit_of_land hm (by decide)
    | with_reducible apply count_frame
    | with_reducible apply storeFloor_frame
    | with_reducible apply lpiExit_frame
    | with_reducible apply modSched_frame
    | with_reducible apply ite_frame
    | (split <;> try (rename_i hq; replace hq := congrArg Prod.snd hq; dsimp only at hq; subst hq))
    | (rename_i hq; replace hq := congrArg Prod.snd hq; dsimp only at hq; subst hq)
    | (rename_i hq; injection hq with hq; subst hq)

theorem admitAlloc_frame {m : Nat} {r u : State} {x0 x1 x2 x3 x4} (h : Frame m r u) (hm : m &&& 13194140188682 = 13194140188682) : Frame m r (admitAlloc x0 x1 x2 x3 x4 u).2 := by
  unfold admitAlloc
  try dsimp only
  repeat' first
    | with_reducible assumption
    | intro _
    | exact land_trans hm rfl
    | exact testBit_of_land hm (by decide)
    | with_reducible apply count_frame
    | with_reducible apply storeData_frame
    | with_reducible apply handOver_frame
    | with_reducible apply setAllocQ_frame
    | with_reducible apply ite_frame
    | (split <;> try (rename_i hq; replace hq := congrArg Prod.snd hq; dsimp only at hq; subst hq))
    | (rename_i hq; replace hq := congrArg Prod.snd hq; dsimp only at hq; subst hq)
    | (rename_i hq; injection hq with hq; subst hq)

theorem admitTally_frame {m : Nat} {r u : State} {x0 x1} (h : Frame m r u) (hm : m &&& 13194140188682 = 13194140188682) : Frame m r (admitTally x0 x1 u) := by
  unfold admitTally
  try dsimp only
  repeat' first
    | with_reducible assumption
    | intro _
    | exact land_trans hm rfl
    | exact testBit_of_land hm (by decide)
    | with_reducible apply storeFloor_frame
    | with_reducible apply setAllocQ_frame
    | with_reducible apply ite_frame
    | (split <;> try (rename_i hq; replace hq := congrArg Prod.snd hq; dsimp only at hq; subst hq))
    | (rename_i hq; replace hq := congrArg Prod.snd hq; dsimp only at hq; subst hq)
    | (rename_i hq; injection hq with hq; subst hq)

theorem emptyAlloc_frame {m : Nat} {r u : State} {x0} (h : Frame m r u) (hm : m &&& 83562884368398 = 83562884368398) : Frame m r (emptyAlloc x0 u) := by
  unfold emptyAlloc
  try dsimp only
  repeat' first
    | with_reducible assumption
    | intro _
    | exact land_trans hm rfl
    | exact testBit_of_land hm (by decide)
    | with_reducible apply each_frame
    | with_reducible apply setAllocQ_frame
    | with_reducible apply freeFrames_frame
    | with_reducible apply ite_frame
    | (split <;> try (rename_i hq; replace hq := congrArg Prod.snd hq; dsimp only at hq; subst hq))
    | (rename_i hq; replace hq := congrArg Prod.snd hq; dsimp only at hq; subst hq)
    | (rename_i hq; injection hq with hq; subst hq)

theorem putFrames_frame {m : Nat} {r u : State} {x0 x1 x2} (h : Frame m r u) (hm : m &&& 524288 = 524288) : Frame m r (putFrames x0 x1 x2 u) := by
  unfold putFrames
  try dsimp only
  repeat' first
    | with_reducible assumption
    | intro _
    | exact land_trans hm rfl
    | exact testBit_of_land hm (by decide)
    | with_reducible apply modSched_frame
    | with_reducible apply setQueue_frame
    | with_reducible apply ite_frame
    | (split <;> try (rename_i hq; replace hq := congrArg Prod.snd hq; dsimp only at hq; subst hq))
    | (rename_i hq; replace hq := congrArg Prod.snd hq; dsimp only at hq; subst hq)
    | (rename_i hq; injection hq with hq; subst hq)

theorem putSpillQueue_frame {m : Nat} {r u : State} {x0 x1} (h : Frame m r u) (hm : m &&& 524288 = 524288) : Frame m r (putSpillQueue x0 x1 u) := by
  unfold putSpillQueue
  try dsimp only
  repeat' first
    | with_reducible assumption
    | intro _
    | exact land_trans hm rfl
    | exact testBit_of_land hm (by decide)
    | with_reducible apply putFrames_frame
    | with_reducible apply setAllocQ_frame
    | with_reducible apply ite_frame
    | (split <;> try (rename_i hq; replace hq := congrArg Prod.snd hq; dsimp only at hq; subst hq))
    | (rename_i hq; replace hq := congrArg Prod.snd hq; dsimp only at hq; subst hq)
    | (rename_i hq; injection hq with hq; subst hq)

theorem setRefilling_frame {m : Nat} {r u : State} {x0 x1} (h : Frame m r u) (hm : m &&& 524288 = 524288) : Frame m r (setRefilling x0 x1 u) := by
  unfold setRefilling
  try dsimp only
  repeat' first
    | with_reducible assumption
    | intro _
    | exact land_trans hm rfl
    | exact testBit_of_land hm (by decide)
    | with_reducible apply setQueue_frame
    | with_reducible apply setAllocQ_frame
    | with_reducible apply ite_frame
    | (split <;> try (rename_i hq; replace hq := congrArg Prod.snd hq; dsimp only at hq; subst hq))
    | (rename_i hq; replace hq := congrArg Prod.snd hq; dsimp only at hq; subst hq)
    | (rename_i hq; injection hq with hq; subst hq)

theorem dropDram_frame {m : Nat} {r u : State} {x0 x1} (h : Frame m r u) (hm : m &&& 83562884368398 = 83562884368398) : Frame m r (dropDram x0 x1 u).2 := by
  unfold dropDram
  try dsimp only
  repeat' first
    | with_reducible assumption
    | intro _
    | exact land_trans hm rfl
    | exact testBit_of_land hm (by decide)
    | with_reducible apply countN_frame
    | with_reducible apply freeFrames_frame
    | with_reducible apply ite_frame
    | (split <;> try (rename_i hq; replace hq := congrArg Prod.snd hq; dsimp only at hq; subst hq))
    | (rename_i hq; replace hq := congrArg Prod.snd hq; dsimp only at hq; subst hq)
    | (rename_i hq; injection hq with hq; subst hq)

theorem discardDram_frame {m : Nat} {r u : State} (h : Frame m r u) (hm : m &&& 83562884368398 = 83562884368398) : Frame m r (discardDram u) := by
  unfold discardDram
  try dsimp only
  repeat' first
    | with_reducible assumption
    | intro _
    | exact land_trans hm rfl
    | exact testBit_of_land hm (by decide)
    | with_reducible apply each_frame
    | with_reducible apply dropDram_frame
    | with_reducible apply putFrames_frame
    | with_reducible apply setAllocQ_frame
    | with_reducible apply ite_frame
    | (split <;> try (rename_i hq; replace hq := congrArg Prod.snd hq; dsimp only at hq; subst hq))
    | (rename_i hq; replace hq := congrArg Prod.snd hq; dsimp only at hq; subst hq)
    | (rename_i hq; injection hq with hq; subst hq)

theorem setPolicer_frame {m : Nat} {r u : State} {x0 x1} (h : Frame m r u) (hm : m &&& 524288 = 524288) : Frame m r (setPolicer x0 x1 u) := by
  unfold setPolicer
  try dsimp only
  repeat' first
    | with_reducible assumption
    | intro _
    | exact land_trans hm rfl
    | exact testBit_of_land hm (by decide)
    | with_reducible apply ite_frame
    | (split <;> try (rename_i hq; replace hq := congrArg Prod.snd hq; dsimp only at hq; subst hq))
    | (rename_i hq; replace hq := congrArg Prod.snd hq; dsimp only at hq; subst hq)
    | (rename_i hq; injection hq with hq; subst hq)
    | (with_reducible refine Frame.lit ?_ rfl; first | with_reducible assumption | split)

theorem police_frame {m : Nat} {r u : State} {x0 x1 x2 x3} (h : Frame m r u) (hm : m &&& 524288 = 524288) : Frame m r (police x0 x1 x2 x3 u).2 := by
  unfold police
  try dsimp only
  repeat' first
    | with_reducible assumption
    | intro _
    | exact land_trans hm rfl
    | exact testBit_of_land hm (by decide)
    | with_reducible apply setPolicer_frame
    | with_reducible apply ite_frame
    | (split <;> try (rename_i hq; replace hq := congrArg Prod.snd hq; dsimp only at hq; subst hq))
    | (rename_i hq; replace hq := congrArg Prod.snd hq; dsimp only at hq; subst hq)
    | (rename_i hq; injection hq with hq; subst hq)

theorem policerWrite_frame {m : Nat} {r u : State} {x0} (h : Frame m r u) (hm : m &&& 524296 = 524296) : Frame m r (policerWrite x0 u) := by
  unfold policerWrite
  try dsimp only
  repeat' first
    | with_reducible assumption
    | intro _
    | exact land_trans hm rfl
    | exact testBit_of_land hm (by decide)
    | with_reducible apply setReg_frame
    | with_reducible apply setPolicer_frame
    | with_reducible apply ite_frame
    | (split <;> try (rename_i hq; replace hq := congrArg Prod.snd hq; dsimp only at hq; subst hq))
    | (rename_i hq; replace hq := congrArg Prod.snd hq; dsimp only at hq; subst hq)
    | (rename_i hq; injection hq with hq; subst hq)

theorem policerRead_frame {m : Nat} {r u : State} {x0} (h : Frame m r u) (hm : m &&& 8 = 8) : Frame m r (policerRead x0 u) := by
  unfold policerRead
  try dsimp only
  repeat' first
    | with_reducible assumption
    | intro _
    | exact land_trans hm rfl
    | exact testBit_of_land hm (by decide)
    | with_reducible apply each_frame
    | with_reducible apply setReg_frame
    | with_reducible apply setRfld_frame
    | with_reducible apply ite_frame
    | (split <;> try (rename_i hq; replace hq := congrArg Prod.snd hq; dsimp only at hq; subst hq))
    | (rename_i hq; replace hq := congrArg Prod.snd hq; dsimp only at hq; subst hq)
    | (rename_i hq; injection hq with hq; subst hq)

theorem policerReadClear_frame {m : Nat} {r u : State} {x0} (h : Frame m r u) (hm : m &&& 524296 = 524296) : Frame m r (policerReadClear x0 u) := by
  unfold policerReadClear
  try dsimp only
  repeat' first
    | with_reducible assumption
    | intro _
    | exact land_trans hm rfl
    | exact testBit_of_land hm (by decide)
    | with_reducible apply policerRead_frame
    | with_reducible apply setPolicer_frame
    | with_reducible apply ite_frame
    | (split <;> try (rename_i hq; replace hq := congrArg Prod.snd hq; dsimp only at hq; subst hq))
    | (rename_i hq; replace hq := congrArg Prod.snd hq; dsimp only at hq; subst hq)
    | (rename_i hq; injection hq with hq; subst hq)

theorem portEdge_frame {m : Nat} {r u : State} {x0} (h : Frame m r u) (hm : m &&& 524288 = 524288) : Frame m r (portEdge x0 u) := by
  unfold portEdge
  try dsimp only
  repeat' first
    | with_reducible assumption
    | intro _
    | exact land_trans hm rfl
    | exact testBit_of_land hm (by decide)
    | with_reducible apply setSched_frame
    | with_reducible apply ite_frame
    | (split <;> try (rename_i hq; replace hq := congrArg Prod.snd hq; dsimp only at hq; subst hq))
    | (rename_i hq; replace hq := congrArg Prod.snd hq; dsimp only at hq; subst hq)
    | (rename_i hq; injection hq with hq; subst hq)

theorem allocEdge_frame {m : Nat} {r u : State} {x0} (h : Frame m r u) (hm : m &&& 524288 = 524288) : Frame m r (allocEdge x0 u) := by
  unfold allocEdge
  try dsimp only
  repeat' first
    | with_reducible assumption
    | intro _
    | exact land_trans hm rfl
    | exact testBit_of_land hm (by decide)
    | with_reducible apply setAllocQ_frame
    | with_reducible apply ite_frame
    | (split <;> try (rename_i hq; replace hq := congrArg Prod.snd hq; dsimp only at hq; subst hq))
    | (rename_i hq; replace hq := congrArg Prod.snd hq; dsimp only at hq; subst hq)
    | (rename_i hq; injection hq with hq; subst hq)

theorem schedEdge_frame {m : Nat} {r u : State} (h : Frame m r u) (hm : m &&& 655360 = 655360) : Frame m r (schedEdge u) := by
  unfold schedEdge
  try dsimp only
  repeat' first
    | with_reducible assumption
    | intro _
    | exact land_trans hm rfl
    | exact testBit_of_land hm (by decide)
    | with_reducible apply each_frame
    | with_reducible apply allocEdge_frame
    | with_reducible apply portEdge_frame
    | with_reducible apply strictAtEdge_frame
    | with_reducible apply ite_frame
    | (split <;> try (rename_i hq; replace hq := congrArg Prod.snd hq; dsimp only at hq; subst hq))
    | (rename_i hq; replace hq := congrArg Prod.snd hq; dsimp only at hq; subst hq)
    | (rename_i hq; injection hq with hq; subst hq)
    | (with_reducible refine Frame.lit ?_ rfl; first | with_reducible assumption | with_reducible apply each_frame | with_reducible apply allocEdge_frame | with_reducible apply portEdge_frame | with_reducible apply strictAtEdge_frame| split)

theorem flushPort_frame {m : Nat} {r u : State} {x0 x1} (h : Frame m r u) (hm : m &&& 83562884368398 = 83562884368398) : Frame m r (flushPort x0 x1 u) := by
  unfold flushPort
  try dsimp only
  repeat' first
    | with_reducible assumption
    | intro _
    | exact land_trans hm rfl
    | exact testBit_of_land hm (by decide)
    | with_reducible apply each_frame
    | with_reducible apply countN_frame
    | with_reducible apply modSched_frame
    | with_reducible apply freeFrames_frame
    | with_reducible apply ite_frame
    | (split <;> try (rename_i hq; replace hq := congrArg Prod.snd hq; dsimp only at hq; subst hq))
    | (rename_i hq; replace hq := congrArg Prod.snd hq; dsimp only at hq; subst hq)
    | (rename_i hq; injection hq with hq; subst hq)

end Sys2Proof.Machine
end

