-- ==== Sys2Proof/Laws/FrameIdentOps.lean ====
section
/-! SUPPORT. The frames of the operations of Machine/IdentOps.lean: each changes nothing outside its mask (see Laws/Frame.lean). -/
set_option Elab.async false
set_option linter.all false

namespace Sys2Proof.Machine

theorem setIdent_frame {m : Nat} {r u : State} {x0 x1} (h : Frame m r u) (hm : m &&& 8388608 = 8388608) : Frame m r (setIdent x0 x1 u) := by
  unfold setIdent
  try dsimp only
  repeat' first
    | with_reducible assumption
    | intro _
    | exact land_trans hm rfl
    | exact testBit_of_land hm (by decide)
    | with_reducible apply ite_frame
    | (split <;> try (rename_i hq; replace hq := congrArg Prod.snd hq; dsimp only at hq; subst hq))
    | (rename_i hq; replace hq := congrArg Prod.snd hq; dsimp only at hq; subst hq)
    | (rename_i hq; injection hq with hq; subst hq)
    | (with_reducible refine Frame.lit ?_ rfl; first | with_reducible assumption | split)

theorem modIdent_frame {m : Nat} {r u : State} {x0 x1} (h : Frame m r u) (hm : m &&& 8388608 = 8388608) : Frame m r (modIdent x0 x1 u) := by
  unfold modIdent
  try dsimp only
  repeat' first
    | with_reducible assumption
    | intro _
    | exact land_trans hm rfl
    | exact testBit_of_land hm (by decide)
    | with_reducible apply setIdent_frame
    | with_reducible apply ite_frame
    | (split <;> try (rename_i hq; replace hq := congrArg Prod.snd hq; dsimp only at hq; subst hq))
    | (rename_i hq; replace hq := congrArg Prod.snd hq; dsimp only at hq; subst hq)
    | (rename_i hq; injection hq with hq; subst hq)

theorem queueMsg_frame {m : Nat} {r u : State} {x0 x1 x2 x3} (h : Frame m r u) (hm : m &&& 8388608 = 8388608) : Frame m r (queueMsg x0 x1 x2 x3 u) := by
  unfold queueMsg
  try dsimp only
  repeat' first
    | with_reducible assumption
    | intro _
    | exact land_trans hm rfl
    | exact testBit_of_land hm (by decide)
    | with_reducible apply modIdent_frame
    | with_reducible apply ite_frame
    | (split <;> try (rename_i hq; replace hq := congrArg Prod.snd hq; dsimp only at hq; subst hq))
    | (rename_i hq; replace hq := congrArg Prod.snd hq; dsimp only at hq; subst hq)
    | (rename_i hq; injection hq with hq; subst hq)

theorem dozeWake_frame {m : Nat} {r u : State} {x0} (h : Frame m r u) (hm : m &&& 8388616 = 8388616) : Frame m r (dozeWake x0 u) := by
  unfold dozeWake
  try dsimp only
  repeat' first
    | with_reducible assumption
    | intro _
    | exact land_trans hm rfl
    | exact testBit_of_land hm (by decide)
    | with_reducible apply when'_frame
    | with_reducible apply queueMsg_frame
    | with_reducible apply count_frame
    | with_reducible apply setIdent_frame
    | with_reducible apply ite_frame
    | (split <;> try (rename_i hq; replace hq := congrArg Prod.snd hq; dsimp only at hq; subst hq))
    | (rename_i hq; replace hq := congrArg Prod.snd hq; dsimp only at hq; subst hq)
    | (rename_i hq; injection hq with hq; subst hq)

theorem dozeWakeAll_frame {m : Nat} {r u : State} (h : Frame m r u) (hm : m &&& 8388616 = 8388616) : Frame m r (dozeWakeAll u) := by
  unfold dozeWakeAll
  try dsimp only
  repeat' first
    | with_reducible assumption
    | intro _
    | exact land_trans hm rfl
    | exact testBit_of_land hm (by decide)
    | with_reducible apply each_frame
    | with_reducible apply dozeWake_frame
    | with_reducible apply ite_frame
    | (split <;> try (rename_i hq; replace hq := congrArg Prod.snd hq; dsimp only at hq; subst hq))
    | (rename_i hq; replace hq := congrArg Prod.snd hq; dsimp only at hq; subst hq)
    | (rename_i hq; injection hq with hq; subst hq)

end Sys2Proof.Machine
end

