-- ==== Sys2Proof/Laws/FramePower.lean ====
section
/-! SUPPORT. The frames of the operations of Machine/Power.lean: each changes nothing outside its mask (see Laws/Frame.lean). -/
set_option Elab.async false
set_option linter.all false

namespace Sys2Proof.Machine

theorem setVotes_frame {m : Nat} {r u : State} {x0 x1} (h : Frame m r u) (hm : m &&& 1099511631872 = 1099511631872) : Frame m r (setVotes x0 x1 u) := by
  unfold setVotes
  try dsimp only
  repeat' first
    | with_reducible assumption
    | intro _
    | exact land_trans hm rfl
    | exact testBit_of_land hm (by decide)
    | with_reducible apply ite_frame
    | (split <;> try (rename_i hq; replace hq := congrArg Prod.snd hq; dsimp only at hq; subst hq))
    | (rename_i hq; replace hq := congrArg Prod.snd hq; dsimp only at hq; subst hq)
    | (rename_i hq; injection hq with hq; subst hq)
    | (with_reducible refine Frame.lit ?_ rfl; first | with_reducible assumption | split)

theorem refuseEntry_frame {m : Nat} {r u : State} {x0 x1 x2 x3 x4} (h : Frame m r u) (hm : m &&& 70368744183816 = 70368744183816) : Frame m r (refuseEntry x0 x1 x2 x3 x4 u) := by
  unfold refuseEntry
  try dsimp only
  repeat' first
    | with_reducible assumption
    | intro _
    | exact land_trans hm rfl
    | exact testBit_of_land hm (by decide)
    | with_reducible apply each_frame
    | with_reducible apply setReg_frame
    | with_reducible apply count_frame
    | with_reducible apply event_frame
    | with_reducible apply ite_frame
    | (split <;> try (rename_i hq; replace hq := congrArg Prod.snd hq; dsimp only at hq; subst hq))
    | (rename_i hq; replace hq := congrArg Prod.snd hq; dsimp only at hq; subst hq)
    | (rename_i hq; injection hq with hq; subst hq)
    | (with_reducible refine Frame.lit ?_ rfl; first | with_reducible assumption | with_reducible apply each_frame | with_reducible apply setReg_frame | with_reducible apply count_frame | with_reducible apply event_frame| split)

theorem ladderEvent_frame {m : Nat} {r u : State} {x0 x1 x2} (h : Frame m r u) (hm : m &&& 70368744179720 = 70368744179720) : Frame m r (ladderEvent x0 x1 x2 u) := by
  unfold ladderEvent
  try dsimp only
  repeat' first
    | with_reducible assumption
    | intro _
    | exact land_trans hm rfl
    | exact testBit_of_land hm (by decide)
    | with_reducible apply event_frame
    | with_reducible apply ite_frame
    | (split <;> try (rename_i hq; replace hq := congrArg Prod.snd hq; dsimp only at hq; subst hq))
    | (rename_i hq; replace hq := congrArg Prod.snd hq; dsimp only at hq; subst hq)
    | (rename_i hq; injection hq with hq; subst hq)

theorem gateShed_frame {m : Nat} {r u : State} (h : Frame m r u) (hm : m &&& 68719480832 = 68719480832) : Frame m r (gateShed u) := by
  unfold gateShed
  try dsimp only
  repeat' first
    | with_reducible assumption
    | intro _
    | exact land_trans hm rfl
    | exact testBit_of_land hm (by decide)
    | with_reducible apply each_frame
    | with_reducible apply setDom_frame
    | with_reducible apply ite_frame
    | (split <;> try (rename_i hq; replace hq := congrArg Prod.snd hq; dsimp only at hq; subst hq))
    | (rename_i hq; replace hq := congrArg Prod.snd hq; dsimp only at hq; subst hq)
    | (rename_i hq; injection hq with hq; subst hq)

theorem ungateShed_frame {m : Nat} {r u : State} (h : Frame m r u) (hm : m &&& 68719480832 = 68719480832) : Frame m r (ungateShed u) := by
  unfold ungateShed
  try dsimp only
  repeat' first
    | with_reducible assumption
    | intro _
    | exact land_trans hm rfl
    | exact testBit_of_land hm (by decide)
    | with_reducible apply each_frame
    | with_reducible apply setDom_frame
    | with_reducible apply ite_frame
    | (split <;> try (rename_i hq; replace hq := congrArg Prod.snd hq; dsimp only at hq; subst hq))
    | (rename_i hq; replace hq := congrArg Prod.snd hq; dsimp only at hq; subst hq)
    | (rename_i hq; injection hq with hq; subst hq)

theorem abortEntry_frame {m : Nat} {r u : State} {x0} (h : Frame m r u) (hm : m &&& 71536975288328 = 71536975288328) : Frame m r (abortEntry x0 u) := by
  unfold abortEntry
  try dsimp only
  repeat' first
    | with_reducible assumption
    | intro _
    | exact land_trans hm rfl
    | exact testBit_of_land hm (by decide)
    | with_reducible apply when'_frame
    | with_reducible apply setVotes_frame
    | with_reducible apply refuseEntry_frame
    | with_reducible apply ite_frame
    | (split <;> try (rename_i hq; replace hq := congrArg Prod.snd hq; dsimp only at hq; subst hq))
    | (rename_i hq; replace hq := congrArg Prod.snd hq; dsimp only at hq; subst hq)
    | (rename_i hq; injection hq with hq; subst hq)
    | (with_reducible refine Frame.lit ?_ rfl; first | with_reducible assumption | with_reducible apply when'_frame | with_reducible apply setVotes_frame | with_reducible apply refuseEntry_frame| split)

theorem wakeFires_frame {m : Nat} {r u : State} {x0 x1} (h : Frame m r u) (hm : m &&& 71536983676936 = 71536983676936) : Frame m r (wakeFires x0 x1 u) := by
  unfold wakeFires
  try dsimp only
  repeat' first
    | with_reducible assumption
    | intro _
    | exact land_trans hm rfl
    | exact testBit_of_land hm (by decide)
    | with_reducible apply when'_frame
    | with_reducible apply dozeWakeAll_frame
    | with_reducible apply abortEntry_frame
    | with_reducible apply setVotes_frame
    | with_reducible apply ite_frame
    | (split <;> try (rename_i hq; replace hq := congrArg Prod.snd hq; dsimp only at hq; subst hq))
    | (rename_i hq; replace hq := congrArg Prod.snd hq; dsimp only at hq; subst hq)
    | (rename_i hq; injection hq with hq; subst hq)
    | (with_reducible refine Frame.lit ?_ rfl; first | with_reducible assumption | with_reducible apply when'_frame | with_reducible apply dozeWakeAll_frame | with_reducible apply abortEntry_frame | with_reducible apply setVotes_frame| split)

theorem abortDrop_frame {m : Nat} {r u : State} {x0} (h : Frame m r u) (hm : m &&& 70437463660552 = 70437463660552) : Frame m r (abortDrop x0 u) := by
  unfold abortDrop
  try dsimp only
  repeat' first
    | with_reducible assumption
    | intro _
    | exact land_trans hm rfl
    | exact testBit_of_land hm (by decide)
    | with_reducible apply setDom_frame
    | with_reducible apply refuseEntry_frame
    | with_reducible apply ite_frame
    | (split <;> try (rename_i hq; replace hq := congrArg Prod.snd hq; dsimp only at hq; subst hq))
    | (rename_i hq; replace hq := congrArg Prod.snd hq; dsimp only at hq; subst hq)
    | (rename_i hq; injection hq with hq; subst hq)

theorem wakeDomain_frame {m : Nat} {r u : State} {x0} (h : Frame m r u) (hm : m &&& 71536983676936 = 71536983676936) : Frame m r (wakeDomain x0 u) := by
  unfold wakeDomain
  try dsimp only
  repeat' first
    | with_reducible assumption
    | intro _
    | exact land_trans hm rfl
    | exact testBit_of_land hm (by decide)
    | with_reducible apply setDom_frame
    | with_reducible apply setVotes_frame
    | with_reducible apply wakeFires_frame
    | with_reducible apply abortDrop_frame
    | with_reducible apply ite_frame
    | (split <;> try (rename_i hq; replace hq := congrArg Prod.snd hq; dsimp only at hq; subst hq))
    | (rename_i hq; replace hq := congrArg Prod.snd hq; dsimp only at hq; subst hq)
    | (rename_i hq; injection hq with hq; subst hq)

theorem accessWake_frame {m : Nat} {r u : State} {x0 x1 x2 x3 x4} (h : Frame m r u) (hm : m &&& 71541278644232 = 71541278644232) : Frame m r (accessWake x0 x1 x2 x3 x4 u) := by
  unfold accessWake
  try dsimp only
  repeat' first
    | with_reducible assumption
    | intro _
    | exact land_trans hm rfl
    | exact testBit_of_land hm (by decide)
    | with_reducible apply wakeDomain_frame
    | with_reducible apply ite_frame
    | (split <;> try (rename_i hq; replace hq := congrArg Prod.snd hq; dsimp only at hq; subst hq))
    | (rename_i hq; replace hq := congrArg Prod.snd hq; dsimp only at hq; subst hq)
    | (rename_i hq; injection hq with hq; subst hq)
    | (with_reducible refine Frame.lit ?_ rfl; first | with_reducible assumption | with_reducible apply wakeDomain_frame| split)

theorem completeAsAbsent_frame {m : Nat} {r u : State} {x0} (h : Frame m r u) (hm : m &&& 12 = 12) : Frame m r (completeAsAbsent x0 u) := by
  unfold completeAsAbsent
  try dsimp only
  repeat' first
    | with_reducible assumption
    | intro _
    | exact land_trans hm rfl
    | exact testBit_of_land hm (by decide)
    | with_reducible apply sendResponse_frame
    | with_reducible apply emit_frame
    | with_reducible apply ite_frame
    | (split <;> try (rename_i hq; replace hq := congrArg Prod.snd hq; dsimp only at hq; subst hq))
    | (rename_i hq; replace hq := congrArg Prod.snd hq; dsimp only at hq; subst hq)
    | (rename_i hq; injection hq with hq; subst hq)

theorem wakeFail_frame {m : Nat} {r u : State} {x0} (h : Frame m r u) (hm : m &&& 70373039151116 = 70373039151116) : Frame m r (wakeFail x0 u) := by
  unfold wakeFail
  try dsimp only
  repeat' first
    | with_reducible assumption
    | intro _
    | exact land_trans hm rfl
    | exact testBit_of_land hm (by decide)
    | with_reducible apply each_frame
    | with_reducible apply count_frame
    | with_reducible apply completeAsAbsent_frame
    | with_reducible apply event_frame
    | with_reducible apply ite_frame
    | (split <;> try (rename_i hq; replace hq := congrArg Prod.snd hq; dsimp only at hq; subst hq))
    | (rename_i hq; replace hq := congrArg Prod.snd hq; dsimp only at hq; subst hq)
    | (rename_i hq; injection hq with hq; subst hq)
    | (with_reducible refine Frame.lit ?_ rfl; first | with_reducible assumption | with_reducible apply each_frame | with_reducible apply count_frame | with_reducible apply completeAsAbsent_frame | with_reducible apply event_frame| split)

theorem domainDrop_frame {m : Nat} {r u : State} {x0 x1} (h : Frame m r u) (hm : m &&& 70437463660552 = 70437463660552) : Frame m r (domainDrop x0 x1 u) := by
  unfold domainDrop
  try dsimp only
  repeat' first
    | with_reducible assumption
    | intro _
    | exact land_trans hm rfl
    | exact testBit_of_land hm (by decide)
    | with_reducible apply refuseEntry_frame
    | with_reducible apply setDom_frame
    | with_reducible apply ite_frame
    | (split <;> try (rename_i hq; replace hq := congrArg Prod.snd hq; dsimp only at hq; subst hq))
    | (rename_i hq; replace hq := congrArg Prod.snd hq; dsimp only at hq; subst hq)
    | (rename_i hq; injection hq with hq; subst hq)

theorem raiseVoted_frame {m : Nat} {r u : State} (h : Frame m r u) (hm : m &&& 68719480832 = 68719480832) : Frame m r (raiseVoted u) := by
  unfold raiseVoted
  try dsimp only
  repeat' first
    | with_reducible assumption
    | intro _
    | exact land_trans hm rfl
    | exact testBit_of_land hm (by decide)
    | with_reducible apply each_frame
    | with_reducible apply setDom_frame
    | with_reducible apply ite_frame
    | (split <;> try (rename_i hq; replace hq := congrArg Prod.snd hq; dsimp only at hq; subst hq))
    | (rename_i hq; replace hq := congrArg Prod.snd hq; dsimp only at hq; subst hq)
    | (rename_i hq; injection hq with hq; subst hq)

end Sys2Proof.Machine
end

