-- ==== Sys2Proof/Laws/FrameLanes.lean ====
section
/-! SUPPORT. The frames of the operations of Machine/Lanes.lean: each changes nothing outside its mask (see Laws/Frame.lean). -/
set_option Elab.async false
set_option linter.all false

namespace Sys2Proof.Machine

theorem portLinkEvent_frame {m : Nat} {r u : State} {x0 x1} (h : Frame m r u) (hm : m &&& 70368744179720 = 70368744179720) : Frame m r (portLinkEvent x0 x1 u) := by
  unfold portLinkEvent
  try dsimp only
  repeat' first
    | with_reducible assumption
    | intro _
    | exact land_trans hm rfl
    | exact testBit_of_land hm (by decide)
    | with_reducible apply event_frame
    | with_reducible apply ite_frame
    | (split <;> try (rename_i hq; replace hq := congrArg Prod.snd hq; dsimp only at hq; subst hq))
    | (rename_i hq; replace hq := congrArg Prod.snd hq; dsimp only at hq; subst hq)
    | (rename_i hq; injection hq with hq; subst hq)

theorem loseEee_frame {m : Nat} {r u : State} {x0} (h : Frame m r u) (hm : m &&& 1572876 = 1572876) : Frame m r (loseEee x0 u) := by
  unfold loseEee
  try dsimp only
  repeat' first
    | with_reducible assumption
    | intro _
    | exact land_trans hm rfl
    | exact testBit_of_land hm (by decide)
    | with_reducible apply modPort_frame
    | with_reducible apply lpiDrop_frame
    | with_reducible apply ite_frame
    | (split <;> try (rename_i hq; replace hq := congrArg Prod.snd hq; dsimp only at hq; subst hq))
    | (rename_i hq; replace hq := congrArg Prod.snd hq; dsimp only at hq; subst hq)
    | (rename_i hq; injection hq with hq; subst hq)

theorem lpiRxEnd_frame {m : Nat} {r u : State} {x0} (h : Frame m r u) (hm : m &&& 1048584 = 1048584) : Frame m r (lpiRxEnd x0 u) := by
  unfold lpiRxEnd
  try dsimp only
  repeat' first
    | with_reducible assumption
    | intro _
    | exact land_trans hm rfl
    | exact testBit_of_land hm (by decide)
    | with_reducible apply when'_frame
    | with_reducible apply count64_frame
    | with_reducible apply setPort_frame
    | with_reducible apply ite_frame
    | (split <;> try (rename_i hq; replace hq := congrArg Prod.snd hq; dsimp only at hq; subst hq))
    | (rename_i hq; replace hq := congrArg Prod.snd hq; dsimp only at hq; subst hq)
    | (rename_i hq; injection hq with hq; subst hq)

theorem portDown_frame {m : Nat} {r u : State} {x0 x1} (h : Frame m r u) (hm : m &&& 83562885416974 = 83562885416974) : Frame m r (portDown x0 x1 u) := by
  unfold portDown
  try dsimp only
  repeat' first
    | with_reducible assumption
    | intro _
    | exact land_trans hm rfl
    | exact testBit_of_land hm (by decide)
    | with_reducible apply flushPort_frame
    | with_reducible apply lpiRxEnd_frame
    | with_reducible apply loseEee_frame
    | with_reducible apply portLinkEvent_frame
    | with_reducible apply modPort_frame
    | with_reducible apply ite_frame
    | (split <;> try (rename_i hq; replace hq := congrArg Prod.snd hq; dsimp only at hq; subst hq))
    | (rename_i hq; replace hq := congrArg Prod.snd hq; dsimp only at hq; subst hq)
    | (rename_i hq; injection hq with hq; subst hq)

theorem holdLane_frame {m : Nat} {r u : State} {x0 x1} (h : Frame m r u) (hm : m &&& 536870912 = 536870912) : Frame m r (holdLane x0 x1 u) := by
  unfold holdLane
  try dsimp only
  repeat' first
    | with_reducible assumption
    | intro _
    | exact land_trans hm rfl
    | exact testBit_of_land hm (by decide)
    | with_reducible apply modLane_frame
    | with_reducible apply ite_frame
    | (split <;> try (rename_i hq; replace hq := congrArg Prod.snd hq; dsimp only at hq; subst hq))
    | (rename_i hq; replace hq := congrArg Prod.snd hq; dsimp only at hq; subst hq)
    | (rename_i hq; injection hq with hq; subst hq)

theorem startTrain_frame {m : Nat} {r u : State} {x0} (h : Frame m r u) (hm : m &&& 536870912 = 536870912) : Frame m r (startTrain x0 u) := by
  unfold startTrain
  try dsimp only
  repeat' first
    | with_reducible assumption
    | intro _
    | exact land_trans hm rfl
    | exact testBit_of_land hm (by decide)
    | with_reducible apply holdLane_frame
    | with_reducible apply modLane_frame
    | with_reducible apply ite_frame
    | (split <;> try (rename_i hq; replace hq := congrArg Prod.snd hq; dsimp only at hq; subst hq))
    | (rename_i hq; replace hq := congrArg Prod.snd hq; dsimp only at hq; subst hq)
    | (rename_i hq; injection hq with hq; subst hq)

theorem sleepLane_frame {m : Nat} {r u : State} {x0 x1} (h : Frame m r u) (hm : m &&& 536870912 = 536870912) : Frame m r (sleepLane x0 x1 u) := by
  unfold sleepLane
  try dsimp only
  repeat' first
    | with_reducible assumption
    | intro _
    | exact land_trans hm rfl
    | exact testBit_of_land hm (by decide)
    | with_reducible apply modLane_frame
    | with_reducible apply ite_frame
    | (split <;> try (rename_i hq; replace hq := congrArg Prod.snd hq; dsimp only at hq; subst hq))
    | (rename_i hq; replace hq := congrArg Prod.snd hq; dsimp only at hq; subst hq)
    | (rename_i hq; injection hq with hq; subst hq)

theorem laneOffNow_frame {m : Nat} {r u : State} {x0} (h : Frame m r u) (hm : m &&& 536870912 = 536870912) : Frame m r (laneOffNow x0 u) := by
  unfold laneOffNow
  try dsimp only
  repeat' first
    | with_reducible assumption
    | intro _
    | exact land_trans hm rfl
    | exact testBit_of_land hm (by decide)
    | with_reducible apply sleepLane_frame
    | with_reducible apply ite_frame
    | (split <;> try (rename_i hq; replace hq := congrArg Prod.snd hq; dsimp only at hq; subst hq))
    | (rename_i hq; replace hq := congrArg Prod.snd hq; dsimp only at hq; subst hq)
    | (rename_i hq; injection hq with hq; subst hq)

theorem laneOff_frame {m : Nat} {r u : State} {x0} (h : Frame m r u) (hm : m &&& 536870912 = 536870912) : Frame m r (laneOff x0 u) := by
  unfold laneOff
  try dsimp only
  repeat' first
    | with_reducible assumption
    | intro _
    | exact land_trans hm rfl
    | exact testBit_of_land hm (by decide)
    | with_reducible apply holdLane_frame
    | with_reducible apply laneOffNow_frame
    | with_reducible apply ite_frame
    | (split <;> try (rename_i hq; replace hq := congrArg Prod.snd hq; dsimp only at hq; subst hq))
    | (rename_i hq; replace hq := congrArg Prod.snd hq; dsimp only at hq; subst hq)
    | (rename_i hq; injection hq with hq; subst hq)

theorem laneDeep_frame {m : Nat} {r u : State} {x0} (h : Frame m r u) (hm : m &&& 536870912 = 536870912) : Frame m r (laneDeep x0 u) := by
  unfold laneDeep
  try dsimp only
  repeat' first
    | with_reducible assumption
    | intro _
    | exact land_trans hm rfl
    | exact testBit_of_land hm (by decide)
    | with_reducible apply sleepLane_frame
    | with_reducible apply ite_frame
    | (split <;> try (rename_i hq; replace hq := congrArg Prod.snd hq; dsimp only at hq; subst hq))
    | (rename_i hq; replace hq := congrArg Prod.snd hq; dsimp only at hq; subst hq)
    | (rename_i hq; injection hq with hq; subst hq)

theorem laneIdle_frame {m : Nat} {r u : State} {x0} (h : Frame m r u) (hm : m &&& 536870912 = 536870912) : Frame m r (laneIdle x0 u) := by
  unfold laneIdle
  try dsimp only
  repeat' first
    | with_reducible assumption
    | intro _
    | exact land_trans hm rfl
    | exact testBit_of_land hm (by decide)
    | with_reducible apply modLane_frame
    | with_reducible apply ite_frame
    | (split <;> try (rename_i hq; replace hq := congrArg Prod.snd hq; dsimp only at hq; subst hq))
    | (rename_i hq; replace hq := congrArg Prod.snd hq; dsimp only at hq; subst hq)
    | (rename_i hq; injection hq with hq; subst hq)

theorem laneTrain_frame {m : Nat} {r u : State} {x0} (h : Frame m r u) (hm : m &&& 536870914 = 536870914) : Frame m r (laneTrain x0 u) := by
  unfold laneTrain
  try dsimp only
  repeat' first
    | with_reducible assumption
    | intro _
    | exact land_trans hm rfl
    | exact testBit_of_land hm (by decide)
    | with_reducible apply holdLane_frame
    | with_reducible apply nextFree_frame
    | with_reducible apply setLane_frame
    | with_reducible apply ite_frame
    | (split <;> try (rename_i hq; replace hq := congrArg Prod.snd hq; dsimp only at hq; subst hq))
    | (rename_i hq; replace hq := congrArg Prod.snd hq; dsimp only at hq; subst hq)
    | (rename_i hq; injection hq with hq; subst hq)

theorem retrainLane_frame {m : Nat} {r u : State} {x0} (h : Frame m r u) (hm : m &&& 536870912 = 536870912) : Frame m r (retrainLane x0 u) := by
  unfold retrainLane
  try dsimp only
  repeat' first
    | with_reducible assumption
    | intro _
    | exact land_trans hm rfl
    | exact testBit_of_land hm (by decide)
    | with_reducible apply setLane_frame
    | with_reducible apply ite_frame
    | (split <;> try (rename_i hq; replace hq := congrArg Prod.snd hq; dsimp only at hq; subst hq))
    | (rename_i hq; replace hq := congrArg Prod.snd hq; dsimp only at hq; subst hq)
    | (rename_i hq; injection hq with hq; subst hq)

theorem retrainWindow_frame {m : Nat} {r u : State} (h : Frame m r u) (hm : m &&& 536870912 = 536870912) : Frame m r (retrainWindow u) := by
  unfold retrainWindow
  try dsimp only
  repeat' first
    | with_reducible assumption
    | intro _
    | exact land_trans hm rfl
    | exact testBit_of_land hm (by decide)
    | with_reducible apply each_frame
    | with_reducible apply retrainLane_frame
    | with_reducible apply ite_frame
    | (split <;> try (rename_i hq; replace hq := congrArg Prod.snd hq; dsimp only at hq; subst hq))
    | (rename_i hq; replace hq := congrArg Prod.snd hq; dsimp only at hq; subst hq)
    | (rename_i hq; injection hq with hq; subst hq)

theorem retrainWaiting_frame {m : Nat} {r u : State} (h : Frame m r u) (hm : m &&& 536870912 = 536870912) : Frame m r (retrainWaiting u) := by
  unfold retrainWaiting
  try dsimp only
  repeat' first
    | with_reducible assumption
    | intro _
    | exact land_trans hm rfl
    | exact testBit_of_land hm (by decide)
    | with_reducible apply each_frame
    | with_reducible apply retrainLane_frame
    | with_reducible apply ite_frame
    | (split <;> try (rename_i hq; replace hq := congrArg Prod.snd hq; dsimp only at hq; subst hq))
    | (rename_i hq; replace hq := congrArg Prod.snd hq; dsimp only at hq; subst hq)
    | (rename_i hq; injection hq with hq; subst hq)

theorem laneWake_frame {m : Nat} {r u : State} {x0 x1} (h : Frame m r u) (hm : m &&& 71537520547852 = 71537520547852) : Frame m r (laneWake x0 x1 u) := by
  unfold laneWake
  try dsimp only
  repeat' first
    | with_reducible assumption
    | intro _
    | exact land_trans hm rfl
    | exact testBit_of_land hm (by decide)
    | with_reducible apply when'_frame
    | with_reducible apply modLane_frame
    | with_reducible apply wakeFires_frame
    | with_reducible apply holdLane_frame
    | with_reducible apply emit_frame
    | with_reducible apply setLane_frame
    | with_reducible apply startTrain_frame
    | with_reducible apply ite_frame
    | (split <;> try (rename_i hq; replace hq := congrArg Prod.snd hq; dsimp only at hq; subst hq))
    | (rename_i hq; replace hq := congrArg Prod.snd hq; dsimp only at hq; subst hq)
    | (rename_i hq; injection hq with hq; subst hq)

theorem laneNoEnergy_frame {m : Nat} {r u : State} {x0 x1} (h : Frame m r u) (hm : m &&& 536870912 = 536870912) : Frame m r (laneNoEnergy x0 x1 u) := by
  unfold laneNoEnergy
  try dsimp only
  repeat' first
    | with_reducible assumption
    | intro _
    | exact land_trans hm rfl
    | exact testBit_of_land hm (by decide)
    | with_reducible apply modLane_frame
    | with_reducible apply holdLane_frame
    | with_reducible apply laneDeep_frame
    | with_reducible apply ite_frame
    | (split <;> try (rename_i hq; replace hq := congrArg Prod.snd hq; dsimp only at hq; subst hq))
    | (rename_i hq; replace hq := congrArg Prod.snd hq; dsimp only at hq; subst hq)
    | (rename_i hq; injection hq with hq; subst hq)

theorem lanesLadder_frame {m : Nat} {r u : State} {x0} (h : Frame m r u) (hm : m &&& 536870912 = 536870912) : Frame m r (lanesLadder x0 u) := by
  unfold lanesLadder
  try dsimp only
  repeat' first
    | with_reducible assumption
    | intro _
    | exact land_trans hm rfl
    | exact testBit_of_land hm (by decide)
    | with_reducible apply each_frame
    | with_reducible apply laneIdle_frame
    | with_reducible apply laneDeep_frame
    | with_reducible apply laneOff_frame
    | with_reducible apply ite_frame
    | (split <;> try (rename_i hq; replace hq := congrArg Prod.snd hq; dsimp only at hq; subst hq))
    | (rename_i hq; replace hq := congrArg Prod.snd hq; dsimp only at hq; subst hq)
    | (rename_i hq; injection hq with hq; subst hq)

theorem clearLaneRegs_frame {m : Nat} {r u : State} {x0} (h : Frame m r u) (hm : m &&& 8 = 8) : Frame m r (clearLaneRegs x0 u) := by
  unfold clearLaneRegs
  try dsimp only
  repeat' first
    | with_reducible assumption
    | intro _
    | exact land_trans hm rfl
    | exact testBit_of_land hm (by decide)
    | with_reducible apply ite_frame
    | (split <;> try (rename_i hq; replace hq := congrArg Prod.snd hq; dsimp only at hq; subst hq))
    | (rename_i hq; replace hq := congrArg Prod.snd hq; dsimp only at hq; subst hq)
    | (rename_i hq; injection hq with hq; subst hq)
    | (with_reducible refine Frame.lit ?_ rfl; first | with_reducible assumption | split)

theorem laneDomainDown_frame {m : Nat} {r u : State} {x0} (h : Frame m r u) (hm : m &&& 536870920 = 536870920) : Frame m r (laneDomainDown x0 u) := by
  unfold laneDomainDown
  try dsimp only
  repeat' first
    | with_reducible assumption
    | intro _
    | exact land_trans hm rfl
    | exact testBit_of_land hm (by decide)
    | with_reducible apply each_frame
    | with_reducible apply clearLaneRegs_frame
    | with_reducible apply setLane_frame
    | with_reducible apply laneOffNow_frame
    | with_reducible apply ite_frame
    | (split <;> try (rename_i hq; replace hq := congrArg Prod.snd hq; dsimp only at hq; subst hq))
    | (rename_i hq; replace hq := congrArg Prod.snd hq; dsimp only at hq; subst hq)
    | (rename_i hq; injection hq with hq; subst hq)

theorem laneDomainUp_frame {m : Nat} {r u : State} {x0} (h : Frame m r u) (hm : m &&& 536870920 = 536870920) : Frame m r (laneDomainUp x0 u) := by
  unfold laneDomainUp
  try dsimp only
  repeat' first
    | with_reducible assumption
    | intro _
    | exact land_trans hm rfl
    | exact testBit_of_land hm (by decide)
    | with_reducible apply each_frame
    | with_reducible apply startTrain_frame
    | with_reducible apply clearLaneRegs_frame
    | with_reducible apply ite_frame
    | (split <;> try (rename_i hq; replace hq := congrArg Prod.snd hq; dsimp only at hq; subst hq))
    | (rename_i hq; replace hq := congrArg Prod.snd hq; dsimp only at hq; subst hq)
    | (rename_i hq; injection hq with hq; subst hq)

theorem dropSaved_frame {m : Nat} {r u : State} {x0} (h : Frame m r u) (hm : m &&& 536870912 = 536870912) : Frame m r (dropSaved x0 u) := by
  unfold dropSaved
  try dsimp only
  repeat' first
    | with_reducible assumption
    | intro _
    | exact land_trans hm rfl
    | exact testBit_of_land hm (by decide)
    | with_reducible apply each_frame
    | with_reducible apply modLane_frame
    | with_reducible apply ite_frame
    | (split <;> try (rename_i hq; replace hq := congrArg Prod.snd hq; dsimp only at hq; subst hq))
    | (rename_i hq; replace hq := congrArg Prod.snd hq; dsimp only at hq; subst hq)
    | (rename_i hq; injection hq with hq; subst hq)

theorem laneRefuse_frame {m : Nat} {r u : State} {x0 x1} (h : Frame m r u) (hm : m &&& 536870920 = 536870920) : Frame m r (laneRefuse x0 x1 u) := by
  unfold laneRefuse
  try dsimp only
  repeat' first
    | with_reducible assumption
    | intro _
    | exact land_trans hm rfl
    | exact testBit_of_land hm (by decide)
    | with_reducible apply count_frame
    | with_reducible apply modLane_frame
    | with_reducible apply ite_frame
    | (split <;> try (rename_i hq; replace hq := congrArg Prod.snd hq; dsimp only at hq; subst hq))
    | (rename_i hq; replace hq := congrArg Prod.snd hq; dsimp only at hq; subst hq)
    | (rename_i hq; injection hq with hq; subst hq)

theorem slip_frame {m : Nat} {r u : State} {x0 x1} (h : Frame m r u) (hm : m &&& 536870922 = 536870922) : Frame m r (slip x0 x1 u) := by
  unfold slip
  try dsimp only
  repeat' first
    | with_reducible assumption
    | intro _
    | exact land_trans hm rfl
    | exact testBit_of_land hm (by decide)
    | with_reducible apply laneRefuse_frame
    | with_reducible apply modLane_frame
    | with_reducible apply nextFree_frame
    | with_reducible apply ite_frame
    | (split <;> try (rename_i hq; replace hq := congrArg Prod.snd hq; dsimp only at hq; subst hq))
    | (rename_i hq; replace hq := congrArg Prod.snd hq; dsimp only at hq; subst hq)
    | (rename_i hq; injection hq with hq; subst hq)

theorem eyeScanStart_frame {m : Nat} {r u : State} {x0 x1} (h : Frame m r u) (hm : m &&& 536870920 = 536870920) : Frame m r (eyeScanStart x0 x1 u) := by
  unfold eyeScanStart
  try dsimp only
  repeat' first
    | with_reducible assumption
    | intro _
    | exact land_trans hm rfl
    | exact testBit_of_land hm (by decide)
    | with_reducible apply when'_frame
    | with_reducible apply laneRefuse_frame
    | with_reducible apply modLane_frame
    | with_reducible apply setReg_frame
    | with_reducible apply ite_frame
    | (split <;> try (rename_i hq; replace hq := congrArg Prod.snd hq; dsimp only at hq; subst hq))
    | (rename_i hq; replace hq := congrArg Prod.snd hq; dsimp only at hq; subst hq)
    | (rename_i hq; injection hq with hq; subst hq)

theorem eyeScanDone_frame {m : Nat} {r u : State} {x0 x1} (h : Frame m r u) (hm : m &&& 536870912 = 536870912) : Frame m r (eyeScanDone x0 x1 u) := by
  unfold eyeScanDone
  try dsimp only
  repeat' first
    | with_reducible assumption
    | intro _
    | exact land_trans hm rfl
    | exact testBit_of_land hm (by decide)
    | with_reducible apply when'_frame
    | with_reducible apply retrainLane_frame
    | with_reducible apply setLane_frame
    | with_reducible apply ite_frame
    | (split <;> try (rename_i hq; replace hq := congrArg Prod.snd hq; dsimp only at hq; subst hq))
    | (rename_i hq; replace hq := congrArg Prod.snd hq; dsimp only at hq; subst hq)
    | (rename_i hq; injection hq with hq; subst hq)

theorem laneStopsPort_frame {m : Nat} {r u : State} {x0} (h : Frame m r u) (hm : m &&& 83562885416974 = 83562885416974) : Frame m r (laneStopsPort x0 u) := by
  unfold laneStopsPort
  try dsimp only
  repeat' first
    | with_reducible assumption
    | intro _
    | exact land_trans hm rfl
    | exact testBit_of_land hm (by decide)
    | with_reducible apply portDown_frame
    | with_reducible apply ite_frame
    | (split <;> try (rename_i hq; replace hq := congrArg Prod.snd hq; dsimp only at hq; subst hq))
    | (rename_i hq; replace hq := congrArg Prod.snd hq; dsimp only at hq; subst hq)
    | (rename_i hq; injection hq with hq; subst hq)

theorem laneCfgChanged_frame {m : Nat} {r u : State} {x0 x1} (h : Frame m r u) (hm : m &&& 83563422287886 = 83563422287886) : Frame m r (laneCfgChanged x0 x1 u) := by
  unfold laneCfgChanged
  try dsimp only
  repeat' first
    | with_reducible assumption
    | intro _
    | exact land_trans hm rfl
    | exact testBit_of_land hm (by decide)
    | with_reducible apply when'_frame
    | with_reducible apply startTrain_frame
    | with_reducible apply nextFree_frame
    | with_reducible apply modLane_frame
    | with_reducible apply laneStopsPort_frame
    | with_reducible apply ite_frame
    | (split <;> try (rename_i hq; replace hq := congrArg Prod.snd hq; dsimp only at hq; subst hq))
    | (rename_i hq; replace hq := congrArg Prod.snd hq; dsimp only at hq; subst hq)
    | (rename_i hq; injection hq with hq; subst hq)

theorem laneCfgWrite_frame {m : Nat} {r u : State} {x0 x1} (h : Frame m r u) (hm : m &&& 83563422287886 = 83563422287886) : Frame m r (laneCfgWrite x0 x1 u) := by
  unfold laneCfgWrite
  try dsimp only
  repeat' first
    | with_reducible assumption
    | intro _
    | exact land_trans hm rfl
    | exact testBit_of_land hm (by decide)
    | with_reducible apply laneRefuse_frame
    | with_reducible apply laneCfgChanged_frame
    | with_reducible apply setReg_frame
    | with_reducible apply ite_frame
    | (split <;> try (rename_i hq; replace hq := congrArg Prod.snd hq; dsimp only at hq; subst hq))
    | (rename_i hq; replace hq := congrArg Prod.snd hq; dsimp only at hq; subst hq)
    | (rename_i hq; injection hq with hq; subst hq)

theorem clearTest_frame {m : Nat} {r u : State} {x0} (h : Frame m r u) (hm : m &&& 83563422287886 = 83563422287886) : Frame m r (clearTest x0 u) := by
  unfold clearTest
  try dsimp only
  repeat' first
    | with_reducible assumption
    | intro _
    | exact land_trans hm rfl
    | exact testBit_of_land hm (by decide)
    | with_reducible apply laneCfgChanged_frame
    | with_reducible apply setReg_frame
    | with_reducible apply ite_frame
    | (split <;> try (rename_i hq; replace hq := congrArg Prod.snd hq; dsimp only at hq; subst hq))
    | (rename_i hq; replace hq := congrArg Prod.snd hq; dsimp only at hq; subst hq)
    | (rename_i hq; injection hq with hq; subst hq)

theorem txeqWrite_frame {m : Nat} {r u : State} {x0 x1} (h : Frame m r u) (hm : m &&& 536870920 = 536870920) : Frame m r (txeqWrite x0 x1 u) := by
  unfold txeqWrite
  try dsimp only
  repeat' first
    | with_reducible assumption
    | intro _
    | exact land_trans hm rfl
    | exact testBit_of_land hm (by decide)
    | with_reducible apply laneRefuse_frame
    | with_reducible apply setReg_frame
    | with_reducible apply ite_frame
    | (split <;> try (rename_i hq; replace hq := congrArg Prod.snd hq; dsimp only at hq; subst hq))
    | (rename_i hq; replace hq := congrArg Prod.snd hq; dsimp only at hq; subst hq)
    | (rename_i hq; injection hq with hq; subst hq)

theorem prbsCount_frame {m : Nat} {r u : State} {x0 x1 x2} (h : Frame m r u) (hm : m &&& 536870920 = 536870920) : Frame m r (prbsCount x0 x1 x2 u) := by
  unfold prbsCount
  try dsimp only
  repeat' first
    | with_reducible assumption
    | intro _
    | exact land_trans hm rfl
    | exact testBit_of_land hm (by decide)
    | with_reducible apply modLane_frame
    | with_reducible apply count64_frame
    | with_reducible apply ite_frame
    | (split <;> try (rename_i hq; replace hq := congrArg Prod.snd hq; dsimp only at hq; subst hq))
    | (rename_i hq; replace hq := congrArg Prod.snd hq; dsimp only at hq; subst hq)
    | (rename_i hq; injection hq with hq; subst hq)

theorem prbsLockOn_frame {m : Nat} {r u : State} {x0 x1 x2} (h : Frame m r u) (hm : m &&& 536870920 = 536870920) : Frame m r (prbsLockOn x0 x1 x2 u) := by
  unfold prbsLockOn
  try dsimp only
  repeat' first
    | with_reducible assumption
    | intro _
    | exact land_trans hm rfl
    | exact testBit_of_land hm (by decide)
    | with_reducible apply prbsCount_frame
    | with_reducible apply setLane_frame
    | with_reducible apply ite_frame
    | (split <;> try (rename_i hq; replace hq := congrArg Prod.snd hq; dsimp only at hq; subst hq))
    | (rename_i hq; replace hq := congrArg Prod.snd hq; dsimp only at hq; subst hq)
    | (rename_i hq; injection hq with hq; subst hq)

theorem prbsLockLoss_frame {m : Nat} {r u : State} {x0 x1 x2} (h : Frame m r u) (hm : m &&& 536870920 = 536870920) : Frame m r (prbsLockLoss x0 x1 x2 u) := by
  unfold prbsLockLoss
  try dsimp only
  repeat' first
    | with_reducible assumption
    | intro _
    | exact land_trans hm rfl
    | exact testBit_of_land hm (by decide)
    | with_reducible apply modLane_frame
    | with_reducible apply prbsCount_frame
    | with_reducible apply ite_frame
    | (split <;> try (rename_i hq; replace hq := congrArg Prod.snd hq; dsimp only at hq; subst hq))
    | (rename_i hq; replace hq := congrArg Prod.snd hq; dsimp only at hq; subst hq)
    | (rename_i hq; injection hq with hq; subst hq)

theorem receiverDetect_frame {m : Nat} {r u : State} {x0 x1} (h : Frame m r u) (hm : m &&& 70378944735240 = 70378944735240) : Frame m r (receiverDetect x0 x1 u) := by
  unfold receiverDetect
  try dsimp only
  repeat' first
    | with_reducible assumption
    | intro _
    | exact land_trans hm rfl
    | exact testBit_of_land hm (by decide)
    | with_reducible apply when'_frame
    | with_reducible apply setLane_frame
    | with_reducible apply chainLeave_frame
    | with_reducible apply noteFault_frame
    | with_reducible apply count_frame
    | with_reducible apply event_frame
    | with_reducible apply ite_frame
    | (split <;> try (rename_i hq; replace hq := congrArg Prod.snd hq; dsimp only at hq; subst hq))
    | (rename_i hq; replace hq := congrArg Prod.snd hq; dsimp only at hq; subst hq)
    | (rename_i hq; injection hq with hq; subst hq)

theorem laneShort_frame {m : Nat} {r u : State} {x0} (h : Frame m r u) (hm : m &&& 83573085972494 = 83573085972494) : Frame m r (laneShort x0 u) := by
  unfold laneShort
  try dsimp only
  repeat' first
    | with_reducible assumption
    | intro _
    | exact land_trans hm rfl
    | exact testBit_of_land hm (by decide)
    | with_reducible apply when'_frame
    | with_reducible apply chainLeave_frame
    | with_reducible apply laneStopsPort_frame
    | with_reducible apply noteFault_frame
    | with_reducible apply count_frame
    | with_reducible apply event_frame
    | with_reducible apply setLane_frame
    | with_reducible apply ite_frame
    | (split <;> try (rename_i hq; replace hq := congrArg Prod.snd hq; dsimp only at hq; subst hq))
    | (rename_i hq; replace hq := congrArg Prod.snd hq; dsimp only at hq; subst hq)
    | (rename_i hq; injection hq with hq; subst hq)

theorem shortRetry_frame {m : Nat} {r u : State} {x0 x1} (h : Frame m r u) (hm : m &&& 536870912 = 536870912) : Frame m r (shortRetry x0 x1 u) := by
  unfold shortRetry
  try dsimp only
  repeat' first
    | with_reducible assumption
    | intro _
    | exact land_trans hm rfl
    | exact testBit_of_land hm (by decide)
    | with_reducible apply modLane_frame
    | with_reducible apply ite_frame
    | (split <;> try (rename_i hq; replace hq := congrArg Prod.snd hq; dsimp only at hq; subst hq))
    | (rename_i hq; replace hq := congrArg Prod.snd hq; dsimp only at hq; subst hq)
    | (rename_i hq; injection hq with hq; subst hq)

theorem retireEffects_frame {m : Nat} {r u : State} {x0 x1} (h : Frame m r u) (hm : m &&& 83573086038030 = 83573086038030) : Frame m r (retireEffects x0 x1 u) := by
  unfold retireEffects
  try dsimp only
  repeat' first
    | with_reducible assumption
    | intro _
    | exact land_trans hm rfl
    | exact testBit_of_land hm (by decide)
    | with_reducible apply when'_frame
    | with_reducible apply modLane_frame
    | with_reducible apply laneOffNow_frame
    | with_reducible apply event_frame
    | with_reducible apply portDown_frame
    | with_reducible apply declareLos_frame
    | with_reducible apply chainLeave_frame
    | with_reducible apply ite_frame
    | (split <;> try (rename_i hq; replace hq := congrArg Prod.snd hq; dsimp only at hq; subst hq))
    | (rename_i hq; replace hq := congrArg Prod.snd hq; dsimp only at hq; subst hq)
    | (rename_i hq; injection hq with hq; subst hq)

theorem laneRetire_frame {m : Nat} {r u : State} {x0 x1} (h : Frame m r u) (hm : m &&& 83573086039054 = 83573086039054) : Frame m r (laneRetire x0 x1 u) := by
  unfold laneRetire
  try dsimp only
  repeat' first
    | with_reducible assumption
    | intro _
    | exact land_trans hm rfl
    | exact testBit_of_land hm (by decide)
    | with_reducible apply keepWrite_frame
    | with_reducible apply retireEffects_frame
    | with_reducible apply ite_frame
    | (split <;> try (rename_i hq; replace hq := congrArg Prod.snd hq; dsimp only at hq; subst hq))
    | (rename_i hq; replace hq := congrArg Prod.snd hq; dsimp only at hq; subst hq)
    | (rename_i hq; injection hq with hq; subst hq)

theorem laneUnretire_frame {m : Nat} {r u : State} {x0} (h : Frame m r u) (hm : m &&& 70369281051656 = 70369281051656) : Frame m r (laneUnretire x0 u) := by
  unfold laneUnretire
  try dsimp only
  repeat' first
    | with_reducible assumption
    | intro _
    | exact land_trans hm rfl
    | exact testBit_of_land hm (by decide)
    | with_reducible apply keepWrite_frame
    | with_reducible apply startTrain_frame
    | with_reducible apply ite_frame
    | (split <;> try (rename_i hq; replace hq := congrArg Prod.snd hq; dsimp only at hq; subst hq))
    | (rename_i hq; replace hq := congrArg Prod.snd hq; dsimp only at hq; subst hq)
    | (rename_i hq; injection hq with hq; subst hq)

theorem retiredWrite_frame {m : Nat} {r u : State} {x0 x1} (h : Frame m r u) (hm : m &&& 83573086039054 = 83573086039054) : Frame m r (retiredWrite x0 x1 u) := by
  unfold retiredWrite
  try dsimp only
  repeat' first
    | with_reducible assumption
    | intro _
    | exact land_trans hm rfl
    | exact testBit_of_land hm (by decide)
    | with_reducible apply each_frame
    | with_reducible apply keepWrite_frame
    | with_reducible apply retireEffects_frame
    | with_reducible apply startTrain_frame
    | with_reducible apply ite_frame
    | (split <;> try (rename_i hq; replace hq := congrArg Prod.snd hq; dsimp only at hq; subst hq))
    | (rename_i hq; replace hq := congrArg Prod.snd hq; dsimp only at hq; subst hq)
    | (rename_i hq; injection hq with hq; subst hq)

theorem carryHeld_frame {m : Nat} {r u : State} {x0 x1} (h : Frame m r u) (hm : m &&& 71537520547854 = 71537520547854) : Frame m r (carryHeld x0 x1 u) := by
  unfold carryHeld
  try dsimp only
  repeat' first
    | with_reducible assumption
    | intro _
    | exact land_trans hm rfl
    | exact testBit_of_land hm (by decide)
    | with_reducible apply startTrain_frame
    | with_reducible apply laneOff_frame
    | with_reducible apply laneTrain_frame
    | with_reducible apply laneWake_frame
    | with_reducible apply laneNoEnergy_frame
    | with_reducible apply ite_frame
    | (split <;> try (rename_i hq; replace hq := congrArg Prod.snd hq; dsimp only at hq; subst hq))
    | (rename_i hq; replace hq := congrArg Prod.snd hq; dsimp only at hq; subst hq)
    | (rename_i hq; injection hq with hq; subst hq)

theorem resumeLane_frame {m : Nat} {r u : State} {x0} (h : Frame m r u) (hm : m &&& 84731661785102 = 84731661785102) : Frame m r (resumeLane x0 u) := by
  unfold resumeLane
  try dsimp only
  repeat' first
    | with_reducible assumption
    | intro _
    | exact land_trans hm rfl
    | exact testBit_of_land hm (by decide)
    | with_reducible apply each_frame
    | with_reducible apply when'_frame
    | with_reducible apply carryHeld_frame
    | with_reducible apply modLane_frame
    | with_reducible apply laneStopsPort_frame
    | with_reducible apply ite_frame
    | (split <;> try (rename_i hq; replace hq := congrArg Prod.snd hq; dsimp only at hq; subst hq))
    | (rename_i hq; replace hq := congrArg Prod.snd hq; dsimp only at hq; subst hq)
    | (rename_i hq; injection hq with hq; subst hq)

theorem lanesResume_frame {m : Nat} {r u : State} (h : Frame m r u) (hm : m &&& 84731661785102 = 84731661785102) : Frame m r (lanesResume u) := by
  unfold lanesResume
  try dsimp only
  repeat' first
    | with_reducible assumption
    | intro _
    | exact land_trans hm rfl
    | exact testBit_of_land hm (by decide)
    | with_reducible apply each_frame
    | with_reducible apply retrainWaiting_frame
    | with_reducible apply resumeLane_frame
    | with_reducible apply ite_frame
    | (split <;> try (rename_i hq; replace hq := congrArg Prod.snd hq; dsimp only at hq; subst hq))
    | (rename_i hq; replace hq := congrArg Prod.snd hq; dsimp only at hq; subst hq)
    | (rename_i hq; injection hq with hq; subst hq)

end Sys2Proof.Machine
end

