-- ==== Sys2Proof/Laws/FrameCipher.lean ====
section
/-! SUPPORT. The frames of the operations of Machine/Cipher.lean: each changes nothing outside its mask (see Laws/Frame.lean). -/
set_option Elab.async false
set_option linter.all false

namespace Sys2Proof.Machine

theorem setKeyDir_frame {m : Nat} {r u : State} {x0 x1 x2} (h : Frame m r u) (hm : m &&& 16777216 = 16777216) : Frame m r (setKeyDir x0 x1 x2 u) := by
  unfold setKeyDir
  try dsimp only
  repeat' first
    | with_reducible assumption
    | intro _
    | exact land_trans hm rfl
    | exact testBit_of_land hm (by decide)
    | with_reducible apply ite_frame
    | (split <;> try (rename_i hq; replace hq := congrArg Prod.snd hq; dsimp only at hq; subst hq))
    | (rename_i hq; replace hq := congrArg Prod.snd hq; dsimp only at hq; subst hq)
    | (rename_i hq; injection hq with hq; subst hq)
    | (with_reducible refine Frame.lit ?_ rfl; first | with_reducible assumption | split)

theorem modJobKey_frame {m : Nat} {r u : State} {x0 x1} (h : Frame m r u) (hm : m &&& 16777216 = 16777216) : Frame m r (modJobKey x0 x1 u) := by
  unfold modJobKey
  try dsimp only
  repeat' first
    | with_reducible assumption
    | intro _
    | exact land_trans hm rfl
    | exact testBit_of_land hm (by decide)
    | with_reducible apply setKeyDir_frame
    | with_reducible apply ite_frame
    | (split <;> try (rename_i hq; replace hq := congrArg Prod.snd hq; dsimp only at hq; subst hq))
    | (rename_i hq; replace hq := congrArg Prod.snd hq; dsimp only at hq; subst hq)
    | (rename_i hq; injection hq with hq; subst hq)

theorem giveSlots_frame {m : Nat} {r u : State} (h : Frame m r u) (hm : m &&& 16777216 = 16777216) : Frame m r (giveSlots u) := by
  unfold giveSlots
  try dsimp only
  repeat' first
    | with_reducible assumption
    | intro _
    | exact land_trans hm rfl
    | exact testBit_of_land hm (by decide)
    | with_reducible apply each_frame
    | with_reducible apply modJobKey_frame
    | with_reducible apply ite_frame
    | (split <;> try (rename_i hq; replace hq := congrArg Prod.snd hq; dsimp only at hq; subst hq))
    | (rename_i hq; replace hq := congrArg Prod.snd hq; dsimp only at hq; subst hq)
    | (rename_i hq; injection hq with hq; subst hq)

theorem requestKey_frame {m : Nat} {r u : State} {x0} (h : Frame m r u) (hm : m &&& 16777224 = 16777224) : Frame m r (requestKey x0 u) := by
  unfold requestKey
  try dsimp only
  repeat' first
    | with_reducible assumption
    | intro _
    | exact land_trans hm rfl
    | exact testBit_of_land hm (by decide)
    | with_reducible apply giveSlots_frame
    | with_reducible apply count_frame
    | with_reducible apply ite_frame
    | (split <;> try (rename_i hq; replace hq := congrArg Prod.snd hq; dsimp only at hq; subst hq))
    | (rename_i hq; replace hq := congrArg Prod.snd hq; dsimp only at hq; subst hq)
    | (rename_i hq; injection hq with hq; subst hq)
    | (with_reducible refine Frame.lit ?_ rfl; first | with_reducible assumption | with_reducible apply giveSlots_frame | with_reducible apply count_frame| split)

theorem dropJobs_frame {m : Nat} {r u : State} {x0 x1 x2} (h : Frame m r u) (hm : m &&& 16777216 = 16777216) : Frame m r (dropJobs x0 x1 x2 u) := by
  unfold dropJobs
  try dsimp only
  repeat' first
    | with_reducible assumption
    | intro _
    | exact land_trans hm rfl
    | exact testBit_of_land hm (by decide)
    | with_reducible apply ite_frame
    | (split <;> try (rename_i hq; replace hq := congrArg Prod.snd hq; dsimp only at hq; subst hq))
    | (rename_i hq; replace hq := congrArg Prod.snd hq; dsimp only at hq; subst hq)
    | (rename_i hq; injection hq with hq; subst hq)
    | (with_reducible refine Frame.lit ?_ rfl; first | with_reducible assumption | split)

theorem promoteJobs_frame {m : Nat} {r u : State} {x0 x1} (h : Frame m r u) (hm : m &&& 16777216 = 16777216) : Frame m r (promoteJobs x0 x1 u) := by
  unfold promoteJobs
  try dsimp only
  repeat' first
    | with_reducible assumption
    | intro _
    | exact land_trans hm rfl
    | exact testBit_of_land hm (by decide)
    | with_reducible apply ite_frame
    | (split <;> try (rename_i hq; replace hq := congrArg Prod.snd hq; dsimp only at hq; subst hq))
    | (rename_i hq; replace hq := congrArg Prod.snd hq; dsimp only at hq; subst hq)
    | (rename_i hq; injection hq with hq; subst hq)
    | (with_reducible refine Frame.lit ?_ rfl; first | with_reducible assumption | split)

theorem keyReady_frame {m : Nat} {r u : State} {x0 x1 x2} (h : Frame m r u) (hm : m &&& 8388608 = 8388608) : Frame m r (keyReady x0 x1 x2 u) := by
  unfold keyReady
  try dsimp only
  repeat' first
    | with_reducible assumption
    | intro _
    | exact land_trans hm rfl
    | exact testBit_of_land hm (by decide)
    | with_reducible apply queueMsg_frame
    | with_reducible apply ite_frame
    | (split <;> try (rename_i hq; replace hq := congrArg Prod.snd hq; dsimp only at hq; subst hq))
    | (rename_i hq; replace hq := congrArg Prod.snd hq; dsimp only at hq; subst hq)
    | (rename_i hq; injection hq with hq; subst hq)

theorem setNoRoot_frame {m : Nat} {r u : State} {x0 x1} (h : Frame m r u) (hm : m &&& 16777216 = 16777216) : Frame m r (setNoRoot x0 x1 u) := by
  unfold setNoRoot
  try dsimp only
  repeat' first
    | with_reducible assumption
    | intro _
    | exact land_trans hm rfl
    | exact testBit_of_land hm (by decide)
    | with_reducible apply ite_frame
    | (split <;> try (rename_i hq; replace hq := congrArg Prod.snd hq; dsimp only at hq; subst hq))
    | (rename_i hq; replace hq := congrArg Prod.snd hq; dsimp only at hq; subst hq)
    | (rename_i hq; injection hq with hq; subst hq)
    | (with_reducible refine Frame.lit ?_ rfl; first | with_reducible assumption | split)

theorem completeJob_frame {m : Nat} {r u : State} {x0} (h : Frame m r u) (hm : m &&& 70368769345544 = 70368769345544) : Frame m r (completeJob x0 u) := by
  unfold completeJob
  try dsimp only
  repeat' first
    | with_reducible assumption
    | intro _
    | exact land_trans hm rfl
    | exact testBit_of_land hm (by decide)
    | with_reducible apply when'_frame
    | with_reducible apply event_frame
    | with_reducible apply setNoRoot_frame
    | with_reducible apply keyReady_frame
    | with_reducible apply modJobKey_frame
    | with_reducible apply ite_frame
    | (split <;> try (rename_i hq; replace hq := congrArg Prod.snd hq; dsimp only at hq; subst hq))
    | (rename_i hq; replace hq := congrArg Prod.snd hq; dsimp only at hq; subst hq)
    | (rename_i hq; injection hq with hq; subst hq)
    | (with_reducible refine Frame.lit ?_ rfl; first | with_reducible assumption | with_reducible apply when'_frame | with_reducible apply event_frame | with_reducible apply setNoRoot_frame | with_reducible apply keyReady_frame | with_reducible apply modJobKey_frame| split)

theorem keyDerived_frame {m : Nat} {r u : State} (h : Frame m r u) (hm : m &&& 70368769345544 = 70368769345544) : Frame m r (keyDerived u) := by
  unfold keyDerived
  try dsimp only
  repeat' first
    | with_reducible assumption
    | intro _
    | exact land_trans hm rfl
    | exact testBit_of_land hm (by decide)
    | with_reducible apply completeJob_frame
    | with_reducible apply ite_frame
    | (split <;> try (rename_i hq; replace hq := congrArg Prod.snd hq; dsimp only at hq; subst hq))
    | (rename_i hq; replace hq := congrArg Prod.snd hq; dsimp only at hq; subst hq)
    | (rename_i hq; injection hq with hq; subst hq)

theorem saveEpoch_frame {m : Nat} {r u : State} {x0 x1} (h : Frame m r u) (hm : m &&& 70368744180744 = 70368744180744) : Frame m r (saveEpoch x0 x1 u) := by
  unfold saveEpoch
  try dsimp only
  repeat' first
    | with_reducible assumption
    | intro _
    | exact land_trans hm rfl
    | exact testBit_of_land hm (by decide)
    | with_reducible apply keepWrite_frame
    | with_reducible apply ite_frame
    | (split <;> try (rename_i hq; replace hq := congrArg Prod.snd hq; dsimp only at hq; subst hq))
    | (rename_i hq; replace hq := congrArg Prod.snd hq; dsimp only at hq; subst hq)
    | (rename_i hq; injection hq with hq; subst hq)

theorem nameEpoch_frame {m : Nat} {r u : State} {x0 x1 x2 x3} (h : Frame m r u) (hm : m &&& 25165832 = 25165832) : Frame m r (nameEpoch x0 x1 x2 x3 u) := by
  unfold nameEpoch
  try dsimp only
  repeat' first
    | with_reducible assumption
    | intro _
    | exact land_trans hm rfl
    | exact testBit_of_land hm (by decide)
    | with_reducible apply keyReady_frame
    | with_reducible apply requestKey_frame
    | with_reducible apply setKeyDir_frame
    | with_reducible apply dropJobs_frame
    | with_reducible apply ite_frame
    | (split <;> try (rename_i hq; replace hq := congrArg Prod.snd hq; dsimp only at hq; subst hq))
    | (rename_i hq; replace hq := congrArg Prod.snd hq; dsimp only at hq; subst hq)
    | (rename_i hq; injection hq with hq; subst hq)

theorem adoptPending_frame {m : Nat} {r u : State} {x0 x1 x2} (h : Frame m r u) (hm : m &&& 70368760957960 = 70368760957960) : Frame m r (adoptPending x0 x1 x2 u) := by
  unfold adoptPending
  try dsimp only
  repeat' first
    | with_reducible assumption
    | intro _
    | exact land_trans hm rfl
    | exact testBit_of_land hm (by decide)
    | with_reducible apply saveEpoch_frame
    | with_reducible apply giveSlots_frame
    | with_reducible apply promoteJobs_frame
    | with_reducible apply setKeyDir_frame
    | with_reducible apply dropJobs_frame
    | with_reducible apply ite_frame
    | (split <;> try (rename_i hq; replace hq := congrArg Prod.snd hq; dsimp only at hq; subst hq))
    | (rename_i hq; replace hq := congrArg Prod.snd hq; dsimp only at hq; subst hq)
    | (rename_i hq; injection hq with hq; subst hq)

theorem downSwitches_frame {m : Nat} {r u : State} {x0} (h : Frame m r u) (hm : m &&& 70368760957960 = 70368760957960) : Frame m r (downSwitches x0 u) := by
  unfold downSwitches
  try dsimp only
  repeat' first
    | with_reducible assumption
    | intro _
    | exact land_trans hm rfl
    | exact testBit_of_land hm (by decide)
    | with_reducible apply each_frame
    | with_reducible apply adoptPending_frame
    | with_reducible apply ite_frame
    | (split <;> try (rename_i hq; replace hq := congrArg Prod.snd hq; dsimp only at hq; subst hq))
    | (rename_i hq; replace hq := congrArg Prod.snd hq; dsimp only at hq; subst hq)
    | (rename_i hq; injection hq with hq; subst hq)

theorem keyRetire_frame {m : Nat} {r u : State} {x0} (h : Frame m r u) (hm : m &&& 16777216 = 16777216) : Frame m r (keyRetire x0 u) := by
  unfold keyRetire
  try dsimp only
  repeat' first
    | with_reducible assumption
    | intro _
    | exact land_trans hm rfl
    | exact testBit_of_land hm (by decide)
    | with_reducible apply giveSlots_frame
    | with_reducible apply setKeyDir_frame
    | with_reducible apply ite_frame
    | (split <;> try (rename_i hq; replace hq := congrArg Prod.snd hq; dsimp only at hq; subst hq))
    | (rename_i hq; replace hq := congrArg Prod.snd hq; dsimp only at hq; subst hq)
    | (rename_i hq; injection hq with hq; subst hq)

theorem resumeEpoch_frame {m : Nat} {r u : State} {x0 x1 x2} (h : Frame m r u) (hm : m &&& 70368760957960 = 70368760957960) : Frame m r (resumeEpoch x0 x1 x2 u) := by
  unfold resumeEpoch
  try dsimp only
  repeat' first
    | with_reducible assumption
    | intro _
    | exact land_trans hm rfl
    | exact testBit_of_land hm (by decide)
    | with_reducible apply giveSlots_frame
    | with_reducible apply setKeyDir_frame
    | with_reducible apply dropJobs_frame
    | with_reducible apply adoptPending_frame
    | with_reducible apply saveEpoch_frame
    | with_reducible apply requestKey_frame
    | with_reducible apply ite_frame
    | (split <;> try (rename_i hq; replace hq := congrArg Prod.snd hq; dsimp only at hq; subst hq))
    | (rename_i hq; replace hq := congrArg Prod.snd hq; dsimp only at hq; subst hq)
    | (rename_i hq; injection hq with hq; subst hq)

theorem loadEpochs_frame {m : Nat} {r u : State} {x0} (h : Frame m r u) (hm : m &&& 16777216 = 16777216) : Frame m r (loadEpochs x0 u) := by
  unfold loadEpochs
  try dsimp only
  repeat' first
    | with_reducible assumption
    | intro _
    | exact land_trans hm rfl
    | exact testBit_of_land hm (by decide)
    | with_reducible apply each_frame
    | with_reducible apply setKeyDir_frame
    | with_reducible apply ite_frame
    | (split <;> try (rename_i hq; replace hq := congrArg Prod.snd hq; dsimp only at hq; subst hq))
    | (rename_i hq; replace hq := congrArg Prod.snd hq; dsimp only at hq; subst hq)
    | (rename_i hq; injection hq with hq; subst hq)
    | (with_reducible refine Frame.lit ?_ rfl; first | with_reducible assumption | with_reducible apply each_frame | with_reducible apply setKeyDir_frame| split)

theorem requestSaved_frame {m : Nat} {r u : State} (h : Frame m r u) (hm : m &&& 16777224 = 16777224) : Frame m r (requestSaved u) := by
  unfold requestSaved
  try dsimp only
  repeat' first
    | with_reducible assumption
    | intro _
    | exact land_trans hm rfl
    | exact testBit_of_land hm (by decide)
    | with_reducible apply each_frame
    | with_reducible apply requestKey_frame
    | with_reducible apply ite_frame
    | (split <;> try (rename_i hq; replace hq := congrArg Prod.snd hq; dsimp only at hq; subst hq))
    | (rename_i hq; replace hq := congrArg Prod.snd hq; dsimp only at hq; subst hq)
    | (rename_i hq; injection hq with hq; subst hq)

theorem resumeCounter_frame {m : Nat} {r u : State} (h : Frame m r u) (hm : m &&& 70368760957960 = 70368760957960) : Frame m r (resumeCounter u) := by
  unfold resumeCounter
  try dsimp only
  repeat' first
    | with_reducible assumption
    | intro _
    | exact land_trans hm rfl
    | exact testBit_of_land hm (by decide)
    | with_reducible apply keepWrite_frame
    | with_reducible apply ite_frame
    | (split <;> try (rename_i hq; replace hq := congrArg Prod.snd hq; dsimp only at hq; subst hq))
    | (rename_i hq; replace hq := congrArg Prod.snd hq; dsimp only at hq; subst hq)
    | (rename_i hq; injection hq with hq; subst hq)
    | (with_reducible refine Frame.lit ?_ rfl; first | with_reducible assumption | with_reducible apply keepWrite_frame| split)

theorem nextCtr_frame {m : Nat} {r u : State} (h : Frame m r u) (hm : m &&& 70368760957960 = 70368760957960) : Frame m r (nextCtr u).2 := by
  unfold nextCtr
  try dsimp only
  repeat' first
    | with_reducible assumption
    | intro _
    | exact land_trans hm rfl
    | exact testBit_of_land hm (by decide)
    | with_reducible apply keepWrite_frame
    | with_reducible apply ite_frame
    | (split <;> try (rename_i hq; replace hq := congrArg Prod.snd hq; dsimp only at hq; subst hq))
    | (rename_i hq; replace hq := congrArg Prod.snd hq; dsimp only at hq; subst hq)
    | (rename_i hq; injection hq with hq; subst hq)
    | (with_reducible refine Frame.lit ?_ rfl; first | with_reducible assumption | with_reducible apply keepWrite_frame| split)

theorem protectFrame_frame {m : Nat} {r u : State} {x0 x1} (h : Frame m r u) (hm : m &&& 70368760957960 = 70368760957960) : Frame m r (protectFrame x0 x1 u).2 := by
  unfold protectFrame
  try dsimp only
  repeat' first
    | with_reducible assumption
    | intro _
    | exact land_trans hm rfl
    | exact testBit_of_land hm (by decide)
    | with_reducible apply nextCtr_frame
    | with_reducible apply ite_frame
    | (split <;> try (rename_i hq; replace hq := congrArg Prod.snd hq; dsimp only at hq; subst hq))
    | (rename_i hq; replace hq := congrArg Prod.snd hq; dsimp only at hq; subst hq)
    | (rename_i hq; injection hq with hq; subst hq)

theorem tagFailure_frame {m : Nat} {r u : State} {x0} (h : Frame m r u) (hm : m &&& 70368760956936 = 70368760956936) : Frame m r (tagFailure x0 u) := by
  unfold tagFailure
  try dsimp only
  repeat' first
    | with_reducible assumption
    | intro _
    | exact land_trans hm rfl
    | exact testBit_of_land hm (by decide)
    | with_reducible apply count_frame
    | with_reducible apply event_frame
    | with_reducible apply ite_frame
    | (split <;> try (rename_i hq; replace hq := congrArg Prod.snd hq; dsimp only at hq; subst hq))
    | (rename_i hq; replace hq := congrArg Prod.snd hq; dsimp only at hq; subst hq)
    | (rename_i hq; injection hq with hq; subst hq)
    | (with_reducible refine Frame.lit ?_ rfl; first | with_reducible assumption | with_reducible apply count_frame | with_reducible apply event_frame| split)

theorem openFrame_frame {m : Nat} {r u : State} {x0 x1 x2} (h : Frame m r u) (hm : m &&& 70368760956936 = 70368760956936) : Frame m r (openFrame x0 x1 x2 u).2 := by
  unfold openFrame
  try dsimp only
  repeat' first
    | with_reducible assumption
    | intro _
    | exact land_trans hm rfl
    | exact testBit_of_land hm (by decide)
    | with_reducible apply count_frame
    | with_reducible apply tagFailure_frame
    | with_reducible apply setKeyDir_frame
    | with_reducible apply ite_frame
    | (split <;> try (rename_i hq; replace hq := congrArg Prod.snd hq; dsimp only at hq; subst hq))
    | (rename_i hq; replace hq := congrArg Prod.snd hq; dsimp only at hq; subst hq)
    | (rename_i hq; injection hq with hq; subst hq)

theorem oprootCommit_frame {m : Nat} {r u : State} (h : Frame m r u) (hm : m &&& 17179870216 = 17179870216) : Frame m r (oprootCommit u) := by
  unfold oprootCommit
  dsimp only
  generalize hE : (if u.keep.opRoot.isSome then 1 else _ : Nat) = err
  split
  · rename_i he
    have hr : u.keep.opRoot = none := by
      cases hk : u.keep.opRoot with
      | none => rfl
      | some k => rw [hk] at hE; simp at hE; omega
    refine each_frame ?_ (fun _ _ g => setReg_frame g (land_trans hm rfl))
    refine Frame.lit (setRfld_frame h (land_trans hm rfl)) rfl (l_opRoot := fun k e => ?_)
    rw [show (setRfld Reg.CIPH_OPROOT_CMD 5 4 _ u).keep = u.keep from rfl, hr] at e
    exact absurd e (by simp)
  · exact setRfld_frame h (land_trans hm rfl)


theorem setLoaded_frame {m : Nat} {r u : State} {x0 x1} (h : Frame m r u) (hm : m &&& 1024 = 1024) : Frame m r (setLoaded x0 x1 u) := by
  unfold setLoaded
  try dsimp only
  repeat' first
    | with_reducible assumption
    | intro _
    | exact land_trans hm rfl
    | exact testBit_of_land hm (by decide)
    | with_reducible apply ite_frame
    | (split <;> try (rename_i hq; replace hq := congrArg Prod.snd hq; dsimp only at hq; subst hq))
    | (rename_i hq; replace hq := congrArg Prod.snd hq; dsimp only at hq; subst hq)
    | (rename_i hq; injection hq with hq; subst hq)
    | (with_reducible refine Frame.lit ?_ rfl; first | with_reducible assumption | split)

theorem unwrapDone_frame {m : Nat} {r u : State} {x0 x1 x2 x3} (h : Frame m r u) (hm : m &&& 70368744179720 = 70368744179720) : Frame m r (unwrapDone x0 x1 x2 x3 u) := by
  unfold unwrapDone
  try dsimp only
  repeat' first
    | with_reducible assumption
    | intro _
    | exact land_trans hm rfl
    | exact testBit_of_land hm (by decide)
    | with_reducible apply event_frame
    | with_reducible apply setReg_frame
    | with_reducible apply ite_frame
    | (split <;> try (rename_i hq; replace hq := congrArg Prod.snd hq; dsimp only at hq; subst hq))
    | (rename_i hq; replace hq := congrArg Prod.snd hq; dsimp only at hq; subst hq)
    | (rename_i hq; injection hq with hq; subst hq)

theorem unwrapKey_frame {m : Nat} {r u : State} {x0 x1} (h : Frame m r u) (hm : m &&& 70368744180744 = 70368744180744) : Frame m r (unwrapKey x0 x1 u) := by
  unfold unwrapKey
  try dsimp only
  repeat' first
    | with_reducible assumption
    | intro _
    | exact land_trans hm rfl
    | exact testBit_of_land hm (by decide)
    | with_reducible apply when'_frame
    | with_reducible apply unwrapDone_frame
    | with_reducible apply count_frame
    | with_reducible apply setLoaded_frame
    | with_reducible apply ite_frame
    | (split <;> try (rename_i hq; replace hq := congrArg Prod.snd hq; dsimp only at hq; subst hq))
    | (rename_i hq; replace hq := congrArg Prod.snd hq; dsimp only at hq; subst hq)
    | (rename_i hq; injection hq with hq; subst hq)

theorem eraseKey_frame {m : Nat} {r u : State} {x0} (h : Frame m r u) (hm : m &&& 70368744180744 = 70368744180744) : Frame m r (eraseKey x0 u) := by
  unfold eraseKey
  try dsimp only
  repeat' first
    | with_reducible assumption
    | intro _
    | exact land_trans hm rfl
    | exact testBit_of_land hm (by decide)
    | with_reducible apply unwrapDone_frame
    | with_reducible apply setLoaded_frame
    | with_reducible apply ite_frame
    | (split <;> try (rename_i hq; replace hq := congrArg Prod.snd hq; dsimp only at hq; subst hq))
    | (rename_i hq; replace hq := congrArg Prod.snd hq; dsimp only at hq; subst hq)
    | (rename_i hq; injection hq with hq; subst hq)

end Sys2Proof.Machine
end

