-- ==== Sys2Proof/Laws/FrameTally.lean ====
section
/-! SUPPORT. The frames of the operations of Machine/Tally.lean: each changes nothing outside its mask (see Laws/Frame.lean). -/
set_option Elab.async false
set_option linter.all false

namespace Sys2Proof.Machine

theorem modTally_frame {m : Nat} {r u : State} {x0} (h : Frame m r u) (hm : m &&& 67108864 = 67108864) : Frame m r (modTally x0 u) := by
  unfold modTally
  try dsimp only
  repeat' first
    | with_reducible assumption
    | intro _
    | exact land_trans hm rfl
    | exact testBit_of_land hm (by decide)
    | with_reducible apply ite_frame
    | (split <;> try (rename_i hq; replace hq := congrArg Prod.snd hq; dsimp only at hq; subst hq))
    | (rename_i hq; replace hq := congrArg Prod.snd hq; dsimp only at hq; subst hq)
    | (rename_i hq; injection hq with hq; subst hq)
    | (with_reducible refine Frame.lit ?_ rfl; first | with_reducible assumption | split)

theorem setSlotCopy_frame {m : Nat} {r u : State} {x0 x1 x2} (h : Frame m r u) (hm : m &&& 67108864 = 67108864) : Frame m r (setSlotCopy x0 x1 x2 u) := by
  unfold setSlotCopy
  try dsimp only
  repeat' first
    | with_reducible assumption
    | intro _
    | exact land_trans hm rfl
    | exact testBit_of_land hm (by decide)
    | with_reducible apply modTally_frame
    | with_reducible apply ite_frame
    | (split <;> try (rename_i hq; replace hq := congrArg Prod.snd hq; dsimp only at hq; subst hq))
    | (rename_i hq; replace hq := congrArg Prod.snd hq; dsimp only at hq; subst hq)
    | (rename_i hq; injection hq with hq; subst hq)

theorem putSlot_frame {m : Nat} {r u : State} {x0 x1} (h : Frame m r u) (hm : m &&& 67108864 = 67108864) : Frame m r (putSlot x0 x1 u) := by
  unfold putSlot
  try dsimp only
  repeat' first
    | with_reducible assumption
    | intro _
    | exact land_trans hm rfl
    | exact testBit_of_land hm (by decide)
    | with_reducible apply each_frame
    | with_reducible apply setSlotCopy_frame
    | with_reducible apply ite_frame
    | (split <;> try (rename_i hq; replace hq := congrArg Prod.snd hq; dsimp only at hq; subst hq))
    | (rename_i hq; replace hq := congrArg Prod.snd hq; dsimp only at hq; subst hq)
    | (rename_i hq; injection hq with hq; subst hq)

theorem setWork_frame {m : Nat} {r u : State} {x0 x1} (h : Frame m r u) (hm : m &&& 67108864 = 67108864) : Frame m r (setWork x0 x1 u) := by
  unfold setWork
  try dsimp only
  repeat' first
    | with_reducible assumption
    | intro _
    | exact land_trans hm rfl
    | exact testBit_of_land hm (by decide)
    | with_reducible apply modTally_frame
    | with_reducible apply ite_frame
    | (split <;> try (rename_i hq; replace hq := congrArg Prod.snd hq; dsimp only at hq; subst hq))
    | (rename_i hq; replace hq := congrArg Prod.snd hq; dsimp only at hq; subst hq)
    | (rename_i hq; injection hq with hq; subst hq)

theorem modWork_frame {m : Nat} {r u : State} {x0 x1} (h : Frame m r u) (hm : m &&& 67108864 = 67108864) : Frame m r (modWork x0 x1 u) := by
  unfold modWork
  try dsimp only
  repeat' first
    | with_reducible assumption
    | intro _
    | exact land_trans hm rfl
    | exact testBit_of_land hm (by decide)
    | with_reducible apply setWork_frame
    | with_reducible apply ite_frame
    | (split <;> try (rename_i hq; replace hq := congrArg Prod.snd hq; dsimp only at hq; subst hq))
    | (rename_i hq; replace hq := congrArg Prod.snd hq; dsimp only at hq; subst hq)
    | (rename_i hq; injection hq with hq; subst hq)

theorem pumpWrites_frame {m : Nat} {r u : State} (h : Frame m r u) (hm : m &&& 67108864 = 67108864) : Frame m r (pumpWrites u) := by
  unfold pumpWrites
  try dsimp only
  repeat' first
    | with_reducible assumption
    | intro _
    | exact land_trans hm rfl
    | exact testBit_of_land hm (by decide)
    | with_reducible apply modTally_frame
    | with_reducible apply ite_frame
    | (split <;> try (rename_i hq; replace hq := congrArg Prod.snd hq; dsimp only at hq; subst hq))
    | (rename_i hq; replace hq := congrArg Prod.snd hq; dsimp only at hq; subst hq)
    | (rename_i hq; injection hq with hq; subst hq)

theorem issueWrite_frame {m : Nat} {r u : State} {x0 x1} (h : Frame m r u) (hm : m &&& 67108864 = 67108864) : Frame m r (issueWrite x0 x1 u) := by
  unfold issueWrite
  try dsimp only
  repeat' first
    | with_reducible assumption
    | intro _
    | exact land_trans hm rfl
    | exact testBit_of_land hm (by decide)
    | with_reducible apply pumpWrites_frame
    | with_reducible apply modTally_frame
    | with_reducible apply ite_frame
    | (split <;> try (rename_i hq; replace hq := congrArg Prod.snd hq; dsimp only at hq; subst hq))
    | (rename_i hq; replace hq := congrArg Prod.snd hq; dsimp only at hq; subst hq)
    | (rename_i hq; injection hq with hq; subst hq)

theorem writeMark_frame {m : Nat} {r u : State} {x0 x1} (h : Frame m r u) (hm : m &&& 67108864 = 67108864) : Frame m r (writeMark x0 x1 u) := by
  unfold writeMark
  try dsimp only
  repeat' first
    | with_reducible assumption
    | intro _
    | exact land_trans hm rfl
    | exact testBit_of_land hm (by decide)
    | with_reducible apply each_frame
    | with_reducible apply issueWrite_frame
    | with_reducible apply setSlotCopy_frame
    | with_reducible apply ite_frame
    | (split <;> try (rename_i hq; replace hq := congrArg Prod.snd hq; dsimp only at hq; subst hq))
    | (rename_i hq; replace hq := congrArg Prod.snd hq; dsimp only at hq; subst hq)
    | (rename_i hq; injection hq with hq; subst hq)

theorem setNextSseq_frame {m : Nat} {r u : State} {x0 x1} (h : Frame m r u) (hm : m &&& 67108864 = 67108864) : Frame m r (setNextSseq x0 x1 u) := by
  unfold setNextSseq
  try dsimp only
  repeat' first
    | with_reducible assumption
    | intro _
    | exact land_trans hm rfl
    | exact testBit_of_land hm (by decide)
    | with_reducible apply modTally_frame
    | with_reducible apply ite_frame
    | (split <;> try (rename_i hq; replace hq := congrArg Prod.snd hq; dsimp only at hq; subst hq))
    | (rename_i hq; replace hq := congrArg Prod.snd hq; dsimp only at hq; subst hq)
    | (rename_i hq; injection hq with hq; subst hq)

theorem copyPayload_frame {m : Nat} {r u : State} {x0 x1} (h : Frame m r u) (hm : m &&& 13194206773250 = 13194206773250) : Frame m r (copyPayload x0 x1 u) := by
  unfold copyPayload
  try dsimp only
  repeat' first
    | with_reducible assumption
    | intro _
    | exact land_trans hm rfl
    | exact testBit_of_land hm (by decide)
    | with_reducible apply storeData_frame
    | with_reducible apply modWork_frame
    | with_reducible apply ite_frame
    | (split <;> try (rename_i hq; replace hq := congrArg Prod.snd hq; dsimp only at hq; subst hq))
    | (rename_i hq; replace hq := congrArg Prod.snd hq; dsimp only at hq; subst hq)
    | (rename_i hq; injection hq with hq; subst hq)

theorem dropCopy_frame {m : Nat} {r u : State} {x0} (h : Frame m r u) (hm : m &&& 83562951477262 = 83562951477262) : Frame m r (dropCopy x0 u) := by
  unfold dropCopy
  try dsimp only
  repeat' first
    | with_reducible assumption
    | intro _
    | exact land_trans hm rfl
    | exact testBit_of_land hm (by decide)
    | with_reducible apply setWork_frame
    | with_reducible apply freeTubsOf_frame
    | with_reducible apply ite_frame
    | (split <;> try (rename_i hq; replace hq := congrArg Prod.snd hq; dsimp only at hq; subst hq))
    | (rename_i hq; replace hq := congrArg Prod.snd hq; dsimp only at hq; subst hq)
    | (rename_i hq; injection hq with hq; subst hq)

theorem sendPayload_frame {m : Nat} {r u : State} {x0} (h : Frame m r u) (hm : m &&& 8 = 8) : Frame m r (sendPayload x0 u).2 := by
  unfold sendPayload
  try dsimp only
  repeat' first
    | with_reducible assumption
    | intro _
    | exact land_trans hm rfl
    | exact testBit_of_land hm (by decide)
    | with_reducible apply when'_frame
    | with_reducible apply count_frame
    | with_reducible apply ite_frame
    | (split <;> try (rename_i hq; replace hq := congrArg Prod.snd hq; dsimp only at hq; subst hq))
    | (rename_i hq; replace hq := congrArg Prod.snd hq; dsimp only at hq; subst hq)
    | (rename_i hq; injection hq with hq; subst hq)

theorem giveTally_frame {m : Nat} {r u : State} (h : Frame m r u) (hm : m &&& 70368811289608 = 70368811289608) : Frame m r (giveTally u).2 := by
  unfold giveTally
  try dsimp only
  repeat' first
    | with_reducible assumption
    | intro _
    | exact land_trans hm rfl
    | exact testBit_of_land hm (by decide)
    | with_reducible apply modTally_frame
    | with_reducible apply keepWrite_frame
    | with_reducible apply ite_frame
    | (split <;> try (rename_i hq; replace hq := congrArg Prod.snd hq; dsimp only at hq; subst hq))
    | (rename_i hq; replace hq := congrArg Prod.snd hq; dsimp only at hq; subst hq)
    | (rename_i hq; injection hq with hq; subst hq)

theorem sendReply_frame {m : Nat} {r u : State} {x0 x1} (h : Frame m r u) (hm : m &&& 13194141237262 = 13194141237262) : Frame m r (sendReply x0 x1 u) := by
  unfold sendReply
  try dsimp only
  repeat' first
    | with_reducible assumption
    | intro _
    | exact land_trans hm rfl
    | exact testBit_of_land hm (by decide)
    | with_reducible apply admitLane_frame
    | with_reducible apply ite_frame
    | (split <;> try (rename_i hq; replace hq := congrArg Prod.snd hq; dsimp only at hq; subst hq))
    | (rename_i hq; replace hq := congrArg Prod.snd hq; dsimp only at hq; subst hq)
    | (rename_i hq; injection hq with hq; subst hq)

theorem sendHeadEnd_frame {m : Nat} {r u : State} {x0 x1 x2} (h : Frame m r u) (hm : m &&& 13194140188682 = 13194140188682) : Frame m r (sendHeadEnd x0 x1 x2 u) := by
  unfold sendHeadEnd
  try dsimp only
  repeat' first
    | with_reducible assumption
    | intro _
    | exact land_trans hm rfl
    | exact testBit_of_land hm (by decide)
    | with_reducible apply admitTally_frame
    | with_reducible apply ite_frame
    | (split <;> try (rename_i hq; replace hq := congrArg Prod.snd hq; dsimp only at hq; subst hq))
    | (rename_i hq; replace hq := congrArg Prod.snd hq; dsimp only at hq; subst hq)
    | (rename_i hq; injection hq with hq; subst hq)

theorem sendEndpoint_frame {m : Nat} {r u : State} {x0 x1} (h : Frame m r u) (hm : m &&& 13194141237262 = 13194141237262) : Frame m r (sendEndpoint x0 x1 u) := by
  unfold sendEndpoint
  try dsimp only
  repeat' first
    | with_reducible assumption
    | intro _
    | exact land_trans hm rfl
    | exact testBit_of_land hm (by decide)
    | with_reducible apply admitLane_frame
    | with_reducible apply ite_frame
    | (split <;> try (rename_i hq; replace hq := congrArg Prod.snd hq; dsimp only at hq; subst hq))
    | (rename_i hq; replace hq := congrArg Prod.snd hq; dsimp only at hq; subst hq)
    | (rename_i hq; injection hq with hq; subst hq)

theorem answer_frame {m : Nat} {r u : State} {x0 x1} (h : Frame m r u) (hm : m &&& 13194141237262 = 13194141237262) : Frame m r (answer x0 x1 u) := by
  unfold answer
  try dsimp only
  repeat' first
    | with_reducible assumption
    | intro _
    | exact land_trans hm rfl
    | exact testBit_of_land hm (by decide)
    | with_reducible apply sendReply_frame
    | with_reducible apply sendHeadEnd_frame
    | with_reducible apply ite_frame
    | (split <;> try (rename_i hq; replace hq := congrArg Prod.snd hq; dsimp only at hq; subst hq))
    | (rename_i hq; replace hq := congrArg Prod.snd hq; dsimp only at hq; subst hq)
    | (rename_i hq; injection hq with hq; subst hq)

theorem refuse_frame {m : Nat} {r u : State} {x0 x1 x2 x3 x4 x5} (h : Frame m r u) (hm : m &&& 13194141237262 = 13194141237262) : Frame m r (refuse x0 x1 x2 x3 x4 x5 u) := by
  unfold refuse
  try dsimp only
  repeat' first
    | with_reducible assumption
    | intro _
    | exact land_trans hm rfl
    | exact testBit_of_land hm (by decide)
    | with_reducible apply answer_frame
    | with_reducible apply count_frame
    | with_reducible apply ite_frame
    | (split <;> try (rename_i hq; replace hq := congrArg Prod.snd hq; dsimp only at hq; subst hq))
    | (rename_i hq; replace hq := congrArg Prod.snd hq; dsimp only at hq; subst hq)
    | (rename_i hq; injection hq with hq; subst hq)

theorem refuseMsg_frame {m : Nat} {r u : State} {x0 x1 x2 x3} (h : Frame m r u) (hm : m &&& 13194141237262 = 13194141237262) : Frame m r (refuseMsg x0 x1 x2 x3 u) := by
  unfold refuseMsg
  try dsimp only
  repeat' first
    | with_reducible assumption
    | intro _
    | exact land_trans hm rfl
    | exact testBit_of_land hm (by decide)
    | with_reducible apply refuse_frame
    | with_reducible apply ite_frame
    | (split <;> try (rename_i hq; replace hq := congrArg Prod.snd hq; dsimp only at hq; subst hq))
    | (rename_i hq; replace hq := congrArg Prod.snd hq; dsimp only at hq; subst hq)
    | (rename_i hq; injection hq with hq; subst hq)

theorem receiveTally_frame {m : Nat} {r u : State} {x0 x1 x2 x3 x4} (h : Frame m r u) (hm : m &&& 13194141237262 = 13194141237262) : Frame m r (receiveTally x0 x1 x2 x3 x4 u).2 := by
  unfold receiveTally
  try dsimp only
  repeat' first
    | with_reducible assumption
    | intro _
    | exact land_trans hm rfl
    | exact testBit_of_land hm (by decide)
    | with_reducible apply count_frame
    | with_reducible apply refuseMsg_frame
    | with_reducible apply ite_frame
    | (split <;> try (rename_i hq; replace hq := congrArg Prod.snd hq; dsimp only at hq; subst hq))
    | (rename_i hq; replace hq := congrArg Prod.snd hq; dsimp only at hq; subst hq)
    | (rename_i hq; injection hq with hq; subst hq)

theorem writePending_frame {m : Nat} {r u : State} {x0 x1 x2 x3} (h : Frame m r u) (hm : m &&& 83562950953994 = 83562950953994) : Frame m r (writePending x0 x1 x2 x3 u) := by
  unfold writePending
  try dsimp only
  repeat' first
    | with_reducible assumption
    | intro _
    | exact land_trans hm rfl
    | exact testBit_of_land hm (by decide)
    | with_reducible apply giveTally_frame
    | with_reducible apply modTally_frame
    | with_reducible apply setNextSseq_frame
    | with_reducible apply issueWrite_frame
    | with_reducible apply copyPayload_frame
    | with_reducible apply setWork_frame
    | with_reducible apply putSlot_frame
    | with_reducible apply ite_frame
    | (split <;> try (rename_i hq; replace hq := congrArg Prod.snd hq; dsimp only at hq; subst hq))
    | (rename_i hq; replace hq := congrArg Prod.snd hq; dsimp only at hq; subst hq)
    | (rename_i hq; injection hq with hq; subst hq)

theorem repeatSubmit_frame {m : Nat} {r u : State} {x0 x1} (h : Frame m r u) (hm : m &&& 13194141237262 = 13194141237262) : Frame m r (repeatSubmit x0 x1 u) := by
  unfold repeatSubmit
  try dsimp only
  repeat' first
    | with_reducible assumption
    | intro _
    | exact land_trans hm rfl
    | exact testBit_of_land hm (by decide)
    | with_reducible apply count_frame
    | with_reducible apply answer_frame
    | with_reducible apply refuseMsg_frame
    | with_reducible apply ite_frame
    | (split <;> try (rename_i hq; replace hq := congrArg Prod.snd hq; dsimp only at hq; subst hq))
    | (rename_i hq; replace hq := congrArg Prod.snd hq; dsimp only at hq; subst hq)
    | (rename_i hq; injection hq with hq; subst hq)

theorem submitChecked_frame {m : Nat} {r u : State} {x0 x1 x2} (h : Frame m r u) (hm : m &&& 83562952526862 = 83562952526862) : Frame m r (submitChecked x0 x1 x2 u) := by
  unfold submitChecked
  try dsimp only
  repeat' first
    | with_reducible assumption
    | intro _
    | exact land_trans hm rfl
    | exact testBit_of_land hm (by decide)
    | with_reducible apply refuseMsg_frame
    | with_reducible apply repeatSubmit_frame
    | with_reducible apply refuse_frame
    | with_reducible apply writePending_frame
    | with_reducible apply ite_frame
    | (split <;> try (rename_i hq; replace hq := congrArg Prod.snd hq; dsimp only at hq; subst hq))
    | (rename_i hq; replace hq := congrArg Prod.snd hq; dsimp only at hq; subst hq)
    | (rename_i hq; injection hq with hq; subst hq)

theorem submit_frame {m : Nat} {r u : State} {x0 x1 x2} (h : Frame m r u) (hm : m &&& 83562952526862 = 83562952526862) : Frame m r (submit x0 x1 x2 u) := by
  unfold submit
  try dsimp only
  repeat' first
    | with_reducible assumption
    | intro _
    | exact land_trans hm rfl
    | exact testBit_of_land hm (by decide)
    | with_reducible apply receiveTally_frame
    | with_reducible apply submitChecked_frame
    | with_reducible apply ite_frame
    | (split <;> try (rename_i hq; replace hq := congrArg Prod.snd hq; dsimp only at hq; subst hq))
    | (rename_i hq; replace hq := congrArg Prod.snd hq; dsimp only at hq; subst hq)
    | (rename_i hq; injection hq with hq; subst hq)

theorem deliverChecked_frame {m : Nat} {r u : State} {x0 x1 x2} (h : Frame m r u) (hm : m &&& 83562952526862 = 83562952526862) : Frame m r (deliverChecked x0 x1 x2 u) := by
  unfold deliverChecked
  try dsimp only
  repeat' first
    | with_reducible assumption
    | intro _
    | exact land_trans hm rfl
    | exact testBit_of_land hm (by decide)
    | with_reducible apply count_frame
    | with_reducible apply answer_frame
    | with_reducible apply refuseMsg_frame
    | with_reducible apply writePending_frame
    | with_reducible apply ite_frame
    | (split <;> try (rename_i hq; replace hq := congrArg Prod.snd hq; dsimp only at hq; subst hq))
    | (rename_i hq; replace hq := congrArg Prod.snd hq; dsimp only at hq; subst hq)
    | (rename_i hq; injection hq with hq; subst hq)

theorem deliver_frame {m : Nat} {r u : State} {x0 x1 x2} (h : Frame m r u) (hm : m &&& 83562952526862 = 83562952526862) : Frame m r (deliver x0 x1 x2 u) := by
  unfold deliver
  try dsimp only
  repeat' first
    | with_reducible assumption
    | intro _
    | exact land_trans hm rfl
    | exact testBit_of_land hm (by decide)
    | with_reducible apply receiveTally_frame
    | with_reducible apply deliverChecked_frame
    | with_reducible apply ite_frame
    | (split <;> try (rename_i hq; replace hq := congrArg Prod.snd hq; dsimp only at hq; subst hq))
    | (rename_i hq; replace hq := congrArg Prod.snd hq; dsimp only at hq; subst hq)
    | (rename_i hq; injection hq with hq; subst hq)

theorem noteSent_frame {m : Nat} {r u : State} {x0} (h : Frame m r u) (hm : m &&& 67108864 = 67108864) : Frame m r (noteSent x0 u) := by
  unfold noteSent
  try dsimp only
  repeat' first
    | with_reducible assumption
    | intro _
    | exact land_trans hm rfl
    | exact testBit_of_land hm (by decide)
    | with_reducible apply modWork_frame
    | with_reducible apply ite_frame
    | (split <;> try (rename_i hq; replace hq := congrArg Prod.snd hq; dsimp only at hq; subst hq))
    | (rename_i hq; replace hq := congrArg Prod.snd hq; dsimp only at hq; subst hq)
    | (rename_i hq; injection hq with hq; subst hq)

theorem sendUp_frame {m : Nat} {r u : State} {x0 x1} (h : Frame m r u) (hm : m &&& 13194207297546 = 13194207297546) : Frame m r (sendUp x0 x1 u) := by
  unfold sendUp
  try dsimp only
  repeat' first
    | with_reducible assumption
    | intro _
    | exact land_trans hm rfl
    | exact testBit_of_land hm (by decide)
    | with_reducible apply sendPayload_frame
    | with_reducible apply sendHeadEnd_frame
    | with_reducible apply noteSent_frame
    | with_reducible apply ite_frame
    | (split <;> try (rename_i hq; replace hq := congrArg Prod.snd hq; dsimp only at hq; subst hq))
    | (rename_i hq; replace hq := congrArg Prod.snd hq; dsimp only at hq; subst hq)
    | (rename_i hq; injection hq with hq; subst hq)

theorem sendDown_frame {m : Nat} {r u : State} {x0 x1} (h : Frame m r u) (hm : m &&& 13194208346126 = 13194208346126) : Frame m r (sendDown x0 x1 u) := by
  unfold sendDown
  try dsimp only
  repeat' first
    | with_reducible assumption
    | intro _
    | exact land_trans hm rfl
    | exact testBit_of_land hm (by decide)
    | with_reducible apply sendPayload_frame
    | with_reducible apply sendEndpoint_frame
    | with_reducible apply noteSent_frame
    | with_reducible apply ite_frame
    | (split <;> try (rename_i hq; replace hq := congrArg Prod.snd hq; dsimp only at hq; subst hq))
    | (rename_i hq; replace hq := congrArg Prod.snd hq; dsimp only at hq; subst hq)
    | (rename_i hq; injection hq with hq; subst hq)

theorem carryIdent_frame {m : Nat} {r u : State} {x0} (h : Frame m r u) (hm : m &&& 13194207297546 = 13194207297546) : Frame m r (carryIdent x0 u) := by
  unfold carryIdent
  try dsimp only
  repeat' first
    | with_reducible assumption
    | intro _
    | exact land_trans hm rfl
    | exact testBit_of_land hm (by decide)
    | with_reducible apply each_frame
    | with_reducible apply when'_frame
    | with_reducible apply count_frame
    | with_reducible apply sendUp_frame
    | with_reducible apply ite_frame
    | (split <;> try (rename_i hq; replace hq := congrArg Prod.snd hq; dsimp only at hq; subst hq))
    | (rename_i hq; replace hq := congrArg Prod.snd hq; dsimp only at hq; subst hq)
    | (rename_i hq; injection hq with hq; subst hq)

theorem resendUp_frame {m : Nat} {r u : State} {x0} (h : Frame m r u) (hm : m &&& 13194207297546 = 13194207297546) : Frame m r (resendUp x0 u) := by
  unfold resendUp
  try dsimp only
  repeat' first
    | with_reducible assumption
    | intro _
    | exact land_trans hm rfl
    | exact testBit_of_land hm (by decide)
    | with_reducible apply count_frame
    | with_reducible apply sendUp_frame
    | with_reducible apply ite_frame
    | (split <;> try (rename_i hq; replace hq := congrArg Prod.snd hq; dsimp only at hq; subst hq))
    | (rename_i hq; replace hq := congrArg Prod.snd hq; dsimp only at hq; subst hq)
    | (rename_i hq; injection hq with hq; subst hq)

theorem tallyResendHe_frame {m : Nat} {r u : State} {x0} (h : Frame m r u) (hm : m &&& 13194207297546 = 13194207297546) : Frame m r (tallyResendHe x0 u) := by
  unfold tallyResendHe
  try dsimp only
  repeat' first
    | with_reducible assumption
    | intro _
    | exact land_trans hm rfl
    | exact testBit_of_land hm (by decide)
    | with_reducible apply each_frame
    | with_reducible apply resendUp_frame
    | with_reducible apply ite_frame
    | (split <;> try (rename_i hq; replace hq := congrArg Prod.snd hq; dsimp only at hq; subst hq))
    | (rename_i hq; replace hq := congrArg Prod.snd hq; dsimp only at hq; subst hq)
    | (rename_i hq; injection hq with hq; subst hq)

theorem leaveUp_frame {m : Nat} {r u : State} {x0} (h : Frame m r u) (hm : m &&& 13194207297546 = 13194207297546) : Frame m r (leaveUp x0 u) := by
  unfold leaveUp
  try dsimp only
  repeat' first
    | with_reducible assumption
    | intro _
    | exact land_trans hm rfl
    | exact testBit_of_land hm (by decide)
    | with_reducible apply resendUp_frame
    | with_reducible apply sendUp_frame
    | with_reducible apply ite_frame
    | (split <;> try (rename_i hq; replace hq := congrArg Prod.snd hq; dsimp only at hq; subst hq))
    | (rename_i hq; replace hq := congrArg Prod.snd hq; dsimp only at hq; subst hq)
    | (rename_i hq; injection hq with hq; subst hq)

theorem leaveFlow_frame {m : Nat} {r u : State} {x0} (h : Frame m r u) (hm : m &&& 13194207297546 = 13194207297546) : Frame m r (leaveFlow x0 u) := by
  unfold leaveFlow
  try dsimp only
  repeat' first
    | with_reducible assumption
    | intro _
    | exact land_trans hm rfl
    | exact testBit_of_land hm (by decide)
    | with_reducible apply each_frame
    | with_reducible apply leaveUp_frame
    | with_reducible apply ite_frame
    | (split <;> try (rename_i hq; replace hq := congrArg Prod.snd hq; dsimp only at hq; subst hq))
    | (rename_i hq; replace hq := congrArg Prod.snd hq; dsimp only at hq; subst hq)
    | (rename_i hq; injection hq with hq; subst hq)

theorem resendDown_frame {m : Nat} {r u : State} {x0} (h : Frame m r u) (hm : m &&& 13194208346126 = 13194208346126) : Frame m r (resendDown x0 u) := by
  unfold resendDown
  try dsimp only
  repeat' first
    | with_reducible assumption
    | intro _
    | exact land_trans hm rfl
    | exact testBit_of_land hm (by decide)
    | with_reducible apply count_frame
    | with_reducible apply sendDown_frame
    | with_reducible apply ite_frame
    | (split <;> try (rename_i hq; replace hq := congrArg Prod.snd hq; dsimp only at hq; subst hq))
    | (rename_i hq; replace hq := congrArg Prod.snd hq; dsimp only at hq; subst hq)
    | (rename_i hq; injection hq with hq; subst hq)

theorem tallyResendLocal_frame {m : Nat} {r u : State} {x0} (h : Frame m r u) (hm : m &&& 13194208346126 = 13194208346126) : Frame m r (tallyResendLocal x0 u) := by
  unfold tallyResendLocal
  try dsimp only
  repeat' first
    | with_reducible assumption
    | intro _
    | exact land_trans hm rfl
    | exact testBit_of_land hm (by decide)
    | with_reducible apply each_frame
    | with_reducible apply resendDown_frame
    | with_reducible apply ite_frame
    | (split <;> try (rename_i hq; replace hq := congrArg Prod.snd hq; dsimp only at hq; subst hq))
    | (rename_i hq; replace hq := congrArg Prod.snd hq; dsimp only at hq; subst hq)
    | (rename_i hq; injection hq with hq; subst hq)

theorem resendAll_frame {m : Nat} {r u : State} (h : Frame m r u) (hm : m &&& 13194208346126 = 13194208346126) : Frame m r (resendAll u) := by
  unfold resendAll
  try dsimp only
  repeat' first
    | with_reducible assumption
    | intro _
    | exact land_trans hm rfl
    | exact testBit_of_land hm (by decide)
    | with_reducible apply each_frame
    | with_reducible apply resendDown_frame
    | with_reducible apply leaveUp_frame
    | with_reducible apply ite_frame
    | (split <;> try (rename_i hq; replace hq := congrArg Prod.snd hq; dsimp only at hq; subst hq))
    | (rename_i hq; replace hq := congrArg Prod.snd hq; dsimp only at hq; subst hq)
    | (rename_i hq; injection hq with hq; subst hq)

theorem deliverFirst_frame {m : Nat} {r u : State} {x0 x1} (h : Frame m r u) (hm : m &&& 13194208346126 = 13194208346126) : Frame m r (deliverFirst x0 x1 u) := by
  induction x1 generalizing  u with
  | nil =>
    unfold deliverFirst
    try dsimp only
    repeat' first
      | with_reducible assumption
      | intro _
      | exact land_trans hm rfl
      | exact testBit_of_land hm (by decide)
      | with_reducible apply when'_frame
      | with_reducible apply count_frame
      | with_reducible apply sendDown_frame
      | with_reducible apply ite_frame
      | (split <;> try (rename_i hq; replace hq := congrArg Prod.snd hq; dsimp only at hq; subst hq))
      | (rename_i hq; replace hq := congrArg Prod.snd hq; dsimp only at hq; subst hq)
      | (rename_i hq; injection hq with hq; subst hq)
  | cons y l ih =>
    unfold deliverFirst
    try dsimp only
    repeat' first
      | with_reducible assumption
      | intro _
      | exact land_trans hm rfl
      | exact testBit_of_land hm (by decide)
      | with_reducible apply when'_frame
      | with_reducible apply count_frame
      | with_reducible apply sendDown_frame
      | with_reducible apply ih
      | with_reducible apply ite_frame
      | (split <;> try (rename_i hq; replace hq := congrArg Prod.snd hq; dsimp only at hq; subst hq))
      | (rename_i hq; replace hq := congrArg Prod.snd hq; dsimp only at hq; subst hq)
      | (rename_i hq; injection hq with hq; subst hq)

theorem deliverToRecipient_frame {m : Nat} {r u : State} {x0} (h : Frame m r u) (hm : m &&& 13194208346126 = 13194208346126) : Frame m r (deliverToRecipient x0 u) := by
  unfold deliverToRecipient
  try dsimp only
  repeat' first
    | with_reducible assumption
    | intro _
    | exact land_trans hm rfl
    | exact testBit_of_land hm (by decide)
    | with_reducible apply deliverFirst_frame
    | with_reducible apply ite_frame
    | (split <;> try (rename_i hq; replace hq := congrArg Prod.snd hq; dsimp only at hq; subst hq))
    | (rename_i hq; replace hq := congrArg Prod.snd hq; dsimp only at hq; subst hq)
    | (rename_i hq; injection hq with hq; subst hq)

theorem acceptSlot_frame {m : Nat} {r u : State} {x0} (h : Frame m r u) (hm : m &&& 13194208346382 = 13194208346382) : Frame m r (acceptSlot x0 u) := by
  unfold acceptSlot
  try dsimp only
  repeat' first
    | with_reducible assumption
    | intro _
    | exact land_trans hm rfl
    | exact testBit_of_land hm (by decide)
    | with_reducible apply writeMark_frame
    | with_reducible apply setWork_frame
    | with_reducible apply answer_frame
    | with_reducible apply count64_frame
    | with_reducible apply sendReply_frame
    | with_reducible apply leaveFlow_frame
    | with_reducible apply sendUp_frame
    | with_reducible apply ite_frame
    | (split <;> try (rename_i hq; replace hq := congrArg Prod.snd hq; dsimp only at hq; subst hq))
    | (rename_i hq; replace hq := congrArg Prod.snd hq; dsimp only at hq; subst hq)
    | (rename_i hq; injection hq with hq; subst hq)
    | (with_reducible refine Frame.lit ?_ rfl; first | with_reducible assumption | with_reducible apply writeMark_frame | with_reducible apply setWork_frame | with_reducible apply answer_frame | with_reducible apply count64_frame | with_reducible apply sendReply_frame | with_reducible apply leaveFlow_frame | with_reducible apply sendUp_frame| split)

theorem acceptInOrder_frame {m : Nat} {r u : State} {x0} (h : Frame m r u) (hm : m &&& 13194208346382 = 13194208346382) : Frame m r (acceptInOrder x0 u) := by
  induction x0 generalizing  u with
  | nil =>
    unfold acceptInOrder
    try dsimp only
    repeat' first
      | with_reducible assumption
      | intro _
      | exact land_trans hm rfl
      | exact testBit_of_land hm (by decide)
      | with_reducible apply acceptSlot_frame
      | with_reducible apply ite_frame
      | (split <;> try (rename_i hq; replace hq := congrArg Prod.snd hq; dsimp only at hq; subst hq))
      | (rename_i hq; replace hq := congrArg Prod.snd hq; dsimp only at hq; subst hq)
      | (rename_i hq; injection hq with hq; subst hq)
  | cons y l ih =>
    unfold acceptInOrder
    try dsimp only
    repeat' first
      | with_reducible assumption
      | intro _
      | exact land_trans hm rfl
      | exact testBit_of_land hm (by decide)
      | with_reducible apply acceptSlot_frame
      | with_reducible apply ih
      | with_reducible apply ite_frame
      | (split <;> try (rename_i hq; replace hq := congrArg Prod.snd hq; dsimp only at hq; subst hq))
      | (rename_i hq; replace hq := congrArg Prod.snd hq; dsimp only at hq; subst hq)
      | (rename_i hq; injection hq with hq; subst hq)

theorem journalWriteVerified_frame {m : Nat} {r u : State} {x0} (h : Frame m r u) (hm : m &&& 13194208346382 = 13194208346382) : Frame m r (journalWriteVerified x0 u) := by
  unfold journalWriteVerified
  try dsimp only
  repeat' first
    | with_reducible assumption
    | intro _
    | exact land_trans hm rfl
    | exact testBit_of_land hm (by decide)
    | with_reducible apply pumpWrites_frame
    | with_reducible apply modTally_frame
    | with_reducible apply modWork_frame
    | with_reducible apply acceptInOrder_frame
    | with_reducible apply ite_frame
    | (split <;> try (rename_i hq; replace hq := congrArg Prod.snd hq; dsimp only at hq; subst hq))
    | (rename_i hq; replace hq := congrArg Prod.snd hq; dsimp only at hq; subst hq)
    | (rename_i hq; injection hq with hq; subst hq)

theorem refuseSlot_frame {m : Nat} {r u : State} {x0 x1} (h : Frame m r u) (hm : m &&& 13194141237262 = 13194141237262) : Frame m r (refuseSlot x0 x1 u) := by
  unfold refuseSlot
  try dsimp only
  repeat' first
    | with_reducible assumption
    | intro _
    | exact land_trans hm rfl
    | exact testBit_of_land hm (by decide)
    | with_reducible apply refuse_frame
    | with_reducible apply ite_frame
    | (split <;> try (rename_i hq; replace hq := congrArg Prod.snd hq; dsimp only at hq; subst hq))
    | (rename_i hq; replace hq := congrArg Prod.snd hq; dsimp only at hq; subst hq)
    | (rename_i hq; injection hq with hq; subst hq)

theorem voidSlot_frame {m : Nat} {r u : State} {x0} (h : Frame m r u) (hm : m &&& 83562951477262 = 83562951477262) : Frame m r (voidSlot x0 u) := by
  unfold voidSlot
  try dsimp only
  repeat' first
    | with_reducible assumption
    | intro _
    | exact land_trans hm rfl
    | exact testBit_of_land hm (by decide)
    | with_reducible apply writeMark_frame
    | with_reducible apply dropCopy_frame
    | with_reducible apply ite_frame
    | (split <;> try (rename_i hq; replace hq := congrArg Prod.snd hq; dsimp only at hq; subst hq))
    | (rename_i hq; replace hq := congrArg Prod.snd hq; dsimp only at hq; subst hq)
    | (rename_i hq; injection hq with hq; subst hq)

theorem splitFaults_frame {m : Nat} {r u : State} {x0 x1} (h : Frame m r u) (hm : m &&& 8589942792 = 8589942792) : Frame m r (splitFaults x0 x1 u) := by
  unfold splitFaults
  try dsimp only
  repeat' first
    | with_reducible assumption
    | intro _
    | exact land_trans hm rfl
    | exact testBit_of_land hm (by decide)
    | with_reducible apply each_frame
    | with_reducible apply noteFault_frame
    | with_reducible apply count_frame
    | with_reducible apply ite_frame
    | (split <;> try (rename_i hq; replace hq := congrArg Prod.snd hq; dsimp only at hq; subst hq))
    | (rename_i hq; replace hq := congrArg Prod.snd hq; dsimp only at hq; subst hq)
    | (rename_i hq; injection hq with hq; subst hq)

theorem evTallySplit_frame {m : Nat} {r u : State} {x0 x1 x2} (h : Frame m r u) (hm : m &&& 83562952525838 = 83562952525838) : Frame m r (evTallySplit x0 x1 x2 u) := by
  unfold evTallySplit
  try dsimp only
  repeat' first
    | with_reducible assumption
    | intro _
    | exact land_trans hm rfl
    | exact testBit_of_land hm (by decide)
    | with_reducible apply each_frame
    | with_reducible apply event_frame
    | with_reducible apply count_frame
    | with_reducible apply setNextSseq_frame
    | with_reducible apply voidSlot_frame
    | with_reducible apply refuseSlot_frame
    | with_reducible apply pumpWrites_frame
    | with_reducible apply modTally_frame
    | with_reducible apply setSlotCopy_frame
    | with_reducible apply dropCopy_frame
    | with_reducible apply ite_frame
    | (split <;> try (rename_i hq; replace hq := congrArg Prod.snd hq; dsimp only at hq; subst hq))
    | (rename_i hq; replace hq := congrArg Prod.snd hq; dsimp only at hq; subst hq)
    | (rename_i hq; injection hq with hq; subst hq)

theorem slotRemapped_frame {m : Nat} {r u : State} {x0 x1} (h : Frame m r u) (hm : m &&& 67108864 = 67108864) : Frame m r (slotRemapped x0 x1 u) := by
  unfold slotRemapped
  try dsimp only
  repeat' first
    | with_reducible assumption
    | intro _
    | exact land_trans hm rfl
    | exact testBit_of_land hm (by decide)
    | with_reducible apply modTally_frame
    | with_reducible apply setSlotCopy_frame
    | with_reducible apply ite_frame
    | (split <;> try (rename_i hq; replace hq := congrArg Prod.snd hq; dsimp only at hq; subst hq))
    | (rename_i hq; replace hq := congrArg Prod.snd hq; dsimp only at hq; subst hq)
    | (rename_i hq; injection hq with hq; subst hq)

theorem noteReceipt_frame {m : Nat} {r u : State} {x0} (h : Frame m r u) (hm : m &&& 67108864 = 67108864) : Frame m r (noteReceipt x0 u) := by
  unfold noteReceipt
  try dsimp only
  repeat' first
    | with_reducible assumption
    | intro _
    | exact land_trans hm rfl
    | exact testBit_of_land hm (by decide)
    | with_reducible apply modWork_frame
    | with_reducible apply ite_frame
    | (split <;> try (rename_i hq; replace hq := congrArg Prod.snd hq; dsimp only at hq; subst hq))
    | (rename_i hq; replace hq := congrArg Prod.snd hq; dsimp only at hq; subst hq)
    | (rename_i hq; injection hq with hq; subst hq)

theorem receiptFromHeadEnd_frame {m : Nat} {r u : State} {x0 x1 x2} (h : Frame m r u) (hm : m &&& 13194208346126 = 13194208346126) : Frame m r (receiptFromHeadEnd x0 x1 x2 u) := by
  unfold receiptFromHeadEnd
  try dsimp only
  repeat' first
    | with_reducible assumption
    | intro _
    | exact land_trans hm rfl
    | exact testBit_of_land hm (by decide)
    | with_reducible apply receiveTally_frame
    | with_reducible apply noteReceipt_frame
    | with_reducible apply count_frame
    | with_reducible apply ite_frame
    | (split <;> try (rename_i hq; replace hq := congrArg Prod.snd hq; dsimp only at hq; subst hq))
    | (rename_i hq; replace hq := congrArg Prod.snd hq; dsimp only at hq; subst hq)
    | (rename_i hq; injection hq with hq; subst hq)

theorem receiptFromRecipient_frame {m : Nat} {r u : State} {x0 x1 x2} (h : Frame m r u) (hm : m &&& 13194208346126 = 13194208346126) : Frame m r (receiptFromRecipient x0 x1 x2 u) := by
  unfold receiptFromRecipient
  try dsimp only
  repeat' first
    | with_reducible assumption
    | intro _
    | exact land_trans hm rfl
    | exact testBit_of_land hm (by decide)
    | with_reducible apply receiveTally_frame
    | with_reducible apply noteReceipt_frame
    | with_reducible apply count_frame
    | with_reducible apply ite_frame
    | (split <;> try (rename_i hq; replace hq := congrArg Prod.snd hq; dsimp only at hq; subst hq))
    | (rename_i hq; replace hq := congrArg Prod.snd hq; dsimp only at hq; subst hq)
    | (rename_i hq; injection hq with hq; subst hq)

theorem refuseFromHeadEnd_frame {m : Nat} {r u : State} {x0 x1 x2} (h : Frame m r u) (hm : m &&& 13194141237262 = 13194141237262) : Frame m r (refuseFromHeadEnd x0 x1 x2 u) := by
  unfold refuseFromHeadEnd
  try dsimp only
  repeat' first
    | with_reducible assumption
    | intro _
    | exact land_trans hm rfl
    | exact testBit_of_land hm (by decide)
    | with_reducible apply receiveTally_frame
    | with_reducible apply count_frame
    | with_reducible apply ite_frame
    | (split <;> try (rename_i hq; replace hq := congrArg Prod.snd hq; dsimp only at hq; subst hq))
    | (rename_i hq; replace hq := congrArg Prod.snd hq; dsimp only at hq; subst hq)
    | (rename_i hq; injection hq with hq; subst hq)

theorem status_frame {m : Nat} {r u : State} {x0 x1 x2} (h : Frame m r u) (hm : m &&& 13194141237262 = 13194141237262) : Frame m r (status x0 x1 x2 u) := by
  unfold status
  try dsimp only
  repeat' first
    | with_reducible assumption
    | intro _
    | exact land_trans hm rfl
    | exact testBit_of_land hm (by decide)
    | with_reducible apply receiveTally_frame
    | with_reducible apply sendReply_frame
    | with_reducible apply ite_frame
    | (split <;> try (rename_i hq; replace hq := congrArg Prod.snd hq; dsimp only at hq; subst hq))
    | (rename_i hq; replace hq := congrArg Prod.snd hq; dsimp only at hq; subst hq)
    | (rename_i hq; injection hq with hq; subst hq)

theorem purgeFlow_frame {m : Nat} {r u : State} {x0} (h : Frame m r u) (hm : m &&& 83562951477262 = 83562951477262) : Frame m r (purgeFlow x0 u) := by
  unfold purgeFlow
  try dsimp only
  repeat' first
    | with_reducible assumption
    | intro _
    | exact land_trans hm rfl
    | exact testBit_of_land hm (by decide)
    | with_reducible apply each_frame
    | with_reducible apply event_frame
    | with_reducible apply setNextSseq_frame
    | with_reducible apply voidSlot_frame
    | with_reducible apply ite_frame
    | (split <;> try (rename_i hq; replace hq := congrArg Prod.snd hq; dsimp only at hq; subst hq))
    | (rename_i hq; replace hq := congrArg Prod.snd hq; dsimp only at hq; subst hq)
    | (rename_i hq; injection hq with hq; subst hq)

theorem flowCfgWrite_frame {m : Nat} {r u : State} {x0 x1} (h : Frame m r u) (hm : m &&& 83562951477262 = 83562951477262) : Frame m r (flowCfgWrite x0 x1 u) := by
  unfold flowCfgWrite
  try dsimp only
  repeat' first
    | with_reducible assumption
    | intro _
    | exact land_trans hm rfl
    | exact testBit_of_land hm (by decide)
    | with_reducible apply setReg_frame
    | with_reducible apply count_frame
    | with_reducible apply setRfld_frame
    | with_reducible apply purgeFlow_frame
    | with_reducible apply ite_frame
    | (split <;> try (rename_i hq; replace hq := congrArg Prod.snd hq; dsimp only at hq; subst hq))
    | (rename_i hq; replace hq := congrArg Prod.snd hq; dsimp only at hq; subst hq)
    | (rename_i hq; injection hq with hq; subst hq)

theorem flowClose_frame {m : Nat} {r u : State} {x0} (h : Frame m r u) (hm : m &&& 83562951477262 = 83562951477262) : Frame m r (flowClose x0 u) := by
  unfold flowClose
  try dsimp only
  repeat' first
    | with_reducible assumption
    | intro _
    | exact land_trans hm rfl
    | exact testBit_of_land hm (by decide)
    | with_reducible apply flowCfgWrite_frame
    | with_reducible apply ite_frame
    | (split <;> try (rename_i hq; replace hq := congrArg Prod.snd hq; dsimp only at hq; subst hq))
    | (rename_i hq; replace hq := congrArg Prod.snd hq; dsimp only at hq; subst hq)
    | (rename_i hq; injection hq with hq; subst hq)

theorem purge_frame {m : Nat} {r u : State} {x0} (h : Frame m r u) (hm : m &&& 83562951477262 = 83562951477262) : Frame m r (purge x0 u) := by
  unfold purge
  try dsimp only
  repeat' first
    | with_reducible assumption
    | intro _
    | exact land_trans hm rfl
    | exact testBit_of_land hm (by decide)
    | with_reducible apply flowCfgWrite_frame
    | with_reducible apply ite_frame
    | (split <;> try (rename_i hq; replace hq := congrArg Prod.snd hq; dsimp only at hq; subst hq))
    | (rename_i hq; replace hq := congrArg Prod.snd hq; dsimp only at hq; subst hq)
    | (rename_i hq; injection hq with hq; subst hq)

theorem releaseSlot_frame {m : Nat} {r u : State} {x0} (h : Frame m r u) (hm : m &&& 83562951477262 = 83562951477262) : Frame m r (releaseSlot x0 u) := by
  unfold releaseSlot
  try dsimp only
  repeat' first
    | with_reducible assumption
    | intro _
    | exact land_trans hm rfl
    | exact testBit_of_land hm (by decide)
    | with_reducible apply writeMark_frame
    | with_reducible apply dropCopy_frame
    | with_reducible apply ite_frame
    | (split <;> try (rename_i hq; replace hq := congrArg Prod.snd hq; dsimp only at hq; subst hq))
    | (rename_i hq; replace hq := congrArg Prod.snd hq; dsimp only at hq; subst hq)
    | (rename_i hq; injection hq with hq; subst hq)

theorem evTallyStall_frame {m : Nat} {r u : State} {x0} (h : Frame m r u) (hm : m &&& 70368811288584 = 70368811288584) : Frame m r (evTallyStall x0 u) := by
  unfold evTallyStall
  try dsimp only
  repeat' first
    | with_reducible assumption
    | intro _
    | exact land_trans hm rfl
    | exact testBit_of_land hm (by decide)
    | with_reducible apply event_frame
    | with_reducible apply modTally_frame
    | with_reducible apply ite_frame
    | (split <;> try (rename_i hq; replace hq := congrArg Prod.snd hq; dsimp only at hq; subst hq))
    | (rename_i hq; replace hq := congrArg Prod.snd hq; dsimp only at hq; subst hq)
    | (rename_i hq; injection hq with hq; subst hq)

theorem tallyWindow_frame {m : Nat} {r u : State} (h : Frame m r u) (hm : m &&& 83562951477262 = 83562951477262) : Frame m r (tallyWindow u) := by
  unfold tallyWindow
  try dsimp only
  repeat' first
    | with_reducible assumption
    | intro _
    | exact land_trans hm rfl
    | exact testBit_of_land hm (by decide)
    | with_reducible apply each_frame
    | with_reducible apply releaseSlot_frame
    | with_reducible apply modWork_frame
    | with_reducible apply pumpWrites_frame
    | with_reducible apply evTallyStall_frame
    | with_reducible apply modTally_frame
    | with_reducible apply ite_frame
    | (split <;> try (rename_i hq; replace hq := congrArg Prod.snd hq; dsimp only at hq; subst hq))
    | (rename_i hq; replace hq := congrArg Prod.snd hq; dsimp only at hq; subst hq)
    | (rename_i hq; injection hq with hq; subst hq)

theorem grantBudget_frame {m : Nat} {r u : State} (h : Frame m r u) (hm : m &&& 67108864 = 67108864) : Frame m r (grantBudget u) := by
  unfold grantBudget
  try dsimp only
  repeat' first
    | with_reducible assumption
    | intro _
    | exact land_trans hm rfl
    | exact testBit_of_land hm (by decide)
    | with_reducible apply modTally_frame
    | with_reducible apply ite_frame
    | (split <;> try (rename_i hq; replace hq := congrArg Prod.snd hq; dsimp only at hq; subst hq))
    | (rename_i hq; replace hq := congrArg Prod.snd hq; dsimp only at hq; subst hq)
    | (rename_i hq; injection hq with hq; subst hq)

theorem scanPut_frame {m : Nat} {r u : State} {x0 x1 x2} (h : Frame m r u) (hm : m &&& 67108864 = 67108864) : Frame m r (scanPut x0 x1 x2 u) := by
  unfold scanPut
  try dsimp only
  repeat' first
    | with_reducible assumption
    | intro _
    | exact land_trans hm rfl
    | exact testBit_of_land hm (by decide)
    | with_reducible apply putSlot_frame
    | with_reducible apply ite_frame
    | (split <;> try (rename_i hq; replace hq := congrArg Prod.snd hq; dsimp only at hq; subst hq))
    | (rename_i hq; replace hq := congrArg Prod.snd hq; dsimp only at hq; subst hq)
    | (rename_i hq; injection hq with hq; subst hq)

theorem scanPending_frame {m : Nat} {r u : State} {x0 x1 x2} (h : Frame m r u) (hm : m &&& 67108872 = 67108872) : Frame m r (scanPending x0 x1 x2 u).2 := by
  induction x0 generalizing x1 x2 u with
  | nil =>
    unfold scanPending
    try dsimp only
    repeat' first
      | with_reducible assumption
      | intro _
      | exact land_trans hm rfl
      | exact testBit_of_land hm (by decide)
      | with_reducible apply writeMark_frame
      | with_reducible apply count_frame
      | with_reducible apply ite_frame
      | (split <;> try (rename_i hq; replace hq := congrArg Prod.snd hq; dsimp only at hq; subst hq))
      | (rename_i hq; replace hq := congrArg Prod.snd hq; dsimp only at hq; subst hq)
      | (rename_i hq; injection hq with hq; subst hq)
  | cons y l ih =>
    unfold scanPending
    try dsimp only
    repeat' first
      | with_reducible assumption
      | intro _
      | exact land_trans hm rfl
      | exact testBit_of_land hm (by decide)
      | with_reducible apply writeMark_frame
      | with_reducible apply count_frame
      | with_reducible apply ih
      | with_reducible apply ite_frame
      | (split <;> try (rename_i hq; replace hq := congrArg Prod.snd hq; dsimp only at hq; subst hq))
      | (rename_i hq; replace hq := congrArg Prod.snd hq; dsimp only at hq; subst hq)
      | (rename_i hq; injection hq with hq; subst hq)

theorem recarry_frame {m : Nat} {r u : State} {x0} (h : Frame m r u) (hm : m &&& 13194206773250 = 13194206773250) : Frame m r (recarry x0 u) := by
  unfold recarry
  try dsimp only
  repeat' first
    | with_reducible assumption
    | intro _
    | exact land_trans hm rfl
    | exact testBit_of_land hm (by decide)
    | with_reducible apply copyPayload_frame
    | with_reducible apply setWork_frame
    | with_reducible apply ite_frame
    | (split <;> try (rename_i hq; replace hq := congrArg Prod.snd hq; dsimp only at hq; subst hq))
    | (rename_i hq; replace hq := congrArg Prod.snd hq; dsimp only at hq; subst hq)
    | (rename_i hq; injection hq with hq; subst hq)

theorem scanSlot_frame {m : Nat} {r : State} {x y j} {p : State × ScanCounts} (h : Frame m r p.1) (hm : m &&& 67108872 = 67108872) :
    Frame m r (scanSlot x y p j).1 := by
  obtain ⟨s, n⟩ := p
  unfold scanSlot
  dsimp only at h ⊢
  repeat' first
    | with_reducible assumption
    | exact land_trans hm rfl
    | with_reducible apply when'_frame
    | with_reducible apply count_frame
    | with_reducible apply scanPut_frame
    | intro _

theorem scanFlow_frame {m : Nat} {r : State} {x f} {p : State × Nat} (h : Frame m r p.1) (hm : m &&& 67108872 = 67108872) :
    Frame m r (scanFlow x p f).1 := by
  obtain ⟨s, n⟩ := p
  unfold scanFlow
  dsimp only at h ⊢
  split
  all_goals repeat' first
    | with_reducible assumption
    | exact land_trans hm rfl
    | with_reducible apply setNextSseq_frame
    | with_reducible apply each_frame
    | with_reducible apply count_frame
    | with_reducible apply writeMark_frame
    | with_reducible apply scanPending_frame
    | intro _

theorem journalScan_frame {m : Nat} {r u : State} {x0 x1} (h : Frame m r u) (hm : m &&& 83562951478282 = 83562951478282) :
    Frame m r (journalScan x0 x1 u) := by
  unfold journalScan
  dsimp only
  split
  · skip
    repeat' first
      | with_reducible assumption
      | exact land_trans hm rfl
      | with_reducible apply each_frame
      | with_reducible apply carryIdent_frame
      | with_reducible apply event_frame
      | with_reducible apply keepWrite_frame
      | with_reducible apply modTally_frame
      | with_reducible apply recarry_frame
      | with_reducible apply foldl_fst_frame
      | with_reducible apply scanFlow_frame
      | with_reducible apply scanSlot_frame
      | intro _
  · exact h


theorem rekey_frame {m : Nat} {r u : State} (h : Frame m r u) (hm : m &&& 70368744180744 = 70368744180744) : Frame m r (rekey u) := by
  unfold rekey
  try dsimp only
  repeat' first
    | with_reducible assumption
    | intro _
    | exact land_trans hm rfl
    | exact testBit_of_land hm (by decide)
    | with_reducible apply setRfld_frame
    | with_reducible apply keepWrite_frame
    | with_reducible apply ite_frame
    | (split <;> try (rename_i hq; replace hq := congrArg Prod.snd hq; dsimp only at hq; subst hq))
    | (rename_i hq; replace hq := congrArg Prod.snd hq; dsimp only at hq; subst hq)
    | (rename_i hq; injection hq with hq; subst hq)

theorem takeTally_frame {m : Nat} {r u : State} {x0 x1} (h : Frame m r u) (hm : m &&& 33554432 = 33554432) : Frame m r (takeTally x0 x1 u).2 := by
  unfold takeTally
  try dsimp only
  repeat' first
    | with_reducible assumption
    | intro _
    | exact land_trans hm rfl
    | exact testBit_of_land hm (by decide)
    | with_reducible apply ite_frame
    | (split <;> try (rename_i hq; replace hq := congrArg Prod.snd hq; dsimp only at hq; subst hq))
    | (rename_i hq; replace hq := congrArg Prod.snd hq; dsimp only at hq; subst hq)
    | (rename_i hq; injection hq with hq; subst hq)
    | (with_reducible refine Frame.lit ?_ rfl; first | with_reducible assumption | split)

theorem tallyRow_frame {m : Nat} {r u : State} {n : Nat} {x1 x2} {x3 : Option (Fin n × Bytes)} {x4} (h : Frame m r u) (hm : m &&& 33554432 = 33554432) (hf4 : ∀ y0 y1 y2 v, Frame m r v → Frame m r (x4 y0 y1 y2 v)) : Frame m r (tallyRow x1 x2 x3 x4 u) := by
  unfold tallyRow
  try dsimp only
  repeat' first
    | with_reducible assumption
    | intro _
    | exact land_trans hm rfl
    | exact testBit_of_land hm (by decide)
    | with_reducible apply takeTally_frame
    | with_reducible apply hf4
    | with_reducible apply ite_frame
    | (split <;> try (rename_i hq; replace hq := congrArg Prod.snd hq; dsimp only at hq; subst hq))
    | (rename_i hq; replace hq := congrArg Prod.snd hq; dsimp only at hq; subst hq)
    | (rename_i hq; injection hq with hq; subst hq)

theorem settleReceipt_frame {m : Nat} {r u : State} {x0} (h : Frame m r u) (hm : m &&& 13194208346126 = 13194208346126) : Frame m r (settleReceipt x0 u) := by
  unfold settleReceipt
  try dsimp only
  repeat' first
    | with_reducible assumption
    | intro _
    | exact land_trans hm rfl
    | exact testBit_of_land hm (by decide)
    | with_reducible apply receiptFromHeadEnd_frame
    | with_reducible apply receiptFromRecipient_frame
    | with_reducible apply ite_frame
    | (split <;> try (rename_i hq; replace hq := congrArg Prod.snd hq; dsimp only at hq; subst hq))
    | (rename_i hq; replace hq := congrArg Prod.snd hq; dsimp only at hq; subst hq)
    | (rename_i hq; injection hq with hq; subst hq)

theorem settleReceipts_frame {m : Nat} {r u : State} (h : Frame m r u) (hm : m &&& 13194241900558 = 13194241900558) : Frame m r (settleReceipts u) := by
  unfold settleReceipts
  try dsimp only
  repeat' first
    | with_reducible assumption
    | intro _
    | exact land_trans hm rfl
    | exact testBit_of_land hm (by decide)
    | with_reducible apply each_frame
    | with_reducible apply settleReceipt_frame
    | with_reducible apply ite_frame
    | (split <;> try (rename_i hq; replace hq := congrArg Prod.snd hq; dsimp only at hq; subst hq))
    | (rename_i hq; replace hq := congrArg Prod.snd hq; dsimp only at hq; subst hq)
    | (rename_i hq; injection hq with hq; subst hq)
    | (with_reducible refine Frame.lit ?_ rfl; first | with_reducible assumption | with_reducible apply each_frame | with_reducible apply settleReceipt_frame| split)

theorem tallyArrive_frame {m : Nat} {r u : State} {x0 x1 x2} (h : Frame m r u) (hm : m &&& 13194174791694 = 13194174791694) : Frame m r (tallyArrive x0 x1 x2 u) := by
  unfold tallyArrive
  try dsimp only
  repeat' first
    | with_reducible assumption
    | intro _
    | exact land_trans hm rfl
    | exact testBit_of_land hm (by decide)
    | with_reducible apply receiveTally_frame
    | with_reducible apply ite_frame
    | (split <;> try (rename_i hq; replace hq := congrArg Prod.snd hq; dsimp only at hq; subst hq))
    | (rename_i hq; replace hq := congrArg Prod.snd hq; dsimp only at hq; subst hq)
    | (rename_i hq; injection hq with hq; subst hq)
    | (with_reducible refine Frame.lit ?_ rfl; first | with_reducible assumption | with_reducible apply receiveTally_frame| split)

end Sys2Proof.Machine
end

