-- ==== Sys2Proof/Laws/FrameCirc.lean ====
section
/-! SUPPORT. The frames of the operations of Machine/Circ.lean: each changes nothing outside its mask (see Laws/Frame.lean). -/
set_option Elab.async false
set_option linter.all false

namespace Sys2Proof.Machine

theorem setCircuit_frame {m : Nat} {r u : State} {x0 x1} (h : Frame m r u) (hm : m &&& 134217728 = 134217728) : Frame m r (setCircuit x0 x1 u) := by
  unfold setCircuit
  try dsimp only
  repeat' first
    | with_reducible assumption
    | intro _
    | exact land_trans hm rfl
    | exact testBit_of_land hm (by decide)
    | with_reducible apply ite_frame
    | (split <;> try (rename_i hq; replace hq := congrArg Prod.snd hq; dsimp only at hq; subst hq))
    | (rename_i hq; replace hq := congrArg Prod.snd hq; dsimp only at hq; subst hq)
    | (rename_i hq; injection hq with hq; subst hq)
    | (with_reducible refine Frame.lit ?_ rfl; first | with_reducible assumption | split)

theorem modCircuit_frame {m : Nat} {r u : State} {x0 x1} (h : Frame m r u) (hm : m &&& 134217728 = 134217728) : Frame m r (modCircuit x0 x1 u) := by
  unfold modCircuit
  try dsimp only
  repeat' first
    | with_reducible assumption
    | intro _
    | exact land_trans hm rfl
    | exact testBit_of_land hm (by decide)
    | with_reducible apply setCircuit_frame
    | with_reducible apply ite_frame
    | (split <;> try (rename_i hq; replace hq := congrArg Prod.snd hq; dsimp only at hq; subst hq))
    | (rename_i hq; replace hq := congrArg Prod.snd hq; dsimp only at hq; subst hq)
    | (rename_i hq; injection hq with hq; subst hq)

theorem sampleCircuit_frame {m : Nat} {r u : State} {x0} (h : Frame m r u) (hm : m &&& 134217728 = 134217728) : Frame m r (sampleCircuit x0 u) := by
  unfold sampleCircuit
  try dsimp only
  repeat' first
    | with_reducible assumption
    | intro _
    | exact land_trans hm rfl
    | exact testBit_of_land hm (by decide)
    | with_reducible apply modCircuit_frame
    | with_reducible apply ite_frame
    | (split <;> try (rename_i hq; replace hq := congrArg Prod.snd hq; dsimp only at hq; subst hq))
    | (rename_i hq; replace hq := congrArg Prod.snd hq; dsimp only at hq; subst hq)
    | (rename_i hq; injection hq with hq; subst hq)

theorem circEnable_frame {m : Nat} {r u : State} {x0} (h : Frame m r u) (hm : m &&& 70368878528522 = 70368878528522) : Frame m r (circEnable x0 u) := by
  unfold circEnable
  try dsimp only
  repeat' first
    | with_reducible assumption
    | intro _
    | exact land_trans hm rfl
    | exact testBit_of_land hm (by decide)
    | with_reducible apply giveChain_frame
    | with_reducible apply setCircuit_frame
    | with_reducible apply event_frame
    | with_reducible apply ite_frame
    | (split <;> try (rename_i hq; replace hq := congrArg Prod.snd hq; dsimp only at hq; subst hq))
    | (rename_i hq; replace hq := congrArg Prod.snd hq; dsimp only at hq; subst hq)
    | (rename_i hq; injection hq with hq; subst hq)

theorem circDisable_frame {m : Nat} {r u : State} {x0} (h : Frame m r u) (hm : m &&& 83563018586126 = 83563018586126) : Frame m r (circDisable x0 u) := by
  unfold circDisable
  try dsimp only
  repeat' first
    | with_reducible assumption
    | intro _
    | exact land_trans hm rfl
    | exact testBit_of_land hm (by decide)
    | with_reducible apply setCircuit_frame
    | with_reducible apply freeTubsOf_frame
    | with_reducible apply ite_frame
    | (split <;> try (rename_i hq; replace hq := congrArg Prod.snd hq; dsimp only at hq; subst hq))
    | (rename_i hq; replace hq := congrArg Prod.snd hq; dsimp only at hq; subst hq)
    | (rename_i hq; injection hq with hq; subst hq)

theorem circEdges_frame {m : Nat} {r u : State} (h : Frame m r u) (hm : m &&& 83563018586126 = 83563018586126) : Frame m r (circEdges u) := by
  unfold circEdges
  try dsimp only
  repeat' first
    | with_reducible assumption
    | intro _
    | exact land_trans hm rfl
    | exact testBit_of_land hm (by decide)
    | with_reducible apply each_frame
    | with_reducible apply circEnable_frame
    | with_reducible apply circDisable_frame
    | with_reducible apply ite_frame
    | (split <;> try (rename_i hq; replace hq := congrArg Prod.snd hq; dsimp only at hq; subst hq))
    | (rename_i hq; replace hq := congrArg Prod.snd hq; dsimp only at hq; subst hq)
    | (rename_i hq; injection hq with hq; subst hq)

theorem circStore_frame {m : Nat} {r u : State} {x0 x1 x2} (h : Frame m r u) (hm : m &&& 134217736 = 134217736) : Frame m r (circStore x0 x1 x2 u) := by
  unfold circStore
  try dsimp only
  repeat' first
    | with_reducible assumption
    | intro _
    | exact land_trans hm rfl
    | exact testBit_of_land hm (by decide)
    | with_reducible apply count_frame
    | with_reducible apply setCircuit_frame
    | with_reducible apply ite_frame
    | (split <;> try (rename_i hq; replace hq := congrArg Prod.snd hq; dsimp only at hq; subst hq))
    | (rename_i hq; replace hq := congrArg Prod.snd hq; dsimp only at hq; subst hq)
    | (rename_i hq; injection hq with hq; subst hq)

theorem circPacket_frame {m : Nat} {r u : State} {x0 x1} (h : Frame m r u) (hm : m &&& 134217736 = 134217736) : Frame m r (circPacket x0 x1 u) := by
  unfold circPacket
  try dsimp only
  repeat' first
    | with_reducible assumption
    | intro _
    | exact land_trans hm rfl
    | exact testBit_of_land hm (by decide)
    | with_reducible apply count_frame
    | with_reducible apply circStore_frame
    | with_reducible apply ite_frame
    | (split <;> try (rename_i hq; replace hq := congrArg Prod.snd hq; dsimp only at hq; subst hq))
    | (rename_i hq; replace hq := congrArg Prod.snd hq; dsimp only at hq; subst hq)
    | (rename_i hq; injection hq with hq; subst hq)

theorem formContainer_frame {m : Nat} {r u : State} {x0 x1} (h : Frame m r u) (hm : m &&& 134217736 = 134217736) : Frame m r (formContainer x0 x1 u) := by
  unfold formContainer
  try dsimp only
  repeat' first
    | with_reducible assumption
    | intro _
    | exact land_trans hm rfl
    | exact testBit_of_land hm (by decide)
    | with_reducible apply when'_frame
    | with_reducible apply setCircuit_frame
    | with_reducible apply count_frame
    | with_reducible apply countN_frame
    | with_reducible apply ite_frame
    | (split <;> try (rename_i hq; replace hq := congrArg Prod.snd hq; dsimp only at hq; subst hq))
    | (rename_i hq; replace hq := congrArg Prod.snd hq; dsimp only at hq; subst hq)
    | (rename_i hq; injection hq with hq; subst hq)

theorem countJust_frame {m : Nat} {r u : State} {x0 x1} (h : Frame m r u) (hm : m &&& 8 = 8) : Frame m r (countJust x0 x1 u) := by
  unfold countJust
  try dsimp only
  repeat' first
    | with_reducible assumption
    | intro _
    | exact land_trans hm rfl
    | exact testBit_of_land hm (by decide)
    | with_reducible apply setRfld_frame
    | with_reducible apply ite_frame
    | (split <;> try (rename_i hq; replace hq := congrArg Prod.snd hq; dsimp only at hq; subst hq))
    | (rename_i hq; replace hq := congrArg Prod.snd hq; dsimp only at hq; subst hq)
    | (rename_i hq; injection hq with hq; subst hq)

theorem dropTx_frame {m : Nat} {r u : State} {x0 x1} (h : Frame m r u) (hm : m &&& 134217728 = 134217728) : Frame m r (dropTx x0 x1 u) := by
  unfold dropTx
  try dsimp only
  repeat' first
    | with_reducible assumption
    | intro _
    | exact land_trans hm rfl
    | exact testBit_of_land hm (by decide)
    | with_reducible apply modCircuit_frame
    | with_reducible apply ite_frame
    | (split <;> try (rename_i hq; replace hq := congrArg Prod.snd hq; dsimp only at hq; subst hq))
    | (rename_i hq; replace hq := congrArg Prod.snd hq; dsimp only at hq; subst hq)
    | (rename_i hq; injection hq with hq; subst hq)

theorem takeContainers_frame {m : Nat} {r u : State} {x0 x1 x2 x3 x4} (h : Frame m r u) (hm : m &&& 134217736 = 134217736) : Frame m r (takeContainers x0 x1 x2 x3 x4 u).2 := by
  induction x3 generalizing x4 u with
  | nil =>
    unfold takeContainers
    try dsimp only
    repeat' first
      | with_reducible assumption
      | intro _
      | exact land_trans hm rfl
      | exact testBit_of_land hm (by decide)
      | with_reducible apply dropTx_frame
      | with_reducible apply countJust_frame
      | with_reducible apply modCircuit_frame
      | with_reducible apply count_frame
      | with_reducible apply ite_frame
      | (split <;> try (rename_i hq; replace hq := congrArg Prod.snd hq; dsimp only at hq; subst hq))
      | (rename_i hq; replace hq := congrArg Prod.snd hq; dsimp only at hq; subst hq)
      | (rename_i hq; injection hq with hq; subst hq)
  | cons y l ih =>
    unfold takeContainers
    try dsimp only
    repeat' first
      | with_reducible assumption
      | intro _
      | exact land_trans hm rfl
      | exact testBit_of_land hm (by decide)
      | with_reducible apply dropTx_frame
      | with_reducible apply countJust_frame
      | with_reducible apply modCircuit_frame
      | with_reducible apply count_frame
      | with_reducible apply ih
      | with_reducible apply ite_frame
      | (split <;> try (rename_i hq; replace hq := congrArg Prod.snd hq; dsimp only at hq; subst hq))
      | (rename_i hq; replace hq := congrArg Prod.snd hq; dsimp only at hq; subst hq)
      | (rename_i hq; injection hq with hq; subst hq)

theorem lopEvent_frame {m : Nat} {r u : State} {x0 x1} (h : Frame m r u) (hm : m &&& 70368744179720 = 70368744179720) : Frame m r (lopEvent x0 x1 u) := by
  unfold lopEvent
  try dsimp only
  repeat' first
    | with_reducible assumption
    | intro _
    | exact land_trans hm rfl
    | exact testBit_of_land hm (by decide)
    | with_reducible apply event_frame
    | with_reducible apply ite_frame
    | (split <;> try (rename_i hq; replace hq := congrArg Prod.snd hq; dsimp only at hq; subst hq))
    | (rename_i hq; replace hq := congrArg Prod.snd hq; dsimp only at hq; subst hq)
    | (rename_i hq; injection hq with hq; subst hq)

theorem addTrib_frame {m : Nat} {r u : State} {x0 x1} (h : Frame m r u) (hm : m &&& 134217728 = 134217728) : Frame m r (addTrib x0 x1 u) := by
  unfold addTrib
  try dsimp only
  repeat' first
    | with_reducible assumption
    | intro _
    | exact land_trans hm rfl
    | exact testBit_of_land hm (by decide)
    | with_reducible apply modCircuit_frame
    | with_reducible apply ite_frame
    | (split <;> try (rename_i hq; replace hq := congrArg Prod.snd hq; dsimp only at hq; subst hq))
    | (rename_i hq; replace hq := congrArg Prod.snd hq; dsimp only at hq; subst hq)
    | (rename_i hq; injection hq with hq; subst hq)

theorem lopStep_frame {m : Nat} {r u : State} {x0 x1} (h : Frame m r u) (hm : m &&& 70368878397448 = 70368878397448) : Frame m r (lopStep x0 x1 u) := by
  unfold lopStep
  try dsimp only
  repeat' first
    | with_reducible assumption
    | intro _
    | exact land_trans hm rfl
    | exact testBit_of_land hm (by decide)
    | with_reducible apply addTrib_frame
    | with_reducible apply lopEvent_frame
    | with_reducible apply setCircuit_frame
    | with_reducible apply ite_frame
    | (split <;> try (rename_i hq; replace hq := congrArg Prod.snd hq; dsimp only at hq; subst hq))
    | (rename_i hq; replace hq := congrArg Prod.snd hq; dsimp only at hq; subst hq)
    | (rename_i hq; injection hq with hq; subst hq)

theorem invalidStep_frame {m : Nat} {r u : State} {x0 x1} (h : Frame m r u) (hm : m &&& 70368878397448 = 70368878397448) : Frame m r (invalidStep x0 x1 u) := by
  unfold invalidStep
  try dsimp only
  repeat' first
    | with_reducible assumption
    | intro _
    | exact land_trans hm rfl
    | exact testBit_of_land hm (by decide)
    | with_reducible apply addTrib_frame
    | with_reducible apply event_frame
    | with_reducible apply setCircuit_frame
    | with_reducible apply lopEvent_frame
    | with_reducible apply count_frame
    | with_reducible apply ite_frame
    | (split <;> try (rename_i hq; replace hq := congrArg Prod.snd hq; dsimp only at hq; subst hq))
    | (rename_i hq; replace hq := congrArg Prod.snd hq; dsimp only at hq; subst hq)
    | (rename_i hq; injection hq with hq; subst hq)

theorem normStep_frame {m : Nat} {r u : State} {x0 x1} (h : Frame m r u) (hm : m &&& 70368878397448 = 70368878397448) : Frame m r (normStep x0 x1 u) := by
  unfold normStep
  try dsimp only
  repeat' first
    | with_reducible assumption
    | intro _
    | exact land_trans hm rfl
    | exact testBit_of_land hm (by decide)
    | with_reducible apply addTrib_frame
    | with_reducible apply countJust_frame
    | with_reducible apply setCircuit_frame
    | with_reducible apply invalidStep_frame
    | with_reducible apply ite_frame
    | (split <;> try (rename_i hq; replace hq := congrArg Prod.snd hq; dsimp only at hq; subst hq))
    | (rename_i hq; replace hq := congrArg Prod.snd hq; dsimp only at hq; subst hq)
    | (rename_i hq; injection hq with hq; subst hq)

theorem passContainer_frame {m : Nat} {r u : State} {x0 x1} (h : Frame m r u) (hm : m &&& 134217728 = 134217728) : Frame m r (passContainer x0 x1 u) := by
  unfold passContainer
  try dsimp only
  repeat' first
    | with_reducible assumption
    | intro _
    | exact land_trans hm rfl
    | exact testBit_of_land hm (by decide)
    | with_reducible apply modCircuit_frame
    | with_reducible apply ite_frame
    | (split <;> try (rename_i hq; replace hq := congrArg Prod.snd hq; dsimp only at hq; subst hq))
    | (rename_i hq; replace hq := congrArg Prod.snd hq; dsimp only at hq; subst hq)
    | (rename_i hq; injection hq with hq; subst hq)

theorem receiveContainer_frame {m : Nat} {r u : State} {x0 x1} (h : Frame m r u) (hm : m &&& 70368878397448 = 70368878397448) : Frame m r (receiveContainer x0 x1 u) := by
  unfold receiveContainer
  try dsimp only
  repeat' first
    | with_reducible assumption
    | intro _
    | exact land_trans hm rfl
    | exact testBit_of_land hm (by decide)
    | with_reducible apply when'_frame
    | with_reducible apply count_frame
    | with_reducible apply passContainer_frame
    | with_reducible apply lopStep_frame
    | with_reducible apply normStep_frame
    | with_reducible apply ite_frame
    | (split <;> try (rename_i hq; replace hq := congrArg Prod.snd hq; dsimp only at hq; subst hq))
    | (rename_i hq; replace hq := congrArg Prod.snd hq; dsimp only at hq; subst hq)
    | (rename_i hq; injection hq with hq; subst hq)

theorem skipContainer_frame {m : Nat} {r u : State} {x0} (h : Frame m r u) (hm : m &&& 134217728 = 134217728) : Frame m r (skipContainer x0 u) := by
  unfold skipContainer
  try dsimp only
  repeat' first
    | with_reducible assumption
    | intro _
    | exact land_trans hm rfl
    | exact testBit_of_land hm (by decide)
    | with_reducible apply passContainer_frame
    | with_reducible apply addTrib_frame
    | with_reducible apply ite_frame
    | (split <;> try (rename_i hq; replace hq := congrArg Prod.snd hq; dsimp only at hq; subst hq))
    | (rename_i hq; replace hq := congrArg Prod.snd hq; dsimp only at hq; subst hq)
    | (rename_i hq; injection hq with hq; subst hq)

theorem circSend_frame {m : Nat} {r u : State} {x0 x1} (h : Frame m r u) (hm : m &&& 13194275454990 = 13194275454990) : Frame m r (circSend x0 x1 u) := by
  induction x1 generalizing  u with
  | zero =>
    unfold circSend
    try dsimp only
    repeat' first
      | with_reducible assumption
      | intro _
      | exact land_trans hm rfl
      | exact testBit_of_land hm (by decide)
      | with_reducible apply admitLane_frame
      | with_reducible apply setCircuit_frame
      | with_reducible apply ite_frame
      | (split <;> try (rename_i hq; replace hq := congrArg Prod.snd hq; dsimp only at hq; subst hq))
      | (rename_i hq; replace hq := congrArg Prod.snd hq; dsimp only at hq; subst hq)
      | (rename_i hq; injection hq with hq; subst hq)
  | succ n ih =>
    unfold circSend
    try dsimp only
    repeat' first
      | with_reducible assumption
      | intro _
      | exact land_trans hm rfl
      | exact testBit_of_land hm (by decide)
      | with_reducible apply admitLane_frame
      | with_reducible apply setCircuit_frame
      | with_reducible apply ih
      | with_reducible apply ite_frame
      | (split <;> try (rename_i hq; replace hq := congrArg Prod.snd hq; dsimp only at hq; subst hq))
      | (rename_i hq; replace hq := congrArg Prod.snd hq; dsimp only at hq; subst hq)
      | (rename_i hq; injection hq with hq; subst hq)

theorem circSendAll_frame {m : Nat} {r u : State} {x0} (h : Frame m r u) (hm : m &&& 13194275454990 = 13194275454990) : Frame m r (circSendAll x0 u) := by
  unfold circSendAll
  try dsimp only
  repeat' first
    | with_reducible assumption
    | intro _
    | exact land_trans hm rfl
    | exact testBit_of_land hm (by decide)
    | with_reducible apply circSend_frame
    | with_reducible apply ite_frame
    | (split <;> try (rename_i hq; replace hq := congrArg Prod.snd hq; dsimp only at hq; subst hq))
    | (rename_i hq; replace hq := congrArg Prod.snd hq; dsimp only at hq; subst hq)
    | (rename_i hq; injection hq with hq; subst hq)

theorem noteFill_frame {m : Nat} {r u : State} {x0} (h : Frame m r u) (hm : m &&& 134217728 = 134217728) : Frame m r (noteFill x0 u) := by
  unfold noteFill
  try dsimp only
  repeat' first
    | with_reducible assumption
    | intro _
    | exact land_trans hm rfl
    | exact testBit_of_land hm (by decide)
    | with_reducible apply modCircuit_frame
    | with_reducible apply ite_frame
    | (split <;> try (rename_i hq; replace hq := congrArg Prod.snd hq; dsimp only at hq; subst hq))
    | (rename_i hq; replace hq := congrArg Prod.snd hq; dsimp only at hq; subst hq)
    | (rename_i hq; injection hq with hq; subst hq)

theorem takeRx_frame {m : Nat} {r u : State} {x0 x1} (h : Frame m r u) (hm : m &&& 134217728 = 134217728) : Frame m r (takeRx x0 x1 u) := by
  unfold takeRx
  try dsimp only
  repeat' first
    | with_reducible assumption
    | intro _
    | exact land_trans hm rfl
    | exact testBit_of_land hm (by decide)
    | with_reducible apply modCircuit_frame
    | with_reducible apply ite_frame
    | (split <;> try (rename_i hq; replace hq := congrArg Prod.snd hq; dsimp only at hq; subst hq))
    | (rename_i hq; replace hq := congrArg Prod.snd hq; dsimp only at hq; subst hq)
    | (rename_i hq; injection hq with hq; subst hq)

theorem circOne_frame {m : Nat} {r u : State} {x0 x1} (h : Frame m r u) (hm : m &&& 83563019634702 = 83563019634702) : Frame m r (circOne x0 x1 u) := by
  unfold circOne
  try dsimp only
  repeat' first
    | with_reducible assumption
    | intro _
    | exact land_trans hm rfl
    | exact testBit_of_land hm (by decide)
    | with_reducible apply formContainer_frame
    | with_reducible apply circSendAll_frame
    | with_reducible apply skipContainer_frame
    | with_reducible apply receiveContainer_frame
    | with_reducible apply takeRx_frame
    | with_reducible apply ite_frame
    | (split <;> try (rename_i hq; replace hq := congrArg Prod.snd hq; dsimp only at hq; subst hq))
    | (rename_i hq; replace hq := congrArg Prod.snd hq; dsimp only at hq; subst hq)
    | (rename_i hq; injection hq with hq; subst hq)

theorem circFill_frame {m : Nat} {r u : State} {x0 x1} (h : Frame m r u) (hm : m &&& 13194275454990 = 13194275454990) : Frame m r (circFill x0 x1 u) := by
  unfold circFill
  try dsimp only
  repeat' first
    | with_reducible assumption
    | intro _
    | exact land_trans hm rfl
    | exact testBit_of_land hm (by decide)
    | with_reducible apply countN_frame
    | with_reducible apply circSendAll_frame
    | with_reducible apply skipContainer_frame
    | with_reducible apply takeRx_frame
    | with_reducible apply modCircuit_frame
    | with_reducible apply ite_frame
    | (split <;> try (rename_i hq; replace hq := congrArg Prod.snd hq; dsimp only at hq; subst hq))
    | (rename_i hq; replace hq := congrArg Prod.snd hq; dsimp only at hq; subst hq)
    | (rename_i hq; injection hq with hq; subst hq)

theorem missContainers_frame {m : Nat} {r u : State} {x0 x1 x2} (h : Frame m r u) (hm : m &&& 134217736 = 134217736) : Frame m r (missContainers x0 x1 x2 u) := by
  unfold missContainers
  try dsimp only
  repeat' first
    | with_reducible assumption
    | intro _
    | exact land_trans hm rfl
    | exact testBit_of_land hm (by decide)
    | with_reducible apply countN_frame
    | with_reducible apply modCircuit_frame
    | with_reducible apply ite_frame
    | (split <;> try (rename_i hq; replace hq := congrArg Prod.snd hq; dsimp only at hq; subst hq))
    | (rename_i hq; replace hq := congrArg Prod.snd hq; dsimp only at hq; subst hq)
    | (rename_i hq; injection hq with hq; subst hq)

theorem circTick_frame {m : Nat} {r u : State} {x0 x1 x2} (h : Frame m r u) (hm : m &&& 83563019634702 = 83563019634702) : Frame m r (circTick x0 x1 x2 u) := by
  unfold circTick
  try dsimp only
  repeat' first
    | with_reducible assumption
    | intro _
    | exact land_trans hm rfl
    | exact testBit_of_land hm (by decide)
    | with_reducible apply each_frame
    | with_reducible apply noteFill_frame
    | with_reducible apply missContainers_frame
    | with_reducible apply circOne_frame
    | with_reducible apply circFill_frame
    | with_reducible apply ite_frame
    | (split <;> try (rename_i hq; replace hq := congrArg Prod.snd hq; dsimp only at hq; subst hq))
    | (rename_i hq; replace hq := congrArg Prod.snd hq; dsimp only at hq; subst hq)
    | (rename_i hq; injection hq with hq; subst hq)

theorem circSwitch_frame {m : Nat} {r u : State} (h : Frame m r u) (hm : m &&& 134217728 = 134217728) : Frame m r (circSwitch u) := by
  unfold circSwitch
  try dsimp only
  repeat' first
    | with_reducible assumption
    | intro _
    | exact land_trans hm rfl
    | exact testBit_of_land hm (by decide)
    | with_reducible apply each_frame
    | with_reducible apply modCircuit_frame
    | with_reducible apply ite_frame
    | (split <;> try (rename_i hq; replace hq := congrArg Prod.snd hq; dsimp only at hq; subst hq))
    | (rename_i hq; replace hq := congrArg Prod.snd hq; dsimp only at hq; subst hq)
    | (rename_i hq; injection hq with hq; subst hq)

theorem circResume_frame {m : Nat} {r u : State} (h : Frame m r u) (hm : m &&& 134217728 = 134217728) : Frame m r (circResume u) := by
  unfold circResume
  try dsimp only
  repeat' first
    | with_reducible assumption
    | intro _
    | exact land_trans hm rfl
    | exact testBit_of_land hm (by decide)
    | with_reducible apply each_frame
    | with_reducible apply modCircuit_frame
    | with_reducible apply ite_frame
    | (split <;> try (rename_i hq; replace hq := congrArg Prod.snd hq; dsimp only at hq; subst hq))
    | (rename_i hq; replace hq := congrArg Prod.snd hq; dsimp only at hq; subst hq)
    | (rename_i hq; injection hq with hq; subst hq)

theorem takeDownstream_frame {m : Nat} {r u : State} {x0 x1 x2 x3} (h : Frame m r u) (hm : m &&& 134217728 = 134217728) : Frame m r (takeDownstream x0 x1 x2 x3 u) := by
  unfold takeDownstream
  try dsimp only
  repeat' first
    | with_reducible assumption
    | intro _
    | exact land_trans hm rfl
    | exact testBit_of_land hm (by decide)
    | with_reducible apply each_frame
    | with_reducible apply setCircuit_frame
    | with_reducible apply ite_frame
    | (split <;> try (rename_i hq; replace hq := congrArg Prod.snd hq; dsimp only at hq; subst hq))
    | (rename_i hq; replace hq := congrArg Prod.snd hq; dsimp only at hq; subst hq)
    | (rename_i hq; injection hq with hq; subst hq)

end Sys2Proof.Machine
end

