-- ==== Sys2Proof/Laws/FrameTime.lean ====
section
/-! SUPPORT. The frames of the operations of Machine/Time.lean: each changes nothing outside its mask (see Laws/Frame.lean). -/
set_option Elab.async false
set_option linter.all false

namespace Sys2Proof.Machine

theorem clockCycle_frame {m : Nat} {r u : State} (h : Frame m r u) (hm : m &&& 274877907457 = 274877907457) : Frame m r (clockCycle u) := by
  unfold clockCycle
  try dsimp only
  repeat' first
    | with_reducible assumption
    | intro _
    | exact land_trans hm rfl
    | exact testBit_of_land hm (by decide)
    | with_reducible apply ite_frame
    | (split <;> try (rename_i hq; replace hq := congrArg Prod.snd hq; dsimp only at hq; subst hq))
    | (rename_i hq; replace hq := congrArg Prod.snd hq; dsimp only at hq; subst hq)
    | (rename_i hq; injection hq with hq; subst hq)
    | (with_reducible refine Frame.lit ?_ rfl; first | with_reducible assumption | split)

theorem resumeFromAon_frame {m : Nat} {r u : State} (h : Frame m r u) (hm : m &&& 274877907458 = 274877907458) : Frame m r (resumeFromAon u) := by
  unfold resumeFromAon
  try dsimp only
  repeat' first
    | with_reducible assumption
    | intro _
    | exact land_trans hm rfl
    | exact testBit_of_land hm (by decide)
    | with_reducible apply nextFree_frame
    | with_reducible apply ite_frame
    | (split <;> try (rename_i hq; replace hq := congrArg Prod.snd hq; dsimp only at hq; subst hq))
    | (rename_i hq; replace hq := congrArg Prod.snd hq; dsimp only at hq; subst hq)
    | (rename_i hq; injection hq with hq; subst hq)
    | (with_reducible refine Frame.lit ?_ rfl; first | with_reducible assumption | with_reducible apply nextFree_frame| split)

theorem setIncrement_frame {m : Nat} {r u : State} {x0} (h : Frame m r u) (hm : m &&& 520 = 520) : Frame m r (setIncrement x0 u) := by
  unfold setIncrement
  try dsimp only
  repeat' first
    | with_reducible assumption
    | intro _
    | exact land_trans hm rfl
    | exact testBit_of_land hm (by decide)
    | with_reducible apply setReg_frame
    | with_reducible apply ite_frame
    | (split <;> try (rename_i hq; replace hq := congrArg Prod.snd hq; dsimp only at hq; subst hq))
    | (rename_i hq; replace hq := congrArg Prod.snd hq; dsimp only at hq; subst hq)
    | (rename_i hq; injection hq with hq; subst hq)
    | (with_reducible refine Frame.lit ?_ rfl; first | with_reducible assumption | with_reducible apply setReg_frame| split)

theorem timeIncWrite_frame {m : Nat} {r u : State} {x0 x1} (h : Frame m r u) (hm : m &&& 520 = 520) : Frame m r (timeIncWrite x0 x1 u) := by
  unfold timeIncWrite
  try dsimp only
  repeat' first
    | with_reducible assumption
    | intro _
    | exact land_trans hm rfl
    | exact testBit_of_land hm (by decide)
    | with_reducible apply setIncrement_frame
    | with_reducible apply count_frame
    | with_reducible apply ite_frame
    | (split <;> try (rename_i hq; replace hq := congrArg Prod.snd hq; dsimp only at hq; subst hq))
    | (rename_i hq; replace hq := congrArg Prod.snd hq; dsimp only at hq; subst hq)
    | (rename_i hq; injection hq with hq; subst hq)

theorem gatesAfterStep_frame {m : Nat} {r u : State} (h : Frame m r u) (hm : m &&& 524288 = 524288) : Frame m r (gatesAfterStep u) := by
  unfold gatesAfterStep
  try dsimp only
  repeat' first
    | with_reducible assumption
    | intro _
    | exact land_trans hm rfl
    | exact testBit_of_land hm (by decide)
    | with_reducible apply ite_frame
    | (split <;> try (rename_i hq; replace hq := congrArg Prod.snd hq; dsimp only at hq; subst hq))
    | (rename_i hq; replace hq := congrArg Prod.snd hq; dsimp only at hq; subst hq)
    | (rename_i hq; injection hq with hq; subst hq)
    | (with_reducible refine Frame.lit ?_ rfl; first | with_reducible assumption | split)

theorem makeStep_frame {m : Nat} {r u : State} {x0 x1} (h : Frame m r u) (hm : m &&& 70643622611464 = 70643622611464) : Frame m r (makeStep x0 x1 u) := by
  unfold makeStep
  try dsimp only
  repeat' first
    | with_reducible assumption
    | intro _
    | exact land_trans hm rfl
    | exact testBit_of_land hm (by decide)
    | with_reducible apply supEvent_frame
    | with_reducible apply gatesAfterStep_frame
    | with_reducible apply ite_frame
    | (split <;> try (rename_i hq; replace hq := congrArg Prod.snd hq; dsimp only at hq; subst hq))
    | (rename_i hq; replace hq := congrArg Prod.snd hq; dsimp only at hq; subst hq)
    | (rename_i hq; injection hq with hq; subst hq)
    | (with_reducible refine Frame.lit ?_ rfl; first | with_reducible assumption | with_reducible apply supEvent_frame | with_reducible apply gatesAfterStep_frame| split)

theorem refuseStep_frame {m : Nat} {r u : State} {x0} (h : Frame m r u) (hm : m &&& 70368744180232 = 70368744180232) : Frame m r (refuseStep x0 u) := by
  unfold refuseStep
  try dsimp only
  repeat' first
    | with_reducible assumption
    | intro _
    | exact land_trans hm rfl
    | exact testBit_of_land hm (by decide)
    | with_reducible apply count_frame
    | with_reducible apply supEvent_frame
    | with_reducible apply ite_frame
    | (split <;> try (rename_i hq; replace hq := congrArg Prod.snd hq; dsimp only at hq; subst hq))
    | (rename_i hq; replace hq := congrArg Prod.snd hq; dsimp only at hq; subst hq)
    | (rename_i hq; injection hq with hq; subst hq)
    | (with_reducible refine Frame.lit ?_ rfl; first | with_reducible assumption | with_reducible apply count_frame | with_reducible apply supEvent_frame| split)

theorem requestStep_frame {m : Nat} {r u : State} {x0} (h : Frame m r u) (hm : m &&& 70643622612488 = 70643622612488) : Frame m r (requestStep x0 u) := by
  unfold requestStep
  try dsimp only
  repeat' first
    | with_reducible assumption
    | intro _
    | exact land_trans hm rfl
    | exact testBit_of_land hm (by decide)
    | with_reducible apply refuseStep_frame
    | with_reducible apply makeStep_frame
    | with_reducible apply keepWrite_frame
    | with_reducible apply ite_frame
    | (split <;> try (rename_i hq; replace hq := congrArg Prod.snd hq; dsimp only at hq; subst hq))
    | (rename_i hq; replace hq := congrArg Prod.snd hq; dsimp only at hq; subst hq)
    | (rename_i hq; injection hq with hq; subst hq)

theorem timeAdj_frame {m : Nat} {r u : State} {x0 x1} (h : Frame m r u) (hm : m &&& 70643622612488 = 70643622612488) : Frame m r (timeAdj x0 x1 u) := by
  unfold timeAdj
  try dsimp only
  repeat' first
    | with_reducible assumption
    | intro _
    | exact land_trans hm rfl
    | exact testBit_of_land hm (by decide)
    | with_reducible apply requestStep_frame
    | with_reducible apply count_frame
    | with_reducible apply ite_frame
    | (split <;> try (rename_i hq; replace hq := congrArg Prod.snd hq; dsimp only at hq; subst hq))
    | (rename_i hq; replace hq := congrArg Prod.snd hq; dsimp only at hq; subst hq)
    | (rename_i hq; injection hq with hq; subst hq)

theorem noteLock_frame {m : Nat} {r u : State} {x0} (h : Frame m r u) (hm : m &&& 512 = 512) : Frame m r (noteLock x0 u) := by
  unfold noteLock
  try dsimp only
  repeat' first
    | with_reducible assumption
    | intro _
    | exact land_trans hm rfl
    | exact testBit_of_land hm (by decide)
    | with_reducible apply ite_frame
    | (split <;> try (rename_i hq; replace hq := congrArg Prod.snd hq; dsimp only at hq; subst hq))
    | (rename_i hq; replace hq := congrArg Prod.snd hq; dsimp only at hq; subst hq)
    | (rename_i hq; injection hq with hq; subst hq)
    | (with_reducible refine Frame.lit ?_ rfl; first | with_reducible assumption | split)

theorem noteOffset_frame {m : Nat} {r u : State} {x0} (h : Frame m r u) (hm : m &&& 512 = 512) : Frame m r (noteOffset x0 u) := by
  unfold noteOffset
  try dsimp only
  repeat' first
    | with_reducible assumption
    | intro _
    | exact land_trans hm rfl
    | exact testBit_of_land hm (by decide)
    | with_reducible apply noteLock_frame
    | with_reducible apply ite_frame
    | (split <;> try (rename_i hq; replace hq := congrArg Prod.snd hq; dsimp only at hq; subst hq))
    | (rename_i hq; replace hq := congrArg Prod.snd hq; dsimp only at hq; subst hq)
    | (rename_i hq; injection hq with hq; subst hq)
    | (with_reducible refine Frame.lit ?_ rfl; first | with_reducible assumption | with_reducible apply noteLock_frame| split)

theorem servo_frame {m : Nat} {r u : State} {x0} (h : Frame m r u) (hm : m &&& 70643622612488 = 70643622612488) : Frame m r (servo x0 u) := by
  unfold servo
  try dsimp only
  repeat' first
    | with_reducible assumption
    | intro _
    | exact land_trans hm rfl
    | exact testBit_of_land hm (by decide)
    | with_reducible apply noteOffset_frame
    | with_reducible apply setIncrement_frame
    | with_reducible apply refuseStep_frame
    | with_reducible apply makeStep_frame
    | with_reducible apply keepWrite_frame
    | with_reducible apply ite_frame
    | (split <;> try (rename_i hq; replace hq := congrArg Prod.snd hq; dsimp only at hq; subst hq))
    | (rename_i hq; replace hq := congrArg Prod.snd hq; dsimp only at hq; subst hq)
    | (rename_i hq; injection hq with hq; subst hq)

theorem servoLoop_frame {m : Nat} {r u : State} (h : Frame m r u) (hm : m &&& 70643622612488 = 70643622612488) : Frame m r (servoLoop u) := by
  unfold servoLoop
  try dsimp only
  repeat' first
    | with_reducible assumption
    | intro _
    | exact land_trans hm rfl
    | exact testBit_of_land hm (by decide)
    | with_reducible apply servo_frame
    | with_reducible apply ite_frame
    | (split <;> try (rename_i hq; replace hq := congrArg Prod.snd hq; dsimp only at hq; subst hq))
    | (rename_i hq; replace hq := congrArg Prod.snd hq; dsimp only at hq; subst hq)
    | (rename_i hq; injection hq with hq; subst hq)

theorem setPtpPort_frame {m : Nat} {r u : State} {x0 x1} (h : Frame m r u) (hm : m &&& 512 = 512) : Frame m r (setPtpPort x0 x1 u) := by
  unfold setPtpPort
  try dsimp only
  repeat' first
    | with_reducible assumption
    | intro _
    | exact land_trans hm rfl
    | exact testBit_of_land hm (by decide)
    | with_reducible apply ite_frame
    | (split <;> try (rename_i hq; replace hq := congrArg Prod.snd hq; dsimp only at hq; subst hq))
    | (rename_i hq; replace hq := congrArg Prod.snd hq; dsimp only at hq; subst hq)
    | (rename_i hq; injection hq with hq; subst hq)
    | (with_reducible refine Frame.lit ?_ rfl; first | with_reducible assumption | split)

theorem enterHoldover_frame {m : Nat} {r u : State} (h : Frame m r u) (hm : m &&& 70368744180232 = 70368744180232) : Frame m r (enterHoldover u) := by
  unfold enterHoldover
  try dsimp only
  repeat' first
    | with_reducible assumption
    | intro _
    | exact land_trans hm rfl
    | exact testBit_of_land hm (by decide)
    | with_reducible apply supEvent_frame
    | with_reducible apply ite_frame
    | (split <;> try (rename_i hq; replace hq := congrArg Prod.snd hq; dsimp only at hq; subst hq))
    | (rename_i hq; replace hq := congrArg Prod.snd hq; dsimp only at hq; subst hq)
    | (rename_i hq; injection hq with hq; subst hq)
    | (with_reducible refine Frame.lit ?_ rfl; first | with_reducible assumption | with_reducible apply supEvent_frame| split)

theorem clearHoldover_frame {m : Nat} {r u : State} {x0} (h : Frame m r u) (hm : m &&& 70368744180232 = 70368744180232) : Frame m r (clearHoldover x0 u) := by
  unfold clearHoldover
  try dsimp only
  repeat' first
    | with_reducible assumption
    | intro _
    | exact land_trans hm rfl
    | exact testBit_of_land hm (by decide)
    | with_reducible apply supEvent_frame
    | with_reducible apply ite_frame
    | (split <;> try (rename_i hq; replace hq := congrArg Prod.snd hq; dsimp only at hq; subst hq))
    | (rename_i hq; replace hq := congrArg Prod.snd hq; dsimp only at hq; subst hq)
    | (rename_i hq; injection hq with hq; subst hq)
    | (with_reducible refine Frame.lit ?_ rfl; first | with_reducible assumption | with_reducible apply supEvent_frame| split)

theorem selectSource_frame {m : Nat} {r u : State} {x0} (h : Frame m r u) (hm : m &&& 70368744180232 = 70368744180232) : Frame m r (selectSource x0 u) := by
  unfold selectSource
  try dsimp only
  repeat' first
    | with_reducible assumption
    | intro _
    | exact land_trans hm rfl
    | exact testBit_of_land hm (by decide)
    | with_reducible apply enterHoldover_frame
    | with_reducible apply clearHoldover_frame
    | with_reducible apply supEvent_frame
    | with_reducible apply ite_frame
    | (split <;> try (rename_i hq; replace hq := congrArg Prod.snd hq; dsimp only at hq; subst hq))
    | (rename_i hq; replace hq := congrArg Prod.snd hq; dsimp only at hq; subst hq)
    | (rename_i hq; injection hq with hq; subst hq)
    | (with_reducible refine Frame.lit ?_ rfl; first | with_reducible assumption | with_reducible apply enterHoldover_frame | with_reducible apply clearHoldover_frame | with_reducible apply supEvent_frame| split)

theorem ownerChange_frame {m : Nat} {r u : State} {x0} (h : Frame m r u) (hm : m &&& 8 = 8) : Frame m r (ownerChange x0 u) := by
  unfold ownerChange
  try dsimp only
  repeat' first
    | with_reducible assumption
    | intro _
    | exact land_trans hm rfl
    | exact testBit_of_land hm (by decide)
    | with_reducible apply setReg_frame
    | with_reducible apply ite_frame
    | (split <;> try (rename_i hq; replace hq := congrArg Prod.snd hq; dsimp only at hq; subst hq))
    | (rename_i hq; replace hq := congrArg Prod.snd hq; dsimp only at hq; subst hq)
    | (rename_i hq; injection hq with hq; subst hq)

theorem ownerAtEdge_frame {m : Nat} {r u : State} (h : Frame m r u) (hm : m &&& 512 = 512) : Frame m r (ownerAtEdge u) := by
  unfold ownerAtEdge
  try dsimp only
  repeat' first
    | with_reducible assumption
    | intro _
    | exact land_trans hm rfl
    | exact testBit_of_land hm (by decide)
    | with_reducible apply ite_frame
    | (split <;> try (rename_i hq; replace hq := congrArg Prod.snd hq; dsimp only at hq; subst hq))
    | (rename_i hq; replace hq := congrArg Prod.snd hq; dsimp only at hq; subst hq)
    | (rename_i hq; injection hq with hq; subst hq)
    | (with_reducible refine Frame.lit ?_ rfl; first | with_reducible assumption | split)

theorem passOffset_frame {m : Nat} {r u : State} {x0 x1} (h : Frame m r u) (hm : m &&& 512 = 512) : Frame m r (passOffset x0 x1 u) := by
  unfold passOffset
  try dsimp only
  repeat' first
    | with_reducible assumption
    | intro _
    | exact land_trans hm rfl
    | exact testBit_of_land hm (by decide)
    | with_reducible apply ite_frame
    | (split <;> try (rename_i hq; replace hq := congrArg Prod.snd hq; dsimp only at hq; subst hq))
    | (rename_i hq; replace hq := congrArg Prod.snd hq; dsimp only at hq; subst hq)
    | (rename_i hq; injection hq with hq; subst hq)
    | (with_reducible refine Frame.lit ?_ rfl; first | with_reducible assumption | split)

theorem noteAnnounce_frame {m : Nat} {r u : State} {x0 x1 x2 x3} (h : Frame m r u) (hm : m &&& 512 = 512) : Frame m r (noteAnnounce x0 x1 x2 x3 u) := by
  unfold noteAnnounce
  try dsimp only
  repeat' first
    | with_reducible assumption
    | intro _
    | exact land_trans hm rfl
    | exact testBit_of_land hm (by decide)
    | with_reducible apply setPtpPort_frame
    | with_reducible apply ite_frame
    | (split <;> try (rename_i hq; replace hq := congrArg Prod.snd hq; dsimp only at hq; subst hq))
    | (rename_i hq; replace hq := congrArg Prod.snd hq; dsimp only at hq; subst hq)
    | (rename_i hq; injection hq with hq; subst hq)

theorem runBmca_frame {m : Nat} {r u : State} (h : Frame m r u) (hm : m &&& 8 = 8) : Frame m r (runBmca u) := by
  unfold runBmca
  try dsimp only
  repeat' first
    | with_reducible assumption
    | intro _
    | exact land_trans hm rfl
    | exact testBit_of_land hm (by decide)
    | with_reducible apply each_frame
    | with_reducible apply setRfld_frame
    | with_reducible apply ite_frame
    | (split <;> try (rename_i hq; replace hq := congrArg Prod.snd hq; dsimp only at hq; subst hq))
    | (rename_i hq; replace hq := congrArg Prod.snd hq; dsimp only at hq; subst hq)
    | (rename_i hq; injection hq with hq; subst hq)

theorem sendPtp_frame {m : Nat} {r u : State} {x0 x1 x2} (h : Frame m r u) (hm : m &&& 16396 = 16396) : Frame m r (sendPtp x0 x1 x2 u) := by
  unfold sendPtp
  try dsimp only
  repeat' first
    | with_reducible assumption
    | intro _
    | exact land_trans hm rfl
    | exact testBit_of_land hm (by decide)
    | with_reducible apply when'_frame
    | with_reducible apply supSends_frame
    | with_reducible apply ite_frame
    | (split <;> try (rename_i hq; replace hq := congrArg Prod.snd hq; dsimp only at hq; subst hq))
    | (rename_i hq; replace hq := congrArg Prod.snd hq; dsimp only at hq; subst hq)
    | (rename_i hq; injection hq with hq; subst hq)

theorem sendStamped_frame {m : Nat} {r u : State} {x0 x1 x2} (h : Frame m r u) (hm : m &&& 16908 = 16908) : Frame m r (sendStamped x0 x1 x2 u) := by
  unfold sendStamped
  try dsimp only
  repeat' first
    | with_reducible assumption
    | intro _
    | exact land_trans hm rfl
    | exact testBit_of_land hm (by decide)
    | with_reducible apply sendPtp_frame
    | with_reducible apply setPtpPort_frame
    | with_reducible apply ite_frame
    | (split <;> try (rename_i hq; replace hq := congrArg Prod.snd hq; dsimp only at hq; subst hq))
    | (rename_i hq; replace hq := congrArg Prod.snd hq; dsimp only at hq; subst hq)
    | (rename_i hq; injection hq with hq; subst hq)

theorem askDelay_frame {m : Nat} {r u : State} {x0 x1} (h : Frame m r u) (hm : m &&& 16908 = 16908) : Frame m r (askDelay x0 x1 u) := by
  unfold askDelay
  try dsimp only
  repeat' first
    | with_reducible assumption
    | intro _
    | exact land_trans hm rfl
    | exact testBit_of_land hm (by decide)
    | with_reducible apply sendStamped_frame
    | with_reducible apply setPtpPort_frame
    | with_reducible apply ite_frame
    | (split <;> try (rename_i hq; replace hq := congrArg Prod.snd hq; dsimp only at hq; subst hq))
    | (rename_i hq; replace hq := congrArg Prod.snd hq; dsimp only at hq; subst hq)
    | (rename_i hq; injection hq with hq; subst hq)

theorem ptpHandle_frame {m : Nat} {r u : State} {x0 x1} (h : Frame m r u) (hm : m &&& 16908 = 16908) : Frame m r (ptpHandle x0 x1 u) := by
  unfold ptpHandle
  try dsimp only
  repeat' first
    | with_reducible assumption
    | intro _
    | exact land_trans hm rfl
    | exact testBit_of_land hm (by decide)
    | with_reducible apply runBmca_frame
    | with_reducible apply noteAnnounce_frame
    | with_reducible apply setPtpPort_frame
    | with_reducible apply askDelay_frame
    | with_reducible apply passOffset_frame
    | with_reducible apply sendPtp_frame
    | with_reducible apply sendStamped_frame
    | with_reducible apply ite_frame
    | (split <;> try (rename_i hq; replace hq := congrArg Prod.snd hq; dsimp only at hq; subst hq))
    | (rename_i hq; replace hq := congrArg Prod.snd hq; dsimp only at hq; subst hq)
    | (rename_i hq; injection hq with hq; subst hq)

theorem ptpMessage_frame {m : Nat} {r u : State} {x0 x1} (h : Frame m r u) (hm : m &&& 17164 = 17164) : Frame m r (ptpMessage x0 x1 u) := by
  unfold ptpMessage
  try dsimp only
  repeat' first
    | with_reducible assumption
    | intro _
    | exact land_trans hm rfl
    | exact testBit_of_land hm (by decide)
    | with_reducible apply dropAtIngress_frame
    | with_reducible apply ptpHandle_frame
    | with_reducible apply ite_frame
    | (split <;> try (rename_i hq; replace hq := congrArg Prod.snd hq; dsimp only at hq; subst hq))
    | (rename_i hq; replace hq := congrArg Prod.snd hq; dsimp only at hq; subst hq)
    | (rename_i hq; injection hq with hq; subst hq)

theorem ptpSyncInterval_frame {m : Nat} {r u : State} {x0 x1} (h : Frame m r u) (hm : m &&& 16908 = 16908) : Frame m r (ptpSyncInterval x0 x1 u) := by
  unfold ptpSyncInterval
  try dsimp only
  repeat' first
    | with_reducible assumption
    | intro _
    | exact land_trans hm rfl
    | exact testBit_of_land hm (by decide)
    | with_reducible apply setPtpPort_frame
    | with_reducible apply sendPtp_frame
    | with_reducible apply sendStamped_frame
    | with_reducible apply ite_frame
    | (split <;> try (rename_i hq; replace hq := congrArg Prod.snd hq; dsimp only at hq; subst hq))
    | (rename_i hq; replace hq := congrArg Prod.snd hq; dsimp only at hq; subst hq)
    | (rename_i hq; injection hq with hq; subst hq)

theorem ppsInEdge_frame {m : Nat} {r u : State} {x0} (h : Frame m r u) (hm : m &&& 520 = 520) : Frame m r (ppsInEdge x0 u) := by
  unfold ppsInEdge
  try dsimp only
  repeat' first
    | with_reducible assumption
    | intro _
    | exact land_trans hm rfl
    | exact testBit_of_land hm (by decide)
    | with_reducible apply passOffset_frame
    | with_reducible apply count_frame
    | with_reducible apply ite_frame
    | (split <;> try (rename_i hq; replace hq := congrArg Prod.snd hq; dsimp only at hq; subst hq))
    | (rename_i hq; replace hq := congrArg Prod.snd hq; dsimp only at hq; subst hq)
    | (rename_i hq; injection hq with hq; subst hq)
    | (with_reducible refine Frame.lit ?_ rfl; first | with_reducible assumption | with_reducible apply passOffset_frame | with_reducible apply count_frame| split)

theorem ppsOutPulse_frame {m : Nat} {r u : State} {x0} (h : Frame m r u) (hm : m &&& 516 = 516) : Frame m r (ppsOutPulse x0 u) := by
  unfold ppsOutPulse
  try dsimp only
  repeat' first
    | with_reducible assumption
    | intro _
    | exact land_trans hm rfl
    | exact testBit_of_land hm (by decide)
    | with_reducible apply emitLand_frame
    | with_reducible apply ite_frame
    | (split <;> try (rename_i hq; replace hq := congrArg Prod.snd hq; dsimp only at hq; subst hq))
    | (rename_i hq; replace hq := congrArg Prod.snd hq; dsimp only at hq; subst hq)
    | (rename_i hq; injection hq with hq; subst hq)
    | (with_reducible refine Frame.lit ?_ rfl; first | with_reducible assumption | with_reducible apply emitLand_frame| split)

end Sys2Proof.Machine
end

