-- ==== Sys2Proof/Laws/FrameJoin.lean ====
section
/-! SUPPORT. The frames of the operations of Machine/Join.lean: each changes nothing outside its mask (see Laws/Frame.lean). -/
set_option Elab.async false
set_option linter.all false

namespace Sys2Proof.Machine

theorem rejectLmm_frame {m : Nat} {r u : State} (h : Frame m r u) (hm : m &&& 8 = 8) : Frame m r (rejectLmm u) := by
  unfold rejectLmm
  try dsimp only
  repeat' first
    | with_reducible assumption
    | intro _
    | exact land_trans hm rfl
    | exact testBit_of_land hm (by decide)
    | with_reducible apply count_frame
    | with_reducible apply ite_frame
    | (split <;> try (rename_i hq; replace hq := congrArg Prod.snd hq; dsimp only at hq; subst hq))
    | (rename_i hq; replace hq := congrArg Prod.snd hq; dsimp only at hq; subst hq)
    | (rename_i hq; injection hq with hq; subst hq)

theorem ackLmm_frame {m : Nat} {r u : State} {x0 x1 x2} (h : Frame m r u) (hm : m &&& 8388608 = 8388608) : Frame m r (ackLmm x0 x1 x2 u) := by
  unfold ackLmm
  try dsimp only
  repeat' first
    | with_reducible assumption
    | intro _
    | exact land_trans hm rfl
    | exact testBit_of_land hm (by decide)
    | with_reducible apply queueAck_frame
    | with_reducible apply ite_frame
    | (split <;> try (rename_i hq; replace hq := congrArg Prod.snd hq; dsimp only at hq; subst hq))
    | (rename_i hq; replace hq := congrArg Prod.snd hq; dsimp only at hq; subst hq)
    | (rename_i hq; injection hq with hq; subst hq)

theorem actOn_frame {m : Nat} {r u : State} {x0 x1 x2 x3} (h : Frame m r u) (hm : m &&& 8388616 = 8388616) (hf2 : ∀ y0 v w, Frame m r v → x2 y0 v = some w → Frame m r w) : Frame m r (actOn x0 x1 x2 x3 u) := by
  unfold actOn
  try dsimp only
  repeat' first
    | with_reducible assumption
    | intro _
    | exact land_trans hm rfl
    | exact testBit_of_land hm (by decide)
    | with_reducible apply ackLmm_frame
    | with_reducible apply rejectLmm_frame
    | with_reducible apply modIdent_frame
    | with_reducible apply ite_frame
    | (split <;> try (rename_i hq; replace hq := congrArg Prod.snd hq; dsimp only at hq; subst hq))
    | (rename_i hq; replace hq := congrArg Prod.snd hq; dsimp only at hq; subst hq)
    | (with_reducible refine hf2 _ _ _ ?_ (by assumption))
    | (rename_i hq; injection hq with hq; subst hq)

theorem actOnAll_frame {m : Nat} {r u : State} {x0 x1 x2} (h : Frame m r u) (hm : m &&& 8388616 = 8388616) (hf2 : ∀ y0 v w, Frame m r v → x2 y0 v = some w → Frame m r w) : Frame m r (actOnAll x0 x1 x2 u) := by
  unfold actOnAll
  try dsimp only
  repeat' first
    | with_reducible assumption
    | intro _
    | exact land_trans hm rfl
    | exact testBit_of_land hm (by decide)
    | with_reducible apply each_frame
    | with_reducible apply actOn_frame
    | with_reducible apply ite_frame
    | (split <;> try (rename_i hq; replace hq := congrArg Prod.snd hq; dsimp only at hq; subst hq))
    | (rename_i hq; replace hq := congrArg Prod.snd hq; dsimp only at hq; subst hq)
    | (with_reducible refine hf2 _ _ _ ?_ (by assumption))
    | (rename_i hq; injection hq with hq; subst hq)

theorem enterServing_frame {m : Nat} {r u : State} {x0 x1} (h : Frame m r u) (hm : m &&& 83562959865870 = 83562959865870) : Frame m r (enterServing x0 x1 u) := by
  unfold enterServing
  try dsimp only
  repeat' first
    | with_reducible assumption
    | intro _
    | exact land_trans hm rfl
    | exact testBit_of_land hm (by decide)
    | with_reducible apply carryIdent_frame
    | with_reducible apply modIdent_frame
    | with_reducible apply dropFrags_frame
    | with_reducible apply changeState_frame
    | with_reducible apply ite_frame
    | (split <;> try (rename_i hq; replace hq := congrArg Prod.snd hq; dsimp only at hq; subst hq))
    | (rename_i hq; replace hq := congrArg Prod.snd hq; dsimp only at hq; subst hq)
    | (rename_i hq; injection hq with hq; subst hq)

theorem toListening_frame {m : Nat} {r u : State} {x0 x1} (h : Frame m r u) (hm : m &&& 70368752568328 = 70368752568328) : Frame m r (toListening x0 x1 u) := by
  unfold toListening
  try dsimp only
  repeat' first
    | with_reducible assumption
    | intro _
    | exact land_trans hm rfl
    | exact testBit_of_land hm (by decide)
    | with_reducible apply changeState_frame
    | with_reducible apply ite_frame
    | (split <;> try (rename_i hq; replace hq := congrArg Prod.snd hq; dsimp only at hq; subst hq))
    | (rename_i hq; replace hq := congrArg Prod.snd hq; dsimp only at hq; subst hq)
    | (rename_i hq; injection hq with hq; subst hq)

theorem assignTn_frame {m : Nat} {r u : State} {x0 x1 x2} (h : Frame m r u) (hm : m &&& 70368752568328 = 70368752568328) : Frame m r (assignTn x0 x1 x2 u) := by
  unfold assignTn
  try dsimp only
  repeat' first
    | with_reducible assumption
    | intro _
    | exact land_trans hm rfl
    | exact testBit_of_land hm (by decide)
    | with_reducible apply rejectLmm_frame
    | with_reducible apply ackLmm_frame
    | with_reducible apply supEvent_frame
    | with_reducible apply changeState_frame
    | with_reducible apply setIdent_frame
    | with_reducible apply ite_frame
    | (split <;> try (rename_i hq; replace hq := congrArg Prod.snd hq; dsimp only at hq; subst hq))
    | (rename_i hq; replace hq := congrArg Prod.snd hq; dsimp only at hq; subst hq)
    | (rename_i hq; injection hq with hq; subst hq)

theorem settleEqd_frame {m : Nat} {r u : State} {x0 x1} (h : Frame m r u) (hm : m &&& 8388608 = 8388608) : Frame m r (settleEqd x0 x1 u) := by
  unfold settleEqd
  try dsimp only
  repeat' first
    | with_reducible assumption
    | intro _
    | exact land_trans hm rfl
    | exact testBit_of_land hm (by decide)
    | with_reducible apply ite_frame
    | (split <;> try (rename_i hq; replace hq := congrArg Prod.snd hq; dsimp only at hq; subst hq))
    | (rename_i hq; replace hq := congrArg Prod.snd hq; dsimp only at hq; subst hq)
    | (rename_i hq; injection hq with hq; subst hq)
    | (with_reducible refine Frame.lit ?_ rfl; first | with_reducible assumption | split)

theorem setEqd_frame {m : Nat} {r u : State} {x0 x1 x2} (h : Frame m r u) (hm : m &&& 70368752569352 = 70368752569352) : Frame m r (setEqd x0 x1 x2 u) := by
  unfold setEqd
  try dsimp only
  repeat' first
    | with_reducible assumption
    | intro _
    | exact land_trans hm rfl
    | exact testBit_of_land hm (by decide)
    | with_reducible apply when'_frame
    | with_reducible apply supEvent_frame
    | with_reducible apply keepWrite_frame
    | with_reducible apply ite_frame
    | (split <;> try (rename_i hq; replace hq := congrArg Prod.snd hq; dsimp only at hq; subst hq))
    | (rename_i hq; replace hq := congrArg Prod.snd hq; dsimp only at hq; subst hq)
    | (rename_i hq; injection hq with hq; subst hq)
    | (with_reducible refine Frame.lit ?_ rfl; first | with_reducible assumption | with_reducible apply when'_frame | with_reducible apply supEvent_frame | with_reducible apply keepWrite_frame| split)

theorem rangingOne_frame {m : Nat} {r u w : State} {x0 x1 x2 x3} (h : Frame m r u) (hm : m &&& 83562959866894 = 83562959866894) (e : rangingOne x0 x1 x2 x3 u = some w) : Frame m r w := by
  unfold rangingOne at e
  try dsimp only at e
  repeat' split at e
  all_goals first | (injection e with e; subst e) | injection e
  all_goals repeat' first
    | with_reducible assumption
    | intro _
    | exact land_trans hm rfl
    | exact testBit_of_land hm (by decide)
    | with_reducible apply setEqd_frame
    | with_reducible apply enterServing_frame
    | with_reducible apply saveReg_frame
    | with_reducible apply modIdent_frame
    | with_reducible apply ite_frame
    | (split <;> try (rename_i hq; replace hq := congrArg Prod.snd hq; dsimp only at hq; subst hq))
    | (rename_i hq; replace hq := congrArg Prod.snd hq; dsimp only at hq; subst hq)
    | (rename_i hq; injection hq with hq; subst hq)

theorem rangingTime_frame {m : Nat} {r u : State} {x0 x1 x2 x3} (h : Frame m r u) (hm : m &&& 83562959866894 = 83562959866894) : Frame m r (rangingTime x0 x1 x2 x3 u) := by
  unfold rangingTime
  try dsimp only
  repeat' first
    | with_reducible assumption
    | intro _
    | exact land_trans hm rfl
    | exact testBit_of_land hm (by decide)
    | with_reducible apply rejectLmm_frame
    | with_reducible apply actOnAll_frame
    | with_reducible apply ite_frame
    | (split <;> try (rename_i hq; replace hq := congrArg Prod.snd hq; dsimp only at hq; subst hq))
    | (rename_i hq; replace hq := congrArg Prod.snd hq; dsimp only at hq; subst hq)
    | (with_reducible refine rangingOne_frame (e := by assumption) ?_ ?_)
    | (rename_i hq; injection hq with hq; subst hq)

theorem removeAlloc_frame {m : Nat} {r u : State} {x0 x1} (h : Frame m r u) (hm : m &&& 83562892757006 = 83562892757006) : Frame m r (removeAlloc x0 x1 u) := by
  unfold removeAlloc
  try dsimp only
  repeat' first
    | with_reducible assumption
    | intro _
    | exact land_trans hm rfl
    | exact testBit_of_land hm (by decide)
    | with_reducible apply modIdent_frame
    | with_reducible apply flushAlloc_frame
    | with_reducible apply ite_frame
    | (split <;> try (rename_i hq; replace hq := congrArg Prod.snd hq; dsimp only at hq; subst hq))
    | (rename_i hq; replace hq := congrArg Prod.snd hq; dsimp only at hq; subst hq)
    | (rename_i hq; injection hq with hq; subst hq)

theorem allocOne_frame {m : Nat} {r u w : State} {x0 x1 x2 x3} (h : Frame m r u) (hm : m &&& 83562892758030 = 83562892758030) (e : allocOne x0 x1 x2 x3 u = some w) : Frame m r w := by
  unfold allocOne at e
  try dsimp only at e
  repeat' split at e
  all_goals first | (injection e with e; subst e) | injection e
  all_goals repeat' first
    | with_reducible assumption
    | intro _
    | exact land_trans hm rfl
    | exact testBit_of_land hm (by decide)
    | with_reducible apply each_frame
    | with_reducible apply when'_frame
    | with_reducible apply resaveReg_frame
    | with_reducible apply removeAlloc_frame
    | with_reducible apply modIdent_frame
    | with_reducible apply ite_frame
    | (split <;> try (rename_i hq; replace hq := congrArg Prod.snd hq; dsimp only at hq; subst hq))
    | (rename_i hq; replace hq := congrArg Prod.snd hq; dsimp only at hq; subst hq)
    | (rename_i hq; injection hq with hq; subst hq)

theorem allocAssign_frame {m : Nat} {r u : State} {x0 x1 x2 x3} (h : Frame m r u) (hm : m &&& 83562892758030 = 83562892758030) : Frame m r (allocAssign x0 x1 x2 x3 u) := by
  unfold allocAssign
  try dsimp only
  repeat' first
    | with_reducible assumption
    | intro _
    | exact land_trans hm rfl
    | exact testBit_of_land hm (by decide)
    | with_reducible apply actOnAll_frame
    | with_reducible apply ite_frame
    | (split <;> try (rename_i hq; replace hq := congrArg Prod.snd hq; dsimp only at hq; subst hq))
    | (rename_i hq; replace hq := congrArg Prod.snd hq; dsimp only at hq; subst hq)
    | (with_reducible refine allocOne_frame (e := by assumption) ?_ ?_)
    | (rename_i hq; injection hq with hq; subst hq)

theorem deactivateOne_frame {m : Nat} {r u w : State} {x0 x1} (h : Frame m r u) (hm : m &&& 83562892758030 = 83562892758030) (e : deactivateOne x0 x1 u = some w) : Frame m r w := by
  unfold deactivateOne at e
  try dsimp only at e
  repeat' split at e
  all_goals first | (injection e with e; subst e) | injection e
  all_goals repeat' first
    | with_reducible assumption
    | intro _
    | exact land_trans hm rfl
    | exact testBit_of_land hm (by decide)
    | with_reducible apply toListening_frame
    | with_reducible apply clearReg_frame
    | with_reducible apply dropTn_frame
    | with_reducible apply ite_frame
    | (split <;> try (rename_i hq; replace hq := congrArg Prod.snd hq; dsimp only at hq; subst hq))
    | (rename_i hq; replace hq := congrArg Prod.snd hq; dsimp only at hq; subst hq)
    | (rename_i hq; injection hq with hq; subst hq)

theorem deactivate_frame {m : Nat} {r u : State} {x0} (h : Frame m r u) (hm : m &&& 83562892758030 = 83562892758030) : Frame m r (deactivate x0 u) := by
  unfold deactivate
  try dsimp only
  repeat' first
    | with_reducible assumption
    | intro _
    | exact land_trans hm rfl
    | exact testBit_of_land hm (by decide)
    | with_reducible apply actOnAll_frame
    | with_reducible apply ite_frame
    | (split <;> try (rename_i hq; replace hq := congrArg Prod.snd hq; dsimp only at hq; subst hq))
    | (rename_i hq; replace hq := congrArg Prod.snd hq; dsimp only at hq; subst hq)
    | (with_reducible refine deactivateOne_frame (e := by assumption) ?_ ?_)
    | (rename_i hq; injection hq with hq; subst hq)

theorem readmit_frame {m : Nat} {r u : State} {x0 x1} (h : Frame m r u) (hm : m &&& 70368752569352 = 70368752569352) : Frame m r (readmit x0 x1 u) := by
  unfold readmit
  try dsimp only
  repeat' first
    | with_reducible assumption
    | intro _
    | exact land_trans hm rfl
    | exact testBit_of_land hm (by decide)
    | with_reducible apply toListening_frame
    | with_reducible apply setExpelled_frame
    | with_reducible apply ite_frame
    | (split <;> try (rename_i hq; replace hq := congrArg Prod.snd hq; dsimp only at hq; subst hq))
    | (rename_i hq; replace hq := congrArg Prod.snd hq; dsimp only at hq; subst hq)
    | (rename_i hq; injection hq with hq; subst hq)

theorem expel_frame {m : Nat} {r u : State} {x0 x1 x2} (h : Frame m r u) (hm : m &&& 83562892758030 = 83562892758030) : Frame m r (expel x0 x1 x2 u) := by
  unfold expel
  try dsimp only
  repeat' first
    | with_reducible assumption
    | intro _
    | exact land_trans hm rfl
    | exact testBit_of_land hm (by decide)
    | with_reducible apply readmit_frame
    | with_reducible apply ackLmm_frame
    | with_reducible apply rejectLmm_frame
    | with_reducible apply changeState_frame
    | with_reducible apply setExpelled_frame
    | with_reducible apply clearReg_frame
    | with_reducible apply dropTn_frame
    | with_reducible apply ite_frame
    | (split <;> try (rename_i hq; replace hq := congrArg Prod.snd hq; dsimp only at hq; subst hq))
    | (rename_i hq; replace hq := congrArg Prod.snd hq; dsimp only at hq; subst hq)
    | (rename_i hq; injection hq with hq; subst hq)

theorem unexpel_frame {m : Nat} {r u : State} {x0} (h : Frame m r u) (hm : m &&& 70368752569352 = 70368752569352) : Frame m r (unexpel x0 u) := by
  unfold unexpel
  try dsimp only
  repeat' first
    | with_reducible assumption
    | intro _
    | exact land_trans hm rfl
    | exact testBit_of_land hm (by decide)
    | with_reducible apply readmit_frame
    | with_reducible apply ite_frame
    | (split <;> try (rename_i hq; replace hq := congrArg Prod.snd hq; dsimp only at hq; subst hq))
    | (rename_i hq; replace hq := congrArg Prod.snd hq; dsimp only at hq; subst hq)
    | (rename_i hq; injection hq with hq; subst hq)

theorem holdOne_frame {m : Nat} {r u w : State} {x0 x1 x2} (h : Frame m r u) (hm : m &&& 83562959865870 = 83562959865870) (e : holdOne x0 x1 x2 u = some w) : Frame m r w := by
  unfold holdOne at e
  try dsimp only at e
  repeat' split at e
  all_goals first | (injection e with e; subst e) | injection e
  all_goals repeat' first
    | with_reducible assumption
    | intro _
    | exact land_trans hm rfl
    | exact testBit_of_land hm (by decide)
    | with_reducible apply enterServing_frame
    | with_reducible apply changeState_frame
    | with_reducible apply ite_frame
    | (split <;> try (rename_i hq; replace hq := congrArg Prod.snd hq; dsimp only at hq; subst hq))
    | (rename_i hq; replace hq := congrArg Prod.snd hq; dsimp only at hq; subst hq)
    | (rename_i hq; injection hq with hq; subst hq)

theorem hold_frame {m : Nat} {r u : State} {x0 x1} (h : Frame m r u) (hm : m &&& 83562959865870 = 83562959865870) : Frame m r (hold x0 x1 u) := by
  unfold hold
  try dsimp only
  repeat' first
    | with_reducible assumption
    | intro _
    | exact land_trans hm rfl
    | exact testBit_of_land hm (by decide)
    | with_reducible apply actOnAll_frame
    | with_reducible apply ite_frame
    | (split <;> try (rename_i hq; replace hq := congrArg Prod.snd hq; dsimp only at hq; subst hq))
    | (rename_i hq; replace hq := congrArg Prod.snd hq; dsimp only at hq; subst hq)
    | (with_reducible refine holdOne_frame (e := by assumption) ?_ ?_)
    | (rename_i hq; injection hq with hq; subst hq)

theorem keyEpoch_frame {m : Nat} {r u : State} {x0 x1 x2 x3} (h : Frame m r u) (hm : m &&& 25165832 = 25165832) : Frame m r (keyEpoch x0 x1 x2 x3 u) := by
  unfold keyEpoch
  try dsimp only
  repeat' first
    | with_reducible assumption
    | intro _
    | exact land_trans hm rfl
    | exact testBit_of_land hm (by decide)
    | with_reducible apply actOnAll_frame
    | with_reducible apply nameEpoch_frame
    | with_reducible apply ite_frame
    | (split <;> try (rename_i hq; replace hq := congrArg Prod.snd hq; dsimp only at hq; subst hq))
    | (rename_i hq; replace hq := congrArg Prod.snd hq; dsimp only at hq; subst hq)
    | (rename_i hq; injection hq with hq; subst hq)

theorem storeProfile_frame {m : Nat} {r u : State} {x0 x1 x2 x3 x4} (h : Frame m r u) (hm : m &&& 70368744180744 = 70368744180744) : Frame m r (storeProfile x0 x1 x2 x3 x4 u) := by
  unfold storeProfile
  try dsimp only
  repeat' first
    | with_reducible assumption
    | intro _
    | exact land_trans hm rfl
    | exact testBit_of_land hm (by decide)
    | with_reducible apply keepWrite_frame
    | with_reducible apply ite_frame
    | (split <;> try (rename_i hq; replace hq := congrArg Prod.snd hq; dsimp only at hq; subst hq))
    | (rename_i hq; replace hq := congrArg Prod.snd hq; dsimp only at hq; subst hq)
    | (rename_i hq; injection hq with hq; subst hq)

theorem burstProfile_frame {m : Nat} {r u : State} {x0 x1 x2 x3 x4} (h : Frame m r u) (hm : m &&& 70368752569352 = 70368752569352) : Frame m r (burstProfile x0 x1 x2 x3 x4 u) := by
  unfold burstProfile
  try dsimp only
  repeat' first
    | with_reducible assumption
    | intro _
    | exact land_trans hm rfl
    | exact testBit_of_land hm (by decide)
    | with_reducible apply each_frame
    | with_reducible apply rejectLmm_frame
    | with_reducible apply ackLmm_frame
    | with_reducible apply storeProfile_frame
    | with_reducible apply actOnAll_frame
    | with_reducible apply ite_frame
    | (split <;> try (rename_i hq; replace hq := congrArg Prod.snd hq; dsimp only at hq; subst hq))
    | (rename_i hq; replace hq := congrArg Prod.snd hq; dsimp only at hq; subst hq)
    | (rename_i hq; injection hq with hq; subst hq)

theorem echoRequest_frame {m : Nat} {r u : State} {x0 x1} (h : Frame m r u) (hm : m &&& 8388616 = 8388616) : Frame m r (echoRequest x0 x1 u) := by
  unfold echoRequest
  try dsimp only
  repeat' first
    | with_reducible assumption
    | intro _
    | exact land_trans hm rfl
    | exact testBit_of_land hm (by decide)
    | with_reducible apply actOnAll_frame
    | with_reducible apply queueMsg_frame
    | with_reducible apply ite_frame
    | (split <;> try (rename_i hq; replace hq := congrArg Prod.snd hq; dsimp only at hq; subst hq))
    | (rename_i hq; replace hq := congrArg Prod.snd hq; dsimp only at hq; subst hq)
    | (rename_i hq; injection hq with hq; subst hq)

theorem resumeOne_frame {m : Nat} {r u w : State} {x0 x1 x2 x3} (h : Frame m r u) (hm : m &&& 83562976644110 = 83562976644110) (e : resumeOne x0 x1 x2 x3 u = some w) : Frame m r w := by
  unfold resumeOne at e
  try dsimp only at e
  repeat' split at e
  all_goals first | (injection e with e; subst e) | injection e
  all_goals repeat' first
    | with_reducible assumption
    | intro _
    | exact land_trans hm rfl
    | exact testBit_of_land hm (by decide)
    | with_reducible apply enterServing_frame
    | with_reducible apply resumeEpoch_frame
    | with_reducible apply ite_frame
    | (split <;> try (rename_i hq; replace hq := congrArg Prod.snd hq; dsimp only at hq; subst hq))
    | (rename_i hq; replace hq := congrArg Prod.snd hq; dsimp only at hq; subst hq)
    | (rename_i hq; injection hq with hq; subst hq)

theorem resumeAck_frame {m : Nat} {r u : State} {x0 x1 x2} (h : Frame m r u) (hm : m &&& 83562976644110 = 83562976644110) : Frame m r (resumeAck x0 x1 x2 u) := by
  unfold resumeAck
  try dsimp only
  repeat' first
    | with_reducible assumption
    | intro _
    | exact land_trans hm rfl
    | exact testBit_of_land hm (by decide)
    | with_reducible apply actOnAll_frame
    | with_reducible apply ite_frame
    | (split <;> try (rename_i hq; replace hq := congrArg Prod.snd hq; dsimp only at hq; subst hq))
    | (rename_i hq; replace hq := congrArg Prod.snd hq; dsimp only at hq; subst hq)
    | (with_reducible refine resumeOne_frame (e := by assumption) ?_ ?_)
    | (rename_i hq; injection hq with hq; subst hq)

theorem dozeOne_frame {m : Nat} {r u w : State} {x0 x1 x2 x3 x4} (h : Frame m r u) (hm : m &&& 8388616 = 8388616) (e : dozeOne x0 x1 x2 x3 x4 u = some w) : Frame m r w := by
  unfold dozeOne at e
  try dsimp only at e
  repeat' split at e
  all_goals first | (injection e with e; subst e) | injection e
  all_goals repeat' first
    | with_reducible assumption
    | intro _
    | exact land_trans hm rfl
    | exact testBit_of_land hm (by decide)
    | with_reducible apply count_frame
    | with_reducible apply setIdent_frame
    | with_reducible apply ite_frame
    | (split <;> try (rename_i hq; replace hq := congrArg Prod.snd hq; dsimp only at hq; subst hq))
    | (rename_i hq; replace hq := congrArg Prod.snd hq; dsimp only at hq; subst hq)
    | (rename_i hq; injection hq with hq; subst hq)

theorem dozeGrant_frame {m : Nat} {r u : State} {x0 x1 x2 x3} (h : Frame m r u) (hm : m &&& 8388616 = 8388616) : Frame m r (dozeGrant x0 x1 x2 x3 u) := by
  unfold dozeGrant
  try dsimp only
  repeat' first
    | with_reducible assumption
    | intro _
    | exact land_trans hm rfl
    | exact testBit_of_land hm (by decide)
    | with_reducible apply actOnAll_frame
    | with_reducible apply ite_frame
    | (split <;> try (rename_i hq; replace hq := congrArg Prod.snd hq; dsimp only at hq; subst hq))
    | (rename_i hq; replace hq := congrArg Prod.snd hq; dsimp only at hq; subst hq)
    | (with_reducible refine dozeOne_frame (e := by assumption) ?_ ?_)
    | (rename_i hq; injection hq with hq; subst hq)

theorem useTimeOfDay_frame {m : Nat} {r u : State} {x0 x1 x2 x3 x4 x5} (h : Frame m r u) (hm : m &&& 512 = 512) : Frame m r (useTimeOfDay x0 x1 x2 x3 x4 x5 u) := by
  unfold useTimeOfDay
  try dsimp only
  repeat' first
    | with_reducible assumption
    | intro _
    | exact land_trans hm rfl
    | exact testBit_of_land hm (by decide)
    | with_reducible apply passOffset_frame
    | with_reducible apply ite_frame
    | (split <;> try (rename_i hq; replace hq := congrArg Prod.snd hq; dsimp only at hq; subst hq))
    | (rename_i hq; replace hq := congrArg Prod.snd hq; dsimp only at hq; subst hq)
    | (rename_i hq; injection hq with hq; subst hq)
    | (with_reducible refine Frame.lit ?_ rfl; first | with_reducible assumption | with_reducible apply passOffset_frame| split)

theorem timeOfDay_frame {m : Nat} {r u : State} {x0 x1 x2 x3 x4} (h : Frame m r u) (hm : m &&& 8389128 = 8389128) : Frame m r (timeOfDay x0 x1 x2 x3 x4 u) := by
  unfold timeOfDay
  try dsimp only
  repeat' first
    | with_reducible assumption
    | intro _
    | exact land_trans hm rfl
    | exact testBit_of_land hm (by decide)
    | with_reducible apply each_frame
    | with_reducible apply rejectLmm_frame
    | with_reducible apply useTimeOfDay_frame
    | with_reducible apply count_frame
    | with_reducible apply ackLmm_frame
    | with_reducible apply actOnAll_frame
    | with_reducible apply ite_frame
    | (split <;> try (rename_i hq; replace hq := congrArg Prod.snd hq; dsimp only at hq; subst hq))
    | (rename_i hq; replace hq := congrArg Prod.snd hq; dsimp only at hq; subst hq)
    | (rename_i hq; injection hq with hq; subst hq)

theorem joinLost_frame {m : Nat} {r u : State} {x0 x1 x2 x3} (h : Frame m r u) (hm : m &&& 83562892758030 = 83562892758030) : Frame m r (joinLost x0 x1 x2 x3 u) := by
  unfold joinLost
  try dsimp only
  repeat' first
    | with_reducible assumption
    | intro _
    | exact land_trans hm rfl
    | exact testBit_of_land hm (by decide)
    | with_reducible apply toListening_frame
    | with_reducible apply supEvent_frame
    | with_reducible apply clearReg_frame
    | with_reducible apply dropTn_frame
    | with_reducible apply ite_frame
    | (split <;> try (rename_i hq; replace hq := congrArg Prod.snd hq; dsimp only at hq; subst hq))
    | (rename_i hq; replace hq := congrArg Prod.snd hq; dsimp only at hq; subst hq)
    | (rename_i hq; injection hq with hq; subst hq)

theorem joinTimeout_frame {m : Nat} {r u : State} {x0} (h : Frame m r u) (hm : m &&& 83562892757006 = 83562892757006) : Frame m r (joinTimeout x0 u) := by
  unfold joinTimeout
  try dsimp only
  repeat' first
    | with_reducible assumption
    | intro _
    | exact land_trans hm rfl
    | exact testBit_of_land hm (by decide)
    | with_reducible apply toListening_frame
    | with_reducible apply dropTn_frame
    | with_reducible apply supEvent_frame
    | with_reducible apply ite_frame
    | (split <;> try (rename_i hq; replace hq := congrArg Prod.snd hq; dsimp only at hq; subst hq))
    | (rename_i hq; replace hq := congrArg Prod.snd hq; dsimp only at hq; subst hq)
    | (rename_i hq; injection hq with hq; subst hq)

theorem resumeTimeout_frame {m : Nat} {r u : State} {x0} (h : Frame m r u) (hm : m &&& 83562892758030 = 83562892758030) : Frame m r (resumeTimeout x0 u) := by
  unfold resumeTimeout
  try dsimp only
  repeat' first
    | with_reducible assumption
    | intro _
    | exact land_trans hm rfl
    | exact testBit_of_land hm (by decide)
    | with_reducible apply joinLost_frame
    | with_reducible apply ite_frame
    | (split <;> try (rename_i hq; replace hq := congrArg Prod.snd hq; dsimp only at hq; subst hq))
    | (rename_i hq; replace hq := congrArg Prod.snd hq; dsimp only at hq; subst hq)
    | (rename_i hq; injection hq with hq; subst hq)

theorem lineLost_frame {m : Nat} {r u : State} (h : Frame m r u) (hm : m &&& 70368752568328 = 70368752568328) : Frame m r (lineLost u) := by
  unfold lineLost
  try dsimp only
  repeat' first
    | with_reducible assumption
    | intro _
    | exact land_trans hm rfl
    | exact testBit_of_land hm (by decide)
    | with_reducible apply each_frame
    | with_reducible apply toListening_frame
    | with_reducible apply changeState_frame
    | with_reducible apply ite_frame
    | (split <;> try (rename_i hq; replace hq := congrArg Prod.snd hq; dsimp only at hq; subst hq))
    | (rename_i hq; replace hq := congrArg Prod.snd hq; dsimp only at hq; subst hq)
    | (rename_i hq; injection hq with hq; subst hq)

theorem noteLineLost_frame {m : Nat} {r u : State} {x0 x1} (h : Frame m r u) (hm : m &&& 70368752568328 = 70368752568328) : Frame m r (noteLineLost x0 x1 u) := by
  unfold noteLineLost
  try dsimp only
  repeat' first
    | with_reducible assumption
    | intro _
    | exact land_trans hm rfl
    | exact testBit_of_land hm (by decide)
    | with_reducible apply lineLost_frame
    | with_reducible apply ite_frame
    | (split <;> try (rename_i hq; replace hq := congrArg Prod.snd hq; dsimp only at hq; subst hq))
    | (rename_i hq; replace hq := congrArg Prod.snd hq; dsimp only at hq; subst hq)
    | (rename_i hq; injection hq with hq; subst hq)

theorem lineFound_frame {m : Nat} {r u : State} {x0 x1} (h : Frame m r u) (hm : m &&& 83562892758030 = 83562892758030) : Frame m r (lineFound x0 x1 u) := by
  unfold lineFound
  try dsimp only
  repeat' first
    | with_reducible assumption
    | intro _
    | exact land_trans hm rfl
    | exact testBit_of_land hm (by decide)
    | with_reducible apply each_frame
    | with_reducible apply setIdent_frame
    | with_reducible apply joinLost_frame
    | with_reducible apply ite_frame
    | (split <;> try (rename_i hq; replace hq := congrArg Prod.snd hq; dsimp only at hq; subst hq))
    | (rename_i hq; replace hq := congrArg Prod.snd hq; dsimp only at hq; subst hq)
    | (rename_i hq; injection hq with hq; subst hq)

theorem startIdent_frame {m : Nat} {r u : State} {x0 x1 x2} (h : Frame m r u) (hm : m &&& 70368752568328 = 70368752568328) : Frame m r (startIdent x0 x1 x2 u) := by
  unfold startIdent
  try dsimp only
  repeat' first
    | with_reducible assumption
    | intro _
    | exact land_trans hm rfl
    | exact testBit_of_land hm (by decide)
    | with_reducible apply changeState_frame
    | with_reducible apply setIdent_frame
    | with_reducible apply toListening_frame
    | with_reducible apply ite_frame
    | (split <;> try (rename_i hq; replace hq := congrArg Prod.snd hq; dsimp only at hq; subst hq))
    | (rename_i hq; replace hq := congrArg Prod.snd hq; dsimp only at hq; subst hq)
    | (rename_i hq; injection hq with hq; subst hq)

theorem startIdents_frame {m : Nat} {r u : State} (h : Frame m r u) (hm : m &&& 70368752568328 = 70368752568328) : Frame m r (startIdents u) := by
  unfold startIdents
  try dsimp only
  repeat' first
    | with_reducible assumption
    | intro _
    | exact land_trans hm rfl
    | exact testBit_of_land hm (by decide)
    | with_reducible apply each_frame
    | with_reducible apply startIdent_frame
    | with_reducible apply ite_frame
    | (split <;> try (rename_i hq; replace hq := congrArg Prod.snd hq; dsimp only at hq; subst hq))
    | (rename_i hq; replace hq := congrArg Prod.snd hq; dsimp only at hq; subst hq)
    | (rename_i hq; injection hq with hq; subst hq)
    | (with_reducible refine Frame.lit ?_ rfl; first | with_reducible assumption | with_reducible apply each_frame | with_reducible apply startIdent_frame| split)

theorem idCfgWritten_frame {m : Nat} {r u : State} {x0} (h : Frame m r u) (hm : m &&& 70368752568328 = 70368752568328) : Frame m r (idCfgWritten x0 u) := by
  unfold idCfgWritten
  try dsimp only
  repeat' first
    | with_reducible assumption
    | intro _
    | exact land_trans hm rfl
    | exact testBit_of_land hm (by decide)
    | with_reducible apply toListening_frame
    | with_reducible apply ite_frame
    | (split <;> try (rename_i hq; replace hq := congrArg Prod.snd hq; dsimp only at hq; subst hq))
    | (rename_i hq; replace hq := congrArg Prod.snd hq; dsimp only at hq; subst hq)
    | (rename_i hq; injection hq with hq; subst hq)

theorem actLmm_frame {m : Nat} {r u : State} {x0} (h : Frame m r u) (hm : m &&& 83562976644622 = 83562976644622) : Frame m r (actLmm x0 u) := by
  unfold actLmm
  try dsimp only
  repeat' first
    | with_reducible assumption
    | intro _
    | exact land_trans hm rfl
    | exact testBit_of_land hm (by decide)
    | with_reducible apply count_frame
    | with_reducible apply assignTn_frame
    | with_reducible apply rangingTime_frame
    | with_reducible apply allocAssign_frame
    | with_reducible apply deactivate_frame
    | with_reducible apply expel_frame
    | with_reducible apply hold_frame
    | with_reducible apply keyEpoch_frame
    | with_reducible apply burstProfile_frame
    | with_reducible apply dozeGrant_frame
    | with_reducible apply echoRequest_frame
    | with_reducible apply resumeAck_frame
    | with_reducible apply timeOfDay_frame
    | with_reducible apply ite_frame
    | (split <;> try (rename_i hq; replace hq := congrArg Prod.snd hq; dsimp only at hq; subst hq))
    | (rename_i hq; replace hq := congrArg Prod.snd hq; dsimp only at hq; subst hq)
    | (rename_i hq; injection hq with hq; subst hq)

theorem actLmms_frame {m : Nat} {r u : State} (h : Frame m r u) (hm : m &&& 83562976644622 = 83562976644622) : Frame m r (actLmms u) := by
  unfold actLmms
  try dsimp only
  repeat' first
    | with_reducible assumption
    | intro _
    | exact land_trans hm rfl
    | exact testBit_of_land hm (by decide)
    | with_reducible apply each_frame
    | with_reducible apply actLmm_frame
    | with_reducible apply ite_frame
    | (split <;> try (rename_i hq; replace hq := congrArg Prod.snd hq; dsimp only at hq; subst hq))
    | (rename_i hq; replace hq := congrArg Prod.snd hq; dsimp only at hq; subst hq)
    | (rename_i hq; injection hq with hq; subst hq)
    | (with_reducible refine Frame.lit ?_ rfl; first | with_reducible assumption | with_reducible apply each_frame | with_reducible apply actLmm_frame| split)

end Sys2Proof.Machine
end

