-- ==== Sys2Proof/Laws/FramePlan.lean ====
section
/-! SUPPORT. The frames of the operations of Machine/Plan.lean: each changes nothing outside its mask (see Laws/Frame.lean). -/
set_option Elab.async false
set_option linter.all false

namespace Sys2Proof.Machine

theorem grantMissed_frame {m : Nat} {r u : State} (h : Frame m r u) (hm : m &&& 8 = 8) : Frame m r (grantMissed u) := by
  unfold grantMissed
  try dsimp only
  repeat' first
    | with_reducible assumption
    | intro _
    | exact land_trans hm rfl
    | exact testBit_of_land hm (by decide)
    | with_reducible apply count_frame
    | with_reducible apply ite_frame
    | (split <;> try (rename_i hq; replace hq := congrArg Prod.snd hq; dsimp only at hq; subst hq))
    | (rename_i hq; replace hq := congrArg Prod.snd hq; dsimp only at hq; subst hq)
    | (rename_i hq; injection hq with hq; subst hq)

theorem putBursts_frame {m : Nat} {r u : State} {x0} (h : Frame m r u) (hm : m &&& 8388608 = 8388608) : Frame m r (putBursts x0 u) := by
  unfold putBursts
  try dsimp only
  repeat' first
    | with_reducible assumption
    | intro _
    | exact land_trans hm rfl
    | exact testBit_of_land hm (by decide)
    | with_reducible apply ite_frame
    | (split <;> try (rename_i hq; replace hq := congrArg Prod.snd hq; dsimp only at hq; subst hq))
    | (rename_i hq; replace hq := congrArg Prod.snd hq; dsimp only at hq; subst hq)
    | (rename_i hq; injection hq with hq; subst hq)
    | (with_reducible refine Frame.lit ?_ rfl; first | with_reducible assumption | split)

theorem noteHome_frame {m : Nat} {r u : State} {x0 x1 x2} (h : Frame m r u) (hm : m &&& 8388608 = 8388608) : Frame m r (noteHome x0 x1 x2 u) := by
  unfold noteHome
  try dsimp only
  repeat' first
    | with_reducible assumption
    | intro _
    | exact land_trans hm rfl
    | exact testBit_of_land hm (by decide)
    | with_reducible apply modIdent_frame
    | with_reducible apply ite_frame
    | (split <;> try (rename_i hq; replace hq := congrArg Prod.snd hq; dsimp only at hq; subst hq))
    | (rename_i hq; replace hq := congrArg Prod.snd hq; dsimp only at hq; subst hq)
    | (rename_i hq; injection hq with hq; subst hq)

theorem openBurst_frame {m : Nat} {r u : State} {x0 x1 x2 x3 x4 x5} (h : Frame m r u) (hm : m &&& 8388618 = 8388618) : Frame m r (openBurst x0 x1 x2 x3 x4 x5 u).2 := by
  unfold openBurst
  try dsimp only
  repeat' first
    | with_reducible assumption
    | intro _
    | exact land_trans hm rfl
    | exact testBit_of_land hm (by decide)
    | with_reducible apply when'_frame
    | with_reducible apply nextFree_frame
    | with_reducible apply count_frame
    | with_reducible apply noteHome_frame
    | with_reducible apply putBursts_frame
    | with_reducible apply grantMissed_frame
    | with_reducible apply ite_frame
    | (split <;> try (rename_i hq; replace hq := congrArg Prod.snd hq; dsimp only at hq; subst hq))
    | (rename_i hq; replace hq := congrArg Prod.snd hq; dsimp only at hq; subst hq)
    | (rename_i hq; injection hq with hq; subst hq)

theorem continueBurst_frame {m : Nat} {r u : State} {x0 x1 x2 x3} (h : Frame m r u) (hm : m &&& 8388616 = 8388616) : Frame m r (continueBurst x0 x1 x2 x3 u).2 := by
  unfold continueBurst
  try dsimp only
  repeat' first
    | with_reducible assumption
    | intro _
    | exact land_trans hm rfl
    | exact testBit_of_land hm (by decide)
    | with_reducible apply each_frame
    | with_reducible apply count_frame
    | with_reducible apply grantMissed_frame
    | with_reducible apply putBursts_frame
    | with_reducible apply noteHome_frame
    | with_reducible apply ite_frame
    | (split <;> try (rename_i hq; replace hq := congrArg Prod.snd hq; dsimp only at hq; subst hq))
    | (rename_i hq; replace hq := congrArg Prod.snd hq; dsimp only at hq; subst hq)
    | (rename_i hq; injection hq with hq; subst hq)

theorem applyRecords_frame {m : Nat} {r u : State} {x0 x1 x2 x3 x4} (h : Frame m r u) (hm : m &&& 8388618 = 8388618) : Frame m r (applyRecords x0 x1 x2 x3 x4 u) := by
  induction x3 generalizing x4 u with
  | nil =>
    unfold applyRecords
    try dsimp only
    repeat' first
      | with_reducible assumption
      | intro _
      | exact land_trans hm rfl
      | exact testBit_of_land hm (by decide)
      | with_reducible apply grantMissed_frame
      | with_reducible apply continueBurst_frame
      | with_reducible apply openBurst_frame
      | with_reducible apply ite_frame
      | (split <;> try (rename_i hq; replace hq := congrArg Prod.snd hq; dsimp only at hq; subst hq))
      | (rename_i hq; replace hq := congrArg Prod.snd hq; dsimp only at hq; subst hq)
      | (rename_i hq; injection hq with hq; subst hq)
      | (with_reducible refine Frame.lit ?_ rfl; first | with_reducible assumption | with_reducible apply grantMissed_frame | with_reducible apply continueBurst_frame | with_reducible apply openBurst_frame| split)
  | cons y l ih =>
  cases y with
  | none =>
    unfold applyRecords
    try dsimp only
    repeat' first
      | with_reducible assumption
      | intro _
      | exact land_trans hm rfl
      | exact testBit_of_land hm (by decide)
      | with_reducible apply grantMissed_frame
      | with_reducible apply continueBurst_frame
      | with_reducible apply openBurst_frame
      | with_reducible apply ih
      | with_reducible apply ite_frame
      | (split <;> try (rename_i hq; replace hq := congrArg Prod.snd hq; dsimp only at hq; subst hq))
      | (rename_i hq; replace hq := congrArg Prod.snd hq; dsimp only at hq; subst hq)
      | (rename_i hq; injection hq with hq; subst hq)
      | (with_reducible refine Frame.lit ?_ rfl; first | with_reducible assumption | with_reducible apply grantMissed_frame | with_reducible apply continueBurst_frame | with_reducible apply openBurst_frame | with_reducible apply ih| split)
  | some y =>
    unfold applyRecords
    try dsimp only
    repeat' first
      | with_reducible assumption
      | intro _
      | exact land_trans hm rfl
      | exact testBit_of_land hm (by decide)
      | with_reducible apply grantMissed_frame
      | with_reducible apply continueBurst_frame
      | with_reducible apply openBurst_frame
      | with_reducible apply ih
      | with_reducible apply ite_frame
      | (split <;> try (rename_i hq; replace hq := congrArg Prod.snd hq; dsimp only at hq; subst hq))
      | (rename_i hq; replace hq := congrArg Prod.snd hq; dsimp only at hq; subst hq)
      | (rename_i hq; injection hq with hq; subst hq)
      | (with_reducible refine Frame.lit ?_ rfl; first | with_reducible assumption | with_reducible apply grantMissed_frame | with_reducible apply continueBurst_frame | with_reducible apply openBurst_frame | with_reducible apply ih| split)

theorem ksSwitch_frame {m : Nat} {r u : State} {x0 x1} (h : Frame m r u) (hm : m &&& 70368760957960 = 70368760957960) : Frame m r (ksSwitch x0 x1 u) := by
  unfold ksSwitch
  try dsimp only
  repeat' first
    | with_reducible assumption
    | intro _
    | exact land_trans hm rfl
    | exact testBit_of_land hm (by decide)
    | with_reducible apply adoptPending_frame
    | with_reducible apply count_frame
    | with_reducible apply ite_frame
    | (split <;> try (rename_i hq; replace hq := congrArg Prod.snd hq; dsimp only at hq; subst hq))
    | (rename_i hq; replace hq := congrArg Prod.snd hq; dsimp only at hq; subst hq)
    | (rename_i hq; injection hq with hq; subst hq)

theorem ksSwitches_frame {m : Nat} {r u : State} {x0} (h : Frame m r u) (hm : m &&& 70368760957960 = 70368760957960) : Frame m r (ksSwitches x0 u) := by
  unfold ksSwitches
  try dsimp only
  repeat' first
    | with_reducible assumption
    | intro _
    | exact land_trans hm rfl
    | exact testBit_of_land hm (by decide)
    | with_reducible apply each_frame
    | with_reducible apply ksSwitch_frame
    | with_reducible apply ite_frame
    | (split <;> try (rename_i hq; replace hq := congrArg Prod.snd hq; dsimp only at hq; subst hq))
    | (rename_i hq; replace hq := congrArg Prod.snd hq; dsimp only at hq; subst hq)
    | (rename_i hq; injection hq with hq; subst hq)

theorem shiftApply_frame {m : Nat} {r u : State} {x0 x1} (h : Frame m r u) (hm : m &&& 70368769412106 = 70368769412106) : Frame m r (shiftApply x0 x1 u) := by
  unfold shiftApply
  try dsimp only
  repeat' first
    | with_reducible assumption
    | intro _
    | exact land_trans hm rfl
    | exact testBit_of_land hm (by decide)
    | with_reducible apply each_frame
    | with_reducible apply setSeam_frame
    | with_reducible apply countN_frame
    | with_reducible apply applyRecords_frame
    | with_reducible apply putBursts_frame
    | with_reducible apply ksSwitches_frame
    | with_reducible apply settleEqd_frame
    | with_reducible apply ite_frame
    | (split <;> try (rename_i hq; replace hq := congrArg Prod.snd hq; dsimp only at hq; subst hq))
    | (rename_i hq; replace hq := congrArg Prod.snd hq; dsimp only at hq; subst hq)
    | (rename_i hq; injection hq with hq; subst hq)

theorem shiftApplyAll_frame {m : Nat} {r u : State} {x0} (h : Frame m r u) (hm : m &&& 70368769412106 = 70368769412106) : Frame m r (shiftApplyAll x0 u) := by
  unfold shiftApplyAll
  try dsimp only
  repeat' first
    | with_reducible assumption
    | intro _
    | exact land_trans hm rfl
    | exact testBit_of_land hm (by decide)
    | with_reducible apply each_frame
    | with_reducible apply shiftApply_frame
    | with_reducible apply ite_frame
    | (split <;> try (rename_i hq; replace hq := congrArg Prod.snd hq; dsimp only at hq; subst hq))
    | (rename_i hq; replace hq := congrArg Prod.snd hq; dsimp only at hq; subst hq)
    | (rename_i hq; injection hq with hq; subst hq)
    | (with_reducible refine Frame.lit ?_ rfl; first | with_reducible assumption | with_reducible apply each_frame | with_reducible apply shiftApply_frame| split)

theorem idleFill_frame {m : Nat} {r u : State} {x0 x1} (h : Frame m r u) (hm : m &&& 2 = 2) : Frame m r (idleFill x0 x1 u).2 := by
  induction x0 generalizing x1 u with
  | zero =>
    unfold idleFill
    try dsimp only
    repeat' first
      | with_reducible assumption
      | intro _
      | exact land_trans hm rfl
      | exact testBit_of_land hm (by decide)
      | with_reducible apply nextFree_frame
      | with_reducible apply ite_frame
      | (split <;> try (rename_i hq; replace hq := congrArg Prod.snd hq; dsimp only at hq; subst hq))
      | (rename_i hq; replace hq := congrArg Prod.snd hq; dsimp only at hq; subst hq)
      | (rename_i hq; injection hq with hq; subst hq)
  | succ n ih =>
    unfold idleFill
    try dsimp only
    repeat' first
      | with_reducible assumption
      | intro _
      | exact land_trans hm rfl
      | exact testBit_of_land hm (by decide)
      | with_reducible apply nextFree_frame
      | with_reducible apply ih
      | with_reducible apply ite_frame
      | (split <;> try (rename_i hq; replace hq := congrArg Prod.snd hq; dsimp only at hq; subst hq))
      | (rename_i hq; replace hq := congrArg Prod.snd hq; dsimp only at hq; subst hq)
      | (rename_i hq; injection hq with hq; subst hq)

theorem sendMsgs_frame {m : Nat} {r u : State} {x0 x1 x2 x3 x4 x5} (h : Frame m r u) (hm : m &&& 8388608 = 8388608) : Frame m r (sendMsgs x0 x1 x2 x3 x4 x5 u).2 := by
  induction x4 generalizing x5 u with
  | zero =>
    unfold sendMsgs
    try dsimp only
    repeat' first
      | with_reducible assumption
      | intro _
      | exact land_trans hm rfl
      | exact testBit_of_land hm (by decide)
      | with_reducible apply setIdent_frame
      | with_reducible apply ite_frame
      | (split <;> try (rename_i hq; replace hq := congrArg Prod.snd hq; dsimp only at hq; subst hq))
      | (rename_i hq; replace hq := congrArg Prod.snd hq; dsimp only at hq; subst hq)
      | (rename_i hq; injection hq with hq; subst hq)
  | succ n ih =>
    unfold sendMsgs
    try dsimp only
    repeat' first
      | with_reducible assumption
      | intro _
      | exact land_trans hm rfl
      | exact testBit_of_land hm (by decide)
      | with_reducible apply setIdent_frame
      | with_reducible apply ih
      | with_reducible apply ite_frame
      | (split <;> try (rename_i hq; replace hq := congrArg Prod.snd hq; dsimp only at hq; subst hq))
      | (rename_i hq; replace hq := congrArg Prod.snd hq; dsimp only at hq; subst hq)
      | (rename_i hq; injection hq with hq; subst hq)

theorem sendPiece_frame {m : Nat} {r u : State} {x0 x1 x2 x3} (h : Frame m r u) (hm : m &&& 8912896 = 8912896) : Frame m r (sendPiece x0 x1 x2 x3 u).2 := by
  unfold sendPiece
  try dsimp only
  repeat' first
    | with_reducible assumption
    | intro _
    | exact land_trans hm rfl
    | exact testBit_of_land hm (by decide)
    | with_reducible apply when'_frame
    | with_reducible apply setIdent_frame
    | with_reducible apply noteStrict_frame
    | with_reducible apply setAllocQ_frame
    | with_reducible apply ite_frame
    | (split <;> try (rename_i hq; replace hq := congrArg Prod.snd hq; dsimp only at hq; subst hq))
    | (rename_i hq; replace hq := congrArg Prod.snd hq; dsimp only at hq; subst hq)
    | (rename_i hq; injection hq with hq; subst hq)

theorem sendData_frame {m : Nat} {r u : State} {x0 x1 x2 x3} (h : Frame m r u) (hm : m &&& 83562909535246 = 83562909535246) : Frame m r (sendData x0 x1 x2 x3 u).2.2 := by
  induction x2 generalizing x1 x3 u with
  | zero =>
    unfold sendData
    try dsimp only
    repeat' first
      | with_reducible assumption
      | intro _
      | exact land_trans hm rfl
      | exact testBit_of_land hm (by decide)
      | with_reducible apply sendPiece_frame
      | with_reducible apply protectFrame_frame
      | with_reducible apply freeFrame_frame
      | with_reducible apply setAllocQ_frame
      | with_reducible apply ite_frame
      | (split <;> try (rename_i hq; replace hq := congrArg Prod.snd hq; dsimp only at hq; subst hq))
      | (rename_i hq; replace hq := congrArg Prod.snd hq; dsimp only at hq; subst hq)
      | (rename_i hq; injection hq with hq; subst hq)
  | succ n ih =>
    unfold sendData
    try dsimp only
    repeat' first
      | with_reducible assumption
      | intro _
      | exact land_trans hm rfl
      | exact testBit_of_land hm (by decide)
      | with_reducible apply sendPiece_frame
      | with_reducible apply protectFrame_frame
      | with_reducible apply freeFrame_frame
      | with_reducible apply setAllocQ_frame
      | with_reducible apply ih
      | with_reducible apply ite_frame
      | (split <;> try (rename_i hq; replace hq := congrArg Prod.snd hq; dsimp only at hq; subst hq))
      | (rename_i hq; replace hq := congrArg Prod.snd hq; dsimp only at hq; subst hq)
      | (rename_i hq; injection hq with hq; subst hq)

theorem keySwitch_frame {m : Nat} {r u : State} {x0 x1} (h : Frame m r u) (hm : m &&& 70368760957960 = 70368760957960) : Frame m r (keySwitch x0 x1 u).2 := by
  unfold keySwitch
  try dsimp only
  repeat' first
    | with_reducible assumption
    | intro _
    | exact land_trans hm rfl
    | exact testBit_of_land hm (by decide)
    | with_reducible apply adoptPending_frame
    | with_reducible apply count_frame
    | with_reducible apply ite_frame
    | (split <;> try (rename_i hq; replace hq := congrArg Prod.snd hq; dsimp only at hq; subst hq))
    | (rename_i hq; replace hq := congrArg Prod.snd hq; dsimp only at hq; subst hq)
    | (rename_i hq; injection hq with hq; subst hq)

theorem serveRecord_frame {m : Nat} {r u : State} {x0 x1 x2 x3} (h : Frame m r u) (hm : m &&& 83563043752974 = 83563043752974) : Frame m r (serveRecord x0 x1 x2 x3 u).2 := by
  unfold serveRecord
  try dsimp only
  repeat' first
    | with_reducible assumption
    | intro _
    | exact land_trans hm rfl
    | exact testBit_of_land hm (by decide)
    | with_reducible apply when'_frame
    | with_reducible apply keySwitch_frame
    | with_reducible apply count_frame
    | with_reducible apply sendMsgs_frame
    | with_reducible apply takeContainers_frame
    | with_reducible apply sendData_frame
    | with_reducible apply ite_frame
    | (split <;> try (rename_i hq; replace hq := congrArg Prod.snd hq; dsimp only at hq; subst hq))
    | (rename_i hq; replace hq := congrArg Prod.snd hq; dsimp only at hq; subst hq)
    | (rename_i hq; injection hq with hq; subst hq)

theorem keepContent_frame {m : Nat} {r u : State} {x0 x1 x2} (h : Frame m r u) (hm : m &&& 8388608 = 8388608) : Frame m r (keepContent x0 x1 x2 u) := by
  unfold keepContent
  try dsimp only
  repeat' first
    | with_reducible assumption
    | intro _
    | exact land_trans hm rfl
    | exact testBit_of_land hm (by decide)
    | with_reducible apply putBursts_frame
    | with_reducible apply ite_frame
    | (split <;> try (rename_i hq; replace hq := congrArg Prod.snd hq; dsimp only at hq; subst hq))
    | (rename_i hq; replace hq := congrArg Prod.snd hq; dsimp only at hq; subst hq)
    | (rename_i hq; injection hq with hq; subst hq)

theorem serveInTurn_frame {m : Nat} {r u : State} {x0 x1 x2} (h : Frame m r u) (hm : m &&& 83563043752974 = 83563043752974) : Frame m r (serveInTurn x0 x1 x2 u) := by
  unfold serveInTurn
  try dsimp only
  repeat' first
    | with_reducible assumption
    | intro _
    | exact land_trans hm rfl
    | exact testBit_of_land hm (by decide)
    | with_reducible apply keepContent_frame
    | with_reducible apply ksSwitch_frame
    | with_reducible apply serveRecord_frame
    | with_reducible apply ite_frame
    | (split <;> try (rename_i hq; replace hq := congrArg Prod.snd hq; dsimp only at hq; subst hq))
    | (rename_i hq; replace hq := congrArg Prod.snd hq; dsimp only at hq; subst hq)
    | (rename_i hq; injection hq with hq; subst hq)

theorem serveBefore_frame {m : Nat} {r u : State} {x0 x1 x2} (h : Frame m r u) (hm : m &&& 83563043752974 = 83563043752974) : Frame m r (serveBefore x0 x1 x2 u) := by
  induction x2 generalizing  u with
  | zero =>
    unfold serveBefore
    try dsimp only
    repeat' first
      | with_reducible assumption
      | intro _
      | exact land_trans hm rfl
      | exact testBit_of_land hm (by decide)
      | with_reducible apply serveInTurn_frame
      | with_reducible apply ite_frame
      | (split <;> try (rename_i hq; replace hq := congrArg Prod.snd hq; dsimp only at hq; subst hq))
      | (rename_i hq; replace hq := congrArg Prod.snd hq; dsimp only at hq; subst hq)
      | (rename_i hq; injection hq with hq; subst hq)
  | succ n ih =>
    unfold serveBefore
    try dsimp only
    repeat' first
      | with_reducible assumption
      | intro _
      | exact land_trans hm rfl
      | exact testBit_of_land hm (by decide)
      | with_reducible apply serveInTurn_frame
      | with_reducible apply ih
      | with_reducible apply ite_frame
      | (split <;> try (rename_i hq; replace hq := congrArg Prod.snd hq; dsimp only at hq; subst hq))
      | (rename_i hq; replace hq := congrArg Prod.snd hq; dsimp only at hq; subst hq)
      | (rename_i hq; injection hq with hq; subst hq)

theorem recordContent_frame {m : Nat} {r u : State} {x0 x1 x2} (h : Frame m r u) (hm : m &&& 83563043752974 = 83563043752974) : Frame m r (recordContent x0 x1 x2 u).2 := by
  unfold recordContent
  try dsimp only
  repeat' first
    | with_reducible assumption
    | intro _
    | exact land_trans hm rfl
    | exact testBit_of_land hm (by decide)
    | with_reducible apply serveRecord_frame
    | with_reducible apply serveBefore_frame
    | with_reducible apply ite_frame
    | (split <;> try (rename_i hq; replace hq := congrArg Prod.snd hq; dsimp only at hq; subst hq))
    | (rename_i hq; replace hq := congrArg Prod.snd hq; dsimp only at hq; subst hq)
    | (rename_i hq; injection hq with hq; subst hq)

theorem recordMessage_frame {m : Nat} {r u : State} {x0 x1 x2 x3} (h : Frame m r u) (hm : m &&& 83563043752974 = 83563043752974) : Frame m r (recordMessage x0 x1 x2 x3 u).2 := by
  unfold recordMessage
  try dsimp only
  repeat' first
    | with_reducible assumption
    | intro _
    | exact land_trans hm rfl
    | exact testBit_of_land hm (by decide)
    | with_reducible apply recordContent_frame
    | with_reducible apply idleFill_frame
    | with_reducible apply ite_frame
    | (split <;> try (rename_i hq; replace hq := congrArg Prod.snd hq; dsimp only at hq; subst hq))
    | (rename_i hq; replace hq := congrArg Prod.snd hq; dsimp only at hq; subst hq)
    | (rename_i hq; injection hq with hq; subst hq)

theorem burstMessage_frame {m : Nat} {r u : State} {x0 x1 x2} (h : Frame m r u) (hm : m &&& 83563043752974 = 83563043752974) : Frame m r (burstMessage x0 x1 x2 u).2 := by
  induction x2 generalizing  u with
  | nil =>
    unfold burstMessage
    try dsimp only
    repeat' first
      | with_reducible assumption
      | intro _
      | exact land_trans hm rfl
      | exact testBit_of_land hm (by decide)
      | with_reducible apply recordMessage_frame
      | with_reducible apply ite_frame
      | (split <;> try (rename_i hq; replace hq := congrArg Prod.snd hq; dsimp only at hq; subst hq))
      | (rename_i hq; replace hq := congrArg Prod.snd hq; dsimp only at hq; subst hq)
      | (rename_i hq; injection hq with hq; subst hq)
  | cons y l ih =>
    unfold burstMessage
    try dsimp only
    repeat' first
      | with_reducible assumption
      | intro _
      | exact land_trans hm rfl
      | exact testBit_of_land hm (by decide)
      | with_reducible apply recordMessage_frame
      | with_reducible apply ih
      | with_reducible apply ite_frame
      | (split <;> try (rename_i hq; replace hq := congrArg Prod.snd hq; dsimp only at hq; subst hq))
      | (rename_i hq; replace hq := congrArg Prod.snd hq; dsimp only at hq; subst hq)
      | (rename_i hq; injection hq with hq; subst hq)

theorem markLeft_frame {m : Nat} {r u : State} {x0} (h : Frame m r u) (hm : m &&& 8388608 = 8388608) : Frame m r (markLeft x0 u) := by
  unfold markLeft
  try dsimp only
  repeat' first
    | with_reducible assumption
    | intro _
    | exact land_trans hm rfl
    | exact testBit_of_land hm (by decide)
    | with_reducible apply putBursts_frame
    | with_reducible apply ite_frame
    | (split <;> try (rename_i hq; replace hq := congrArg Prod.snd hq; dsimp only at hq; subst hq))
    | (rename_i hq; replace hq := congrArg Prod.snd hq; dsimp only at hq; subst hq)
    | (rename_i hq; injection hq with hq; subst hq)

theorem sendBurst_frame {m : Nat} {r u : State} {x0 x1 x2} (h : Frame m r u) (hm : m &&& 8388612 = 8388612) : Frame m r (sendBurst x0 x1 x2 u) := by
  unfold sendBurst
  try dsimp only
  repeat' first
    | with_reducible assumption
    | intro _
    | exact land_trans hm rfl
    | exact testBit_of_land hm (by decide)
    | with_reducible apply emit_frame
    | with_reducible apply markLeft_frame
    | with_reducible apply ite_frame
    | (split <;> try (rename_i hq; replace hq := congrArg Prod.snd hq; dsimp only at hq; subst hq))
    | (rename_i hq; replace hq := congrArg Prod.snd hq; dsimp only at hq; subst hq)
    | (rename_i hq; injection hq with hq; subst hq)

theorem markSent_frame {m : Nat} {r u : State} {x0} (h : Frame m r u) (hm : m &&& 8388608 = 8388608) : Frame m r (markSent x0 u) := by
  unfold markSent
  try dsimp only
  repeat' first
    | with_reducible assumption
    | intro _
    | exact land_trans hm rfl
    | exact testBit_of_land hm (by decide)
    | with_reducible apply putBursts_frame
    | with_reducible apply ite_frame
    | (split <;> try (rename_i hq; replace hq := congrArg Prod.snd hq; dsimp only at hq; subst hq))
    | (rename_i hq; replace hq := congrArg Prod.snd hq; dsimp only at hq; subst hq)
    | (rename_i hq; injection hq with hq; subst hq)

theorem upstreamBurst_frame {m : Nat} {r u : State} {x0} (h : Frame m r u) (hm : m &&& 83563043752974 = 83563043752974) : Frame m r (upstreamBurst x0 u) := by
  unfold upstreamBurst
  try dsimp only
  repeat' first
    | with_reducible assumption
    | intro _
    | exact land_trans hm rfl
    | exact testBit_of_land hm (by decide)
    | with_reducible apply each_frame
    | with_reducible apply markSent_frame
    | with_reducible apply ksSwitches_frame
    | with_reducible apply grantMissed_frame
    | with_reducible apply burstMessage_frame
    | with_reducible apply modIdent_frame
    | with_reducible apply sendBurst_frame
    | with_reducible apply ite_frame
    | (split <;> try (rename_i hq; replace hq := congrArg Prod.snd hq; dsimp only at hq; subst hq))
    | (rename_i hq; replace hq := congrArg Prod.snd hq; dsimp only at hq; subst hq)
    | (rename_i hq; injection hq with hq; subst hq)

theorem sendLone_frame {m : Nat} {r u : State} {x0 x1 x2} (h : Frame m r u) (hm : m &&& 8388614 = 8388614) : Frame m r (sendLone x0 x1 x2 u) := by
  unfold sendLone
  try dsimp only
  repeat' first
    | with_reducible assumption
    | intro _
    | exact land_trans hm rfl
    | exact testBit_of_land hm (by decide)
    | with_reducible apply idleFill_frame
    | with_reducible apply sendBurst_frame
    | with_reducible apply ite_frame
    | (split <;> try (rename_i hq; replace hq := congrArg Prod.snd hq; dsimp only at hq; subst hq))
    | (rename_i hq; replace hq := congrArg Prod.snd hq; dsimp only at hq; subst hq)
    | (rename_i hq; injection hq with hq; subst hq)

theorem drawBackoff_frame {m : Nat} {r u : State} {x0} (h : Frame m r u) (hm : m &&& 8388610 = 8388610) : Frame m r (drawBackoff x0 u) := by
  unfold drawBackoff
  try dsimp only
  repeat' first
    | with_reducible assumption
    | intro _
    | exact land_trans hm rfl
    | exact testBit_of_land hm (by decide)
    | with_reducible apply nextFree_frame
    | with_reducible apply modIdent_frame
    | with_reducible apply ite_frame
    | (split <;> try (rename_i hq; replace hq := congrArg Prod.snd hq; dsimp only at hq; subst hq))
    | (rename_i hq; replace hq := congrArg Prod.snd hq; dsimp only at hq; subst hq)
    | (rename_i hq; injection hq with hq; subst hq)

theorem takePart_frame {m : Nat} {r u : State} {x0} (h : Frame m r u) (hm : m &&& 70368752568328 = 70368752568328) : Frame m r (takePart x0 u).2 := by
  unfold takePart
  try dsimp only
  repeat' first
    | with_reducible assumption
    | intro _
    | exact land_trans hm rfl
    | exact testBit_of_land hm (by decide)
    | with_reducible apply each_frame
    | with_reducible apply changeState_frame
    | with_reducible apply modIdent_frame
    | with_reducible apply ite_frame
    | (split <;> try (rename_i hq; replace hq := congrArg Prod.snd hq; dsimp only at hq; subst hq))
    | (rename_i hq; replace hq := congrArg Prod.snd hq; dsimp only at hq; subst hq)
    | (rename_i hq; injection hq with hq; subst hq)

theorem announce_frame {m : Nat} {r u : State} {x0} (h : Frame m r u) (hm : m &&& 70368752568334 = 70368752568334) : Frame m r (announce x0 u) := by
  unfold announce
  split
  · exact h
  · rename_i b _
    split
    · exact markSent_frame h (land_trans hm rfl)
    · dsimp only
      have g : ∀ fc, Frame m r (takePart fc (markSent b u)).2 :=
        fun fc => takePart_frame (markSent_frame h (land_trans hm rfl)) (land_trans hm rfl)
      split
      · exact g _
      · split
        · exact sendLone_frame (g _) (land_trans hm rfl)
        · have k : ∀ w, Frame m r w → Frame m r { w with join := { w.join with announceSeq := (w.join.announceSeq + 1) % 256 } } :=
            fun w q => Frame.lit q rfl
          exact each_frame (sendLone_frame (k _ (g _)) (land_trans hm rfl)) (fun _ _ k => drawBackoff_frame k (land_trans hm rfl))


theorem rangingReply_frame {m : Nat} {r u : State} {x0} (h : Frame m r u) (hm : m &&& 70368769346574 = 70368769346574) : Frame m r (rangingReply x0 u) := by
  unfold rangingReply
  try dsimp only
  repeat' first
    | with_reducible assumption
    | intro _
    | exact land_trans hm rfl
    | exact testBit_of_land hm (by decide)
    | with_reducible apply markSent_frame
    | with_reducible apply ksSwitches_frame
    | with_reducible apply grantMissed_frame
    | with_reducible apply sendLone_frame
    | with_reducible apply modIdent_frame
    | with_reducible apply ite_frame
    | (split <;> try (rename_i hq; replace hq := congrArg Prod.snd hq; dsimp only at hq; subst hq))
    | (rename_i hq; replace hq := congrArg Prod.snd hq; dsimp only at hq; subst hq)
    | (rename_i hq; injection hq with hq; subst hq)

end Sys2Proof.Machine
end

