-- ==== Sys2Proof/Laws/FrameDown.lean ====
section
/-! SUPPORT. The frames of the operations of Machine/Down.lean: each changes nothing outside its mask (see Laws/Frame.lean). -/
set_option Elab.async false
set_option linter.all false

namespace Sys2Proof.Machine

theorem pushIngress_frame {m : Nat} {r u : State} {x0 x1} (h : Frame m r u) (hm : m &&& 4194304 = 4194304) : Frame m r (pushIngress x0 x1 u) := by
  unfold pushIngress
  try dsimp only
  repeat' first
    | with_reducible assumption
    | intro _
    | exact land_trans hm rfl
    | exact testBit_of_land hm (by decide)
    | with_reducible apply ite_frame
    | (split <;> try (rename_i hq; replace hq := congrArg Prod.snd hq; dsimp only at hq; subst hq))
    | (rename_i hq; replace hq := congrArg Prod.snd hq; dsimp only at hq; subst hq)
    | (rename_i hq; injection hq with hq; subst hq)
    | (with_reducible refine Frame.lit ?_ rfl; first | with_reducible assumption | split)

theorem storeIngress_frame {m : Nat} {r u : State} {x0 x1} (h : Frame m r u) (hm : m &&& 13194143858690 = 13194143858690) : Frame m r (storeIngress x0 x1 u) := by
  unfold storeIngress
  try dsimp only
  repeat' first
    | with_reducible assumption
    | intro _
    | exact land_trans hm rfl
    | exact testBit_of_land hm (by decide)
    | with_reducible apply storeData_frame
    | with_reducible apply pushIngress_frame
    | with_reducible apply ite_frame
    | (split <;> try (rename_i hq; replace hq := congrArg Prod.snd hq; dsimp only at hq; subst hq))
    | (rename_i hq; replace hq := congrArg Prod.snd hq; dsimp only at hq; subst hq)
    | (rename_i hq; injection hq with hq; subst hq)

theorem deliverFrame_frame {m : Nat} {r u : State} {x0 x1 x2 x3} (h : Frame m r u) (hm : m &&& 84731144313098 = 84731144313098) : Frame m r (deliverFrame x0 x1 x2 x3 u) := by
  unfold deliverFrame
  try dsimp only
  repeat' first
    | with_reducible assumption
    | intro _
    | exact land_trans hm rfl
    | exact testBit_of_land hm (by decide)
    | with_reducible apply openFrame_frame
    | with_reducible apply dropAtIngress_frame
    | with_reducible apply wakeDomain_frame
    | with_reducible apply storeIngress_frame
    | with_reducible apply ite_frame
    | (split <;> try (rename_i hq; replace hq := congrArg Prod.snd hq; dsimp only at hq; subst hq))
    | (rename_i hq; replace hq := congrArg Prod.snd hq; dsimp only at hq; subst hq)
    | (rename_i hq; injection hq with hq; subst hq)

theorem freeFrags_frame {m : Nat} {r u : State} {x0 x1} (h : Frame m r u) (hm : m &&& 83562892757006 = 83562892757006) : Frame m r (freeFrags x0 x1 u) := by
  unfold freeFrags
  try dsimp only
  repeat' first
    | with_reducible assumption
    | intro _
    | exact land_trans hm rfl
    | exact testBit_of_land hm (by decide)
    | with_reducible apply each_frame
    | with_reducible apply modIdent_frame
    | with_reducible apply freeTubsOf_frame
    | with_reducible apply ite_frame
    | (split <;> try (rename_i hq; replace hq := congrArg Prod.snd hq; dsimp only at hq; subst hq))
    | (rename_i hq; replace hq := congrArg Prod.snd hq; dsimp only at hq; subst hq)
    | (rename_i hq; injection hq with hq; subst hq)

theorem bondSkip_frame {m : Nat} {r u : State} {x0 x1} (h : Frame m r u) (hm : m &&& 83562892757006 = 83562892757006) : Frame m r (bondSkip x0 x1 u) := by
  induction x1 generalizing  u with
  | zero =>
    unfold bondSkip
    try dsimp only
    repeat' first
      | with_reducible assumption
      | intro _
      | exact land_trans hm rfl
      | exact testBit_of_land hm (by decide)
      | with_reducible apply setIdent_frame
      | with_reducible apply modIdent_frame
      | with_reducible apply freeFrags_frame
      | with_reducible apply ite_frame
      | (split <;> try (rename_i hq; replace hq := congrArg Prod.snd hq; dsimp only at hq; subst hq))
      | (rename_i hq; replace hq := congrArg Prod.snd hq; dsimp only at hq; subst hq)
      | (rename_i hq; injection hq with hq; subst hq)
  | succ n ih =>
    unfold bondSkip
    try dsimp only
    repeat' first
      | with_reducible assumption
      | intro _
      | exact land_trans hm rfl
      | exact testBit_of_land hm (by decide)
      | with_reducible apply setIdent_frame
      | with_reducible apply modIdent_frame
      | with_reducible apply freeFrags_frame
      | with_reducible apply ih
      | with_reducible apply ite_frame
      | (split <;> try (rename_i hq; replace hq := congrArg Prod.snd hq; dsimp only at hq; subst hq))
      | (rename_i hq; replace hq := congrArg Prod.snd hq; dsimp only at hq; subst hq)
      | (rename_i hq; injection hq with hq; subst hq)

theorem bondDeliver_frame {m : Nat} {r u : State} {x0 x1} (h : Frame m r u) (hm : m &&& 84731144837390 = 84731144837390) : Frame m r (bondDeliver x0 x1 u) := by
  induction x1 generalizing  u with
  | zero =>
    unfold bondDeliver
    try dsimp only
    repeat' first
      | with_reducible assumption
      | intro _
      | exact land_trans hm rfl
      | exact testBit_of_land hm (by decide)
      | with_reducible apply bondSkip_frame
      | with_reducible apply modIdent_frame
      | with_reducible apply freeFrags_frame
      | with_reducible apply deliverFrame_frame
      | with_reducible apply count_frame
      | with_reducible apply ite_frame
      | (split <;> try (rename_i hq; replace hq := congrArg Prod.snd hq; dsimp only at hq; subst hq))
      | (rename_i hq; replace hq := congrArg Prod.snd hq; dsimp only at hq; subst hq)
      | (rename_i hq; injection hq with hq; subst hq)
  | succ n ih =>
    unfold bondDeliver
    try dsimp only
    repeat' first
      | with_reducible assumption
      | intro _
      | exact land_trans hm rfl
      | exact testBit_of_land hm (by decide)
      | with_reducible apply bondSkip_frame
      | with_reducible apply modIdent_frame
      | with_reducible apply freeFrags_frame
      | with_reducible apply deliverFrame_frame
      | with_reducible apply count_frame
      | with_reducible apply ih
      | with_reducible apply ite_frame
      | (split <;> try (rename_i hq; replace hq := congrArg Prod.snd hq; dsimp only at hq; subst hq))
      | (rename_i hq; replace hq := congrArg Prod.snd hq; dsimp only at hq; subst hq)
      | (rename_i hq; injection hq with hq; subst hq)

theorem bondTimer_frame {m : Nat} {r u : State} {x0} (h : Frame m r u) (hm : m &&& 8388608 = 8388608) : Frame m r (bondTimer x0 u) := by
  unfold bondTimer
  try dsimp only
  repeat' first
    | with_reducible assumption
    | intro _
    | exact land_trans hm rfl
    | exact testBit_of_land hm (by decide)
    | with_reducible apply setIdent_frame
    | with_reducible apply ite_frame
    | (split <;> try (rename_i hq; replace hq := congrArg Prod.snd hq; dsimp only at hq; subst hq))
    | (rename_i hq; replace hq := congrArg Prod.snd hq; dsimp only at hq; subst hq)
    | (rename_i hq; injection hq with hq; subst hq)

theorem bondGapExpiry_frame {m : Nat} {r u : State} {x0} (h : Frame m r u) (hm : m &&& 84731144837390 = 84731144837390) : Frame m r (bondGapExpiry x0 u) := by
  unfold bondGapExpiry
  try dsimp only
  repeat' first
    | with_reducible assumption
    | intro _
    | exact land_trans hm rfl
    | exact testBit_of_land hm (by decide)
    | with_reducible apply bondTimer_frame
    | with_reducible apply bondDeliver_frame
    | with_reducible apply modIdent_frame
    | with_reducible apply countN_frame
    | with_reducible apply freeFrags_frame
    | with_reducible apply ite_frame
    | (split <;> try (rename_i hq; replace hq := congrArg Prod.snd hq; dsimp only at hq; subst hq))
    | (rename_i hq; replace hq := congrArg Prod.snd hq; dsimp only at hq; subst hq)
    | (rename_i hq; injection hq with hq; subst hq)

theorem bondedFragment_frame {m : Nat} {r u : State} {x0 x1 x2 x3 x4 x5 x6} (h : Frame m r u) (hm : m &&& 84731144837390 = 84731144837390) : Frame m r (bondedFragment x0 x1 x2 x3 x4 x5 x6 u) := by
  unfold bondedFragment
  try dsimp only
  repeat' first
    | with_reducible assumption
    | intro _
    | exact land_trans hm rfl
    | exact testBit_of_land hm (by decide)
    | with_reducible apply when'_frame
    | with_reducible apply count_frame
    | with_reducible apply bondGapExpiry_frame
    | with_reducible apply storeData_frame
    | with_reducible apply bondTimer_frame
    | with_reducible apply bondDeliver_frame
    | with_reducible apply modIdent_frame
    | with_reducible apply ite_frame
    | (split <;> try (rename_i hq; replace hq := congrArg Prod.snd hq; dsimp only at hq; subst hq))
    | (rename_i hq; replace hq := congrArg Prod.snd hq; dsimp only at hq; subst hq)
    | (rename_i hq; injection hq with hq; subst hq)

theorem bondVoidAll_frame {m : Nat} {r u : State} {x0} (h : Frame m r u) (hm : m &&& 83562892757006 = 83562892757006) : Frame m r (bondVoidAll x0 u) := by
  unfold bondVoidAll
  try dsimp only
  repeat' first
    | with_reducible assumption
    | intro _
    | exact land_trans hm rfl
    | exact testBit_of_land hm (by decide)
    | with_reducible apply dropFrags_frame
    | with_reducible apply countN_frame
    | with_reducible apply ite_frame
    | (split <;> try (rename_i hq; replace hq := congrArg Prod.snd hq; dsimp only at hq; subst hq))
    | (rename_i hq; replace hq := congrArg Prod.snd hq; dsimp only at hq; subst hq)
    | (rename_i hq; injection hq with hq; subst hq)

theorem dropPartial_frame {m : Nat} {r u : State} {x0 x1 x2} (h : Frame m r u) (hm : m &&& 83562884433934 = 83562884433934) : Frame m r (dropPartial x0 x1 x2 u) := by
  unfold dropPartial
  try dsimp only
  repeat' first
    | with_reducible assumption
    | intro _
    | exact land_trans hm rfl
    | exact testBit_of_land hm (by decide)
    | with_reducible apply modSeam_frame
    | with_reducible apply freePartials_frame
    | with_reducible apply ite_frame
    | (split <;> try (rename_i hq; replace hq := congrArg Prod.snd hq; dsimp only at hq; subst hq))
    | (rename_i hq; replace hq := congrArg Prod.snd hq; dsimp only at hq; subst hq)
    | (rename_i hq; injection hq with hq; subst hq)

theorem keepPartial_frame {m : Nat} {r u : State} {x0 x1 x2 x3} (h : Frame m r u) (hm : m &&& 13194139729922 = 13194139729922) : Frame m r (keepPartial x0 x1 x2 x3 u) := by
  unfold keepPartial
  try dsimp only
  repeat' first
    | with_reducible assumption
    | intro _
    | exact land_trans hm rfl
    | exact testBit_of_land hm (by decide)
    | with_reducible apply storeData_frame
    | with_reducible apply modSeam_frame
    | with_reducible apply ite_frame
    | (split <;> try (rename_i hq; replace hq := congrArg Prod.snd hq; dsimp only at hq; subst hq))
    | (rename_i hq; replace hq := congrArg Prod.snd hq; dsimp only at hq; subst hq)
    | (rename_i hq; injection hq with hq; subst hq)

theorem dataFragment_frame {m : Nat} {r u : State} {x0 x1 x2 x3 x4 x5 x6 x7} (h : Frame m r u) (hm : m &&& 84731144902926 = 84731144902926) : Frame m r (dataFragment x0 x1 x2 x3 x4 x5 x6 x7 u) := by
  unfold dataFragment
  try dsimp only
  repeat' first
    | with_reducible assumption
    | intro _
    | exact land_trans hm rfl
    | exact testBit_of_land hm (by decide)
    | with_reducible apply when'_frame
    | with_reducible apply dropPartial_frame
    | with_reducible apply deliverFrame_frame
    | with_reducible apply keepPartial_frame
    | with_reducible apply ite_frame
    | (split <;> try (rename_i hq; replace hq := congrArg Prod.snd hq; dsimp only at hq; subst hq))
    | (rename_i hq; replace hq := congrArg Prod.snd hq; dsimp only at hq; subst hq)
    | (rename_i hq; injection hq with hq; subst hq)

theorem takeItem_frame {m : Nat} {r u : State} {x0 x1 x2 x3} (h : Frame m r u) (hm : m &&& 84731144902926 = 84731144902926) : Frame m r (takeItem x0 x1 x2 x3 u) := by
  unfold takeItem
  try dsimp only
  repeat' first
    | with_reducible assumption
    | intro _
    | exact land_trans hm rfl
    | exact testBit_of_land hm (by decide)
    | with_reducible apply modSeam_frame
    | with_reducible apply freePartials_frame
    | with_reducible apply count_frame
    | with_reducible apply dropPartial_frame
    | with_reducible apply bondedFragment_frame
    | with_reducible apply dataFragment_frame
    | with_reducible apply ite_frame
    | (split <;> try (rename_i hq; replace hq := congrArg Prod.snd hq; dsimp only at hq; subst hq))
    | (rename_i hq; replace hq := congrArg Prod.snd hq; dsimp only at hq; subst hq)
    | (rename_i hq; injection hq with hq; subst hq)

theorem takeBody_frame {m : Nat} {r u : State} {x0 x1 x2 x3} (h : Frame m r u) (hm : m &&& 84731279120654 = 84731279120654) : Frame m r (takeBody x0 x1 x2 x3 u) := by
  unfold takeBody
  try dsimp only
  repeat' first
    | with_reducible assumption
    | intro _
    | exact land_trans hm rfl
    | exact testBit_of_land hm (by decide)
    | with_reducible apply each_frame
    | with_reducible apply takeItem_frame
    | with_reducible apply takeDownstream_frame
    | with_reducible apply ite_frame
    | (split <;> try (rename_i hq; replace hq := congrArg Prod.snd hq; dsimp only at hq; subst hq))
    | (rename_i hq; replace hq := congrArg Prod.snd hq; dsimp only at hq; subst hq)
    | (rename_i hq; injection hq with hq; subst hq)

theorem takeContents_frame {m : Nat} {r u : State} {x0 x1 x2 x3 x4} (h : Frame m r u) (hm : m &&& 84731279121678 = 84731279121678) : Frame m r (takeContents x0 x1 x2 x3 x4 u) := by
  unfold takeContents
  try dsimp only
  repeat' first
    | with_reducible assumption
    | intro _
    | exact land_trans hm rfl
    | exact testBit_of_land hm (by decide)
    | with_reducible apply each_frame
    | with_reducible apply when'_frame
    | with_reducible apply wakeFires_frame
    | with_reducible apply takeBody_frame
    | with_reducible apply modSeam_frame
    | with_reducible apply count_frame
    | with_reducible apply shiftApply_frame
    | with_reducible apply ite_frame
    | (split <;> try (rename_i hq; replace hq := congrArg Prod.snd hq; dsimp only at hq; subst hq))
    | (rename_i hq; replace hq := congrArg Prod.snd hq; dsimp only at hq; subst hq)
    | (rename_i hq; injection hq with hq; subst hq)
    | (with_reducible refine Frame.lit ?_ rfl; first | with_reducible assumption | with_reducible apply each_frame | with_reducible apply when'_frame | with_reducible apply wakeFires_frame | with_reducible apply takeBody_frame | with_reducible apply modSeam_frame | with_reducible apply count_frame | with_reducible apply shiftApply_frame| split)

theorem noteSkew_frame {m : Nat} {r u : State} {x0 x1 x2} (h : Frame m r u) (hm : m &&& 70368744245256 = 70368744245256) : Frame m r (noteSkew x0 x1 x2 u) := by
  unfold noteSkew
  try dsimp only
  repeat' first
    | with_reducible assumption
    | intro _
    | exact land_trans hm rfl
    | exact testBit_of_land hm (by decide)
    | with_reducible apply when'_frame
    | with_reducible apply modSeam_frame
    | with_reducible apply event_frame
    | with_reducible apply ite_frame
    | (split <;> try (rename_i hq; replace hq := congrArg Prod.snd hq; dsimp only at hq; subst hq))
    | (rename_i hq; replace hq := congrArg Prod.snd hq; dsimp only at hq; subst hq)
    | (rename_i hq; injection hq with hq; subst hq)

theorem frameMeasures_frame {m : Nat} {r u : State} {x0 x1 x2 x3} (h : Frame m r u) (hm : m &&& 70368744245256 = 70368744245256) : Frame m r (frameMeasures x0 x1 x2 x3 u) := by
  unfold frameMeasures
  try dsimp only
  repeat' first
    | with_reducible assumption
    | intro _
    | exact land_trans hm rfl
    | exact testBit_of_land hm (by decide)
    | with_reducible apply lomfEvents_frame
    | with_reducible apply defects_frame
    | with_reducible apply ite_frame
    | (split <;> try (rename_i hq; replace hq := congrArg Prod.snd hq; dsimp only at hq; subst hq))
    | (rename_i hq; replace hq := congrArg Prod.snd hq; dsimp only at hq; subst hq)
    | (rename_i hq; injection hq with hq; subst hq)

theorem noteStamp_frame {m : Nat} {r u : State} {x0 x1 x2} (h : Frame m r u) (hm : m &&& 65536 = 65536) : Frame m r (noteStamp x0 x1 x2 u) := by
  unfold noteStamp
  try dsimp only
  repeat' first
    | with_reducible assumption
    | intro _
    | exact land_trans hm rfl
    | exact testBit_of_land hm (by decide)
    | with_reducible apply modSeam_frame
    | with_reducible apply ite_frame
    | (split <;> try (rename_i hq; replace hq := congrArg Prod.snd hq; dsimp only at hq; subst hq))
    | (rename_i hq; replace hq := congrArg Prod.snd hq; dsimp only at hq; subst hq)
    | (rename_i hq; injection hq with hq; subst hq)

theorem decodedFrame_frame {m : Nat} {r u : State} {x0 x1 x2 x3 x4} (h : Frame m r u) (hm : m &&& 84739869064462 = 84739869064462) : Frame m r (decodedFrame x0 x1 x2 x3 x4 u) := by
  unfold decodedFrame
  try dsimp only
  repeat' first
    | with_reducible assumption
    | intro _
    | exact land_trans hm rfl
    | exact testBit_of_land hm (by decide)
    | with_reducible apply when'_frame
    | with_reducible apply badSyncStep_frame
    | with_reducible apply countWords_frame
    | with_reducible apply heidCheck_frame
    | with_reducible apply takeHeader_frame
    | with_reducible apply frameMeasures_frame
    | with_reducible apply noteSkew_frame
    | with_reducible apply noteStamp_frame
    | with_reducible apply downSwitches_frame
    | with_reducible apply noteLineLost_frame
    | with_reducible apply declareLof_frame
    | with_reducible apply takeContents_frame
    | with_reducible apply ite_frame
    | (split <;> try (rename_i hq; replace hq := congrArg Prod.snd hq; dsimp only at hq; subst hq))
    | (rename_i hq; replace hq := congrArg Prod.snd hq; dsimp only at hq; subst hq)
    | (rename_i hq; injection hq with hq; subst hq)

theorem downstreamFrame_frame {m : Nat} {r u : State} {x0 x1 x2 x3} (h : Frame m r u) (hm : m &&& 84739869064462 = 84739869064462) : Frame m r (downstreamFrame x0 x1 x2 x3 u) := by
  unfold downstreamFrame
  try dsimp only
  repeat' first
    | with_reducible assumption
    | intro _
    | exact land_trans hm rfl
    | exact testBit_of_land hm (by decide)
    | with_reducible apply decodedFrame_frame
    | with_reducible apply ite_frame
    | (split <;> try (rename_i hq; replace hq := congrArg Prod.snd hq; dsimp only at hq; subst hq))
    | (rename_i hq; replace hq := congrArg Prod.snd hq; dsimp only at hq; subst hq)
    | (rename_i hq; injection hq with hq; subst hq)

end Sys2Proof.Machine
end

