-- ==== Sys2Proof/Laws/FrameProt.lean ====
section
/-! SUPPORT. The frames of the operations of Machine/Prot.lean: each changes nothing outside its mask (see Laws/Frame.lean). -/
set_option Elab.async false
set_option linter.all false

namespace Sys2Proof.Machine

theorem setOptic_frame {m : Nat} {r u : State} {x0 x1 x2} (h : Frame m r u) (hm : m &&& 16396 = 16396) : Frame m r (setOptic x0 x1 x2 u) := by
  unfold setOptic
  try dsimp only
  repeat' first
    | with_reducible assumption
    | intro _
    | exact land_trans hm rfl
    | exact testBit_of_land hm (by decide)
    | with_reducible apply emit_frame
    | with_reducible apply setRfld_frame
    | with_reducible apply ite_frame
    | (split <;> try (rename_i hq; replace hq := congrArg Prod.snd hq; dsimp only at hq; subst hq))
    | (rename_i hq; replace hq := congrArg Prod.snd hq; dsimp only at hq; subst hq)
    | (rename_i hq; injection hq with hq; subst hq)
    | (with_reducible refine Frame.lit ?_ rfl; first | with_reducible assumption | with_reducible apply emit_frame | with_reducible apply setRfld_frame| split)

theorem sideDomainUp_frame {m : Nat} {r u : State} {x0} (h : Frame m r u) (hm : m &&& 83640730728478 = 83640730728478) : Frame m r (sideDomainUp x0 u) := by
  unfold sideDomainUp
  try dsimp only
  repeat' first
    | with_reducible assumption
    | intro _
    | exact land_trans hm rfl
    | exact testBit_of_land hm (by decide)
    | with_reducible apply each_frame
    | with_reducible apply laneDomainUp_frame
    | with_reducible apply seamUp_frame
    | with_reducible apply setDom_frame
    | with_reducible apply ite_frame
    | (split <;> try (rename_i hq; replace hq := congrArg Prod.snd hq; dsimp only at hq; subst hq))
    | (rename_i hq; replace hq := congrArg Prod.snd hq; dsimp only at hq; subst hq)
    | (rename_i hq; injection hq with hq; subst hq)

theorem sideUpRow_frame {m : Nat} {r u : State} {x0} (h : Frame m r u) (hm : m &&& 83640730728478 = 83640730728478) : Frame m r (sideUpRow x0 u) := by
  unfold sideUpRow
  try dsimp only
  repeat' first
    | with_reducible assumption
    | intro _
    | exact land_trans hm rfl
    | exact testBit_of_land hm (by decide)
    | with_reducible apply when'_frame
    | with_reducible apply sideDomainUp_frame
    | with_reducible apply ite_frame
    | (split <;> try (rename_i hq; replace hq := congrArg Prod.snd hq; dsimp only at hq; subst hq))
    | (rename_i hq; replace hq := congrArg Prod.snd hq; dsimp only at hq; subst hq)
    | (rename_i hq; injection hq with hq; subst hq)

theorem sideDomainDown_frame {m : Nat} {r u : State} {x0} (h : Frame m r u) (hm : m &&& 83632149207070 = 83632149207070) : Frame m r (sideDomainDown x0 u) := by
  unfold sideDomainDown
  try dsimp only
  repeat' first
    | with_reducible assumption
    | intro _
    | exact land_trans hm rfl
    | exact testBit_of_land hm (by decide)
    | with_reducible apply each_frame
    | with_reducible apply when'_frame
    | with_reducible apply modProt_frame
    | with_reducible apply noteLineLost_frame
    | with_reducible apply laneDomainDown_frame
    | with_reducible apply seamDown_frame
    | with_reducible apply setDom_frame
    | exact Or.inr (fun _ => rfl)
    | exact Or.inl (testBit_of_land hm (by decide))
    | exact Or.inr (fun _ => by (try dsimp only); split <;> rfl)
    | exact fun _ _ e => e
    | exact fun _ e => e
    | with_reducible apply ite_frame
    | (split <;> try (rename_i hq; replace hq := congrArg Prod.snd hq; dsimp only at hq; subst hq))
    | (rename_i hq; replace hq := congrArg Prod.snd hq; dsimp only at hq; subst hq)
    | (rename_i hq; injection hq with hq; subst hq)

theorem dropCold_frame {m : Nat} {r u : State} {x0} (h : Frame m r u) (hm : m &&& 68719480832 = 68719480832) : Frame m r (dropCold x0 u) := by
  unfold dropCold
  try dsimp only
  repeat' first
    | with_reducible assumption
    | intro _
    | exact land_trans hm rfl
    | exact testBit_of_land hm (by decide)
    | with_reducible apply setDom_frame
    | with_reducible apply ite_frame
    | (split <;> try (rename_i hq; replace hq := congrArg Prod.snd hq; dsimp only at hq; subst hq))
    | (rename_i hq; replace hq := congrArg Prod.snd hq; dsimp only at hq; subst hq)
    | (rename_i hq; injection hq with hq; subst hq)

theorem setHealth_frame {m : Nat} {r u : State} {x0 x1} (h : Frame m r u) (hm : m &&& 32768 = 32768) : Frame m r (setHealth x0 x1 u) := by
  unfold setHealth
  try dsimp only
  repeat' first
    | with_reducible assumption
    | intro _
    | exact land_trans hm rfl
    | exact testBit_of_land hm (by decide)
    | with_reducible apply modProt_frame
    | exact Or.inr (fun _ => rfl)
    | exact Or.inl (testBit_of_land hm (by decide))
    | exact Or.inr (fun _ => by (try dsimp only); split <;> rfl)
    | exact fun _ _ e => e
    | exact fun _ e => e
    | with_reducible apply ite_frame
    | (split <;> try (rename_i hq; replace hq := congrArg Prod.snd hq; dsimp only at hq; subst hq))
    | (rename_i hq; replace hq := congrArg Prod.snd hq; dsimp only at hq; subst hq)
    | (rename_i hq; injection hq with hq; subst hq)

theorem leftHealth_frame {m : Nat} {r u : State} (h : Frame m r u) (hm : m &&& 32768 = 32768) : Frame m r (leftHealth u) := by
  unfold leftHealth
  try dsimp only
  repeat' first
    | with_reducible assumption
    | intro _
    | exact land_trans hm rfl
    | exact testBit_of_land hm (by decide)
    | with_reducible apply setHealth_frame
    | with_reducible apply ite_frame
    | (split <;> try (rename_i hq; replace hq := congrArg Prod.snd hq; dsimp only at hq; subst hq))
    | (rename_i hq; replace hq := congrArg Prod.snd hq; dsimp only at hq; subst hq)
    | (rename_i hq; injection hq with hq; subst hq)

theorem canaryFields_frame {m : Nat} {r u : State} {x0} (h : Frame m r u) (hm : m &&& 536870920 = 536870920) : Frame m r (canaryFields x0 u) := by
  unfold canaryFields
  try dsimp only
  repeat' first
    | with_reducible assumption
    | intro _
    | exact land_trans hm rfl
    | exact testBit_of_land hm (by decide)
    | with_reducible apply each_frame
    | with_reducible apply modLane_frame
    | with_reducible apply setReg_frame
    | with_reducible apply ite_frame
    | (split <;> try (rename_i hq; replace hq := congrArg Prod.snd hq; dsimp only at hq; subst hq))
    | (rename_i hq; replace hq := congrArg Prod.snd hq; dsimp only at hq; subst hq)
    | (rename_i hq; injection hq with hq; subst hq)

theorem clearSideTest_frame {m : Nat} {r u : State} {x0} (h : Frame m r u) (hm : m &&& 83563422287886 = 83563422287886) : Frame m r (clearSideTest x0 u) := by
  unfold clearSideTest
  try dsimp only
  repeat' first
    | with_reducible assumption
    | intro _
    | exact land_trans hm rfl
    | exact testBit_of_land hm (by decide)
    | with_reducible apply each_frame
    | with_reducible apply clearTest_frame
    | with_reducible apply ite_frame
    | (split <;> try (rename_i hq; replace hq := congrArg Prod.snd hq; dsimp only at hq; subst hq))
    | (rename_i hq; replace hq := congrArg Prod.snd hq; dsimp only at hq; subst hq)
    | (rename_i hq; injection hq with hq; subst hq)

theorem canaryRun_frame {m : Nat} {r u : State} (h : Frame m r u) (hm : m &&& 1168768028684 = 1168768028684) : Frame m r (canaryRun u) := by
  unfold canaryRun
  try dsimp only
  repeat' first
    | with_reducible assumption
    | intro _
    | exact land_trans hm rfl
    | exact testBit_of_land hm (by decide)
    | with_reducible apply count_frame
    | with_reducible apply setHealth_frame
    | with_reducible apply modProt_frame
    | with_reducible apply emit_frame
    | with_reducible apply setOptic_frame
    | with_reducible apply canaryFields_frame
    | with_reducible apply raiseVoted_frame
    | with_reducible apply setVotes_frame
    | exact Or.inr (fun _ => rfl)
    | exact Or.inl (testBit_of_land hm (by decide))
    | exact Or.inr (fun _ => by (try dsimp only); split <;> rfl)
    | exact fun _ _ e => e
    | exact fun _ e => e
    | with_reducible apply ite_frame
    | (split <;> try (rename_i hq; replace hq := congrArg Prod.snd hq; dsimp only at hq; subst hq))
    | (rename_i hq; replace hq := congrArg Prod.snd hq; dsimp only at hq; subst hq)
    | (rename_i hq; injection hq with hq; subst hq)

theorem canaryRetry_frame {m : Nat} {r u : State} (h : Frame m r u) (hm : m &&& 1168768028684 = 1168768028684) : Frame m r (canaryRetry u) := by
  unfold canaryRetry
  try dsimp only
  repeat' first
    | with_reducible assumption
    | intro _
    | exact land_trans hm rfl
    | exact testBit_of_land hm (by decide)
    | with_reducible apply when'_frame
    | with_reducible apply canaryRun_frame
    | with_reducible apply ite_frame
    | (split <;> try (rename_i hq; replace hq := congrArg Prod.snd hq; dsimp only at hq; subst hq))
    | (rename_i hq; replace hq := congrArg Prod.snd hq; dsimp only at hq; subst hq)
    | (rename_i hq; injection hq with hq; subst hq)

theorem canaryStep3_frame {m : Nat} {r u : State} (h : Frame m r u) (hm : m &&& 83563422320654 = 83563422320654) : Frame m r (canaryStep3 u) := by
  unfold canaryStep3
  try dsimp only
  repeat' first
    | with_reducible assumption
    | intro _
    | exact land_trans hm rfl
    | exact testBit_of_land hm (by decide)
    | with_reducible apply clearSideTest_frame
    | with_reducible apply modProt_frame
    | exact Or.inr (fun _ => rfl)
    | exact Or.inl (testBit_of_land hm (by decide))
    | exact Or.inr (fun _ => by (try dsimp only); split <;> rfl)
    | exact fun _ _ e => e
    | exact fun _ e => e
    | with_reducible apply ite_frame
    | (split <;> try (rename_i hq; replace hq := congrArg Prod.snd hq; dsimp only at hq; subst hq))
    | (rename_i hq; replace hq := congrArg Prod.snd hq; dsimp only at hq; subst hq)
    | (rename_i hq; injection hq with hq; subst hq)

theorem canaryWithdraw_frame {m : Nat} {r u : State} {x0} (h : Frame m r u) (hm : m &&& 1168231125004 = 1168231125004) : Frame m r (canaryWithdraw x0 u) := by
  unfold canaryWithdraw
  try dsimp only
  repeat' first
    | with_reducible assumption
    | intro _
    | exact land_trans hm rfl
    | exact testBit_of_land hm (by decide)
    | with_reducible apply dropCold_frame
    | with_reducible apply setOptic_frame
    | with_reducible apply setVotes_frame
    | with_reducible apply ite_frame
    | (split <;> try (rename_i hq; replace hq := congrArg Prod.snd hq; dsimp only at hq; subst hq))
    | (rename_i hq; replace hq := congrArg Prod.snd hq; dsimp only at hq; subst hq)
    | (rename_i hq; injection hq with hq; subst hq)

theorem canaryEnd_frame {m : Nat} {r u : State} {x0} (h : Frame m r u) (hm : m &&& 84731653445646 = 84731653445646) : Frame m r (canaryEnd x0 u) := by
  unfold canaryEnd
  try dsimp only
  repeat' first
    | with_reducible assumption
    | intro _
    | exact land_trans hm rfl
    | exact testBit_of_land hm (by decide)
    | with_reducible apply canaryWithdraw_frame
    | with_reducible apply modProt_frame
    | with_reducible apply clearSideTest_frame
    | exact Or.inr (fun _ => rfl)
    | exact Or.inl (testBit_of_land hm (by decide))
    | exact Or.inr (fun _ => by (try dsimp only); split <;> rfl)
    | exact fun _ _ e => e
    | exact fun _ e => e
    | with_reducible apply ite_frame
    | (split <;> try (rename_i hq; replace hq := congrArg Prod.snd hq; dsimp only at hq; subst hq))
    | (rename_i hq; replace hq := congrArg Prod.snd hq; dsimp only at hq; subst hq)
    | (rename_i hq; injection hq with hq; subst hq)

theorem canaryAbort_frame {m : Nat} {r u : State} (h : Frame m r u) (hm : m &&& 83563422320654 = 83563422320654) : Frame m r (canaryAbort u) := by
  unfold canaryAbort
  try dsimp only
  repeat' first
    | with_reducible assumption
    | intro _
    | exact land_trans hm rfl
    | exact testBit_of_land hm (by decide)
    | with_reducible apply modProt_frame
    | with_reducible apply clearSideTest_frame
    | with_reducible apply setHealth_frame
    | exact Or.inr (fun _ => rfl)
    | exact Or.inl (testBit_of_land hm (by decide))
    | exact Or.inr (fun _ => by (try dsimp only); split <;> rfl)
    | exact fun _ _ e => e
    | exact fun _ e => e
    | with_reducible apply ite_frame
    | (split <;> try (rename_i hq; replace hq := congrArg Prod.snd hq; dsimp only at hq; subst hq))
    | (rename_i hq; replace hq := congrArg Prod.snd hq; dsimp only at hq; subst hq)
    | (rename_i hq; injection hq with hq; subst hq)

theorem canaryLeave_frame {m : Nat} {r u : State} (h : Frame m r u) (hm : m &&& 1168231125004 = 1168231125004) : Frame m r (canaryLeave u) := by
  unfold canaryLeave
  try dsimp only
  repeat' first
    | with_reducible assumption
    | intro _
    | exact land_trans hm rfl
    | exact testBit_of_land hm (by decide)
    | with_reducible apply canaryWithdraw_frame
    | with_reducible apply ite_frame
    | (split <;> try (rename_i hq; replace hq := congrArg Prod.snd hq; dsimp only at hq; subst hq))
    | (rename_i hq; replace hq := congrArg Prod.snd hq; dsimp only at hq; subst hq)
    | (rename_i hq; injection hq with hq; subst hq)

theorem noteWtr_frame {m : Nat} {r u : State} {x0 x1} (h : Frame m r u) (hm : m &&& 32768 = 32768) : Frame m r (noteWtr x0 x1 u) := by
  unfold noteWtr
  try dsimp only
  repeat' first
    | with_reducible assumption
    | intro _
    | exact land_trans hm rfl
    | exact testBit_of_land hm (by decide)
    | with_reducible apply modProt_frame
    | exact Or.inr (fun _ => rfl)
    | exact Or.inl (testBit_of_land hm (by decide))
    | exact Or.inr (fun _ => by (try dsimp only); split <;> rfl)
    | exact fun _ _ e => e
    | exact fun _ e => e
    | with_reducible apply ite_frame
    | (split <;> try (rename_i hq; replace hq := congrArg Prod.snd hq; dsimp only at hq; subst hq))
    | (rename_i hq; replace hq := congrArg Prod.snd hq; dsimp only at hq; subst hq)
    | (rename_i hq; injection hq with hq; subst hq)

theorem canaryDone_frame {m : Nat} {r u : State} {x0} (h : Frame m r u) (hm : m &&& 84740243388430 = 84740243388430) : Frame m r (canaryDone x0 u) := by
  unfold canaryDone
  try dsimp only
  repeat' first
    | with_reducible assumption
    | intro _
    | exact land_trans hm rfl
    | exact testBit_of_land hm (by decide)
    | with_reducible apply when'_frame
    | with_reducible apply event_frame
    | with_reducible apply canaryEnd_frame
    | with_reducible apply noteWtr_frame
    | with_reducible apply noteFault_frame
    | with_reducible apply count_frame
    | with_reducible apply modProt_frame
    | with_reducible apply setHealth_frame
    | exact Or.inr (fun _ => rfl)
    | exact Or.inl (testBit_of_land hm (by decide))
    | exact Or.inr (fun _ => by (try dsimp only); split <;> rfl)
    | exact fun _ _ e => e
    | exact fun _ e => e
    | with_reducible apply ite_frame
    | (split <;> try (rename_i hq; replace hq := congrArg Prod.snd hq; dsimp only at hq; subst hq))
    | (rename_i hq; replace hq := congrArg Prod.snd hq; dsimp only at hq; subst hq)
    | (rename_i hq; injection hq with hq; subst hq)

theorem seamEligible_frame {m : Nat} {r u : State} {x0} (h : Frame m r u) (hm : m &&& 65536 = 65536) : Frame m r (seamEligible x0 u) := by
  unfold seamEligible
  try dsimp only
  repeat' first
    | with_reducible assumption
    | intro _
    | exact land_trans hm rfl
    | exact testBit_of_land hm (by decide)
    | with_reducible apply defects_frame
    | with_reducible apply ite_frame
    | (split <;> try (rename_i hq; replace hq := congrArg Prod.snd hq; dsimp only at hq; subst hq))
    | (rename_i hq; replace hq := congrArg Prod.snd hq; dsimp only at hq; subst hq)
    | (rename_i hq; injection hq with hq; subst hq)

theorem sideFails_frame {m : Nat} {r u : State} (h : Frame m r u) (hm : m &&& 83563422320654 = 83563422320654) : Frame m r (sideFails u) := by
  unfold sideFails
  try dsimp only
  repeat' first
    | with_reducible assumption
    | intro _
    | exact land_trans hm rfl
    | exact testBit_of_land hm (by decide)
    | with_reducible apply canaryAbort_frame
    | with_reducible apply modProt_frame
    | exact Or.inr (fun _ => rfl)
    | exact Or.inl (testBit_of_land hm (by decide))
    | exact Or.inr (fun _ => by (try dsimp only); split <;> rfl)
    | exact fun _ _ e => e
    | exact fun _ e => e
    | with_reducible apply ite_frame
    | (split <;> try (rename_i hq; replace hq := congrArg Prod.snd hq; dsimp only at hq; subst hq))
    | (rename_i hq; replace hq := congrArg Prod.snd hq; dsimp only at hq; subst hq)
    | (rename_i hq; injection hq with hq; subst hq)

theorem denyRequest_frame {m : Nat} {r u : State} {x0 x1} (h : Frame m r u) (hm : m &&& 70368744179720 = 70368744179720) : Frame m r (denyRequest x0 x1 u) := by
  unfold denyRequest
  try dsimp only
  repeat' first
    | with_reducible assumption
    | intro _
    | exact land_trans hm rfl
    | exact testBit_of_land hm (by decide)
    | with_reducible apply supEvent_frame
    | with_reducible apply count_frame
    | with_reducible apply ite_frame
    | (split <;> try (rename_i hq; replace hq := congrArg Prod.snd hq; dsimp only at hq; subst hq))
    | (rename_i hq; replace hq := congrArg Prod.snd hq; dsimp only at hq; subst hq)
    | (rename_i hq; injection hq with hq; subst hq)

theorem protCommand_frame {m : Nat} {r u : State} {x0} (h : Frame m r u) (hm : m &&& 83563422320654 = 83563422320654) : Frame m r (protCommand x0 u) := by
  unfold protCommand
  try dsimp only
  repeat' first
    | with_reducible assumption
    | intro _
    | exact land_trans hm rfl
    | exact testBit_of_land hm (by decide)
    | with_reducible apply when'_frame
    | with_reducible apply canaryAbort_frame
    | with_reducible apply denyRequest_frame
    | with_reducible apply modProt_frame
    | exact Or.inr (fun _ => rfl)
    | exact Or.inl (testBit_of_land hm (by decide))
    | exact Or.inr (fun _ => by (try dsimp only); split <;> rfl)
    | exact fun _ _ e => e
    | exact fun _ e => e
    | with_reducible apply ite_frame
    | (split <;> try (rename_i hq; replace hq := congrArg Prod.snd hq; dsimp only at hq; subst hq))
    | (rename_i hq; replace hq := congrArg Prod.snd hq; dsimp only at hq; subst hq)
    | (rename_i hq; injection hq with hq; subst hq)

theorem protDecide_frame {m : Nat} {r u : State} (h : Frame m r u) (hm : m &&& 71536975337484 = 71536975337484) : Frame m r (protDecide u) := by
  unfold protDecide
  try dsimp only
  repeat' first
    | with_reducible assumption
    | intro _
    | exact land_trans hm rfl
    | exact testBit_of_land hm (by decide)
    | with_reducible apply each_frame
    | with_reducible apply when'_frame
    | with_reducible apply modProt_frame
    | with_reducible apply denyRequest_frame
    | with_reducible apply supEvent_frame
    | with_reducible apply canaryLeave_frame
    | with_reducible apply noteUnfailed_frame
    | exact Or.inr (fun _ => rfl)
    | exact Or.inl (testBit_of_land hm (by decide))
    | exact Or.inr (fun _ => by (try dsimp only); split <;> rfl)
    | exact fun _ _ e => e
    | exact fun _ e => e
    | with_reducible apply ite_frame
    | (split <;> try (rename_i hq; replace hq := congrArg Prod.snd hq; dsimp only at hq; subst hq))
    | (rename_i hq; replace hq := congrArg Prod.snd hq; dsimp only at hq; subst hq)
    | (rename_i hq; injection hq with hq; subst hq)

theorem wtrExpiry_frame {m : Nat} {r u : State} (h : Frame m r u) (hm : m &&& 32768 = 32768) : Frame m r (wtrExpiry u) := by
  unfold wtrExpiry
  try dsimp only
  repeat' first
    | with_reducible assumption
    | intro _
    | exact land_trans hm rfl
    | exact testBit_of_land hm (by decide)
    | with_reducible apply modProt_frame
    | exact Or.inr (fun _ => rfl)
    | exact Or.inl (testBit_of_land hm (by decide))
    | exact Or.inr (fun _ => by (try dsimp only); split <;> rfl)
    | exact fun _ _ e => e
    | exact fun _ e => e
    | with_reducible apply ite_frame
    | (split <;> try (rename_i hq; replace hq := congrArg Prod.snd hq; dsimp only at hq; subst hq))
    | (rename_i hq; replace hq := congrArg Prod.snd hq; dsimp only at hq; subst hq)
    | (rename_i hq; injection hq with hq; subst hq)

theorem parkIdent_frame {m : Nat} {r u : State} {x0 x1} (h : Frame m r u) (hm : m &&& 83562892758030 = 83562892758030) : Frame m r (parkIdent x0 x1 u) := by
  unfold parkIdent
  try dsimp only
  repeat' first
    | with_reducible assumption
    | intro _
    | exact land_trans hm rfl
    | exact testBit_of_land hm (by decide)
    | with_reducible apply when'_frame
    | with_reducible apply changeState_frame
    | with_reducible apply setIdent_frame
    | with_reducible apply bondVoidAll_frame
    | with_reducible apply saveReg_frame
    | with_reducible apply ite_frame
    | (split <;> try (rename_i hq; replace hq := congrArg Prod.snd hq; dsimp only at hq; subst hq))
    | (rename_i hq; replace hq := congrArg Prod.snd hq; dsimp only at hq; subst hq)
    | (rename_i hq; injection hq with hq; subst hq)

theorem dropOldSends_frame {m : Nat} {r u : State} (h : Frame m r u) (hm : m &&& 83562884368398 = 83562884368398) : Frame m r (dropOldSends u) := by
  unfold dropOldSends
  try dsimp only
  repeat' first
    | with_reducible assumption
    | intro _
    | exact land_trans hm rfl
    | exact testBit_of_land hm (by decide)
    | with_reducible apply each_frame
    | with_reducible apply when'_frame
    | with_reducible apply count_frame
    | with_reducible apply setAllocQ_frame
    | with_reducible apply freeFrames_frame
    | with_reducible apply ite_frame
    | (split <;> try (rename_i hq; replace hq := congrArg Prod.snd hq; dsimp only at hq; subst hq))
    | (rename_i hq; replace hq := congrArg Prod.snd hq; dsimp only at hq; subst hq)
    | (rename_i hq; injection hq with hq; subst hq)

theorem protSwitch_frame {m : Nat} {r u : State} (h : Frame m r u) (hm : m &&& 86930836151310 = 86930836151310) : Frame m r (protSwitch u) := by
  unfold protSwitch
  try dsimp only
  repeat' first
    | with_reducible assumption
    | intro _
    | exact land_trans hm rfl
    | exact testBit_of_land hm (by decide)
    | with_reducible apply each_frame
    | with_reducible apply when'_frame
    | with_reducible apply leftHealth_frame
    | with_reducible apply modProt_frame
    | with_reducible apply setHealth_frame
    | with_reducible apply event_frame
    | with_reducible apply clearSideTest_frame
    | with_reducible apply dropOldSends_frame
    | with_reducible apply parkIdent_frame
    | with_reducible apply circSwitch_frame
    | with_reducible apply loadEpochs_frame
    | with_reducible apply setOptic_frame
    | with_reducible apply raiseVoted_frame
    | with_reducible apply setVotes_frame
    | exact Or.inr (fun _ => rfl)
    | exact Or.inl (testBit_of_land hm (by decide))
    | exact Or.inr (fun _ => by (try dsimp only); split <;> rfl)
    | exact fun _ _ e => e
    | exact fun _ e => e
    | with_reducible apply ite_frame
    | (split <;> try (rename_i hq; replace hq := congrArg Prod.snd hq; dsimp only at hq; subst hq))
    | (rename_i hq; replace hq := congrArg Prod.snd hq; dsimp only at hq; subst hq)
    | (rename_i hq; injection hq with hq; subst hq)
    | (with_reducible refine Frame.lit ?_ rfl; first | with_reducible assumption | with_reducible apply each_frame | with_reducible apply when'_frame | with_reducible apply leftHealth_frame | with_reducible apply modProt_frame | with_reducible apply setHealth_frame | with_reducible apply event_frame | with_reducible apply clearSideTest_frame | with_reducible apply dropOldSends_frame | with_reducible apply parkIdent_frame | with_reducible apply circSwitch_frame | with_reducible apply loadEpochs_frame | with_reducible apply setOptic_frame | with_reducible apply raiseVoted_frame | with_reducible apply setVotes_frame| split)

theorem noteSwitch_frame {m : Nat} {r u : State} {x0 x1} (h : Frame m r u) (hm : m &&& 32768 = 32768) : Frame m r (noteSwitch x0 x1 u) := by
  unfold noteSwitch
  try dsimp only
  repeat' first
    | with_reducible assumption
    | intro _
    | exact land_trans hm rfl
    | exact testBit_of_land hm (by decide)
    | with_reducible apply modProt_frame
    | exact Or.inr (fun _ => rfl)
    | exact Or.inl (testBit_of_land hm (by decide))
    | exact Or.inr (fun _ => by (try dsimp only); split <;> rfl)
    | exact fun _ _ e => e
    | exact fun _ e => e
    | with_reducible apply ite_frame
    | (split <;> try (rename_i hq; replace hq := congrArg Prod.snd hq; dsimp only at hq; subst hq))
    | (rename_i hq; replace hq := congrArg Prod.snd hq; dsimp only at hq; subst hq)
    | (rename_i hq; injection hq with hq; subst hq)

theorem oldSideDown_frame {m : Nat} {r u : State} (h : Frame m r u) (hm : m &&& 84731660851230 = 84731660851230) : Frame m r (oldSideDown u) := by
  unfold oldSideDown
  try dsimp only
  repeat' first
    | with_reducible assumption
    | intro _
    | exact land_trans hm rfl
    | exact testBit_of_land hm (by decide)
    | with_reducible apply when'_frame
    | with_reducible apply sideDomainDown_frame
    | with_reducible apply setOptic_frame
    | with_reducible apply setVotes_frame
    | with_reducible apply ite_frame
    | (split <;> try (rename_i hq; replace hq := congrArg Prod.snd hq; dsimp only at hq; subst hq))
    | (rename_i hq; replace hq := congrArg Prod.snd hq; dsimp only at hq; subst hq)
    | (rename_i hq; injection hq with hq; subst hq)

theorem switchDone_frame {m : Nat} {r u : State} (h : Frame m r u) (hm : m &&& 84731660852254 = 84731660852254) : Frame m r (switchDone u) := by
  unfold switchDone
  try dsimp only
  repeat' first
    | with_reducible assumption
    | intro _
    | exact land_trans hm rfl
    | exact testBit_of_land hm (by decide)
    | with_reducible apply each_frame
    | with_reducible apply lineFound_frame
    | with_reducible apply startIdent_frame
    | with_reducible apply oldSideDown_frame
    | with_reducible apply noteSwitch_frame
    | with_reducible apply count_frame
    | with_reducible apply event_frame
    | with_reducible apply ite_frame
    | (split <;> try (rename_i hq; replace hq := congrArg Prod.snd hq; dsimp only at hq; subst hq))
    | (rename_i hq; replace hq := congrArg Prod.snd hq; dsimp only at hq; subst hq)
    | (rename_i hq; injection hq with hq; subst hq)

theorem switchFail_frame {m : Nat} {r u : State} (h : Frame m r u) (hm : m &&& 84731660851230 = 84731660851230) : Frame m r (switchFail u) := by
  unfold switchFail
  try dsimp only
  repeat' first
    | with_reducible assumption
    | intro _
    | exact land_trans hm rfl
    | exact testBit_of_land hm (by decide)
    | with_reducible apply each_frame
    | with_reducible apply startIdent_frame
    | with_reducible apply oldSideDown_frame
    | with_reducible apply setHealth_frame
    | with_reducible apply noteSwitch_frame
    | with_reducible apply count_frame
    | with_reducible apply event_frame
    | with_reducible apply ite_frame
    | (split <;> try (rename_i hq; replace hq := congrArg Prod.snd hq; dsimp only at hq; subst hq))
    | (rename_i hq; replace hq := congrArg Prod.snd hq; dsimp only at hq; subst hq)
    | (rename_i hq; injection hq with hq; subst hq)

end Sys2Proof.Machine
end

