-- ==== Sys2Proof/Laws/FrameClassify.lean ====
section
/-! SUPPORT. The frames of the operations of Machine/Classify.lean: each changes nothing outside its mask (see Laws/Frame.lean). -/
set_option Elab.async false
set_option linter.all false

namespace Sys2Proof.Machine

theorem matchBits_frame {m : Nat} {r u : State} {x0 x1 x2} (h : Frame m r u) (hm : m &&& 71536983676936 = 71536983676936) : Frame m r (matchBits x0 x1 x2 u).2 := by
  unfold matchBits
  try dsimp only
  repeat' first
    | with_reducible assumption
    | intro _
    | exact land_trans hm rfl
    | exact testBit_of_land hm (by decide)
    | with_reducible apply count_frame
    | with_reducible apply wakeDomain_frame
    | with_reducible apply ite_frame
    | (split <;> try (rename_i hq; replace hq := congrArg Prod.snd hq; dsimp only at hq; subst hq))
    | (rename_i hq; replace hq := congrArg Prod.snd hq; dsimp only at hq; subst hq)
    | (rename_i hq; injection hq with hq; subst hq)

theorem learnFrame_frame {m : Nat} {r u : State} {x0 x1} (h : Frame m r u) (hm : m &&& 33554440 = 33554440) : Frame m r (learnFrame x0 x1 u) := by
  unfold learnFrame
  try dsimp only
  repeat' first
    | with_reducible assumption
    | intro _
    | exact land_trans hm rfl
    | exact testBit_of_land hm (by decide)
    | with_reducible apply learn_frame
    | with_reducible apply ite_frame
    | (split <;> try (rename_i hq; replace hq := congrArg Prod.snd hq; dsimp only at hq; subst hq))
    | (rename_i hq; replace hq := congrArg Prod.snd hq; dsimp only at hq; subst hq)
    | (rename_i hq; injection hq with hq; subst hq)

theorem exception_frame {m : Nat} {r u : State} {x0 x1 x2 x3 x4} (h : Frame m r u) (hm : m &&& 33554432 = 33554432) : Frame m r (exception x0 x1 x2 x3 x4 u) := by
  unfold exception
  try dsimp only
  repeat' first
    | with_reducible assumption
    | intro _
    | exact land_trans hm rfl
    | exact testBit_of_land hm (by decide)
    | with_reducible apply offerException_frame
    | with_reducible apply ite_frame
    | (split <;> try (rename_i hq; replace hq := congrArg Prod.snd hq; dsimp only at hq; subst hq))
    | (rename_i hq; replace hq := congrArg Prod.snd hq; dsimp only at hq; subst hq)
    | (rename_i hq; injection hq with hq; subst hq)

theorem forwardFrame_frame {m : Nat} {r u : State} {x0 x1 x2 x3 x4 x5} (h : Frame m r u) (hm : m &&& 84731393366030 = 84731393366030) : Frame m r (forwardFrame x0 x1 x2 x3 x4 x5 u) := by
  unfold forwardFrame
  try dsimp only
  repeat' first
    | with_reducible assumption
    | intro _
    | exact land_trans hm rfl
    | exact testBit_of_land hm (by decide)
    | with_reducible apply police_frame
    | with_reducible apply cutThrough_frame
    | with_reducible apply bridge_frame
    | with_reducible apply ite_frame
    | (split <;> try (rename_i hq; replace hq := congrArg Prod.snd hq; dsimp only at hq; subst hq))
    | (rename_i hq; replace hq := congrArg Prod.snd hq; dsimp only at hq; subst hq)
    | (rename_i hq; injection hq with hq; subst hq)

theorem applyRule_frame {m : Nat} {r u : State} {x0 x1 x2 x3 x4} (h : Frame m r u) (hm : m &&& 84731426920462 = 84731426920462) : Frame m r (applyRule x0 x1 x2 x3 x4 u) := by
  unfold applyRule
  try dsimp only
  repeat' first
    | with_reducible assumption
    | intro _
    | exact land_trans hm rfl
    | exact testBit_of_land hm (by decide)
    | with_reducible apply count_frame
    | with_reducible apply exception_frame
    | with_reducible apply learnFrame_frame
    | with_reducible apply forwardFrame_frame
    | with_reducible apply ite_frame
    | (split <;> try (rename_i hq; replace hq := congrArg Prod.snd hq; dsimp only at hq; subst hq))
    | (rename_i hq; replace hq := congrArg Prod.snd hq; dsimp only at hq; subst hq)
    | (rename_i hq; injection hq with hq; subst hq)

theorem classifyStored_frame {m : Nat} {r u : State} {x0 x1} (h : Frame m r u) (hm : m &&& 84731426920462 = 84731426920462) : Frame m r (classifyStored x0 x1 u) := by
  unfold classifyStored
  try dsimp only
  repeat' first
    | with_reducible assumption
    | intro _
    | exact land_trans hm rfl
    | exact testBit_of_land hm (by decide)
    | with_reducible apply when'_frame
    | with_reducible apply exception_frame
    | with_reducible apply count_frame
    | with_reducible apply modCls_frame
    | with_reducible apply learnFrame_frame
    | with_reducible apply tallyArrive_frame
    | with_reducible apply matchBits_frame
    | with_reducible apply applyRule_frame
    | with_reducible apply ite_frame
    | (split <;> try (rename_i hq; replace hq := congrArg Prod.snd hq; dsimp only at hq; subst hq))
    | (rename_i hq; replace hq := congrArg Prod.snd hq; dsimp only at hq; subst hq)
    | (rename_i hq; injection hq with hq; subst hq)

theorem classifyExpress_frame {m : Nat} {r u : State} {x0 x1 x2 x3 x4 x5} (h : Frame m r u) (hm : m &&& 83563187423246 = 83563187423246) : Frame m r (classifyExpress x0 x1 x2 x3 x4 x5 u) := by
  unfold classifyExpress
  try dsimp only
  repeat' first
    | with_reducible assumption
    | intro _
    | exact land_trans hm rfl
    | exact testBit_of_land hm (by decide)
    | with_reducible apply when'_frame
    | with_reducible apply count_frame
    | with_reducible apply police_frame
    | with_reducible apply cutThrough_frame
    | with_reducible apply exception_frame
    | with_reducible apply learnFrame_frame
    | with_reducible apply ite_frame
    | (split <;> try (rename_i hq; replace hq := congrArg Prod.snd hq; dsimp only at hq; subst hq))
    | (rename_i hq; replace hq := congrArg Prod.snd hq; dsimp only at hq; subst hq)
    | (rename_i hq; injection hq with hq; subst hq)

theorem classifyOne_frame {m : Nat} {r u : State} {x0 x1} (h : Frame m r u) (hm : m &&& 84731426920462 = 84731426920462) : Frame m r (classifyOne x0 x1 u) := by
  unfold classifyOne
  try dsimp only
  repeat' first
    | with_reducible assumption
    | intro _
    | exact land_trans hm rfl
    | exact testBit_of_land hm (by decide)
    | with_reducible apply classifyExpress_frame
    | with_reducible apply classifyStored_frame
    | with_reducible apply ite_frame
    | (split <;> try (rename_i hq; replace hq := congrArg Prod.snd hq; dsimp only at hq; subst hq))
    | (rename_i hq; replace hq := congrArg Prod.snd hq; dsimp only at hq; subst hq)
    | (rename_i hq; injection hq with hq; subst hq)

theorem classifyFrame_frame {m : Nat} {r u : State} {x0} (h : Frame m r u) (hm : m &&& 84731431114766 = 84731431114766) : Frame m r (classifyFrame x0 u) := by
  unfold classifyFrame
  try dsimp only
  repeat' first
    | with_reducible assumption
    | intro _
    | exact land_trans hm rfl
    | exact testBit_of_land hm (by decide)
    | with_reducible apply classifyOne_frame
    | with_reducible apply freeTubsOf_frame
    | with_reducible apply ite_frame
    | (split <;> try (rename_i hq; replace hq := congrArg Prod.snd hq; dsimp only at hq; subst hq))
    | (rename_i hq; replace hq := congrArg Prod.snd hq; dsimp only at hq; subst hq)
    | (rename_i hq; injection hq with hq; subst hq)
    | (with_reducible refine Frame.lit ?_ rfl; first | with_reducible assumption | with_reducible apply classifyOne_frame | with_reducible apply freeTubsOf_frame| split)

theorem circPacketRow_frame {m : Nat} {r u : State} {x0} (h : Frame m r u) (hm : m &&& 167772168 = 167772168) : Frame m r (circPacketRow x0 u) := by
  unfold circPacketRow
  try dsimp only
  repeat' first
    | with_reducible assumption
    | intro _
    | exact land_trans hm rfl
    | exact testBit_of_land hm (by decide)
    | with_reducible apply circPacket_frame
    | with_reducible apply modCls_frame
    | with_reducible apply ite_frame
    | (split <;> try (rename_i hq; replace hq := congrArg Prod.snd hq; dsimp only at hq; subst hq))
    | (rename_i hq; replace hq := congrArg Prod.snd hq; dsimp only at hq; subst hq)
    | (rename_i hq; injection hq with hq; subst hq)

end Sys2Proof.Machine
end

