-- ==== Sys2Proof/Laws/FrameGov.lean ====
section
/-! SUPPORT. The frames of the operations of Machine/Gov.lean: each changes nothing outside its mask (see Laws/Frame.lean). -/
set_option Elab.async false
set_option linter.all false

namespace Sys2Proof.Machine

theorem shedBlock_frame {m : Nat} {r u : State} {x0} (h : Frame m r u) (hm : m &&& 1576972 = 1576972) : Frame m r (shedBlock x0 u) := by
  unfold shedBlock
  try dsimp only
  repeat' first
    | with_reducible assumption
    | intro _
    | exact land_trans hm rfl
    | exact testBit_of_land hm (by decide)
    | with_reducible apply each_frame
    | with_reducible apply count_frame
    | with_reducible apply lpiEnter_frame
    | with_reducible apply modPwr_frame
    | exact Or.inr (fun _ => rfl)
    | exact Or.inl (testBit_of_land hm (by decide))
    | exact Or.inr (fun _ => by (try dsimp only); split <;> rfl)
    | exact fun _ _ e => e
    | exact fun _ e => e
    | with_reducible apply ite_frame
    | (split <;> try (rename_i hq; replace hq := congrArg Prod.snd hq; dsimp only at hq; subst hq))
    | (rename_i hq; replace hq := congrArg Prod.snd hq; dsimp only at hq; subst hq)
    | (rename_i hq; injection hq with hq; subst hq)
    | (with_reducible refine Frame.lit ?_ rfl; first | with_reducible assumption | with_reducible apply each_frame | with_reducible apply count_frame | with_reducible apply lpiEnter_frame | with_reducible apply modPwr_frame| split)

theorem shedAll_frame {m : Nat} {r u : State} (h : Frame m r u) (hm : m &&& 1576972 = 1576972) : Frame m r (shedAll u) := by
  unfold shedAll
  try dsimp only
  repeat' first
    | with_reducible assumption
    | intro _
    | exact land_trans hm rfl
    | exact testBit_of_land hm (by decide)
    | with_reducible apply each_frame
    | with_reducible apply shedBlock_frame
    | with_reducible apply ite_frame
    | (split <;> try (rename_i hq; replace hq := congrArg Prod.snd hq; dsimp only at hq; subst hq))
    | (rename_i hq; replace hq := congrArg Prod.snd hq; dsimp only at hq; subst hq)
    | (rename_i hq; injection hq with hq; subst hq)

theorem shedEnd_frame {m : Nat} {r u : State} (h : Frame m r u) (hm : m &&& 1576972 = 1576972) : Frame m r (shedEnd u) := by
  unfold shedEnd
  try dsimp only
  repeat' first
    | with_reducible assumption
    | intro _
    | exact land_trans hm rfl
    | exact testBit_of_land hm (by decide)
    | with_reducible apply each_frame
    | with_reducible apply lpiLeave_frame
    | with_reducible apply ite_frame
    | (split <;> try (rename_i hq; replace hq := congrArg Prod.snd hq; dsimp only at hq; subst hq))
    | (rename_i hq; replace hq := congrArg Prod.snd hq; dsimp only at hq; subst hq)
    | (rename_i hq; injection hq with hq; subst hq)
    | (with_reducible refine Frame.lit ?_ rfl; first | with_reducible assumption | with_reducible apply each_frame | with_reducible apply lpiLeave_frame| split)

theorem payTick_frame {m : Nat} {r u : State} {x0 x1} (h : Frame m r u) (hm : m &&& 70368745756684 = 70368745756684) : Frame m r (payTick x0 x1 u) := by
  unfold payTick
  try dsimp only
  repeat' first
    | with_reducible assumption
    | intro _
    | exact land_trans hm rfl
    | exact testBit_of_land hm (by decide)
    | with_reducible apply when'_frame
    | with_reducible apply shedAll_frame
    | with_reducible apply event_frame
    | with_reducible apply count_frame
    | with_reducible apply modPwr_frame
    | exact Or.inr (fun _ => rfl)
    | exact Or.inl (testBit_of_land hm (by decide))
    | exact Or.inr (fun _ => by (try dsimp only); split <;> rfl)
    | exact fun _ _ e => e
    | exact fun _ e => e
    | with_reducible apply ite_frame
    | (split <;> try (rename_i hq; replace hq := congrArg Prod.snd hq; dsimp only at hq; subst hq))
    | (rename_i hq; replace hq := congrArg Prod.snd hq; dsimp only at hq; subst hq)
    | (rename_i hq; injection hq with hq; subst hq)

theorem govGrant_frame {m : Nat} {r u : State} {x0} (h : Frame m r u) (hm : m &&& 70368745756684 = 70368745756684) : Frame m r (govGrant x0 u) := by
  unfold govGrant
  try dsimp only
  repeat' first
    | with_reducible assumption
    | intro _
    | exact land_trans hm rfl
    | exact testBit_of_land hm (by decide)
    | with_reducible apply modPwr_frame
    | with_reducible apply payTick_frame
    | exact Or.inr (fun _ => rfl)
    | exact Or.inl (testBit_of_land hm (by decide))
    | exact Or.inr (fun _ => by (try dsimp only); split <;> rfl)
    | exact fun _ _ e => e
    | exact fun _ e => e
    | with_reducible apply ite_frame
    | (split <;> try (rename_i hq; replace hq := congrArg Prod.snd hq; dsimp only at hq; subst hq))
    | (rename_i hq; replace hq := congrArg Prod.snd hq; dsimp only at hq; subst hq)
    | (rename_i hq; injection hq with hq; subst hq)

theorem govLate_frame {m : Nat} {r u : State} (h : Frame m r u) (hm : m &&& 4096 = 4096) : Frame m r (govLate u) := by
  unfold govLate
  try dsimp only
  repeat' first
    | with_reducible assumption
    | intro _
    | exact land_trans hm rfl
    | exact testBit_of_land hm (by decide)
    | with_reducible apply modPwr_frame
    | exact Or.inr (fun _ => rfl)
    | exact Or.inl (testBit_of_land hm (by decide))
    | exact Or.inr (fun _ => by (try dsimp only); split <;> rfl)
    | exact fun _ _ e => e
    | exact fun _ e => e
    | with_reducible apply ite_frame
    | (split <;> try (rename_i hq; replace hq := congrArg Prod.snd hq; dsimp only at hq; subst hq))
    | (rename_i hq; replace hq := congrArg Prod.snd hq; dsimp only at hq; subst hq)
    | (rename_i hq; injection hq with hq; subst hq)

theorem formCaps_frame {m : Nat} {r u : State} (h : Frame m r u) (hm : m &&& 524288 = 524288) : Frame m r (formCaps u) := by
  unfold formCaps
  try dsimp only
  repeat' first
    | with_reducible assumption
    | intro _
    | exact land_trans hm rfl
    | exact testBit_of_land hm (by decide)
    | with_reducible apply each_frame
    | with_reducible apply setAllocQ_frame
    | with_reducible apply modSched_frame
    | with_reducible apply ite_frame
    | (split <;> try (rename_i hq; replace hq := congrArg Prod.snd hq; dsimp only at hq; subst hq))
    | (rename_i hq; replace hq := congrArg Prod.snd hq; dsimp only at hq; subst hq)
    | (rename_i hq; injection hq with hq; subst hq)

theorem schedPlan_frame {m : Nat} {r u : State} (h : Frame m r u) (hm : m &&& 34078720 = 34078720) : Frame m r (schedPlan u) := by
  unfold schedPlan
  try dsimp only
  repeat' first
    | with_reducible assumption
    | intro _
    | exact land_trans hm rfl
    | exact testBit_of_land hm (by decide)
    | with_reducible apply settleExc_frame
    | with_reducible apply formCaps_frame
    | with_reducible apply ite_frame
    | (split <;> try (rename_i hq; replace hq := congrArg Prod.snd hq; dsimp only at hq; subst hq))
    | (rename_i hq; replace hq := congrArg Prod.snd hq; dsimp only at hq; subst hq)
    | (rename_i hq; injection hq with hq; subst hq)
    | (with_reducible refine Frame.lit ?_ rfl; first | with_reducible assumption | with_reducible apply settleExc_frame | with_reducible apply formCaps_frame| split)

theorem planEdge_frame {m : Nat} {r u : State} (h : Frame m r u) (hm : m &&& 528384 = 528384) : Frame m r (planEdge u) := by
  unfold planEdge
  try dsimp only
  repeat' first
    | with_reducible assumption
    | intro _
    | exact land_trans hm rfl
    | exact testBit_of_land hm (by decide)
    | with_reducible apply ite_frame
    | (split <;> try (rename_i hq; replace hq := congrArg Prod.snd hq; dsimp only at hq; subst hq))
    | (rename_i hq; replace hq := congrArg Prod.snd hq; dsimp only at hq; subst hq)
    | (rename_i hq; injection hq with hq; subst hq)
    | (with_reducible refine Frame.lit ?_ rfl; first | with_reducible assumption | split)

end Sys2Proof.Machine
end

