-- ==== Sys2Proof/Laws/FrameSteps.lean ====
section
/-! SUPPORT. The frames of the operations of Machine/Steps.lean: each changes nothing outside its mask (see Laws/Frame.lean). -/
set_option Elab.async false
set_option linter.all false

namespace Sys2Proof.Machine

theorem refreshVotes_frame {m : Nat} {r u : State} (h : Frame m r u) (hm : m &&& 1168231108608 = 1168231108608) : Frame m r (refreshVotes u) := by
  unfold refreshVotes
  try dsimp only
  repeat' first
    | with_reducible assumption
    | intro _
    | exact land_trans hm rfl
    | exact testBit_of_land hm (by decide)
    | with_reducible apply raiseVoted_frame
    | with_reducible apply setVotes_frame
    | with_reducible apply ite_frame
    | (split <;> try (rename_i hq; replace hq := congrArg Prod.snd hq; dsimp only at hq; subst hq))
    | (rename_i hq; replace hq := congrArg Prod.snd hq; dsimp only at hq; subst hq)
    | (rename_i hq; injection hq with hq; subst hq)

theorem noteIdle_frame {m : Nat} {r u : State} (h : Frame m r u) (hm : m &&& 4096 = 4096) : Frame m r (noteIdle u) := by
  unfold noteIdle
  try dsimp only
  repeat' first
    | with_reducible assumption
    | intro _
    | exact land_trans hm rfl
    | exact testBit_of_land hm (by decide)
    | with_reducible apply modPwr_frame
    | exact Or.inr (fun _ => rfl)
    | exact Or.inl (testBit_of_land hm (by decide))
    | exact Or.inr (fun _ => by (try dsimp only); split <;> rfl)
    | exact fun _ _ e => e
    | exact fun _ e => e
    | with_reducible apply ite_frame
    | (split <;> try (rename_i hq; replace hq := congrArg Prod.snd hq; dsimp only at hq; subst hq))
    | (rename_i hq; replace hq := congrArg Prod.snd hq; dsimp only at hq; subst hq)
    | (rename_i hq; injection hq with hq; subst hq)

theorem evaluateTarget_frame {m : Nat} {r u : State} (h : Frame m r u) (hm : m &&& 1168231108608 = 1168231108608) : Frame m r (evaluateTarget u) := by
  unfold evaluateTarget
  try dsimp only
  repeat' first
    | with_reducible assumption
    | intro _
    | exact land_trans hm rfl
    | exact testBit_of_land hm (by decide)
    | with_reducible apply when'_frame
    | with_reducible apply refreshVotes_frame
    | with_reducible apply setVotes_frame
    | with_reducible apply modPwr_frame
    | exact Or.inr (fun _ => rfl)
    | exact Or.inl (testBit_of_land hm (by decide))
    | exact Or.inr (fun _ => by (try dsimp only); split <;> rfl)
    | exact fun _ _ e => e
    | exact fun _ e => e
    | with_reducible apply ite_frame
    | (split <;> try (rename_i hq; replace hq := congrArg Prod.snd hq; dsimp only at hq; subst hq))
    | (rename_i hq; replace hq := congrArg Prod.snd hq; dsimp only at hq; subst hq)
    | (rename_i hq; injection hq with hq; subst hq)

theorem domainCameUp_frame {m : Nat} {r u : State} {x0} (h : Frame m r u) (hm : m &&& 83640730728478 = 83640730728478) : Frame m r (domainCameUp x0 u) := by
  unfold domainCameUp
  try dsimp only
  repeat' first
    | with_reducible assumption
    | intro _
    | exact land_trans hm rfl
    | exact testBit_of_land hm (by decide)
    | with_reducible apply sideDomainUp_frame
    | with_reducible apply laneDomainUp_frame
    | with_reducible apply setDom_frame
    | with_reducible apply ite_frame
    | (split <;> try (rename_i hq; replace hq := congrArg Prod.snd hq; dsimp only at hq; subst hq))
    | (rename_i hq; replace hq := congrArg Prod.snd hq; dsimp only at hq; subst hq)
    | (rename_i hq; injection hq with hq; subst hq)

theorem domainWentOff_frame {m : Nat} {r u : State} {x0} (h : Frame m r u) (hm : m &&& 83635371481118 = 83635371481118) : Frame m r (domainWentOff x0 u) := by
  unfold domainWentOff
  try dsimp only
  repeat' first
    | with_reducible assumption
    | intro _
    | exact land_trans hm rfl
    | exact testBit_of_land hm (by decide)
    | with_reducible apply each_frame
    | with_reducible apply sideDomainDown_frame
    | with_reducible apply laneDomainDown_frame
    | with_reducible apply portDown_frame
    | with_reducible apply setDom_frame
    | with_reducible apply chainLeave_frame
    | with_reducible apply hostDown_frame
    | with_reducible apply ite_frame
    | (split <;> try (rename_i hq; replace hq := congrArg Prod.snd hq; dsimp only at hq; subst hq))
    | (rename_i hq; replace hq := congrArg Prod.snd hq; dsimp only at hq; subst hq)
    | (rename_i hq; injection hq with hq; subst hq)

theorem reachDom_frame {m : Nat} {r u : State} {x0 x1} (h : Frame m r u) (hm : m &&& 83643961423902 = 83643961423902) : Frame m r (reachDom x0 x1 u) := by
  unfold reachDom
  try dsimp only
  repeat' first
    | with_reducible assumption
    | intro _
    | exact land_trans hm rfl
    | exact testBit_of_land hm (by decide)
    | with_reducible apply domainWentOff_frame
    | with_reducible apply setDom_frame
    | with_reducible apply domainCameUp_frame
    | with_reducible apply ite_frame
    | (split <;> try (rename_i hq; replace hq := congrArg Prod.snd hq; dsimp only at hq; subst hq))
    | (rename_i hq; replace hq := congrArg Prod.snd hq; dsimp only at hq; subst hq)
    | (rename_i hq; injection hq with hq; subst hq)

theorem beginEntry_frame {m : Nat} {r u : State} {x0} (h : Frame m r u) (hm : m &&& 68719480832 = 68719480832) : Frame m r (beginEntry x0 u) := by
  unfold beginEntry
  try dsimp only
  repeat' first
    | with_reducible assumption
    | intro _
    | exact land_trans hm rfl
    | exact testBit_of_land hm (by decide)
    | with_reducible apply each_frame
    | with_reducible apply setDom_frame
    | with_reducible apply modPwr_frame
    | exact Or.inr (fun _ => rfl)
    | exact Or.inl (testBit_of_land hm (by decide))
    | exact Or.inr (fun _ => by (try dsimp only); split <;> rfl)
    | exact fun _ _ e => e
    | exact fun _ e => e
    | with_reducible apply ite_frame
    | (split <;> try (rename_i hq; replace hq := congrArg Prod.snd hq; dsimp only at hq; subst hq))
    | (rename_i hq; replace hq := congrArg Prod.snd hq; dsimp only at hq; subst hq)
    | (rename_i hq; injection hq with hq; subst hq)

theorem orderEntry_frame {m : Nat} {r u : State} {x0} (h : Frame m r u) (hm : m &&& 1099511631872 = 1099511631872) : Frame m r (orderEntry x0 u) := by
  unfold orderEntry
  try dsimp only
  repeat' first
    | with_reducible assumption
    | intro _
    | exact land_trans hm rfl
    | exact testBit_of_land hm (by decide)
    | with_reducible apply setVotes_frame
    | with_reducible apply modPwr_frame
    | exact Or.inr (fun _ => rfl)
    | exact Or.inl (testBit_of_land hm (by decide))
    | exact Or.inr (fun _ => by (try dsimp only); split <;> rfl)
    | exact fun _ _ e => e
    | exact fun _ e => e
    | with_reducible apply ite_frame
    | (split <;> try (rename_i hq; replace hq := congrArg Prod.snd hq; dsimp only at hq; subst hq))
    | (rename_i hq; replace hq := congrArg Prod.snd hq; dsimp only at hq; subst hq)
    | (rename_i hq; injection hq with hq; subst hq)

theorem judgeEntry_frame {m : Nat} {r u : State} {x0} (h : Frame m r u) (hm : m &&& 71536975288328 = 71536975288328) : Frame m r (judgeEntry x0 u) := by
  unfold judgeEntry
  try dsimp only
  repeat' first
    | with_reducible assumption
    | intro _
    | exact land_trans hm rfl
    | exact testBit_of_land hm (by decide)
    | with_reducible apply refreshVotes_frame
    | with_reducible apply refuseEntry_frame
    | with_reducible apply beginEntry_frame
    | with_reducible apply ite_frame
    | (split <;> try (rename_i hq; replace hq := congrArg Prod.snd hq; dsimp only at hq; subst hq))
    | (rename_i hq; replace hq := congrArg Prod.snd hq; dsimp only at hq; subst hq)
    | (rename_i hq; injection hq with hq; subst hq)

theorem ladderEntry_frame {m : Nat} {r u : State} (h : Frame m r u) (hm : m &&& 71536975288328 = 71536975288328) : Frame m r (ladderEntry u) := by
  unfold ladderEntry
  try dsimp only
  repeat' first
    | with_reducible assumption
    | intro _
    | exact land_trans hm rfl
    | exact testBit_of_land hm (by decide)
    | with_reducible apply refreshVotes_frame
    | with_reducible apply modPwr_frame
    | with_reducible apply orderEntry_frame
    | with_reducible apply beginEntry_frame
    | with_reducible apply judgeEntry_frame
    | exact Or.inr (fun _ => rfl)
    | exact Or.inl (testBit_of_land hm (by decide))
    | exact Or.inr (fun _ => by (try dsimp only); split <;> rfl)
    | exact fun _ _ e => e
    | exact fun _ e => e
    | with_reducible apply ite_frame
    | (split <;> try (rename_i hq; replace hq := congrArg Prod.snd hq; dsimp only at hq; subst hq))
    | (rename_i hq; replace hq := congrArg Prod.snd hq; dsimp only at hq; subst hq)
    | (rename_i hq; injection hq with hq; subst hq)

theorem ladderExit_frame {m : Nat} {r u : State} (h : Frame m r u) (hm : m &&& 1168231108608 = 1168231108608) : Frame m r (ladderExit u) := by
  unfold ladderExit
  try dsimp only
  repeat' first
    | with_reducible assumption
    | intro _
    | exact land_trans hm rfl
    | exact testBit_of_land hm (by decide)
    | with_reducible apply each_frame
    | with_reducible apply refreshVotes_frame
    | with_reducible apply modPwr_frame
    | with_reducible apply setDom_frame
    | exact Or.inr (fun _ => rfl)
    | exact Or.inl (testBit_of_land hm (by decide))
    | exact Or.inr (fun _ => by (try dsimp only); split <;> rfl)
    | exact fun _ _ e => e
    | exact fun _ e => e
    | with_reducible apply ite_frame
    | (split <;> try (rename_i hq; replace hq := congrArg Prod.snd hq; dsimp only at hq; subst hq))
    | (rename_i hq; replace hq := congrArg Prod.snd hq; dsimp only at hq; subst hq)
    | (rename_i hq; injection hq with hq; subst hq)

theorem reachLadder_frame {m : Nat} {r u : State} {x0 x1} (h : Frame m r u) (hm : m &&& 85568106773022 = 85568106773022) : Frame m r (reachLadder x0 x1 u) := by
  unfold reachLadder
  try dsimp only
  repeat' first
    | with_reducible assumption
    | intro _
    | exact land_trans hm rfl
    | exact testBit_of_land hm (by decide)
    | with_reducible apply each_frame
    | with_reducible apply when'_frame
    | with_reducible apply refreshVotes_frame
    | with_reducible apply modPwr_frame
    | with_reducible apply resumeFromAon_frame
    | with_reducible apply ladderEvent_frame
    | with_reducible apply lanesLadder_frame
    | with_reducible apply gateShed_frame
    | with_reducible apply reachDom_frame
    | exact Or.inr (fun _ => rfl)
    | exact Or.inl (testBit_of_land hm (by decide))
    | exact Or.inr (fun _ => by (try dsimp only); split <;> rfl)
    | exact fun _ _ e => e
    | exact fun _ e => e
    | with_reducible apply ite_frame
    | (split <;> try (rename_i hq; replace hq := congrArg Prod.snd hq; dsimp only at hq; subst hq))
    | (rename_i hq; replace hq := congrArg Prod.snd hq; dsimp only at hq; subst hq)
    | (rename_i hq; injection hq with hq; subst hq)
    | (with_reducible refine Frame.lit ?_ rfl; first | with_reducible assumption | with_reducible apply each_frame | with_reducible apply when'_frame | with_reducible apply refreshVotes_frame | with_reducible apply modPwr_frame | with_reducible apply resumeFromAon_frame | with_reducible apply ladderEvent_frame | with_reducible apply lanesLadder_frame | with_reducible apply gateShed_frame | with_reducible apply reachDom_frame| split)

theorem evaluateHeld_frame {m : Nat} {r u : State} (h : Frame m r u) (hm : m &&& 71536975288328 = 71536975288328) : Frame m r (evaluateHeld u) := by
  unfold evaluateHeld
  try dsimp only
  repeat' first
    | with_reducible assumption
    | intro _
    | exact land_trans hm rfl
    | exact testBit_of_land hm (by decide)
    | with_reducible apply modPwr_frame
    | with_reducible apply ladderEntry_frame
    | with_reducible apply ladderExit_frame
    | exact Or.inr (fun _ => rfl)
    | exact Or.inl (testBit_of_land hm (by decide))
    | exact Or.inr (fun _ => by (try dsimp only); split <;> rfl)
    | exact fun _ _ e => e
    | exact fun _ e => e
    | with_reducible apply ite_frame
    | (split <;> try (rename_i hq; replace hq := congrArg Prod.snd hq; dsimp only at hq; subst hq))
    | (rename_i hq; replace hq := congrArg Prod.snd hq; dsimp only at hq; subst hq)
    | (rename_i hq; injection hq with hq; subst hq)

theorem ladderComplete_frame {m : Nat} {r u : State} (h : Frame m r u) (hm : m &&& 85568106773022 = 85568106773022) : Frame m r (ladderComplete u) := by
  unfold ladderComplete
  try dsimp only
  repeat' first
    | with_reducible assumption
    | intro _
    | exact land_trans hm rfl
    | exact testBit_of_land hm (by decide)
    | with_reducible apply evaluateHeld_frame
    | with_reducible apply reachLadder_frame
    | with_reducible apply ite_frame
    | (split <;> try (rename_i hq; replace hq := congrArg Prod.snd hq; dsimp only at hq; subst hq))
    | (rename_i hq; replace hq := congrArg Prod.snd hq; dsimp only at hq; subst hq)
    | (rename_i hq; injection hq with hq; subst hq)

theorem domainComplete_frame {m : Nat} {r u : State} {x0} (h : Frame m r u) (hm : m &&& 83643961423902 = 83643961423902) : Frame m r (domainComplete x0 u) := by
  unfold domainComplete
  try dsimp only
  repeat' first
    | with_reducible assumption
    | intro _
    | exact land_trans hm rfl
    | exact testBit_of_land hm (by decide)
    | with_reducible apply when'_frame
    | with_reducible apply setDom_frame
    | with_reducible apply domainCameUp_frame
    | with_reducible apply reachDom_frame
    | with_reducible apply ite_frame
    | (split <;> try (rename_i hq; replace hq := congrArg Prod.snd hq; dsimp only at hq; subst hq))
    | (rename_i hq; replace hq := congrArg Prod.snd hq; dsimp only at hq; subst hq)
    | (rename_i hq; injection hq with hq; subst hq)

theorem heldDrop_frame {m : Nat} {r u : State} {x0} (h : Frame m r u) (hm : m &&& 1168231108608 = 1168231108608) : Frame m r (heldDrop x0 u) := by
  unfold heldDrop
  try dsimp only
  repeat' first
    | with_reducible assumption
    | intro _
    | exact land_trans hm rfl
    | exact testBit_of_land hm (by decide)
    | with_reducible apply refreshVotes_frame
    | with_reducible apply setDom_frame
    | with_reducible apply ite_frame
    | (split <;> try (rename_i hq; replace hq := congrArg Prod.snd hq; dsimp only at hq; subst hq))
    | (rename_i hq; replace hq := congrArg Prod.snd hq; dsimp only at hq; subst hq)
    | (rename_i hq; injection hq with hq; subst hq)

theorem l4Overtemp_frame {m : Nat} {r u : State} {x0} (h : Frame m r u) (hm : m &&& 85568106773022 = 85568106773022) : Frame m r (l4Overtemp x0 u) := by
  unfold l4Overtemp
  try dsimp only
  repeat' first
    | with_reducible assumption
    | intro _
    | exact land_trans hm rfl
    | exact testBit_of_land hm (by decide)
    | with_reducible apply modPwr_frame
    | with_reducible apply reachLadder_frame
    | exact Or.inr (fun _ => rfl)
    | exact Or.inl (testBit_of_land hm (by decide))
    | exact Or.inr (fun _ => by (try dsimp only); split <;> rfl)
    | exact fun _ _ e => e
    | exact fun _ e => e
    | with_reducible apply ite_frame
    | (split <;> try (rename_i hq; replace hq := congrArg Prod.snd hq; dsimp only at hq; subst hq))
    | (rename_i hq; replace hq := congrArg Prod.snd hq; dsimp only at hq; subst hq)
    | (rename_i hq; injection hq with hq; subst hq)

theorem refuseMoving_frame {m : Nat} {r u : State} (h : Frame m r u) (hm : m &&& 71536975288328 = 71536975288328) : Frame m r (refuseMoving u) := by
  unfold refuseMoving
  try dsimp only
  repeat' first
    | with_reducible assumption
    | intro _
    | exact land_trans hm rfl
    | exact testBit_of_land hm (by decide)
    | with_reducible apply each_frame
    | with_reducible apply refuseEntry_frame
    | with_reducible apply refreshVotes_frame
    | with_reducible apply modPwr_frame
    | with_reducible apply setDom_frame
    | exact Or.inr (fun _ => rfl)
    | exact Or.inl (testBit_of_land hm (by decide))
    | exact Or.inr (fun _ => by (try dsimp only); split <;> rfl)
    | exact fun _ _ e => e
    | exact fun _ e => e
    | with_reducible apply ite_frame
    | (split <;> try (rename_i hq; replace hq := congrArg Prod.snd hq; dsimp only at hq; subst hq))
    | (rename_i hq; replace hq := congrArg Prod.snd hq; dsimp only at hq; subst hq)
    | (rename_i hq; injection hq with hq; subst hq)
    | (with_reducible refine Frame.lit ?_ rfl; first | with_reducible assumption | with_reducible apply each_frame | with_reducible apply refuseEntry_frame | with_reducible apply refreshVotes_frame | with_reducible apply modPwr_frame | with_reducible apply setDom_frame| split)

theorem dipLadder_frame {m : Nat} {r u : State} (h : Frame m r u) (hm : m &&& 71536975288328 = 71536975288328) : Frame m r (dipLadder u) := by
  unfold dipLadder
  try dsimp only
  repeat' first
    | with_reducible assumption
    | intro _
    | exact land_trans hm rfl
    | exact testBit_of_land hm (by decide)
    | with_reducible apply gateShed_frame
    | with_reducible apply refuseMoving_frame
    | with_reducible apply ite_frame
    | (split <;> try (rename_i hq; replace hq := congrArg Prod.snd hq; dsimp only at hq; subst hq))
    | (rename_i hq; replace hq := congrArg Prod.snd hq; dsimp only at hq; subst hq)
    | (rename_i hq; injection hq with hq; subst hq)

theorem wakeTimer_frame {m : Nat} {r u : State} (h : Frame m r u) (hm : m &&& 71536983676936 = 71536983676936) : Frame m r (wakeTimer u) := by
  unfold wakeTimer
  try dsimp only
  repeat' first
    | with_reducible assumption
    | intro _
    | exact land_trans hm rfl
    | exact testBit_of_land hm (by decide)
    | with_reducible apply wakeFires_frame
    | with_reducible apply setReg_frame
    | with_reducible apply ite_frame
    | (split <;> try (rename_i hq; replace hq := congrArg Prod.snd hq; dsimp only at hq; subst hq))
    | (rename_i hq; replace hq := congrArg Prod.snd hq; dsimp only at hq; subst hq)
    | (rename_i hq; injection hq with hq; subst hq)

theorem hostVoteWrite_frame {m : Nat} {r u : State} {x0} (h : Frame m r u) (hm : m &&& 70437463660552 = 70437463660552) : Frame m r (hostVoteWrite x0 u) := by
  unfold hostVoteWrite
  try dsimp only
  repeat' first
    | with_reducible assumption
    | intro _
    | exact land_trans hm rfl
    | exact testBit_of_land hm (by decide)
    | with_reducible apply each_frame
    | with_reducible apply raiseVoted_frame
    | with_reducible apply setReg_frame
    | with_reducible apply dropCold_frame
    | with_reducible apply domainDrop_frame
    | with_reducible apply ite_frame
    | (split <;> try (rename_i hq; replace hq := congrArg Prod.snd hq; dsimp only at hq; subst hq))
    | (rename_i hq; replace hq := congrArg Prod.snd hq; dsimp only at hq; subst hq)
    | (rename_i hq; injection hq with hq; subst hq)

theorem firedampTrip_frame {m : Nat} {r u : State} {x0 x1} (h : Frame m r u) (hm : m &&& 71537042397192 = 71537042397192) : Frame m r (firedampTrip x0 x1 u) := by
  unfold firedampTrip
  try dsimp only
  repeat' first
    | with_reducible assumption
    | intro _
    | exact land_trans hm rfl
    | exact testBit_of_land hm (by decide)
    | with_reducible apply gateShed_frame
    | with_reducible apply modPwr_frame
    | with_reducible apply event_frame
    | with_reducible apply count_frame
    | with_reducible apply ladderEntry_frame
    | exact Or.inr (fun _ => rfl)
    | exact Or.inl (testBit_of_land hm (by decide))
    | exact Or.inr (fun _ => by (try dsimp only); split <;> rfl)
    | exact fun _ _ e => e
    | exact fun _ e => e
    | with_reducible apply ite_frame
    | (split <;> try (rename_i hq; replace hq := congrArg Prod.snd hq; dsimp only at hq; subst hq))
    | (rename_i hq; replace hq := congrArg Prod.snd hq; dsimp only at hq; subst hq)
    | (rename_i hq; injection hq with hq; subst hq)
    | (with_reducible refine Frame.lit ?_ rfl; first | with_reducible assumption | with_reducible apply gateShed_frame | with_reducible apply modPwr_frame | with_reducible apply event_frame | with_reducible apply count_frame | with_reducible apply ladderEntry_frame| split)

theorem firedampClear_frame {m : Nat} {r u : State} {x0} (h : Frame m r u) (hm : m &&& 71536975288328 = 71536975288328) : Frame m r (firedampClear x0 u) := by
  unfold firedampClear
  try dsimp only
  repeat' first
    | with_reducible assumption
    | intro _
    | exact land_trans hm rfl
    | exact testBit_of_land hm (by decide)
    | with_reducible apply when'_frame
    | with_reducible apply event_frame
    | with_reducible apply modPwr_frame
    | with_reducible apply ladderExit_frame
    | with_reducible apply evaluateTarget_frame
    | with_reducible apply ungateShed_frame
    | exact Or.inr (fun _ => rfl)
    | exact Or.inl (testBit_of_land hm (by decide))
    | exact Or.inr (fun _ => by (try dsimp only); split <;> rfl)
    | exact fun _ _ e => e
    | exact fun _ e => e
    | with_reducible apply ite_frame
    | (split <;> try (rename_i hq; replace hq := congrArg Prod.snd hq; dsimp only at hq; subst hq))
    | (rename_i hq; replace hq := congrArg Prod.snd hq; dsimp only at hq; subst hq)
    | (rename_i hq; injection hq with hq; subst hq)

end Sys2Proof.Machine
end

