-- ==== Sys2Proof/Laws/FrameFaults.lean ====
section
/-! SUPPORT. The frames of the operations of Machine/Faults.lean: each changes nothing outside its mask (see Laws/Frame.lean). -/
set_option Elab.async false
set_option linter.all false

namespace Sys2Proof.Machine

theorem failDie_frame {m : Nat} {r u : State} {x0} (h : Frame m r u) (hm : m &&& 70368744180744 = 70368744180744) : Frame m r (failDie x0 u) := by
  unfold failDie
  try dsimp only
  repeat' first
    | with_reducible assumption
    | intro _
    | exact land_trans hm rfl
    | exact testBit_of_land hm (by decide)
    | with_reducible apply keepWrite_frame
    | with_reducible apply event_frame
    | with_reducible apply ite_frame
    | (split <;> try (rename_i hq; replace hq := congrArg Prod.snd hq; dsimp only at hq; subst hq))
    | (rename_i hq; replace hq := congrArg Prod.snd hq; dsimp only at hq; subst hq)
    | (rename_i hq; injection hq with hq; subst hq)
    | (with_reducible refine Frame.lit ?_ rfl; first | with_reducible assumption | with_reducible apply keepWrite_frame | with_reducible apply event_frame| split)

theorem failPackage_frame {m : Nat} {r u : State} {x0} (h : Frame m r u) (hm : m &&& 83562884376590 = 83562884376590) : Frame m r (failPackage x0 u) := by
  unfold failPackage
  try dsimp only
  repeat' first
    | with_reducible assumption
    | intro _
    | exact land_trans hm rfl
    | exact testBit_of_land hm (by decide)
    | with_reducible apply modAssay_frame
    | with_reducible apply discardDram_frame
    | exact Or.inr (fun _ => rfl)
    | exact Or.inl (testBit_of_land hm (by decide))
    | exact Or.inr (fun _ => by (try dsimp only); split <;> rfl)
    | exact fun _ _ e => e
    | exact fun _ e => e
    | with_reducible apply ite_frame
    | (split <;> try (rename_i hq; replace hq := congrArg Prod.snd hq; dsimp only at hq; subst hq))
    | (rename_i hq; replace hq := congrArg Prod.snd hq; dsimp only at hq; subst hq)
    | (rename_i hq; injection hq with hq; subst hq)

theorem drainBank_frame {m : Nat} {r u : State} {x0} (h : Frame m r u) (hm : m &&& 8192 = 8192) : Frame m r (drainBank x0 u) := by
  unfold drainBank
  try dsimp only
  repeat' first
    | with_reducible assumption
    | intro _
    | exact land_trans hm rfl
    | exact testBit_of_land hm (by decide)
    | with_reducible apply modAssay_frame
    | exact Or.inr (fun _ => rfl)
    | exact Or.inl (testBit_of_land hm (by decide))
    | exact Or.inr (fun _ => by (try dsimp only); split <;> rfl)
    | exact fun _ _ e => e
    | exact fun _ e => e
    | with_reducible apply ite_frame
    | (split <;> try (rename_i hq; replace hq := congrArg Prod.snd hq; dsimp only at hq; subst hq))
    | (rename_i hq; replace hq := congrArg Prod.snd hq; dsimp only at hq; subst hq)
    | (rename_i hq; injection hq with hq; subst hq)

theorem markSide_frame {m : Nat} {r u : State} (h : Frame m r u) (hm : m &&& 32768 = 32768) : Frame m r (markSide u) := by
  unfold markSide
  try dsimp only
  repeat' first
    | with_reducible assumption
    | intro _
    | exact land_trans hm rfl
    | exact testBit_of_land hm (by decide)
    | with_reducible apply leftHealth_frame
    | with_reducible apply modProt_frame
    | exact Or.inr (fun _ => rfl)
    | exact Or.inl (testBit_of_land hm (by decide))
    | exact Or.inr (fun _ => by (try dsimp only); split <;> rfl)
    | exact fun _ _ e => e
    | exact fun _ e => e
    | with_reducible apply ite_frame
    | (split <;> try (rename_i hq; replace hq := congrArg Prod.snd hq; dsimp only at hq; subst hq))
    | (rename_i hq; replace hq := congrArg Prod.snd hq; dsimp only at hq; subst hq)
    | (rename_i hq; injection hq with hq; subst hq)

theorem faultAction_frame {m : Nat} {r u : State} {x0 x1} (h : Frame m r u) (hm : m &&& 83573086071822 = 83573086071822) : Frame m r (faultAction x0 x1 u).2 := by
  unfold faultAction
  try dsimp only
  repeat' first
    | with_reducible assumption
    | intro _
    | exact land_trans hm rfl
    | exact testBit_of_land hm (by decide)
    | with_reducible apply drainBank_frame
    | with_reducible apply failPackage_frame
    | with_reducible apply failDie_frame
    | with_reducible apply laneRetire_frame
    | with_reducible apply markSide_frame
    | with_reducible apply setHealth_frame
    | with_reducible apply ite_frame
    | (split <;> try (rename_i hq; replace hq := congrArg Prod.snd hq; dsimp only at hq; subst hq))
    | (rename_i hq; replace hq := congrArg Prod.snd hq; dsimp only at hq; subst hq)
    | (rename_i hq; injection hq with hq; subst hq)

theorem countFault_frame {m : Nat} {r u : State} {x0 x1} (h : Frame m r u) (hm : m &&& 8192 = 8192) : Frame m r (countFault x0 x1 u).2 := by
  unfold countFault
  try dsimp only
  repeat' first
    | with_reducible assumption
    | intro _
    | exact land_trans hm rfl
    | exact testBit_of_land hm (by decide)
    | with_reducible apply modAssay_frame
    | exact Or.inr (fun _ => rfl)
    | exact Or.inl (testBit_of_land hm (by decide))
    | exact Or.inr (fun _ => by (try dsimp only); split <;> rfl)
    | exact fun _ _ e => e
    | exact fun _ e => e
    | with_reducible apply ite_frame
    | (split <;> try (rename_i hq; replace hq := congrArg Prod.snd hq; dsimp only at hq; subst hq))
    | (rename_i hq; replace hq := congrArg Prod.snd hq; dsimp only at hq; subst hq)
    | (rename_i hq; injection hq with hq; subst hq)

theorem declareFault_frame {m : Nat} {r u : State} {x0 x1} (h : Frame m r u) (hm : m &&& 83573086071822 = 83573086071822) : Frame m r (declareFault x0 x1 u) := by
  unfold declareFault
  try dsimp only
  repeat' first
    | with_reducible assumption
    | intro _
    | exact land_trans hm rfl
    | exact testBit_of_land hm (by decide)
    | with_reducible apply faultAction_frame
    | with_reducible apply supEvent_frame
    | with_reducible apply count_frame
    | with_reducible apply setReg_frame
    | with_reducible apply ite_frame
    | (split <;> try (rename_i hq; replace hq := congrArg Prod.snd hq; dsimp only at hq; subst hq))
    | (rename_i hq; replace hq := congrArg Prod.snd hq; dsimp only at hq; subst hq)
    | (rename_i hq; injection hq with hq; subst hq)

theorem countFaults_frame {m : Nat} {r u : State} {x0} (h : Frame m r u) (hm : m &&& 8192 = 8192) : Frame m r (countFaults x0 u).2 := by
  induction x0 generalizing  u with
  | nil =>
    unfold countFaults
    try dsimp only
    repeat' first
      | with_reducible assumption
      | intro _
      | exact land_trans hm rfl
      | exact testBit_of_land hm (by decide)
      | with_reducible apply countFault_frame
      | with_reducible apply ite_frame
      | (split <;> try (rename_i hq; replace hq := congrArg Prod.snd hq; dsimp only at hq; subst hq))
      | (rename_i hq; replace hq := congrArg Prod.snd hq; dsimp only at hq; subst hq)
      | (rename_i hq; injection hq with hq; subst hq)
  | cons y l ih =>
    unfold countFaults
    try dsimp only
    repeat' first
      | with_reducible assumption
      | intro _
      | exact land_trans hm rfl
      | exact testBit_of_land hm (by decide)
      | with_reducible apply countFault_frame
      | with_reducible apply ih
      | with_reducible apply ite_frame
      | (split <;> try (rename_i hq; replace hq := congrArg Prod.snd hq; dsimp only at hq; subst hq))
      | (rename_i hq; replace hq := congrArg Prod.snd hq; dsimp only at hq; subst hq)
      | (rename_i hq; injection hq with hq; subst hq)

theorem settleRounds_frame {m : Nat} {r u : State} {x0} (h : Frame m r u) (hm : m &&& 83573086071822 = 83573086071822) : Frame m r (settleRounds x0 u) := by
  induction x0 generalizing  u with
  | zero =>
    unfold settleRounds
    try dsimp only
    repeat' first
      | with_reducible assumption
      | intro _
      | exact land_trans hm rfl
      | exact testBit_of_land hm (by decide)
      | with_reducible apply each_frame
      | with_reducible apply countFaults_frame
      | with_reducible apply modAssay_frame
      | with_reducible apply declareFault_frame
      | exact Or.inr (fun _ => rfl)
      | exact Or.inl (testBit_of_land hm (by decide))
      | exact Or.inr (fun _ => by (try dsimp only); split <;> rfl)
      | exact fun _ _ e => e
      | exact fun _ e => e
      | with_reducible apply ite_frame
      | (split <;> try (rename_i hq; replace hq := congrArg Prod.snd hq; dsimp only at hq; subst hq))
      | (rename_i hq; replace hq := congrArg Prod.snd hq; dsimp only at hq; subst hq)
      | (rename_i hq; injection hq with hq; subst hq)
      | (with_reducible refine Frame.lit ?_ rfl; first | with_reducible assumption | with_reducible apply each_frame | with_reducible apply countFaults_frame | with_reducible apply modAssay_frame | with_reducible apply declareFault_frame| split)
  | succ n ih =>
    unfold settleRounds
    try dsimp only
    repeat' first
      | with_reducible assumption
      | intro _
      | exact land_trans hm rfl
      | exact testBit_of_land hm (by decide)
      | with_reducible apply each_frame
      | with_reducible apply countFaults_frame
      | with_reducible apply modAssay_frame
      | with_reducible apply declareFault_frame
      | exact Or.inr (fun _ => rfl)
      | exact Or.inl (testBit_of_land hm (by decide))
      | exact Or.inr (fun _ => by (try dsimp only); split <;> rfl)
      | exact fun _ _ e => e
      | exact fun _ e => e
      | with_reducible apply ih
      | with_reducible apply ite_frame
      | (split <;> try (rename_i hq; replace hq := congrArg Prod.snd hq; dsimp only at hq; subst hq))
      | (rename_i hq; replace hq := congrArg Prod.snd hq; dsimp only at hq; subst hq)
      | (rename_i hq; injection hq with hq; subst hq)
      | (with_reducible refine Frame.lit ?_ rfl; first | with_reducible assumption | with_reducible apply each_frame | with_reducible apply countFaults_frame | with_reducible apply modAssay_frame | with_reducible apply declareFault_frame | with_reducible apply ih| split)

theorem settleFaults_frame {m : Nat} {r u : State} (h : Frame m r u) (hm : m &&& 83573086071822 = 83573086071822) : Frame m r (settleFaults u) := by
  unfold settleFaults
  try dsimp only
  repeat' first
    | with_reducible assumption
    | intro _
    | exact land_trans hm rfl
    | exact testBit_of_land hm (by decide)
    | with_reducible apply settleRounds_frame
    | with_reducible apply ite_frame
    | (split <;> try (rename_i hq; replace hq := congrArg Prod.snd hq; dsimp only at hq; subst hq))
    | (rename_i hq; replace hq := congrArg Prod.snd hq; dsimp only at hq; subst hq)
    | (rename_i hq; injection hq with hq; subst hq)

theorem faultEvent_frame {m : Nat} {r u : State} {x0 x1} (h : Frame m r u) (hm : m &&& 8589942792 = 8589942792) : Frame m r (faultEvent x0 x1 u) := by
  unfold faultEvent
  try dsimp only
  repeat' first
    | with_reducible assumption
    | intro _
    | exact land_trans hm rfl
    | exact testBit_of_land hm (by decide)
    | with_reducible apply count_frame
    | with_reducible apply noteFault_frame
    | with_reducible apply ite_frame
    | (split <;> try (rename_i hq; replace hq := congrArg Prod.snd hq; dsimp only at hq; subst hq))
    | (rename_i hq; replace hq := congrArg Prod.snd hq; dsimp only at hq; subst hq)
    | (rename_i hq; injection hq with hq; subst hq)

theorem bankRemap_frame {m : Nat} {r u : State} {x0} (h : Frame m r u) (hm : m &&& 8192 = 8192) : Frame m r (bankRemap x0 u) := by
  unfold bankRemap
  try dsimp only
  repeat' first
    | with_reducible assumption
    | intro _
    | exact land_trans hm rfl
    | exact testBit_of_land hm (by decide)
    | with_reducible apply modAssay_frame
    | exact Or.inr (fun _ => rfl)
    | exact Or.inl (testBit_of_land hm (by decide))
    | exact Or.inr (fun _ => by (try dsimp only); split <;> rfl)
    | exact fun _ _ e => e
    | exact fun _ e => e
    | with_reducible apply ite_frame
    | (split <;> try (rename_i hq; replace hq := congrArg Prod.snd hq; dsimp only at hq; subst hq))
    | (rename_i hq; replace hq := congrArg Prod.snd hq; dsimp only at hq; subst hq)
    | (rename_i hq; injection hq with hq; subst hq)

end Sys2Proof.Machine
end

