-- ==== Sys2Proof/Laws/FrameAssay.lean ====
section
/-! SUPPORT. The frames of the operations of Machine/Assay.lean: each changes nothing outside its mask (see Laws/Frame.lean). -/
set_option Elab.async false
set_option linter.all false

namespace Sys2Proof.Machine

theorem assayRun_frame {m : Nat} {r u : State} {x0} (h : Frame m r u) (hm : m &&& 8200 = 8200) : Frame m r (assayRun x0 u) := by
  unfold assayRun
  try dsimp only
  repeat' first
    | with_reducible assumption
    | intro _
    | exact land_trans hm rfl
    | exact testBit_of_land hm (by decide)
    | with_reducible apply count_frame
    | with_reducible apply modAssay_frame
    | exact Or.inr (fun _ => rfl)
    | exact Or.inl (testBit_of_land hm (by decide))
    | exact Or.inr (fun _ => by (try dsimp only); split <;> rfl)
    | exact fun _ _ e => e
    | exact fun _ e => e
    | with_reducible apply ite_frame
    | (split <;> try (rename_i hq; replace hq := congrArg Prod.snd hq; dsimp only at hq; subst hq))
    | (rename_i hq; replace hq := congrArg Prod.snd hq; dsimp only at hq; subst hq)
    | (rename_i hq; injection hq with hq; subst hq)

theorem assayAbort_frame {m : Nat} {r u : State} (h : Frame m r u) (hm : m &&& 8192 = 8192) : Frame m r (assayAbort u) := by
  unfold assayAbort
  try dsimp only
  repeat' first
    | with_reducible assumption
    | intro _
    | exact land_trans hm rfl
    | exact testBit_of_land hm (by decide)
    | with_reducible apply modAssay_frame
    | exact Or.inr (fun _ => rfl)
    | exact Or.inl (testBit_of_land hm (by decide))
    | exact Or.inr (fun _ => by (try dsimp only); split <;> rfl)
    | exact fun _ _ e => e
    | exact fun _ e => e
    | with_reducible apply ite_frame
    | (split <;> try (rename_i hq; replace hq := congrArg Prod.snd hq; dsimp only at hq; subst hq))
    | (rename_i hq; replace hq := congrArg Prod.snd hq; dsimp only at hq; subst hq)
    | (rename_i hq; injection hq with hq; subst hq)

theorem assayRestart_frame {m : Nat} {r u : State} (h : Frame m r u) (hm : m &&& 8200 = 8200) : Frame m r (assayRestart u) := by
  unfold assayRestart
  try dsimp only
  repeat' first
    | with_reducible assumption
    | intro _
    | exact land_trans hm rfl
    | exact testBit_of_land hm (by decide)
    | with_reducible apply assayRun_frame
    | with_reducible apply ite_frame
    | (split <;> try (rename_i hq; replace hq := congrArg Prod.snd hq; dsimp only at hq; subst hq))
    | (rename_i hq; replace hq := congrArg Prod.snd hq; dsimp only at hq; subst hq)
    | (rename_i hq; injection hq with hq; subst hq)

theorem assayCtrlWrite_frame {m : Nat} {r u : State} {x0} (h : Frame m r u) (hm : m &&& 8200 = 8200) : Frame m r (assayCtrlWrite x0 u) := by
  unfold assayCtrlWrite
  try dsimp only
  repeat' first
    | with_reducible assumption
    | intro _
    | exact land_trans hm rfl
    | exact testBit_of_land hm (by decide)
    | with_reducible apply assayRun_frame
    | with_reducible apply ite_frame
    | (split <;> try (rename_i hq; replace hq := congrArg Prod.snd hq; dsimp only at hq; subst hq))
    | (rename_i hq; replace hq := congrArg Prod.snd hq; dsimp only at hq; subst hq)
    | (rename_i hq; injection hq with hq; subst hq)

theorem setVcore_frame {m : Nat} {r u : State} {x0} (h : Frame m r u) (hm : m &&& 70368744188936 = 70368744188936) : Frame m r (setVcore x0 u) := by
  unfold setVcore
  try dsimp only
  repeat' first
    | with_reducible assumption
    | intro _
    | exact land_trans hm rfl
    | exact testBit_of_land hm (by decide)
    | with_reducible apply supEvent_frame
    | with_reducible apply modAssay_frame
    | with_reducible apply keepWrite_frame
    | exact Or.inr (fun _ => rfl)
    | exact Or.inl (testBit_of_land hm (by decide))
    | exact Or.inr (fun _ => by (try dsimp only); split <;> rfl)
    | exact fun _ _ e => e
    | exact fun _ e => e
    | with_reducible apply ite_frame
    | (split <;> try (rename_i hq; replace hq := congrArg Prod.snd hq; dsimp only at hq; subst hq))
    | (rename_i hq; replace hq := congrArg Prod.snd hq; dsimp only at hq; subst hq)
    | (rename_i hq; injection hq with hq; subst hq)

theorem noteMargin_frame {m : Nat} {r u : State} (h : Frame m r u) (hm : m &&& 8589942784 = 8589942784) : Frame m r (noteMargin u) := by
  unfold noteMargin
  try dsimp only
  repeat' first
    | with_reducible assumption
    | intro _
    | exact land_trans hm rfl
    | exact testBit_of_land hm (by decide)
    | with_reducible apply noteFault_frame
    | with_reducible apply ite_frame
    | (split <;> try (rename_i hq; replace hq := congrArg Prod.snd hq; dsimp only at hq; subst hq))
    | (rename_i hq; replace hq := congrArg Prod.snd hq; dsimp only at hq; subst hq)
    | (rename_i hq; injection hq with hq; subst hq)

theorem vcoreEdge_frame {m : Nat} {r u : State} (h : Frame m r u) (hm : m &&& 70377334123528 = 70377334123528) : Frame m r (vcoreEdge u) := by
  unfold vcoreEdge
  try dsimp only
  repeat' first
    | with_reducible assumption
    | intro _
    | exact land_trans hm rfl
    | exact testBit_of_land hm (by decide)
    | with_reducible apply noteMargin_frame
    | with_reducible apply modAssay_frame
    | with_reducible apply setVcore_frame
    | exact Or.inr (fun _ => rfl)
    | exact Or.inl (testBit_of_land hm (by decide))
    | exact Or.inr (fun _ => by (try dsimp only); split <;> rfl)
    | exact fun _ _ e => e
    | exact fun _ e => e
    | with_reducible apply ite_frame
    | (split <;> try (rename_i hq; replace hq := congrArg Prod.snd hq; dsimp only at hq; subst hq))
    | (rename_i hq; replace hq := congrArg Prod.snd hq; dsimp only at hq; subst hq)
    | (rename_i hq; injection hq with hq; subst hq)

theorem slackSample_frame {m : Nat} {r u : State} {x0} (h : Frame m r u) (hm : m &&& 8589942784 = 8589942784) : Frame m r (slackSample x0 u) := by
  unfold slackSample
  try dsimp only
  repeat' first
    | with_reducible assumption
    | intro _
    | exact land_trans hm rfl
    | exact testBit_of_land hm (by decide)
    | with_reducible apply noteMargin_frame
    | with_reducible apply modAssay_frame
    | exact Or.inr (fun _ => rfl)
    | exact Or.inl (testBit_of_land hm (by decide))
    | exact Or.inr (fun _ => by (try dsimp only); split <;> rfl)
    | exact fun _ _ e => e
    | exact fun _ e => e
    | with_reducible apply ite_frame
    | (split <;> try (rename_i hq; replace hq := congrArg Prod.snd hq; dsimp only at hq; subst hq))
    | (rename_i hq; replace hq := congrArg Prod.snd hq; dsimp only at hq; subst hq)
    | (rename_i hq; injection hq with hq; subst hq)

theorem lowerVcore_frame {m : Nat} {r u : State} {x0 x1} (h : Frame m r u) (hm : m &&& 70368744188936 = 70368744188936) : Frame m r (lowerVcore x0 x1 u) := by
  unfold lowerVcore
  try dsimp only
  repeat' first
    | with_reducible assumption
    | intro _
    | exact land_trans hm rfl
    | exact testBit_of_land hm (by decide)
    | with_reducible apply setVcore_frame
    | with_reducible apply ite_frame
    | (split <;> try (rename_i hq; replace hq := congrArg Prod.snd hq; dsimp only at hq; subst hq))
    | (rename_i hq; replace hq := congrArg Prod.snd hq; dsimp only at hq; subst hq)
    | (rename_i hq; injection hq with hq; subst hq)

theorem planRetrain_frame {m : Nat} {r u : State} {x0} (h : Frame m r u) (hm : m &&& 8200 = 8200) : Frame m r (planRetrain x0 u) := by
  unfold planRetrain
  try dsimp only
  repeat' first
    | with_reducible assumption
    | intro _
    | exact land_trans hm rfl
    | exact testBit_of_land hm (by decide)
    | with_reducible apply modAssay_frame
    | with_reducible apply setRfld_frame
    | exact Or.inr (fun _ => rfl)
    | exact Or.inl (testBit_of_land hm (by decide))
    | exact Or.inr (fun _ => by (try dsimp only); split <;> rfl)
    | exact fun _ _ e => e
    | exact fun _ e => e
    | with_reducible apply ite_frame
    | (split <;> try (rename_i hq; replace hq := congrArg Prod.snd hq; dsimp only at hq; subst hq))
    | (rename_i hq; replace hq := congrArg Prod.snd hq; dsimp only at hq; subst hq)
    | (rename_i hq; injection hq with hq; subst hq)

theorem putOptic_frame {m : Nat} {r u : State} {x0 x1} (h : Frame m r u) (hm : m &&& 16384 = 16384) : Frame m r (putOptic x0 x1 u) := by
  unfold putOptic
  try dsimp only
  repeat' first
    | with_reducible assumption
    | intro _
    | exact land_trans hm rfl
    | exact testBit_of_land hm (by decide)
    | with_reducible apply ite_frame
    | (split <;> try (rename_i hq; replace hq := congrArg Prod.snd hq; dsimp only at hq; subst hq))
    | (rename_i hq; replace hq := congrArg Prod.snd hq; dsimp only at hq; subst hq)
    | (rename_i hq; injection hq with hq; subst hq)
    | (with_reducible refine Frame.lit ?_ rfl; first | with_reducible assumption | split)

theorem laserEvent_frame {m : Nat} {r u : State} {x0 x1 x2} (h : Frame m r u) (hm : m &&& 70368744179720 = 70368744179720) : Frame m r (laserEvent x0 x1 x2 u) := by
  unfold laserEvent
  try dsimp only
  repeat' first
    | with_reducible assumption
    | intro _
    | exact land_trans hm rfl
    | exact testBit_of_land hm (by decide)
    | with_reducible apply supEvent_frame
    | with_reducible apply ite_frame
    | (split <;> try (rename_i hq; replace hq := congrArg Prod.snd hq; dsimp only at hq; subst hq))
    | (rename_i hq; replace hq := congrArg Prod.snd hq; dsimp only at hq; subst hq)
    | (rename_i hq; injection hq with hq; subst hq)

theorem laserLane_frame {m : Nat} {r u : State} {x0 x1 x2} (h : Frame m r u) (hm : m &&& 70368744196108 = 70368744196108) : Frame m r (laserLane x0 x1 x2 u) := by
  unfold laserLane
  try dsimp only
  repeat' first
    | with_reducible assumption
    | intro _
    | exact land_trans hm rfl
    | exact testBit_of_land hm (by decide)
    | with_reducible apply laserEvent_frame
    | with_reducible apply emit_frame
    | with_reducible apply putOptic_frame
    | with_reducible apply ite_frame
    | (split <;> try (rename_i hq; replace hq := congrArg Prod.snd hq; dsimp only at hq; subst hq))
    | (rename_i hq; replace hq := congrArg Prod.snd hq; dsimp only at hq; subst hq)
    | (rename_i hq; injection hq with hq; subst hq)

theorem planLaser_frame {m : Nat} {r u : State} {x0} (h : Frame m r u) (hm : m &&& 70368744197132 = 70368744197132) : Frame m r (planLaser x0 u) := by
  unfold planLaser
  try dsimp only
  repeat' first
    | with_reducible assumption
    | intro _
    | exact land_trans hm rfl
    | exact testBit_of_land hm (by decide)
    | with_reducible apply each_frame
    | with_reducible apply laserLane_frame
    | with_reducible apply keepWrite_frame
    | with_reducible apply ite_frame
    | (split <;> try (rename_i hq; replace hq := congrArg Prod.snd hq; dsimp only at hq; subst hq))
    | (rename_i hq; replace hq := congrArg Prod.snd hq; dsimp only at hq; subst hq)
    | (rename_i hq; injection hq with hq; subst hq)

theorem firstValue_frame {m : Nat} {r u : State} {x0 x1} (h : Frame m r u) (hm : m &&& 70368744180744 = 70368744180744) : Frame m r (firstValue x0 x1 u) := by
  unfold firstValue
  try dsimp only
  repeat' first
    | with_reducible assumption
    | intro _
    | exact land_trans hm rfl
    | exact testBit_of_land hm (by decide)
    | with_reducible apply keepWrite_frame
    | with_reducible apply ite_frame
    | (split <;> try (rename_i hq; replace hq := congrArg Prod.snd hq; dsimp only at hq; subst hq))
    | (rename_i hq; replace hq := congrArg Prod.snd hq; dsimp only at hq; subst hq)
    | (rename_i hq; injection hq with hq; subst hq)

theorem setPredict_frame {m : Nat} {r u : State} {x0 x1 x2} (h : Frame m r u) (hm : m &&& 8192 = 8192) : Frame m r (setPredict x0 x1 x2 u) := by
  unfold setPredict
  try dsimp only
  repeat' first
    | with_reducible assumption
    | intro _
    | exact land_trans hm rfl
    | exact testBit_of_land hm (by decide)
    | with_reducible apply modAssay_frame
    | exact Or.inr (fun _ => rfl)
    | exact Or.inl (testBit_of_land hm (by decide))
    | exact Or.inr (fun _ => by (try dsimp only); split <;> rfl)
    | exact fun _ _ e => e
    | exact fun _ e => e
    | with_reducible apply ite_frame
    | (split <;> try (rename_i hq; replace hq := congrArg Prod.snd hq; dsimp only at hq; subst hq))
    | (rename_i hq; replace hq := congrArg Prod.snd hq; dsimp only at hq; subst hq)
    | (rename_i hq; injection hq with hq; subst hq)

theorem predictFalling_frame {m : Nat} {r u : State} {x0 x1 x2 x3 x4} (h : Frame m r u) (hm : m &&& 70368744188936 = 70368744188936) : Frame m r (predictFalling x0 x1 x2 x3 x4 u) := by
  unfold predictFalling
  try dsimp only
  repeat' first
    | with_reducible assumption
    | intro _
    | exact land_trans hm rfl
    | exact testBit_of_land hm (by decide)
    | with_reducible apply firstValue_frame
    | with_reducible apply setPredict_frame
    | with_reducible apply ite_frame
    | (split <;> try (rename_i hq; replace hq := congrArg Prod.snd hq; dsimp only at hq; subst hq))
    | (rename_i hq; replace hq := congrArg Prod.snd hq; dsimp only at hq; subst hq)
    | (rename_i hq; injection hq with hq; subst hq)

theorem predictRising_frame {m : Nat} {r u : State} {x0 x1 x2 x3 x4} (h : Frame m r u) (hm : m &&& 70368744188936 = 70368744188936) : Frame m r (predictRising x0 x1 x2 x3 x4 u) := by
  unfold predictRising
  try dsimp only
  repeat' first
    | with_reducible assumption
    | intro _
    | exact land_trans hm rfl
    | exact testBit_of_land hm (by decide)
    | with_reducible apply firstValue_frame
    | with_reducible apply setPredict_frame
    | with_reducible apply ite_frame
    | (split <;> try (rename_i hq; replace hq := congrArg Prod.snd hq; dsimp only at hq; subst hq))
    | (rename_i hq; replace hq := congrArg Prod.snd hq; dsimp only at hq; subst hq)
    | (rename_i hq; injection hq with hq; subst hq)

theorem predictCore_frame {m : Nat} {r u : State} {x0 x1} (h : Frame m r u) (hm : m &&& 70368744188936 = 70368744188936) : Frame m r (predictCore x0 x1 u) := by
  unfold predictCore
  try dsimp only
  repeat' first
    | with_reducible assumption
    | intro _
    | exact land_trans hm rfl
    | exact testBit_of_land hm (by decide)
    | with_reducible apply firstValue_frame
    | with_reducible apply setPredict_frame
    | with_reducible apply ite_frame
    | (split <;> try (rename_i hq; replace hq := congrArg Prod.snd hq; dsimp only at hq; subst hq))
    | (rename_i hq; replace hq := congrArg Prod.snd hq; dsimp only at hq; subst hq)
    | (rename_i hq; injection hq with hq; subst hq)

theorem predictAll_frame {m : Nat} {r u : State} {x0 x1} (h : Frame m r u) (hm : m &&& 70368744188936 = 70368744188936) : Frame m r (predictAll x0 x1 u) := by
  unfold predictAll
  try dsimp only
  repeat' first
    | with_reducible assumption
    | intro _
    | exact land_trans hm rfl
    | exact testBit_of_land hm (by decide)
    | with_reducible apply each_frame
    | with_reducible apply predictRising_frame
    | with_reducible apply predictFalling_frame
    | with_reducible apply predictCore_frame
    | with_reducible apply ite_frame
    | (split <;> try (rename_i hq; replace hq := congrArg Prod.snd hq; dsimp only at hq; subst hq))
    | (rename_i hq; replace hq := congrArg Prod.snd hq; dsimp only at hq; subst hq)
    | (rename_i hq; injection hq with hq; subst hq)

theorem assayResult_frame {m : Nat} {r u : State} {x0} (h : Frame m r u) (hm : m &&& 70377334139916 = 70377334139916) : Frame m r (assayResult x0 u) := by
  unfold assayResult
  try dsimp only
  repeat' first
    | with_reducible assumption
    | intro _
    | exact land_trans hm rfl
    | exact testBit_of_land hm (by decide)
    | with_reducible apply count_frame
    | with_reducible apply supEvent_frame
    | with_reducible apply lowerVcore_frame
    | with_reducible apply noteMargin_frame
    | with_reducible apply predictAll_frame
    | with_reducible apply planLaser_frame
    | with_reducible apply planRetrain_frame
    | with_reducible apply modAssay_frame
    | with_reducible apply countN_frame
    | exact Or.inr (fun _ => rfl)
    | exact Or.inl (testBit_of_land hm (by decide))
    | exact Or.inr (fun _ => by (try dsimp only); split <;> rfl)
    | exact fun _ _ e => e
    | exact fun _ e => e
    | with_reducible apply ite_frame
    | (split <;> try (rename_i hq; replace hq := congrArg Prod.snd hq; dsimp only at hq; subst hq))
    | (rename_i hq; replace hq := congrArg Prod.snd hq; dsimp only at hq; subst hq)
    | (rename_i hq; injection hq with hq; subst hq)

theorem hourCount_frame {m : Nat} {r u : State} {x0} (h : Frame m r u) (hm : m &&& 70368744188936 = 70368744188936) : Frame m r (hourCount x0 u) := by
  unfold hourCount
  try dsimp only
  repeat' first
    | with_reducible assumption
    | intro _
    | exact land_trans hm rfl
    | exact testBit_of_land hm (by decide)
    | with_reducible apply modAssay_frame
    | with_reducible apply keepWrite_frame
    | exact Or.inr (fun _ => rfl)
    | exact Or.inl (testBit_of_land hm (by decide))
    | exact Or.inr (fun _ => by (try dsimp only); split <;> rfl)
    | exact fun _ _ e => e
    | exact fun _ e => e
    | with_reducible apply ite_frame
    | (split <;> try (rename_i hq; replace hq := congrArg Prod.snd hq; dsimp only at hq; subst hq))
    | (rename_i hq; replace hq := congrArg Prod.snd hq; dsimp only at hq; subst hq)
    | (rename_i hq; injection hq with hq; subst hq)

end Sys2Proof.Machine
end

