-- ==== Sys2Proof/Laws/FrameKeep.lean ====
section
/-! SUPPORT. The frames of the operations of Machine/Keep.lean: each changes nothing outside its mask (see Laws/Frame.lean). -/
set_option Elab.async false
set_option linter.all false

namespace Sys2Proof.Machine

theorem tearCopy_frame {m : Nat} {r u : State} {x0 x1} (h : Frame m r u) (hm : m &&& 1024 = 1024) : Frame m r (tearCopy x0 x1 u) := by
  unfold tearCopy
  try dsimp only
  repeat' first
    | with_reducible assumption
    | intro _
    | exact land_trans hm rfl
    | exact testBit_of_land hm (by decide)
    | with_reducible apply setCopy_frame
    | with_reducible apply ite_frame
    | (split <;> try (rename_i hq; replace hq := congrArg Prod.snd hq; dsimp only at hq; subst hq))
    | (rename_i hq; replace hq := congrArg Prod.snd hq; dsimp only at hq; subst hq)
    | (rename_i hq; injection hq with hq; subst hq)

theorem mountEntry_frame {m : Nat} {r u : State} {x0} (h : Frame m r u) (hm : m &&& 70368744180744 = 70368744180744) : Frame m r (mountEntry x0 u) := by
  unfold mountEntry
  try dsimp only
  repeat' first
    | with_reducible assumption
    | intro _
    | exact land_trans hm rfl
    | exact testBit_of_land hm (by decide)
    | with_reducible apply when'_frame
    | with_reducible apply event_frame
    | with_reducible apply setCopy_frame
    | with_reducible apply ite_frame
    | (split <;> try (rename_i hq; replace hq := congrArg Prod.snd hq; dsimp only at hq; subst hq))
    | (rename_i hq; replace hq := congrArg Prod.snd hq; dsimp only at hq; subst hq)
    | (rename_i hq; injection hq with hq; subst hq)

theorem walkRing_frame {m : Nat} {r u : State} (h : Frame m r u) (hm : m &&& 2048 = 2048) : Frame m r (walkRing u) := by
  unfold walkRing
  try dsimp only
  repeat' first
    | with_reducible assumption
    | intro _
    | exact land_trans hm rfl
    | exact testBit_of_land hm (by decide)
    | with_reducible apply ite_frame
    | (split <;> try (rename_i hq; replace hq := congrArg Prod.snd hq; dsimp only at hq; subst hq))
    | (rename_i hq; replace hq := congrArg Prod.snd hq; dsimp only at hq; subst hq)
    | (rename_i hq; injection hq with hq; subst hq)
    | (with_reducible refine Frame.lit ?_ rfl; first | with_reducible assumption | split)

theorem tearRecord_frame {m : Nat} {r u : State} (h : Frame m r u) (hm : m &&& 70368744179712 = 70368744179712) : Frame m r (tearRecord u) := by
  unfold tearRecord
  dsimp only
  split
  · exact h
  · exact Frame.lit h rfl (l_ring := fun e => setRingUnit_ring e)


theorem foldl_ring {α : Type} {l : List α} {f : RecState → α → RecState} {x : RecState}
    (h : twf (fun _ => 0) x.ring = true)
    (hf : ∀ a y, twf (fun _ => 0) y.ring = true → twf (fun _ => 0) (f y a).ring = true) :
    twf (fun _ => 0) (l.foldl f x).ring = true := by
  induction l generalizing x with
  | nil => exact h
  | cons a l ih => exact ih (hf a x h)

theorem flushWaiting_frame {m : Nat} {r u : State} (h : Frame m r u) (hm : m &&& 70368744179720 = 70368744179720) :
    Frame m r (flushWaiting u) := by
  unfold flushWaiting
  dsimp only
  refine countN_frame ?_ (land_trans hm rfl)
  exact Frame.lit h rfl (l_ring := fun e => foldl_ring e fun _ _ g => writeRecord_ring g)


theorem keepMount_frame {m : Nat} {r u : State} {x0 x1} (h : Frame m r u) (hm : m &&& 87960947002376 = 87960947002376) : Frame m r (keepMount x0 x1 u) := by
  unfold keepMount
  try dsimp only
  repeat' first
    | with_reducible assumption
    | intro _
    | exact land_trans hm rfl
    | exact testBit_of_land hm (by decide)
    | with_reducible apply each_frame
    | with_reducible apply when'_frame
    | with_reducible apply tearRecord_frame
    | with_reducible apply tearCopy_frame
    | with_reducible apply modKeep_frame
    | with_reducible apply mountEntry_frame
    | with_reducible apply resumeCounter_frame
    | with_reducible apply flushWaiting_frame
    | with_reducible apply walkRing_frame
    | exact Or.inr (fun _ => rfl)
    | exact Or.inl (testBit_of_land hm (by decide))
    | exact Or.inr (fun _ => by (try dsimp only); split <;> rfl)
    | exact fun _ _ e => e
    | exact fun _ e => e
    | with_reducible apply ite_frame
    | (split <;> try (rename_i hq; replace hq := congrArg Prod.snd hq; dsimp only at hq; subst hq))
    | (rename_i hq; replace hq := congrArg Prod.snd hq; dsimp only at hq; subst hq)
    | (rename_i hq; injection hq with hq; subst hq)
    | (with_reducible refine Frame.lit ?_ rfl; first | with_reducible assumption | with_reducible apply each_frame | with_reducible apply when'_frame | with_reducible apply tearRecord_frame | with_reducible apply tearCopy_frame | with_reducible apply modKeep_frame | with_reducible apply mountEntry_frame | with_reducible apply resumeCounter_frame | with_reducible apply flushWaiting_frame | with_reducible apply walkRing_frame| split)

theorem loseUnit_frame {m : Nat} {r u : State} {x0} (h : Frame m r u) (hm : m &&& 70368811289600 = 70368811289600) : Frame m r (loseUnit x0 u) := by
  unfold loseUnit
  split
  · exact setSlotCopy_frame (setSlotCopy_frame h (land_trans hm rfl)) (land_trans hm rfl)
  · split
    · exact Frame.lit h rfl (l_ring := fun e => foldl_ring e fun _ _ g => setRingUnit_ring g)
    · exact each_frame h fun _ _ g => setCopy_frame (setCopy_frame g (land_trans hm rfl)) (land_trans hm rfl)


theorem repairUnit_frame {m : Nat} {r u : State} {x0 x1} (h : Frame m r u) (hm : m &&& 67109896 = 67109896) : Frame m r (repairUnit x0 x1 u) := by
  unfold repairUnit
  try dsimp only
  repeat' first
    | with_reducible assumption
    | intro _
    | exact land_trans hm rfl
    | exact testBit_of_land hm (by decide)
    | with_reducible apply each_frame
    | with_reducible apply slotRemapped_frame
    | with_reducible apply count_frame
    | with_reducible apply setCopy_frame
    | with_reducible apply ite_frame
    | (split <;> try (rename_i hq; replace hq := congrArg Prod.snd hq; dsimp only at hq; subst hq))
    | (rename_i hq; replace hq := congrArg Prod.snd hq; dsimp only at hq; subst hq)
    | (rename_i hq; injection hq with hq; subst hq)

theorem remapUnit_frame {m : Nat} {r u : State} {x0 x1 x2} (h : Frame m r u) (hm : m &&& 70377401232392 = 70377401232392) : Frame m r (remapUnit x0 x1 x2 u) := by
  unfold remapUnit
  try dsimp only
  repeat' first
    | with_reducible assumption
    | intro _
    | exact land_trans hm rfl
    | exact testBit_of_land hm (by decide)
    | with_reducible apply when'_frame
    | with_reducible apply loseUnit_frame
    | with_reducible apply noteFault_frame
    | with_reducible apply modKeep_frame
    | with_reducible apply repairUnit_frame
    | with_reducible apply event_frame
    | with_reducible apply count_frame
    | exact Or.inr (fun _ => rfl)
    | exact Or.inl (testBit_of_land hm (by decide))
    | exact Or.inr (fun _ => by (try dsimp only); split <;> rfl)
    | exact fun _ _ e => e
    | exact fun _ e => e
    | with_reducible apply ite_frame
    | (split <;> try (rename_i hq; replace hq := congrArg Prod.snd hq; dsimp only at hq; subst hq))
    | (rename_i hq; replace hq := congrArg Prod.snd hq; dsimp only at hq; subst hq)
    | (rename_i hq; injection hq with hq; subst hq)

theorem scrub_frame {m : Nat} {r u : State} {x0 x1 x2 x3} (h : Frame m r u) (hm : m &&& 70377401232392 = 70377401232392) : Frame m r (scrub x0 x1 x2 x3 u) := by
  unfold scrub
  try dsimp only
  repeat' first
    | with_reducible assumption
    | intro _
    | exact land_trans hm rfl
    | exact testBit_of_land hm (by decide)
    | with_reducible apply when'_frame
    | with_reducible apply remapUnit_frame
    | with_reducible apply modKeep_frame
    | exact Or.inr (fun _ => rfl)
    | exact Or.inl (testBit_of_land hm (by decide))
    | exact Or.inr (fun _ => by (try dsimp only); split <;> rfl)
    | exact fun _ _ e => e
    | exact fun _ e => e
    | with_reducible apply ite_frame
    | (split <;> try (rename_i hq; replace hq := congrArg Prod.snd hq; dsimp only at hq; subst hq))
    | (rename_i hq; replace hq := congrArg Prod.snd hq; dsimp only at hq; subst hq)
    | (rename_i hq; injection hq with hq; subst hq)

end Sys2Proof.Machine
end

