-- ==== Sys2Proof/Laws/FrameResets.lean ====
section
/-! SUPPORT. The frames of the operations of Machine/Resets.lean: each changes nothing outside its mask (see Laws/Frame.lean). -/
set_option Elab.async false
set_option linter.all false

namespace Sys2Proof.Machine

theorem fullReset_frame {m : Nat} {r u : State} {x0 x1} (h : Frame m r u) (hm : m &&& 140737488355320 = 140737488355320) : Frame m r (fullReset x0 x1 u) := by
  unfold fullReset
  refine Frame.lit h rfl (l_opRoot := fun k e => e) (l_sram := fun _ => rfl) (l_dram := fun _ => rfl) (l_ring := fun e => ?_)
  unfold resetRec
  split
  · exact e
  · exact e


theorem requestReset_frame {m : Nat} {r u : State} {x0 x1} (h : Frame m r u) (hm : m &&& 140737488355320 = 140737488355320) : Frame m r (requestReset x0 x1 u) := by
  unfold requestReset
  try dsimp only
  repeat' first
    | with_reducible assumption
    | intro _
    | exact land_trans hm rfl
    | exact testBit_of_land hm (by decide)
    | with_reducible apply modBoot_frame
    | with_reducible apply count_frame
    | with_reducible apply countN_frame
    | with_reducible apply fullReset_frame
    | exact Or.inr (fun _ => rfl)
    | exact Or.inl (testBit_of_land hm (by decide))
    | exact Or.inr (fun _ => by (try dsimp only); split <;> rfl)
    | exact fun _ _ e => e
    | exact fun _ e => e
    | with_reducible apply ite_frame
    | (split <;> try (rename_i hq; replace hq := congrArg Prod.snd hq; dsimp only at hq; subst hq))
    | (rename_i hq; replace hq := congrArg Prod.snd hq; dsimp only at hq; subst hq)
    | (rename_i hq; injection hq with hq; subst hq)

theorem coldReset_frame {m : Nat} {r u : State} (h : Frame m r u) (hm : m &&& 140737488355320 = 140737488355320) : Frame m r (coldReset u) := by
  unfold coldReset
  try dsimp only
  repeat' first
    | with_reducible assumption
    | intro _
    | exact land_trans hm rfl
    | exact testBit_of_land hm (by decide)
    | with_reducible apply requestReset_frame
    | with_reducible apply modSupply_frame
    | exact Or.inr (fun _ => rfl)
    | exact Or.inl (testBit_of_land hm (by decide))
    | exact Or.inr (fun _ => by (try dsimp only); split <;> rfl)
    | exact fun _ _ e => e
    | exact fun _ e => e
    | with_reducible apply ite_frame
    | (split <;> try (rename_i hq; replace hq := congrArg Prod.snd hq; dsimp only at hq; subst hq))
    | (rename_i hq; replace hq := congrArg Prod.snd hq; dsimp only at hq; subst hq)
    | (rename_i hq; injection hq with hq; subst hq)

theorem dipReset_frame {m : Nat} {r u : State} {x0} (h : Frame m r u) (hm : m &&& 140737488355320 = 140737488355320) : Frame m r (dipReset x0 u) := by
  unfold dipReset
  try dsimp only
  repeat' first
    | with_reducible assumption
    | intro _
    | exact land_trans hm rfl
    | exact testBit_of_land hm (by decide)
    | with_reducible apply modSupply_frame
    | with_reducible apply requestReset_frame
    | exact Or.inr (fun _ => rfl)
    | exact Or.inl (testBit_of_land hm (by decide))
    | exact Or.inr (fun _ => by (try dsimp only); split <;> rfl)
    | exact fun _ _ e => e
    | exact fun _ e => e
    | with_reducible apply ite_frame
    | (split <;> try (rename_i hq; replace hq := congrArg Prod.snd hq; dsimp only at hq; subst hq))
    | (rename_i hq; replace hq := congrArg Prod.snd hq; dsimp only at hq; subst hq)
    | (rename_i hq; injection hq with hq; subst hq)

theorem pinReset_frame {m : Nat} {r u : State} (h : Frame m r u) (hm : m &&& 140737488355320 = 140737488355320) : Frame m r (pinReset u) := by
  unfold pinReset
  try dsimp only
  repeat' first
    | with_reducible assumption
    | intro _
    | exact land_trans hm rfl
    | exact testBit_of_land hm (by decide)
    | with_reducible apply requestReset_frame
    | with_reducible apply ite_frame
    | (split <;> try (rename_i hq; replace hq := congrArg Prod.snd hq; dsimp only at hq; subst hq))
    | (rename_i hq; replace hq := congrArg Prod.snd hq; dsimp only at hq; subst hq)
    | (rename_i hq; injection hq with hq; subst hq)

theorem watchdogReset_frame {m : Nat} {r u : State} {x0} (h : Frame m r u) (hm : m &&& 140737488355320 = 140737488355320) : Frame m r (watchdogReset x0 u) := by
  unfold watchdogReset
  try dsimp only
  repeat' first
    | with_reducible assumption
    | intro _
    | exact land_trans hm rfl
    | exact testBit_of_land hm (by decide)
    | with_reducible apply requestReset_frame
    | with_reducible apply ite_frame
    | (split <;> try (rename_i hq; replace hq := congrArg Prod.snd hq; dsimp only at hq; subst hq))
    | (rename_i hq; replace hq := congrArg Prod.snd hq; dsimp only at hq; subst hq)
    | (rename_i hq; injection hq with hq; subst hq)

theorem chainReset_frame {m : Nat} {r u : State} {x0} (h : Frame m r u) (hm : m &&& 140737488355320 = 140737488355320) : Frame m r (chainReset x0 u) := by
  unfold chainReset
  try dsimp only
  repeat' first
    | with_reducible assumption
    | intro _
    | exact land_trans hm rfl
    | exact testBit_of_land hm (by decide)
    | with_reducible apply requestReset_frame
    | with_reducible apply count_frame
    | with_reducible apply ite_frame
    | (split <;> try (rename_i hq; replace hq := congrArg Prod.snd hq; dsimp only at hq; subst hq))
    | (rename_i hq; replace hq := congrArg Prod.snd hq; dsimp only at hq; subst hq)
    | (rename_i hq; injection hq with hq; subst hq)

theorem discardQueued_frame {m : Nat} {r u : State} (h : Frame m r u) (hm : m &&& 524296 = 524296) : Frame m r (discardQueued u) := by
  unfold discardQueued
  try dsimp only
  repeat' first
    | with_reducible assumption
    | intro _
    | exact land_trans hm rfl
    | exact testBit_of_land hm (by decide)
    | with_reducible apply each_frame
    | with_reducible apply countN_frame
    | with_reducible apply ite_frame
    | (split <;> try (rename_i hq; replace hq := congrArg Prod.snd hq; dsimp only at hq; subst hq))
    | (rename_i hq; replace hq := congrArg Prod.snd hq; dsimp only at hq; subst hq)
    | (rename_i hq; injection hq with hq; subst hq)
    | (with_reducible refine Frame.lit ?_ rfl; first | with_reducible assumption | with_reducible apply each_frame | with_reducible apply countN_frame| split)

theorem resetFab_frame {m : Nat} {r u : State} (h : Frame m r u) (hm : m &&& 4398294695944 = 4398294695944) : Frame m r (resetFab u) := by
  unfold resetFab
  dsimp only
  with_reducible refine Frame.lit ?_ rfl (l_sram := ?_)
  · exact cutPools_frame (freeEveryTub_frame (discardQueued_frame h (land_trans hm rfl)) (land_trans hm rfl)) (land_trans hm rfl)
  · exact fun _ => rfl


theorem resetPipe_frame {m : Nat} {r u : State} {x0} (h : Frame m r u) (hm : m &&& 83562922182670 = 83562922182670) : Frame m r (resetPipe x0 u) := by
  unfold resetPipe
  try dsimp only
  repeat' first
    | with_reducible assumption
    | intro _
    | exact land_trans hm rfl
    | exact testBit_of_land hm (by decide)
    | with_reducible apply each_frame
    | with_reducible apply freePartials_frame
    | with_reducible apply freeTubsOf_frame
    | with_reducible apply modSeam_frame
    | with_reducible apply ite_frame
    | (split <;> try (rename_i hq; replace hq := congrArg Prod.snd hq; dsimp only at hq; subst hq))
    | (rename_i hq; replace hq := congrArg Prod.snd hq; dsimp only at hq; subst hq)
    | (rename_i hq; injection hq with hq; subst hq)
    | (with_reducible refine Frame.lit ?_ rfl; first | with_reducible assumption | with_reducible apply each_frame | with_reducible apply freePartials_frame | with_reducible apply freeTubsOf_frame | with_reducible apply modSeam_frame| split)

theorem resetTally_frame {m : Nat} {r u : State} (h : Frame m r u) (hm : m &&& 83562985031694 = 83562985031694) : Frame m r (resetTally u) := by
  unfold resetTally
  try dsimp only
  repeat' first
    | with_reducible assumption
    | intro _
    | exact land_trans hm rfl
    | exact testBit_of_land hm (by decide)
    | with_reducible apply each_frame
    | with_reducible apply freeTubsOf_frame
    | with_reducible apply ite_frame
    | (split <;> try (rename_i hq; replace hq := congrArg Prod.snd hq; dsimp only at hq; subst hq))
    | (rename_i hq; replace hq := congrArg Prod.snd hq; dsimp only at hq; subst hq)
    | (rename_i hq; injection hq with hq; subst hq)
    | (with_reducible refine Frame.lit ?_ rfl; first | with_reducible assumption | with_reducible apply each_frame | with_reducible apply freeTubsOf_frame| split)

theorem resetSup_frame {m : Nat} {r u : State} (h : Frame m r u) (hm : m &&& 83572022749198 = 83572022749198) : Frame m r (resetSup u) := by
  unfold resetSup
  try dsimp only
  repeat' first
    | with_reducible assumption
    | intro _
    | exact land_trans hm rfl
    | exact testBit_of_land hm (by decide)
    | with_reducible apply canaryAbort_frame
    | with_reducible apply ite_frame
    | (split <;> try (rename_i hq; replace hq := congrArg Prod.snd hq; dsimp only at hq; subst hq))
    | (rename_i hq; replace hq := congrArg Prod.snd hq; dsimp only at hq; subst hq)
    | (rename_i hq; injection hq with hq; subst hq)
    | (with_reducible refine Frame.lit ?_ rfl; first | with_reducible assumption | with_reducible apply canaryAbort_frame| split)

theorem clearDomainRegs_frame {m : Nat} {r u : State} {x0} (h : Frame m r u) (hm : m &&& 8 = 8) : Frame m r (clearDomainRegs x0 u) := by
  unfold clearDomainRegs
  try dsimp only
  repeat' first
    | with_reducible assumption
    | intro _
    | exact land_trans hm rfl
    | exact testBit_of_land hm (by decide)
    | with_reducible apply ite_frame
    | (split <;> try (rename_i hq; replace hq := congrArg Prod.snd hq; dsimp only at hq; subst hq))
    | (rename_i hq; replace hq := congrArg Prod.snd hq; dsimp only at hq; subst hq)
    | (rename_i hq; injection hq with hq; subst hq)
    | (with_reducible refine Frame.lit ?_ rfl; first | with_reducible assumption | split)

theorem laneSettingsGone_frame {m : Nat} {r u : State} {x0} (h : Frame m r u) (hm : m &&& 83563422287886 = 83563422287886) : Frame m r (laneSettingsGone x0 u) := by
  unfold laneSettingsGone
  try dsimp only
  repeat' first
    | with_reducible assumption
    | intro _
    | exact land_trans hm rfl
    | exact testBit_of_land hm (by decide)
    | with_reducible apply each_frame
    | with_reducible apply laneCfgChanged_frame
    | with_reducible apply ite_frame
    | (split <;> try (rename_i hq; replace hq := congrArg Prod.snd hq; dsimp only at hq; subst hq))
    | (rename_i hq; replace hq := congrArg Prod.snd hq; dsimp only at hq; subst hq)
    | (rename_i hq; injection hq with hq; subst hq)

theorem assertDomain_frame {m : Nat} {r u : State} {x0} (h : Frame m r u) (hm : m &&& 83644219635742 = 83644219635742) : Frame m r (assertDomain x0 u) := by
  unfold assertDomain
  try dsimp only
  repeat' first
    | with_reducible assumption
    | intro _
    | exact land_trans hm rfl
    | exact testBit_of_land hm (by decide)
    | with_reducible apply each_frame
    | with_reducible apply when'_frame
    | with_reducible apply laneSettingsGone_frame
    | with_reducible apply clearDomainRegs_frame
    | with_reducible apply wndDomainReset_frame
    | with_reducible apply setDom_frame
    | with_reducible apply resetPipe_frame
    | with_reducible apply resetFab_frame
    | with_reducible apply loadEpochs_frame
    | with_reducible apply dropSaved_frame
    | with_reducible apply domainWentOff_frame
    | with_reducible apply portDown_frame
    | with_reducible apply canaryAbort_frame
    | with_reducible apply resetTally_frame
    | with_reducible apply resetSup_frame
    | with_reducible apply ite_frame
    | (split <;> try (rename_i hq; replace hq := congrArg Prod.snd hq; dsimp only at hq; subst hq))
    | (rename_i hq; replace hq := congrArg Prod.snd hq; dsimp only at hq; subst hq)
    | (rename_i hq; injection hq with hq; subst hq)
    | (with_reducible refine Frame.lit ?_ rfl; first | with_reducible assumption | with_reducible apply each_frame | with_reducible apply when'_frame | with_reducible apply laneSettingsGone_frame | with_reducible apply clearDomainRegs_frame | with_reducible apply wndDomainReset_frame | with_reducible apply setDom_frame | with_reducible apply resetPipe_frame | with_reducible apply resetFab_frame | with_reducible apply loadEpochs_frame | with_reducible apply dropSaved_frame | with_reducible apply domainWentOff_frame | with_reducible apply portDown_frame | with_reducible apply canaryAbort_frame | with_reducible apply resetTally_frame | with_reducible apply resetSup_frame| split)

theorem domainReset_frame {m : Nat} {r u : State} {x0} (h : Frame m r u) (hm : m &&& 140737488355326 = 140737488355326) : Frame m r (domainReset x0 u) := by
  unfold domainReset
  try dsimp only
  repeat' first
    | with_reducible assumption
    | intro _
    | exact land_trans hm rfl
    | exact testBit_of_land hm (by decide)
    | with_reducible apply count_frame
    | with_reducible apply requestReset_frame
    | with_reducible apply assertDomain_frame
    | with_reducible apply modBoot_frame
    | exact Or.inr (fun _ => rfl)
    | exact Or.inl (testBit_of_land hm (by decide))
    | exact Or.inr (fun _ => by (try dsimp only); split <;> rfl)
    | exact fun _ _ e => e
    | exact fun _ e => e
    | with_reducible apply ite_frame
    | (split <;> try (rename_i hq; replace hq := congrArg Prod.snd hq; dsimp only at hq; subst hq))
    | (rename_i hq; replace hq := congrArg Prod.snd hq; dsimp only at hq; subst hq)
    | (rename_i hq; injection hq with hq; subst hq)

theorem domainResets_frame {m : Nat} {r u : State} {x0} (h : Frame m r u) (hm : m &&& 140737488355326 = 140737488355326) : Frame m r (domainResets x0 u) := by
  unfold domainResets
  try dsimp only
  repeat' first
    | with_reducible assumption
    | intro _
    | exact land_trans hm rfl
    | exact testBit_of_land hm (by decide)
    | with_reducible apply each_frame
    | with_reducible apply modBoot_frame
    | with_reducible apply domainReset_frame
    | exact Or.inr (fun _ => rfl)
    | exact Or.inl (testBit_of_land hm (by decide))
    | exact Or.inr (fun _ => by (try dsimp only); split <;> rfl)
    | exact fun _ _ e => e
    | exact fun _ e => e
    | with_reducible apply ite_frame
    | (split <;> try (rename_i hq; replace hq := congrArg Prod.snd hq; dsimp only at hq; subst hq))
    | (rename_i hq; replace hq := congrArg Prod.snd hq; dsimp only at hq; subst hq)
    | (rename_i hq; injection hq with hq; subst hq)

theorem heldDomainsBegin_frame {m : Nat} {r u : State} (h : Frame m r u) (hm : m &&& 140737488355326 = 140737488355326) : Frame m r (heldDomainsBegin u) := by
  unfold heldDomainsBegin
  try dsimp only
  repeat' first
    | with_reducible assumption
    | intro _
    | exact land_trans hm rfl
    | exact testBit_of_land hm (by decide)
    | with_reducible apply domainResets_frame
    | with_reducible apply modBoot_frame
    | exact Or.inr (fun _ => rfl)
    | exact Or.inl (testBit_of_land hm (by decide))
    | exact Or.inr (fun _ => by (try dsimp only); split <;> rfl)
    | exact fun _ _ e => e
    | exact fun _ e => e
    | with_reducible apply ite_frame
    | (split <;> try (rename_i hq; replace hq := congrArg Prod.snd hq; dsimp only at hq; subst hq))
    | (rename_i hq; replace hq := congrArg Prod.snd hq; dsimp only at hq; subst hq)
    | (rename_i hq; injection hq with hq; subst hq)

theorem resetEvent_frame {m : Nat} {r u : State} {x0 x1 x2} (h : Frame m r u) (hm : m &&& 70368744179720 = 70368744179720) : Frame m r (resetEvent x0 x1 x2 u) := by
  unfold resetEvent
  try dsimp only
  repeat' first
    | with_reducible assumption
    | intro _
    | exact land_trans hm rfl
    | exact testBit_of_land hm (by decide)
    | with_reducible apply event_frame
    | with_reducible apply ite_frame
    | (split <;> try (rename_i hq; replace hq := congrArg Prod.snd hq; dsimp only at hq; subst hq))
    | (rename_i hq; replace hq := congrArg Prod.snd hq; dsimp only at hq; subst hq)
    | (rename_i hq; injection hq with hq; subst hq)

theorem loseSram_frame {m : Nat} {r u : State} (h : Frame m r u) (hm : m &&& 4398294695936 = 4398294695936) : Frame m r (loseSram u) := by
  unfold loseSram
  dsimp only
  with_reducible refine Frame.lit ?_ rfl (l_sram := ?_)
  · exact h
  · exact fun _ => rfl


end Sys2Proof.Machine
end

