-- ==== Sys2Proof/Laws/FrameImage.lean ====
section
/-! SUPPORT. The frames of the operations of Machine/Image.lean: each changes nothing outside its mask (see Laws/Frame.lean). -/
set_option Elab.async false
set_option linter.all false

namespace Sys2Proof.Machine

theorem refclkEvent_frame {m : Nat} {r u : State} {x0} (h : Frame m r u) (hm : m &&& 70368744179720 = 70368744179720) : Frame m r (refclkEvent x0 u) := by
  unfold refclkEvent
  try dsimp only
  repeat' first
    | with_reducible assumption
    | intro _
    | exact land_trans hm rfl
    | exact testBit_of_land hm (by decide)
    | with_reducible apply event_frame
    | with_reducible apply ite_frame
    | (split <;> try (rename_i hq; replace hq := congrArg Prod.snd hq; dsimp only at hq; subst hq))
    | (rename_i hq; replace hq := congrArg Prod.snd hq; dsimp only at hq; subst hq)
    | (rename_i hq; injection hq with hq; subst hq)

theorem startStep3_frame {m : Nat} {r u : State} {x0} (h : Frame m r u) (hm : m &&& 70437463791624 = 70437463791624) : Frame m r (startStep3 x0 u) := by
  unfold startStep3
  try dsimp only
  repeat' first
    | with_reducible assumption
    | intro _
    | exact land_trans hm rfl
    | exact testBit_of_land hm (by decide)
    | with_reducible apply each_frame
    | with_reducible apply setDom_frame
    | with_reducible apply trainDram_frame
    | with_reducible apply ite_frame
    | (split <;> try (rename_i hq; replace hq := congrArg Prod.snd hq; dsimp only at hq; subst hq))
    | (rename_i hq; replace hq := congrArg Prod.snd hq; dsimp only at hq; subst hq)
    | (rename_i hq; injection hq with hq; subst hq)

theorem noImage_frame {m : Nat} {r u : State} (h : Frame m r u) (hm : m &&& 70506183133320 = 70506183133320) : Frame m r (noImage u) := by
  unfold noImage
  try dsimp only
  repeat' first
    | with_reducible assumption
    | intro _
    | exact land_trans hm rfl
    | exact testBit_of_land hm (by decide)
    | with_reducible apply romEvent_frame
    | with_reducible apply modBoot_frame
    | exact Or.inr (fun _ => rfl)
    | exact Or.inl (testBit_of_land hm (by decide))
    | exact Or.inr (fun _ => by (try dsimp only); split <;> rfl)
    | exact fun _ _ e => e
    | exact fun _ e => e
    | with_reducible apply ite_frame
    | (split <;> try (rename_i hq; replace hq := congrArg Prod.snd hq; dsimp only at hq; subst hq))
    | (rename_i hq; replace hq := congrArg Prod.snd hq; dsimp only at hq; subst hq)
    | (rename_i hq; injection hq with hq; subst hq)
    | (with_reducible refine Frame.lit ?_ rfl; first | with_reducible assumption | with_reducible apply romEvent_frame | with_reducible apply modBoot_frame| split)

theorem startUp_frame {m : Nat} {r u : State} {x0} (h : Frame m r u) (hm : m &&& 70574902746248 = 70574902746248) : Frame m r (startUp x0 u) := by
  unfold startUp
  try dsimp only
  repeat' first
    | with_reducible assumption
    | intro _
    | exact land_trans hm rfl
    | exact testBit_of_land hm (by decide)
    | with_reducible apply each_frame
    | with_reducible apply when'_frame
    | with_reducible apply startStep3_frame
    | with_reducible apply setDom_frame
    | with_reducible apply refclkEvent_frame
    | with_reducible apply keepWrite_frame
    | with_reducible apply modBoot_frame
    | with_reducible apply noImage_frame
    | exact Or.inr (fun _ => rfl)
    | exact Or.inl (testBit_of_land hm (by decide))
    | exact Or.inr (fun _ => by (try dsimp only); split <;> rfl)
    | exact fun _ _ e => e
    | exact fun _ e => e
    | with_reducible apply ite_frame
    | (split <;> try (rename_i hq; replace hq := congrArg Prod.snd hq; dsimp only at hq; subst hq))
    | (rename_i hq; replace hq := congrArg Prod.snd hq; dsimp only at hq; subst hq)
    | (rename_i hq; injection hq with hq; subst hq)
    | (with_reducible refine Frame.lit ?_ rfl; first | with_reducible assumption | with_reducible apply each_frame | with_reducible apply when'_frame | with_reducible apply startStep3_frame | with_reducible apply setDom_frame | with_reducible apply refclkEvent_frame | with_reducible apply keepWrite_frame | with_reducible apply modBoot_frame | with_reducible apply noImage_frame| split)

theorem resetRelease_frame {m : Nat} {r u : State} {x0} (h : Frame m r u) (hm : m &&& 140737488355320 = 140737488355320) : Frame m r (resetRelease x0 u) := by
  unfold resetRelease
  try dsimp only
  repeat' first
    | with_reducible assumption
    | intro _
    | exact land_trans hm rfl
    | exact testBit_of_land hm (by decide)
    | with_reducible apply resetEvent_frame
    | with_reducible apply modSupply_frame
    | with_reducible apply modBoot_frame
    | with_reducible apply fullReset_frame
    | with_reducible apply startUp_frame
    | exact Or.inr (fun _ => rfl)
    | exact Or.inl (testBit_of_land hm (by decide))
    | exact Or.inr (fun _ => by (try dsimp only); split <;> rfl)
    | exact fun _ _ e => e
    | exact fun _ e => e
    | with_reducible apply ite_frame
    | (split <;> try (rename_i hq; replace hq := congrArg Prod.snd hq; dsimp only at hq; subst hq))
    | (rename_i hq; replace hq := congrArg Prod.snd hq; dsimp only at hq; subst hq)
    | (rename_i hq; injection hq with hq; subst hq)

theorem vioReady_frame {m : Nat} {r u : State} (h : Frame m r u) (hm : m &&& 70574902746248 = 70574902746248) : Frame m r (vioReady u) := by
  unfold vioReady
  try dsimp only
  repeat' first
    | with_reducible assumption
    | intro _
    | exact land_trans hm rfl
    | exact testBit_of_land hm (by decide)
    | with_reducible apply modBoot_frame
    | with_reducible apply startUp_frame
    | exact Or.inr (fun _ => rfl)
    | exact Or.inl (testBit_of_land hm (by decide))
    | exact Or.inr (fun _ => by (try dsimp only); split <;> rfl)
    | exact fun _ _ e => e
    | exact fun _ e => e
    | with_reducible apply ite_frame
    | (split <;> try (rename_i hq; replace hq := congrArg Prod.snd hq; dsimp only at hq; subst hq))
    | (rename_i hq; replace hq := congrArg Prod.snd hq; dsimp only at hq; subst hq)
    | (rename_i hq; injection hq with hq; subst hq)

theorem imageLoaded_frame {m : Nat} {r u : State} {x0 x1 x2} (h : Frame m r u) (hm : m &&& 70506183133320 = 70506183133320) : Frame m r (imageLoaded x0 x1 x2 u) := by
  unfold imageLoaded
  try dsimp only
  repeat' first
    | with_reducible assumption
    | intro _
    | exact land_trans hm rfl
    | exact testBit_of_land hm (by decide)
    | with_reducible apply when'_frame
    | with_reducible apply modBoot_frame
    | with_reducible apply romEvent_frame
    | exact Or.inr (fun _ => rfl)
    | exact Or.inl (testBit_of_land hm (by decide))
    | exact Or.inr (fun _ => by (try dsimp only); split <;> rfl)
    | exact fun _ _ e => e
    | exact fun _ e => e
    | with_reducible apply ite_frame
    | (split <;> try (rename_i hq; replace hq := congrArg Prod.snd hq; dsimp only at hq; subst hq))
    | (rename_i hq; replace hq := congrArg Prod.snd hq; dsimp only at hq; subst hq)
    | (rename_i hq; injection hq with hq; subst hq)
    | (with_reducible refine Frame.lit ?_ rfl; first | with_reducible assumption | with_reducible apply when'_frame | with_reducible apply modBoot_frame | with_reducible apply romEvent_frame| split)

theorem imageVerifyDone_frame {m : Nat} {r u : State} {x0} (h : Frame m r u) (hm : m &&& 70506183133320 = 70506183133320) : Frame m r (imageVerifyDone x0 u) := by
  unfold imageVerifyDone
  try dsimp only
  repeat' first
    | with_reducible assumption
    | intro _
    | exact land_trans hm rfl
    | exact testBit_of_land hm (by decide)
    | with_reducible apply when'_frame
    | with_reducible apply modBoot_frame
    | with_reducible apply imageLoaded_frame
    | with_reducible apply noImage_frame
    | with_reducible apply romEvent_frame
    | exact Or.inr (fun _ => rfl)
    | exact Or.inl (testBit_of_land hm (by decide))
    | exact Or.inr (fun _ => by (try dsimp only); split <;> rfl)
    | exact fun _ _ e => e
    | exact fun _ e => e
    | with_reducible apply ite_frame
    | (split <;> try (rename_i hq; replace hq := congrArg Prod.snd hq; dsimp only at hq; subst hq))
    | (rename_i hq; replace hq := congrArg Prod.snd hq; dsimp only at hq; subst hq)
    | (rename_i hq; injection hq with hq; subst hq)
    | (with_reducible refine Frame.lit ?_ rfl; first | with_reducible assumption | with_reducible apply when'_frame | with_reducible apply modBoot_frame | with_reducible apply imageLoaded_frame | with_reducible apply noImage_frame | with_reducible apply romEvent_frame| split)

theorem bootRelease_frame {m : Nat} {r u : State} (h : Frame m r u) (hm : m &&& 137438953600 = 137438953600) : Frame m r (bootRelease u) := by
  unfold bootRelease
  try dsimp only
  repeat' first
    | with_reducible assumption
    | intro _
    | exact land_trans hm rfl
    | exact testBit_of_land hm (by decide)
    | with_reducible apply modBoot_frame
    | exact Or.inr (fun _ => rfl)
    | exact Or.inl (testBit_of_land hm (by decide))
    | exact Or.inr (fun _ => by (try dsimp only); split <;> rfl)
    | exact fun _ _ e => e
    | exact fun _ e => e
    | with_reducible apply ite_frame
    | (split <;> try (rename_i hq; replace hq := congrArg Prod.snd hq; dsimp only at hq; subst hq))
    | (rename_i hq; replace hq := congrArg Prod.snd hq; dsimp only at hq; subst hq)
    | (rename_i hq; injection hq with hq; subst hq)
    | (with_reducible refine Frame.lit ?_ rfl; first | with_reducible assumption | with_reducible apply modBoot_frame| split)

theorem halfDown_frame {m : Nat} {r u : State} {x0} (h : Frame m r u) (hm : m &&& 83563422287886 = 83563422287886) : Frame m r (halfDown x0 u) := by
  unfold halfDown
  try dsimp only
  repeat' first
    | with_reducible assumption
    | intro _
    | exact land_trans hm rfl
    | exact testBit_of_land hm (by decide)
    | with_reducible apply each_frame
    | with_reducible apply laneOff_frame
    | with_reducible apply portDown_frame
    | with_reducible apply ite_frame
    | (split <;> try (rename_i hq; replace hq := congrArg Prod.snd hq; dsimp only at hq; subst hq))
    | (rename_i hq; replace hq := congrArg Prod.snd hq; dsimp only at hq; subst hq)
    | (rename_i hq; injection hq with hq; subst hq)

theorem refclkLoss_frame {m : Nat} {r u : State} {x0} (h : Frame m r u) (hm : m &&& 83566643546510 = 83566643546510) : Frame m r (refclkLoss x0 u) := by
  unfold refclkLoss
  try dsimp only
  repeat' first
    | with_reducible assumption
    | intro _
    | exact land_trans hm rfl
    | exact testBit_of_land hm (by decide)
    | with_reducible apply refclkEvent_frame
    | with_reducible apply modBoot_frame
    | with_reducible apply hostDown_frame
    | with_reducible apply chainLeave_frame
    | with_reducible apply halfDown_frame
    | exact Or.inr (fun _ => rfl)
    | exact Or.inl (testBit_of_land hm (by decide))
    | exact Or.inr (fun _ => by (try dsimp only); split <;> rfl)
    | exact fun _ _ e => e
    | exact fun _ e => e
    | with_reducible apply ite_frame
    | (split <;> try (rename_i hq; replace hq := congrArg Prod.snd hq; dsimp only at hq; subst hq))
    | (rename_i hq; replace hq := congrArg Prod.snd hq; dsimp only at hq; subst hq)
    | (rename_i hq; injection hq with hq; subst hq)
    | (with_reducible refine Frame.lit ?_ rfl; first | with_reducible assumption | with_reducible apply refclkEvent_frame | with_reducible apply modBoot_frame | with_reducible apply hostDown_frame | with_reducible apply chainLeave_frame | with_reducible apply halfDown_frame| split)

theorem refclkRetry_frame {m : Nat} {r u : State} {x0} (h : Frame m r u) (hm : m &&& 70437463791752 = 70437463791752) : Frame m r (refclkRetry x0 u) := by
  unfold refclkRetry
  try dsimp only
  repeat' first
    | with_reducible assumption
    | intro _
    | exact land_trans hm rfl
    | exact testBit_of_land hm (by decide)
    | with_reducible apply startStep3_frame
    | with_reducible apply modBoot_frame
    | exact Or.inr (fun _ => rfl)
    | exact Or.inl (testBit_of_land hm (by decide))
    | exact Or.inr (fun _ => by (try dsimp only); split <;> rfl)
    | exact fun _ _ e => e
    | exact fun _ e => e
    | with_reducible apply ite_frame
    | (split <;> try (rename_i hq; replace hq := congrArg Prod.snd hq; dsimp only at hq; subst hq))
    | (rename_i hq; replace hq := congrArg Prod.snd hq; dsimp only at hq; subst hq)
    | (rename_i hq; injection hq with hq; subst hq)

theorem refclkOne_frame {m : Nat} {r u : State} {x0 x1} (h : Frame m r u) (hm : m &&& 83566643546510 = 83566643546510) : Frame m r (refclkOne x0 x1 u) := by
  unfold refclkOne
  try dsimp only
  repeat' first
    | with_reducible assumption
    | intro _
    | exact land_trans hm rfl
    | exact testBit_of_land hm (by decide)
    | with_reducible apply setReg_frame
    | with_reducible apply refclkLoss_frame
    | with_reducible apply modBoot_frame
    | exact Or.inr (fun _ => rfl)
    | exact Or.inl (testBit_of_land hm (by decide))
    | exact Or.inr (fun _ => by (try dsimp only); split <;> rfl)
    | exact fun _ _ e => e
    | exact fun _ e => e
    | with_reducible apply ite_frame
    | (split <;> try (rename_i hq; replace hq := congrArg Prod.snd hq; dsimp only at hq; subst hq))
    | (rename_i hq; replace hq := congrArg Prod.snd hq; dsimp only at hq; subst hq)
    | (rename_i hq; injection hq with hq; subst hq)

theorem refclkMeasure_frame {m : Nat} {r u : State} {x0} (h : Frame m r u) (hm : m &&& 83566643546510 = 83566643546510) : Frame m r (refclkMeasure x0 u) := by
  unfold refclkMeasure
  try dsimp only
  repeat' first
    | with_reducible assumption
    | intro _
    | exact land_trans hm rfl
    | exact testBit_of_land hm (by decide)
    | with_reducible apply each_frame
    | with_reducible apply refclkOne_frame
    | with_reducible apply ite_frame
    | (split <;> try (rename_i hq; replace hq := congrArg Prod.snd hq; dsimp only at hq; subst hq))
    | (rename_i hq; replace hq := congrArg Prod.snd hq; dsimp only at hq; subst hq)
    | (rename_i hq; injection hq with hq; subst hq)

end Sys2Proof.Machine
end

