-- ==== Sys2Proof/Laws/FrameRecords.lean ====
section
/-! SUPPORT. The frames of the operations of Machine/Records.lean: each changes nothing outside its mask (see Laws/Frame.lean). -/
set_option Elab.async false
set_option linter.all false

namespace Sys2Proof.Machine

theorem skipRecord_frame {m : Nat} {r u : State} {x0} (h : Frame m r u) (hm : m &&& 70368744179720 = 70368744179720) : Frame m r (skipRecord x0 u) := by
  unfold skipRecord
  try dsimp only
  repeat' first
    | with_reducible assumption
    | intro _
    | exact land_trans hm rfl
    | exact testBit_of_land hm (by decide)
    | with_reducible apply romEvent_frame
    | with_reducible apply count_frame
    | with_reducible apply ite_frame
    | (split <;> try (rename_i hq; replace hq := congrArg Prod.snd hq; dsimp only at hq; subst hq))
    | (rename_i hq; replace hq := congrArg Prod.snd hq; dsimp only at hq; subst hq)
    | (rename_i hq; injection hq with hq; subst hq)

theorem writeRecordAt_frame {m : Nat} {r u : State} {x0} (h : Frame m r u) (hm : m &&& 140737488355326 = 140737488355326) : Frame m r (writeRecordAt x0 u) := by
  unfold writeRecordAt
  try dsimp only
  repeat' first
    | with_reducible assumption
    | intro _
    | exact land_trans hm rfl
    | exact testBit_of_land hm (by decide)
    | with_reducible apply skipRecord_frame
    | with_reducible apply writeReg_frame
    | with_reducible apply ite_frame
    | (split <;> try (rename_i hq; replace hq := congrArg Prod.snd hq; dsimp only at hq; subst hq))
    | (rename_i hq; replace hq := congrArg Prod.snd hq; dsimp only at hq; subst hq)
    | (rename_i hq; injection hq with hq; subst hq)

theorem loadEntries_frame {m : Nat} {r u : State} {x0 x1 x2 x3 x4 x5} (h : Frame m r u) (hf2 : ∀ y0 y1 v w, Frame m r v → x2 y0 y1 v = some w → Frame m r w) : Frame m r (loadEntries x0 x1 x2 x3 x4 x5 u).2 := by
  induction x3 generalizing x4 x5 u with
  | zero =>
    unfold loadEntries
    try dsimp only
    repeat' first
      | with_reducible assumption
      | intro _
      | exact land_trans hm rfl
      | exact testBit_of_land hm (by decide)
      | with_reducible apply ite_frame
      | (split <;> try (rename_i hq; replace hq := congrArg Prod.snd hq; dsimp only at hq; subst hq))
      | (rename_i hq; replace hq := congrArg Prod.snd hq; dsimp only at hq; subst hq)
      | (with_reducible refine hf2 _ _ _ _ ?_ (by assumption))
      | (rename_i hq; injection hq with hq; subst hq)
  | succ n ih =>
    unfold loadEntries
    try dsimp only
    repeat' first
      | with_reducible assumption
      | intro _
      | exact land_trans hm rfl
      | exact testBit_of_land hm (by decide)
      | with_reducible apply ih
      | with_reducible apply ite_frame
      | (split <;> try (rename_i hq; replace hq := congrArg Prod.snd hq; dsimp only at hq; subst hq))
      | (rename_i hq; replace hq := congrArg Prod.snd hq; dsimp only at hq; subst hq)
      | (with_reducible refine hf2 _ _ _ _ ?_ (by assumption))
      | (rename_i hq; injection hq with hq; subst hq)

theorem loadRule_frame {m : Nat} {r u w : State} {x0 x1 x2} (h : Frame m r u) (hm : m &&& 33554432 = 33554432) (e : loadRule x0 x1 x2 u = some w) : Frame m r w := by
  unfold loadRule at e
  try dsimp only at e
  repeat' split at e
  all_goals first | (injection e with e; subst e) | injection e
  all_goals repeat' first
    | with_reducible assumption
    | intro _
    | exact land_trans hm rfl
    | exact testBit_of_land hm (by decide)
    | with_reducible apply setRule_frame
    | with_reducible apply ite_frame
    | (split <;> try (rename_i hq; replace hq := congrArg Prod.snd hq; dsimp only at hq; subst hq))
    | (rename_i hq; replace hq := congrArg Prod.snd hq; dsimp only at hq; subst hq)
    | (rename_i hq; injection hq with hq; subst hq)

theorem loadAutomaton_frame {m : Nat} {r u w : State} {x0 x1 x2} (h : Frame m r u) (hm : m &&& 33554432 = 33554432) (e : loadAutomaton x0 x1 x2 u = some w) : Frame m r w := by
  unfold loadAutomaton at e
  try dsimp only at e
  repeat' split at e
  all_goals first | (injection e with e; subst e) | injection e
  all_goals repeat' first
    | with_reducible assumption
    | intro _
    | exact land_trans hm rfl
    | exact testBit_of_land hm (by decide)
    | with_reducible apply modCls_frame
    | with_reducible apply ite_frame
    | (split <;> try (rename_i hq; replace hq := congrArg Prod.snd hq; dsimp only at hq; subst hq))
    | (rename_i hq; replace hq := congrArg Prod.snd hq; dsimp only at hq; subst hq)
    | (rename_i hq; injection hq with hq; subst hq)

theorem loadSeed_frame {m : Nat} {r u w : State} {x0 x1} (h : Frame m r u) (hm : m &&& 33554440 = 33554440) (e : loadSeed x0 x1 u = some w) : Frame m r w := by
  unfold loadSeed at e
  try dsimp only at e
  repeat' split at e
  all_goals first | (injection e with e; subst e) | injection e
  all_goals repeat' first
    | with_reducible assumption
    | intro _
    | exact land_trans hm rfl
    | exact testBit_of_land hm (by decide)
    | with_reducible apply fdbPut_frame
    | with_reducible apply count_frame
    | with_reducible apply ite_frame
    | (split <;> try (rename_i hq; replace hq := congrArg Prod.snd hq; dsimp only at hq; subst hq))
    | (rename_i hq; replace hq := congrArg Prod.snd hq; dsimp only at hq; subst hq)
    | (rename_i hq; injection hq with hq; subst hq)

theorem loadVlan_frame {m : Nat} {r u w : State} {x0 x1} (h : Frame m r u) (hm : m &&& 33554432 = 33554432) (e : loadVlan x0 x1 u = some w) : Frame m r w := by
  unfold loadVlan at e
  try dsimp only at e
  repeat' split at e
  all_goals first | (injection e with e; subst e) | injection e
  all_goals repeat' first
    | with_reducible assumption
    | intro _
    | exact land_trans hm rfl
    | exact testBit_of_land hm (by decide)
    | with_reducible apply setVlan_frame
    | with_reducible apply ite_frame
    | (split <;> try (rename_i hq; replace hq := congrArg Prod.snd hq; dsimp only at hq; subst hq))
    | (rename_i hq; replace hq := congrArg Prod.snd hq; dsimp only at hq; subst hq)
    | (rename_i hq; injection hq with hq; subst hq)

theorem loadGate_frame {m : Nat} {r u w : State} {x0 x1} (h : Frame m r u) (hm : m &&& 524288 = 524288) (e : loadGate x0 x1 u = some w) : Frame m r w := by
  unfold loadGate at e
  try dsimp only at e
  repeat' split at e
  all_goals first | (injection e with e; subst e) | injection e
  all_goals repeat' first
    | with_reducible assumption
    | intro _
    | exact land_trans hm rfl
    | exact testBit_of_land hm (by decide)
    | with_reducible apply setAdminEntry_frame
    | with_reducible apply ite_frame
    | (split <;> try (rename_i hq; replace hq := congrArg Prod.snd hq; dsimp only at hq; subst hq))
    | (rename_i hq; replace hq := congrArg Prod.snd hq; dsimp only at hq; subst hq)
    | (rename_i hq; injection hq with hq; subst hq)

theorem loadTable_frame {m : Nat} {r u : State} {x0 x1 x2} (h : Frame m r u) (hm : m &&& 34078728 = 34078728) : Frame m r (loadTable x0 x1 x2 u).2 := by
  unfold loadTable
  try dsimp only
  repeat' first
    | with_reducible assumption
    | intro _
    | exact land_trans hm rfl
    | exact testBit_of_land hm (by decide)
    | with_reducible apply loadEntries_frame
    | with_reducible apply ite_frame
    | (split <;> try (rename_i hq; replace hq := congrArg Prod.snd hq; dsimp only at hq; subst hq))
    | (rename_i hq; replace hq := congrArg Prod.snd hq; dsimp only at hq; subst hq)
    | (with_reducible refine loadRule_frame (e := by assumption) ?_ ?_)
    | (with_reducible refine loadAutomaton_frame (e := by assumption) ?_ ?_)
    | (with_reducible refine loadSeed_frame (e := by assumption) ?_ ?_)
    | (with_reducible refine loadVlan_frame (e := by assumption) ?_ ?_)
    | (with_reducible refine loadGate_frame (e := by assumption) ?_ ?_)
    | (rename_i hq; injection hq with hq; subst hq)

theorem tableRecordAt_frame {m : Nat} {r u : State} {x0} (h : Frame m r u) (hm : m &&& 70368778258440 = 70368778258440) : Frame m r (tableRecordAt x0 u) := by
  unfold tableRecordAt
  try dsimp only
  repeat' first
    | with_reducible assumption
    | intro _
    | exact land_trans hm rfl
    | exact testBit_of_land hm (by decide)
    | with_reducible apply skipRecord_frame
    | with_reducible apply loadTable_frame
    | with_reducible apply ite_frame
    | (split <;> try (rename_i hq; replace hq := congrArg Prod.snd hq; dsimp only at hq; subst hq))
    | (rename_i hq; replace hq := congrArg Prod.snd hq; dsimp only at hq; subst hq)
    | (rename_i hq; injection hq with hq; subst hq)

theorem initRecordAt_frame {m : Nat} {r u : State} {x0} (h : Frame m r u) (hm : m &&& 70368744180744 = 70368744180744) : Frame m r (initRecordAt x0 u) := by
  unfold initRecordAt
  try dsimp only
  repeat' first
    | with_reducible assumption
    | intro _
    | exact land_trans hm rfl
    | exact testBit_of_land hm (by decide)
    | with_reducible apply skipRecord_frame
    | with_reducible apply keepWrite_frame
    | with_reducible apply ite_frame
    | (split <;> try (rename_i hq; replace hq := congrArg Prod.snd hq; dsimp only at hq; subst hq))
    | (rename_i hq; replace hq := congrArg Prod.snd hq; dsimp only at hq; subst hq)
    | (rename_i hq; injection hq with hq; subst hq)

theorem applyRecord_frame {m : Nat} {r u : State} {x0} (h : Frame m r u) (hm : m &&& 140737488355326 = 140737488355326) : Frame m r (applyRecord x0 u) := by
  unfold applyRecord
  try dsimp only
  repeat' first
    | with_reducible assumption
    | intro _
    | exact land_trans hm rfl
    | exact testBit_of_land hm (by decide)
    | with_reducible apply skipRecord_frame
    | with_reducible apply writeRecordAt_frame
    | with_reducible apply tableRecordAt_frame
    | with_reducible apply initRecordAt_frame
    | with_reducible apply ite_frame
    | (split <;> try (rename_i hq; replace hq := congrArg Prod.snd hq; dsimp only at hq; subst hq))
    | (rename_i hq; replace hq := congrArg Prod.snd hq; dsimp only at hq; subst hq)
    | (rename_i hq; injection hq with hq; subst hq)

theorem domainReloaded_frame {m : Nat} {r u : State} {x0} (h : Frame m r u) (hm : m &&& 140737488355326 = 140737488355326) : Frame m r (domainReloaded x0 u) := by
  unfold domainReloaded
  try dsimp only
  repeat' first
    | with_reducible assumption
    | intro _
    | exact land_trans hm rfl
    | exact testBit_of_land hm (by decide)
    | with_reducible apply when'_frame
    | with_reducible apply heldDomainsBegin_frame
    | with_reducible apply resetEvent_frame
    | with_reducible apply reachDom_frame
    | with_reducible apply resumeCounter_frame
    | with_reducible apply requestSaved_frame
    | with_reducible apply checkPartition_frame
    | with_reducible apply modBoot_frame
    | exact Or.inr (fun _ => rfl)
    | exact Or.inl (testBit_of_land hm (by decide))
    | exact Or.inr (fun _ => by (try dsimp only); split <;> rfl)
    | exact fun _ _ e => e
    | exact fun _ e => e
    | with_reducible apply ite_frame
    | (split <;> try (rename_i hq; replace hq := congrArg Prod.snd hq; dsimp only at hq; subst hq))
    | (rename_i hq; replace hq := congrArg Prod.snd hq; dsimp only at hq; subst hq)
    | (rename_i hq; injection hq with hq; subst hq)

theorem recordsApplied_frame {m : Nat} {r u : State} (h : Frame m r u) (hm : m &&& 72567767468168 = 72567767468168) : Frame m r (recordsApplied u) := by
  unfold recordsApplied
  try dsimp only
  repeat' first
    | with_reducible assumption
    | intro _
    | exact land_trans hm rfl
    | exact testBit_of_land hm (by decide)
    | with_reducible apply checkPartition_frame
    | with_reducible apply modBoot_frame
    | with_reducible apply modProt_frame
    | exact Or.inr (fun _ => rfl)
    | exact Or.inl (testBit_of_land hm (by decide))
    | exact Or.inr (fun _ => by (try dsimp only); split <;> rfl)
    | exact fun _ _ e => e
    | exact fun _ e => e
    | with_reducible apply ite_frame
    | (split <;> try (rename_i hq; replace hq := congrArg Prod.snd hq; dsimp only at hq; subst hq))
    | (rename_i hq; replace hq := congrArg Prod.snd hq; dsimp only at hq; subst hq)
    | (rename_i hq; injection hq with hq; subst hq)
    | (with_reducible refine Frame.lit ?_ rfl; first | with_reducible assumption | with_reducible apply checkPartition_frame | with_reducible apply modBoot_frame | with_reducible apply modProt_frame| split)

theorem recordsDone_frame {m : Nat} {r u : State} (h : Frame m r u) (hm : m &&& 140737488355326 = 140737488355326) : Frame m r (recordsDone u) := by
  unfold recordsDone
  try dsimp only
  repeat' first
    | with_reducible assumption
    | intro _
    | exact land_trans hm rfl
    | exact testBit_of_land hm (by decide)
    | with_reducible apply domainReloaded_frame
    | with_reducible apply recordsApplied_frame
    | with_reducible apply ite_frame
    | (split <;> try (rename_i hq; replace hq := congrArg Prod.snd hq; dsimp only at hq; subst hq))
    | (rename_i hq; replace hq := congrArg Prod.snd hq; dsimp only at hq; subst hq)
    | (rename_i hq; injection hq with hq; subst hq)

theorem applyImage_frame {m : Nat} {r u : State} {x0} (h : Frame m r u) (hm : m &&& 140737488355326 = 140737488355326) : Frame m r (applyImage x0 u) := by
  induction x0 generalizing  u with
  | nil =>
    unfold applyImage
    try dsimp only
    repeat' first
      | with_reducible assumption
      | intro _
      | exact land_trans hm rfl
      | exact testBit_of_land hm (by decide)
      | with_reducible apply recordsDone_frame
      | with_reducible apply applyRecord_frame
      | with_reducible apply modBoot_frame
      | exact Or.inr (fun _ => rfl)
      | exact Or.inl (testBit_of_land hm (by decide))
      | exact Or.inr (fun _ => by (try dsimp only); split <;> rfl)
      | exact fun _ _ e => e
      | exact fun _ e => e
      | with_reducible apply ite_frame
      | (split <;> try (rename_i hq; replace hq := congrArg Prod.snd hq; dsimp only at hq; subst hq))
      | (rename_i hq; replace hq := congrArg Prod.snd hq; dsimp only at hq; subst hq)
      | (rename_i hq; injection hq with hq; subst hq)
  | cons y l ih =>
    unfold applyImage
    try dsimp only
    repeat' first
      | with_reducible assumption
      | intro _
      | exact land_trans hm rfl
      | exact testBit_of_land hm (by decide)
      | with_reducible apply recordsDone_frame
      | with_reducible apply applyRecord_frame
      | with_reducible apply modBoot_frame
      | exact Or.inr (fun _ => rfl)
      | exact Or.inl (testBit_of_land hm (by decide))
      | exact Or.inr (fun _ => by (try dsimp only); split <;> rfl)
      | exact fun _ _ e => e
      | exact fun _ e => e
      | with_reducible apply ih
      | with_reducible apply ite_frame
      | (split <;> try (rename_i hq; replace hq := congrArg Prod.snd hq; dsimp only at hq; subst hq))
      | (rename_i hq; replace hq := congrArg Prod.snd hq; dsimp only at hq; subst hq)
      | (rename_i hq; injection hq with hq; subst hq)

theorem imageApply_frame {m : Nat} {r u : State} (h : Frame m r u) (hm : m &&& 140737488355326 = 140737488355326) : Frame m r (imageApply u) := by
  unfold imageApply
  try dsimp only
  repeat' first
    | with_reducible assumption
    | intro _
    | exact land_trans hm rfl
    | exact testBit_of_land hm (by decide)
    | with_reducible apply applyImage_frame
    | with_reducible apply modBoot_frame
    | exact Or.inr (fun _ => rfl)
    | exact Or.inl (testBit_of_land hm (by decide))
    | exact Or.inr (fun _ => by (try dsimp only); split <;> rfl)
    | exact fun _ _ e => e
    | exact fun _ e => e
    | with_reducible apply ite_frame
    | (split <;> try (rename_i hq; replace hq := congrArg Prod.snd hq; dsimp only at hq; subst hq))
    | (rename_i hq; replace hq := congrArg Prod.snd hq; dsimp only at hq; subst hq)
    | (rename_i hq; injection hq with hq; subst hq)
    | (with_reducible refine Frame.lit ?_ rfl; first | with_reducible assumption | with_reducible apply applyImage_frame | with_reducible apply modBoot_frame| split)

theorem replayDomain_frame {m : Nat} {r u : State} {x0 x1} (h : Frame m r u) (hm : m &&& 140737488355326 = 140737488355326) : Frame m r (replayDomain x0 x1 u) := by
  unfold replayDomain
  try dsimp only
  repeat' first
    | with_reducible assumption
    | intro _
    | exact land_trans hm rfl
    | exact testBit_of_land hm (by decide)
    | with_reducible apply modBoot_frame
    | with_reducible apply requestReset_frame
    | with_reducible apply applyImage_frame
    | exact Or.inr (fun _ => rfl)
    | exact Or.inl (testBit_of_land hm (by decide))
    | exact Or.inr (fun _ => by (try dsimp only); split <;> rfl)
    | exact fun _ _ e => e
    | exact fun _ e => e
    | with_reducible apply ite_frame
    | (split <;> try (rename_i hq; replace hq := congrArg Prod.snd hq; dsimp only at hq; subst hq))
    | (rename_i hq; replace hq := congrArg Prod.snd hq; dsimp only at hq; subst hq)
    | (rename_i hq; injection hq with hq; subst hq)

theorem releaseWaiting_frame {m : Nat} {r u : State} {x0} (h : Frame m r u) (hm : m &&& 140737488355326 = 140737488355326) : Frame m r (releaseWaiting x0 u) := by
  induction x0 generalizing  u with
  | zero =>
    unfold releaseWaiting
    try dsimp only
    repeat' first
      | with_reducible assumption
      | intro _
      | exact land_trans hm rfl
      | exact testBit_of_land hm (by decide)
      | with_reducible apply when'_frame
      | with_reducible apply modBoot_frame
      | with_reducible apply replayDomain_frame
      | exact Or.inr (fun _ => rfl)
      | exact Or.inl (testBit_of_land hm (by decide))
      | exact Or.inr (fun _ => by (try dsimp only); split <;> rfl)
      | exact fun _ _ e => e
      | exact fun _ e => e
      | with_reducible apply ite_frame
      | (split <;> try (rename_i hq; replace hq := congrArg Prod.snd hq; dsimp only at hq; subst hq))
      | (rename_i hq; replace hq := congrArg Prod.snd hq; dsimp only at hq; subst hq)
      | (rename_i hq; injection hq with hq; subst hq)
  | succ n ih =>
    unfold releaseWaiting
    try dsimp only
    repeat' first
      | with_reducible assumption
      | intro _
      | exact land_trans hm rfl
      | exact testBit_of_land hm (by decide)
      | with_reducible apply when'_frame
      | with_reducible apply modBoot_frame
      | with_reducible apply replayDomain_frame
      | exact Or.inr (fun _ => rfl)
      | exact Or.inl (testBit_of_land hm (by decide))
      | exact Or.inr (fun _ => by (try dsimp only); split <;> rfl)
      | exact fun _ _ e => e
      | exact fun _ e => e
      | with_reducible apply ih
      | with_reducible apply ite_frame
      | (split <;> try (rename_i hq; replace hq := congrArg Prod.snd hq; dsimp only at hq; subst hq))
      | (rename_i hq; replace hq := congrArg Prod.snd hq; dsimp only at hq; subst hq)
      | (rename_i hq; injection hq with hq; subst hq)

theorem recordBusyWait_frame {m : Nat} {r u : State} {x0} (h : Frame m r u) (hm : m &&& 140737488355326 = 140737488355326) : Frame m r (recordBusyWait x0 u) := by
  unfold recordBusyWait
  try dsimp only
  repeat' first
    | with_reducible assumption
    | intro _
    | exact land_trans hm rfl
    | exact testBit_of_land hm (by decide)
    | with_reducible apply when'_frame
    | with_reducible apply releaseWaiting_frame
    | with_reducible apply applyImage_frame
    | with_reducible apply skipRecord_frame
    | with_reducible apply modBoot_frame
    | exact Or.inr (fun _ => rfl)
    | exact Or.inl (testBit_of_land hm (by decide))
    | exact Or.inr (fun _ => by (try dsimp only); split <;> rfl)
    | exact fun _ _ e => e
    | exact fun _ e => e
    | with_reducible apply ite_frame
    | (split <;> try (rename_i hq; replace hq := congrArg Prod.snd hq; dsimp only at hq; subst hq))
    | (rename_i hq; replace hq := congrArg Prod.snd hq; dsimp only at hq; subst hq)
    | (rename_i hq; injection hq with hq; subst hq)

theorem domainRelease_frame {m : Nat} {r u : State} {x0 x1} (h : Frame m r u) (hm : m &&& 140737488355326 = 140737488355326) : Frame m r (domainRelease x0 x1 u) := by
  unfold domainRelease
  try dsimp only
  repeat' first
    | with_reducible assumption
    | intro _
    | exact land_trans hm rfl
    | exact testBit_of_land hm (by decide)
    | with_reducible apply modBoot_frame
    | with_reducible apply replayDomain_frame
    | exact Or.inr (fun _ => rfl)
    | exact Or.inl (testBit_of_land hm (by decide))
    | exact Or.inr (fun _ => by (try dsimp only); split <;> rfl)
    | exact fun _ _ e => e
    | exact fun _ e => e
    | with_reducible apply ite_frame
    | (split <;> try (rename_i hq; replace hq := congrArg Prod.snd hq; dsimp only at hq; subst hq))
    | (rename_i hq; replace hq := congrArg Prod.snd hq; dsimp only at hq; subst hq)
    | (rename_i hq; injection hq with hq; subst hq)

theorem startRunning_frame {m : Nat} {r u : State} (h : Frame m r u) (hm : m &&& 71674439424140 = 71674439424140) : Frame m r (startRunning u) := by
  unfold startRunning
  try dsimp only
  repeat' first
    | with_reducible assumption
    | intro _
    | exact land_trans hm rfl
    | exact testBit_of_land hm (by decide)
    | with_reducible apply setOptic_frame
    | with_reducible apply raiseVoted_frame
    | with_reducible apply refreshVotes_frame
    | with_reducible apply startIdents_frame
    | with_reducible apply requestSaved_frame
    | with_reducible apply loadEpochs_frame
    | with_reducible apply modBoot_frame
    | exact Or.inr (fun _ => rfl)
    | exact Or.inl (testBit_of_land hm (by decide))
    | exact Or.inr (fun _ => by (try dsimp only); split <;> rfl)
    | exact fun _ _ e => e
    | exact fun _ e => e
    | with_reducible apply ite_frame
    | (split <;> try (rename_i hq; replace hq := congrArg Prod.snd hq; dsimp only at hq; subst hq))
    | (rename_i hq; replace hq := congrArg Prod.snd hq; dsimp only at hq; subst hq)
    | (rename_i hq; injection hq with hq; subst hq)
    | (with_reducible refine Frame.lit ?_ rfl; first | with_reducible assumption | with_reducible apply setOptic_frame | with_reducible apply raiseVoted_frame | with_reducible apply refreshVotes_frame | with_reducible apply startIdents_frame | with_reducible apply requestSaved_frame | with_reducible apply loadEpochs_frame | with_reducible apply modBoot_frame| split)

theorem scanRow_frame {m : Nat} {r u : State} {x0 x1} (h : Frame m r u) (hm : m &&& 84868646722702 = 84868646722702) : Frame m r (scanRow x0 x1 u) := by
  unfold scanRow
  try dsimp only
  repeat' first
    | with_reducible assumption
    | intro _
    | exact land_trans hm rfl
    | exact testBit_of_land hm (by decide)
    | with_reducible apply startRunning_frame
    | with_reducible apply journalScan_frame
    | with_reducible apply ite_frame
    | (split <;> try (rename_i hq; replace hq := congrArg Prod.snd hq; dsimp only at hq; subst hq))
    | (rename_i hq; replace hq := congrArg Prod.snd hq; dsimp only at hq; subst hq)
    | (rename_i hq; injection hq with hq; subst hq)

end Sys2Proof.Machine
end

