-- ==== Sys2Proof/Laws/FrameChain.lean ====
section
/-! SUPPORT. The frames of the operations of Machine/Chain.lean: each changes nothing outside its mask (see Laws/Frame.lean). -/
set_option Elab.async false
set_option linter.all false

namespace Sys2Proof.Machine

theorem modChain_frame {m : Nat} {r u : State} {x0} (h : Frame m r u) (hm : m &&& 1073741824 = 1073741824) : Frame m r (modChain x0 u) := by
  unfold modChain
  try dsimp only
  repeat' first
    | with_reducible assumption
    | intro _
    | exact land_trans hm rfl
    | exact testBit_of_land hm (by decide)
    | with_reducible apply ite_frame
    | (split <;> try (rename_i hq; replace hq := congrArg Prod.snd hq; dsimp only at hq; subst hq))
    | (rename_i hq; replace hq := congrArg Prod.snd hq; dsimp only at hq; subst hq)
    | (rename_i hq; injection hq with hq; subst hq)
    | (with_reducible refine Frame.lit ?_ rfl; first | with_reducible assumption | split)

theorem modHost_frame {m : Nat} {r u : State} {x0} (h : Frame m r u) (hm : m &&& 2147483648 = 2147483648) : Frame m r (modHost x0 u) := by
  unfold modHost
  try dsimp only
  repeat' first
    | with_reducible assumption
    | intro _
    | exact land_trans hm rfl
    | exact testBit_of_land hm (by decide)
    | with_reducible apply ite_frame
    | (split <;> try (rename_i hq; replace hq := congrArg Prod.snd hq; dsimp only at hq; subst hq))
    | (rename_i hq; replace hq := congrArg Prod.snd hq; dsimp only at hq; subst hq)
    | (rename_i hq; injection hq with hq; subst hq)
    | (with_reducible refine Frame.lit ?_ rfl; first | with_reducible assumption | split)

theorem evalBanksman_frame {m : Nat} {r u : State} {x0} (h : Frame m r u) (hm : m &&& 70369817921544 = 70369817921544) : Frame m r (evalBanksman x0 u) := by
  unfold evalBanksman
  try dsimp only
  repeat' first
    | with_reducible assumption
    | intro _
    | exact land_trans hm rfl
    | exact testBit_of_land hm (by decide)
    | with_reducible apply event_frame
    | with_reducible apply modChain_frame
    | with_reducible apply ite_frame
    | (split <;> try (rename_i hq; replace hq := congrArg Prod.snd hq; dsimp only at hq; subst hq))
    | (rename_i hq; replace hq := congrArg Prod.snd hq; dsimp only at hq; subst hq)
    | (rename_i hq; injection hq with hq; subst hq)

theorem banksmanUnreachable_frame {m : Nat} {r u : State} (h : Frame m r u) (hm : m &&& 70369817921544 = 70369817921544) : Frame m r (banksmanUnreachable u) := by
  unfold banksmanUnreachable
  try dsimp only
  repeat' first
    | with_reducible assumption
    | intro _
    | exact land_trans hm rfl
    | exact testBit_of_land hm (by decide)
    | with_reducible apply evalBanksman_frame
    | with_reducible apply modChain_frame
    | with_reducible apply ite_frame
    | (split <;> try (rename_i hq; replace hq := congrArg Prod.snd hq; dsimp only at hq; subst hq))
    | (rename_i hq; replace hq := congrArg Prod.snd hq; dsimp only at hq; subst hq)
    | (rename_i hq; injection hq with hq; subst hq)

theorem ringVector_frame {m : Nat} {r u : State} {x0} (h : Frame m r u) (hm : m &&& 2147483652 = 2147483652) : Frame m r (ringVector x0 u) := by
  unfold ringVector
  try dsimp only
  repeat' first
    | with_reducible assumption
    | intro _
    | exact land_trans hm rfl
    | exact testBit_of_land hm (by decide)
    | with_reducible apply emit_frame
    | with_reducible apply modHost_frame
    | with_reducible apply ite_frame
    | (split <;> try (rename_i hq; replace hq := congrArg Prod.snd hq; dsimp only at hq; subst hq))
    | (rename_i hq; replace hq := congrArg Prod.snd hq; dsimp only at hq; subst hq)
    | (rename_i hq; injection hq with hq; subst hq)

theorem hostEntry_frame {m : Nat} {r u : State} {x0 x1 x2 x3} (h : Frame m r u) (hm : m &&& 2147483660 = 2147483660) : Frame m r (hostEntry x0 x1 x2 x3 u) := by
  unfold hostEntry
  try dsimp only
  repeat' first
    | with_reducible assumption
    | intro _
    | exact land_trans hm rfl
    | exact testBit_of_land hm (by decide)
    | with_reducible apply count_frame
    | with_reducible apply ringVector_frame
    | with_reducible apply setRfld_frame
    | with_reducible apply emit_frame
    | with_reducible apply ite_frame
    | (split <;> try (rename_i hq; replace hq := congrArg Prod.snd hq; dsimp only at hq; subst hq))
    | (rename_i hq; replace hq := congrArg Prod.snd hq; dsimp only at hq; subst hq)
    | (rename_i hq; injection hq with hq; subst hq)

theorem eventFwd_frame {m : Nat} {r u : State} {x0 x1 x2} (h : Frame m r u) (hm : m &&& 2147483660 = 2147483660) : Frame m r (eventFwd x0 x1 x2 u) := by
  unfold eventFwd
  try dsimp only
  repeat' first
    | with_reducible assumption
    | intro _
    | exact land_trans hm rfl
    | exact testBit_of_land hm (by decide)
    | with_reducible apply hostEntry_frame
    | with_reducible apply ite_frame
    | (split <;> try (rename_i hq; replace hq := congrArg Prod.snd hq; dsimp only at hq; subst hq))
    | (rename_i hq; replace hq := congrArg Prod.snd hq; dsimp only at hq; subst hq)
    | (rename_i hq; injection hq with hq; subst hq)

theorem excFwd_frame {m : Nat} {r u : State} {x0 x1} (h : Frame m r u) (hm : m &&& 2147483660 = 2147483660) : Frame m r (excFwd x0 x1 u) := by
  unfold excFwd
  try dsimp only
  repeat' first
    | with_reducible assumption
    | intro _
    | exact land_trans hm rfl
    | exact testBit_of_land hm (by decide)
    | with_reducible apply hostEntry_frame
    | with_reducible apply ite_frame
    | (split <;> try (rename_i hq; replace hq := congrArg Prod.snd hq; dsimp only at hq; subst hq))
    | (rename_i hq; replace hq := congrArg Prod.snd hq; dsimp only at hq; subst hq)
    | (rename_i hq; injection hq with hq; subst hq)

theorem sendRecord_frame {m : Nat} {r u : State} {x0 x1 x2} (h : Frame m r u) (hm : m &&& 3221225484 = 3221225484) : Frame m r (sendRecord x0 x1 x2 u) := by
  unfold sendRecord
  try dsimp only
  repeat' first
    | with_reducible assumption
    | intro _
    | exact land_trans hm rfl
    | exact testBit_of_land hm (by decide)
    | with_reducible apply hostEntry_frame
    | with_reducible apply nextTag_frame
    | with_reducible apply sendChain_frame
    | with_reducible apply ite_frame
    | (split <;> try (rename_i hq; replace hq := congrArg Prod.snd hq; dsimp only at hq; subst hq))
    | (rename_i hq; replace hq := congrArg Prod.snd hq; dsimp only at hq; subst hq)
    | (rename_i hq; injection hq with hq; subst hq)

theorem forwardSeq_frame {m : Nat} {r u : State} {x0 x1} (h : Frame m r u) (hm : m &&& 3221227532 = 3221227532) : Frame m r (forwardSeq x0 x1 u) := by
  unfold forwardSeq
  try dsimp only
  repeat' first
    | with_reducible assumption
    | intro _
    | exact land_trans hm rfl
    | exact testBit_of_land hm (by decide)
    | with_reducible apply sendRecord_frame
    | with_reducible apply modChain_frame
    | with_reducible apply count_frame
    | with_reducible apply ite_frame
    | (split <;> try (rename_i hq; replace hq := congrArg Prod.snd hq; dsimp only at hq; subst hq))
    | (rename_i hq; replace hq := congrArg Prod.snd hq; dsimp only at hq; subst hq)
    | (rename_i hq; injection hq with hq; subst hq)
    | (with_reducible refine Frame.lit ?_ rfl; first | with_reducible assumption | with_reducible apply sendRecord_frame | with_reducible apply modChain_frame | with_reducible apply count_frame| split)

theorem recordForward_frame {m : Nat} {r u : State} (h : Frame m r u) (hm : m &&& 3221227532 = 3221227532) : Frame m r (recordForward u) := by
  unfold recordForward
  try dsimp only
  repeat' first
    | with_reducible assumption
    | intro _
    | exact land_trans hm rfl
    | exact testBit_of_land hm (by decide)
    | with_reducible apply forwardSeq_frame
    | with_reducible apply count_frame
    | with_reducible apply ite_frame
    | (split <;> try (rename_i hq; replace hq := congrArg Prod.snd hq; dsimp only at hq; subst hq))
    | (rename_i hq; replace hq := congrArg Prod.snd hq; dsimp only at hq; subst hq)
    | (rename_i hq; injection hq with hq; subst hq)

theorem excForward_frame {m : Nat} {r u : State} (h : Frame m r u) (hm : m &&& 83566139148302 = 83566139148302) : Frame m r (excForward u) := by
  unfold excForward
  try dsimp only
  repeat' first
    | with_reducible assumption
    | intro _
    | exact land_trans hm rfl
    | exact testBit_of_land hm (by decide)
    | with_reducible apply settleExceptions_frame
    | with_reducible apply tubFree_frame
    | with_reducible apply modCls_frame
    | with_reducible apply sendRecord_frame
    | with_reducible apply count_frame
    | with_reducible apply ite_frame
    | (split <;> try (rename_i hq; replace hq := congrArg Prod.snd hq; dsimp only at hq; subst hq))
    | (rename_i hq; replace hq := congrArg Prod.snd hq; dsimp only at hq; subst hq)
    | (rename_i hq; injection hq with hq; subst hq)

theorem sendRequest_frame {m : Nat} {r u : State} {x0} (h : Frame m r u) (hm : m &&& 2147483660 = 2147483660) : Frame m r (sendRequest x0 u) := by
  unfold sendRequest
  try dsimp only
  repeat' first
    | with_reducible assumption
    | intro _
    | exact land_trans hm rfl
    | exact testBit_of_land hm (by decide)
    | with_reducible apply modHost_frame
    | with_reducible apply sendChain_frame
    | with_reducible apply ite_frame
    | (split <;> try (rename_i hq; replace hq := congrArg Prod.snd hq; dsimp only at hq; subst hq))
    | (rename_i hq; replace hq := congrArg Prod.snd hq; dsimp only at hq; subst hq)
    | (rename_i hq; injection hq with hq; subst hq)

theorem startRequests_frame {m : Nat} {r u : State} {x0} (h : Frame m r u) (hm : m &&& 2147483660 = 2147483660) : Frame m r (startRequests x0 u) := by
  induction x0 generalizing  u with
  | zero =>
    unfold startRequests
    try dsimp only
    repeat' first
      | with_reducible assumption
      | intro _
      | exact land_trans hm rfl
      | exact testBit_of_land hm (by decide)
      | with_reducible apply sendRequest_frame
      | with_reducible apply modHost_frame
      | with_reducible apply ite_frame
      | (split <;> try (rename_i hq; replace hq := congrArg Prod.snd hq; dsimp only at hq; subst hq))
      | (rename_i hq; replace hq := congrArg Prod.snd hq; dsimp only at hq; subst hq)
      | (rename_i hq; injection hq with hq; subst hq)
  | succ n ih =>
    unfold startRequests
    try dsimp only
    repeat' first
      | with_reducible assumption
      | intro _
      | exact land_trans hm rfl
      | exact testBit_of_land hm (by decide)
      | with_reducible apply sendRequest_frame
      | with_reducible apply modHost_frame
      | with_reducible apply ih
      | with_reducible apply ite_frame
      | (split <;> try (rename_i hq; replace hq := congrArg Prod.snd hq; dsimp only at hq; subst hq))
      | (rename_i hq; replace hq := congrArg Prod.snd hq; dsimp only at hq; subst hq)
      | (rename_i hq; injection hq with hq; subst hq)

theorem serveRequests_frame {m : Nat} {r u : State} (h : Frame m r u) (hm : m &&& 2147483660 = 2147483660) : Frame m r (serveRequests u) := by
  unfold serveRequests
  try dsimp only
  repeat' first
    | with_reducible assumption
    | intro _
    | exact land_trans hm rfl
    | exact testBit_of_land hm (by decide)
    | with_reducible apply startRequests_frame
    | with_reducible apply ite_frame
    | (split <;> try (rename_i hq; replace hq := congrArg Prod.snd hq; dsimp only at hq; subst hq))
    | (rename_i hq; replace hq := congrArg Prod.snd hq; dsimp only at hq; subst hq)
    | (rename_i hq; injection hq with hq; subst hq)

theorem queueRequest_frame {m : Nat} {r u : State} {x0 x1 x2} (h : Frame m r u) (hm : m &&& 3221225484 = 3221225484) : Frame m r (queueRequest x0 x1 x2 u) := by
  unfold queueRequest
  try dsimp only
  repeat' first
    | with_reducible assumption
    | intro _
    | exact land_trans hm rfl
    | exact testBit_of_land hm (by decide)
    | with_reducible apply nextTag_frame
    | with_reducible apply serveRequests_frame
    | with_reducible apply modHost_frame
    | with_reducible apply ite_frame
    | (split <;> try (rename_i hq; replace hq := congrArg Prod.snd hq; dsimp only at hq; subst hq))
    | (rename_i hq; replace hq := congrArg Prod.snd hq; dsimp only at hq; subst hq)
    | (rename_i hq; injection hq with hq; subst hq)

theorem bar0Access_frame {m : Nat} {r u : State} {x0 x1} (h : Frame m r u) (hm : m &&& 140737488355326 = 140737488355326) : Frame m r (bar0Access x0 x1 u) := by
  unfold bar0Access
  try dsimp only
  repeat' first
    | with_reducible assumption
    | intro _
    | exact land_trans hm rfl
    | exact testBit_of_land hm (by decide)
    | with_reducible apply anyAccess_frame
    | with_reducible apply misalignedAccess_frame
    | with_reducible apply queueRequest_frame
    | with_reducible apply nextTag_frame
    | with_reducible apply sendChain_frame
    | with_reducible apply ite_frame
    | (split <;> try (rename_i hq; replace hq := congrArg Prod.snd hq; dsimp only at hq; subst hq))
    | (rename_i hq; replace hq := congrArg Prod.snd hq; dsimp only at hq; subst hq)
    | (rename_i hq; injection hq with hq; subst hq)

theorem sendBroadcast_frame {m : Nat} {r u : State} {x0 x1} (h : Frame m r u) (hm : m &&& 1073741836 = 1073741836) : Frame m r (sendBroadcast x0 x1 u) := by
  unfold sendBroadcast
  try dsimp only
  repeat' first
    | with_reducible assumption
    | intro _
    | exact land_trans hm rfl
    | exact testBit_of_land hm (by decide)
    | with_reducible apply nextTag_frame
    | with_reducible apply sendChain_frame
    | with_reducible apply modChain_frame
    | with_reducible apply ite_frame
    | (split <;> try (rename_i hq; replace hq := congrArg Prod.snd hq; dsimp only at hq; subst hq))
    | (rename_i hq; replace hq := congrArg Prod.snd hq; dsimp only at hq; subst hq)
    | (rename_i hq; injection hq with hq; subst hq)

theorem bar2Write_frame {m : Nat} {r u : State} {x0 x1 x2} (h : Frame m r u) (hm : m &&& 140737488355326 = 140737488355326) : Frame m r (bar2Write x0 x1 x2 u) := by
  unfold bar2Write
  try dsimp only
  repeat' first
    | with_reducible assumption
    | intro _
    | exact land_trans hm rfl
    | exact testBit_of_land hm (by decide)
    | with_reducible apply misalignedAccess_frame
    | with_reducible apply access_frame
    | with_reducible apply sendBroadcast_frame
    | with_reducible apply ite_frame
    | (split <;> try (rename_i hq; replace hq := congrArg Prod.snd hq; dsimp only at hq; subst hq))
    | (rename_i hq; replace hq := congrArg Prod.snd hq; dsimp only at hq; subst hq)
    | (rename_i hq; injection hq with hq; subst hq)

theorem readResp_frame {m : Nat} {r u : State} {x0 x1} (h : Frame m r u) (hm : m &&& 2147483660 = 2147483660) : Frame m r (readResp x0 x1 u) := by
  unfold readResp
  try dsimp only
  repeat' first
    | with_reducible assumption
    | intro _
    | exact land_trans hm rfl
    | exact testBit_of_land hm (by decide)
    | with_reducible apply serveRequests_frame
    | with_reducible apply emit_frame
    | with_reducible apply modHost_frame
    | with_reducible apply ite_frame
    | (split <;> try (rename_i hq; replace hq := congrArg Prod.snd hq; dsimp only at hq; subst hq))
    | (rename_i hq; replace hq := congrArg Prod.snd hq; dsimp only at hq; subst hq)
    | (rename_i hq; injection hq with hq; subst hq)

theorem writeResp_frame {m : Nat} {r u : State} {x0} (h : Frame m r u) (hm : m &&& 2147483660 = 2147483660) : Frame m r (writeResp x0 u) := by
  unfold writeResp
  try dsimp only
  repeat' first
    | with_reducible assumption
    | intro _
    | exact land_trans hm rfl
    | exact testBit_of_land hm (by decide)
    | with_reducible apply serveRequests_frame
    | with_reducible apply modHost_frame
    | with_reducible apply ite_frame
    | (split <;> try (rename_i hq; replace hq := congrArg Prod.snd hq; dsimp only at hq; subst hq))
    | (rename_i hq; replace hq := congrArg Prod.snd hq; dsimp only at hq; subst hq)
    | (rename_i hq; injection hq with hq; subst hq)

theorem hostTimeout_frame {m : Nat} {r u : State} {x0} (h : Frame m r u) (hm : m &&& 2147483660 = 2147483660) : Frame m r (hostTimeout x0 u) := by
  unfold hostTimeout
  try dsimp only
  repeat' first
    | with_reducible assumption
    | intro _
    | exact land_trans hm rfl
    | exact testBit_of_land hm (by decide)
    | with_reducible apply when'_frame
    | with_reducible apply serveRequests_frame
    | with_reducible apply count_frame
    | with_reducible apply emit_frame
    | with_reducible apply modHost_frame
    | with_reducible apply ite_frame
    | (split <;> try (rename_i hq; replace hq := congrArg Prod.snd hq; dsimp only at hq; subst hq))
    | (rename_i hq; replace hq := congrArg Prod.snd hq; dsimp only at hq; subst hq)
    | (rename_i hq; injection hq with hq; subst hq)

theorem chainRead_frame {m : Nat} {r u : State} {x0 x1 x2} (h : Frame m r u) (hm : m &&& 140737488355326 = 140737488355326) : Frame m r (chainRead x0 x1 x2 u) := by
  unfold chainRead
  try dsimp only
  repeat' first
    | with_reducible assumption
    | intro _
    | exact land_trans hm rfl
    | exact testBit_of_land hm (by decide)
    | with_reducible apply anyAccess_frame
    | with_reducible apply ite_frame
    | (split <;> try (rename_i hq; replace hq := congrArg Prod.snd hq; dsimp only at hq; subst hq))
    | (rename_i hq; replace hq := congrArg Prod.snd hq; dsimp only at hq; subst hq)
    | (rename_i hq; injection hq with hq; subst hq)

theorem chainWriteReq_frame {m : Nat} {r u : State} {x0 x1 x2 x3} (h : Frame m r u) (hm : m &&& 140737488355326 = 140737488355326) : Frame m r (chainWriteReq x0 x1 x2 x3 u) := by
  unfold chainWriteReq
  try dsimp only
  repeat' first
    | with_reducible assumption
    | intro _
    | exact land_trans hm rfl
    | exact testBit_of_land hm (by decide)
    | with_reducible apply anyAccess_frame
    | with_reducible apply ite_frame
    | (split <;> try (rename_i hq; replace hq := congrArg Prod.snd hq; dsimp only at hq; subst hq))
    | (rename_i hq; replace hq := congrArg Prod.snd hq; dsimp only at hq; subst hq)
    | (rename_i hq; injection hq with hq; subst hq)

theorem chainPosted_frame {m : Nat} {r u : State} {x0 x1} (h : Frame m r u) (hm : m &&& 140737488355326 = 140737488355326) : Frame m r (chainPosted x0 x1 u) := by
  unfold chainPosted
  try dsimp only
  repeat' first
    | with_reducible assumption
    | intro _
    | exact land_trans hm rfl
    | exact testBit_of_land hm (by decide)
    | with_reducible apply anyAccess_frame
    | with_reducible apply ite_frame
    | (split <;> try (rename_i hq; replace hq := congrArg Prod.snd hq; dsimp only at hq; subst hq))
    | (rename_i hq; replace hq := congrArg Prod.snd hq; dsimp only at hq; subst hq)
    | (rename_i hq; injection hq with hq; subst hq)

theorem timeSend_frame {m : Nat} {r u : State} (h : Frame m r u) (hm : m &&& 70369817921548 = 70369817921548) : Frame m r (timeSend u) := by
  unfold timeSend
  try dsimp only
  repeat' first
    | with_reducible assumption
    | intro _
    | exact land_trans hm rfl
    | exact testBit_of_land hm (by decide)
    | with_reducible apply evalBanksman_frame
    | with_reducible apply sendBroadcast_frame
    | with_reducible apply ite_frame
    | (split <;> try (rename_i hq; replace hq := congrArg Prod.snd hq; dsimp only at hq; subst hq))
    | (rename_i hq; replace hq := congrArg Prod.snd hq; dsimp only at hq; subst hq)
    | (rename_i hq; injection hq with hq; subst hq)

theorem noteOffsetOf_frame {m : Nat} {r u : State} {x0} (h : Frame m r u) (hm : m &&& 1073741824 = 1073741824) : Frame m r (noteOffsetOf x0 u) := by
  unfold noteOffsetOf
  try dsimp only
  repeat' first
    | with_reducible assumption
    | intro _
    | exact land_trans hm rfl
    | exact testBit_of_land hm (by decide)
    | with_reducible apply modChain_frame
    | with_reducible apply ite_frame
    | (split <;> try (rename_i hq; replace hq := congrArg Prod.snd hq; dsimp only at hq; subst hq))
    | (rename_i hq; replace hq := congrArg Prod.snd hq; dsimp only at hq; subst hq)
    | (rename_i hq; injection hq with hq; subst hq)

theorem timeReceived_frame {m : Nat} {r u : State} {x0 x1} (h : Frame m r u) (hm : m &&& 70369817921544 = 70369817921544) : Frame m r (timeReceived x0 x1 u) := by
  unfold timeReceived
  try dsimp only
  repeat' first
    | with_reducible assumption
    | intro _
    | exact land_trans hm rfl
    | exact testBit_of_land hm (by decide)
    | with_reducible apply when'_frame
    | with_reducible apply event_frame
    | with_reducible apply modChain_frame
    | with_reducible apply evalBanksman_frame
    | with_reducible apply noteOffsetOf_frame
    | with_reducible apply ite_frame
    | (split <;> try (rename_i hq; replace hq := congrArg Prod.snd hq; dsimp only at hq; subst hq))
    | (rename_i hq; replace hq := congrArg Prod.snd hq; dsimp only at hq; subst hq)
    | (rename_i hq; injection hq with hq; subst hq)

theorem alertMember_frame {m : Nat} {r u : State} {x0} (h : Frame m r u) (hm : m &&& 12 = 12) : Frame m r (alertMember x0 u) := by
  unfold alertMember
  try dsimp only
  repeat' first
    | with_reducible assumption
    | intro _
    | exact land_trans hm rfl
    | exact testBit_of_land hm (by decide)
    | with_reducible apply emit_frame
    | with_reducible apply setReg_frame
    | with_reducible apply ite_frame
    | (split <;> try (rename_i hq; replace hq := congrArg Prod.snd hq; dsimp only at hq; subst hq))
    | (rename_i hq; replace hq := congrArg Prod.snd hq; dsimp only at hq; subst hq)
    | (rename_i hq; injection hq with hq; subst hq)

theorem alertReceived_frame {m : Nat} {r u : State} {x0 x1} (h : Frame m r u) (hm : m &&& 12 = 12) : Frame m r (alertReceived x0 x1 u) := by
  unfold alertReceived
  try dsimp only
  repeat' first
    | with_reducible assumption
    | intro _
    | exact land_trans hm rfl
    | exact testBit_of_land hm (by decide)
    | with_reducible apply alertMember_frame
    | with_reducible apply ite_frame
    | (split <;> try (rename_i hq; replace hq := congrArg Prod.snd hq; dsimp only at hq; subst hq))
    | (rename_i hq; replace hq := congrArg Prod.snd hq; dsimp only at hq; subst hq)
    | (rename_i hq; injection hq with hq; subst hq)

theorem alertSend_frame {m : Nat} {r u : State} (h : Frame m r u) (hm : m &&& 1073741836 = 1073741836) : Frame m r (alertSend u) := by
  unfold alertSend
  try dsimp only
  repeat' first
    | with_reducible assumption
    | intro _
    | exact land_trans hm rfl
    | exact testBit_of_land hm (by decide)
    | with_reducible apply modChain_frame
    | with_reducible apply alertReceived_frame
    | with_reducible apply nextTag_frame
    | with_reducible apply sendChain_frame
    | with_reducible apply ite_frame
    | (split <;> try (rename_i hq; replace hq := congrArg Prod.snd hq; dsimp only at hq; subst hq))
    | (rename_i hq; replace hq := congrArg Prod.snd hq; dsimp only at hq; subst hq)
    | (rename_i hq; injection hq with hq; subst hq)

theorem chainConsume_frame {m : Nat} {r u : State} {x0} (h : Frame m r u) (hm : m &&& 140737488355326 = 140737488355326) : Frame m r (chainConsume x0 u) := by
  unfold chainConsume
  try dsimp only
  repeat' first
    | with_reducible assumption
    | intro _
    | exact land_trans hm rfl
    | exact testBit_of_land hm (by decide)
    | with_reducible apply readResp_frame
    | with_reducible apply chainRead_frame
    | with_reducible apply writeResp_frame
    | with_reducible apply chainWriteReq_frame
    | with_reducible apply chainPosted_frame
    | with_reducible apply eventFwd_frame
    | with_reducible apply nextFree_frame
    | with_reducible apply excFwd_frame
    | with_reducible apply timeReceived_frame
    | with_reducible apply alertReceived_frame
    | with_reducible apply ite_frame
    | (split <;> try (rename_i hq; replace hq := congrArg Prod.snd hq; dsimp only at hq; subst hq))
    | (rename_i hq; replace hq := congrArg Prod.snd hq; dsimp only at hq; subst hq)
    | (rename_i hq; injection hq with hq; subst hq)

theorem bcastAct_frame {m : Nat} {r u : State} {x0} (h : Frame m r u) (hm : m &&& 140737488355326 = 140737488355326) : Frame m r (bcastAct x0 u) := by
  unfold bcastAct
  try dsimp only
  repeat' first
    | with_reducible assumption
    | intro _
    | exact land_trans hm rfl
    | exact testBit_of_land hm (by decide)
    | with_reducible apply chainConsume_frame
    | with_reducible apply modChain_frame
    | with_reducible apply ite_frame
    | (split <;> try (rename_i hq; replace hq := congrArg Prod.snd hq; dsimp only at hq; subst hq))
    | (rename_i hq; replace hq := congrArg Prod.snd hq; dsimp only at hq; subst hq)
    | (rename_i hq; injection hq with hq; subst hq)

theorem chainForward_frame {m : Nat} {r u : State} {x0 x1} (h : Frame m r u) (hm : m &&& 12 = 12) : Frame m r (chainForward x0 x1 u) := by
  unfold chainForward
  try dsimp only
  repeat' first
    | with_reducible assumption
    | intro _
    | exact land_trans hm rfl
    | exact testBit_of_land hm (by decide)
    | with_reducible apply count_frame
    | with_reducible apply emit_frame
    | with_reducible apply ite_frame
    | (split <;> try (rename_i hq; replace hq := congrArg Prod.snd hq; dsimp only at hq; subst hq))
    | (rename_i hq; replace hq := congrArg Prod.snd hq; dsimp only at hq; subst hq)
    | (rename_i hq; injection hq with hq; subst hq)

theorem chainHandle_frame {m : Nat} {r u : State} {x0 x1} (h : Frame m r u) (hm : m &&& 140737488355326 = 140737488355326) : Frame m r (chainHandle x0 x1 u) := by
  unfold chainHandle
  try dsimp only
  repeat' first
    | with_reducible assumption
    | intro _
    | exact land_trans hm rfl
    | exact testBit_of_land hm (by decide)
    | with_reducible apply chainConsume_frame
    | with_reducible apply chainForward_frame
    | with_reducible apply timeReceived_frame
    | with_reducible apply bcastAct_frame
    | with_reducible apply ite_frame
    | (split <;> try (rename_i hq; replace hq := congrArg Prod.snd hq; dsimp only at hq; subst hq))
    | (rename_i hq; replace hq := congrArg Prod.snd hq; dsimp only at hq; subst hq)
    | (rename_i hq; injection hq with hq; subst hq)

theorem chainFrameReceive_frame {m : Nat} {r u : State} {x0 x1} (h : Frame m r u) (hm : m &&& 140737488355326 = 140737488355326) : Frame m r (chainFrameReceive x0 x1 u) := by
  unfold chainFrameReceive
  try dsimp only
  repeat' first
    | with_reducible assumption
    | intro _
    | exact land_trans hm rfl
    | exact testBit_of_land hm (by decide)
    | with_reducible apply count_frame
    | with_reducible apply setChainPort_frame
    | with_reducible apply chainHandle_frame
    | with_reducible apply ite_frame
    | (split <;> try (rename_i hq; replace hq := congrArg Prod.snd hq; dsimp only at hq; subst hq))
    | (rename_i hq; replace hq := congrArg Prod.snd hq; dsimp only at hq; subst hq)
    | (rename_i hq; injection hq with hq; subst hq)

theorem chainPortChange_frame {m : Nat} {r u : State} {x0 x1} (h : Frame m r u) (hm : m &&& 70369817921544 = 70369817921544) : Frame m r (chainPortChange x0 x1 u) := by
  unfold chainPortChange
  try dsimp only
  repeat' first
    | with_reducible assumption
    | intro _
    | exact land_trans hm rfl
    | exact testBit_of_land hm (by decide)
    | with_reducible apply chainLeave_frame
    | with_reducible apply setChainPort_frame
    | with_reducible apply event_frame
    | with_reducible apply ite_frame
    | (split <;> try (rename_i hq; replace hq := congrArg Prod.snd hq; dsimp only at hq; subst hq))
    | (rename_i hq; replace hq := congrArg Prod.snd hq; dsimp only at hq; subst hq)
    | (rename_i hq; injection hq with hq; subst hq)

theorem keepalive_frame {m : Nat} {r u : State} {x0} (h : Frame m r u) (hm : m &&& 1073741830 = 1073741830) : Frame m r (keepalive x0 u) := by
  unfold keepalive
  try dsimp only
  repeat' first
    | with_reducible assumption
    | intro _
    | exact land_trans hm rfl
    | exact testBit_of_land hm (by decide)
    | with_reducible apply nextTag_frame
    | with_reducible apply nextFree_frame
    | with_reducible apply emit_frame
    | with_reducible apply ite_frame
    | (split <;> try (rename_i hq; replace hq := congrArg Prod.snd hq; dsimp only at hq; subst hq))
    | (rename_i hq; replace hq := congrArg Prod.snd hq; dsimp only at hq; subst hq)
    | (rename_i hq; injection hq with hq; subst hq)

theorem hostLinkUp_frame {m : Nat} {r u : State} {x0 x1} (h : Frame m r u) (hm : m &&& 70440684886024 = 70440684886024) : Frame m r (hostLinkUp x0 x1 u) := by
  unfold hostLinkUp
  try dsimp only
  repeat' first
    | with_reducible assumption
    | intro _
    | exact land_trans hm rfl
    | exact testBit_of_land hm (by decide)
    | with_reducible apply evalBanksman_frame
    | with_reducible apply event_frame
    | with_reducible apply hostVoteWrite_frame
    | with_reducible apply modHost_frame
    | with_reducible apply ite_frame
    | (split <;> try (rename_i hq; replace hq := congrArg Prod.snd hq; dsimp only at hq; subst hq))
    | (rename_i hq; replace hq := congrArg Prod.snd hq; dsimp only at hq; subst hq)
    | (rename_i hq; injection hq with hq; subst hq)

theorem hostLinkDown_frame {m : Nat} {r u : State} (h : Frame m r u) (hm : m &&& 70371965405192 = 70371965405192) : Frame m r (hostLinkDown u) := by
  unfold hostLinkDown
  try dsimp only
  repeat' first
    | with_reducible assumption
    | intro _
    | exact land_trans hm rfl
    | exact testBit_of_land hm (by decide)
    | with_reducible apply evalBanksman_frame
    | with_reducible apply hostDown_frame
    | with_reducible apply ite_frame
    | (split <;> try (rename_i hq; replace hq := congrArg Prod.snd hq; dsimp only at hq; subst hq))
    | (rename_i hq; replace hq := congrArg Prod.snd hq; dsimp only at hq; subst hq)
    | (rename_i hq; injection hq with hq; subst hq)

end Sys2Proof.Machine
end

