-- ==== Sys2Proof/Laws/FrameDeep.lean ====
section
/-! SUPPORT. The frames of the operations of Machine/Deep.lean: each changes nothing outside its mask (see Laws/Frame.lean). -/
set_option Elab.async false
set_option linter.all false

namespace Sys2Proof.Machine

theorem drawDram_frame {m : Nat} {r u : State} {x0} (h : Frame m r u) (hm : m &&& 131072 = 131072) : Frame m r (drawDram x0 u) := by
  unfold drawDram
  try dsimp only
  repeat' first
    | with_reducible assumption
    | intro _
    | exact land_trans hm rfl
    | exact testBit_of_land hm (by decide)
    | with_reducible apply ite_frame
    | (split <;> try (rename_i hq; replace hq := congrArg Prod.snd hq; dsimp only at hq; subst hq))
    | (rename_i hq; replace hq := congrArg Prod.snd hq; dsimp only at hq; subst hq)
    | (rename_i hq; injection hq with hq; subst hq)
    | (with_reducible refine Frame.lit ?_ rfl; first | with_reducible assumption | split)

theorem spill_frame {m : Nat} {r u : State} {x0} (h : Frame m r u) (hm : m &&& 83562884368398 = 83562884368398) : Frame m r (spill x0 u) := by
  unfold spill
  try dsimp only
  repeat' first
    | with_reducible assumption
    | intro _
    | exact land_trans hm rfl
    | exact testBit_of_land hm (by decide)
    | with_reducible apply count_frame
    | with_reducible apply putSpillQueue_frame
    | with_reducible apply freeFrame_frame
    | with_reducible apply takeDram_frame
    | with_reducible apply drawDram_frame
    | with_reducible apply freeTubsOf_frame
    | with_reducible apply writeTub_frame
    | with_reducible apply ite_frame
    | (split <;> try (rename_i hq; replace hq := congrArg Prod.snd hq; dsimp only at hq; subst hq))
    | (rename_i hq; replace hq := congrArg Prod.snd hq; dsimp only at hq; subst hq)
    | (rename_i hq; injection hq with hq; subst hq)

theorem refillLoop_frame {m : Nat} {r u : State} {x0 x1} (h : Frame m r u) (hm : m &&& 83562884368398 = 83562884368398) : Frame m r (refillLoop x0 x1 u) := by
  induction x1 generalizing  u with
  | zero =>
    unfold refillLoop
    try dsimp only
    repeat' first
      | with_reducible assumption
      | intro _
      | exact land_trans hm rfl
      | exact testBit_of_land hm (by decide)
      | with_reducible apply setRefilling_frame
      | with_reducible apply storeData_frame
      | with_reducible apply tubFree_frame
      | with_reducible apply handOver_frame
      | with_reducible apply putSpillQueue_frame
      | with_reducible apply drawDram_frame
      | with_reducible apply ite_frame
      | (split <;> try (rename_i hq; replace hq := congrArg Prod.snd hq; dsimp only at hq; subst hq))
      | (rename_i hq; replace hq := congrArg Prod.snd hq; dsimp only at hq; subst hq)
      | (rename_i hq; injection hq with hq; subst hq)
  | succ n ih =>
    unfold refillLoop
    try dsimp only
    repeat' first
      | with_reducible assumption
      | intro _
      | exact land_trans hm rfl
      | exact testBit_of_land hm (by decide)
      | with_reducible apply setRefilling_frame
      | with_reducible apply storeData_frame
      | with_reducible apply tubFree_frame
      | with_reducible apply handOver_frame
      | with_reducible apply putSpillQueue_frame
      | with_reducible apply drawDram_frame
      | with_reducible apply ih
      | with_reducible apply ite_frame
      | (split <;> try (rename_i hq; replace hq := congrArg Prod.snd hq; dsimp only at hq; subst hq))
      | (rename_i hq; replace hq := congrArg Prod.snd hq; dsimp only at hq; subst hq)
      | (rename_i hq; injection hq with hq; subst hq)

theorem refill_frame {m : Nat} {r u : State} {x0} (h : Frame m r u) (hm : m &&& 83562884368398 = 83562884368398) : Frame m r (refill x0 u) := by
  unfold refill
  try dsimp only
  repeat' first
    | with_reducible assumption
    | intro _
    | exact land_trans hm rfl
    | exact testBit_of_land hm (by decide)
    | with_reducible apply refillLoop_frame
    | with_reducible apply setRefilling_frame
    | with_reducible apply ite_frame
    | (split <;> try (rename_i hq; replace hq := congrArg Prod.snd hq; dsimp only at hq; subst hq))
    | (rename_i hq; replace hq := congrArg Prod.snd hq; dsimp only at hq; subst hq)
    | (rename_i hq; injection hq with hq; subst hq)

end Sys2Proof.Machine
end

