-- ==== Sys2Proof/Laws/FrameTick.lean ====
section
/-! SUPPORT. The frames of the operations of Machine/Tick.lean: each changes nothing outside its mask (see Laws/Frame.lean). -/
set_option Elab.async false
set_option linter.all false

namespace Sys2Proof.Machine

theorem recordOverruns_frame {m : Nat} {r u : State} (h : Frame m r u) (hm : m &&& 70368744179784 = 70368744179784) : Frame m r (recordOverruns u) := by
  unfold recordOverruns
  try dsimp only
  repeat' first
    | with_reducible assumption
    | intro _
    | exact land_trans hm rfl
    | exact testBit_of_land hm (by decide)
    | with_reducible apply each_frame
    | with_reducible apply event_frame
    | with_reducible apply modTick_frame
    | exact Or.inr (fun _ => rfl)
    | exact Or.inl (testBit_of_land hm (by decide))
    | exact Or.inr (fun _ => by (try dsimp only); split <;> rfl)
    | exact fun _ _ e => e
    | exact fun _ e => e
    | with_reducible apply ite_frame
    | (split <;> try (rename_i hq; replace hq := congrArg Prod.snd hq; dsimp only at hq; subst hq))
    | (rename_i hq; replace hq := congrArg Prod.snd hq; dsimp only at hq; subst hq)
    | (rename_i hq; injection hq with hq; subst hq)

theorem newEdge_frame {m : Nat} {r u : State} {x0} (h : Frame m r u) (hm : m &&& 70403103918152 = 70403103918152) : Frame m r (newEdge x0 u) := by
  unfold newEdge
  try dsimp only
  repeat' first
    | with_reducible assumption
    | intro _
    | exact land_trans hm rfl
    | exact testBit_of_land hm (by decide)
    | with_reducible apply when'_frame
    | with_reducible apply modTick_frame
    | with_reducible apply event_frame
    | exact Or.inr (fun _ => rfl)
    | exact Or.inl (testBit_of_land hm (by decide))
    | exact Or.inr (fun _ => by (try dsimp only); split <;> rfl)
    | exact fun _ _ e => e
    | exact fun _ e => e
    | with_reducible apply ite_frame
    | (split <;> try (rename_i hq; replace hq := congrArg Prod.snd hq; dsimp only at hq; subst hq))
    | (rename_i hq; replace hq := congrArg Prod.snd hq; dsimp only at hq; subst hq)
    | (rename_i hq; injection hq with hq; subst hq)
    | (with_reducible refine Frame.lit ?_ rfl; first | with_reducible assumption | with_reducible apply when'_frame | with_reducible apply modTick_frame | with_reducible apply event_frame| split)

theorem markOverrun_frame {m : Nat} {r u : State} {x0} (h : Frame m r u) (hm : m &&& 8589942856 = 8589942856) : Frame m r (markOverrun x0 u) := by
  unfold markOverrun
  try dsimp only
  repeat' first
    | with_reducible assumption
    | intro _
    | exact land_trans hm rfl
    | exact testBit_of_land hm (by decide)
    | with_reducible apply noteFault_frame
    | with_reducible apply modTick_frame
    | with_reducible apply count_frame
    | with_reducible apply setReg_frame
    | exact Or.inr (fun _ => rfl)
    | exact Or.inl (testBit_of_land hm (by decide))
    | exact Or.inr (fun _ => by (try dsimp only); split <;> rfl)
    | exact fun _ _ e => e
    | exact fun _ e => e
    | with_reducible apply ite_frame
    | (split <;> try (rename_i hq; replace hq := congrArg Prod.snd hq; dsimp only at hq; subst hq))
    | (rename_i hq; replace hq := congrArg Prod.snd hq; dsimp only at hq; subst hq)
    | (rename_i hq; injection hq with hq; subst hq)

theorem shiftEdge_frame {m : Nat} {r u : State} {x0} (h : Frame m r u) (hm : m &&& 70377359354954 = 70377359354954) : Frame m r (shiftEdge x0 u) := by
  unfold shiftEdge
  try dsimp only
  repeat' first
    | with_reducible assumption
    | intro _
    | exact land_trans hm rfl
    | exact testBit_of_land hm (by decide)
    | with_reducible apply when'_frame
    | with_reducible apply markOverrun_frame
    | with_reducible apply shiftApplyAll_frame
    | with_reducible apply ite_frame
    | (split <;> try (rename_i hq; replace hq := congrArg Prod.snd hq; dsimp only at hq; subst hq))
    | (rename_i hq; replace hq := congrArg Prod.snd hq; dsimp only at hq; subst hq)
    | (rename_i hq; injection hq with hq; subst hq)

theorem circEdge_frame {m : Nat} {r u : State} {x0} (h : Frame m r u) (hm : m &&& 83571609577550 = 83571609577550) : Frame m r (circEdge x0 u) := by
  unfold circEdge
  try dsimp only
  repeat' first
    | with_reducible assumption
    | intro _
    | exact land_trans hm rfl
    | exact testBit_of_land hm (by decide)
    | with_reducible apply when'_frame
    | with_reducible apply markOverrun_frame
    | with_reducible apply circTick_frame
    | with_reducible apply ite_frame
    | (split <;> try (rename_i hq; replace hq := congrArg Prod.snd hq; dsimp only at hq; subst hq))
    | (rename_i hq; replace hq := congrArg Prod.snd hq; dsimp only at hq; subst hq)
    | (rename_i hq; injection hq with hq; subst hq)

theorem gateEdge_frame {m : Nat} {r u : State} {x0} (h : Frame m r u) (hm : m &&& 8590467144 = 8590467144) : Frame m r (gateEdge x0 u) := by
  unfold gateEdge
  try dsimp only
  repeat' first
    | with_reducible assumption
    | intro _
    | exact land_trans hm rfl
    | exact testBit_of_land hm (by decide)
    | with_reducible apply markOverrun_frame
    | with_reducible apply gateCheck_frame
    | with_reducible apply gateLateDue_frame
    | with_reducible apply ite_frame
    | (split <;> try (rename_i hq; replace hq := congrArg Prod.snd hq; dsimp only at hq; subst hq))
    | (rename_i hq; replace hq := congrArg Prod.snd hq; dsimp only at hq; subst hq)
    | (rename_i hq; injection hq with hq; subst hq)

theorem tallyEdge_frame {m : Nat} {r u : State} {x0} (h : Frame m r u) (hm : m &&& 83571576023118 = 83571576023118) : Frame m r (tallyEdge x0 u) := by
  unfold tallyEdge
  try dsimp only
  repeat' first
    | with_reducible assumption
    | intro _
    | exact land_trans hm rfl
    | exact testBit_of_land hm (by decide)
    | with_reducible apply markOverrun_frame
    | with_reducible apply tallyWindow_frame
    | with_reducible apply settleReceipts_frame
    | with_reducible apply ite_frame
    | (split <;> try (rename_i hq; replace hq := congrArg Prod.snd hq; dsimp only at hq; subst hq))
    | (rename_i hq; replace hq := congrArg Prod.snd hq; dsimp only at hq; subst hq)
    | (rename_i hq; injection hq with hq; subst hq)

theorem edgeWork_frame {m : Nat} {r u : State} {x0} (h : Frame m r u) (hm : m &&& 83571735477326 = 83571735477326) : Frame m r (edgeWork x0 u) := by
  unfold edgeWork
  try dsimp only
  repeat' first
    | with_reducible assumption
    | intro _
    | exact land_trans hm rfl
    | exact testBit_of_land hm (by decide)
    | with_reducible apply when'_frame
    | with_reducible apply grantBudget_frame
    | with_reducible apply markOverrun_frame
    | with_reducible apply govGrant_frame
    | with_reducible apply planEdge_frame
    | with_reducible apply schedEdge_frame
    | with_reducible apply tallyEdge_frame
    | with_reducible apply gateEdge_frame
    | with_reducible apply circEdge_frame
    | with_reducible apply shiftEdge_frame
    | with_reducible apply circEdges_frame
    | with_reducible apply ite_frame
    | (split <;> try (rename_i hq; replace hq := congrArg Prod.snd hq; dsimp only at hq; subst hq))
    | (rename_i hq; replace hq := congrArg Prod.snd hq; dsimp only at hq; subst hq)
    | (rename_i hq; injection hq with hq; subst hq)

theorem edgeRest_frame {m : Nat} {r u : State} (h : Frame m r u) (hm : m &&& 71547712716296 = 71547712716296) : Frame m r (edgeRest u) := by
  unfold edgeRest
  try dsimp only
  repeat' first
    | with_reducible assumption
    | intro _
    | exact land_trans hm rfl
    | exact testBit_of_land hm (by decide)
    | with_reducible apply when'_frame
    | with_reducible apply evaluateTarget_frame
    | with_reducible apply modHost_frame
    | with_reducible apply noteIdle_frame
    | with_reducible apply vcoreEdge_frame
    | with_reducible apply selectSource_frame
    | with_reducible apply ownerAtEdge_frame
    | with_reducible apply ite_frame
    | (split <;> try (rename_i hq; replace hq := congrArg Prod.snd hq; dsimp only at hq; subst hq))
    | (rename_i hq; replace hq := congrArg Prod.snd hq; dsimp only at hq; subst hq)
    | (rename_i hq; injection hq with hq; subst hq)

theorem edge_frame {m : Nat} {r u : State} {x0} (h : Frame m r u) (hm : m &&& 84776473804366 = 84776473804366) : Frame m r (edge x0 u) := by
  unfold edge
  try dsimp only
  repeat' first
    | with_reducible assumption
    | intro _
    | exact land_trans hm rfl
    | exact testBit_of_land hm (by decide)
    | with_reducible apply edgeRest_frame
    | with_reducible apply edgeWork_frame
    | with_reducible apply newEdge_frame
    | with_reducible apply recordOverruns_frame
    | with_reducible apply settleExceptions_frame
    | with_reducible apply settleTubs_frame
    | with_reducible apply ite_frame
    | (split <;> try (rename_i hq; replace hq := congrArg Prod.snd hq; dsimp only at hq; subst hq))
    | (rename_i hq; replace hq := congrArg Prod.snd hq; dsimp only at hq; subst hq)
    | (rename_i hq; injection hq with hq; subst hq)

theorem tickEdge_frame {m : Nat} {r u : State} {x0} (h : Frame m r u) (hm : m &&& 84776473804366 = 84776473804366) : Frame m r (tickEdge x0 u) := by
  unfold tickEdge
  try dsimp only
  repeat' first
    | with_reducible assumption
    | intro _
    | exact land_trans hm rfl
    | exact testBit_of_land hm (by decide)
    | with_reducible apply edge_frame
    | with_reducible apply ite_frame
    | (split <;> try (rename_i hq; replace hq := congrArg Prod.snd hq; dsimp only at hq; subst hq))
    | (rename_i hq; replace hq := congrArg Prod.snd hq; dsimp only at hq; subst hq)
    | (rename_i hq; injection hq with hq; subst hq)

theorem localExpiry_frame {m : Nat} {r u : State} {x0} (h : Frame m r u) (hm : m &&& 84776473804366 = 84776473804366) : Frame m r (localExpiry x0 u) := by
  unfold localExpiry
  try dsimp only
  repeat' first
    | with_reducible assumption
    | intro _
    | exact land_trans hm rfl
    | exact testBit_of_land hm (by decide)
    | with_reducible apply edge_frame
    | with_reducible apply ite_frame
    | (split <;> try (rename_i hq; replace hq := congrArg Prod.snd hq; dsimp only at hq; subst hq))
    | (rename_i hq; replace hq := congrArg Prod.snd hq; dsimp only at hq; subst hq)
    | (rename_i hq; injection hq with hq; subst hq)

theorem tickOverrun_frame {m : Nat} {r u : State} {x0 x1} (h : Frame m r u) (hm : m &&& 8590467144 = 8590467144) : Frame m r (tickOverrun x0 x1 u) := by
  unfold tickOverrun
  try dsimp only
  repeat' first
    | with_reducible assumption
    | intro _
    | exact land_trans hm rfl
    | exact testBit_of_land hm (by decide)
    | with_reducible apply when'_frame
    | with_reducible apply formCaps_frame
    | with_reducible apply markOverrun_frame
    | with_reducible apply gateCheck_frame
    | with_reducible apply modTick_frame
    | exact Or.inr (fun _ => rfl)
    | exact Or.inl (testBit_of_land hm (by decide))
    | exact Or.inr (fun _ => by (try dsimp only); split <;> rfl)
    | exact fun _ _ e => e
    | exact fun _ e => e
    | with_reducible apply ite_frame
    | (split <;> try (rename_i hq; replace hq := congrArg Prod.snd hq; dsimp only at hq; subst hq))
    | (rename_i hq; replace hq := congrArg Prod.snd hq; dsimp only at hq; subst hq)
    | (rename_i hq; injection hq with hq; subst hq)

theorem planRow_frame {m : Nat} {r u : State} (h : Frame m r u) (hm : m &&& 34078720 = 34078720) : Frame m r (planRow u) := by
  unfold planRow
  try dsimp only
  repeat' first
    | with_reducible assumption
    | intro _
    | exact land_trans hm rfl
    | exact testBit_of_land hm (by decide)
    | with_reducible apply formCaps_frame
    | with_reducible apply schedPlan_frame
    | with_reducible apply ite_frame
    | (split <;> try (rename_i hq; replace hq := congrArg Prod.snd hq; dsimp only at hq; subst hq))
    | (rename_i hq; replace hq := congrArg Prod.snd hq; dsimp only at hq; subst hq)
    | (rename_i hq; injection hq with hq; subst hq)

theorem supLoops_frame {m : Nat} {r u : State} (h : Frame m r u) (hm : m &&& 85006623628814 = 85006623628814) : Frame m r (supLoops u) := by
  unfold supLoops
  try dsimp only
  repeat' first
    | with_reducible assumption
    | intro _
    | exact land_trans hm rfl
    | exact testBit_of_land hm (by decide)
    | with_reducible apply evaluateTarget_frame
    | with_reducible apply canaryRetry_frame
    | with_reducible apply canaryStep3_frame
    | with_reducible apply protDecide_frame
    | with_reducible apply servoLoop_frame
    | with_reducible apply runBmca_frame
    | with_reducible apply actLmms_frame
    | with_reducible apply ite_frame
    | (split <;> try (rename_i hq; replace hq := congrArg Prod.snd hq; dsimp only at hq; subst hq))
    | (rename_i hq; replace hq := congrArg Prod.snd hq; dsimp only at hq; subst hq)
    | (rename_i hq; injection hq with hq; subst hq)

end Sys2Proof.Machine
end

