-- ==== Sys2Proof/Laws/FrameDoze.lean ====
section
/-! SUPPORT. The frames of the operations of Machine/Doze.lean: each changes nothing outside its mask (see Laws/Frame.lean). -/
set_option Elab.async false
set_option linter.all false

namespace Sys2Proof.Machine

theorem dozeRequest_frame {m : Nat} {r u : State} {x0 x1 x2} (h : Frame m r u) (hm : m &&& 8388608 = 8388608) : Frame m r (dozeRequest x0 x1 x2 u) := by
  unfold dozeRequest
  try dsimp only
  repeat' first
    | with_reducible assumption
    | intro _
    | exact land_trans hm rfl
    | exact testBit_of_land hm (by decide)
    | with_reducible apply queueMsg_frame
    | with_reducible apply ite_frame
    | (split <;> try (rename_i hq; replace hq := congrArg Prod.snd hq; dsimp only at hq; subst hq))
    | (rename_i hq; replace hq := congrArg Prod.snd hq; dsimp only at hq; subst hq)
    | (rename_i hq; injection hq with hq; subst hq)

theorem dozeWakeRow_frame {m : Nat} {r u : State} {x0} (h : Frame m r u) (hm : m &&& 71536983676936 = 71536983676936) : Frame m r (dozeWakeRow x0 u) := by
  unfold dozeWakeRow
  try dsimp only
  repeat' first
    | with_reducible assumption
    | intro _
    | exact land_trans hm rfl
    | exact testBit_of_land hm (by decide)
    | with_reducible apply dozeWake_frame
    | with_reducible apply wakeFires_frame
    | with_reducible apply ite_frame
    | (split <;> try (rename_i hq; replace hq := congrArg Prod.snd hq; dsimp only at hq; subst hq))
    | (rename_i hq; replace hq := congrArg Prod.snd hq; dsimp only at hq; subst hq)
    | (rename_i hq; injection hq with hq; subst hq)

theorem dozeTimer_frame {m : Nat} {r u : State} (h : Frame m r u) (hm : m &&& 71536983676936 = 71536983676936) : Frame m r (dozeTimer u) := by
  unfold dozeTimer
  try dsimp only
  repeat' first
    | with_reducible assumption
    | intro _
    | exact land_trans hm rfl
    | exact testBit_of_land hm (by decide)
    | with_reducible apply when'_frame
    | with_reducible apply refreshVotes_frame
    | with_reducible apply wakeFires_frame
    | with_reducible apply ite_frame
    | (split <;> try (rename_i hq; replace hq := congrArg Prod.snd hq; dsimp only at hq; subst hq))
    | (rename_i hq; replace hq := congrArg Prod.snd hq; dsimp only at hq; subst hq)
    | (rename_i hq; injection hq with hq; subst hq)

theorem evalPeriodRow_frame {m : Nat} {r u : State} {x0 x1} (h : Frame m r u) (hm : m &&& 83562892856334 = 83562892856334) : Frame m r (evalPeriodRow x0 x1 u) := by
  unfold evalPeriodRow
  try dsimp only
  repeat' first
    | with_reducible assumption
    | intro _
    | exact land_trans hm rfl
    | exact testBit_of_land hm (by decide)
    | with_reducible apply when'_frame
    | with_reducible apply evalPeriodEnd_frame
    | with_reducible apply noteUnfailed_frame
    | with_reducible apply lineFound_frame
    | with_reducible apply ite_frame
    | (split <;> try (rename_i hq; replace hq := congrArg Prod.snd hq; dsimp only at hq; subst hq))
    | (rename_i hq; replace hq := congrArg Prod.snd hq; dsimp only at hq; subst hq)
    | (rename_i hq; injection hq with hq; subst hq)

theorem losDeclareRow_frame {m : Nat} {r u : State} {x0 x1 x2 x3} (h : Frame m r u) (hm : m &&& 83571482765326 = 83571482765326) : Frame m r (losDeclareRow x0 x1 x2 x3 u) := by
  unfold losDeclareRow
  try dsimp only
  repeat' first
    | with_reducible assumption
    | intro _
    | exact land_trans hm rfl
    | exact testBit_of_land hm (by decide)
    | with_reducible apply noteLineLost_frame
    | with_reducible apply losDeclare_frame
    | with_reducible apply ite_frame
    | (split <;> try (rename_i hq; replace hq := congrArg Prod.snd hq; dsimp only at hq; subst hq))
    | (rename_i hq; replace hq := congrArg Prod.snd hq; dsimp only at hq; subst hq)
    | (rename_i hq; injection hq with hq; subst hq)

theorem losClearRow_frame {m : Nat} {r u : State} {x0 x1 x2 x3} (h : Frame m r u) (hm : m &&& 70368744278024 = 70368744278024) : Frame m r (losClearRow x0 x1 x2 x3 u) := by
  unfold losClearRow
  try dsimp only
  repeat' first
    | with_reducible assumption
    | intro _
    | exact land_trans hm rfl
    | exact testBit_of_land hm (by decide)
    | with_reducible apply when'_frame
    | with_reducible apply noteUnfailed_frame
    | with_reducible apply losClear_frame
    | with_reducible apply ite_frame
    | (split <;> try (rename_i hq; replace hq := congrArg Prod.snd hq; dsimp only at hq; subst hq))
    | (rename_i hq; replace hq := congrArg Prod.snd hq; dsimp only at hq; subst hq)
    | (rename_i hq; injection hq with hq; subst hq)

theorem sfWindowRow_frame {m : Nat} {r u : State} {x0 x1} (h : Frame m r u) (hm : m &&& 70377334220808 = 70377334220808) : Frame m r (sfWindowRow x0 x1 u) := by
  unfold sfWindowRow
  try dsimp only
  repeat' first
    | with_reducible assumption
    | intro _
    | exact land_trans hm rfl
    | exact testBit_of_land hm (by decide)
    | with_reducible apply when'_frame
    | with_reducible apply noteUnfailed_frame
    | with_reducible apply sfWindowEnd_frame
    | with_reducible apply ite_frame
    | (split <;> try (rename_i hq; replace hq := congrArg Prod.snd hq; dsimp only at hq; subst hq))
    | (rename_i hq; replace hq := congrArg Prod.snd hq; dsimp only at hq; subst hq)
    | (rename_i hq; injection hq with hq; subst hq)

theorem splitRow_frame {m : Nat} {r u : State} {x0 x1 x2} (h : Frame m r u) (hm : m &&& 83573153180686 = 83573153180686) : Frame m r (splitRow x0 x1 x2 u) := by
  unfold splitRow
  try dsimp only
  repeat' first
    | with_reducible assumption
    | intro _
    | exact land_trans hm rfl
    | exact testBit_of_land hm (by decide)
    | with_reducible apply evTallySplit_frame
    | with_reducible apply settleFaults_frame
    | with_reducible apply splitFaults_frame
    | with_reducible apply ite_frame
    | (split <;> try (rename_i hq; replace hq := congrArg Prod.snd hq; dsimp only at hq; subst hq))
    | (rename_i hq; replace hq := congrArg Prod.snd hq; dsimp only at hq; subst hq)
    | (rename_i hq; injection hq with hq; subst hq)

theorem afterLadder_frame {m : Nat} {r u : State} {x0} (h : Frame m r u) (hm : m &&& 4398311473160 = 4398311473160) : Frame m r (afterLadder x0 u) := by
  unfold afterLadder
  try dsimp only
  repeat' first
    | with_reducible assumption
    | intro _
    | exact land_trans hm rfl
    | exact testBit_of_land hm (by decide)
    | with_reducible apply loadEpochs_frame
    | with_reducible apply loseSram_frame
    | with_reducible apply requestSaved_frame
    | with_reducible apply ite_frame
    | (split <;> try (rename_i hq; replace hq := congrArg Prod.snd hq; dsimp only at hq; subst hq))
    | (rename_i hq; replace hq := congrArg Prod.snd hq; dsimp only at hq; subst hq)
    | (rename_i hq; injection hq with hq; subst hq)

theorem transitionComplete_frame {m : Nat} {r u : State} {x0} (h : Frame m r u) (hm : m &&& 85568362625566 = 85568362625566) : Frame m r (transitionComplete x0 u) := by
  unfold transitionComplete
  try dsimp only
  repeat' first
    | with_reducible assumption
    | intro _
    | exact land_trans hm rfl
    | exact testBit_of_land hm (by decide)
    | with_reducible apply domainComplete_frame
    | with_reducible apply ladderComplete_frame
    | with_reducible apply afterLadder_frame
    | with_reducible apply ite_frame
    | (split <;> try (rename_i hq; replace hq := congrArg Prod.snd hq; dsimp only at hq; subst hq))
    | (rename_i hq; replace hq := congrArg Prod.snd hq; dsimp only at hq; subst hq)
    | (rename_i hq; injection hq with hq; subst hq)

theorem firedampRow_frame {m : Nat} {r u : State} {x0 x1} (h : Frame m r u) (hm : m &&& 71537042405384 = 71537042405384) : Frame m r (firedampRow x0 x1 u) := by
  unfold firedampRow
  try dsimp only
  repeat' first
    | with_reducible assumption
    | intro _
    | exact land_trans hm rfl
    | exact testBit_of_land hm (by decide)
    | with_reducible apply firedampTrip_frame
    | with_reducible apply assayAbort_frame
    | with_reducible apply ite_frame
    | (split <;> try (rename_i hq; replace hq := congrArg Prod.snd hq; dsimp only at hq; subst hq))
    | (rename_i hq; replace hq := congrArg Prod.snd hq; dsimp only at hq; subst hq)
    | (rename_i hq; injection hq with hq; subst hq)

theorem firedampClearRow_frame {m : Nat} {r u : State} {x0} (h : Frame m r u) (hm : m &&& 71536975296520 = 71536975296520) : Frame m r (firedampClearRow x0 u) := by
  unfold firedampClearRow
  try dsimp only
  repeat' first
    | with_reducible assumption
    | intro _
    | exact land_trans hm rfl
    | exact testBit_of_land hm (by decide)
    | with_reducible apply firedampClear_frame
    | with_reducible apply assayRestart_frame
    | with_reducible apply ite_frame
    | (split <;> try (rename_i hq; replace hq := congrArg Prod.snd hq; dsimp only at hq; subst hq))
    | (rename_i hq; replace hq := congrArg Prod.snd hq; dsimp only at hq; subst hq)
    | (rename_i hq; injection hq with hq; subst hq)

end Sys2Proof.Machine
end

