-- ==== Sys2Proof/Laws/FrameFinish.lean ====
section
/-! SUPPORT. The frames of the operations of Machine/Finish.lean: each changes nothing outside its mask (see Laws/Frame.lean). -/
set_option Elab.async false
set_option linter.all false

namespace Sys2Proof.Machine

theorem settleStalled_frame {m : Nat} {r u : State} (h : Frame m r u) (hm : m &&& 140737488355326 = 140737488355326) : Frame m r (settleStalled u) := by
  unfold settleStalled
  try dsimp only
  repeat' first
    | with_reducible assumption
    | intro _
    | exact land_trans hm rfl
    | exact testBit_of_land hm (by decide)
    | with_reducible apply completeStalled_frame
    | with_reducible apply ite_frame
    | (split <;> try (rename_i hq; replace hq := congrArg Prod.snd hq; dsimp only at hq; subst hq))
    | (rename_i hq; replace hq := congrArg Prod.snd hq; dsimp only at hq; subst hq)
    | (rename_i hq; injection hq with hq; subst hq)

theorem idleCycle_frame {m : Nat} {r u : State} (h : Frame m r u) (hm : m &&& 140737488355327 = 140737488355327) : Frame m r (idleCycle u) := by
  unfold idleCycle
  try dsimp only
  repeat' first
    | with_reducible assumption
    | intro _
    | exact land_trans hm rfl
    | exact testBit_of_land hm (by decide)
    | with_reducible apply vauxEnd_frame
    | with_reducible apply clockCycle_frame
    | with_reducible apply settleExceptions_frame
    | with_reducible apply settleTubs_frame
    | with_reducible apply ite_frame
    | (split <;> try (rename_i hq; replace hq := congrArg Prod.snd hq; dsimp only at hq; subst hq))
    | (rename_i hq; replace hq := congrArg Prod.snd hq; dsimp only at hq; subst hq)
    | (rename_i hq; injection hq with hq; subst hq)

end Sys2Proof.Machine
end

