-- ==== Sys2Proof/Laws/FrameExecSched.lean ====
section
/-! SUPPORT. The frames of the operations of Machine/ExecSched.lean: each changes nothing outside its mask (see Laws/Frame.lean). -/
set_option Elab.async false
set_option linter.all false

namespace Sys2Proof.Machine

theorem spoilHead_frame {m : Nat} {r u : State} {x0 x1} (h : Frame m r u) (hm : m &&& 524288 = 524288) : Frame m r (spoilHead x0 x1 u) := by
  unfold spoilHead
  try dsimp only
  repeat' first
    | with_reducible assumption
    | intro _
    | exact land_trans hm rfl
    | exact testBit_of_land hm (by decide)
    | with_reducible apply modSched_frame
    | with_reducible apply setQueue_frame
    | with_reducible apply ite_frame
    | (split <;> try (rename_i hq; replace hq := congrArg Prod.snd hq; dsimp only at hq; subst hq))
    | (rename_i hq; replace hq := congrArg Prod.snd hq; dsimp only at hq; subst hq)
    | (rename_i hq; injection hq with hq; subst hq)

theorem discardHead_frame {m : Nat} {r u : State} {x0 x1 x2} (h : Frame m r u) (hm : m &&& 83562884368398 = 83562884368398) : Frame m r (discardHead x0 x1 x2 u) := by
  unfold discardHead
  try dsimp only
  repeat' first
    | with_reducible assumption
    | intro _
    | exact land_trans hm rfl
    | exact testBit_of_land hm (by decide)
    | with_reducible apply freeFrame_frame
    | with_reducible apply modSched_frame
    | with_reducible apply putFrames_frame
    | with_reducible apply ite_frame
    | (split <;> try (rename_i hq; replace hq := congrArg Prod.snd hq; dsimp only at hq; subst hq))
    | (rename_i hq; replace hq := congrArg Prod.snd hq; dsimp only at hq; subst hq)
    | (rename_i hq; injection hq with hq; subst hq)

theorem noteSramUe_frame {m : Nat} {r u : State} {x0} (h : Frame m r u) (hm : m &&& 8589942792 = 8589942792) : Frame m r (noteSramUe x0 u) := by
  unfold noteSramUe
  try dsimp only
  repeat' first
    | with_reducible assumption
    | intro _
    | exact land_trans hm rfl
    | exact testBit_of_land hm (by decide)
    | with_reducible apply noteFault_frame
    | with_reducible apply count_frame
    | with_reducible apply ite_frame
    | (split <;> try (rename_i hq; replace hq := congrArg Prod.snd hq; dsimp only at hq; subst hq))
    | (rename_i hq; replace hq := congrArg Prod.snd hq; dsimp only at hq; subst hq)
    | (rename_i hq; injection hq with hq; subst hq)

theorem frameStart_frame {m : Nat} {r u : State} {x0 x1} (h : Frame m r u) (hm : m &&& 83571742763022 = 83571742763022) : Frame m r (frameStart x0 x1 u) := by
  unfold frameStart
  try dsimp only
  repeat' first
    | with_reducible assumption
    | intro _
    | exact land_trans hm rfl
    | exact testBit_of_land hm (by decide)
    | with_reducible apply portFrameStart_frame
    | with_reducible apply noteSramUe_frame
    | with_reducible apply spoilHead_frame
    | with_reducible apply discardHead_frame
    | with_reducible apply ite_frame
    | (split <;> try (rename_i hq; replace hq := congrArg Prod.snd hq; dsimp only at hq; subst hq))
    | (rename_i hq; replace hq := congrArg Prod.snd hq; dsimp only at hq; subst hq)
    | (rename_i hq; injection hq with hq; subst hq)

end Sys2Proof.Machine
end

