-- ==== Sys2Proof/Laws/FrameExecPort.lean ====
section
/-! SUPPORT. The frames of the operations of Machine/ExecPort.lean: each changes nothing outside its mask (see Laws/Frame.lean). -/
set_option Elab.async false
set_option linter.all false

namespace Sys2Proof.Machine

theorem mdioRow_frame {m : Nat} {r u : State} {x0 x1 x2 x3} (h : Frame m r u) (hm : m &&& 71541280741390 = 71541280741390) : Frame m r (mdioRow x0 x1 x2 x3 u) := by
  unfold mdioRow
  try dsimp only
  repeat' first
    | with_reducible assumption
    | intro _
    | exact land_trans hm rfl
    | exact testBit_of_land hm (by decide)
    | with_reducible apply commandWrite_frame
    | with_reducible apply mdioStart_frame
    | with_reducible apply mdioTurn_frame
    | with_reducible apply ite_frame
    | (split <;> try (rename_i hq; replace hq := congrArg Prod.snd hq; dsimp only at hq; subst hq))
    | (rename_i hq; replace hq := congrArg Prod.snd hq; dsimp only at hq; subst hq)
    | (rename_i hq; injection hq with hq; subst hq)

end Sys2Proof.Machine
end

