-- ==== Sys2Proof/Laws/FrameExecTime.lean ====
section
/-! SUPPORT. The frames of the operations of Machine/ExecTime.lean: each changes nothing outside its mask (see Laws/Frame.lean). -/
set_option Elab.async false
set_option linter.all false

namespace Sys2Proof.Machine

theorem holdover_frame {m : Nat} {r u : State} (h : Frame m r u) (hm : m &&& 70368744180232 = 70368744180232) : Frame m r (holdover u) := by
  unfold holdover
  try dsimp only
  repeat' first
    | with_reducible assumption
    | intro _
    | exact land_trans hm rfl
    | exact testBit_of_land hm (by decide)
    | with_reducible apply enterHoldover_frame
    | with_reducible apply ite_frame
    | (split <;> try (rename_i hq; replace hq := congrArg Prod.snd hq; dsimp only at hq; subst hq))
    | (rename_i hq; replace hq := congrArg Prod.snd hq; dsimp only at hq; subst hq)
    | (rename_i hq; injection hq with hq; subst hq)
    | (with_reducible refine Frame.lit ?_ rfl; first | with_reducible assumption | with_reducible apply enterHoldover_frame| split)

end Sys2Proof.Machine
end

