-- ==== Sys2Proof/Laws/FrameExecPwr.lean ====
section
/-! SUPPORT. The frames of the operations of Machine/ExecPwr.lean: each changes nothing outside its mask (see Laws/Frame.lean). -/
set_option Elab.async false
set_option linter.all false

namespace Sys2Proof.Machine

theorem accessToSleeper_frame {m : Nat} {r u : State} {x0 x1 x2 x3} (h : Frame m r u) (hm : m &&& 140737488355326 = 140737488355326) : Frame m r (accessToSleeper x0 x1 x2 x3 u) := by
  unfold accessToSleeper
  try dsimp only
  repeat' first
    | with_reducible assumption
    | intro _
    | exact land_trans hm rfl
    | exact testBit_of_land hm (by decide)
    | with_reducible apply access_frame
    | with_reducible apply ite_frame
    | (split <;> try (rename_i hq; replace hq := congrArg Prod.snd hq; dsimp only at hq; subst hq))
    | (rename_i hq; replace hq := congrArg Prod.snd hq; dsimp only at hq; subst hq)
    | (rename_i hq; injection hq with hq; subst hq)

theorem transitionRow_frame {m : Nat} {r u : State} {x0} (h : Frame m r u) (hm : m &&& 140737488355326 = 140737488355326) : Frame m r (transitionRow x0 u) := by
  unfold transitionRow
  try dsimp only
  repeat' first
    | with_reducible assumption
    | intro _
    | exact land_trans hm rfl
    | exact testBit_of_land hm (by decide)
    | with_reducible apply when'_frame
    | with_reducible apply heldDrop_frame
    | with_reducible apply settleStalled_frame
    | with_reducible apply transitionComplete_frame
    | with_reducible apply ite_frame
    | (split <;> try (rename_i hq; replace hq := congrArg Prod.snd hq; dsimp only at hq; subst hq))
    | (rename_i hq; replace hq := congrArg Prod.snd hq; dsimp only at hq; subst hq)
    | (rename_i hq; injection hq with hq; subst hq)

end Sys2Proof.Machine
end

