-- ==== Sys2Proof/Laws/FrameExecChain.lean ====
section
/-! SUPPORT. The frames of the operations of Machine/ExecChain.lean: each changes nothing outside its mask (see Laws/Frame.lean). -/
set_option Elab.async false
set_option linter.all false

namespace Sys2Proof.Machine

theorem timeRow_frame {m : Nat} {r u : State} {x0} (h : Frame m r u) (hm : m &&& 70369817921548 = 70369817921548) : Frame m r (timeRow x0 u) := by
  unfold timeRow
  try dsimp only
  repeat' first
    | with_reducible assumption
    | intro _
    | exact land_trans hm rfl
    | exact testBit_of_land hm (by decide)
    | with_reducible apply timeReceived_frame
    | with_reducible apply timeSend_frame
    | with_reducible apply ite_frame
    | (split <;> try (rename_i hq; replace hq := congrArg Prod.snd hq; dsimp only at hq; subst hq))
    | (rename_i hq; replace hq := congrArg Prod.snd hq; dsimp only at hq; subst hq)
    | (rename_i hq; injection hq with hq; subst hq)

theorem alertRow_frame {m : Nat} {r u : State} {x0} (h : Frame m r u) (hm : m &&& 1073741836 = 1073741836) : Frame m r (alertRow x0 u) := by
  unfold alertRow
  try dsimp only
  repeat' first
    | with_reducible assumption
    | intro _
    | exact land_trans hm rfl
    | exact testBit_of_land hm (by decide)
    | with_reducible apply alertReceived_frame
    | with_reducible apply alertSend_frame
    | with_reducible apply ite_frame
    | (split <;> try (rename_i hq; replace hq := congrArg Prod.snd hq; dsimp only at hq; subst hq))
    | (rename_i hq; replace hq := congrArg Prod.snd hq; dsimp only at hq; subst hq)
    | (rename_i hq; injection hq with hq; subst hq)

end Sys2Proof.Machine
end

