-- ==== Sys2Proof/Laws/ExecEq.lean ====
section
/-! SUPPORT. What the end of a command does: nothing where nothing waits to be settled. For every command whose effect leaves the
stalled accesses alone, `exec…_eq` says what it answers in a state with nothing to settle; and `exec_lasting` says what every
command keeps. -/
set_option Elab.async false
set_option linter.all false

namespace Sys2Proof.Machine

theorem settleFaults_nil {u : State} (h : u.assay.faultsIn = []) : settleFaults u = u := by
  unfold settleFaults settleRounds
  exact if_pos h

theorem settleStalled_nil {u : State} (h : u.pwr.stalled = []) : settleStalled u = u := by
  unfold settleStalled
  rw [h]
  rfl

theorem finish_stalled {u : State} (h : u.pwr.stalled = []) : finish u = .next (settleFaults u) := by
  unfold finish
  rw [settleStalled_nil h]

theorem finish_quiet {u : State} (h : u.pwr.stalled = []) (g : u.assay.faultsIn = []) : finish u = .next u := by
  rw [finish_stalled h, settleFaults_nil g]

theorem finish_of_frame {m : Nat} {s u : State} (q : s.quiet) (h : Frame m s u) (a : m.testBit 32 = false)
    (b : m.testBit 33 = false) : finish u = .next u :=
  finish_quiet ((h.stalled_ a).trans q.1) ((h.faultsIn_ b).trans q.2)

theorem finish_of_frame' {m : Nat} {s u : State} (q : s.quiet) (h : Frame m s u) (a : m.testBit 32 = false) :
    finish u = .next (settleFaults u) :=
  finish_stalled ((h.stalled_ a).trans q.1)

/-- A command that writes a register, where the access is performed. -/
theorem commandWrite_perform {src : Source} {a : Nat} {v : Word} {f : State → State} {s : State} (h : judge a s = .perform) :
    commandWrite src a v f s = f s := by
  unfold commandWrite
  rw [h]

theorem finish_lasting {s u t : State} (h : Frame 140737488355326 s u) (e : finish u = .next t) : Lasting s t := by
  unfold finish at e
  injection e with e
  subst e
  exact (settleFaults_frame (settleStalled_frame h (by decide)) (by decide)).lasting

theorem execTickEdge_eq (i : TickInputs) {s : State} (q : s.quiet) (hw : (Instr.tickEdge i).wf = true) : execTickEdge i s = .next (settleFaults (tickEdge i s)) := by
  unfold execTickEdge
  rw [if_pos hw]
  refine finish_of_frame' (m := 84776473804366) q ?_ rfl
  repeat' first
    | with_reducible exact Frame.rfl'
    | decide
    | intro _
    | with_reducible assumption
    | with_reducible apply tickEdge_frame
    | with_reducible apply ite_frame
    | split

theorem execLocalTickCountExpiry_eq (i : TickInputs) {s : State} (q : s.quiet) (hw : (Instr.localTickCountExpiry i).wf = true) : execLocalTickCountExpiry i s = .next (settleFaults (localExpiry i s)) := by
  unfold execLocalTickCountExpiry
  rw [if_pos hw]
  refine finish_of_frame' (m := 84776473804366) q ?_ rfl
  repeat' first
    | with_reducible exact Frame.rfl'
    | decide
    | intro _
    | with_reducible assumption
    | with_reducible apply localExpiry_frame
    | with_reducible apply ite_frame
    | split

theorem execGovLateComplete_eq  {s : State} (q : s.quiet) : execGovLateComplete s = .next ((govLate s)) := by
  unfold execGovLateComplete
  refine finish_of_frame (m := 4096) q ?_ rfl rfl
  repeat' first
    | with_reducible exact Frame.rfl'
    | decide
    | intro _
    | with_reducible assumption
    | with_reducible apply govLate_frame
    | with_reducible apply ite_frame
    | split

theorem execSchedPlan_eq  {s : State} (q : s.quiet) : execSchedPlan s = .next ((planRow s)) := by
  unfold execSchedPlan
  refine finish_of_frame (m := 34078720) q ?_ rfl rfl
  repeat' first
    | with_reducible exact Frame.rfl'
    | decide
    | intro _
    | with_reducible assumption
    | with_reducible apply planRow_frame
    | with_reducible apply ite_frame
    | split

theorem execSupLoops_eq  {s : State} (q : s.quiet) : execSupLoops s = .next ((supLoops s)) := by
  unfold execSupLoops
  refine finish_of_frame (m := 85006623628814) q ?_ rfl rfl
  repeat' first
    | with_reducible exact Frame.rfl'
    | decide
    | intro _
    | with_reducible assumption
    | with_reducible apply supLoops_frame
    | with_reducible apply ite_frame
    | split

theorem execTickOverrun_eq (block : Fin 7) (lateUs : Option (BitVec 16)) {s : State} (q : s.quiet) : execTickOverrun block lateUs s = .next (settleFaults (tickOverrun block lateUs s)) := by
  unfold execTickOverrun
  refine finish_of_frame' (m := 8590467144) q ?_ rfl
  repeat' first
    | with_reducible exact Frame.rfl'
    | decide
    | intro _
    | with_reducible assumption
    | with_reducible apply tickOverrun_frame
    | with_reducible apply ite_frame
    | split

theorem execRegMisaligned_eq (src : Source) (addr : Word) (bytes : Nat) (write : Bool) {s : State} (q : s.quiet) : execRegMisaligned src addr bytes write s = .next ((if aligned addr bytes then s else misalignedAccess src none addr write s)) := by
  unfold execRegMisaligned
  refine finish_of_frame (m := 44) q ?_ rfl rfl
  repeat' first
    | with_reducible exact Frame.rfl'
    | decide
    | intro _
    | with_reducible assumption
    | with_reducible apply misalignedAccess_frame
    | with_reducible apply ite_frame
    | split

theorem execImageVerifyDone_eq (read : FlashRead) {s : State} (q : s.quiet) : execImageVerifyDone read s = .next ((imageVerifyDone read s)) := by
  unfold execImageVerifyDone
  refine finish_of_frame (m := 70506183133320) q ?_ rfl rfl
  repeat' first
    | with_reducible exact Frame.rfl'
    | decide
    | intro _
    | with_reducible assumption
    | with_reducible apply imageVerifyDone_frame
    | with_reducible apply ite_frame
    | split

theorem execRelease_eq  {s : State} (q : s.quiet) (hj : judge Reg.GEN_BOOT_CTRL s = .perform) : execRelease s = .next ((bootRelease s)) := by
  unfold execRelease
  rw [commandWrite_perform hj]
  refine finish_of_frame (m := 137438953600) q ?_ rfl rfl
  repeat' first
    | with_reducible exact Frame.rfl'
    | decide
    | intro _
    | with_reducible assumption
    | with_reducible apply bootRelease_frame
    | with_reducible apply ite_frame
    | split

theorem execEvRefclkLoss_eq (input : Fin 4) {s : State} (q : s.quiet) : execEvRefclkLoss input s = .next ((refclkLoss input.val s)) := by
  unfold execEvRefclkLoss
  refine finish_of_frame (m := 83566643546510) q ?_ rfl rfl
  repeat' first
    | with_reducible exact Frame.rfl'
    | decide
    | intro _
    | with_reducible assumption
    | with_reducible apply refclkLoss_frame
    | with_reducible apply ite_frame
    | split

theorem execRefclkRetry_eq (present : Bool) {s : State} (q : s.quiet) : execRefclkRetry present s = .next ((refclkRetry present s)) := by
  unfold execRefclkRetry
  refine finish_of_frame (m := 70437463791752) q ?_ rfl rfl
  repeat' first
    | with_reducible exact Frame.rfl'
    | decide
    | intro _
    | with_reducible assumption
    | with_reducible apply refclkRetry_frame
    | with_reducible apply ite_frame
    | split

theorem execRefclkMeasure_eq (ppm : List (Option Int)) {s : State} (q : s.quiet) (hw : (Instr.refclkMeasure ppm).wf = true) : execRefclkMeasure ppm s = .next ((refclkMeasure ppm s)) := by
  unfold execRefclkMeasure
  rw [if_pos hw]
  refine finish_of_frame (m := 83566643546510) q ?_ rfl rfl
  repeat' first
    | with_reducible exact Frame.rfl'
    | decide
    | intro _
    | with_reducible assumption
    | with_reducible apply refclkMeasure_frame
    | with_reducible apply ite_frame
    | split

theorem execEvVinWarn_eq (vinMv : BitVec 16) {s : State} (q : s.quiet) : execEvVinWarn vinMv s = .next ((vinWarn vinMv s)) := by
  unfold execEvVinWarn
  refine finish_of_frame (m := 106721347377416) q ?_ rfl rfl
  repeat' first
    | with_reducible exact Frame.rfl'
    | decide
    | intro _
    | with_reducible assumption
    | with_reducible apply vinWarn_frame
    | with_reducible apply ite_frame
    | split

theorem execVinWarnRepeat_eq (vinMv : BitVec 16) {s : State} (q : s.quiet) : execVinWarnRepeat vinMv s = .next ((vinWarnRepeat vinMv s)) := by
  unfold execVinWarnRepeat
  refine finish_of_frame (m := 264) q ?_ rfl rfl
  repeat' first
    | with_reducible exact Frame.rfl'
    | decide
    | intro _
    | with_reducible assumption
    | with_reducible apply vinWarnRepeat_frame
    | with_reducible apply ite_frame
    | split

theorem execEvVinRecover_eq (vinMv : BitVec 16) (durationUs : Word) (lowestMv : BitVec 16) {s : State} (q : s.quiet) : execEvVinRecover vinMv durationUs lowestMv s = .next ((vinRecover vinMv durationUs lowestMv s)) := by
  unfold execEvVinRecover
  refine finish_of_frame (m := 119916235200782) q ?_ rfl rfl
  repeat' first
    | with_reducible exact Frame.rfl'
    | decide
    | intro _
    | with_reducible assumption
    | with_reducible apply vinRecover_frame
    | with_reducible apply ite_frame
    | split

theorem execVauxLoss_eq  {s : State} (q : s.quiet) : execVauxLoss s = .next ((vauxLoss s)) := by
  unfold execVauxLoss
  refine finish_of_frame (m := 256) q ?_ rfl rfl
  repeat' first
    | with_reducible exact Frame.rfl'
    | decide
    | intro _
    | with_reducible assumption
    | with_reducible apply vauxLoss_frame
    | with_reducible apply ite_frame
    | split

theorem execSideDomainUp_eq (side : Fin 2) {s : State} (q : s.quiet) : execSideDomainUp side s = .next (settleFaults (sideUpRow side.val s)) := by
  unfold execSideDomainUp
  refine finish_of_frame' (m := 83640730728478) q ?_ rfl
  repeat' first
    | with_reducible exact Frame.rfl'
    | decide
    | intro _
    | with_reducible assumption
    | with_reducible apply sideUpRow_frame
    | with_reducible apply ite_frame
    | split

theorem execSideDomainDown_eq (side : Fin 2) {s : State} (q : s.quiet) : execSideDomainDown side s = .next ((sideDomainDown side.val s)) := by
  unfold execSideDomainDown
  refine finish_of_frame (m := 83632149207070) q ?_ rfl rfl
  repeat' first
    | with_reducible exact Frame.rfl'
    | decide
    | intro _
    | with_reducible assumption
    | with_reducible apply sideDomainDown_frame
    | with_reducible apply ite_frame
    | split

theorem execSyncSighting_eq (side : Fin 2) (seam : Fin 4) (offset : Fin 13273600) (word : Codeword) {s : State} (q : s.quiet) (hw : (Instr.syncSighting side seam offset word).wf = true) : execSyncSighting side seam offset word s = .next ((syncSighting side.val seam.val offset.val word s)) := by
  unfold execSyncSighting
  rw [if_pos hw]
  refine finish_of_frame (m := 65544) q ?_ rfl rfl
  repeat' first
    | with_reducible exact Frame.rfl'
    | decide
    | intro _
    | with_reducible assumption
    | with_reducible apply syncSighting_frame
    | with_reducible apply ite_frame
    | split

theorem execCandidateExamine_eq (side : Fin 2) (seam : Fin 4) (offset : Fin 13273600) (word : Codeword) {s : State} (q : s.quiet) (hw : (Instr.candidateExamine side seam offset word).wf = true) : execCandidateExamine side seam offset word s = .next ((candidateExamine side.val seam.val offset.val word s)) := by
  unfold execCandidateExamine
  rw [if_pos hw]
  refine finish_of_frame (m := 65544) q ?_ rfl rfl
  repeat' first
    | with_reducible exact Frame.rfl'
    | decide
    | intro _
    | with_reducible assumption
    | with_reducible apply candidateExamine_frame
    | with_reducible apply ite_frame
    | split

theorem execEvalPeriodEnd_eq (side : Fin 2) (seam : Fin 4) {s : State} (q : s.quiet) : execEvalPeriodEnd side seam s = .next ((evalPeriodRow side.val seam.val s)) := by
  unfold execEvalPeriodEnd
  refine finish_of_frame (m := 83562892856334) q ?_ rfl rfl
  repeat' first
    | with_reducible exact Frame.rfl'
    | decide
    | intro _
    | with_reducible assumption
    | with_reducible apply evalPeriodRow_frame
    | with_reducible apply ite_frame
    | split

theorem execDownstreamFrame_eq (side : Fin 2) (seam : Fin 4) (words : List Codeword) (lateNs : BitVec 32) {s : State} (q : s.quiet) (hw : (Instr.downstreamFrame side seam words lateNs).wf = true) : execDownstreamFrame side seam words lateNs s = .next (settleFaults (downstreamFrame side.val seam.val words lateNs.toNat s)) := by
  unfold execDownstreamFrame
  rw [if_pos hw]
  refine finish_of_frame' (m := 84739869064462) q ?_ rfl
  repeat' first
    | with_reducible exact Frame.rfl'
    | decide
    | intro _
    | with_reducible assumption
    | with_reducible apply downstreamFrame_frame
    | with_reducible apply ite_frame
    | split

theorem execLosDeclare_eq (side : Fin 2) (seam : Fin 4) (sdLand : Bool) (energyLoss : Bool) {s : State} (q : s.quiet) : execLosDeclare side seam sdLand energyLoss s = .next (settleFaults (losDeclareRow side.val seam.val sdLand energyLoss s)) := by
  unfold execLosDeclare
  refine finish_of_frame' (m := 83571482765326) q ?_ rfl
  repeat' first
    | with_reducible exact Frame.rfl'
    | decide
    | intro _
    | with_reducible assumption
    | with_reducible apply losDeclareRow_frame
    | with_reducible apply ite_frame
    | split

theorem execLosClear_eq (side : Fin 2) (seam : Fin 4) (sdLand : Bool) (energyLoss : Bool) {s : State} (q : s.quiet) : execLosClear side seam sdLand energyLoss s = .next ((losClearRow side.val seam.val sdLand energyLoss s)) := by
  unfold execLosClear
  refine finish_of_frame (m := 70368744278024) q ?_ rfl rfl
  repeat' first
    | with_reducible exact Frame.rfl'
    | decide
    | intro _
    | with_reducible assumption
    | with_reducible apply losClearRow_frame
    | with_reducible apply ite_frame
    | split

theorem execSdWindowEnd_eq (side : Fin 2) (seam : Fin 4) {s : State} (q : s.quiet) : execSdWindowEnd side seam s = .next ((sdWindowEnd side.val seam.val s)) := by
  unfold execSdWindowEnd
  refine finish_of_frame (m := 70368744245256) q ?_ rfl rfl
  repeat' first
    | with_reducible exact Frame.rfl'
    | decide
    | intro _
    | with_reducible assumption
    | with_reducible apply sdWindowEnd_frame
    | with_reducible apply ite_frame
    | split

theorem execSfWindowEnd_eq (side : Fin 2) (seam : Fin 4) {s : State} (q : s.quiet) : execSfWindowEnd side seam s = .next (settleFaults (sfWindowRow side.val seam.val s)) := by
  unfold execSfWindowEnd
  refine finish_of_frame' (m := 70377334220808) q ?_ rfl
  repeat' first
    | with_reducible exact Frame.rfl'
    | decide
    | intro _
    | with_reducible assumption
    | with_reducible apply sfWindowRow_frame
    | with_reducible apply ite_frame
    | split

theorem execUpstreamBurst_eq (seam : Fin 4) {s : State} (q : s.quiet) : execUpstreamBurst seam s = .next ((upstreamBurst seam.val s)) := by
  unfold execUpstreamBurst
  refine finish_of_frame (m := 83563043752974) q ?_ rfl rfl
  repeat' first
    | with_reducible exact Frame.rfl'
    | decide
    | intro _
    | with_reducible assumption
    | with_reducible apply upstreamBurst_frame
    | with_reducible apply ite_frame
    | split

theorem execAnnounce_eq (seam : Fin 4) {s : State} (q : s.quiet) : execAnnounce seam s = .next ((announce seam.val s)) := by
  unfold execAnnounce
  refine finish_of_frame (m := 70368752568334) q ?_ rfl rfl
  repeat' first
    | with_reducible exact Frame.rfl'
    | decide
    | intro _
    | with_reducible assumption
    | with_reducible apply announce_frame
    | with_reducible apply ite_frame
    | split

theorem execRangingReply_eq (seam : Fin 4) {s : State} (q : s.quiet) : execRangingReply seam s = .next ((rangingReply seam.val s)) := by
  unfold execRangingReply
  refine finish_of_frame (m := 70368769346574) q ?_ rfl rfl
  repeat' first
    | with_reducible exact Frame.rfl'
    | decide
    | intro _
    | with_reducible assumption
    | with_reducible apply rangingReply_frame
    | with_reducible apply ite_frame
    | split

theorem execAssignTn_eq (m : LmmHead) (idser : BitVec 64) (newTn : BitVec 12) {s : State} (q : s.quiet) : execAssignTn m idser newTn s = .next ((assignTn m idser.toNat newTn.toNat s)) := by
  unfold execAssignTn
  refine finish_of_frame (m := 70368752568328) q ?_ rfl rfl
  repeat' first
    | with_reducible exact Frame.rfl'
    | decide
    | intro _
    | with_reducible assumption
    | with_reducible apply assignTn_frame
    | with_reducible apply ite_frame
    | split

theorem execRangingTime_eq (m : LmmHead) (eqd : BitVec 26) (effFc : BitVec 48) (now : Bool) {s : State} (q : s.quiet) : execRangingTime m eqd effFc now s = .next ((rangingTime m eqd.toNat effFc now s)) := by
  unfold execRangingTime
  refine finish_of_frame (m := 83562959866894) q ?_ rfl rfl
  repeat' first
    | with_reducible exact Frame.rfl'
    | decide
    | intro _
    | with_reducible assumption
    | with_reducible apply rangingTime_frame
    | with_reducible apply ite_frame
    | split

theorem execAllocAssign_eq (m : LmmHead) (allocId : BitVec 14) (remove : Bool) (index : BitVec 3) {s : State} (q : s.quiet) : execAllocAssign m allocId remove index s = .next ((allocAssign m allocId.toNat remove index.toNat s)) := by
  unfold execAllocAssign
  refine finish_of_frame (m := 83562892758030) q ?_ rfl rfl
  repeat' first
    | with_reducible exact Frame.rfl'
    | decide
    | intro _
    | with_reducible assumption
    | with_reducible apply allocAssign_frame
    | with_reducible apply ite_frame
    | split

theorem execDeactivate_eq (m : LmmHead) {s : State} (q : s.quiet) : execDeactivate m s = .next ((deactivate m s)) := by
  unfold execDeactivate
  refine finish_of_frame (m := 83562892758030) q ?_ rfl rfl
  repeat' first
    | with_reducible exact Frame.rfl'
    | decide
    | intro _
    | with_reducible assumption
    | with_reducible apply deactivate_frame
    | with_reducible apply ite_frame
    | split

theorem execExpel_eq (m : LmmHead) (idser : BitVec 64) (enable : Bool) {s : State} (q : s.quiet) : execExpel m idser enable s = .next ((expel m idser.toNat enable s)) := by
  unfold execExpel
  refine finish_of_frame (m := 83562892758030) q ?_ rfl rfl
  repeat' first
    | with_reducible exact Frame.rfl'
    | decide
    | intro _
    | with_reducible assumption
    | with_reducible apply expel_frame
    | with_reducible apply ite_frame
    | split

theorem execHold_eq (m : LmmHead) (release : Bool) {s : State} (q : s.quiet) : execHold m release s = .next ((hold m release s)) := by
  unfold execHold
  refine finish_of_frame (m := 83562959865870) q ?_ rfl rfl
  repeat' first
    | with_reducible exact Frame.rfl'
    | decide
    | intro _
    | with_reducible assumption
    | with_reducible apply hold_frame
    | with_reducible apply ite_frame
    | split

theorem execKeyEpoch_eq (m : LmmHead) (up : Bool) (epoch : Word) (switchFc : BitVec 48) {s : State} (q : s.quiet) : execKeyEpoch m up epoch switchFc s = .next ((keyEpoch m up epoch switchFc s)) := by
  unfold execKeyEpoch
  refine finish_of_frame (m := 25165832) q ?_ rfl rfl
  repeat' first
    | with_reducible exact Frame.rfl'
    | decide
    | intro _
    | with_reducible assumption
    | with_reducible apply keyEpoch_frame
    | with_reducible apply ite_frame
    | split

theorem execBurstProfile_eq (m : LmmHead) (profile : BitVec 3) (preamble : BitVec 10) (pattern : Word) (delimiter : BitVec 64) {s : State} (q : s.quiet) : execBurstProfile m profile preamble pattern delimiter s = .next ((burstProfile m profile.toNat preamble.toNat pattern delimiter s)) := by
  unfold execBurstProfile
  refine finish_of_frame (m := 70368752569352) q ?_ rfl rfl
  repeat' first
    | with_reducible exact Frame.rfl'
    | decide
    | intro _
    | with_reducible assumption
    | with_reducible apply burstProfile_frame
    | with_reducible apply ite_frame
    | split

theorem execDozeGrant_eq (m : LmmHead) (state : BitVec 3) (period aware : BitVec 16) {s : State} (q : s.quiet) : execDozeGrant m state period aware s = .next ((dozeGrant m state.toNat period.toNat aware.toNat s)) := by
  unfold execDozeGrant
  refine finish_of_frame (m := 8388616) q ?_ rfl rfl
  repeat' first
    | with_reducible exact Frame.rfl'
    | decide
    | intro _
    | with_reducible assumption
    | with_reducible apply dozeGrant_frame
    | with_reducible apply ite_frame
    | split

theorem execEchoRequest_eq (m : LmmHead) (data : BitVec 288) {s : State} (q : s.quiet) : execEchoRequest m data s = .next ((echoRequest m data s)) := by
  unfold execEchoRequest
  refine finish_of_frame (m := 8388616) q ?_ rfl rfl
  repeat' first
    | with_reducible exact Frame.rfl'
    | decide
    | intro _
    | with_reducible assumption
    | with_reducible apply echoRequest_frame
    | with_reducible apply ite_frame
    | split

theorem execResumeAck_eq (m : LmmHead) (dsEpoch usEpoch : Word) {s : State} (q : s.quiet) : execResumeAck m dsEpoch usEpoch s = .next ((resumeAck m dsEpoch usEpoch s)) := by
  unfold execResumeAck
  refine finish_of_frame (m := 83562976644110) q ?_ rfl rfl
  repeat' first
    | with_reducible exact Frame.rfl'
    | decide
    | intro _
    | with_reducible assumption
    | with_reducible apply resumeAck_frame
    | with_reducible apply ite_frame
    | split

theorem execTimeOfDay_eq (m : LmmHead) (markFc : BitVec 48) (seconds : BitVec 64) (ns : Word) (frac : BitVec 16) {s : State} (q : s.quiet) : execTimeOfDay m markFc seconds ns frac s = .next ((timeOfDay m markFc seconds.toNat ns.toNat frac.toNat s)) := by
  unfold execTimeOfDay
  refine finish_of_frame (m := 8389128) q ?_ rfl rfl
  repeat' first
    | with_reducible exact Frame.rfl'
    | decide
    | intro _
    | with_reducible assumption
    | with_reducible apply timeOfDay_frame
    | with_reducible apply ite_frame
    | split

theorem execAck_eq (ident : Fin 128) (type seq : BitVec 8) (fc : BitVec 48) {s : State} (q : s.quiet) : execAck ident type seq fc s = .next ((queueAck ident.val type.toNat seq.toNat fc s)) := by
  unfold execAck
  refine finish_of_frame (m := 8388608) q ?_ rfl rfl
  repeat' first
    | with_reducible exact Frame.rfl'
    | decide
    | intro _
    | with_reducible assumption
    | with_reducible apply queueAck_frame
    | with_reducible apply ite_frame
    | split

theorem execJoinTimeout_eq (ident : Fin 128) {s : State} (q : s.quiet) : execJoinTimeout ident s = .next ((joinTimeout ident.val s)) := by
  unfold execJoinTimeout
  refine finish_of_frame (m := 83562892757006) q ?_ rfl rfl
  repeat' first
    | with_reducible exact Frame.rfl'
    | decide
    | intro _
    | with_reducible assumption
    | with_reducible apply joinTimeout_frame
    | with_reducible apply ite_frame
    | split

theorem execResumeTimeout_eq (ident : Fin 128) {s : State} (q : s.quiet) : execResumeTimeout ident s = .next ((resumeTimeout ident.val s)) := by
  unfold execResumeTimeout
  refine finish_of_frame (m := 83562892758030) q ?_ rfl rfl
  repeat' first
    | with_reducible exact Frame.rfl'
    | decide
    | intro _
    | with_reducible assumption
    | with_reducible apply resumeTimeout_frame
    | with_reducible apply ite_frame
    | split

theorem execUnexpel_eq (ident : Fin 128) {s : State} (q : s.quiet) (hj : judge (Reg.JOIN_ID_CFG ident.val) s = .perform) : execUnexpel ident s = .next ((unexpel ident.val s)) := by
  unfold execUnexpel
  rw [commandWrite_perform hj]
  refine finish_of_frame (m := 70368752569352) q ?_ rfl rfl
  repeat' first
    | with_reducible exact Frame.rfl'
    | decide
    | intro _
    | with_reducible assumption
    | with_reducible apply unexpel_frame
    | with_reducible apply ite_frame
    | split

theorem execDozeRequest_eq (ident : Fin 128) (state : BitVec 3) (period : BitVec 16) {s : State} (q : s.quiet) : execDozeRequest ident state period s = .next ((dozeRequest ident.val state.toNat period.toNat s)) := by
  unfold execDozeRequest
  refine finish_of_frame (m := 8388608) q ?_ rfl rfl
  repeat' first
    | with_reducible exact Frame.rfl'
    | decide
    | intro _
    | with_reducible assumption
    | with_reducible apply dozeRequest_frame
    | with_reducible apply ite_frame
    | split

theorem execDozeWake_eq (ident : Fin 128) {s : State} (q : s.quiet) : execDozeWake ident s = .next ((dozeWakeRow ident.val s)) := by
  unfold execDozeWake
  refine finish_of_frame (m := 71536983676936) q ?_ rfl rfl
  repeat' first
    | with_reducible exact Frame.rfl'
    | decide
    | intro _
    | with_reducible assumption
    | with_reducible apply dozeWakeRow_frame
    | with_reducible apply ite_frame
    | split

theorem execDozeTimer_eq  {s : State} (q : s.quiet) : execDozeTimer s = .next ((dozeTimer s)) := by
  unfold execDozeTimer
  refine finish_of_frame (m := 71536983676936) q ?_ rfl rfl
  repeat' first
    | with_reducible exact Frame.rfl'
    | decide
    | intro _
    | with_reducible assumption
    | with_reducible apply dozeTimer_frame
    | with_reducible apply ite_frame
    | split

theorem execBondGapTimerExpiry_eq (ident : Fin 128) {s : State} (q : s.quiet) : execBondGapTimerExpiry ident s = .next ((bondGapExpiry ident.val s)) := by
  unfold execBondGapTimerExpiry
  refine finish_of_frame (m := 84731144837390) q ?_ rfl rfl
  repeat' first
    | with_reducible exact Frame.rfl'
    | decide
    | intro _
    | with_reducible assumption
    | with_reducible apply bondGapExpiry_frame
    | with_reducible apply ite_frame
    | split

theorem execCircEnable_eq (circuit : Fin 1024) {s : State} (q : s.quiet) : execCircEnable circuit s = .next ((circEnable circuit.val s)) := by
  unfold execCircEnable
  refine finish_of_frame (m := 70368878528522) q ?_ rfl rfl
  repeat' first
    | with_reducible exact Frame.rfl'
    | decide
    | intro _
    | with_reducible assumption
    | with_reducible apply circEnable_frame
    | with_reducible apply ite_frame
    | split

theorem execCircDisable_eq (circuit : Fin 1024) {s : State} (q : s.quiet) : execCircDisable circuit s = .next ((circDisable circuit.val s)) := by
  unfold execCircDisable
  refine finish_of_frame (m := 83563018586126) q ?_ rfl rfl
  repeat' first
    | with_reducible exact Frame.rfl'
    | decide
    | intro _
    | with_reducible assumption
    | with_reducible apply circDisable_frame
    | with_reducible apply ite_frame
    | split

theorem execCircPacket_eq (packet : Option (Fin 1024 × Bytes)) {s : State} (q : s.quiet) : execCircPacket packet s = .next ((circPacketRow packet s)) := by
  unfold execCircPacket
  refine finish_of_frame (m := 167772168) q ?_ rfl rfl
  repeat' first
    | with_reducible exact Frame.rfl'
    | decide
    | intro _
    | with_reducible assumption
    | with_reducible apply circPacketRow_frame
    | with_reducible apply ite_frame
    | split

theorem execSubmit_eq (msg : Option (Fin 512 × Bytes)) {s : State} (q : s.quiet) : execSubmit msg s = .next ((tallyRow false 0x01 msg submit s)) := by
  unfold execSubmit
  refine finish_of_frame (m := 83562986081294) q ?_ rfl rfl
  repeat' first
    | with_reducible exact Frame.rfl'
    | decide
    | intro _
    | with_reducible assumption
    | with_reducible apply tallyRow_frame
    | with_reducible apply submit_frame
    | with_reducible apply ite_frame
    | split

theorem execJournalWriteVerified_eq (slot : Fin 8192) {s : State} (q : s.quiet) : execJournalWriteVerified slot s = .next ((journalWriteVerified slot.val s)) := by
  unfold execJournalWriteVerified
  refine finish_of_frame (m := 13194208346382) q ?_ rfl rfl
  repeat' first
    | with_reducible exact Frame.rfl'
    | decide
    | intro _
    | with_reducible assumption
    | with_reducible apply journalWriteVerified_frame
    | with_reducible apply ite_frame
    | split

theorem execEvTallySplit_eq (slot : Fin 8192) (dies unwritable : BitVec 2) {s : State} (q : s.quiet) : execEvTallySplit slot dies unwritable s = .next (settleFaults (splitRow slot.val dies unwritable s)) := by
  unfold execEvTallySplit
  refine finish_of_frame' (m := 83573153180686) q ?_ rfl
  repeat' first
    | with_reducible exact Frame.rfl'
    | decide
    | intro _
    | with_reducible assumption
    | with_reducible apply splitRow_frame
    | with_reducible apply ite_frame
    | split

theorem execDeliver_eq (msg : Option (Fin 128 × Bytes)) {s : State} (q : s.quiet) : execDeliver msg s = .next ((tallyRow true 0x04 msg deliver s)) := by
  unfold execDeliver
  refine finish_of_frame (m := 83562986081294) q ?_ rfl rfl
  repeat' first
    | with_reducible exact Frame.rfl'
    | decide
    | intro _
    | with_reducible assumption
    | with_reducible apply tallyRow_frame
    | with_reducible apply deliver_frame
    | with_reducible apply ite_frame
    | split

theorem execTallyResendHe_eq (flow : Fin 2048) {s : State} (q : s.quiet) : execTallyResendHe flow s = .next ((tallyResendHe flow.val s)) := by
  unfold execTallyResendHe
  refine finish_of_frame (m := 13194207297546) q ?_ rfl rfl
  repeat' first
    | with_reducible exact Frame.rfl'
    | decide
    | intro _
    | with_reducible assumption
    | with_reducible apply tallyResendHe_frame
    | with_reducible apply ite_frame
    | split

theorem execDeliverToRecipient_eq (flow : Fin 2048) {s : State} (q : s.quiet) : execDeliverToRecipient flow s = .next ((deliverToRecipient flow.val s)) := by
  unfold execDeliverToRecipient
  refine finish_of_frame (m := 13194208346126) q ?_ rfl rfl
  repeat' first
    | with_reducible exact Frame.rfl'
    | decide
    | intro _
    | with_reducible assumption
    | with_reducible apply deliverToRecipient_frame
    | with_reducible apply ite_frame
    | split

theorem execTallyResendLocal_eq (flow : Fin 2048) {s : State} (q : s.quiet) : execTallyResendLocal flow s = .next ((tallyResendLocal flow.val s)) := by
  unfold execTallyResendLocal
  refine finish_of_frame (m := 13194208346126) q ?_ rfl rfl
  repeat' first
    | with_reducible exact Frame.rfl'
    | decide
    | intro _
    | with_reducible assumption
    | with_reducible apply tallyResendLocal_frame
    | with_reducible apply ite_frame
    | split

theorem execReceiptFromHeadEnd_eq (msg : Option (Fin 128 × Bytes)) {s : State} (q : s.quiet) : execReceiptFromHeadEnd msg s = .next ((tallyRow true 0x05 msg receiptFromHeadEnd s)) := by
  unfold execReceiptFromHeadEnd
  refine finish_of_frame (m := 13194241900558) q ?_ rfl rfl
  repeat' first
    | with_reducible exact Frame.rfl'
    | decide
    | intro _
    | with_reducible assumption
    | with_reducible apply tallyRow_frame
    | with_reducible apply receiptFromHeadEnd_frame
    | with_reducible apply ite_frame
    | split

theorem execReceiptFromRecipient_eq (msg : Option (Fin 512 × Bytes)) {s : State} (q : s.quiet) : execReceiptFromRecipient msg s = .next ((tallyRow false 0x05 msg receiptFromRecipient s)) := by
  unfold execReceiptFromRecipient
  refine finish_of_frame (m := 13194241900558) q ?_ rfl rfl
  repeat' first
    | with_reducible exact Frame.rfl'
    | decide
    | intro _
    | with_reducible assumption
    | with_reducible apply tallyRow_frame
    | with_reducible apply receiptFromRecipient_frame
    | with_reducible apply ite_frame
    | split

theorem execRefuseFromHeadEnd_eq (msg : Option (Fin 128 × Bytes)) {s : State} (q : s.quiet) : execRefuseFromHeadEnd msg s = .next ((tallyRow true 0x03 msg refuseFromHeadEnd s)) := by
  unfold execRefuseFromHeadEnd
  refine finish_of_frame (m := 13194174791694) q ?_ rfl rfl
  repeat' first
    | with_reducible exact Frame.rfl'
    | decide
    | intro _
    | with_reducible assumption
    | with_reducible apply tallyRow_frame
    | with_reducible apply refuseFromHeadEnd_frame
    | with_reducible apply ite_frame
    | split

theorem execStatus_eq (msg : Option (Fin 512 × Bytes)) {s : State} (q : s.quiet) : execStatus msg s = .next ((tallyRow false 0x06 msg status s)) := by
  unfold execStatus
  refine finish_of_frame (m := 13194174791694) q ?_ rfl rfl
  repeat' first
    | with_reducible exact Frame.rfl'
    | decide
    | intro _
    | with_reducible assumption
    | with_reducible apply status_frame
    | with_reducible apply tallyRow_frame
    | with_reducible apply ite_frame
    | split

theorem execEvTallyStall_eq (flow : Fin 2048) {s : State} (q : s.quiet) : execEvTallyStall flow s = .next ((evTallyStall flow.val s)) := by
  unfold execEvTallyStall
  refine finish_of_frame (m := 70368811288584) q ?_ rfl rfl
  repeat' first
    | with_reducible exact Frame.rfl'
    | decide
    | intro _
    | with_reducible assumption
    | with_reducible apply evTallyStall_frame
    | with_reducible apply ite_frame
    | split

theorem execFlowClose_eq (flow : Fin 2048) {s : State} (q : s.quiet) (hj : judge (Reg.TALLY_FLOW_CFG flow.val) s = .perform) : execFlowClose flow s = .next ((flowClose flow.val s)) := by
  unfold execFlowClose
  rw [commandWrite_perform hj]
  refine finish_of_frame (m := 83562951477262) q ?_ rfl rfl
  repeat' first
    | with_reducible exact Frame.rfl'
    | decide
    | intro _
    | with_reducible assumption
    | with_reducible apply flowClose_frame
    | with_reducible apply ite_frame
    | split

theorem execPurge_eq (flow : Fin 2048) {s : State} (q : s.quiet) (hj : judge (Reg.TALLY_FLOW_CFG flow.val) s = .perform) : execPurge flow s = .next ((purge flow.val s)) := by
  unfold execPurge
  rw [commandWrite_perform hj]
  refine finish_of_frame (m := 83562951477262) q ?_ rfl rfl
  repeat' first
    | with_reducible exact Frame.rfl'
    | decide
    | intro _
    | with_reducible assumption
    | with_reducible apply purge_frame
    | with_reducible apply ite_frame
    | split

theorem execJournalScan_eq (torn unmarked : List (Fin 2 × Fin 8192)) {s : State} (q : s.quiet) : execJournalScan torn unmarked s = .next ((scanRow torn unmarked s)) := by
  unfold execJournalScan
  refine finish_of_frame (m := 84868646722702) q ?_ rfl rfl
  repeat' first
    | with_reducible exact Frame.rfl'
    | decide
    | intro _
    | with_reducible assumption
    | with_reducible apply scanRow_frame
    | with_reducible apply ite_frame
    | split

theorem execClassifyFrame_eq (pipe : Fin 4) {s : State} (q : s.quiet) : execClassifyFrame pipe s = .next ((classifyFrame pipe.val s)) := by
  unfold execClassifyFrame
  refine finish_of_frame (m := 84731431114766) q ?_ rfl rfl
  repeat' first
    | with_reducible exact Frame.rfl'
    | decide
    | intro _
    | with_reducible assumption
    | with_reducible apply classifyFrame_frame
    | with_reducible apply ite_frame
    | split

theorem execExcForward_eq  {s : State} (q : s.quiet) : execExcForward s = .next ((excForward s)) := by
  unfold execExcForward
  refine finish_of_frame (m := 83566139148302) q ?_ rfl rfl
  repeat' first
    | with_reducible exact Frame.rfl'
    | decide
    | intro _
    | with_reducible assumption
    | with_reducible apply excForward_frame
    | with_reducible apply ite_frame
    | split

theorem execRuleWrite_eq (pipe : Fin 4) (value : Word) {s : State} (q : s.quiet) (hj : judge (Reg.CLS_RULE_CMD pipe.val) s = .perform) : execRuleWrite pipe value s = .next ((ruleWrite pipe.val (putFld value 17 16 1) s)) := by
  unfold execRuleWrite
  rw [commandWrite_perform hj]
  refine finish_of_frame (m := 33554440) q ?_ rfl rfl
  repeat' first
    | with_reducible exact Frame.rfl'
    | decide
    | intro _
    | with_reducible assumption
    | with_reducible apply ruleWrite_frame
    | with_reducible apply ite_frame
    | split

theorem execRuleRead_eq (pipe : Fin 4) (value : Word) {s : State} (q : s.quiet) (hj : judge (Reg.CLS_RULE_CMD pipe.val) s = .perform) : execRuleRead pipe value s = .next ((ruleRead pipe.val (putFld value 17 16 2) s)) := by
  unfold execRuleRead
  rw [commandWrite_perform hj]
  refine finish_of_frame (m := 8) q ?_ rfl rfl
  repeat' first
    | with_reducible exact Frame.rfl'
    | decide
    | intro _
    | with_reducible assumption
    | with_reducible apply ruleRead_frame
    | with_reducible apply ite_frame
    | split

theorem execFdbInsertStatic_eq  {s : State} (q : s.quiet) (hj : judge Reg.CLS_FDB_CMD s = .perform) : execFdbInsertStatic s = .next ((fdbInsert true s)) := by
  unfold execFdbInsertStatic
  rw [commandWrite_perform hj]
  refine finish_of_frame (m := 33554440) q ?_ rfl rfl
  repeat' first
    | with_reducible exact Frame.rfl'
    | decide
    | intro _
    | with_reducible assumption
    | with_reducible apply fdbInsert_frame
    | with_reducible apply ite_frame
    | split

theorem execFdbInsertDynamic_eq  {s : State} (q : s.quiet) (hj : judge Reg.CLS_FDB_CMD s = .perform) : execFdbInsertDynamic s = .next ((fdbInsert false s)) := by
  unfold execFdbInsertDynamic
  rw [commandWrite_perform hj]
  refine finish_of_frame (m := 33554440) q ?_ rfl rfl
  repeat' first
    | with_reducible exact Frame.rfl'
    | decide
    | intro _
    | with_reducible assumption
    | with_reducible apply fdbInsert_frame
    | with_reducible apply ite_frame
    | split

theorem execFdbDelete_eq  {s : State} (q : s.quiet) (hj : judge Reg.CLS_FDB_CMD s = .perform) : execFdbDelete s = .next ((fdbDelete s)) := by
  unfold execFdbDelete
  rw [commandWrite_perform hj]
  refine finish_of_frame (m := 33554440) q ?_ rfl rfl
  repeat' first
    | with_reducible exact Frame.rfl'
    | decide
    | intro _
    | with_reducible assumption
    | with_reducible apply fdbDelete_frame
    | with_reducible apply ite_frame
    | split

theorem execFdbLookup_eq  {s : State} (q : s.quiet) (hj : judge Reg.CLS_FDB_CMD s = .perform) : execFdbLookup s = .next ((fdbLookup s)) := by
  unfold execFdbLookup
  rw [commandWrite_perform hj]
  refine finish_of_frame (m := 8) q ?_ rfl rfl
  repeat' first
    | with_reducible exact Frame.rfl'
    | decide
    | intro _
    | with_reducible assumption
    | with_reducible apply fdbLookup_frame
    | with_reducible apply ite_frame
    | split

theorem execFdbDeleteByDest_eq  {s : State} (q : s.quiet) (hj : judge Reg.CLS_FDB_CMD s = .perform) : execFdbDeleteByDest s = .next ((fdbDeleteByDest s)) := by
  unfold execFdbDeleteByDest
  rw [commandWrite_perform hj]
  refine finish_of_frame (m := 33554440) q ?_ rfl rfl
  repeat' first
    | with_reducible exact Frame.rfl'
    | decide
    | intro _
    | with_reducible assumption
    | with_reducible apply fdbDeleteByDest_frame
    | with_reducible apply ite_frame
    | split

theorem execFdbSweep_eq  {s : State} (q : s.quiet) : execFdbSweep s = .next ((fdbSweep s)) := by
  unfold execFdbSweep
  refine finish_of_frame (m := 33554432) q ?_ rfl rfl
  repeat' first
    | with_reducible exact Frame.rfl'
    | decide
    | intro _
    | with_reducible assumption
    | with_reducible apply fdbSweep_frame
    | with_reducible apply ite_frame
    | split

theorem execVlanWrite_eq (value : Word) {s : State} (q : s.quiet) (hj : judge Reg.CLS_VLAN_CMD s = .perform) : execVlanWrite value s = .next ((vlanWrite (putFld value 17 16 1) s)) := by
  unfold execVlanWrite
  rw [commandWrite_perform hj]
  refine finish_of_frame (m := 33554440) q ?_ rfl rfl
  repeat' first
    | with_reducible exact Frame.rfl'
    | decide
    | intro _
    | with_reducible assumption
    | with_reducible apply vlanWrite_frame
    | with_reducible apply ite_frame
    | split

theorem execVlanRead_eq (value : Word) {s : State} (q : s.quiet) (hj : judge Reg.CLS_VLAN_CMD s = .perform) : execVlanRead value s = .next ((vlanRead (putFld value 17 16 2) s)) := by
  unfold execVlanRead
  rw [commandWrite_perform hj]
  refine finish_of_frame (m := 8) q ?_ rfl rfl
  repeat' first
    | with_reducible exact Frame.rfl'
    | decide
    | intro _
    | with_reducible assumption
    | with_reducible apply vlanRead_frame
    | with_reducible apply ite_frame
    | split

theorem execPortFrameStart_eq (port : Fin 512) (read : SramRead) {s : State} (q : s.quiet) : execPortFrameStart port read s = .next (settleFaults (frameStart port.val read s)) := by
  unfold execPortFrameStart
  refine finish_of_frame' (m := 83571742763022) q ?_ rfl
  repeat' first
    | with_reducible exact Frame.rfl'
    | decide
    | intro _
    | with_reducible assumption
    | with_reducible apply frameStart_frame
    | with_reducible apply ite_frame
    | split

theorem execPause_eq (port : Fin 512) (t : BitVec 16) {s : State} (q : s.quiet) : execPause port t s = .next ((pauseRx port.val t.toNat s)) := by
  unfold execPause
  refine finish_of_frame (m := 524296) q ?_ rfl rfl
  repeat' first
    | with_reducible exact Frame.rfl'
    | decide
    | intro _
    | with_reducible assumption
    | with_reducible apply pauseRx_frame
    | with_reducible apply ite_frame
    | split

theorem execPfc_eq (port : Fin 512) (enable : BitVec 8) (times : List (BitVec 16)) {s : State} (q : s.quiet) (hw : (Instr.pfc port enable times).wf = true) : execPfc port enable times s = .next ((pfcRx port.val enable times s)) := by
  unfold execPfc
  rw [if_pos hw]
  refine finish_of_frame (m := 524296) q ?_ rfl rfl
  repeat' first
    | with_reducible exact Frame.rfl'
    | decide
    | intro _
    | with_reducible assumption
    | with_reducible apply pfcRx_frame
    | with_reducible apply ite_frame
    | split

theorem execPauseExpiry_eq (port : Fin 512) (pri : Option (Fin 8)) {s : State} (q : s.quiet) : execPauseExpiry port pri s = .next ((pauseExpiry port.val (pri.map (fun k => k.val)) s)) := by
  unfold execPauseExpiry
  refine finish_of_frame (m := 524288) q ?_ rfl rfl
  repeat' first
    | with_reducible exact Frame.rfl'
    | decide
    | intro _
    | with_reducible assumption
    | with_reducible apply pauseExpiry_frame
    | with_reducible apply ite_frame
    | split

theorem execLanePauseDrop_eq (port : Fin 512) {s : State} (q : s.quiet) : execLanePauseDrop port s = .next ((lanePauseDrop port.val s)) := by
  unfold execLanePauseDrop
  refine finish_of_frame (m := 83562884368398) q ?_ rfl rfl
  repeat' first
    | with_reducible exact Frame.rfl'
    | decide
    | intro _
    | with_reducible assumption
    | with_reducible apply lanePauseDrop_frame
    | with_reducible apply ite_frame
    | split

theorem execGateCommit_eq (port : Fin 512) (value : Word) {s : State} (q : s.quiet) (hj : judge (Reg.SCHED_GATE_CTRL port.val) s = .perform) : execGateCommit port value s = .next ((gateCommit port.val (value ||| 0x80000000) s)) := by
  unfold execGateCommit
  rw [commandWrite_perform hj]
  refine finish_of_frame (m := 70368744704008) q ?_ rfl rfl
  repeat' first
    | with_reducible exact Frame.rfl'
    | decide
    | intro _
    | with_reducible assumption
    | with_reducible apply gateCommit_frame
    | with_reducible apply ite_frame
    | split

theorem execGateListStart_eq (port : Fin 512) {s : State} (q : s.quiet) : execGateListStart port s = .next ((gateListStart port.val s)) := by
  unfold execGateListStart
  refine finish_of_frame (m := 524296) q ?_ rfl rfl
  repeat' first
    | with_reducible exact Frame.rfl'
    | decide
    | intro _
    | with_reducible assumption
    | with_reducible apply gateListStart_frame
    | with_reducible apply ite_frame
    | split

theorem execGclWrite_eq (value : Word) {s : State} (q : s.quiet) (hj : judge Reg.SCHED_GCL_CMD s = .perform) : execGclWrite value s = .next ((gclWrite (putFld value 29 28 1) s)) := by
  unfold execGclWrite
  rw [commandWrite_perform hj]
  refine finish_of_frame (m := 524296) q ?_ rfl rfl
  repeat' first
    | with_reducible exact Frame.rfl'
    | decide
    | intro _
    | with_reducible assumption
    | with_reducible apply gclWrite_frame
    | with_reducible apply ite_frame
    | split

theorem execGclRead_eq (value : Word) {s : State} (q : s.quiet) (hj : judge Reg.SCHED_GCL_CMD s = .perform) : execGclRead value s = .next ((gclRead (putFld value 29 28 2) s)) := by
  unfold execGclRead
  rw [commandWrite_perform hj]
  refine finish_of_frame (m := 8) q ?_ rfl rfl
  repeat' first
    | with_reducible exact Frame.rfl'
    | decide
    | intro _
    | with_reducible assumption
    | with_reducible apply gclRead_frame
    | with_reducible apply ite_frame
    | split

theorem execPolicerWrite_eq (value : Word) {s : State} (q : s.quiet) (hj : judge Reg.SCHED_POL_CMD s = .perform) : execPolicerWrite value s = .next ((policerWrite (putFld value 29 28 1) s)) := by
  unfold execPolicerWrite
  rw [commandWrite_perform hj]
  refine finish_of_frame (m := 524296) q ?_ rfl rfl
  repeat' first
    | with_reducible exact Frame.rfl'
    | decide
    | intro _
    | with_reducible assumption
    | with_reducible apply policerWrite_frame
    | with_reducible apply ite_frame
    | split

theorem execPolicerRead_eq (value : Word) {s : State} (q : s.quiet) (hj : judge Reg.SCHED_POL_CMD s = .perform) : execPolicerRead value s = .next ((policerRead (putFld value 29 28 2) s)) := by
  unfold execPolicerRead
  rw [commandWrite_perform hj]
  refine finish_of_frame (m := 8) q ?_ rfl rfl
  repeat' first
    | with_reducible exact Frame.rfl'
    | decide
    | intro _
    | with_reducible assumption
    | with_reducible apply policerRead_frame
    | with_reducible apply ite_frame
    | split

theorem execPolicerReadClear_eq (value : Word) {s : State} (q : s.quiet) (hj : judge Reg.SCHED_POL_CMD s = .perform) : execPolicerReadClear value s = .next ((policerReadClear (putFld value 29 28 3) s)) := by
  unfold execPolicerReadClear
  rw [commandWrite_perform hj]
  refine finish_of_frame (m := 524296) q ?_ rfl rfl
  repeat' first
    | with_reducible exact Frame.rfl'
    | decide
    | intro _
    | with_reducible assumption
    | with_reducible apply policerReadClear_frame
    | with_reducible apply ite_frame
    | split

theorem execTubTake_eq (agent : BitVec 6) (len : BitVec 16) (known : Bool) {s : State} (q : s.quiet) : execTubTake agent len known s = .next ((askTake agent.toNat len.toNat known s)) := by
  unfold execTubTake
  refine finish_of_frame (m := 131072) q ?_ rfl rfl
  repeat' first
    | with_reducible exact Frame.rfl'
    | decide
    | intro _
    | with_reducible assumption
    | with_reducible apply askTake_frame
    | with_reducible apply ite_frame
    | split

theorem execTubFree_eq (agent : BitVec 6) (handle : Word) (chain : Bool) {s : State} (q : s.quiet) : execTubFree agent handle chain s = .next ((askFree agent.toNat handle.toNat chain s)) := by
  unfold execTubFree
  refine finish_of_frame (m := 131072) q ?_ rfl rfl
  repeat' first
    | with_reducible exact Frame.rfl'
    | decide
    | intro _
    | with_reducible assumption
    | with_reducible apply askFree_frame
    | with_reducible apply ite_frame
    | split

theorem execTubHandOver_eq (handle : Word) (agent : BitVec 6) {s : State} (q : s.quiet) : execTubHandOver handle agent s = .next ((tubHandOver handle.toNat agent.toNat s)) := by
  unfold execTubHandOver
  refine finish_of_frame (m := 70368744310794) q ?_ rfl rfl
  repeat' first
    | with_reducible exact Frame.rfl'
    | decide
    | intro _
    | with_reducible assumption
    | with_reducible apply tubHandOver_frame
    | with_reducible apply ite_frame
    | split

theorem execRingPost_eq (ring : Fin 8) (handle : Word) {s : State} (q : s.quiet) : execRingPost ring handle s = .next ((ringPost ring.val handle.toNat s)) := by
  unfold execRingPost
  refine finish_of_frame (m := 4398046642176) q ?_ rfl rfl
  repeat' first
    | with_reducible exact Frame.rfl'
    | decide
    | intro _
    | with_reducible assumption
    | with_reducible apply ringPost_frame
    | with_reducible apply ite_frame
    | split

theorem execRingFill_eq (ring : Fin 8) (producer : BitVec 6) (frame : Bytes) {s : State} (q : s.quiet) : execRingFill ring producer frame s = .next ((ringFill ring.val producer.toNat frame s)) := by
  unfold execRingFill
  refine finish_of_frame (m := 83562883844106) q ?_ rfl rfl
  repeat' first
    | with_reducible exact Frame.rfl'
    | decide
    | intro _
    | with_reducible assumption
    | with_reducible apply ringFill_frame
    | with_reducible apply ite_frame
    | split

theorem execSpill_eq (queue : QueueRef) {s : State} (q : s.quiet) : execSpill queue s = .next ((spill queue s)) := by
  unfold execSpill
  refine finish_of_frame (m := 83562884368398) q ?_ rfl rfl
  repeat' first
    | with_reducible exact Frame.rfl'
    | decide
    | intro _
    | with_reducible assumption
    | with_reducible apply spill_frame
    | with_reducible apply ite_frame
    | split

theorem execRefill_eq (queue : QueueRef) {s : State} (q : s.quiet) : execRefill queue s = .next ((refill queue s)) := by
  unfold execRefill
  refine finish_of_frame (m := 83562884368398) q ?_ rfl rfl
  repeat' first
    | with_reducible exact Frame.rfl'
    | decide
    | intro _
    | with_reducible assumption
    | with_reducible apply refill_frame
    | with_reducible apply ite_frame
    | split

theorem execWndDescriptorFetch_eq (channel : Fin 64) {s : State} (q : s.quiet) : execWndDescriptorFetch channel s = .next ((wndFetch channel.val s)) := by
  unfold execWndDescriptorFetch
  refine finish_of_frame (m := 70368744441868) q ?_ rfl rfl
  repeat' first
    | with_reducible exact Frame.rfl'
    | decide
    | intro _
    | with_reducible assumption
    | with_reducible apply wndFetch_frame
    | with_reducible apply ite_frame
    | split

theorem execWndDescriptorComplete_eq (channel : Fin 64) {s : State} (q : s.quiet) : execWndDescriptorComplete channel s = .next ((wndComplete channel.val s)) := by
  unfold execWndDescriptorComplete
  refine finish_of_frame (m := 70368744441868) q ?_ rfl rfl
  repeat' first
    | with_reducible exact Frame.rfl'
    | decide
    | intro _
    | with_reducible assumption
    | with_reducible apply wndComplete_frame
    | with_reducible apply ite_frame
    | split

theorem execWndBurst_eq (req : BitVec 32) {s : State} (q : s.quiet) : execWndBurst req s = .next ((wndBurst req s)) := by
  unfold execWndBurst
  refine finish_of_frame (m := 83562884106254) q ?_ rfl rfl
  repeat' first
    | with_reducible exact Frame.rfl'
    | decide
    | intro _
    | with_reducible assumption
    | with_reducible apply wndBurst_frame
    | with_reducible apply ite_frame
    | split

theorem execEvWndError_eq (channel : Fin 64) (sram : Bool) {s : State} (q : s.quiet) : execEvWndError channel sram s = .next ((wndError channel.val sram s)) := by
  unfold execEvWndError
  refine finish_of_frame (m := 83562884106254) q ?_ rfl rfl
  repeat' first
    | with_reducible exact Frame.rfl'
    | decide
    | intro _
    | with_reducible assumption
    | with_reducible apply wndError_frame
    | with_reducible apply ite_frame
    | split

theorem execWndChannelDisable_eq (channel : Fin 64) {s : State} (q : s.quiet) (hj : judge (Reg.WND_CH_CFG channel.val) s = .perform) : execWndChannelDisable channel s = .next ((wndDisable channel.val s)) := by
  unfold execWndChannelDisable
  rw [commandWrite_perform hj]
  refine finish_of_frame (m := 262152) q ?_ rfl rfl
  repeat' first
    | with_reducible exact Frame.rfl'
    | decide
    | intro _
    | with_reducible assumption
    | with_reducible apply wndDisable_frame
    | with_reducible apply ite_frame
    | split

theorem execPortModeWrite_eq (port : Fin 512) (value : Word) {s : State} (q : s.quiet) (hj : judge (Reg.PORT_CFG port.val) s = .perform) : execPortModeWrite port value s = .next ((portModeWrite port.val value s)) := by
  unfold execPortModeWrite
  rw [commandWrite_perform hj]
  refine finish_of_frame (m := 83563422287886) q ?_ rfl rfl
  repeat' first
    | with_reducible exact Frame.rfl'
    | decide
    | intro _
    | with_reducible assumption
    | with_reducible apply portModeWrite_frame
    | with_reducible apply ite_frame
    | split

theorem execMacRxFrame_eq (port : Fin 512) (frame : Option Bytes) (codeErr : Bool) (fecCorr fecUncorr : Nat) {s : State} (q : s.quiet) : execMacRxFrame port frame codeErr fecCorr fecUncorr s = .next ((macRxFrame port.val frame codeErr fecCorr fecUncorr s)) := by
  unfold execMacRxFrame
  refine finish_of_frame (m := 84731397560586) q ?_ rfl rfl
  repeat' first
    | with_reducible exact Frame.rfl'
    | decide
    | intro _
    | with_reducible assumption
    | with_reducible apply macRxFrame_frame
    | with_reducible apply ite_frame
    | split

theorem execLinkUp_eq (port : Fin 512) {s : State} (q : s.quiet) : execLinkUp port s = .next ((linkUp port.val s)) := by
  unfold execLinkUp
  refine finish_of_frame (m := 70368745228296) q ?_ rfl rfl
  repeat' first
    | with_reducible exact Frame.rfl'
    | decide
    | intro _
    | with_reducible assumption
    | with_reducible apply linkUp_frame
    | with_reducible apply ite_frame
    | split

theorem execLinkDown_eq (port : Fin 512) {s : State} (q : s.quiet) : execLinkDown port s = .next ((linkDown port.val s)) := by
  unfold execLinkDown
  refine finish_of_frame (m := 83562885416974) q ?_ rfl rfl
  repeat' first
    | with_reducible exact Frame.rfl'
    | decide
    | intro _
    | with_reducible assumption
    | with_reducible apply linkDown_frame
    | with_reducible apply ite_frame
    | split

theorem execLpiEnter_eq (port : Fin 512) {s : State} (q : s.quiet) : execLpiEnter port s = .next ((lpiEnter port.val s)) := by
  unfold execLpiEnter
  refine finish_of_frame (m := 1048588) q ?_ rfl rfl
  repeat' first
    | with_reducible exact Frame.rfl'
    | decide
    | intro _
    | with_reducible assumption
    | with_reducible apply lpiEnter_frame
    | with_reducible apply ite_frame
    | split

theorem execLpiExit_eq (port : Fin 512) {s : State} (q : s.quiet) : execLpiExit port s = .next ((lpiLeave port.val s)) := by
  unfold execLpiExit
  refine finish_of_frame (m := 1572876) q ?_ rfl rfl
  repeat' first
    | with_reducible exact Frame.rfl'
    | decide
    | intro _
    | with_reducible assumption
    | with_reducible apply lpiLeave_frame
    | with_reducible apply ite_frame
    | split

theorem execLldpSend_eq (port : Fin 512) {s : State} (q : s.quiet) : execLldpSend port s = .next ((lldpSend port.val s)) := by
  unfold execLldpSend
  refine finish_of_frame (m := 16398) q ?_ rfl rfl
  repeat' first
    | with_reducible exact Frame.rfl'
    | decide
    | intro _
    | with_reducible assumption
    | with_reducible apply lldpSend_frame
    | with_reducible apply ite_frame
    | split

theorem execLldpReceive_eq (port : Fin 512) (rxTw : Option (BitVec 16)) {s : State} (q : s.quiet) : execLldpReceive port rxTw s = .next ((lldpReceive port.val rxTw s)) := by
  unfold execLldpReceive
  refine finish_of_frame (m := 1048584) q ?_ rfl rfl
  repeat' first
    | with_reducible exact Frame.rfl'
    | decide
    | intro _
    | with_reducible assumption
    | with_reducible apply lldpReceive_frame
    | with_reducible apply ite_frame
    | split

theorem execLldpTtlExpiry_eq (port : Fin 512) {s : State} (q : s.quiet) : execLldpTtlExpiry port s = .next ((loseEee port.val s)) := by
  unfold execLldpTtlExpiry
  refine finish_of_frame (m := 1572876) q ?_ rfl rfl
  repeat' first
    | with_reducible exact Frame.rfl'
    | decide
    | intro _
    | with_reducible assumption
    | with_reducible apply loseEee_frame
    | with_reducible apply ite_frame
    | split

theorem execPartnerLpi_eq (port : Fin 512) (enter : Bool) {s : State} (q : s.quiet) : execPartnerLpi port enter s = .next ((partnerLpi port.val enter s)) := by
  unfold execPartnerLpi
  refine finish_of_frame (m := 1048584) q ?_ rfl rfl
  repeat' first
    | with_reducible exact Frame.rfl'
    | decide
    | intro _
    | with_reducible assumption
    | with_reducible apply partnerLpi_frame
    | with_reducible apply ite_frame
    | split

theorem execLocalFault_eq (port : Fin 512) (remote present : Bool) {s : State} (q : s.quiet) : execLocalFault port remote present s = .next ((localFault port.val remote present s)) := by
  unfold execLocalFault
  refine finish_of_frame (m := 1048580) q ?_ rfl rfl
  repeat' first
    | with_reducible exact Frame.rfl'
    | decide
    | intro _
    | with_reducible assumption
    | with_reducible apply localFault_frame
    | with_reducible apply ite_frame
    | split

theorem execLaneTrain_eq (lane : Fin 532) {s : State} (q : s.quiet) : execLaneTrain lane s = .next ((laneTrain lane.val s)) := by
  unfold execLaneTrain
  refine finish_of_frame (m := 536870914) q ?_ rfl rfl
  repeat' first
    | with_reducible exact Frame.rfl'
    | decide
    | intro _
    | with_reducible assumption
    | with_reducible apply laneTrain_frame
    | with_reducible apply ite_frame
    | split

theorem execRetrainWindow_eq  {s : State} (q : s.quiet) : execRetrainWindow s = .next ((retrainWindow s)) := by
  unfold execRetrainWindow
  refine finish_of_frame (m := 536870912) q ?_ rfl rfl
  repeat' first
    | with_reducible exact Frame.rfl'
    | decide
    | intro _
    | with_reducible assumption
    | with_reducible apply retrainWindow_frame
    | with_reducible apply ite_frame
    | split

theorem execLaneWake_eq (lane : Fin 532) (energy : Bool) {s : State} (q : s.quiet) : execLaneWake lane energy s = .next ((laneWake lane.val energy s)) := by
  unfold execLaneWake
  refine finish_of_frame (m := 71537520547852) q ?_ rfl rfl
  repeat' first
    | with_reducible exact Frame.rfl'
    | decide
    | intro _
    | with_reducible assumption
    | with_reducible apply laneWake_frame
    | with_reducible apply ite_frame
    | split

theorem execLaneNoEnergy_eq (lane : Fin 532) (wake : Bool) {s : State} (q : s.quiet) : execLaneNoEnergy lane wake s = .next ((laneNoEnergy lane.val wake s)) := by
  unfold execLaneNoEnergy
  refine finish_of_frame (m := 536870912) q ?_ rfl rfl
  repeat' first
    | with_reducible exact Frame.rfl'
    | decide
    | intro _
    | with_reducible assumption
    | with_reducible apply laneNoEnergy_frame
    | with_reducible apply ite_frame
    | split

theorem execSlip_eq (lane : Fin 532) (value : Word) {s : State} (q : s.quiet) (hj : judge (Reg.LANE_ALIGN lane.val) s = .perform) : execSlip lane value s = .next ((slip lane.val value s)) := by
  unfold execSlip
  rw [commandWrite_perform hj]
  refine finish_of_frame (m := 536870922) q ?_ rfl rfl
  repeat' first
    | with_reducible exact Frame.rfl'
    | decide
    | intro _
    | with_reducible assumption
    | with_reducible apply slip_frame
    | with_reducible apply ite_frame
    | split

theorem execEyeScanStart_eq (lane : Fin 532) (value : Word) {s : State} (q : s.quiet) (hj : judge (Reg.LANE_EYE_CTRL lane.val) s = .perform) : execEyeScanStart lane value s = .next ((eyeScanStart lane.val value s)) := by
  unfold execEyeScanStart
  rw [commandWrite_perform hj]
  refine finish_of_frame (m := 536870920) q ?_ rfl rfl
  repeat' first
    | with_reducible exact Frame.rfl'
    | decide
    | intro _
    | with_reducible assumption
    | with_reducible apply eyeScanStart_frame
    | with_reducible apply ite_frame
    | split

theorem execEyeScanDone_eq (lane : Fin 532) (errors : Nat) {s : State} (q : s.quiet) : execEyeScanDone lane errors s = .next ((eyeScanDone lane.val errors s)) := by
  unfold execEyeScanDone
  refine finish_of_frame (m := 536870912) q ?_ rfl rfl
  repeat' first
    | with_reducible exact Frame.rfl'
    | decide
    | intro _
    | with_reducible assumption
    | with_reducible apply eyeScanDone_frame
    | with_reducible apply ite_frame
    | split

theorem execLaneCfgWrite_eq (lane : Fin 532) (value : Word) {s : State} (q : s.quiet) (hj : judge (Reg.LANE_CFG lane.val) s = .perform) : execLaneCfgWrite lane value s = .next ((laneCfgWrite lane.val value s)) := by
  unfold execLaneCfgWrite
  rw [commandWrite_perform hj]
  refine finish_of_frame (m := 83563422287886) q ?_ rfl rfl
  repeat' first
    | with_reducible exact Frame.rfl'
    | decide
    | intro _
    | with_reducible assumption
    | with_reducible apply laneCfgWrite_frame
    | with_reducible apply ite_frame
    | split

theorem execReceiverDetect_eq (lane : Fin 532) (found : Bool) {s : State} (q : s.quiet) : execReceiverDetect lane found s = .next (settleFaults (receiverDetect lane.val found s)) := by
  unfold execReceiverDetect
  refine finish_of_frame' (m := 70378944735240) q ?_ rfl
  repeat' first
    | with_reducible exact Frame.rfl'
    | decide
    | intro _
    | with_reducible assumption
    | with_reducible apply receiverDetect_frame
    | with_reducible apply ite_frame
    | split

theorem execEvLaneShort_eq (lane : Fin 532) {s : State} (q : s.quiet) : execEvLaneShort lane s = .next (settleFaults (laneShort lane.val s)) := by
  unfold execEvLaneShort
  refine finish_of_frame' (m := 83573085972494) q ?_ rfl
  repeat' first
    | with_reducible exact Frame.rfl'
    | decide
    | intro _
    | with_reducible assumption
    | with_reducible apply laneShort_frame
    | with_reducible apply ite_frame
    | split

theorem execShortRetry_eq (lane : Fin 532) (limited : Bool) {s : State} (q : s.quiet) : execShortRetry lane limited s = .next ((shortRetry lane.val limited s)) := by
  unfold execShortRetry
  refine finish_of_frame (m := 536870912) q ?_ rfl rfl
  repeat' first
    | with_reducible exact Frame.rfl'
    | decide
    | intro _
    | with_reducible assumption
    | with_reducible apply shortRetry_frame
    | with_reducible apply ite_frame
    | split

theorem execLaneUnretire_eq (lane : Fin 532) {s : State} (q : s.quiet) (hj : judge (Reg.LANE_RETIRED (lane.val / 32)) s = .perform) : execLaneUnretire lane s = .next ((laneUnretire lane.val s)) := by
  unfold execLaneUnretire
  rw [commandWrite_perform hj]
  refine finish_of_frame (m := 70369281051656) q ?_ rfl rfl
  repeat' first
    | with_reducible exact Frame.rfl'
    | decide
    | intro _
    | with_reducible assumption
    | with_reducible apply laneUnretire_frame
    | with_reducible apply ite_frame
    | split

theorem execPrbsCheckerLock_eq (lane : Fin 532) (bits errors : Nat) {s : State} (q : s.quiet) : execPrbsCheckerLock lane bits errors s = .next ((prbsLockOn lane.val bits errors s)) := by
  unfold execPrbsCheckerLock
  refine finish_of_frame (m := 536870920) q ?_ rfl rfl
  repeat' first
    | with_reducible exact Frame.rfl'
    | decide
    | intro _
    | with_reducible assumption
    | with_reducible apply prbsLockOn_frame
    | with_reducible apply ite_frame
    | split

theorem execPrbsCheckerLockLoss_eq (lane : Fin 532) (bits errors : Nat) {s : State} (q : s.quiet) : execPrbsCheckerLockLoss lane bits errors s = .next ((prbsLockLoss lane.val bits errors s)) := by
  unfold execPrbsCheckerLockLoss
  refine finish_of_frame (m := 536870920) q ?_ rfl rfl
  repeat' first
    | with_reducible exact Frame.rfl'
    | decide
    | intro _
    | with_reducible assumption
    | with_reducible apply prbsLockLoss_frame
    | with_reducible apply ite_frame
    | split

theorem execTimeIncWrite_eq (src : Source) (value : Word) {s : State} (q : s.quiet) (hj : judge Reg.TIME_INC_HI s = .perform) : execTimeIncWrite src value s = .next ((timeIncWrite src value s)) := by
  unfold execTimeIncWrite
  rw [commandWrite_perform hj]
  refine finish_of_frame (m := 520) q ?_ rfl rfl
  repeat' first
    | with_reducible exact Frame.rfl'
    | decide
    | intro _
    | with_reducible assumption
    | with_reducible apply timeIncWrite_frame
    | with_reducible apply ite_frame
    | split

theorem execOwnerChange_eq (src : Source) (value : Word) {s : State} (q : s.quiet) (hj : judge Reg.TIME_CTRL s = .perform) : execOwnerChange src value s = .next ((ownerChange value s)) := by
  unfold execOwnerChange
  rw [commandWrite_perform hj]
  refine finish_of_frame (m := 8) q ?_ rfl rfl
  repeat' first
    | with_reducible exact Frame.rfl'
    | decide
    | intro _
    | with_reducible assumption
    | with_reducible apply ownerChange_frame
    | with_reducible apply ite_frame
    | split

theorem execTimeAdj_eq (src : Source) (value : Word) {s : State} (q : s.quiet) (hj : judge Reg.TIME_ADJ_NS s = .perform) : execTimeAdj src value s = .next ((timeAdj src value s)) := by
  unfold execTimeAdj
  rw [commandWrite_perform hj]
  refine finish_of_frame (m := 70643622612488) q ?_ rfl rfl
  repeat' first
    | with_reducible exact Frame.rfl'
    | decide
    | intro _
    | with_reducible assumption
    | with_reducible apply timeAdj_frame
    | with_reducible apply ite_frame
    | split

theorem execHoldoverEnter_eq  {s : State} (q : s.quiet) : execHoldoverEnter s = .next ((holdover s)) := by
  unfold execHoldoverEnter
  refine finish_of_frame (m := 70368744180232) q ?_ rfl rfl
  repeat' first
    | with_reducible exact Frame.rfl'
    | decide
    | intro _
    | with_reducible assumption
    | with_reducible apply holdover_frame
    | with_reducible apply ite_frame
    | split

theorem execPtpMessage_eq (port : Fin 512) (m : PtpMessage) {s : State} (q : s.quiet) : execPtpMessage port m s = .next ((ptpMessage port.val m s)) := by
  unfold execPtpMessage
  refine finish_of_frame (m := 17164) q ?_ rfl rfl
  repeat' first
    | with_reducible exact Frame.rfl'
    | decide
    | intro _
    | with_reducible assumption
    | with_reducible apply ptpMessage_frame
    | with_reducible apply ite_frame
    | split

theorem execPpsInEdge_eq (rising : Bool) {s : State} (q : s.quiet) : execPpsInEdge rising s = .next ((ppsInEdge rising s)) := by
  unfold execPpsInEdge
  refine finish_of_frame (m := 520) q ?_ rfl rfl
  repeat' first
    | with_reducible exact Frame.rfl'
    | decide
    | intro _
    | with_reducible assumption
    | with_reducible apply ppsInEdge_frame
    | with_reducible apply ite_frame
    | split

theorem execPpsOutPulse_eq (rise : Bool) {s : State} (q : s.quiet) : execPpsOutPulse rise s = .next ((ppsOutPulse rise s)) := by
  unfold execPpsOutPulse
  refine finish_of_frame (m := 516) q ?_ rfl rfl
  repeat' first
    | with_reducible exact Frame.rfl'
    | decide
    | intro _
    | with_reducible assumption
    | with_reducible apply ppsOutPulse_frame
    | with_reducible apply ite_frame
    | split

theorem execCanaryRun_eq  {s : State} (q : s.quiet) : execCanaryRun s = .next ((canaryRun s)) := by
  unfold execCanaryRun
  refine finish_of_frame (m := 1168768028684) q ?_ rfl rfl
  repeat' first
    | with_reducible exact Frame.rfl'
    | decide
    | intro _
    | with_reducible assumption
    | with_reducible apply canaryRun_frame
    | with_reducible apply ite_frame
    | split

theorem execEvCanary_eq (optic : CanaryOptic) {s : State} (q : s.quiet) : execEvCanary optic s = .next (settleFaults (canaryDone optic s)) := by
  unfold execEvCanary
  refine finish_of_frame' (m := 84740243388430) q ?_ rfl
  repeat' first
    | with_reducible exact Frame.rfl'
    | decide
    | intro _
    | with_reducible assumption
    | with_reducible apply canaryDone_frame
    | with_reducible apply ite_frame
    | split

theorem execCanaryAbort_eq  {s : State} (q : s.quiet) : execCanaryAbort s = .next ((canaryAbort s)) := by
  unfold execCanaryAbort
  refine finish_of_frame (m := 83563422320654) q ?_ rfl rfl
  repeat' first
    | with_reducible exact Frame.rfl'
    | decide
    | intro _
    | with_reducible assumption
    | with_reducible apply canaryAbort_frame
    | with_reducible apply ite_frame
    | split

theorem execSeamEligible_eq (seam : Fin 4) {s : State} (q : s.quiet) : execSeamEligible seam s = .next ((seamEligible seam.val s)) := by
  unfold execSeamEligible
  refine finish_of_frame (m := 65536) q ?_ rfl rfl
  repeat' first
    | with_reducible exact Frame.rfl'
    | decide
    | intro _
    | with_reducible assumption
    | with_reducible apply seamEligible_frame
    | with_reducible apply ite_frame
    | split

theorem execSideFailed_eq  {s : State} (q : s.quiet) : execSideFailed s = .next ((sideFails s)) := by
  unfold execSideFailed
  refine finish_of_frame (m := 83563422320654) q ?_ rfl rfl
  repeat' first
    | with_reducible exact Frame.rfl'
    | decide
    | intro _
    | with_reducible assumption
    | with_reducible apply sideFails_frame
    | with_reducible apply ite_frame
    | split

theorem execManual_eq  {s : State} (q : s.quiet) (hj : judge Reg.PROT_CMD s = .perform) : execManual s = .next ((protCommand 1 s)) := by
  unfold execManual
  rw [commandWrite_perform hj]
  refine finish_of_frame (m := 83563422320654) q ?_ rfl rfl
  repeat' first
    | with_reducible exact Frame.rfl'
    | decide
    | intro _
    | with_reducible assumption
    | with_reducible apply protCommand_frame
    | with_reducible apply ite_frame
    | split

theorem execForced_eq  {s : State} (q : s.quiet) (hj : judge Reg.PROT_CMD s = .perform) : execForced s = .next ((protCommand 2 s)) := by
  unfold execForced
  rw [commandWrite_perform hj]
  refine finish_of_frame (m := 83563422320654) q ?_ rfl rfl
  repeat' first
    | with_reducible exact Frame.rfl'
    | decide
    | intro _
    | with_reducible assumption
    | with_reducible apply protCommand_frame
    | with_reducible apply ite_frame
    | split

theorem execLockout_eq  {s : State} (q : s.quiet) (hj : judge Reg.PROT_CMD s = .perform) : execLockout s = .next ((protCommand 3 s)) := by
  unfold execLockout
  rw [commandWrite_perform hj]
  refine finish_of_frame (m := 83563422320654) q ?_ rfl rfl
  repeat' first
    | with_reducible exact Frame.rfl'
    | decide
    | intro _
    | with_reducible assumption
    | with_reducible apply protCommand_frame
    | with_reducible apply ite_frame
    | split

theorem execClear_eq  {s : State} (q : s.quiet) (hj : judge Reg.PROT_CMD s = .perform) : execClear s = .next ((protCommand 4 s)) := by
  unfold execClear
  rw [commandWrite_perform hj]
  refine finish_of_frame (m := 83563422320654) q ?_ rfl rfl
  repeat' first
    | with_reducible exact Frame.rfl'
    | decide
    | intro _
    | with_reducible assumption
    | with_reducible apply protCommand_frame
    | with_reducible apply ite_frame
    | split

theorem execProtectionSwitch_eq  {s : State} (q : s.quiet) : execProtectionSwitch s = .next ((protSwitch s)) := by
  unfold execProtectionSwitch
  refine finish_of_frame (m := 86930836151310) q ?_ rfl rfl
  repeat' first
    | with_reducible exact Frame.rfl'
    | decide
    | intro _
    | with_reducible assumption
    | with_reducible apply protSwitch_frame
    | with_reducible apply ite_frame
    | split

theorem execEvProtSwitch_eq  {s : State} (q : s.quiet) : execEvProtSwitch s = .next ((switchDone s)) := by
  unfold execEvProtSwitch
  refine finish_of_frame (m := 84731660852254) q ?_ rfl rfl
  repeat' first
    | with_reducible exact Frame.rfl'
    | decide
    | intro _
    | with_reducible assumption
    | with_reducible apply switchDone_frame
    | with_reducible apply ite_frame
    | split

theorem execEvProtSwitchFail_eq  {s : State} (q : s.quiet) : execEvProtSwitchFail s = .next ((switchFail s)) := by
  unfold execEvProtSwitchFail
  refine finish_of_frame (m := 84731660851230) q ?_ rfl rfl
  repeat' first
    | with_reducible exact Frame.rfl'
    | decide
    | intro _
    | with_reducible assumption
    | with_reducible apply switchFail_frame
    | with_reducible apply ite_frame
    | split

theorem execWaitToRestoreExpiry_eq  {s : State} (q : s.quiet) : execWaitToRestoreExpiry s = .next ((wtrExpiry s)) := by
  unfold execWaitToRestoreExpiry
  refine finish_of_frame (m := 32768) q ?_ rfl rfl
  repeat' first
    | with_reducible exact Frame.rfl'
    | decide
    | intro _
    | with_reducible assumption
    | with_reducible apply wtrExpiry_frame
    | with_reducible apply ite_frame
    | split

theorem execOprootCommit_eq  {s : State} (q : s.quiet) (hj : judge Reg.CIPH_OPROOT_CMD s = .perform) : execOprootCommit s = .next ((oprootCommit s)) := by
  unfold execOprootCommit
  rw [commandWrite_perform hj]
  refine finish_of_frame (m := 17179870216) q ?_ rfl rfl
  repeat' first
    | with_reducible exact Frame.rfl'
    | decide
    | intro _
    | with_reducible assumption
    | with_reducible apply oprootCommit_frame
    | with_reducible apply ite_frame
    | split

theorem execKeyDerived_eq  {s : State} (q : s.quiet) : execKeyDerived s = .next ((keyDerived s)) := by
  unfold execKeyDerived
  refine finish_of_frame (m := 70368769345544) q ?_ rfl rfl
  repeat' first
    | with_reducible exact Frame.rfl'
    | decide
    | intro _
    | with_reducible assumption
    | with_reducible apply keyDerived_frame
    | with_reducible apply ite_frame
    | split

theorem execKeyRetire_eq (ident : Fin 128) {s : State} (q : s.quiet) : execKeyRetire ident s = .next ((keyRetire ident.val s)) := by
  unfold execKeyRetire
  refine finish_of_frame (m := 16777216) q ?_ rfl rfl
  repeat' first
    | with_reducible exact Frame.rfl'
    | decide
    | intro _
    | with_reducible assumption
    | with_reducible apply keyRetire_frame
    | with_reducible apply ite_frame
    | split

theorem execUnwrap_eq (value : Word) (keepFails : Bool) {s : State} (q : s.quiet) (hj : judge Reg.CIPH_UNWRAP_CMD s = .perform) : execUnwrap value keepFails s = .next ((unwrapKey (putFld value 27 26 1) keepFails s)) := by
  unfold execUnwrap
  rw [commandWrite_perform hj]
  refine finish_of_frame (m := 70368744180744) q ?_ rfl rfl
  repeat' first
    | with_reducible exact Frame.rfl'
    | decide
    | intro _
    | with_reducible assumption
    | with_reducible apply unwrapKey_frame
    | with_reducible apply ite_frame
    | split

theorem execErase_eq (value : Word) {s : State} (q : s.quiet) (hj : judge Reg.CIPH_UNWRAP_CMD s = .perform) : execErase value s = .next ((eraseKey (putFld value 27 26 2) s)) := by
  unfold execErase
  rw [commandWrite_perform hj]
  refine finish_of_frame (m := 70368744180744) q ?_ rfl rfl
  repeat' first
    | with_reducible exact Frame.rfl'
    | decide
    | intro _
    | with_reducible assumption
    | with_reducible apply eraseKey_frame
    | with_reducible apply ite_frame
    | split

theorem execRekey_eq  {s : State} (q : s.quiet) (hj : judge Reg.CIPH_STORE_CMD s = .perform) : execRekey s = .next ((rekey s)) := by
  unfold execRekey
  rw [commandWrite_perform hj]
  refine finish_of_frame (m := 70368744180744) q ?_ rfl rfl
  repeat' first
    | with_reducible exact Frame.rfl'
    | decide
    | intro _
    | with_reducible assumption
    | with_reducible apply rekey_frame
    | with_reducible apply ite_frame
    | split

theorem execLadderEntry_eq  {s : State} (q : s.quiet) : execLadderEntry s = .next ((ladderEntry s)) := by
  unfold execLadderEntry
  refine finish_of_frame (m := 71536975288328) q ?_ rfl rfl
  repeat' first
    | with_reducible exact Frame.rfl'
    | decide
    | intro _
    | with_reducible assumption
    | with_reducible apply ladderEntry_frame
    | with_reducible apply ite_frame
    | split

theorem execLadderExit_eq  {s : State} (q : s.quiet) : execLadderExit s = .next ((ladderExit s)) := by
  unfold execLadderExit
  refine finish_of_frame (m := 1168231108608) q ?_ rfl rfl
  repeat' first
    | with_reducible exact Frame.rfl'
    | decide
    | intro _
    | with_reducible assumption
    | with_reducible apply ladderExit_frame
    | with_reducible apply ite_frame
    | split

theorem execWakeN_eq  {s : State} (q : s.quiet) : execWakeN s = .next ((wakeFires 0 none s)) := by
  unfold execWakeN
  refine finish_of_frame (m := 71536983676936) q ?_ rfl rfl
  repeat' first
    | with_reducible exact Frame.rfl'
    | decide
    | intro _
    | with_reducible assumption
    | with_reducible apply wakeFires_frame
    | with_reducible apply ite_frame
    | split

theorem execWakeTimerExpiry_eq  {s : State} (q : s.quiet) : execWakeTimerExpiry s = .next ((wakeTimer s)) := by
  unfold execWakeTimerExpiry
  refine finish_of_frame (m := 71536983676936) q ?_ rfl rfl
  repeat' first
    | with_reducible exact Frame.rfl'
    | decide
    | intro _
    | with_reducible assumption
    | with_reducible apply wakeTimer_frame
    | with_reducible apply ite_frame
    | split

theorem execWake_eq (source : Fin 8) (domain : Option (Fin 23)) {s : State} (q : s.quiet) : execWake source domain s = .next ((wakeFires source.val (domain.map (fun d => d.val)) s)) := by
  unfold execWake
  refine finish_of_frame (m := 71536983676936) q ?_ rfl rfl
  repeat' first
    | with_reducible exact Frame.rfl'
    | decide
    | intro _
    | with_reducible assumption
    | with_reducible apply wakeFires_frame
    | with_reducible apply ite_frame
    | split

theorem execDomainDrop_eq (domain : Fin 23) (votePlaced : Bool) {s : State} (q : s.quiet) : execDomainDrop domain votePlaced s = .next ((domainDrop domain.val votePlaced s)) := by
  unfold execDomainDrop
  refine finish_of_frame (m := 70437463660552) q ?_ rfl rfl
  repeat' first
    | with_reducible exact Frame.rfl'
    | decide
    | intro _
    | with_reducible assumption
    | with_reducible apply domainDrop_frame
    | with_reducible apply ite_frame
    | split

theorem execHostVoteWrite_eq (src : Source) (value : Word) {s : State} (q : s.quiet) (hj : judge (Reg.PWR_VOTE 0) s = .perform) : execHostVoteWrite src value s = .next ((hostVoteWrite value s)) := by
  unfold execHostVoteWrite
  rw [commandWrite_perform hj]
  refine finish_of_frame (m := 70437463660552) q ?_ rfl rfl
  repeat' first
    | with_reducible exact Frame.rfl'
    | decide
    | intro _
    | with_reducible assumption
    | with_reducible apply hostVoteWrite_frame
    | with_reducible apply ite_frame
    | split

theorem execL4Overtemp_eq (caseTemp : Int) {s : State} (q : s.quiet) : execL4Overtemp caseTemp s = .next (settleFaults (l4Overtemp caseTemp s)) := by
  unfold execL4Overtemp
  refine finish_of_frame' (m := 85568106773022) q ?_ rfl
  repeat' first
    | with_reducible exact Frame.rfl'
    | decide
    | intro _
    | with_reducible assumption
    | with_reducible apply l4Overtemp_frame
    | with_reducible apply ite_frame
    | split

theorem execShedEnd_eq  {s : State} (q : s.quiet) : execShedEnd s = .next ((shedEnd s)) := by
  unfold execShedEnd
  refine finish_of_frame (m := 1576972) q ?_ rfl rfl
  repeat' first
    | with_reducible exact Frame.rfl'
    | decide
    | intro _
    | with_reducible assumption
    | with_reducible apply shedEnd_frame
    | with_reducible apply ite_frame
    | split

theorem execEvFiredamp_eq (first second : List Int) {s : State} (q : s.quiet) (hw : (Instr.evFiredamp first second).wf = true) : execEvFiredamp first second s = .next ((firedampRow first second s)) := by
  unfold execEvFiredamp
  rw [if_pos hw]
  refine finish_of_frame (m := 71537042405384) q ?_ rfl rfl
  repeat' first
    | with_reducible exact Frame.rfl'
    | decide
    | intro _
    | with_reducible assumption
    | with_reducible apply firedampRow_frame
    | with_reducible apply ite_frame
    | split

theorem execFiredampClear_eq (highest : Int) {s : State} (q : s.quiet) : execFiredampClear highest s = .next ((firedampClearRow highest s)) := by
  unfold execFiredampClear
  refine finish_of_frame (m := 71536975296520) q ?_ rfl rfl
  repeat' first
    | with_reducible exact Frame.rfl'
    | decide
    | intro _
    | with_reducible assumption
    | with_reducible apply firedampClearRow_frame
    | with_reducible apply ite_frame
    | split

theorem execKeepMount_eq (torn : List (Fin 2 × Fin 4096)) (tornRecord : Bool) {s : State} (q : s.quiet) : execKeepMount torn tornRecord s = .next ((keepMount torn tornRecord s)) := by
  unfold execKeepMount
  refine finish_of_frame (m := 87960947002376) q ?_ rfl rfl
  repeat' first
    | with_reducible exact Frame.rfl'
    | decide
    | intro _
    | with_reducible assumption
    | with_reducible apply keepMount_frame
    | with_reducible apply ite_frame
    | split

theorem execScrub_eq (die : Fin 2) (uncorrectable : Bool) (otherBad : Bool) (writePending : Bool) {s : State} (q : s.quiet) : execScrub die uncorrectable otherBad writePending s = .next (settleFaults (scrub die.val uncorrectable otherBad writePending s)) := by
  unfold execScrub
  refine finish_of_frame' (m := 83571540896778) q ?_ rfl
  repeat' first
    | with_reducible exact Frame.rfl'
    | decide
    | intro _
    | with_reducible assumption
    | with_reducible apply scrub_frame
    | with_reducible apply writePending_frame
    | with_reducible apply ite_frame
    | split

theorem execEvKeepRemap_eq (die : Fin 2) (unit : Fin 32768) (otherBad : Bool) {s : State} (q : s.quiet) : execEvKeepRemap die unit otherBad s = .next (settleFaults (remapUnit die.val unit.val otherBad s)) := by
  unfold execEvKeepRemap
  refine finish_of_frame' (m := 70377401232392) q ?_ rfl
  repeat' first
    | with_reducible exact Frame.rfl'
    | decide
    | intro _
    | with_reducible assumption
    | with_reducible apply remapUnit_frame
    | with_reducible apply ite_frame
    | split

theorem execRecordEvent_eq (code : BitVec 16) (source : Fin 3) (payload : Bytes) {s : State} (q : s.quiet) (hw : (Instr.recordEvent code source payload).wf = true) : execRecordEvent code source payload s = .next ((recordEvent code source.val payload s)) := by
  unfold execRecordEvent
  rw [if_pos hw]
  refine finish_of_frame (m := 70368744179720) q ?_ rfl rfl
  repeat' first
    | with_reducible exact Frame.rfl'
    | decide
    | intro _
    | with_reducible assumption
    | with_reducible apply recordEvent_frame
    | with_reducible apply ite_frame
    | split

theorem execAssayRun_eq (requested : Bool) {s : State} (q : s.quiet) : execAssayRun requested s = .next ((assayRun requested s)) := by
  unfold execAssayRun
  refine finish_of_frame (m := 8200) q ?_ rfl rfl
  repeat' first
    | with_reducible exact Frame.rfl'
    | decide
    | intro _
    | with_reducible assumption
    | with_reducible apply assayRun_frame
    | with_reducible apply ite_frame
    | split

theorem execEvAssayResult_eq (m : AssayMeasure) {s : State} (q : s.quiet) : execEvAssayResult m s = .next (settleFaults (assayResult m s)) := by
  unfold execEvAssayResult
  refine finish_of_frame' (m := 70377334139916) q ?_ rfl
  repeat' first
    | with_reducible exact Frame.rfl'
    | decide
    | intro _
    | with_reducible assumption
    | with_reducible apply assayResult_frame
    | with_reducible apply ite_frame
    | split

theorem execSlackSample_eq (slack : Int) {s : State} (q : s.quiet) : execSlackSample slack s = .next (settleFaults (slackSample slack s)) := by
  unfold execSlackSample
  refine finish_of_frame' (m := 8589942784) q ?_ rfl
  repeat' first
    | with_reducible exact Frame.rfl'
    | decide
    | intro _
    | with_reducible assumption
    | with_reducible apply slackSample_frame
    | with_reducible apply ite_frame
    | split

theorem execHourCount_eq (caseTemp : Int) {s : State} (q : s.quiet) : execHourCount caseTemp s = .next ((hourCount caseTemp s)) := by
  unfold execHourCount
  refine finish_of_frame (m := 70368744188936) q ?_ rfl rfl
  repeat' first
    | with_reducible exact Frame.rfl'
    | decide
    | intro _
    | with_reducible assumption
    | with_reducible apply hourCount_frame
    | with_reducible apply ite_frame
    | split

theorem execFaultEvent_eq (source : FaultSource) (inst : BitVec 16) {s : State} (q : s.quiet) : execFaultEvent source inst s = .next (settleFaults (faultEvent source inst.toNat s)) := by
  unfold execFaultEvent
  refine finish_of_frame' (m := 8589942792) q ?_ rfl
  repeat' first
    | with_reducible exact Frame.rfl'
    | decide
    | intro _
    | with_reducible assumption
    | with_reducible apply faultEvent_frame
    | with_reducible apply ite_frame
    | split

theorem execBankRemap_eq (bank : Fin 384) {s : State} (q : s.quiet) : execBankRemap bank s = .next ((bankRemap bank.val s)) := by
  unfold execBankRemap
  refine finish_of_frame (m := 8192) q ?_ rfl rfl
  repeat' first
    | with_reducible exact Frame.rfl'
    | decide
    | intro _
    | with_reducible assumption
    | with_reducible apply bankRemap_frame
    | with_reducible apply ite_frame
    | split

theorem execReadResp_eq (src : Fin 64) (tag : BitVec 16) (data : Word) (status : BitVec 8) {s : State} (q : s.quiet) : execReadResp src tag data status s = .next ((readResp tag.toNat data s)) := by
  unfold execReadResp
  refine finish_of_frame (m := 2147483660) q ?_ rfl rfl
  repeat' first
    | with_reducible exact Frame.rfl'
    | decide
    | intro _
    | with_reducible assumption
    | with_reducible apply readResp_frame
    | with_reducible apply ite_frame
    | split

theorem execWriteResp_eq (src : Fin 64) (tag : BitVec 16) (status : BitVec 8) {s : State} (q : s.quiet) : execWriteResp src tag status s = .next ((writeResp tag.toNat s)) := by
  unfold execWriteResp
  refine finish_of_frame (m := 2147483660) q ?_ rfl rfl
  repeat' first
    | with_reducible exact Frame.rfl'
    | decide
    | intro _
    | with_reducible assumption
    | with_reducible apply writeResp_frame
    | with_reducible apply ite_frame
    | split

theorem execHostRequestTimeout_eq (member : Fin 64) {s : State} (q : s.quiet) : execHostRequestTimeout member s = .next ((hostTimeout member.val s)) := by
  unfold execHostRequestTimeout
  refine finish_of_frame (m := 2147483660) q ?_ rfl rfl
  repeat' first
    | with_reducible exact Frame.rfl'
    | decide
    | intro _
    | with_reducible assumption
    | with_reducible apply hostTimeout_frame
    | with_reducible apply ite_frame
    | split

theorem execEventFwd_eq (src : Fin 64) (gap : Bool) (record : Bytes) {s : State} (q : s.quiet) (hw : (Instr.eventFwd src gap record).wf = true) : execEventFwd src gap record s = .next ((eventFwd src.val gap record s)) := by
  unfold execEventFwd
  rw [if_pos hw]
  refine finish_of_frame (m := 2147483660) q ?_ rfl rfl
  repeat' first
    | with_reducible exact Frame.rfl'
    | decide
    | intro _
    | with_reducible assumption
    | with_reducible apply eventFwd_frame
    | with_reducible apply ite_frame
    | split

theorem execExcFwd_eq (src : Fin 64) (record : Bytes) {s : State} (q : s.quiet) (hw : (Instr.excFwd src record).wf = true) : execExcFwd src record s = .next ((excFwd src.val record s)) := by
  unfold execExcFwd
  rw [if_pos hw]
  refine finish_of_frame (m := 2147483660) q ?_ rfl rfl
  repeat' first
    | with_reducible exact Frame.rfl'
    | decide
    | intro _
    | with_reducible assumption
    | with_reducible apply excFwd_frame
    | with_reducible apply ite_frame
    | split

theorem execRecordForward_eq  {s : State} (q : s.quiet) : execRecordForward s = .next ((recordForward s)) := by
  unfold execRecordForward
  refine finish_of_frame (m := 3221227532) q ?_ rfl rfl
  repeat' first
    | with_reducible exact Frame.rfl'
    | decide
    | intro _
    | with_reducible assumption
    | with_reducible apply recordForward_frame
    | with_reducible apply ite_frame
    | split

theorem execTime_eq (received : Option (Fin 64 × Bytes)) {s : State} (q : s.quiet) (hw : (Instr.time received).wf = true) : execTime received s = .next ((timeRow received s)) := by
  unfold execTime
  rw [if_pos hw]
  refine finish_of_frame (m := 70369817921548) q ?_ rfl rfl
  repeat' first
    | with_reducible exact Frame.rfl'
    | decide
    | intro _
    | with_reducible assumption
    | with_reducible apply timeRow_frame
    | with_reducible apply ite_frame
    | split

theorem execBanksmanUnreachable_eq  {s : State} (q : s.quiet) : execBanksmanUnreachable s = .next ((banksmanUnreachable s)) := by
  unfold execBanksmanUnreachable
  refine finish_of_frame (m := 70369817921544) q ?_ rfl rfl
  repeat' first
    | with_reducible exact Frame.rfl'
    | decide
    | intro _
    | with_reducible assumption
    | with_reducible apply banksmanUnreachable_frame
    | with_reducible apply ite_frame
    | split

theorem execAlert_eq (received : Option (Fin 64 × Word)) {s : State} (q : s.quiet) : execAlert received s = .next ((alertRow received s)) := by
  unfold execAlert
  refine finish_of_frame (m := 1073741836) q ?_ rfl rfl
  repeat' first
    | with_reducible exact Frame.rfl'
    | decide
    | intro _
    | with_reducible assumption
    | with_reducible apply alertRow_frame
    | with_reducible apply ite_frame
    | split

theorem execKeepalive_eq (port : Fin 2) {s : State} (q : s.quiet) : execKeepalive port s = .next ((keepalive port.val s)) := by
  unfold execKeepalive
  refine finish_of_frame (m := 1073741830) q ?_ rfl rfl
  repeat' first
    | with_reducible exact Frame.rfl'
    | decide
    | intro _
    | with_reducible assumption
    | with_reducible apply keepalive_frame
    | with_reducible apply ite_frame
    | split

theorem execEvChainPort_eq (port : Fin 2) (up : Bool) {s : State} (q : s.quiet) : execEvChainPort port up s = .next ((chainPortChange port.val up s)) := by
  unfold execEvChainPort
  refine finish_of_frame (m := 70369817921544) q ?_ rfl rfl
  repeat' first
    | with_reducible exact Frame.rfl'
    | decide
    | intro _
    | with_reducible assumption
    | with_reducible apply chainPortChange_frame
    | with_reducible apply ite_frame
    | split

theorem execWakeE_eq  {s : State} (q : s.quiet) (hj : judge Reg.CHAIN_CTRL s = .perform) : execWakeE s = .next ((chainBurst 0 s)) := by
  unfold execWakeE
  rw [commandWrite_perform hj]
  refine finish_of_frame (m := 4) q ?_ rfl rfl
  repeat' first
    | with_reducible exact Frame.rfl'
    | decide
    | intro _
    | with_reducible assumption
    | with_reducible apply chainBurst_frame
    | with_reducible apply ite_frame
    | split

theorem execWakeW_eq  {s : State} (q : s.quiet) (hj : judge Reg.CHAIN_CTRL s = .perform) : execWakeW s = .next ((chainBurst 1 s)) := by
  unfold execWakeW
  rw [commandWrite_perform hj]
  refine finish_of_frame (m := 4) q ?_ rfl rfl
  repeat' first
    | with_reducible exact Frame.rfl'
    | decide
    | intro _
    | with_reducible assumption
    | with_reducible apply chainBurst_frame
    | with_reducible apply ite_frame
    | split

theorem execHostLinkUp_eq (speed : BitVec 3) (width : BitVec 4) {s : State} (q : s.quiet) (hw : (Instr.hostLinkUp speed width).wf = true) : execHostLinkUp speed width s = .next ((hostLinkUp speed.toNat width.toNat s)) := by
  unfold execHostLinkUp
  rw [if_pos hw]
  refine finish_of_frame (m := 70440684886024) q ?_ rfl rfl
  repeat' first
    | with_reducible exact Frame.rfl'
    | decide
    | intro _
    | with_reducible assumption
    | with_reducible apply hostLinkUp_frame
    | with_reducible apply ite_frame
    | split

theorem execEvHostLink_eq  {s : State} (q : s.quiet) : execEvHostLink s = .next ((hostLinkDown s)) := by
  unfold execEvHostLink
  refine finish_of_frame (m := 70371965405192) q ?_ rfl rfl
  repeat' first
    | with_reducible exact Frame.rfl'
    | decide
    | intro _
    | with_reducible assumption
    | with_reducible apply hostLinkDown_frame
    | with_reducible apply ite_frame
    | split

theorem execLandReadback_eq (output : Fin 27) (agrees : Bool) {s : State} (q : s.quiet) : execLandReadback output agrees s = .next ((landReadback output.val agrees s)) := by
  unfold execLandReadback
  refine finish_of_frame (m := 16396) q ?_ rfl rfl
  repeat' first
    | with_reducible exact Frame.rfl'
    | decide
    | intro _
    | with_reducible assumption
    | with_reducible apply landReadback_frame
    | with_reducible apply ite_frame
    | split

theorem execLandShortRetry_eq (output : Fin 27) (readbacks : List Bool) {s : State} (q : s.quiet) (hw : (Instr.landShortRetry output readbacks).wf = true) : execLandShortRetry output readbacks s = .next ((landShortRetry output.val readbacks s)) := by
  unfold execLandShortRetry
  rw [if_pos hw]
  refine finish_of_frame (m := 8) q ?_ rfl rfl
  repeat' first
    | with_reducible exact Frame.rfl'
    | decide
    | intro _
    | with_reducible assumption
    | with_reducible apply landShortRetry_frame
    | with_reducible apply ite_frame
    | split

theorem execOpticInsert_eq (side : Fin 2) (cmis : CmisData) {s : State} (q : s.quiet) (hw : (Instr.opticInsert side cmis).wf = true) : execOpticInsert side cmis s = .next ((opticInsert side.val cmis s)) := by
  unfold execOpticInsert
  rw [if_pos hw]
  refine finish_of_frame (m := 16396) q ?_ rfl rfl
  repeat' first
    | with_reducible exact Frame.rfl'
    | decide
    | intro _
    | with_reducible assumption
    | with_reducible apply opticInsert_frame
    | with_reducible apply ite_frame
    | split

theorem execOpticRemove_eq (side : Fin 2) {s : State} (q : s.quiet) : execOpticRemove side s = .next ((opticRemove side.val s)) := by
  unfold execOpticRemove
  refine finish_of_frame (m := 16392) q ?_ rfl rfl
  repeat' first
    | with_reducible exact Frame.rfl'
    | decide
    | intro _
    | with_reducible assumption
    | with_reducible apply opticRemove_frame
    | with_reducible apply ite_frame
    | split

theorem execCmisPoll_eq (side : Fin 2) (intLow : Bool) (txPower bias : List Nat) {s : State} (q : s.quiet) (hw : (Instr.cmisPoll side intLow txPower bias).wf = true) : execCmisPoll side intLow txPower bias s = .next ((cmisPoll side.val intLow txPower bias s)) := by
  unfold execCmisPoll
  rw [if_pos hw]
  refine finish_of_frame (m := 16396) q ?_ rfl rfl
  repeat' first
    | with_reducible exact Frame.rfl'
    | decide
    | intro _
    | with_reducible assumption
    | with_reducible apply cmisPoll_frame
    | with_reducible apply ite_frame
    | split

theorem execCmisTimeout_eq (side : Fin 2) {s : State} (q : s.quiet) : execCmisTimeout side s = .next (settleFaults (cmisTimeout side.val s)) := by
  unfold execCmisTimeout
  refine finish_of_frame' (m := 8589942792) q ?_ rfl
  repeat' first
    | with_reducible exact Frame.rfl'
    | decide
    | intro _
    | with_reducible assumption
    | with_reducible apply cmisTimeout_frame
    | with_reducible apply ite_frame
    | split

theorem execLedFrame_eq  {s : State} (q : s.quiet) : execLedFrame s = .next ((ledFrameOut s)) := by
  unfold execLedFrame
  refine finish_of_frame (m := 16388) q ?_ rfl rfl
  repeat' first
    | with_reducible exact Frame.rfl'
    | decide
    | intro _
    | with_reducible assumption
    | with_reducible apply ledFrameOut_frame
    | with_reducible apply ite_frame
    | split

theorem execPerstN_eq (low : Bool) {s : State} (q : s.quiet) : execPerstN low s = .next ((perstN low s)) := by
  unfold execPerstN
  refine finish_of_frame (m := 70371965421576) q ?_ rfl rfl
  repeat' first
    | with_reducible exact Frame.rfl'
    | decide
    | intro _
    | with_reducible assumption
    | with_reducible apply perstN_frame
    | with_reducible apply ite_frame
    | split

theorem execVioReady_eq  {s : State} (q : s.quiet) : execVioReady s = .next ((vioReady s)) := by
  unfold execVioReady
  refine finish_of_frame (m := 70574902746248) q ?_ rfl rfl
  repeat' first
    | with_reducible exact Frame.rfl'
    | decide
    | intro _
    | with_reducible assumption
    | with_reducible apply vioReady_frame
    | with_reducible apply ite_frame
    | split

theorem execPtpSyncInterval_eq (port : Fin 512) (announce : Bool) {s : State} (q : s.quiet) : execPtpSyncInterval port announce s = .next ((ptpSyncInterval port.val announce s)) := by
  unfold execPtpSyncInterval
  refine finish_of_frame (m := 70368752585230) q ?_ rfl rfl
  repeat' first
    | with_reducible exact Frame.rfl'
    | decide
    | intro _
    | with_reducible assumption
    | with_reducible apply announce_frame
    | with_reducible apply ptpSyncInterval_frame
    | with_reducible apply ite_frame
    | split

theorem execTickEdge_lasting {i : TickInputs} {s s' : State} (e : execTickEdge i s = .next s') : Lasting s s' := by
  unfold execTickEdge at e
  split at e
  rotate_left
  · exact absurd e (by simp)
  refine finish_lasting ?_ e
  repeat' first
    | with_reducible exact Frame.rfl'
    | decide
    | intro _
    | with_reducible assumption
    | with_reducible apply tickEdge_frame
    | with_reducible apply ite_frame
    | split

theorem execLocalTickCountExpiry_lasting {i : TickInputs} {s s' : State} (e : execLocalTickCountExpiry i s = .next s') : Lasting s s' := by
  unfold execLocalTickCountExpiry at e
  split at e
  rotate_left
  · exact absurd e (by simp)
  refine finish_lasting ?_ e
  repeat' first
    | with_reducible exact Frame.rfl'
    | decide
    | intro _
    | with_reducible assumption
    | with_reducible apply localExpiry_frame
    | with_reducible apply ite_frame
    | split

theorem execGovLateComplete_lasting  {s s' : State} (e : execGovLateComplete s = .next s') : Lasting s s' := by
  unfold execGovLateComplete at e
  refine finish_lasting ?_ e
  repeat' first
    | with_reducible exact Frame.rfl'
    | decide
    | intro _
    | with_reducible assumption
    | with_reducible apply govLate_frame
    | with_reducible apply ite_frame
    | split

theorem execSchedPlan_lasting  {s s' : State} (e : execSchedPlan s = .next s') : Lasting s s' := by
  unfold execSchedPlan at e
  refine finish_lasting ?_ e
  repeat' first
    | with_reducible exact Frame.rfl'
    | decide
    | intro _
    | with_reducible assumption
    | with_reducible apply planRow_frame
    | with_reducible apply ite_frame
    | split

theorem execSupLoops_lasting  {s s' : State} (e : execSupLoops s = .next s') : Lasting s s' := by
  unfold execSupLoops at e
  refine finish_lasting ?_ e
  repeat' first
    | with_reducible exact Frame.rfl'
    | decide
    | intro _
    | with_reducible assumption
    | with_reducible apply supLoops_frame
    | with_reducible apply ite_frame
    | split

theorem execTickOverrun_lasting {block : Fin 7} {lateUs : Option (BitVec 16)} {s s' : State} (e : execTickOverrun block lateUs s = .next s') : Lasting s s' := by
  unfold execTickOverrun at e
  refine finish_lasting ?_ e
  repeat' first
    | with_reducible exact Frame.rfl'
    | decide
    | intro _
    | with_reducible assumption
    | with_reducible apply tickOverrun_frame
    | with_reducible apply ite_frame
    | split

theorem execRegWrite_lasting {src : Source} {addr value setSame : Word} {s s' : State} (e : execRegWrite src addr value setSame s = .next s') : Lasting s s' := by
  unfold execRegWrite at e
  refine finish_lasting ?_ e
  repeat' first
    | with_reducible exact Frame.rfl'
    | decide
    | intro _
    | with_reducible assumption
    | with_reducible apply misalignedAccess_frame
    | with_reducible apply access_frame
    | with_reducible apply ite_frame
    | split

theorem execRegMisaligned_lasting {src : Source} {addr : Word} {bytes : Nat} {write : Bool} {s s' : State} (e : execRegMisaligned src addr bytes write s = .next s') : Lasting s s' := by
  unfold execRegMisaligned at e
  refine finish_lasting ?_ e
  repeat' first
    | with_reducible exact Frame.rfl'
    | decide
    | intro _
    | with_reducible assumption
    | with_reducible apply misalignedAccess_frame
    | with_reducible apply ite_frame
    | split

theorem execRcClearingRead_lasting {src : Source} {addr : Word} {inc : Word} {s s' : State} (e : execRcClearingRead src addr inc s = .next s') : Lasting s s' := by
  unfold execRcClearingRead at e
  refine finish_lasting ?_ e
  repeat' first
    | with_reducible exact Frame.rfl'
    | decide
    | intro _
    | with_reducible assumption
    | with_reducible apply misalignedAccess_frame
    | with_reducible apply access_frame
    | with_reducible apply ite_frame
    | split

theorem execLrLowWordRead_lasting {src : Source} {addr : Word} {inc : Word} {s s' : State} (e : execLrLowWordRead src addr inc s = .next s') : Lasting s s' := by
  unfold execLrLowWordRead at e
  refine finish_lasting ?_ e
  repeat' first
    | with_reducible exact Frame.rfl'
    | decide
    | intro _
    | with_reducible assumption
    | with_reducible apply misalignedAccess_frame
    | with_reducible apply access_frame
    | with_reducible apply ite_frame
    | split

theorem execColdReset_lasting  {s s' : State} (e : execColdReset s = .next s') : Lasting s s' := by
  unfold execColdReset at e
  refine finish_lasting ?_ e
  repeat' first
    | with_reducible exact Frame.rfl'
    | decide
    | intro _
    | with_reducible assumption
    | with_reducible apply coldReset_frame
    | with_reducible apply ite_frame
    | split

theorem execDipReset_lasting {vinMv : BitVec 16} {s s' : State} (e : execDipReset vinMv s = .next s') : Lasting s s' := by
  unfold execDipReset at e
  refine finish_lasting ?_ e
  repeat' first
    | with_reducible exact Frame.rfl'
    | decide
    | intro _
    | with_reducible assumption
    | with_reducible apply dipReset_frame
    | with_reducible apply ite_frame
    | split

theorem execPinReset_lasting  {s s' : State} (e : execPinReset s = .next s') : Lasting s s' := by
  unfold execPinReset at e
  refine finish_lasting ?_ e
  repeat' first
    | with_reducible exact Frame.rfl'
    | decide
    | intro _
    | with_reducible assumption
    | with_reducible apply pinReset_frame
    | with_reducible apply ite_frame
    | split

theorem execWatchdogReset_lasting {refclk : Bool} {s s' : State} (e : execWatchdogReset refclk s = .next s') : Lasting s s' := by
  unfold execWatchdogReset at e
  refine finish_lasting ?_ e
  repeat' first
    | with_reducible exact Frame.rfl'
    | decide
    | intro _
    | with_reducible assumption
    | with_reducible apply watchdogReset_frame
    | with_reducible apply ite_frame
    | split

theorem execChainReset_lasting {code : Word} {s s' : State} (e : execChainReset code s = .next s') : Lasting s s' := by
  unfold execChainReset at e
  refine finish_lasting ?_ e
  repeat' first
    | with_reducible exact Frame.rfl'
    | decide
    | intro _
    | with_reducible assumption
    | with_reducible apply chainReset_frame
    | with_reducible apply commandWrite_frame
    | with_reducible apply ite_frame
    | split

theorem execDomainReset_lasting {mask : BitVec 21} {s s' : State} (e : execDomainReset mask s = .next s') : Lasting s s' := by
  unfold execDomainReset at e
  refine finish_lasting ?_ e
  repeat' first
    | with_reducible exact Frame.rfl'
    | decide
    | intro _
    | with_reducible assumption
    | with_reducible apply domainResets_frame
    | with_reducible apply commandWrite_frame
    | with_reducible apply ite_frame
    | split

theorem execDomainResetRelease_lasting {domain : Fin 21} {upsets : List (Nat × Nat × Byte)} {s s' : State} (e : execDomainResetRelease domain upsets s = .next s') : Lasting s s' := by
  unfold execDomainResetRelease at e
  refine finish_lasting ?_ e
  repeat' first
    | with_reducible exact Frame.rfl'
    | decide
    | intro _
    | with_reducible assumption
    | with_reducible apply domainRelease_frame
    | with_reducible apply ite_frame
    | split

theorem execResetRelease_lasting {straps : Straps} {flashA flashB : FlashRead} {ddrFail refs : BitVec 4} {s s' : State} (e : execResetRelease straps flashA flashB ddrFail refs s = .next s') : Lasting s s' := by
  unfold execResetRelease at e
  refine finish_lasting ?_ e
  repeat' first
    | with_reducible exact Frame.rfl'
    | decide
    | intro _
    | with_reducible assumption
    | with_reducible apply resetRelease_frame
    | with_reducible apply ite_frame
    | split

theorem execImageVerifyDone_lasting {read : FlashRead} {s s' : State} (e : execImageVerifyDone read s = .next s') : Lasting s s' := by
  unfold execImageVerifyDone at e
  refine finish_lasting ?_ e
  repeat' first
    | with_reducible exact Frame.rfl'
    | decide
    | intro _
    | with_reducible assumption
    | with_reducible apply imageVerifyDone_frame
    | with_reducible apply ite_frame
    | split

theorem execRelease_lasting  {s s' : State} (e : execRelease s = .next s') : Lasting s s' := by
  unfold execRelease at e
  refine finish_lasting ?_ e
  repeat' first
    | with_reducible exact Frame.rfl'
    | decide
    | intro _
    | with_reducible assumption
    | with_reducible apply bootRelease_frame
    | with_reducible apply commandWrite_frame
    | with_reducible apply ite_frame
    | split

theorem execImageApply_lasting  {s s' : State} (e : execImageApply s = .next s') : Lasting s s' := by
  unfold execImageApply at e
  refine finish_lasting ?_ e
  repeat' first
    | with_reducible exact Frame.rfl'
    | decide
    | intro _
    | with_reducible assumption
    | with_reducible apply imageApply_frame
    | with_reducible apply ite_frame
    | split

theorem execImgRecordBusyWait_lasting {expired : Bool} {s s' : State} (e : execImgRecordBusyWait expired s = .next s') : Lasting s s' := by
  unfold execImgRecordBusyWait at e
  refine finish_lasting ?_ e
  repeat' first
    | with_reducible exact Frame.rfl'
    | decide
    | intro _
    | with_reducible assumption
    | with_reducible apply recordBusyWait_frame
    | with_reducible apply ite_frame
    | split

theorem execEvRefclkLoss_lasting {input : Fin 4} {s s' : State} (e : execEvRefclkLoss input s = .next s') : Lasting s s' := by
  unfold execEvRefclkLoss at e
  refine finish_lasting ?_ e
  repeat' first
    | with_reducible exact Frame.rfl'
    | decide
    | intro _
    | with_reducible assumption
    | with_reducible apply refclkLoss_frame
    | with_reducible apply ite_frame
    | split

theorem execRefclkRetry_lasting {present : Bool} {s s' : State} (e : execRefclkRetry present s = .next s') : Lasting s s' := by
  unfold execRefclkRetry at e
  refine finish_lasting ?_ e
  repeat' first
    | with_reducible exact Frame.rfl'
    | decide
    | intro _
    | with_reducible assumption
    | with_reducible apply refclkRetry_frame
    | with_reducible apply ite_frame
    | split

theorem execRefclkMeasure_lasting {ppm : List (Option Int)} {s s' : State} (e : execRefclkMeasure ppm s = .next s') : Lasting s s' := by
  unfold execRefclkMeasure at e
  split at e
  rotate_left
  · exact absurd e (by simp)
  refine finish_lasting ?_ e
  repeat' first
    | with_reducible exact Frame.rfl'
    | decide
    | intro _
    | with_reducible assumption
    | with_reducible apply refclkMeasure_frame
    | with_reducible apply ite_frame
    | split

theorem execEvVinWarn_lasting {vinMv : BitVec 16} {s s' : State} (e : execEvVinWarn vinMv s = .next s') : Lasting s s' := by
  unfold execEvVinWarn at e
  refine finish_lasting ?_ e
  repeat' first
    | with_reducible exact Frame.rfl'
    | decide
    | intro _
    | with_reducible assumption
    | with_reducible apply vinWarn_frame
    | with_reducible apply ite_frame
    | split

theorem execVinWarnRepeat_lasting {vinMv : BitVec 16} {s s' : State} (e : execVinWarnRepeat vinMv s = .next s') : Lasting s s' := by
  unfold execVinWarnRepeat at e
  refine finish_lasting ?_ e
  repeat' first
    | with_reducible exact Frame.rfl'
    | decide
    | intro _
    | with_reducible assumption
    | with_reducible apply vinWarnRepeat_frame
    | with_reducible apply ite_frame
    | split

theorem execEvVinRecover_lasting {vinMv : BitVec 16} {durationUs : Word} {lowestMv : BitVec 16} {s s' : State} (e : execEvVinRecover vinMv durationUs lowestMv s = .next s') : Lasting s s' := by
  unfold execEvVinRecover at e
  refine finish_lasting ?_ e
  repeat' first
    | with_reducible exact Frame.rfl'
    | decide
    | intro _
    | with_reducible assumption
    | with_reducible apply vinRecover_frame
    | with_reducible apply ite_frame
    | split

theorem execVauxLoss_lasting  {s s' : State} (e : execVauxLoss s = .next s') : Lasting s s' := by
  unfold execVauxLoss at e
  refine finish_lasting ?_ e
  repeat' first
    | with_reducible exact Frame.rfl'
    | decide
    | intro _
    | with_reducible assumption
    | with_reducible apply vauxLoss_frame
    | with_reducible apply ite_frame
    | split

theorem execVinOvercurrentDisconnect_lasting  {s s' : State} (e : execVinOvercurrentDisconnect s = .next s') : Lasting s s' := by
  unfold execVinOvercurrentDisconnect at e
  refine finish_lasting ?_ e
  repeat' first
    | with_reducible exact Frame.rfl'
    | decide
    | intro _
    | with_reducible assumption
    | with_reducible apply vinDisconnect_frame
    | with_reducible apply ite_frame
    | split

theorem execSideDomainUp_lasting {side : Fin 2} {s s' : State} (e : execSideDomainUp side s = .next s') : Lasting s s' := by
  unfold execSideDomainUp at e
  refine finish_lasting ?_ e
  repeat' first
    | with_reducible exact Frame.rfl'
    | decide
    | intro _
    | with_reducible assumption
    | with_reducible apply sideUpRow_frame
    | with_reducible apply ite_frame
    | split

theorem execSideDomainDown_lasting {side : Fin 2} {s s' : State} (e : execSideDomainDown side s = .next s') : Lasting s s' := by
  unfold execSideDomainDown at e
  refine finish_lasting ?_ e
  repeat' first
    | with_reducible exact Frame.rfl'
    | decide
    | intro _
    | with_reducible assumption
    | with_reducible apply sideDomainDown_frame
    | with_reducible apply ite_frame
    | split

theorem execSyncSighting_lasting {side : Fin 2} {seam : Fin 4} {offset : Fin 13273600} {word : Codeword} {s s' : State} (e : execSyncSighting side seam offset word s = .next s') : Lasting s s' := by
  unfold execSyncSighting at e
  split at e
  rotate_left
  · exact absurd e (by simp)
  refine finish_lasting ?_ e
  repeat' first
    | with_reducible exact Frame.rfl'
    | decide
    | intro _
    | with_reducible assumption
    | with_reducible apply syncSighting_frame
    | with_reducible apply ite_frame
    | split

theorem execCandidateExamine_lasting {side : Fin 2} {seam : Fin 4} {offset : Fin 13273600} {word : Codeword} {s s' : State} (e : execCandidateExamine side seam offset word s = .next s') : Lasting s s' := by
  unfold execCandidateExamine at e
  split at e
  rotate_left
  · exact absurd e (by simp)
  refine finish_lasting ?_ e
  repeat' first
    | with_reducible exact Frame.rfl'
    | decide
    | intro _
    | with_reducible assumption
    | with_reducible apply candidateExamine_frame
    | with_reducible apply ite_frame
    | split

theorem execEvalPeriodEnd_lasting {side : Fin 2} {seam : Fin 4} {s s' : State} (e : execEvalPeriodEnd side seam s = .next s') : Lasting s s' := by
  unfold execEvalPeriodEnd at e
  refine finish_lasting ?_ e
  repeat' first
    | with_reducible exact Frame.rfl'
    | decide
    | intro _
    | with_reducible assumption
    | with_reducible apply evalPeriodRow_frame
    | with_reducible apply ite_frame
    | split

theorem execDownstreamFrame_lasting {side : Fin 2} {seam : Fin 4} {words : List Codeword} {lateNs : BitVec 32} {s s' : State} (e : execDownstreamFrame side seam words lateNs s = .next s') : Lasting s s' := by
  unfold execDownstreamFrame at e
  split at e
  rotate_left
  · exact absurd e (by simp)
  refine finish_lasting ?_ e
  repeat' first
    | with_reducible exact Frame.rfl'
    | decide
    | intro _
    | with_reducible assumption
    | with_reducible apply downstreamFrame_frame
    | with_reducible apply ite_frame
    | split

theorem execLosDeclare_lasting {side : Fin 2} {seam : Fin 4} {sdLand : Bool} {energyLoss : Bool} {s s' : State} (e : execLosDeclare side seam sdLand energyLoss s = .next s') : Lasting s s' := by
  unfold execLosDeclare at e
  refine finish_lasting ?_ e
  repeat' first
    | with_reducible exact Frame.rfl'
    | decide
    | intro _
    | with_reducible assumption
    | with_reducible apply losDeclareRow_frame
    | with_reducible apply ite_frame
    | split

theorem execLosClear_lasting {side : Fin 2} {seam : Fin 4} {sdLand : Bool} {energyLoss : Bool} {s s' : State} (e : execLosClear side seam sdLand energyLoss s = .next s') : Lasting s s' := by
  unfold execLosClear at e
  refine finish_lasting ?_ e
  repeat' first
    | with_reducible exact Frame.rfl'
    | decide
    | intro _
    | with_reducible assumption
    | with_reducible apply losClearRow_frame
    | with_reducible apply ite_frame
    | split

theorem execSdWindowEnd_lasting {side : Fin 2} {seam : Fin 4} {s s' : State} (e : execSdWindowEnd side seam s = .next s') : Lasting s s' := by
  unfold execSdWindowEnd at e
  refine finish_lasting ?_ e
  repeat' first
    | with_reducible exact Frame.rfl'
    | decide
    | intro _
    | with_reducible assumption
    | with_reducible apply sdWindowEnd_frame
    | with_reducible apply ite_frame
    | split

theorem execSfWindowEnd_lasting {side : Fin 2} {seam : Fin 4} {s s' : State} (e : execSfWindowEnd side seam s = .next s') : Lasting s s' := by
  unfold execSfWindowEnd at e
  refine finish_lasting ?_ e
  repeat' first
    | with_reducible exact Frame.rfl'
    | decide
    | intro _
    | with_reducible assumption
    | with_reducible apply sfWindowRow_frame
    | with_reducible apply ite_frame
    | split

theorem execUpstreamBurst_lasting {seam : Fin 4} {s s' : State} (e : execUpstreamBurst seam s = .next s') : Lasting s s' := by
  unfold execUpstreamBurst at e
  refine finish_lasting ?_ e
  repeat' first
    | with_reducible exact Frame.rfl'
    | decide
    | intro _
    | with_reducible assumption
    | with_reducible apply upstreamBurst_frame
    | with_reducible apply ite_frame
    | split

theorem execAnnounce_lasting {seam : Fin 4} {s s' : State} (e : execAnnounce seam s = .next s') : Lasting s s' := by
  unfold execAnnounce at e
  refine finish_lasting ?_ e
  repeat' first
    | with_reducible exact Frame.rfl'
    | decide
    | intro _
    | with_reducible assumption
    | with_reducible apply announce_frame
    | with_reducible apply ite_frame
    | split

theorem execRangingReply_lasting {seam : Fin 4} {s s' : State} (e : execRangingReply seam s = .next s') : Lasting s s' := by
  unfold execRangingReply at e
  refine finish_lasting ?_ e
  repeat' first
    | with_reducible exact Frame.rfl'
    | decide
    | intro _
    | with_reducible assumption
    | with_reducible apply rangingReply_frame
    | with_reducible apply ite_frame
    | split

theorem execAssignTn_lasting {m : LmmHead} {idser : BitVec 64} {newTn : BitVec 12} {s s' : State} (e : execAssignTn m idser newTn s = .next s') : Lasting s s' := by
  unfold execAssignTn at e
  refine finish_lasting ?_ e
  repeat' first
    | with_reducible exact Frame.rfl'
    | decide
    | intro _
    | with_reducible assumption
    | with_reducible apply assignTn_frame
    | with_reducible apply ite_frame
    | split

theorem execRangingTime_lasting {m : LmmHead} {eqd : BitVec 26} {effFc : BitVec 48} {now : Bool} {s s' : State} (e : execRangingTime m eqd effFc now s = .next s') : Lasting s s' := by
  unfold execRangingTime at e
  refine finish_lasting ?_ e
  repeat' first
    | with_reducible exact Frame.rfl'
    | decide
    | intro _
    | with_reducible assumption
    | with_reducible apply rangingTime_frame
    | with_reducible apply ite_frame
    | split

theorem execAllocAssign_lasting {m : LmmHead} {allocId : BitVec 14} {remove : Bool} {index : BitVec 3} {s s' : State} (e : execAllocAssign m allocId remove index s = .next s') : Lasting s s' := by
  unfold execAllocAssign at e
  refine finish_lasting ?_ e
  repeat' first
    | with_reducible exact Frame.rfl'
    | decide
    | intro _
    | with_reducible assumption
    | with_reducible apply allocAssign_frame
    | with_reducible apply ite_frame
    | split

theorem execDeactivate_lasting {m : LmmHead} {s s' : State} (e : execDeactivate m s = .next s') : Lasting s s' := by
  unfold execDeactivate at e
  refine finish_lasting ?_ e
  repeat' first
    | with_reducible exact Frame.rfl'
    | decide
    | intro _
    | with_reducible assumption
    | with_reducible apply deactivate_frame
    | with_reducible apply ite_frame
    | split

theorem execExpel_lasting {m : LmmHead} {idser : BitVec 64} {enable : Bool} {s s' : State} (e : execExpel m idser enable s = .next s') : Lasting s s' := by
  unfold execExpel at e
  refine finish_lasting ?_ e
  repeat' first
    | with_reducible exact Frame.rfl'
    | decide
    | intro _
    | with_reducible assumption
    | with_reducible apply expel_frame
    | with_reducible apply ite_frame
    | split

theorem execHold_lasting {m : LmmHead} {release : Bool} {s s' : State} (e : execHold m release s = .next s') : Lasting s s' := by
  unfold execHold at e
  refine finish_lasting ?_ e
  repeat' first
    | with_reducible exact Frame.rfl'
    | decide
    | intro _
    | with_reducible assumption
    | with_reducible apply hold_frame
    | with_reducible apply ite_frame
    | split

theorem execKeyEpoch_lasting {m : LmmHead} {up : Bool} {epoch : Word} {switchFc : BitVec 48} {s s' : State} (e : execKeyEpoch m up epoch switchFc s = .next s') : Lasting s s' := by
  unfold execKeyEpoch at e
  refine finish_lasting ?_ e
  repeat' first
    | with_reducible exact Frame.rfl'
    | decide
    | intro _
    | with_reducible assumption
    | with_reducible apply keyEpoch_frame
    | with_reducible apply ite_frame
    | split

theorem execBurstProfile_lasting {m : LmmHead} {profile : BitVec 3} {preamble : BitVec 10} {pattern : Word} {delimiter : BitVec 64} {s s' : State} (e : execBurstProfile m profile preamble pattern delimiter s = .next s') : Lasting s s' := by
  unfold execBurstProfile at e
  refine finish_lasting ?_ e
  repeat' first
    | with_reducible exact Frame.rfl'
    | decide
    | intro _
    | with_reducible assumption
    | with_reducible apply burstProfile_frame
    | with_reducible apply ite_frame
    | split

theorem execDozeGrant_lasting {m : LmmHead} {state : BitVec 3} {period aware : BitVec 16} {s s' : State} (e : execDozeGrant m state period aware s = .next s') : Lasting s s' := by
  unfold execDozeGrant at e
  refine finish_lasting ?_ e
  repeat' first
    | with_reducible exact Frame.rfl'
    | decide
    | intro _
    | with_reducible assumption
    | with_reducible apply dozeGrant_frame
    | with_reducible apply ite_frame
    | split

theorem execEchoRequest_lasting {m : LmmHead} {data : BitVec 288} {s s' : State} (e : execEchoRequest m data s = .next s') : Lasting s s' := by
  unfold execEchoRequest at e
  refine finish_lasting ?_ e
  repeat' first
    | with_reducible exact Frame.rfl'
    | decide
    | intro _
    | with_reducible assumption
    | with_reducible apply echoRequest_frame
    | with_reducible apply ite_frame
    | split

theorem execResumeAck_lasting {m : LmmHead} {dsEpoch usEpoch : Word} {s s' : State} (e : execResumeAck m dsEpoch usEpoch s = .next s') : Lasting s s' := by
  unfold execResumeAck at e
  refine finish_lasting ?_ e
  repeat' first
    | with_reducible exact Frame.rfl'
    | decide
    | intro _
    | with_reducible assumption
    | with_reducible apply resumeAck_frame
    | with_reducible apply ite_frame
    | split

theorem execTimeOfDay_lasting {m : LmmHead} {markFc : BitVec 48} {seconds : BitVec 64} {ns : Word} {frac : BitVec 16} {s s' : State} (e : execTimeOfDay m markFc seconds ns frac s = .next s') : Lasting s s' := by
  unfold execTimeOfDay at e
  refine finish_lasting ?_ e
  repeat' first
    | with_reducible exact Frame.rfl'
    | decide
    | intro _
    | with_reducible assumption
    | with_reducible apply timeOfDay_frame
    | with_reducible apply ite_frame
    | split

theorem execAck_lasting {ident : Fin 128} {type seq : BitVec 8} {fc : BitVec 48} {s s' : State} (e : execAck ident type seq fc s = .next s') : Lasting s s' := by
  unfold execAck at e
  refine finish_lasting ?_ e
  repeat' first
    | with_reducible exact Frame.rfl'
    | decide
    | intro _
    | with_reducible assumption
    | with_reducible apply queueAck_frame
    | with_reducible apply ite_frame
    | split

theorem execJoinTimeout_lasting {ident : Fin 128} {s s' : State} (e : execJoinTimeout ident s = .next s') : Lasting s s' := by
  unfold execJoinTimeout at e
  refine finish_lasting ?_ e
  repeat' first
    | with_reducible exact Frame.rfl'
    | decide
    | intro _
    | with_reducible assumption
    | with_reducible apply joinTimeout_frame
    | with_reducible apply ite_frame
    | split

theorem execResumeTimeout_lasting {ident : Fin 128} {s s' : State} (e : execResumeTimeout ident s = .next s') : Lasting s s' := by
  unfold execResumeTimeout at e
  refine finish_lasting ?_ e
  repeat' first
    | with_reducible exact Frame.rfl'
    | decide
    | intro _
    | with_reducible assumption
    | with_reducible apply resumeTimeout_frame
    | with_reducible apply ite_frame
    | split

theorem execUnexpel_lasting {ident : Fin 128} {s s' : State} (e : execUnexpel ident s = .next s') : Lasting s s' := by
  unfold execUnexpel at e
  refine finish_lasting ?_ e
  repeat' first
    | with_reducible exact Frame.rfl'
    | decide
    | intro _
    | with_reducible assumption
    | with_reducible apply unexpel_frame
    | with_reducible apply commandWrite_frame
    | with_reducible apply ite_frame
    | split

theorem execDozeRequest_lasting {ident : Fin 128} {state : BitVec 3} {period : BitVec 16} {s s' : State} (e : execDozeRequest ident state period s = .next s') : Lasting s s' := by
  unfold execDozeRequest at e
  refine finish_lasting ?_ e
  repeat' first
    | with_reducible exact Frame.rfl'
    | decide
    | intro _
    | with_reducible assumption
    | with_reducible apply dozeRequest_frame
    | with_reducible apply ite_frame
    | split

theorem execDozeWake_lasting {ident : Fin 128} {s s' : State} (e : execDozeWake ident s = .next s') : Lasting s s' := by
  unfold execDozeWake at e
  refine finish_lasting ?_ e
  repeat' first
    | with_reducible exact Frame.rfl'
    | decide
    | intro _
    | with_reducible assumption
    | with_reducible apply dozeWakeRow_frame
    | with_reducible apply ite_frame
    | split

theorem execDozeTimer_lasting  {s s' : State} (e : execDozeTimer s = .next s') : Lasting s s' := by
  unfold execDozeTimer at e
  refine finish_lasting ?_ e
  repeat' first
    | with_reducible exact Frame.rfl'
    | decide
    | intro _
    | with_reducible assumption
    | with_reducible apply dozeTimer_frame
    | with_reducible apply ite_frame
    | split

theorem execBondGapTimerExpiry_lasting {ident : Fin 128} {s s' : State} (e : execBondGapTimerExpiry ident s = .next s') : Lasting s s' := by
  unfold execBondGapTimerExpiry at e
  refine finish_lasting ?_ e
  repeat' first
    | with_reducible exact Frame.rfl'
    | decide
    | intro _
    | with_reducible assumption
    | with_reducible apply bondGapExpiry_frame
    | with_reducible apply ite_frame
    | split

theorem execCircEnable_lasting {circuit : Fin 1024} {s s' : State} (e : execCircEnable circuit s = .next s') : Lasting s s' := by
  unfold execCircEnable at e
  refine finish_lasting ?_ e
  repeat' first
    | with_reducible exact Frame.rfl'
    | decide
    | intro _
    | with_reducible assumption
    | with_reducible apply circEnable_frame
    | with_reducible apply ite_frame
    | split

theorem execCircDisable_lasting {circuit : Fin 1024} {s s' : State} (e : execCircDisable circuit s = .next s') : Lasting s s' := by
  unfold execCircDisable at e
  refine finish_lasting ?_ e
  repeat' first
    | with_reducible exact Frame.rfl'
    | decide
    | intro _
    | with_reducible assumption
    | with_reducible apply circDisable_frame
    | with_reducible apply ite_frame
    | split

theorem execCircPacket_lasting {packet : Option (Fin 1024 × Bytes)} {s s' : State} (e : execCircPacket packet s = .next s') : Lasting s s' := by
  unfold execCircPacket at e
  refine finish_lasting ?_ e
  repeat' first
    | with_reducible exact Frame.rfl'
    | decide
    | intro _
    | with_reducible assumption
    | with_reducible apply circPacketRow_frame
    | with_reducible apply ite_frame
    | split

theorem execSubmit_lasting {msg : Option (Fin 512 × Bytes)} {s s' : State} (e : execSubmit msg s = .next s') : Lasting s s' := by
  unfold execSubmit at e
  refine finish_lasting ?_ e
  repeat' first
    | with_reducible exact Frame.rfl'
    | decide
    | intro _
    | with_reducible assumption
    | with_reducible apply tallyRow_frame
    | with_reducible apply submit_frame
    | with_reducible apply ite_frame
    | split

theorem execJournalWriteVerified_lasting {slot : Fin 8192} {s s' : State} (e : execJournalWriteVerified slot s = .next s') : Lasting s s' := by
  unfold execJournalWriteVerified at e
  refine finish_lasting ?_ e
  repeat' first
    | with_reducible exact Frame.rfl'
    | decide
    | intro _
    | with_reducible assumption
    | with_reducible apply journalWriteVerified_frame
    | with_reducible apply ite_frame
    | split

theorem execEvTallySplit_lasting {slot : Fin 8192} {dies unwritable : BitVec 2} {s s' : State} (e : execEvTallySplit slot dies unwritable s = .next s') : Lasting s s' := by
  unfold execEvTallySplit at e
  refine finish_lasting ?_ e
  repeat' first
    | with_reducible exact Frame.rfl'
    | decide
    | intro _
    | with_reducible assumption
    | with_reducible apply splitRow_frame
    | with_reducible apply ite_frame
    | split

theorem execDeliver_lasting {msg : Option (Fin 128 × Bytes)} {s s' : State} (e : execDeliver msg s = .next s') : Lasting s s' := by
  unfold execDeliver at e
  refine finish_lasting ?_ e
  repeat' first
    | with_reducible exact Frame.rfl'
    | decide
    | intro _
    | with_reducible assumption
    | with_reducible apply tallyRow_frame
    | with_reducible apply deliver_frame
    | with_reducible apply ite_frame
    | split

theorem execTallyResendHe_lasting {flow : Fin 2048} {s s' : State} (e : execTallyResendHe flow s = .next s') : Lasting s s' := by
  unfold execTallyResendHe at e
  refine finish_lasting ?_ e
  repeat' first
    | with_reducible exact Frame.rfl'
    | decide
    | intro _
    | with_reducible assumption
    | with_reducible apply tallyResendHe_frame
    | with_reducible apply ite_frame
    | split

theorem execDeliverToRecipient_lasting {flow : Fin 2048} {s s' : State} (e : execDeliverToRecipient flow s = .next s') : Lasting s s' := by
  unfold execDeliverToRecipient at e
  refine finish_lasting ?_ e
  repeat' first
    | with_reducible exact Frame.rfl'
    | decide
    | intro _
    | with_reducible assumption
    | with_reducible apply deliverToRecipient_frame
    | with_reducible apply ite_frame
    | split

theorem execTallyResendLocal_lasting {flow : Fin 2048} {s s' : State} (e : execTallyResendLocal flow s = .next s') : Lasting s s' := by
  unfold execTallyResendLocal at e
  refine finish_lasting ?_ e
  repeat' first
    | with_reducible exact Frame.rfl'
    | decide
    | intro _
    | with_reducible assumption
    | with_reducible apply tallyResendLocal_frame
    | with_reducible apply ite_frame
    | split

theorem execReceiptFromHeadEnd_lasting {msg : Option (Fin 128 × Bytes)} {s s' : State} (e : execReceiptFromHeadEnd msg s = .next s') : Lasting s s' := by
  unfold execReceiptFromHeadEnd at e
  refine finish_lasting ?_ e
  repeat' first
    | with_reducible exact Frame.rfl'
    | decide
    | intro _
    | with_reducible assumption
    | with_reducible apply tallyRow_frame
    | with_reducible apply receiptFromHeadEnd_frame
    | with_reducible apply ite_frame
    | split

theorem execReceiptFromRecipient_lasting {msg : Option (Fin 512 × Bytes)} {s s' : State} (e : execReceiptFromRecipient msg s = .next s') : Lasting s s' := by
  unfold execReceiptFromRecipient at e
  refine finish_lasting ?_ e
  repeat' first
    | with_reducible exact Frame.rfl'
    | decide
    | intro _
    | with_reducible assumption
    | with_reducible apply tallyRow_frame
    | with_reducible apply receiptFromRecipient_frame
    | with_reducible apply ite_frame
    | split

theorem execRefuseFromHeadEnd_lasting {msg : Option (Fin 128 × Bytes)} {s s' : State} (e : execRefuseFromHeadEnd msg s = .next s') : Lasting s s' := by
  unfold execRefuseFromHeadEnd at e
  refine finish_lasting ?_ e
  repeat' first
    | with_reducible exact Frame.rfl'
    | decide
    | intro _
    | with_reducible assumption
    | with_reducible apply tallyRow_frame
    | with_reducible apply refuseFromHeadEnd_frame
    | with_reducible apply ite_frame
    | split

theorem execStatus_lasting {msg : Option (Fin 512 × Bytes)} {s s' : State} (e : execStatus msg s = .next s') : Lasting s s' := by
  unfold execStatus at e
  refine finish_lasting ?_ e
  repeat' first
    | with_reducible exact Frame.rfl'
    | decide
    | intro _
    | with_reducible assumption
    | with_reducible apply status_frame
    | with_reducible apply tallyRow_frame
    | with_reducible apply ite_frame
    | split

theorem execEvTallyStall_lasting {flow : Fin 2048} {s s' : State} (e : execEvTallyStall flow s = .next s') : Lasting s s' := by
  unfold execEvTallyStall at e
  refine finish_lasting ?_ e
  repeat' first
    | with_reducible exact Frame.rfl'
    | decide
    | intro _
    | with_reducible assumption
    | with_reducible apply evTallyStall_frame
    | with_reducible apply ite_frame
    | split

theorem execFlowClose_lasting {flow : Fin 2048} {s s' : State} (e : execFlowClose flow s = .next s') : Lasting s s' := by
  unfold execFlowClose at e
  refine finish_lasting ?_ e
  repeat' first
    | with_reducible exact Frame.rfl'
    | decide
    | intro _
    | with_reducible assumption
    | with_reducible apply flowClose_frame
    | with_reducible apply commandWrite_frame
    | with_reducible apply ite_frame
    | split

theorem execPurge_lasting {flow : Fin 2048} {s s' : State} (e : execPurge flow s = .next s') : Lasting s s' := by
  unfold execPurge at e
  refine finish_lasting ?_ e
  repeat' first
    | with_reducible exact Frame.rfl'
    | decide
    | intro _
    | with_reducible assumption
    | with_reducible apply purge_frame
    | with_reducible apply commandWrite_frame
    | with_reducible apply ite_frame
    | split

theorem execJournalScan_lasting {torn unmarked : List (Fin 2 × Fin 8192)} {s s' : State} (e : execJournalScan torn unmarked s = .next s') : Lasting s s' := by
  unfold execJournalScan at e
  refine finish_lasting ?_ e
  repeat' first
    | with_reducible exact Frame.rfl'
    | decide
    | intro _
    | with_reducible assumption
    | with_reducible apply scanRow_frame
    | with_reducible apply ite_frame
    | split

theorem execClassifyFrame_lasting {pipe : Fin 4} {s s' : State} (e : execClassifyFrame pipe s = .next s') : Lasting s s' := by
  unfold execClassifyFrame at e
  refine finish_lasting ?_ e
  repeat' first
    | with_reducible exact Frame.rfl'
    | decide
    | intro _
    | with_reducible assumption
    | with_reducible apply classifyFrame_frame
    | with_reducible apply ite_frame
    | split

theorem execExcForward_lasting  {s s' : State} (e : execExcForward s = .next s') : Lasting s s' := by
  unfold execExcForward at e
  refine finish_lasting ?_ e
  repeat' first
    | with_reducible exact Frame.rfl'
    | decide
    | intro _
    | with_reducible assumption
    | with_reducible apply excForward_frame
    | with_reducible apply ite_frame
    | split

theorem execRuleWrite_lasting {pipe : Fin 4} {value : Word} {s s' : State} (e : execRuleWrite pipe value s = .next s') : Lasting s s' := by
  unfold execRuleWrite at e
  refine finish_lasting ?_ e
  repeat' first
    | with_reducible exact Frame.rfl'
    | decide
    | intro _
    | with_reducible assumption
    | with_reducible apply ruleWrite_frame
    | with_reducible apply commandWrite_frame
    | with_reducible apply ite_frame
    | split

theorem execRuleRead_lasting {pipe : Fin 4} {value : Word} {s s' : State} (e : execRuleRead pipe value s = .next s') : Lasting s s' := by
  unfold execRuleRead at e
  refine finish_lasting ?_ e
  repeat' first
    | with_reducible exact Frame.rfl'
    | decide
    | intro _
    | with_reducible assumption
    | with_reducible apply ruleRead_frame
    | with_reducible apply commandWrite_frame
    | with_reducible apply ite_frame
    | split

theorem execFdbInsertStatic_lasting  {s s' : State} (e : execFdbInsertStatic s = .next s') : Lasting s s' := by
  unfold execFdbInsertStatic at e
  refine finish_lasting ?_ e
  repeat' first
    | with_reducible exact Frame.rfl'
    | decide
    | intro _
    | with_reducible assumption
    | with_reducible apply fdbInsert_frame
    | with_reducible apply commandWrite_frame
    | with_reducible apply ite_frame
    | split

theorem execFdbInsertDynamic_lasting  {s s' : State} (e : execFdbInsertDynamic s = .next s') : Lasting s s' := by
  unfold execFdbInsertDynamic at e
  refine finish_lasting ?_ e
  repeat' first
    | with_reducible exact Frame.rfl'
    | decide
    | intro _
    | with_reducible assumption
    | with_reducible apply fdbInsert_frame
    | with_reducible apply commandWrite_frame
    | with_reducible apply ite_frame
    | split

theorem execFdbDelete_lasting  {s s' : State} (e : execFdbDelete s = .next s') : Lasting s s' := by
  unfold execFdbDelete at e
  refine finish_lasting ?_ e
  repeat' first
    | with_reducible exact Frame.rfl'
    | decide
    | intro _
    | with_reducible assumption
    | with_reducible apply fdbDelete_frame
    | with_reducible apply commandWrite_frame
    | with_reducible apply ite_frame
    | split

theorem execFdbLookup_lasting  {s s' : State} (e : execFdbLookup s = .next s') : Lasting s s' := by
  unfold execFdbLookup at e
  refine finish_lasting ?_ e
  repeat' first
    | with_reducible exact Frame.rfl'
    | decide
    | intro _
    | with_reducible assumption
    | with_reducible apply fdbLookup_frame
    | with_reducible apply commandWrite_frame
    | with_reducible apply ite_frame
    | split

theorem execFdbDeleteByDest_lasting  {s s' : State} (e : execFdbDeleteByDest s = .next s') : Lasting s s' := by
  unfold execFdbDeleteByDest at e
  refine finish_lasting ?_ e
  repeat' first
    | with_reducible exact Frame.rfl'
    | decide
    | intro _
    | with_reducible assumption
    | with_reducible apply fdbDeleteByDest_frame
    | with_reducible apply commandWrite_frame
    | with_reducible apply ite_frame
    | split

theorem execFdbSweep_lasting  {s s' : State} (e : execFdbSweep s = .next s') : Lasting s s' := by
  unfold execFdbSweep at e
  refine finish_lasting ?_ e
  repeat' first
    | with_reducible exact Frame.rfl'
    | decide
    | intro _
    | with_reducible assumption
    | with_reducible apply fdbSweep_frame
    | with_reducible apply ite_frame
    | split

theorem execVlanWrite_lasting {value : Word} {s s' : State} (e : execVlanWrite value s = .next s') : Lasting s s' := by
  unfold execVlanWrite at e
  refine finish_lasting ?_ e
  repeat' first
    | with_reducible exact Frame.rfl'
    | decide
    | intro _
    | with_reducible assumption
    | with_reducible apply vlanWrite_frame
    | with_reducible apply commandWrite_frame
    | with_reducible apply ite_frame
    | split

theorem execVlanRead_lasting {value : Word} {s s' : State} (e : execVlanRead value s = .next s') : Lasting s s' := by
  unfold execVlanRead at e
  refine finish_lasting ?_ e
  repeat' first
    | with_reducible exact Frame.rfl'
    | decide
    | intro _
    | with_reducible assumption
    | with_reducible apply vlanRead_frame
    | with_reducible apply commandWrite_frame
    | with_reducible apply ite_frame
    | split

theorem execPortFrameStart_lasting {port : Fin 512} {read : SramRead} {s s' : State} (e : execPortFrameStart port read s = .next s') : Lasting s s' := by
  unfold execPortFrameStart at e
  refine finish_lasting ?_ e
  repeat' first
    | with_reducible exact Frame.rfl'
    | decide
    | intro _
    | with_reducible assumption
    | with_reducible apply frameStart_frame
    | with_reducible apply ite_frame
    | split

theorem execPause_lasting {port : Fin 512} {t : BitVec 16} {s s' : State} (e : execPause port t s = .next s') : Lasting s s' := by
  unfold execPause at e
  refine finish_lasting ?_ e
  repeat' first
    | with_reducible exact Frame.rfl'
    | decide
    | intro _
    | with_reducible assumption
    | with_reducible apply pauseRx_frame
    | with_reducible apply ite_frame
    | split

theorem execPfc_lasting {port : Fin 512} {enable : BitVec 8} {times : List (BitVec 16)} {s s' : State} (e : execPfc port enable times s = .next s') : Lasting s s' := by
  unfold execPfc at e
  split at e
  rotate_left
  · exact absurd e (by simp)
  refine finish_lasting ?_ e
  repeat' first
    | with_reducible exact Frame.rfl'
    | decide
    | intro _
    | with_reducible assumption
    | with_reducible apply pfcRx_frame
    | with_reducible apply ite_frame
    | split

theorem execPauseExpiry_lasting {port : Fin 512} {pri : Option (Fin 8)} {s s' : State} (e : execPauseExpiry port pri s = .next s') : Lasting s s' := by
  unfold execPauseExpiry at e
  refine finish_lasting ?_ e
  repeat' first
    | with_reducible exact Frame.rfl'
    | decide
    | intro _
    | with_reducible assumption
    | with_reducible apply pauseExpiry_frame
    | with_reducible apply ite_frame
    | split

theorem execLanePauseDrop_lasting {port : Fin 512} {s s' : State} (e : execLanePauseDrop port s = .next s') : Lasting s s' := by
  unfold execLanePauseDrop at e
  refine finish_lasting ?_ e
  repeat' first
    | with_reducible exact Frame.rfl'
    | decide
    | intro _
    | with_reducible assumption
    | with_reducible apply lanePauseDrop_frame
    | with_reducible apply ite_frame
    | split

theorem execGateCommit_lasting {port : Fin 512} {value : Word} {s s' : State} (e : execGateCommit port value s = .next s') : Lasting s s' := by
  unfold execGateCommit at e
  refine finish_lasting ?_ e
  repeat' first
    | with_reducible exact Frame.rfl'
    | decide
    | intro _
    | with_reducible assumption
    | with_reducible apply gateCommit_frame
    | with_reducible apply commandWrite_frame
    | with_reducible apply ite_frame
    | split

theorem execGateListStart_lasting {port : Fin 512} {s s' : State} (e : execGateListStart port s = .next s') : Lasting s s' := by
  unfold execGateListStart at e
  refine finish_lasting ?_ e
  repeat' first
    | with_reducible exact Frame.rfl'
    | decide
    | intro _
    | with_reducible assumption
    | with_reducible apply gateListStart_frame
    | with_reducible apply ite_frame
    | split

theorem execGclWrite_lasting {value : Word} {s s' : State} (e : execGclWrite value s = .next s') : Lasting s s' := by
  unfold execGclWrite at e
  refine finish_lasting ?_ e
  repeat' first
    | with_reducible exact Frame.rfl'
    | decide
    | intro _
    | with_reducible assumption
    | with_reducible apply gclWrite_frame
    | with_reducible apply commandWrite_frame
    | with_reducible apply ite_frame
    | split

theorem execGclRead_lasting {value : Word} {s s' : State} (e : execGclRead value s = .next s') : Lasting s s' := by
  unfold execGclRead at e
  refine finish_lasting ?_ e
  repeat' first
    | with_reducible exact Frame.rfl'
    | decide
    | intro _
    | with_reducible assumption
    | with_reducible apply gclRead_frame
    | with_reducible apply commandWrite_frame
    | with_reducible apply ite_frame
    | split

theorem execPolicerWrite_lasting {value : Word} {s s' : State} (e : execPolicerWrite value s = .next s') : Lasting s s' := by
  unfold execPolicerWrite at e
  refine finish_lasting ?_ e
  repeat' first
    | with_reducible exact Frame.rfl'
    | decide
    | intro _
    | with_reducible assumption
    | with_reducible apply policerWrite_frame
    | with_reducible apply commandWrite_frame
    | with_reducible apply ite_frame
    | split

theorem execPolicerRead_lasting {value : Word} {s s' : State} (e : execPolicerRead value s = .next s') : Lasting s s' := by
  unfold execPolicerRead at e
  refine finish_lasting ?_ e
  repeat' first
    | with_reducible exact Frame.rfl'
    | decide
    | intro _
    | with_reducible assumption
    | with_reducible apply policerRead_frame
    | with_reducible apply commandWrite_frame
    | with_reducible apply ite_frame
    | split

theorem execPolicerReadClear_lasting {value : Word} {s s' : State} (e : execPolicerReadClear value s = .next s') : Lasting s s' := by
  unfold execPolicerReadClear at e
  refine finish_lasting ?_ e
  repeat' first
    | with_reducible exact Frame.rfl'
    | decide
    | intro _
    | with_reducible assumption
    | with_reducible apply policerReadClear_frame
    | with_reducible apply commandWrite_frame
    | with_reducible apply ite_frame
    | split

theorem execTubTake_lasting {agent : BitVec 6} {len : BitVec 16} {known : Bool} {s s' : State} (e : execTubTake agent len known s = .next s') : Lasting s s' := by
  unfold execTubTake at e
  refine finish_lasting ?_ e
  repeat' first
    | with_reducible exact Frame.rfl'
    | decide
    | intro _
    | with_reducible assumption
    | with_reducible apply askTake_frame
    | with_reducible apply ite_frame
    | split

theorem execTubFree_lasting {agent : BitVec 6} {handle : Word} {chain : Bool} {s s' : State} (e : execTubFree agent handle chain s = .next s') : Lasting s s' := by
  unfold execTubFree at e
  refine finish_lasting ?_ e
  repeat' first
    | with_reducible exact Frame.rfl'
    | decide
    | intro _
    | with_reducible assumption
    | with_reducible apply askFree_frame
    | with_reducible apply ite_frame
    | split

theorem execTubHandOver_lasting {handle : Word} {agent : BitVec 6} {s s' : State} (e : execTubHandOver handle agent s = .next s') : Lasting s s' := by
  unfold execTubHandOver at e
  refine finish_lasting ?_ e
  repeat' first
    | with_reducible exact Frame.rfl'
    | decide
    | intro _
    | with_reducible assumption
    | with_reducible apply tubHandOver_frame
    | with_reducible apply ite_frame
    | split

theorem execRingPost_lasting {ring : Fin 8} {handle : Word} {s s' : State} (e : execRingPost ring handle s = .next s') : Lasting s s' := by
  unfold execRingPost at e
  refine finish_lasting ?_ e
  repeat' first
    | with_reducible exact Frame.rfl'
    | decide
    | intro _
    | with_reducible assumption
    | with_reducible apply ringPost_frame
    | with_reducible apply ite_frame
    | split

theorem execRingFill_lasting {ring : Fin 8} {producer : BitVec 6} {frame : Bytes} {s s' : State} (e : execRingFill ring producer frame s = .next s') : Lasting s s' := by
  unfold execRingFill at e
  refine finish_lasting ?_ e
  repeat' first
    | with_reducible exact Frame.rfl'
    | decide
    | intro _
    | with_reducible assumption
    | with_reducible apply ringFill_frame
    | with_reducible apply ite_frame
    | split

theorem execSpill_lasting {queue : QueueRef} {s s' : State} (e : execSpill queue s = .next s') : Lasting s s' := by
  unfold execSpill at e
  refine finish_lasting ?_ e
  repeat' first
    | with_reducible exact Frame.rfl'
    | decide
    | intro _
    | with_reducible assumption
    | with_reducible apply spill_frame
    | with_reducible apply ite_frame
    | split

theorem execRefill_lasting {queue : QueueRef} {s s' : State} (e : execRefill queue s = .next s') : Lasting s s' := by
  unfold execRefill at e
  refine finish_lasting ?_ e
  repeat' first
    | with_reducible exact Frame.rfl'
    | decide
    | intro _
    | with_reducible assumption
    | with_reducible apply refill_frame
    | with_reducible apply ite_frame
    | split

theorem execWndDoorbell_lasting {channel : Fin 64} {writes : List (BitVec 64 × BitVec 64)} {s s' : State} (e : execWndDoorbell channel writes s = .next s') : Lasting s s' := by
  unfold execWndDoorbell at e
  refine finish_lasting ?_ e
  repeat' first
    | with_reducible exact Frame.rfl'
    | decide
    | intro _
    | with_reducible assumption
    | with_reducible apply commandWrite_frame
    | with_reducible apply wndDoorbell_frame
    | with_reducible apply ownerWrites_frame
    | with_reducible apply ite_frame
    | split

theorem execWndDescriptorFetch_lasting {channel : Fin 64} {s s' : State} (e : execWndDescriptorFetch channel s = .next s') : Lasting s s' := by
  unfold execWndDescriptorFetch at e
  refine finish_lasting ?_ e
  repeat' first
    | with_reducible exact Frame.rfl'
    | decide
    | intro _
    | with_reducible assumption
    | with_reducible apply wndFetch_frame
    | with_reducible apply ite_frame
    | split

theorem execWndDescriptorComplete_lasting {channel : Fin 64} {s s' : State} (e : execWndDescriptorComplete channel s = .next s') : Lasting s s' := by
  unfold execWndDescriptorComplete at e
  refine finish_lasting ?_ e
  repeat' first
    | with_reducible exact Frame.rfl'
    | decide
    | intro _
    | with_reducible assumption
    | with_reducible apply wndComplete_frame
    | with_reducible apply ite_frame
    | split

theorem execWndBurst_lasting {req : BitVec 32} {s s' : State} (e : execWndBurst req s = .next s') : Lasting s s' := by
  unfold execWndBurst at e
  refine finish_lasting ?_ e
  repeat' first
    | with_reducible exact Frame.rfl'
    | decide
    | intro _
    | with_reducible assumption
    | with_reducible apply wndBurst_frame
    | with_reducible apply ite_frame
    | split

theorem execEvWndError_lasting {channel : Fin 64} {sram : Bool} {s s' : State} (e : execEvWndError channel sram s = .next s') : Lasting s s' := by
  unfold execEvWndError at e
  refine finish_lasting ?_ e
  repeat' first
    | with_reducible exact Frame.rfl'
    | decide
    | intro _
    | with_reducible assumption
    | with_reducible apply wndError_frame
    | with_reducible apply ite_frame
    | split

theorem execWndChannelDisable_lasting {channel : Fin 64} {s s' : State} (e : execWndChannelDisable channel s = .next s') : Lasting s s' := by
  unfold execWndChannelDisable at e
  refine finish_lasting ?_ e
  repeat' first
    | with_reducible exact Frame.rfl'
    | decide
    | intro _
    | with_reducible assumption
    | with_reducible apply wndDisable_frame
    | with_reducible apply commandWrite_frame
    | with_reducible apply ite_frame
    | split

theorem execPortModeWrite_lasting {port : Fin 512} {value : Word} {s s' : State} (e : execPortModeWrite port value s = .next s') : Lasting s s' := by
  unfold execPortModeWrite at e
  refine finish_lasting ?_ e
  repeat' first
    | with_reducible exact Frame.rfl'
    | decide
    | intro _
    | with_reducible assumption
    | with_reducible apply portModeWrite_frame
    | with_reducible apply commandWrite_frame
    | with_reducible apply ite_frame
    | split

theorem execMacRxFrame_lasting {port : Fin 512} {frame : Option Bytes} {codeErr : Bool} {fecCorr fecUncorr : Nat} {s s' : State} (e : execMacRxFrame port frame codeErr fecCorr fecUncorr s = .next s') : Lasting s s' := by
  unfold execMacRxFrame at e
  refine finish_lasting ?_ e
  repeat' first
    | with_reducible exact Frame.rfl'
    | decide
    | intro _
    | with_reducible assumption
    | with_reducible apply macRxFrame_frame
    | with_reducible apply ite_frame
    | split

theorem execLinkUp_lasting {port : Fin 512} {s s' : State} (e : execLinkUp port s = .next s') : Lasting s s' := by
  unfold execLinkUp at e
  refine finish_lasting ?_ e
  repeat' first
    | with_reducible exact Frame.rfl'
    | decide
    | intro _
    | with_reducible assumption
    | with_reducible apply linkUp_frame
    | with_reducible apply ite_frame
    | split

theorem execLinkDown_lasting {port : Fin 512} {s s' : State} (e : execLinkDown port s = .next s') : Lasting s s' := by
  unfold execLinkDown at e
  refine finish_lasting ?_ e
  repeat' first
    | with_reducible exact Frame.rfl'
    | decide
    | intro _
    | with_reducible assumption
    | with_reducible apply linkDown_frame
    | with_reducible apply ite_frame
    | split

theorem execLpiEnter_lasting {port : Fin 512} {s s' : State} (e : execLpiEnter port s = .next s') : Lasting s s' := by
  unfold execLpiEnter at e
  refine finish_lasting ?_ e
  repeat' first
    | with_reducible exact Frame.rfl'
    | decide
    | intro _
    | with_reducible assumption
    | with_reducible apply lpiEnter_frame
    | with_reducible apply ite_frame
    | split

theorem execLpiExit_lasting {port : Fin 512} {s s' : State} (e : execLpiExit port s = .next s') : Lasting s s' := by
  unfold execLpiExit at e
  refine finish_lasting ?_ e
  repeat' first
    | with_reducible exact Frame.rfl'
    | decide
    | intro _
    | with_reducible assumption
    | with_reducible apply lpiLeave_frame
    | with_reducible apply ite_frame
    | split

theorem execLldpSend_lasting {port : Fin 512} {s s' : State} (e : execLldpSend port s = .next s') : Lasting s s' := by
  unfold execLldpSend at e
  refine finish_lasting ?_ e
  repeat' first
    | with_reducible exact Frame.rfl'
    | decide
    | intro _
    | with_reducible assumption
    | with_reducible apply lldpSend_frame
    | with_reducible apply ite_frame
    | split

theorem execLldpReceive_lasting {port : Fin 512} {rxTw : Option (BitVec 16)} {s s' : State} (e : execLldpReceive port rxTw s = .next s') : Lasting s s' := by
  unfold execLldpReceive at e
  refine finish_lasting ?_ e
  repeat' first
    | with_reducible exact Frame.rfl'
    | decide
    | intro _
    | with_reducible assumption
    | with_reducible apply lldpReceive_frame
    | with_reducible apply ite_frame
    | split

theorem execLldpTtlExpiry_lasting {port : Fin 512} {s s' : State} (e : execLldpTtlExpiry port s = .next s') : Lasting s s' := by
  unfold execLldpTtlExpiry at e
  refine finish_lasting ?_ e
  repeat' first
    | with_reducible exact Frame.rfl'
    | decide
    | intro _
    | with_reducible assumption
    | with_reducible apply loseEee_frame
    | with_reducible apply ite_frame
    | split

theorem execMdioAddress_lasting {bus : Fin 8} {start : Option MdioStart} {s s' : State} (e : execMdioAddress bus start s = .next s') : Lasting s s' := by
  unfold execMdioAddress at e
  refine finish_lasting ?_ e
  repeat' first
    | with_reducible exact Frame.rfl'
    | decide
    | intro _
    | with_reducible assumption
    | with_reducible apply mdioRow_frame
    | with_reducible apply ite_frame
    | split

theorem execMdioWrite_lasting {bus : Fin 8} {start : Option MdioStart} {s s' : State} (e : execMdioWrite bus start s = .next s') : Lasting s s' := by
  unfold execMdioWrite at e
  refine finish_lasting ?_ e
  repeat' first
    | with_reducible exact Frame.rfl'
    | decide
    | intro _
    | with_reducible assumption
    | with_reducible apply mdioRow_frame
    | with_reducible apply ite_frame
    | split

theorem execMdioRead_lasting {bus : Fin 8} {start : Option MdioStart} {answer : Option (BitVec 16)} {s s' : State} (e : execMdioRead bus start answer s = .next s') : Lasting s s' := by
  unfold execMdioRead at e
  refine finish_lasting ?_ e
  repeat' first
    | with_reducible exact Frame.rfl'
    | decide
    | intro _
    | with_reducible assumption
    | with_reducible apply mdioRow_frame
    | with_reducible apply answer_frame
    | with_reducible apply ite_frame
    | split

theorem execMdioReadIncrement_lasting {bus : Fin 8} {start : Option MdioStart} {answer : Option (BitVec 16)} {s s' : State} (e : execMdioReadIncrement bus start answer s = .next s') : Lasting s s' := by
  unfold execMdioReadIncrement at e
  refine finish_lasting ?_ e
  repeat' first
    | with_reducible exact Frame.rfl'
    | decide
    | intro _
    | with_reducible assumption
    | with_reducible apply mdioRow_frame
    | with_reducible apply answer_frame
    | with_reducible apply ite_frame
    | split

theorem execMdioAddressWrite_lasting {bus : Fin 8} {start : Option MdioStart} {s s' : State} (e : execMdioAddressWrite bus start s = .next s') : Lasting s s' := by
  unfold execMdioAddressWrite at e
  refine finish_lasting ?_ e
  repeat' first
    | with_reducible exact Frame.rfl'
    | decide
    | intro _
    | with_reducible assumption
    | with_reducible apply mdioRow_frame
    | with_reducible apply ite_frame
    | split

theorem execMdioAddressRead_lasting {bus : Fin 8} {start : Option MdioStart} {answer : Option (BitVec 16)} {s s' : State} (e : execMdioAddressRead bus start answer s = .next s') : Lasting s s' := by
  unfold execMdioAddressRead at e
  refine finish_lasting ?_ e
  repeat' first
    | with_reducible exact Frame.rfl'
    | decide
    | intro _
    | with_reducible assumption
    | with_reducible apply mdioRow_frame
    | with_reducible apply answer_frame
    | with_reducible apply ite_frame
    | split

theorem execPartnerLpi_lasting {port : Fin 512} {enter : Bool} {s s' : State} (e : execPartnerLpi port enter s = .next s') : Lasting s s' := by
  unfold execPartnerLpi at e
  refine finish_lasting ?_ e
  repeat' first
    | with_reducible exact Frame.rfl'
    | decide
    | intro _
    | with_reducible assumption
    | with_reducible apply partnerLpi_frame
    | with_reducible apply ite_frame
    | split

theorem execLocalFault_lasting {port : Fin 512} {remote present : Bool} {s s' : State} (e : execLocalFault port remote present s = .next s') : Lasting s s' := by
  unfold execLocalFault at e
  refine finish_lasting ?_ e
  repeat' first
    | with_reducible exact Frame.rfl'
    | decide
    | intro _
    | with_reducible assumption
    | with_reducible apply localFault_frame
    | with_reducible apply ite_frame
    | split

theorem execLaneTrain_lasting {lane : Fin 532} {s s' : State} (e : execLaneTrain lane s = .next s') : Lasting s s' := by
  unfold execLaneTrain at e
  refine finish_lasting ?_ e
  repeat' first
    | with_reducible exact Frame.rfl'
    | decide
    | intro _
    | with_reducible assumption
    | with_reducible apply laneTrain_frame
    | with_reducible apply ite_frame
    | split

theorem execRetrainWindow_lasting  {s s' : State} (e : execRetrainWindow s = .next s') : Lasting s s' := by
  unfold execRetrainWindow at e
  refine finish_lasting ?_ e
  repeat' first
    | with_reducible exact Frame.rfl'
    | decide
    | intro _
    | with_reducible assumption
    | with_reducible apply retrainWindow_frame
    | with_reducible apply ite_frame
    | split

theorem execLaneWake_lasting {lane : Fin 532} {energy : Bool} {s s' : State} (e : execLaneWake lane energy s = .next s') : Lasting s s' := by
  unfold execLaneWake at e
  refine finish_lasting ?_ e
  repeat' first
    | with_reducible exact Frame.rfl'
    | decide
    | intro _
    | with_reducible assumption
    | with_reducible apply laneWake_frame
    | with_reducible apply ite_frame
    | split

theorem execLaneNoEnergy_lasting {lane : Fin 532} {wake : Bool} {s s' : State} (e : execLaneNoEnergy lane wake s = .next s') : Lasting s s' := by
  unfold execLaneNoEnergy at e
  refine finish_lasting ?_ e
  repeat' first
    | with_reducible exact Frame.rfl'
    | decide
    | intro _
    | with_reducible assumption
    | with_reducible apply laneNoEnergy_frame
    | with_reducible apply ite_frame
    | split

theorem execSlip_lasting {lane : Fin 532} {value : Word} {s s' : State} (e : execSlip lane value s = .next s') : Lasting s s' := by
  unfold execSlip at e
  refine finish_lasting ?_ e
  repeat' first
    | with_reducible exact Frame.rfl'
    | decide
    | intro _
    | with_reducible assumption
    | with_reducible apply slip_frame
    | with_reducible apply commandWrite_frame
    | with_reducible apply ite_frame
    | split

theorem execEyeScanStart_lasting {lane : Fin 532} {value : Word} {s s' : State} (e : execEyeScanStart lane value s = .next s') : Lasting s s' := by
  unfold execEyeScanStart at e
  refine finish_lasting ?_ e
  repeat' first
    | with_reducible exact Frame.rfl'
    | decide
    | intro _
    | with_reducible assumption
    | with_reducible apply eyeScanStart_frame
    | with_reducible apply commandWrite_frame
    | with_reducible apply ite_frame
    | split

theorem execEyeScanDone_lasting {lane : Fin 532} {errors : Nat} {s s' : State} (e : execEyeScanDone lane errors s = .next s') : Lasting s s' := by
  unfold execEyeScanDone at e
  refine finish_lasting ?_ e
  repeat' first
    | with_reducible exact Frame.rfl'
    | decide
    | intro _
    | with_reducible assumption
    | with_reducible apply eyeScanDone_frame
    | with_reducible apply ite_frame
    | split

theorem execLaneCfgWrite_lasting {lane : Fin 532} {value : Word} {s s' : State} (e : execLaneCfgWrite lane value s = .next s') : Lasting s s' := by
  unfold execLaneCfgWrite at e
  refine finish_lasting ?_ e
  repeat' first
    | with_reducible exact Frame.rfl'
    | decide
    | intro _
    | with_reducible assumption
    | with_reducible apply laneCfgWrite_frame
    | with_reducible apply commandWrite_frame
    | with_reducible apply ite_frame
    | split

theorem execReceiverDetect_lasting {lane : Fin 532} {found : Bool} {s s' : State} (e : execReceiverDetect lane found s = .next s') : Lasting s s' := by
  unfold execReceiverDetect at e
  refine finish_lasting ?_ e
  repeat' first
    | with_reducible exact Frame.rfl'
    | decide
    | intro _
    | with_reducible assumption
    | with_reducible apply receiverDetect_frame
    | with_reducible apply ite_frame
    | split

theorem execEvLaneShort_lasting {lane : Fin 532} {s s' : State} (e : execEvLaneShort lane s = .next s') : Lasting s s' := by
  unfold execEvLaneShort at e
  refine finish_lasting ?_ e
  repeat' first
    | with_reducible exact Frame.rfl'
    | decide
    | intro _
    | with_reducible assumption
    | with_reducible apply laneShort_frame
    | with_reducible apply ite_frame
    | split

theorem execShortRetry_lasting {lane : Fin 532} {limited : Bool} {s s' : State} (e : execShortRetry lane limited s = .next s') : Lasting s s' := by
  unfold execShortRetry at e
  refine finish_lasting ?_ e
  repeat' first
    | with_reducible exact Frame.rfl'
    | decide
    | intro _
    | with_reducible assumption
    | with_reducible apply shortRetry_frame
    | with_reducible apply ite_frame
    | split

theorem execLaneRetire_lasting {lane : Fin 532} {declared : Bool} {s s' : State} (e : execLaneRetire lane declared s = .next s') : Lasting s s' := by
  unfold execLaneRetire at e
  refine finish_lasting ?_ e
  repeat' first
    | with_reducible exact Frame.rfl'
    | decide
    | intro _
    | with_reducible assumption
    | with_reducible apply commandWrite_frame
    | with_reducible apply laneRetire_frame
    | with_reducible apply ite_frame
    | split

theorem execLaneUnretire_lasting {lane : Fin 532} {s s' : State} (e : execLaneUnretire lane s = .next s') : Lasting s s' := by
  unfold execLaneUnretire at e
  refine finish_lasting ?_ e
  repeat' first
    | with_reducible exact Frame.rfl'
    | decide
    | intro _
    | with_reducible assumption
    | with_reducible apply laneUnretire_frame
    | with_reducible apply commandWrite_frame
    | with_reducible apply ite_frame
    | split

theorem execPrbsCheckerLock_lasting {lane : Fin 532} {bits errors : Nat} {s s' : State} (e : execPrbsCheckerLock lane bits errors s = .next s') : Lasting s s' := by
  unfold execPrbsCheckerLock at e
  refine finish_lasting ?_ e
  repeat' first
    | with_reducible exact Frame.rfl'
    | decide
    | intro _
    | with_reducible assumption
    | with_reducible apply prbsLockOn_frame
    | with_reducible apply ite_frame
    | split

theorem execPrbsCheckerLockLoss_lasting {lane : Fin 532} {bits errors : Nat} {s s' : State} (e : execPrbsCheckerLockLoss lane bits errors s = .next s') : Lasting s s' := by
  unfold execPrbsCheckerLockLoss at e
  refine finish_lasting ?_ e
  repeat' first
    | with_reducible exact Frame.rfl'
    | decide
    | intro _
    | with_reducible assumption
    | with_reducible apply prbsLockLoss_frame
    | with_reducible apply ite_frame
    | split

theorem execTimeIncWrite_lasting {src : Source} {value : Word} {s s' : State} (e : execTimeIncWrite src value s = .next s') : Lasting s s' := by
  unfold execTimeIncWrite at e
  refine finish_lasting ?_ e
  repeat' first
    | with_reducible exact Frame.rfl'
    | decide
    | intro _
    | with_reducible assumption
    | with_reducible apply timeIncWrite_frame
    | with_reducible apply commandWrite_frame
    | with_reducible apply ite_frame
    | split

theorem execOwnerChange_lasting {src : Source} {value : Word} {s s' : State} (e : execOwnerChange src value s = .next s') : Lasting s s' := by
  unfold execOwnerChange at e
  refine finish_lasting ?_ e
  repeat' first
    | with_reducible exact Frame.rfl'
    | decide
    | intro _
    | with_reducible assumption
    | with_reducible apply ownerChange_frame
    | with_reducible apply commandWrite_frame
    | with_reducible apply ite_frame
    | split

theorem execTimeNowRead_lasting {src : Source} {s s' : State} (e : execTimeNowRead src s = .next s') : Lasting s s' := by
  unfold execTimeNowRead at e
  refine finish_lasting ?_ e
  repeat' first
    | with_reducible exact Frame.rfl'
    | decide
    | intro _
    | with_reducible assumption
    | with_reducible apply access_frame
    | with_reducible apply ite_frame
    | split

theorem execTimeAdj_lasting {src : Source} {value : Word} {s s' : State} (e : execTimeAdj src value s = .next s') : Lasting s s' := by
  unfold execTimeAdj at e
  refine finish_lasting ?_ e
  repeat' first
    | with_reducible exact Frame.rfl'
    | decide
    | intro _
    | with_reducible assumption
    | with_reducible apply timeAdj_frame
    | with_reducible apply commandWrite_frame
    | with_reducible apply ite_frame
    | split

theorem execHoldoverEnter_lasting  {s s' : State} (e : execHoldoverEnter s = .next s') : Lasting s s' := by
  unfold execHoldoverEnter at e
  refine finish_lasting ?_ e
  repeat' first
    | with_reducible exact Frame.rfl'
    | decide
    | intro _
    | with_reducible assumption
    | with_reducible apply holdover_frame
    | with_reducible apply ite_frame
    | split

theorem execPtpMessage_lasting {port : Fin 512} {m : PtpMessage} {s s' : State} (e : execPtpMessage port m s = .next s') : Lasting s s' := by
  unfold execPtpMessage at e
  refine finish_lasting ?_ e
  repeat' first
    | with_reducible exact Frame.rfl'
    | decide
    | intro _
    | with_reducible assumption
    | with_reducible apply ptpMessage_frame
    | with_reducible apply ite_frame
    | split

theorem execPpsInEdge_lasting {rising : Bool} {s s' : State} (e : execPpsInEdge rising s = .next s') : Lasting s s' := by
  unfold execPpsInEdge at e
  refine finish_lasting ?_ e
  repeat' first
    | with_reducible exact Frame.rfl'
    | decide
    | intro _
    | with_reducible assumption
    | with_reducible apply ppsInEdge_frame
    | with_reducible apply ite_frame
    | split

theorem execPpsOutPulse_lasting {rise : Bool} {s s' : State} (e : execPpsOutPulse rise s = .next s') : Lasting s s' := by
  unfold execPpsOutPulse at e
  refine finish_lasting ?_ e
  repeat' first
    | with_reducible exact Frame.rfl'
    | decide
    | intro _
    | with_reducible assumption
    | with_reducible apply ppsOutPulse_frame
    | with_reducible apply ite_frame
    | split

theorem execCanaryRun_lasting  {s s' : State} (e : execCanaryRun s = .next s') : Lasting s s' := by
  unfold execCanaryRun at e
  refine finish_lasting ?_ e
  repeat' first
    | with_reducible exact Frame.rfl'
    | decide
    | intro _
    | with_reducible assumption
    | with_reducible apply canaryRun_frame
    | with_reducible apply ite_frame
    | split

theorem execEvCanary_lasting {optic : CanaryOptic} {s s' : State} (e : execEvCanary optic s = .next s') : Lasting s s' := by
  unfold execEvCanary at e
  refine finish_lasting ?_ e
  repeat' first
    | with_reducible exact Frame.rfl'
    | decide
    | intro _
    | with_reducible assumption
    | with_reducible apply canaryDone_frame
    | with_reducible apply ite_frame
    | split

theorem execCanaryAbort_lasting  {s s' : State} (e : execCanaryAbort s = .next s') : Lasting s s' := by
  unfold execCanaryAbort at e
  refine finish_lasting ?_ e
  repeat' first
    | with_reducible exact Frame.rfl'
    | decide
    | intro _
    | with_reducible assumption
    | with_reducible apply canaryAbort_frame
    | with_reducible apply ite_frame
    | split

theorem execSeamEligible_lasting {seam : Fin 4} {s s' : State} (e : execSeamEligible seam s = .next s') : Lasting s s' := by
  unfold execSeamEligible at e
  refine finish_lasting ?_ e
  repeat' first
    | with_reducible exact Frame.rfl'
    | decide
    | intro _
    | with_reducible assumption
    | with_reducible apply seamEligible_frame
    | with_reducible apply ite_frame
    | split

theorem execSideFailed_lasting  {s s' : State} (e : execSideFailed s = .next s') : Lasting s s' := by
  unfold execSideFailed at e
  refine finish_lasting ?_ e
  repeat' first
    | with_reducible exact Frame.rfl'
    | decide
    | intro _
    | with_reducible assumption
    | with_reducible apply sideFails_frame
    | with_reducible apply ite_frame
    | split

theorem execManual_lasting  {s s' : State} (e : execManual s = .next s') : Lasting s s' := by
  unfold execManual at e
  refine finish_lasting ?_ e
  repeat' first
    | with_reducible exact Frame.rfl'
    | decide
    | intro _
    | with_reducible assumption
    | with_reducible apply protCommand_frame
    | with_reducible apply commandWrite_frame
    | with_reducible apply ite_frame
    | split

theorem execForced_lasting  {s s' : State} (e : execForced s = .next s') : Lasting s s' := by
  unfold execForced at e
  refine finish_lasting ?_ e
  repeat' first
    | with_reducible exact Frame.rfl'
    | decide
    | intro _
    | with_reducible assumption
    | with_reducible apply protCommand_frame
    | with_reducible apply commandWrite_frame
    | with_reducible apply ite_frame
    | split

theorem execLockout_lasting  {s s' : State} (e : execLockout s = .next s') : Lasting s s' := by
  unfold execLockout at e
  refine finish_lasting ?_ e
  repeat' first
    | with_reducible exact Frame.rfl'
    | decide
    | intro _
    | with_reducible assumption
    | with_reducible apply protCommand_frame
    | with_reducible apply commandWrite_frame
    | with_reducible apply ite_frame
    | split

theorem execClear_lasting  {s s' : State} (e : execClear s = .next s') : Lasting s s' := by
  unfold execClear at e
  refine finish_lasting ?_ e
  repeat' first
    | with_reducible exact Frame.rfl'
    | decide
    | intro _
    | with_reducible assumption
    | with_reducible apply protCommand_frame
    | with_reducible apply commandWrite_frame
    | with_reducible apply ite_frame
    | split

theorem execProtectionSwitch_lasting  {s s' : State} (e : execProtectionSwitch s = .next s') : Lasting s s' := by
  unfold execProtectionSwitch at e
  refine finish_lasting ?_ e
  repeat' first
    | with_reducible exact Frame.rfl'
    | decide
    | intro _
    | with_reducible assumption
    | with_reducible apply protSwitch_frame
    | with_reducible apply ite_frame
    | split

theorem execEvProtSwitch_lasting  {s s' : State} (e : execEvProtSwitch s = .next s') : Lasting s s' := by
  unfold execEvProtSwitch at e
  refine finish_lasting ?_ e
  repeat' first
    | with_reducible exact Frame.rfl'
    | decide
    | intro _
    | with_reducible assumption
    | with_reducible apply switchDone_frame
    | with_reducible apply ite_frame
    | split

theorem execEvProtSwitchFail_lasting  {s s' : State} (e : execEvProtSwitchFail s = .next s') : Lasting s s' := by
  unfold execEvProtSwitchFail at e
  refine finish_lasting ?_ e
  repeat' first
    | with_reducible exact Frame.rfl'
    | decide
    | intro _
    | with_reducible assumption
    | with_reducible apply switchFail_frame
    | with_reducible apply ite_frame
    | split

theorem execWaitToRestoreExpiry_lasting  {s s' : State} (e : execWaitToRestoreExpiry s = .next s') : Lasting s s' := by
  unfold execWaitToRestoreExpiry at e
  refine finish_lasting ?_ e
  repeat' first
    | with_reducible exact Frame.rfl'
    | decide
    | intro _
    | with_reducible assumption
    | with_reducible apply wtrExpiry_frame
    | with_reducible apply ite_frame
    | split

theorem execOprootCommit_lasting  {s s' : State} (e : execOprootCommit s = .next s') : Lasting s s' := by
  unfold execOprootCommit at e
  refine finish_lasting ?_ e
  repeat' first
    | with_reducible exact Frame.rfl'
    | decide
    | intro _
    | with_reducible assumption
    | with_reducible apply oprootCommit_frame
    | with_reducible apply commandWrite_frame
    | with_reducible apply ite_frame
    | split

theorem execKeyDerived_lasting  {s s' : State} (e : execKeyDerived s = .next s') : Lasting s s' := by
  unfold execKeyDerived at e
  refine finish_lasting ?_ e
  repeat' first
    | with_reducible exact Frame.rfl'
    | decide
    | intro _
    | with_reducible assumption
    | with_reducible apply keyDerived_frame
    | with_reducible apply ite_frame
    | split

theorem execKeyRetire_lasting {ident : Fin 128} {s s' : State} (e : execKeyRetire ident s = .next s') : Lasting s s' := by
  unfold execKeyRetire at e
  refine finish_lasting ?_ e
  repeat' first
    | with_reducible exact Frame.rfl'
    | decide
    | intro _
    | with_reducible assumption
    | with_reducible apply keyRetire_frame
    | with_reducible apply ite_frame
    | split

theorem execUnwrap_lasting {value : Word} {keepFails : Bool} {s s' : State} (e : execUnwrap value keepFails s = .next s') : Lasting s s' := by
  unfold execUnwrap at e
  refine finish_lasting ?_ e
  repeat' first
    | with_reducible exact Frame.rfl'
    | decide
    | intro _
    | with_reducible assumption
    | with_reducible apply unwrapKey_frame
    | with_reducible apply commandWrite_frame
    | with_reducible apply ite_frame
    | split

theorem execErase_lasting {value : Word} {s s' : State} (e : execErase value s = .next s') : Lasting s s' := by
  unfold execErase at e
  refine finish_lasting ?_ e
  repeat' first
    | with_reducible exact Frame.rfl'
    | decide
    | intro _
    | with_reducible assumption
    | with_reducible apply eraseKey_frame
    | with_reducible apply commandWrite_frame
    | with_reducible apply ite_frame
    | split

theorem execRekey_lasting  {s s' : State} (e : execRekey s = .next s') : Lasting s s' := by
  unfold execRekey at e
  refine finish_lasting ?_ e
  repeat' first
    | with_reducible exact Frame.rfl'
    | decide
    | intro _
    | with_reducible assumption
    | with_reducible apply rekey_frame
    | with_reducible apply commandWrite_frame
    | with_reducible apply ite_frame
    | split

theorem execLadderEntry_lasting  {s s' : State} (e : execLadderEntry s = .next s') : Lasting s s' := by
  unfold execLadderEntry at e
  refine finish_lasting ?_ e
  repeat' first
    | with_reducible exact Frame.rfl'
    | decide
    | intro _
    | with_reducible assumption
    | with_reducible apply ladderEntry_frame
    | with_reducible apply ite_frame
    | split

theorem execLadderExit_lasting  {s s' : State} (e : execLadderExit s = .next s') : Lasting s s' := by
  unfold execLadderExit at e
  refine finish_lasting ?_ e
  repeat' first
    | with_reducible exact Frame.rfl'
    | decide
    | intro _
    | with_reducible assumption
    | with_reducible apply ladderExit_frame
    | with_reducible apply ite_frame
    | split

theorem execWakeN_lasting  {s s' : State} (e : execWakeN s = .next s') : Lasting s s' := by
  unfold execWakeN at e
  refine finish_lasting ?_ e
  repeat' first
    | with_reducible exact Frame.rfl'
    | decide
    | intro _
    | with_reducible assumption
    | with_reducible apply wakeFires_frame
    | with_reducible apply ite_frame
    | split

theorem execWakeTimerExpiry_lasting  {s s' : State} (e : execWakeTimerExpiry s = .next s') : Lasting s s' := by
  unfold execWakeTimerExpiry at e
  refine finish_lasting ?_ e
  repeat' first
    | with_reducible exact Frame.rfl'
    | decide
    | intro _
    | with_reducible assumption
    | with_reducible apply wakeTimer_frame
    | with_reducible apply ite_frame
    | split

theorem execWake_lasting {source : Fin 8} {domain : Option (Fin 23)} {s s' : State} (e : execWake source domain s = .next s') : Lasting s s' := by
  unfold execWake at e
  refine finish_lasting ?_ e
  repeat' first
    | with_reducible exact Frame.rfl'
    | decide
    | intro _
    | with_reducible assumption
    | with_reducible apply wakeFires_frame
    | with_reducible apply ite_frame
    | split

theorem execDomainAccessWake_lasting {domain : Fin 23} {src : Source} {addr : Word} {write : Option Word} {s s' : State} (e : execDomainAccessWake domain src addr write s = .next s') : Lasting s s' := by
  unfold execDomainAccessWake at e
  refine finish_lasting ?_ e
  repeat' first
    | with_reducible exact Frame.rfl'
    | decide
    | intro _
    | with_reducible assumption
    | with_reducible apply accessToSleeper_frame
    | with_reducible apply ite_frame
    | split

theorem execEvPwrWakeFail_lasting {domain : Fin 23} {s s' : State} (e : execEvPwrWakeFail domain s = .next s') : Lasting s s' := by
  unfold execEvPwrWakeFail at e
  refine finish_lasting ?_ e
  repeat' first
    | with_reducible exact Frame.rfl'
    | decide
    | intro _
    | with_reducible assumption
    | with_reducible apply wakeFail_frame
    | with_reducible apply ite_frame
    | split

theorem execDomainDrop_lasting {domain : Fin 23} {votePlaced : Bool} {s s' : State} (e : execDomainDrop domain votePlaced s = .next s') : Lasting s s' := by
  unfold execDomainDrop at e
  refine finish_lasting ?_ e
  repeat' first
    | with_reducible exact Frame.rfl'
    | decide
    | intro _
    | with_reducible assumption
    | with_reducible apply domainDrop_frame
    | with_reducible apply ite_frame
    | split

theorem execHostVoteWrite_lasting {src : Source} {value : Word} {s s' : State} (e : execHostVoteWrite src value s = .next s') : Lasting s s' := by
  unfold execHostVoteWrite at e
  refine finish_lasting ?_ e
  repeat' first
    | with_reducible exact Frame.rfl'
    | decide
    | intro _
    | with_reducible assumption
    | with_reducible apply hostVoteWrite_frame
    | with_reducible apply commandWrite_frame
    | with_reducible apply ite_frame
    | split

theorem execL4Overtemp_lasting {caseTemp : Int} {s s' : State} (e : execL4Overtemp caseTemp s = .next s') : Lasting s s' := by
  unfold execL4Overtemp at e
  refine finish_lasting ?_ e
  repeat' first
    | with_reducible exact Frame.rfl'
    | decide
    | intro _
    | with_reducible assumption
    | with_reducible apply l4Overtemp_frame
    | with_reducible apply ite_frame
    | split

theorem execShedEnd_lasting  {s s' : State} (e : execShedEnd s = .next s') : Lasting s s' := by
  unfold execShedEnd at e
  refine finish_lasting ?_ e
  repeat' first
    | with_reducible exact Frame.rfl'
    | decide
    | intro _
    | with_reducible assumption
    | with_reducible apply shedEnd_frame
    | with_reducible apply ite_frame
    | split

theorem execEvFiredamp_lasting {first second : List Int} {s s' : State} (e : execEvFiredamp first second s = .next s') : Lasting s s' := by
  unfold execEvFiredamp at e
  split at e
  rotate_left
  · exact absurd e (by simp)
  refine finish_lasting ?_ e
  repeat' first
    | with_reducible exact Frame.rfl'
    | decide
    | intro _
    | with_reducible assumption
    | with_reducible apply firedampRow_frame
    | with_reducible apply ite_frame
    | split

theorem execFiredampClear_lasting {highest : Int} {s s' : State} (e : execFiredampClear highest s = .next s') : Lasting s s' := by
  unfold execFiredampClear at e
  refine finish_lasting ?_ e
  repeat' first
    | with_reducible exact Frame.rfl'
    | decide
    | intro _
    | with_reducible assumption
    | with_reducible apply firedampClearRow_frame
    | with_reducible apply ite_frame
    | split

theorem execPwWrite_lasting {src : Source} {addr value : Word} {s s' : State} (e : execPwWrite src addr value s = .next s') : Lasting s s' := by
  unfold execPwWrite at e
  refine finish_lasting ?_ e
  repeat' first
    | with_reducible exact Frame.rfl'
    | decide
    | intro _
    | with_reducible assumption
    | with_reducible apply misalignedAccess_frame
    | with_reducible apply access_frame
    | with_reducible apply ite_frame
    | split

theorem execKeepMount_lasting {torn : List (Fin 2 × Fin 4096)} {tornRecord : Bool} {s s' : State} (e : execKeepMount torn tornRecord s = .next s') : Lasting s s' := by
  unfold execKeepMount at e
  refine finish_lasting ?_ e
  repeat' first
    | with_reducible exact Frame.rfl'
    | decide
    | intro _
    | with_reducible assumption
    | with_reducible apply keepMount_frame
    | with_reducible apply ite_frame
    | split

theorem execScrub_lasting {die : Fin 2} {uncorrectable : Bool} {otherBad : Bool} {writePending : Bool} {s s' : State} (e : execScrub die uncorrectable otherBad writePending s = .next s') : Lasting s s' := by
  unfold execScrub at e
  refine finish_lasting ?_ e
  repeat' first
    | with_reducible exact Frame.rfl'
    | decide
    | intro _
    | with_reducible assumption
    | with_reducible apply scrub_frame
    | with_reducible apply writePending_frame
    | with_reducible apply ite_frame
    | split

theorem execEvKeepRemap_lasting {die : Fin 2} {unit : Fin 32768} {otherBad : Bool} {s s' : State} (e : execEvKeepRemap die unit otherBad s = .next s') : Lasting s s' := by
  unfold execEvKeepRemap at e
  refine finish_lasting ?_ e
  repeat' first
    | with_reducible exact Frame.rfl'
    | decide
    | intro _
    | with_reducible assumption
    | with_reducible apply remapUnit_frame
    | with_reducible apply ite_frame
    | split

theorem execRecordEvent_lasting {code : BitVec 16} {source : Fin 3} {payload : Bytes} {s s' : State} (e : execRecordEvent code source payload s = .next s') : Lasting s s' := by
  unfold execRecordEvent at e
  split at e
  rotate_left
  · exact absurd e (by simp)
  refine finish_lasting ?_ e
  repeat' first
    | with_reducible exact Frame.rfl'
    | decide
    | intro _
    | with_reducible assumption
    | with_reducible apply recordEvent_frame
    | with_reducible apply ite_frame
    | split

theorem execAssayRun_lasting {requested : Bool} {s s' : State} (e : execAssayRun requested s = .next s') : Lasting s s' := by
  unfold execAssayRun at e
  refine finish_lasting ?_ e
  repeat' first
    | with_reducible exact Frame.rfl'
    | decide
    | intro _
    | with_reducible assumption
    | with_reducible apply assayRun_frame
    | with_reducible apply ite_frame
    | split

theorem execEvAssayResult_lasting {m : AssayMeasure} {s s' : State} (e : execEvAssayResult m s = .next s') : Lasting s s' := by
  unfold execEvAssayResult at e
  refine finish_lasting ?_ e
  repeat' first
    | with_reducible exact Frame.rfl'
    | decide
    | intro _
    | with_reducible assumption
    | with_reducible apply assayResult_frame
    | with_reducible apply ite_frame
    | split

theorem execSlackSample_lasting {slack : Int} {s s' : State} (e : execSlackSample slack s = .next s') : Lasting s s' := by
  unfold execSlackSample at e
  refine finish_lasting ?_ e
  repeat' first
    | with_reducible exact Frame.rfl'
    | decide
    | intro _
    | with_reducible assumption
    | with_reducible apply slackSample_frame
    | with_reducible apply ite_frame
    | split

theorem execHourCount_lasting {caseTemp : Int} {s s' : State} (e : execHourCount caseTemp s = .next s') : Lasting s s' := by
  unfold execHourCount at e
  refine finish_lasting ?_ e
  repeat' first
    | with_reducible exact Frame.rfl'
    | decide
    | intro _
    | with_reducible assumption
    | with_reducible apply hourCount_frame
    | with_reducible apply ite_frame
    | split

theorem execFaultEvent_lasting {source : FaultSource} {inst : BitVec 16} {s s' : State} (e : execFaultEvent source inst s = .next s') : Lasting s s' := by
  unfold execFaultEvent at e
  refine finish_lasting ?_ e
  repeat' first
    | with_reducible exact Frame.rfl'
    | decide
    | intro _
    | with_reducible assumption
    | with_reducible apply faultEvent_frame
    | with_reducible apply ite_frame
    | split

theorem execBankRemap_lasting {bank : Fin 384} {s s' : State} (e : execBankRemap bank s = .next s') : Lasting s s' := by
  unfold execBankRemap at e
  refine finish_lasting ?_ e
  repeat' first
    | with_reducible exact Frame.rfl'
    | decide
    | intro _
    | with_reducible assumption
    | with_reducible apply bankRemap_frame
    | with_reducible apply ite_frame
    | split

theorem execChainFrameReceive_lasting {port : Fin 2} {frame : Bytes} {s s' : State} (e : execChainFrameReceive port frame s = .next s') : Lasting s s' := by
  unfold execChainFrameReceive at e
  refine finish_lasting ?_ e
  repeat' first
    | with_reducible exact Frame.rfl'
    | decide
    | intro _
    | with_reducible assumption
    | with_reducible apply chainFrameReceive_frame
    | with_reducible apply ite_frame
    | split

theorem execRead_lasting {src : Fin 64} {tag : BitVec 16} {addr : Word} {s s' : State} (e : execRead src tag addr s = .next s') : Lasting s s' := by
  unfold execRead at e
  refine finish_lasting ?_ e
  repeat' first
    | with_reducible exact Frame.rfl'
    | decide
    | intro _
    | with_reducible assumption
    | with_reducible apply chainRead_frame
    | with_reducible apply ite_frame
    | split

theorem execWrite_lasting {src : Fin 64} {tag : BitVec 16} {addr data : Word} {s s' : State} (e : execWrite src tag addr data s = .next s') : Lasting s s' := by
  unfold execWrite at e
  refine finish_lasting ?_ e
  repeat' first
    | with_reducible exact Frame.rfl'
    | decide
    | intro _
    | with_reducible assumption
    | with_reducible apply chainWriteReq_frame
    | with_reducible apply ite_frame
    | split

theorem execPosted_lasting {addr data : Word} {s s' : State} (e : execPosted addr data s = .next s') : Lasting s s' := by
  unfold execPosted at e
  refine finish_lasting ?_ e
  repeat' first
    | with_reducible exact Frame.rfl'
    | decide
    | intro _
    | with_reducible assumption
    | with_reducible apply chainPosted_frame
    | with_reducible apply ite_frame
    | split

theorem execReadResp_lasting {src : Fin 64} {tag : BitVec 16} {data : Word} {status : BitVec 8} {s s' : State} (e : execReadResp src tag data status s = .next s') : Lasting s s' := by
  unfold execReadResp at e
  refine finish_lasting ?_ e
  repeat' first
    | with_reducible exact Frame.rfl'
    | decide
    | intro _
    | with_reducible assumption
    | with_reducible apply readResp_frame
    | with_reducible apply ite_frame
    | split

theorem execWriteResp_lasting {src : Fin 64} {tag : BitVec 16} {status : BitVec 8} {s s' : State} (e : execWriteResp src tag status s = .next s') : Lasting s s' := by
  unfold execWriteResp at e
  refine finish_lasting ?_ e
  repeat' first
    | with_reducible exact Frame.rfl'
    | decide
    | intro _
    | with_reducible assumption
    | with_reducible apply writeResp_frame
    | with_reducible apply ite_frame
    | split

theorem execHostRequestTimeout_lasting {member : Fin 64} {s s' : State} (e : execHostRequestTimeout member s = .next s') : Lasting s s' := by
  unfold execHostRequestTimeout at e
  refine finish_lasting ?_ e
  repeat' first
    | with_reducible exact Frame.rfl'
    | decide
    | intro _
    | with_reducible assumption
    | with_reducible apply hostTimeout_frame
    | with_reducible apply ite_frame
    | split

theorem execBar0Access_lasting {a : Bar0Access} {bytes : Nat} {s s' : State} (e : execBar0Access a bytes s = .next s') : Lasting s s' := by
  unfold execBar0Access at e
  refine finish_lasting ?_ e
  repeat' first
    | with_reducible exact Frame.rfl'
    | decide
    | intro _
    | with_reducible assumption
    | with_reducible apply bar0Access_frame
    | with_reducible apply ite_frame
    | split

theorem execBar2Write_lasting {addr : BitVec 25} {value : Word} {bytes : Nat} {s s' : State} (e : execBar2Write addr value bytes s = .next s') : Lasting s s' := by
  unfold execBar2Write at e
  refine finish_lasting ?_ e
  repeat' first
    | with_reducible exact Frame.rfl'
    | decide
    | intro _
    | with_reducible assumption
    | with_reducible apply bar2Write_frame
    | with_reducible apply ite_frame
    | split

theorem execEventFwd_lasting {src : Fin 64} {gap : Bool} {record : Bytes} {s s' : State} (e : execEventFwd src gap record s = .next s') : Lasting s s' := by
  unfold execEventFwd at e
  split at e
  rotate_left
  · exact absurd e (by simp)
  refine finish_lasting ?_ e
  repeat' first
    | with_reducible exact Frame.rfl'
    | decide
    | intro _
    | with_reducible assumption
    | with_reducible apply eventFwd_frame
    | with_reducible apply ite_frame
    | split

theorem execExcFwd_lasting {src : Fin 64} {record : Bytes} {s s' : State} (e : execExcFwd src record s = .next s') : Lasting s s' := by
  unfold execExcFwd at e
  split at e
  rotate_left
  · exact absurd e (by simp)
  refine finish_lasting ?_ e
  repeat' first
    | with_reducible exact Frame.rfl'
    | decide
    | intro _
    | with_reducible assumption
    | with_reducible apply excFwd_frame
    | with_reducible apply ite_frame
    | split

theorem execRecordForward_lasting  {s s' : State} (e : execRecordForward s = .next s') : Lasting s s' := by
  unfold execRecordForward at e
  refine finish_lasting ?_ e
  repeat' first
    | with_reducible exact Frame.rfl'
    | decide
    | intro _
    | with_reducible assumption
    | with_reducible apply recordForward_frame
    | with_reducible apply ite_frame
    | split

theorem execTime_lasting {received : Option (Fin 64 × Bytes)} {s s' : State} (e : execTime received s = .next s') : Lasting s s' := by
  unfold execTime at e
  split at e
  rotate_left
  · exact absurd e (by simp)
  refine finish_lasting ?_ e
  repeat' first
    | with_reducible exact Frame.rfl'
    | decide
    | intro _
    | with_reducible assumption
    | with_reducible apply timeRow_frame
    | with_reducible apply ite_frame
    | split

theorem execBanksmanUnreachable_lasting  {s s' : State} (e : execBanksmanUnreachable s = .next s') : Lasting s s' := by
  unfold execBanksmanUnreachable at e
  refine finish_lasting ?_ e
  repeat' first
    | with_reducible exact Frame.rfl'
    | decide
    | intro _
    | with_reducible assumption
    | with_reducible apply banksmanUnreachable_frame
    | with_reducible apply ite_frame
    | split

theorem execAlert_lasting {received : Option (Fin 64 × Word)} {s s' : State} (e : execAlert received s = .next s') : Lasting s s' := by
  unfold execAlert at e
  refine finish_lasting ?_ e
  repeat' first
    | with_reducible exact Frame.rfl'
    | decide
    | intro _
    | with_reducible assumption
    | with_reducible apply alertRow_frame
    | with_reducible apply ite_frame
    | split

theorem execKeepalive_lasting {port : Fin 2} {s s' : State} (e : execKeepalive port s = .next s') : Lasting s s' := by
  unfold execKeepalive at e
  refine finish_lasting ?_ e
  repeat' first
    | with_reducible exact Frame.rfl'
    | decide
    | intro _
    | with_reducible assumption
    | with_reducible apply keepalive_frame
    | with_reducible apply ite_frame
    | split

theorem execEvChainPort_lasting {port : Fin 2} {up : Bool} {s s' : State} (e : execEvChainPort port up s = .next s') : Lasting s s' := by
  unfold execEvChainPort at e
  refine finish_lasting ?_ e
  repeat' first
    | with_reducible exact Frame.rfl'
    | decide
    | intro _
    | with_reducible assumption
    | with_reducible apply chainPortChange_frame
    | with_reducible apply ite_frame
    | split

theorem execWakeE_lasting  {s s' : State} (e : execWakeE s = .next s') : Lasting s s' := by
  unfold execWakeE at e
  refine finish_lasting ?_ e
  repeat' first
    | with_reducible exact Frame.rfl'
    | decide
    | intro _
    | with_reducible assumption
    | with_reducible apply chainBurst_frame
    | with_reducible apply commandWrite_frame
    | with_reducible apply ite_frame
    | split

theorem execWakeW_lasting  {s s' : State} (e : execWakeW s = .next s') : Lasting s s' := by
  unfold execWakeW at e
  refine finish_lasting ?_ e
  repeat' first
    | with_reducible exact Frame.rfl'
    | decide
    | intro _
    | with_reducible assumption
    | with_reducible apply chainBurst_frame
    | with_reducible apply commandWrite_frame
    | with_reducible apply ite_frame
    | split

theorem execHostLinkUp_lasting {speed : BitVec 3} {width : BitVec 4} {s s' : State} (e : execHostLinkUp speed width s = .next s') : Lasting s s' := by
  unfold execHostLinkUp at e
  split at e
  rotate_left
  · exact absurd e (by simp)
  refine finish_lasting ?_ e
  repeat' first
    | with_reducible exact Frame.rfl'
    | decide
    | intro _
    | with_reducible assumption
    | with_reducible apply hostLinkUp_frame
    | with_reducible apply ite_frame
    | split

theorem execEvHostLink_lasting  {s s' : State} (e : execEvHostLink s = .next s') : Lasting s s' := by
  unfold execEvHostLink at e
  refine finish_lasting ?_ e
  repeat' first
    | with_reducible exact Frame.rfl'
    | decide
    | intro _
    | with_reducible assumption
    | with_reducible apply hostLinkDown_frame
    | with_reducible apply ite_frame
    | split

theorem execLandReadback_lasting {output : Fin 27} {agrees : Bool} {s s' : State} (e : execLandReadback output agrees s = .next s') : Lasting s s' := by
  unfold execLandReadback at e
  refine finish_lasting ?_ e
  repeat' first
    | with_reducible exact Frame.rfl'
    | decide
    | intro _
    | with_reducible assumption
    | with_reducible apply landReadback_frame
    | with_reducible apply ite_frame
    | split

theorem execLandShortRetry_lasting {output : Fin 27} {readbacks : List Bool} {s s' : State} (e : execLandShortRetry output readbacks s = .next s') : Lasting s s' := by
  unfold execLandShortRetry at e
  split at e
  rotate_left
  · exact absurd e (by simp)
  refine finish_lasting ?_ e
  repeat' first
    | with_reducible exact Frame.rfl'
    | decide
    | intro _
    | with_reducible assumption
    | with_reducible apply landShortRetry_frame
    | with_reducible apply ite_frame
    | split

theorem execOpticInsert_lasting {side : Fin 2} {cmis : CmisData} {s s' : State} (e : execOpticInsert side cmis s = .next s') : Lasting s s' := by
  unfold execOpticInsert at e
  split at e
  rotate_left
  · exact absurd e (by simp)
  refine finish_lasting ?_ e
  repeat' first
    | with_reducible exact Frame.rfl'
    | decide
    | intro _
    | with_reducible assumption
    | with_reducible apply opticInsert_frame
    | with_reducible apply ite_frame
    | split

theorem execOpticRemove_lasting {side : Fin 2} {s s' : State} (e : execOpticRemove side s = .next s') : Lasting s s' := by
  unfold execOpticRemove at e
  refine finish_lasting ?_ e
  repeat' first
    | with_reducible exact Frame.rfl'
    | decide
    | intro _
    | with_reducible assumption
    | with_reducible apply opticRemove_frame
    | with_reducible apply ite_frame
    | split

theorem execCmisPoll_lasting {side : Fin 2} {intLow : Bool} {txPower bias : List Nat} {s s' : State} (e : execCmisPoll side intLow txPower bias s = .next s') : Lasting s s' := by
  unfold execCmisPoll at e
  split at e
  rotate_left
  · exact absurd e (by simp)
  refine finish_lasting ?_ e
  repeat' first
    | with_reducible exact Frame.rfl'
    | decide
    | intro _
    | with_reducible assumption
    | with_reducible apply cmisPoll_frame
    | with_reducible apply ite_frame
    | split

theorem execCmisTimeout_lasting {side : Fin 2} {s s' : State} (e : execCmisTimeout side s = .next s') : Lasting s s' := by
  unfold execCmisTimeout at e
  refine finish_lasting ?_ e
  repeat' first
    | with_reducible exact Frame.rfl'
    | decide
    | intro _
    | with_reducible assumption
    | with_reducible apply cmisTimeout_frame
    | with_reducible apply ite_frame
    | split

theorem execLedFrame_lasting  {s s' : State} (e : execLedFrame s = .next s') : Lasting s s' := by
  unfold execLedFrame at e
  refine finish_lasting ?_ e
  repeat' first
    | with_reducible exact Frame.rfl'
    | decide
    | intro _
    | with_reducible assumption
    | with_reducible apply ledFrameOut_frame
    | with_reducible apply ite_frame
    | split

theorem execPerstN_lasting {low : Bool} {s s' : State} (e : execPerstN low s = .next s') : Lasting s s' := by
  unfold execPerstN at e
  refine finish_lasting ?_ e
  repeat' first
    | with_reducible exact Frame.rfl'
    | decide
    | intro _
    | with_reducible assumption
    | with_reducible apply perstN_frame
    | with_reducible apply ite_frame
    | split

theorem execVioReady_lasting  {s s' : State} (e : execVioReady s = .next s') : Lasting s s' := by
  unfold execVioReady at e
  refine finish_lasting ?_ e
  repeat' first
    | with_reducible exact Frame.rfl'
    | decide
    | intro _
    | with_reducible assumption
    | with_reducible apply vioReady_frame
    | with_reducible apply ite_frame
    | split

theorem execPowerTransitionComplete_lasting {domain : Option (Fin 23)} {s s' : State} (e : execPowerTransitionComplete domain s = .next s') : Lasting s s' := by
  unfold execPowerTransitionComplete at e
  refine finish_lasting ?_ e
  repeat' first
    | with_reducible exact Frame.rfl'
    | decide
    | intro _
    | with_reducible assumption
    | with_reducible apply transitionRow_frame
    | with_reducible apply ite_frame
    | split

theorem execPtpSyncInterval_lasting {port : Fin 512} {announce : Bool} {s s' : State} (e : execPtpSyncInterval port announce s = .next s') : Lasting s s' := by
  unfold execPtpSyncInterval at e
  refine finish_lasting ?_ e
  repeat' first
    | with_reducible exact Frame.rfl'
    | decide
    | intro _
    | with_reducible assumption
    | with_reducible apply announce_frame
    | with_reducible apply ptpSyncInterval_frame
    | with_reducible apply ite_frame
    | split

/-- What every command keeps, whatever it changes. -/
theorem exec_lasting {c : Instr} {s t : State} (e : exec c s = .next t) : Lasting s t := by
  cases c with
  | tickEdge => exact execTickEdge_lasting e
  | localTickCountExpiry => exact execLocalTickCountExpiry_lasting e
  | govLateComplete => exact execGovLateComplete_lasting e
  | schedPlan => exact execSchedPlan_lasting e
  | supLoops => exact execSupLoops_lasting e
  | tickOverrun => exact execTickOverrun_lasting e
  | regWrite => exact execRegWrite_lasting e
  | regMisaligned => exact execRegMisaligned_lasting e
  | rcClearingRead => exact execRcClearingRead_lasting e
  | lrLowWordRead => exact execLrLowWordRead_lasting e
  | coldReset => exact execColdReset_lasting e
  | dipReset => exact execDipReset_lasting e
  | pinReset => exact execPinReset_lasting e
  | watchdogReset => exact execWatchdogReset_lasting e
  | chainReset => exact execChainReset_lasting e
  | domainReset => exact execDomainReset_lasting e
  | domainResetRelease => exact execDomainResetRelease_lasting e
  | resetRelease => exact execResetRelease_lasting e
  | imageVerifyDone => exact execImageVerifyDone_lasting e
  | release => exact execRelease_lasting e
  | imageApply => exact execImageApply_lasting e
  | imgRecordBusyWait => exact execImgRecordBusyWait_lasting e
  | evRefclkLoss => exact execEvRefclkLoss_lasting e
  | refclkRetry => exact execRefclkRetry_lasting e
  | refclkMeasure => exact execRefclkMeasure_lasting e
  | evVinWarn => exact execEvVinWarn_lasting e
  | vinWarnRepeat => exact execVinWarnRepeat_lasting e
  | evVinRecover => exact execEvVinRecover_lasting e
  | vauxLoss => exact execVauxLoss_lasting e
  | vinOvercurrentDisconnect => exact execVinOvercurrentDisconnect_lasting e
  | sideDomainUp => exact execSideDomainUp_lasting e
  | sideDomainDown => exact execSideDomainDown_lasting e
  | syncSighting => exact execSyncSighting_lasting e
  | candidateExamine => exact execCandidateExamine_lasting e
  | evalPeriodEnd => exact execEvalPeriodEnd_lasting e
  | downstreamFrame => exact execDownstreamFrame_lasting e
  | losDeclare => exact execLosDeclare_lasting e
  | losClear => exact execLosClear_lasting e
  | sdWindowEnd => exact execSdWindowEnd_lasting e
  | sfWindowEnd => exact execSfWindowEnd_lasting e
  | upstreamBurst => exact execUpstreamBurst_lasting e
  | announce => exact execAnnounce_lasting e
  | rangingReply => exact execRangingReply_lasting e
  | assignTn => exact execAssignTn_lasting e
  | rangingTime => exact execRangingTime_lasting e
  | allocAssign => exact execAllocAssign_lasting e
  | deactivate => exact execDeactivate_lasting e
  | expel => exact execExpel_lasting e
  | hold => exact execHold_lasting e
  | keyEpoch => exact execKeyEpoch_lasting e
  | burstProfile => exact execBurstProfile_lasting e
  | dozeGrant => exact execDozeGrant_lasting e
  | echoRequest => exact execEchoRequest_lasting e
  | resumeAck => exact execResumeAck_lasting e
  | timeOfDay => exact execTimeOfDay_lasting e
  | ack => exact execAck_lasting e
  | joinTimeout => exact execJoinTimeout_lasting e
  | resumeTimeout => exact execResumeTimeout_lasting e
  | unexpel => exact execUnexpel_lasting e
  | dozeRequest => exact execDozeRequest_lasting e
  | dozeWake => exact execDozeWake_lasting e
  | dozeTimer => exact execDozeTimer_lasting e
  | bondGapTimerExpiry => exact execBondGapTimerExpiry_lasting e
  | circEnable => exact execCircEnable_lasting e
  | circDisable => exact execCircDisable_lasting e
  | circPacket => exact execCircPacket_lasting e
  | submit => exact execSubmit_lasting e
  | journalWriteVerified => exact execJournalWriteVerified_lasting e
  | evTallySplit => exact execEvTallySplit_lasting e
  | deliver => exact execDeliver_lasting e
  | tallyResendHe => exact execTallyResendHe_lasting e
  | deliverToRecipient => exact execDeliverToRecipient_lasting e
  | tallyResendLocal => exact execTallyResendLocal_lasting e
  | receiptFromHeadEnd => exact execReceiptFromHeadEnd_lasting e
  | receiptFromRecipient => exact execReceiptFromRecipient_lasting e
  | refuseFromHeadEnd => exact execRefuseFromHeadEnd_lasting e
  | status => exact execStatus_lasting e
  | evTallyStall => exact execEvTallyStall_lasting e
  | flowClose => exact execFlowClose_lasting e
  | purge => exact execPurge_lasting e
  | journalScan => exact execJournalScan_lasting e
  | classifyFrame => exact execClassifyFrame_lasting e
  | excForward => exact execExcForward_lasting e
  | ruleWrite => exact execRuleWrite_lasting e
  | ruleRead => exact execRuleRead_lasting e
  | fdbInsertStatic => exact execFdbInsertStatic_lasting e
  | fdbInsertDynamic => exact execFdbInsertDynamic_lasting e
  | fdbDelete => exact execFdbDelete_lasting e
  | fdbLookup => exact execFdbLookup_lasting e
  | fdbDeleteByDest => exact execFdbDeleteByDest_lasting e
  | fdbSweep => exact execFdbSweep_lasting e
  | vlanWrite => exact execVlanWrite_lasting e
  | vlanRead => exact execVlanRead_lasting e
  | portFrameStart => exact execPortFrameStart_lasting e
  | pause => exact execPause_lasting e
  | pfc => exact execPfc_lasting e
  | pauseExpiry => exact execPauseExpiry_lasting e
  | lanePauseDrop => exact execLanePauseDrop_lasting e
  | gateCommit => exact execGateCommit_lasting e
  | gateListStart => exact execGateListStart_lasting e
  | gclWrite => exact execGclWrite_lasting e
  | gclRead => exact execGclRead_lasting e
  | policerWrite => exact execPolicerWrite_lasting e
  | policerRead => exact execPolicerRead_lasting e
  | policerReadClear => exact execPolicerReadClear_lasting e
  | tubTake => exact execTubTake_lasting e
  | tubFree => exact execTubFree_lasting e
  | tubHandOver => exact execTubHandOver_lasting e
  | ringPost => exact execRingPost_lasting e
  | ringFill => exact execRingFill_lasting e
  | spill => exact execSpill_lasting e
  | refill => exact execRefill_lasting e
  | wndDoorbell => exact execWndDoorbell_lasting e
  | wndDescriptorFetch => exact execWndDescriptorFetch_lasting e
  | wndDescriptorComplete => exact execWndDescriptorComplete_lasting e
  | wndBurst => exact execWndBurst_lasting e
  | evWndError => exact execEvWndError_lasting e
  | wndChannelDisable => exact execWndChannelDisable_lasting e
  | portModeWrite => exact execPortModeWrite_lasting e
  | macRxFrame => exact execMacRxFrame_lasting e
  | linkUp => exact execLinkUp_lasting e
  | linkDown => exact execLinkDown_lasting e
  | lpiEnter => exact execLpiEnter_lasting e
  | lpiExit => exact execLpiExit_lasting e
  | lldpSend => exact execLldpSend_lasting e
  | lldpReceive => exact execLldpReceive_lasting e
  | lldpTtlExpiry => exact execLldpTtlExpiry_lasting e
  | mdioAddress => exact execMdioAddress_lasting e
  | mdioWrite => exact execMdioWrite_lasting e
  | mdioRead => exact execMdioRead_lasting e
  | mdioReadIncrement => exact execMdioReadIncrement_lasting e
  | mdioAddressWrite => exact execMdioAddressWrite_lasting e
  | mdioAddressRead => exact execMdioAddressRead_lasting e
  | partnerLpi => exact execPartnerLpi_lasting e
  | localFault => exact execLocalFault_lasting e
  | laneTrain => exact execLaneTrain_lasting e
  | retrainWindow => exact execRetrainWindow_lasting e
  | laneWake => exact execLaneWake_lasting e
  | laneNoEnergy => exact execLaneNoEnergy_lasting e
  | slip => exact execSlip_lasting e
  | eyeScanStart => exact execEyeScanStart_lasting e
  | eyeScanDone => exact execEyeScanDone_lasting e
  | laneCfgWrite => exact execLaneCfgWrite_lasting e
  | receiverDetect => exact execReceiverDetect_lasting e
  | evLaneShort => exact execEvLaneShort_lasting e
  | shortRetry => exact execShortRetry_lasting e
  | laneRetire => exact execLaneRetire_lasting e
  | laneUnretire => exact execLaneUnretire_lasting e
  | prbsCheckerLock => exact execPrbsCheckerLock_lasting e
  | prbsCheckerLockLoss => exact execPrbsCheckerLockLoss_lasting e
  | timeIncWrite => exact execTimeIncWrite_lasting e
  | ownerChange => exact execOwnerChange_lasting e
  | timeNowRead => exact execTimeNowRead_lasting e
  | timeAdj => exact execTimeAdj_lasting e
  | holdoverEnter => exact execHoldoverEnter_lasting e
  | ptpMessage => exact execPtpMessage_lasting e
  | ppsInEdge => exact execPpsInEdge_lasting e
  | ppsOutPulse => exact execPpsOutPulse_lasting e
  | canaryRun => exact execCanaryRun_lasting e
  | evCanary => exact execEvCanary_lasting e
  | canaryAbort => exact execCanaryAbort_lasting e
  | seamEligible => exact execSeamEligible_lasting e
  | sideFailed => exact execSideFailed_lasting e
  | manual => exact execManual_lasting e
  | forced => exact execForced_lasting e
  | lockout => exact execLockout_lasting e
  | clear => exact execClear_lasting e
  | protectionSwitch => exact execProtectionSwitch_lasting e
  | evProtSwitch => exact execEvProtSwitch_lasting e
  | evProtSwitchFail => exact execEvProtSwitchFail_lasting e
  | waitToRestoreExpiry => exact execWaitToRestoreExpiry_lasting e
  | oprootCommit => exact execOprootCommit_lasting e
  | keyDerived => exact execKeyDerived_lasting e
  | keyRetire => exact execKeyRetire_lasting e
  | unwrap => exact execUnwrap_lasting e
  | erase => exact execErase_lasting e
  | rekey => exact execRekey_lasting e
  | ladderEntry => exact execLadderEntry_lasting e
  | ladderExit => exact execLadderExit_lasting e
  | wakeN => exact execWakeN_lasting e
  | wakeTimerExpiry => exact execWakeTimerExpiry_lasting e
  | wake => exact execWake_lasting e
  | domainAccessWake => exact execDomainAccessWake_lasting e
  | evPwrWakeFail => exact execEvPwrWakeFail_lasting e
  | domainDrop => exact execDomainDrop_lasting e
  | hostVoteWrite => exact execHostVoteWrite_lasting e
  | l4Overtemp => exact execL4Overtemp_lasting e
  | shedEnd => exact execShedEnd_lasting e
  | evFiredamp => exact execEvFiredamp_lasting e
  | firedampClear => exact execFiredampClear_lasting e
  | pwWrite => exact execPwWrite_lasting e
  | keepMount => exact execKeepMount_lasting e
  | scrub => exact execScrub_lasting e
  | evKeepRemap => exact execEvKeepRemap_lasting e
  | recordEvent => exact execRecordEvent_lasting e
  | assayRun => exact execAssayRun_lasting e
  | evAssayResult => exact execEvAssayResult_lasting e
  | slackSample => exact execSlackSample_lasting e
  | hourCount => exact execHourCount_lasting e
  | faultEvent => exact execFaultEvent_lasting e
  | bankRemap => exact execBankRemap_lasting e
  | chainFrameReceive => exact execChainFrameReceive_lasting e
  | read => exact execRead_lasting e
  | write => exact execWrite_lasting e
  | posted => exact execPosted_lasting e
  | readResp src tag data status => exact execReadResp_lasting (src := src) (status := status) e
  | writeResp src tag status => exact execWriteResp_lasting (src := src) (status := status) e
  | hostRequestTimeout => exact execHostRequestTimeout_lasting e
  | bar0Access => exact execBar0Access_lasting e
  | bar2Write => exact execBar2Write_lasting e
  | eventFwd => exact execEventFwd_lasting e
  | excFwd => exact execExcFwd_lasting e
  | recordForward => exact execRecordForward_lasting e
  | time => exact execTime_lasting e
  | banksmanUnreachable => exact execBanksmanUnreachable_lasting e
  | alert => exact execAlert_lasting e
  | keepalive => exact execKeepalive_lasting e
  | evChainPort => exact execEvChainPort_lasting e
  | wakeE => exact execWakeE_lasting e
  | wakeW => exact execWakeW_lasting e
  | hostLinkUp => exact execHostLinkUp_lasting e
  | evHostLink => exact execEvHostLink_lasting e
  | landReadback => exact execLandReadback_lasting e
  | landShortRetry => exact execLandShortRetry_lasting e
  | opticInsert => exact execOpticInsert_lasting e
  | opticRemove => exact execOpticRemove_lasting e
  | cmisPoll => exact execCmisPoll_lasting e
  | cmisTimeout => exact execCmisTimeout_lasting e
  | ledFrame => exact execLedFrame_lasting e
  | perstN => exact execPerstN_lasting e
  | vioReady => exact execVioReady_lasting e
  | powerTransitionComplete => exact execPowerTransitionComplete_lasting e
  | ptpSyncInterval => exact execPtpSyncInterval_lasting e

end Sys2Proof.Machine
end

