-- ==== Sys2Proof/Laws/Parts.lean ====
section
/-! SUPPORT. From the masks of `Frame` to the frames of claims: `SameBut` by parts, and what a change of one part leaves of the
others. -/
set_option Elab.async false
set_option linter.all false

namespace Sys2Proof.Machine

/-- The bit of a part in the masks of `Frame`; none for the queue, which no command touches. -/
def Part.bit : Part → Nat
  | .pending => 64
  | .cycle => 0
  | .free => 1
  | .outs => 2
  | .regs => 3
  | .latch => 4
  | .misaligned => 5
  | .tick => 6
  | .boot => 7
  | .supply => 8
  | .time => 9
  | .keep => 10
  | .recd => 11
  | .pwr => 12
  | .assay => 13
  | .land => 14
  | .prot => 15
  | .seams => 16
  | .tub => 17
  | .wnd => 18
  | .sched => 19
  | .ports => 20
  | .mdio => 21
  | .ingress => 22
  | .join => 23
  | .ciph => 24
  | .cls => 25
  | .tally => 26
  | .circuits => 27
  | .looped => 28
  | .lanes => 29
  | .chain => 30
  | .host => 31
  | .stalled => 32
  | .faultsIn => 33
  | .opRoot => 34
  | .tickCount => 35
  | .dom => 36
  | .phase => 37
  | .now => 38
  | .ladder => 39
  | .votes => 40
  | .active => 41
  | .sram => 42
  | .dram => 43
  | .mounted => 44
  | .warning => 45
  | .ring => 46

/-- Every part. -/
def Part.all : List Part := [.pending, .cycle, .free, .outs, .regs, .latch, .misaligned, .tick, .boot, .supply, .time, .keep, .recd, .pwr, .assay, .land, .prot, .seams, .tub, .wnd, .sched, .ports, .mdio, .ingress, .join, .ciph, .cls, .tally, .circuits, .looped, .lanes, .chain, .host,
  .stalled, .faultsIn, .opRoot, .tickCount, .dom, .phase, .now, .ladder, .votes, .active, .sram, .dram, .mounted, .warning, .ring]

theorem Part.mem_all (p : Part) : p ∈ Part.all := by cases p <;> decide

theorem Frame.same {m : Nat} {s t : State} (h : Frame m s t) (p : Part) (e : m.testBit p.bit = false) : p.same s t := by
  cases p with
  | pending => exact h.lasting.pending
  | cycle => exact h.cycle e
  | free => exact h.free e
  | outs => exact h.outs e
  | regs => exact h.regs e
  | latch => exact h.latch e
  | misaligned => exact h.misaligned e
  | tick => exact h.tick e
  | boot => exact h.boot e
  | supply => exact h.supply e
  | time => exact h.time e
  | keep => exact h.keep e
  | recd => exact h.recd e
  | pwr => exact h.pwr e
  | assay => exact h.assay e
  | land => exact h.land e
  | prot => exact h.prot e
  | seams => exact h.seams e
  | tub => exact h.tub e
  | wnd => exact h.wnd e
  | sched => exact h.sched e
  | ports => exact h.ports e
  | mdio => exact h.mdio e
  | ingress => exact h.ingress e
  | join => exact h.join e
  | ciph => exact h.ciph e
  | cls => exact h.cls e
  | tally => exact h.tally e
  | circuits => exact h.circuits e
  | looped => exact h.looped e
  | lanes => exact h.lanes e
  | chain => exact h.chain e
  | host => exact h.host e
  | stalled => exact h.stalled_ e
  | faultsIn => exact h.faultsIn_ e
  | opRoot => exact h.opRoot_ e
  | tickCount => exact h.tickCount_ e
  | dom => exact h.dom_ e
  | phase => exact h.phase_ e
  | now => exact h.now_ e
  | ladder => exact h.ladder_ e
  | votes => exact h.votes_ e
  | active => exact h.active_ e
  | sram => exact h.sram_ e
  | dram => exact h.dram_ e
  | mounted => exact h.mounted_ e
  | warning => exact h.warning_ e
  | ring => exact h.ring_ e

/-- A frame by parts, from one by mask: `by decide` checks that the parts listed cover the mask. -/
theorem Frame.sameBut {m : Nat} {ps : List Part} {s t : State} (h : Frame m s t)
    (e : Part.all.all (fun p => decide (p ∈ ps) || !m.testBit p.bit) = true) : SameBut ps s t := by
  intro p hp
  have := List.all_eq_true.mp e p (Part.mem_all p)
  simp only [hp, decide_false, Bool.false_or, Bool.not_eq_true'] at this
  exact h.same p this

theorem SameBut.refl (ps : List Part) (s : State) : SameBut ps s s := by
  intro p _
  cases p <;> rfl

theorem SameBut.trans {ps : List Part} {s t u : State} (h : SameBut ps s t) (g : SameBut ps t u) : SameBut ps s u := by
  intro p hp
  have a := h p hp
  have b := g p hp
  cases p <;> exact Eq.trans b a

theorem SameBut.mono {ps qs : List Part} {s t : State} (h : SameBut ps s t) (e : ∀ p ∈ ps, p ∈ qs) : SameBut qs s t :=
  fun p hp => h p (fun k => hp (e p k))

theorem Lasting.wf {s t : State} (h : Lasting s t) (w : s.wf) : t.wf :=
  by
  obtain ⟨a, b, c, d, e, f, g, i, j, k, l, m, n, o, p, q⟩ := w
  exact ⟨h.regs a, h.sram b, h.dram c, h.ring d, h.latch e, h.dieA f, h.dieB g, h.seams i, h.ports j, h.mdio k, h.circuits l,
    h.lanes m, h.idents n, h.portScheds o, h.aqs p, h.chans q⟩

theorem reg_setReg_same {a : Nat} {v : Word} {s : State} (w : twf resetValue s.regs = true) : reg a (setReg a v s) = v :=
  tget_tput w

theorem reg_setReg_ne {a b : Nat} {v : Word} {s : State} (h : b ≠ a) : reg b (setReg a v s) = reg b s :=
  tget_tput_ne h

end Sys2Proof.Machine
end

