-- ==== Sys2Proof/Laws/Total.lean ====
section
/-! SUPPORT. Every command answers: with a next state where its operands have the shapes of the spec, otherwise with a refusal. -/
set_option Elab.async false
set_option linter.all false

namespace Sys2Proof.Machine
theorem finish_eq (s : State) : finish s = .next (settleFaults (settleStalled s)) := rfl

theorem guarded_answer {b : Bool} {u : State} :
    (b = true ∧ ∃ t, (if b then finish u else Host.Outcome.refused Refusal.illFormed) = .next t) ∨
    (b = false ∧ (if b then finish u else Host.Outcome.refused Refusal.illFormed) = .refused .illFormed) := by
  cases b
  · exact .inr ⟨rfl, rfl⟩
  · exact .inl ⟨rfl, _, rfl⟩

set_option maxRecDepth 4000 in
/-- A command of the spec's shapes is executed, any other is refused as ill-formed. -/
theorem exec_answer (c : Instr) (s : State) :
    (c.wf = true ∧ ∃ t, exec c s = .next t) ∨ (c.wf = false ∧ exec c s = .refused .illFormed) := by
  cases c <;> first
    | exact .inl ⟨rfl, _, rfl⟩
    | exact guarded_answer

/-- What a step does: a cycle of the clock, or the command in front. -/
theorem step_cases {s t : State} (h : step s = .next t) :
    (s.pending = [] ∧ t = idleCycle s) ∨ ∃ c rest, s.pending = c :: rest ∧ exec c { s with pending := rest } = .next t := by
  unfold step at h
  split at h
  · injection h with h
    exact .inl ⟨by assumption, h.symm⟩
  · exact .inr ⟨_, _, by assumption, h⟩

/-- What every step keeps. -/
theorem step_lasting {s t : State} (h : step s = .next t) : Lasting { s with pending := s.pending.tail } t := by
  rcases step_cases h with ⟨e, rfl⟩ | ⟨c, rest, e, g⟩
  · have k : { s with pending := s.pending.tail } = s := by rw [e]; cases s; simp_all
    rw [k]
    exact (idleCycle_frame (m := 140737488355327) Frame.rfl' (by decide)).lasting
  · rw [e]
    exact exec_lasting g

end Sys2Proof.Machine
end

