-- ==== Sys2Proof/Laws/Writes.lean ====
section
/-! SUPPORT. Register writes: a register without an effect of its own takes its bits by the access codes, and nothing else. -/
set_option Elab.async false
set_option linter.all false

namespace Sys2Proof.Machine

/-- No register stands at or beyond 0x130_0000. -/
theorem regRow_lt {a : Nat} {r : RegRow} (h : regRow a = some r) : a < 0x1300000 := by
  by_cases g : a < 0x1300000
  · exact g
  · have : regRowsAt a = [] := by
      unfold regRowsAt
      repeat rw [if_neg (by omega)]
    unfold regRow at h
    rw [this] at h
    cases h

/-- The high word of a group is a register. -/
theorem isHigh_lt {a : Nat} (h : isHigh a = true) : a < 2 ^ 32 := by
  unfold isHigh at h
  split at h
  · have := regRow_lt (by assumption); omega
  · cases h

/-- Both branches are the same. -/
theorem ite_eq_of_both {α : Type} {c : Prop} [Decidable c] {a b x : α} (h1 : c → a = x) (h2 : ¬ c → b = x) : (if c then a else b) = x := by
  split
  · exact h1 ‹_›
  · exact h2 ‹_›

theorem in_range {l h a : Nat} (x : l ≤ a) (y : a < h) : ¬ (¬ l ≤ a ∨ ¬ a < h) := fun g => g.elim (fun k => k x) (fun k => k y)

theorem ciphWrite_plain {a : Nat} {v same : Word} {s : State} (k : 0xF01000 ≤ a) :
    ciphWrite a v same s = plainWrite a v same s := by
  unfold ciphWrite
  simp only [Reg.CIPH_OPROOT_DATA, Reg.CIPH_UNWRAP_DATA, Reg.CIPH_OPROOT_CMD, Reg.CIPH_UNWRAP_CMD, Reg.CIPH_STORE_CMD,
    Reg.CIPH_CTR_RESERVE]
  repeat' refine (if_neg (by omega)).trans ?_
  rfl

/-- A write of a register that does not act on it sets its bits (R12, R13). -/
theorem writeReg_plain {src : Source} {a : Nat} {r : RegRow} {v same : Word} {s : State} (hr : regRow a = some r)
    (h : actsOnWrite a = false) : writeReg src a v same s = setReg a (r.written (reg a s) v same) s := by
  have hl := regRow_lt hr
  have p : plainWrite a v same s = setReg a (r.written (reg a s) v same) s := by unfold plainWrite; rw [hr]
  simp only [actsOnWrite, Bool.or_eq_false_iff, beq_eq_false_iff_ne, ne_eq, Bool.and_eq_false_iff, decide_eq_false_iff_not] at h
  unfold writeReg
  rw [hr]
  dsimp only
  rw [← p]
  obtain ⟨⟨⟨⟨⟨⟨⟨⟨⟨⟨⟨⟨⟨⟨⟨⟨⟨⟨⟨⟨⟨⟨⟨⟨⟨⟨⟨⟨⟨⟨⟨⟨⟨⟨⟨h1, h2⟩, h3⟩, h4⟩, h5⟩, h6⟩, h7⟩, h8⟩, h9⟩, h10⟩, h11⟩, h12⟩, h13⟩, h14⟩, h15⟩, h16⟩, h17⟩, h18⟩, h19⟩, h20⟩, h21⟩, h22⟩, h23⟩, h24⟩, h25⟩, h26⟩, h27⟩, h28⟩, h29⟩, h30⟩, h31⟩, h32⟩, h33⟩, h34⟩, h35⟩, h36⟩ := h
  clear hr p
  have i : ∀ {c : Prop} [Decidable c] {x y : State}, ¬ c → (if c then x else y) = y := fun h => if_neg h
  refine (i h1).trans ?_
  refine ite_eq_of_both (fun b => ?_) (fun b1 => ?_)
  · unfold genWrite; rw [if_neg h2, if_neg h3, if_neg h4, if_neg h5]
  refine ite_eq_of_both (fun b => ?_) (fun b2 => ?_)
  · unfold lineWrite; exact i (fun e => (h6.resolve_left (in_range (Nat.not_lt.mp b1) b)) e.1)
  refine ite_eq_of_both (fun b => ?_) (fun b3 => ?_)
  · unfold joinWrite; exact i (fun e => (h7.resolve_left (in_range e.1 e.2.1)) e.2.2)
  refine ite_eq_of_both (fun b => ?_) (fun b4 => ?_)
  · unfold circWrite; exact i (fun e => (h8.resolve_left (in_range e.1 e.2.1)) e.2.2)
  refine ite_eq_of_both (fun b => ?_) (fun b5 => ?_)
  · unfold tallyWrite; exact (i h9).trans (i (fun e => (h10.resolve_left (in_range e.1 e.2.1)) e.2.2))
  refine ite_eq_of_both (fun b => ?_) (fun b6 => ?_)
  · unfold clsWrite
    exact (i (h11.resolve_left (in_range (Nat.not_lt.mp b5) b))).trans ((i h12).trans ((i h13).trans (i (fun e => e.elim h14 h15))))
  refine ite_eq_of_both (fun b => ?_) (fun b7 => ?_)
  · unfold schedWrite
    refine (i h16).trans ((i h17).trans ((i (fun e => in_range e.1 e.2 h18)).trans ?_))
    refine ite_eq_of_both (fun _ => rfl) (fun g => ?_)
    have k := h19.resolve_left (in_range (Nat.not_lt.mp fun x => g (.inl x)) (Nat.not_le.mp fun x => g (.inr x)))
    exact (i k.1.1.1.1).trans ((i k.1.1.1.2).trans ((i k.1.1.2).trans (ite_eq_of_both (fun _ => rfl) (fun _ => (i k.1.2).trans (i k.2)))))
  refine ite_eq_of_both (fun b => ?_) (fun b8 => ?_)
  · unfold tubWrite
    refine (i (fun e => in_range (Nat.not_lt.mp b7) e h20)).trans (ite_eq_of_both (fun _ => rfl) (fun g => ?_))
    exact absurd h21 (in_range (Nat.not_lt.mp g) b)
  refine ite_eq_of_both (fun b => ?_) (fun b9 => ?_)
  · unfold wndWrite
    refine ite_eq_of_both (fun _ => rfl) (fun g => ?_)
    have k := h22.resolve_left (in_range (Nat.not_lt.mp g) b)
    exact (i k.1.1.1).trans ((i k.1.1.2).trans ((i k.1.2).trans (i k.2)))
  refine ite_eq_of_both (fun b => ?_) (fun b10 => ?_)
  · unfold portWrite
    refine ite_eq_of_both (fun g => ?_) (fun g => ?_)
    · have k := h23.resolve_left (in_range (Nat.not_lt.mp b9) g)
      exact (i k.1).trans (i k.2)
    · have k := h24.resolve_left (in_range (Nat.not_lt.mp g) b)
      exact (i k.1.1.1.1).trans ((i k.1.1.1.2).trans ((i k.1.1.2).trans ((i k.1.2).trans (i k.2))))
  refine ite_eq_of_both (fun b => ?_) (fun b11 => ?_)
  · unfold laneWrite
    refine ite_eq_of_both (fun g => i (fun e => h26.elim (fun x => x e.1) (fun x => x e.2))) (fun g => ?_)
    have k := h25.resolve_left (in_range (Nat.not_lt.mp b10) (Nat.not_le.mp g))
    exact (i k.1.1.1).trans ((i k.1.1.2).trans ((i k.1.2).trans (i k.2)))
  refine ite_eq_of_both (fun b => ?_) (fun b12 => ?_)
  · unfold timeWrite
    have k := h27.resolve_left (in_range (Nat.not_lt.mp b11) b)
    exact (i k.1.1.1.1.1).trans ((i k.1.1.1.1.2).trans ((i k.1.1.1.2).trans ((i k.1.1.2).trans ((i k.1.2).trans (i k.2)))))
  refine ite_eq_of_both (fun b => ?_) (fun b13 => ?_)
  · unfold protWrite; exact i h28
  refine ite_eq_of_both (fun b => ?_) (fun b14 => ?_)
  · exact ciphWrite_plain (h29.elim (fun x => absurd (Nat.not_lt.mp b13) x) Nat.not_lt.mp)
  refine ite_eq_of_both (fun b => ?_) (fun b15 => ?_)
  · unfold pwrWrite; exact (i h30).trans (i h31)
  refine ite_eq_of_both (fun b => ?_) (fun b16 => ?_)
  · unfold assayWrite; exact (i h32).trans (i (fun e => h33.elim (fun x => x e.1) (fun x => x e.2)))
  refine ite_eq_of_both (fun b => ?_) (fun b17 => ?_)
  · unfold keepRegWrite; exact i h34
  · unfold chainWrite
    refine (i (fun e => h36 e.2)).trans ((i h35).trans (ite_eq_of_both (fun _ => rfl) (fun g => ?_)))
    exact absurd (Nat.le_trans (by decide) (Nat.not_lt.mp fun x => g (Or.inl x))) h36

end Sys2Proof.Machine
end

