-- ==== Sys2Proof/Laws/State.lean ====
section
/-! SUPPORT. What each update of the state leaves in every field, one lemma per field, so that no proof unfolds a record update; and
what a table reads after a filter and after a content that is no default is put. -/
set_option Elab.async false
set_option linter.all false

namespace Sys2Proof.Machine

theorem tget_filter {α : Type} {d : Nat → α} {p : Nat → Bool} {t : Table α} {k : Nat} :
    tget d (t.filter (fun e => p e.1)) k = if p k then tget d t k else d k := by
  induction t with
  | nil => simp [tget]
  | cons x t ih =>
    obtain ⟨j, v⟩ := x
    simp only [List.filter_cons]
    by_cases hk : k = j
    · subst hk
      by_cases hp : p k = true
      · simp [hp, tget]
      · simp only [hp]; rw [if_neg (by decide), ih]; simp [hp]
    · by_cases hp : p j = true
      · simp only [hp, if_true, tget, hk, if_false, ih]
      · simp only [hp, tget, hk, if_false]; rw [if_neg (by decide)]; exact ih

theorem tget_tput_nd {α : Type} [DecidableEq α] {d : Nat → α} {k : Nat} {v : α} {t : Table α} (h : v ≠ d k) :
    tget d (tput d k v t) k = v := by
  induction t with
  | nil => simp [tput, h, tget]
  | cons x t ih =>
    obtain ⟨j, w⟩ := x
    unfold tput
    by_cases g1 : k < j
    · rw [if_pos g1, if_neg h]; simp [tget]
    · rw [if_neg g1]
      by_cases g2 : k = j
      · rw [if_pos g2, if_neg h]; simp [tget]
      · rw [if_neg g2]; simp only [tget, if_neg g2]; exact ih

@[simp] theorem setReg_pending (a : Nat) (v : Word) (s : State) : (setReg a v s).pending = s.pending := rfl
@[simp] theorem setReg_cycle (a : Nat) (v : Word) (s : State) : (setReg a v s).cycle = s.cycle := rfl
@[simp] theorem setReg_free (a : Nat) (v : Word) (s : State) : (setReg a v s).free = s.free := rfl
@[simp] theorem setReg_outs (a : Nat) (v : Word) (s : State) : (setReg a v s).outs = s.outs := rfl
@[simp] theorem setReg_regs (a : Nat) (v : Word) (s : State) : (setReg a v s).regs = tput resetValue a v s.regs := rfl
@[simp] theorem setReg_latch (a : Nat) (v : Word) (s : State) : (setReg a v s).latch = s.latch := rfl
@[simp] theorem setReg_misaligned (a : Nat) (v : Word) (s : State) : (setReg a v s).misaligned = s.misaligned := rfl
@[simp] theorem setReg_tick (a : Nat) (v : Word) (s : State) : (setReg a v s).tick = s.tick := rfl
@[simp] theorem setReg_boot (a : Nat) (v : Word) (s : State) : (setReg a v s).boot = s.boot := rfl
@[simp] theorem setReg_supply (a : Nat) (v : Word) (s : State) : (setReg a v s).supply = s.supply := rfl
@[simp] theorem setReg_time (a : Nat) (v : Word) (s : State) : (setReg a v s).time = s.time := rfl
@[simp] theorem setReg_keep (a : Nat) (v : Word) (s : State) : (setReg a v s).keep = s.keep := rfl
@[simp] theorem setReg_recd (a : Nat) (v : Word) (s : State) : (setReg a v s).recd = s.recd := rfl
@[simp] theorem setReg_pwr (a : Nat) (v : Word) (s : State) : (setReg a v s).pwr = s.pwr := rfl
@[simp] theorem setReg_assay (a : Nat) (v : Word) (s : State) : (setReg a v s).assay = s.assay := rfl
@[simp] theorem setReg_land (a : Nat) (v : Word) (s : State) : (setReg a v s).land = s.land := rfl
@[simp] theorem setReg_prot (a : Nat) (v : Word) (s : State) : (setReg a v s).prot = s.prot := rfl
@[simp] theorem setReg_seams (a : Nat) (v : Word) (s : State) : (setReg a v s).seams = s.seams := rfl
@[simp] theorem setReg_tub (a : Nat) (v : Word) (s : State) : (setReg a v s).tub = s.tub := rfl
@[simp] theorem setReg_wnd (a : Nat) (v : Word) (s : State) : (setReg a v s).wnd = s.wnd := rfl
@[simp] theorem setReg_sched (a : Nat) (v : Word) (s : State) : (setReg a v s).sched = s.sched := rfl
@[simp] theorem setReg_ports (a : Nat) (v : Word) (s : State) : (setReg a v s).ports = s.ports := rfl
@[simp] theorem setReg_mdio (a : Nat) (v : Word) (s : State) : (setReg a v s).mdio = s.mdio := rfl
@[simp] theorem setReg_ingress (a : Nat) (v : Word) (s : State) : (setReg a v s).ingress = s.ingress := rfl
@[simp] theorem setReg_join (a : Nat) (v : Word) (s : State) : (setReg a v s).join = s.join := rfl
@[simp] theorem setReg_ciph (a : Nat) (v : Word) (s : State) : (setReg a v s).ciph = s.ciph := rfl
@[simp] theorem setReg_cls (a : Nat) (v : Word) (s : State) : (setReg a v s).cls = s.cls := rfl
@[simp] theorem setReg_tally (a : Nat) (v : Word) (s : State) : (setReg a v s).tally = s.tally := rfl
@[simp] theorem setReg_circuits (a : Nat) (v : Word) (s : State) : (setReg a v s).circuits = s.circuits := rfl
@[simp] theorem setReg_looped (a : Nat) (v : Word) (s : State) : (setReg a v s).looped = s.looped := rfl
@[simp] theorem setReg_lanes (a : Nat) (v : Word) (s : State) : (setReg a v s).lanes = s.lanes := rfl
@[simp] theorem setReg_chain (a : Nat) (v : Word) (s : State) : (setReg a v s).chain = s.chain := rfl
@[simp] theorem setReg_host (a : Nat) (v : Word) (s : State) : (setReg a v s).host = s.host := rfl

@[simp] theorem countN_pending (a n : Nat) (s : State) : (countN a n s).pending = s.pending := rfl
@[simp] theorem countN_cycle (a n : Nat) (s : State) : (countN a n s).cycle = s.cycle := rfl
@[simp] theorem countN_free (a n : Nat) (s : State) : (countN a n s).free = s.free := rfl
@[simp] theorem countN_outs (a n : Nat) (s : State) : (countN a n s).outs = s.outs := rfl
@[simp] theorem countN_latch (a n : Nat) (s : State) : (countN a n s).latch = s.latch := rfl
@[simp] theorem countN_misaligned (a n : Nat) (s : State) : (countN a n s).misaligned = s.misaligned := rfl
@[simp] theorem countN_tick (a n : Nat) (s : State) : (countN a n s).tick = s.tick := rfl
@[simp] theorem countN_boot (a n : Nat) (s : State) : (countN a n s).boot = s.boot := rfl
@[simp] theorem countN_supply (a n : Nat) (s : State) : (countN a n s).supply = s.supply := rfl
@[simp] theorem countN_time (a n : Nat) (s : State) : (countN a n s).time = s.time := rfl
@[simp] theorem countN_keep (a n : Nat) (s : State) : (countN a n s).keep = s.keep := rfl
@[simp] theorem countN_recd (a n : Nat) (s : State) : (countN a n s).recd = s.recd := rfl
@[simp] theorem countN_pwr (a n : Nat) (s : State) : (countN a n s).pwr = s.pwr := rfl
@[simp] theorem countN_assay (a n : Nat) (s : State) : (countN a n s).assay = s.assay := rfl
@[simp] theorem countN_land (a n : Nat) (s : State) : (countN a n s).land = s.land := rfl
@[simp] theorem countN_prot (a n : Nat) (s : State) : (countN a n s).prot = s.prot := rfl
@[simp] theorem countN_seams (a n : Nat) (s : State) : (countN a n s).seams = s.seams := rfl
@[simp] theorem countN_tub (a n : Nat) (s : State) : (countN a n s).tub = s.tub := rfl
@[simp] theorem countN_wnd (a n : Nat) (s : State) : (countN a n s).wnd = s.wnd := rfl
@[simp] theorem countN_sched (a n : Nat) (s : State) : (countN a n s).sched = s.sched := rfl
@[simp] theorem countN_ports (a n : Nat) (s : State) : (countN a n s).ports = s.ports := rfl
@[simp] theorem countN_mdio (a n : Nat) (s : State) : (countN a n s).mdio = s.mdio := rfl
@[simp] theorem countN_ingress (a n : Nat) (s : State) : (countN a n s).ingress = s.ingress := rfl
@[simp] theorem countN_join (a n : Nat) (s : State) : (countN a n s).join = s.join := rfl
@[simp] theorem countN_ciph (a n : Nat) (s : State) : (countN a n s).ciph = s.ciph := rfl
@[simp] theorem countN_cls (a n : Nat) (s : State) : (countN a n s).cls = s.cls := rfl
@[simp] theorem countN_tally (a n : Nat) (s : State) : (countN a n s).tally = s.tally := rfl
@[simp] theorem countN_circuits (a n : Nat) (s : State) : (countN a n s).circuits = s.circuits := rfl
@[simp] theorem countN_looped (a n : Nat) (s : State) : (countN a n s).looped = s.looped := rfl
@[simp] theorem countN_lanes (a n : Nat) (s : State) : (countN a n s).lanes = s.lanes := rfl
@[simp] theorem countN_chain (a n : Nat) (s : State) : (countN a n s).chain = s.chain := rfl
@[simp] theorem countN_host (a n : Nat) (s : State) : (countN a n s).host = s.host := rfl

@[simp] theorem count_pending (a : Nat) (s : State) : (count a s).pending = s.pending := rfl
@[simp] theorem count_cycle (a : Nat) (s : State) : (count a s).cycle = s.cycle := rfl
@[simp] theorem count_free (a : Nat) (s : State) : (count a s).free = s.free := rfl
@[simp] theorem count_outs (a : Nat) (s : State) : (count a s).outs = s.outs := rfl
@[simp] theorem count_latch (a : Nat) (s : State) : (count a s).latch = s.latch := rfl
@[simp] theorem count_misaligned (a : Nat) (s : State) : (count a s).misaligned = s.misaligned := rfl
@[simp] theorem count_tick (a : Nat) (s : State) : (count a s).tick = s.tick := rfl
@[simp] theorem count_boot (a : Nat) (s : State) : (count a s).boot = s.boot := rfl
@[simp] theorem count_supply (a : Nat) (s : State) : (count a s).supply = s.supply := rfl
@[simp] theorem count_time (a : Nat) (s : State) : (count a s).time = s.time := rfl
@[simp] theorem count_keep (a : Nat) (s : State) : (count a s).keep = s.keep := rfl
@[simp] theorem count_recd (a : Nat) (s : State) : (count a s).recd = s.recd := rfl
@[simp] theorem count_pwr (a : Nat) (s : State) : (count a s).pwr = s.pwr := rfl
@[simp] theorem count_assay (a : Nat) (s : State) : (count a s).assay = s.assay := rfl
@[simp] theorem count_land (a : Nat) (s : State) : (count a s).land = s.land := rfl
@[simp] theorem count_prot (a : Nat) (s : State) : (count a s).prot = s.prot := rfl
@[simp] theorem count_seams (a : Nat) (s : State) : (count a s).seams = s.seams := rfl
@[simp] theorem count_tub (a : Nat) (s : State) : (count a s).tub = s.tub := rfl
@[simp] theorem count_wnd (a : Nat) (s : State) : (count a s).wnd = s.wnd := rfl
@[simp] theorem count_sched (a : Nat) (s : State) : (count a s).sched = s.sched := rfl
@[simp] theorem count_ports (a : Nat) (s : State) : (count a s).ports = s.ports := rfl
@[simp] theorem count_mdio (a : Nat) (s : State) : (count a s).mdio = s.mdio := rfl
@[simp] theorem count_ingress (a : Nat) (s : State) : (count a s).ingress = s.ingress := rfl
@[simp] theorem count_join (a : Nat) (s : State) : (count a s).join = s.join := rfl
@[simp] theorem count_ciph (a : Nat) (s : State) : (count a s).ciph = s.ciph := rfl
@[simp] theorem count_cls (a : Nat) (s : State) : (count a s).cls = s.cls := rfl
@[simp] theorem count_tally (a : Nat) (s : State) : (count a s).tally = s.tally := rfl
@[simp] theorem count_circuits (a : Nat) (s : State) : (count a s).circuits = s.circuits := rfl
@[simp] theorem count_looped (a : Nat) (s : State) : (count a s).looped = s.looped := rfl
@[simp] theorem count_lanes (a : Nat) (s : State) : (count a s).lanes = s.lanes := rfl
@[simp] theorem count_chain (a : Nat) (s : State) : (count a s).chain = s.chain := rfl
@[simp] theorem count_host (a : Nat) (s : State) : (count a s).host = s.host := rfl

@[simp] theorem count64_pending (a n : Nat) (s : State) : (count64 a n s).pending = s.pending := rfl
@[simp] theorem count64_cycle (a n : Nat) (s : State) : (count64 a n s).cycle = s.cycle := rfl
@[simp] theorem count64_free (a n : Nat) (s : State) : (count64 a n s).free = s.free := rfl
@[simp] theorem count64_outs (a n : Nat) (s : State) : (count64 a n s).outs = s.outs := rfl
@[simp] theorem count64_latch (a n : Nat) (s : State) : (count64 a n s).latch = s.latch := rfl
@[simp] theorem count64_misaligned (a n : Nat) (s : State) : (count64 a n s).misaligned = s.misaligned := rfl
@[simp] theorem count64_tick (a n : Nat) (s : State) : (count64 a n s).tick = s.tick := rfl
@[simp] theorem count64_boot (a n : Nat) (s : State) : (count64 a n s).boot = s.boot := rfl
@[simp] theorem count64_supply (a n : Nat) (s : State) : (count64 a n s).supply = s.supply := rfl
@[simp] theorem count64_time (a n : Nat) (s : State) : (count64 a n s).time = s.time := rfl
@[simp] theorem count64_keep (a n : Nat) (s : State) : (count64 a n s).keep = s.keep := rfl
@[simp] theorem count64_recd (a n : Nat) (s : State) : (count64 a n s).recd = s.recd := rfl
@[simp] theorem count64_pwr (a n : Nat) (s : State) : (count64 a n s).pwr = s.pwr := rfl
@[simp] theorem count64_assay (a n : Nat) (s : State) : (count64 a n s).assay = s.assay := rfl
@[simp] theorem count64_land (a n : Nat) (s : State) : (count64 a n s).land = s.land := rfl
@[simp] theorem count64_prot (a n : Nat) (s : State) : (count64 a n s).prot = s.prot := rfl
@[simp] theorem count64_seams (a n : Nat) (s : State) : (count64 a n s).seams = s.seams := rfl
@[simp] theorem count64_tub (a n : Nat) (s : State) : (count64 a n s).tub = s.tub := rfl
@[simp] theorem count64_wnd (a n : Nat) (s : State) : (count64 a n s).wnd = s.wnd := rfl
@[simp] theorem count64_sched (a n : Nat) (s : State) : (count64 a n s).sched = s.sched := rfl
@[simp] theorem count64_ports (a n : Nat) (s : State) : (count64 a n s).ports = s.ports := rfl
@[simp] theorem count64_mdio (a n : Nat) (s : State) : (count64 a n s).mdio = s.mdio := rfl
@[simp] theorem count64_ingress (a n : Nat) (s : State) : (count64 a n s).ingress = s.ingress := rfl
@[simp] theorem count64_join (a n : Nat) (s : State) : (count64 a n s).join = s.join := rfl
@[simp] theorem count64_ciph (a n : Nat) (s : State) : (count64 a n s).ciph = s.ciph := rfl
@[simp] theorem count64_cls (a n : Nat) (s : State) : (count64 a n s).cls = s.cls := rfl
@[simp] theorem count64_tally (a n : Nat) (s : State) : (count64 a n s).tally = s.tally := rfl
@[simp] theorem count64_circuits (a n : Nat) (s : State) : (count64 a n s).circuits = s.circuits := rfl
@[simp] theorem count64_looped (a n : Nat) (s : State) : (count64 a n s).looped = s.looped := rfl
@[simp] theorem count64_lanes (a n : Nat) (s : State) : (count64 a n s).lanes = s.lanes := rfl
@[simp] theorem count64_chain (a n : Nat) (s : State) : (count64 a n s).chain = s.chain := rfl
@[simp] theorem count64_host (a n : Nat) (s : State) : (count64 a n s).host = s.host := rfl

@[simp] theorem setRfld_pending (a hi lo v : Nat) (s : State) : (setRfld a hi lo v s).pending = s.pending := rfl
@[simp] theorem setRfld_cycle (a hi lo v : Nat) (s : State) : (setRfld a hi lo v s).cycle = s.cycle := rfl
@[simp] theorem setRfld_free (a hi lo v : Nat) (s : State) : (setRfld a hi lo v s).free = s.free := rfl
@[simp] theorem setRfld_outs (a hi lo v : Nat) (s : State) : (setRfld a hi lo v s).outs = s.outs := rfl
@[simp] theorem setRfld_latch (a hi lo v : Nat) (s : State) : (setRfld a hi lo v s).latch = s.latch := rfl
@[simp] theorem setRfld_misaligned (a hi lo v : Nat) (s : State) : (setRfld a hi lo v s).misaligned = s.misaligned := rfl
@[simp] theorem setRfld_tick (a hi lo v : Nat) (s : State) : (setRfld a hi lo v s).tick = s.tick := rfl
@[simp] theorem setRfld_boot (a hi lo v : Nat) (s : State) : (setRfld a hi lo v s).boot = s.boot := rfl
@[simp] theorem setRfld_supply (a hi lo v : Nat) (s : State) : (setRfld a hi lo v s).supply = s.supply := rfl
@[simp] theorem setRfld_time (a hi lo v : Nat) (s : State) : (setRfld a hi lo v s).time = s.time := rfl
@[simp] theorem setRfld_keep (a hi lo v : Nat) (s : State) : (setRfld a hi lo v s).keep = s.keep := rfl
@[simp] theorem setRfld_recd (a hi lo v : Nat) (s : State) : (setRfld a hi lo v s).recd = s.recd := rfl
@[simp] theorem setRfld_pwr (a hi lo v : Nat) (s : State) : (setRfld a hi lo v s).pwr = s.pwr := rfl
@[simp] theorem setRfld_assay (a hi lo v : Nat) (s : State) : (setRfld a hi lo v s).assay = s.assay := rfl
@[simp] theorem setRfld_land (a hi lo v : Nat) (s : State) : (setRfld a hi lo v s).land = s.land := rfl
@[simp] theorem setRfld_prot (a hi lo v : Nat) (s : State) : (setRfld a hi lo v s).prot = s.prot := rfl
@[simp] theorem setRfld_seams (a hi lo v : Nat) (s : State) : (setRfld a hi lo v s).seams = s.seams := rfl
@[simp] theorem setRfld_tub (a hi lo v : Nat) (s : State) : (setRfld a hi lo v s).tub = s.tub := rfl
@[simp] theorem setRfld_wnd (a hi lo v : Nat) (s : State) : (setRfld a hi lo v s).wnd = s.wnd := rfl
@[simp] theorem setRfld_sched (a hi lo v : Nat) (s : State) : (setRfld a hi lo v s).sched = s.sched := rfl
@[simp] theorem setRfld_ports (a hi lo v : Nat) (s : State) : (setRfld a hi lo v s).ports = s.ports := rfl
@[simp] theorem setRfld_mdio (a hi lo v : Nat) (s : State) : (setRfld a hi lo v s).mdio = s.mdio := rfl
@[simp] theorem setRfld_ingress (a hi lo v : Nat) (s : State) : (setRfld a hi lo v s).ingress = s.ingress := rfl
@[simp] theorem setRfld_join (a hi lo v : Nat) (s : State) : (setRfld a hi lo v s).join = s.join := rfl
@[simp] theorem setRfld_ciph (a hi lo v : Nat) (s : State) : (setRfld a hi lo v s).ciph = s.ciph := rfl
@[simp] theorem setRfld_cls (a hi lo v : Nat) (s : State) : (setRfld a hi lo v s).cls = s.cls := rfl
@[simp] theorem setRfld_tally (a hi lo v : Nat) (s : State) : (setRfld a hi lo v s).tally = s.tally := rfl
@[simp] theorem setRfld_circuits (a hi lo v : Nat) (s : State) : (setRfld a hi lo v s).circuits = s.circuits := rfl
@[simp] theorem setRfld_looped (a hi lo v : Nat) (s : State) : (setRfld a hi lo v s).looped = s.looped := rfl
@[simp] theorem setRfld_lanes (a hi lo v : Nat) (s : State) : (setRfld a hi lo v s).lanes = s.lanes := rfl
@[simp] theorem setRfld_chain (a hi lo v : Nat) (s : State) : (setRfld a hi lo v s).chain = s.chain := rfl
@[simp] theorem setRfld_host (a hi lo v : Nat) (s : State) : (setRfld a hi lo v s).host = s.host := rfl

@[simp] theorem emit_pending (o : Output) (s : State) : (emit o s).pending = s.pending := rfl
@[simp] theorem emit_cycle (o : Output) (s : State) : (emit o s).cycle = s.cycle := rfl
@[simp] theorem emit_free (o : Output) (s : State) : (emit o s).free = s.free := rfl
@[simp] theorem emit_outs (o : Output) (s : State) : (emit o s).outs = o :: s.outs := rfl
@[simp] theorem emit_regs (o : Output) (s : State) : (emit o s).regs = s.regs := rfl
@[simp] theorem emit_latch (o : Output) (s : State) : (emit o s).latch = s.latch := rfl
@[simp] theorem emit_misaligned (o : Output) (s : State) : (emit o s).misaligned = s.misaligned := rfl
@[simp] theorem emit_tick (o : Output) (s : State) : (emit o s).tick = s.tick := rfl
@[simp] theorem emit_boot (o : Output) (s : State) : (emit o s).boot = s.boot := rfl
@[simp] theorem emit_supply (o : Output) (s : State) : (emit o s).supply = s.supply := rfl
@[simp] theorem emit_time (o : Output) (s : State) : (emit o s).time = s.time := rfl
@[simp] theorem emit_keep (o : Output) (s : State) : (emit o s).keep = s.keep := rfl
@[simp] theorem emit_recd (o : Output) (s : State) : (emit o s).recd = s.recd := rfl
@[simp] theorem emit_pwr (o : Output) (s : State) : (emit o s).pwr = s.pwr := rfl
@[simp] theorem emit_assay (o : Output) (s : State) : (emit o s).assay = s.assay := rfl
@[simp] theorem emit_land (o : Output) (s : State) : (emit o s).land = s.land := rfl
@[simp] theorem emit_prot (o : Output) (s : State) : (emit o s).prot = s.prot := rfl
@[simp] theorem emit_seams (o : Output) (s : State) : (emit o s).seams = s.seams := rfl
@[simp] theorem emit_tub (o : Output) (s : State) : (emit o s).tub = s.tub := rfl
@[simp] theorem emit_wnd (o : Output) (s : State) : (emit o s).wnd = s.wnd := rfl
@[simp] theorem emit_sched (o : Output) (s : State) : (emit o s).sched = s.sched := rfl
@[simp] theorem emit_ports (o : Output) (s : State) : (emit o s).ports = s.ports := rfl
@[simp] theorem emit_mdio (o : Output) (s : State) : (emit o s).mdio = s.mdio := rfl
@[simp] theorem emit_ingress (o : Output) (s : State) : (emit o s).ingress = s.ingress := rfl
@[simp] theorem emit_join (o : Output) (s : State) : (emit o s).join = s.join := rfl
@[simp] theorem emit_ciph (o : Output) (s : State) : (emit o s).ciph = s.ciph := rfl
@[simp] theorem emit_cls (o : Output) (s : State) : (emit o s).cls = s.cls := rfl
@[simp] theorem emit_tally (o : Output) (s : State) : (emit o s).tally = s.tally := rfl
@[simp] theorem emit_circuits (o : Output) (s : State) : (emit o s).circuits = s.circuits := rfl
@[simp] theorem emit_looped (o : Output) (s : State) : (emit o s).looped = s.looped := rfl
@[simp] theorem emit_lanes (o : Output) (s : State) : (emit o s).lanes = s.lanes := rfl
@[simp] theorem emit_chain (o : Output) (s : State) : (emit o s).chain = s.chain := rfl
@[simp] theorem emit_host (o : Output) (s : State) : (emit o s).host = s.host := rfl

@[simp] theorem nextFree_pending (s : State) : (nextFree s).pending = s.pending := rfl
@[simp] theorem nextFree_cycle (s : State) : (nextFree s).cycle = s.cycle := rfl
@[simp] theorem nextFree_free (s : State) : (nextFree s).free = s.free + 1 := rfl
@[simp] theorem nextFree_outs (s : State) : (nextFree s).outs = s.outs := rfl
@[simp] theorem nextFree_regs (s : State) : (nextFree s).regs = s.regs := rfl
@[simp] theorem nextFree_latch (s : State) : (nextFree s).latch = s.latch := rfl
@[simp] theorem nextFree_misaligned (s : State) : (nextFree s).misaligned = s.misaligned := rfl
@[simp] theorem nextFree_tick (s : State) : (nextFree s).tick = s.tick := rfl
@[simp] theorem nextFree_boot (s : State) : (nextFree s).boot = s.boot := rfl
@[simp] theorem nextFree_supply (s : State) : (nextFree s).supply = s.supply := rfl
@[simp] theorem nextFree_time (s : State) : (nextFree s).time = s.time := rfl
@[simp] theorem nextFree_keep (s : State) : (nextFree s).keep = s.keep := rfl
@[simp] theorem nextFree_recd (s : State) : (nextFree s).recd = s.recd := rfl
@[simp] theorem nextFree_pwr (s : State) : (nextFree s).pwr = s.pwr := rfl
@[simp] theorem nextFree_assay (s : State) : (nextFree s).assay = s.assay := rfl
@[simp] theorem nextFree_land (s : State) : (nextFree s).land = s.land := rfl
@[simp] theorem nextFree_prot (s : State) : (nextFree s).prot = s.prot := rfl
@[simp] theorem nextFree_seams (s : State) : (nextFree s).seams = s.seams := rfl
@[simp] theorem nextFree_tub (s : State) : (nextFree s).tub = s.tub := rfl
@[simp] theorem nextFree_wnd (s : State) : (nextFree s).wnd = s.wnd := rfl
@[simp] theorem nextFree_sched (s : State) : (nextFree s).sched = s.sched := rfl
@[simp] theorem nextFree_ports (s : State) : (nextFree s).ports = s.ports := rfl
@[simp] theorem nextFree_mdio (s : State) : (nextFree s).mdio = s.mdio := rfl
@[simp] theorem nextFree_ingress (s : State) : (nextFree s).ingress = s.ingress := rfl
@[simp] theorem nextFree_join (s : State) : (nextFree s).join = s.join := rfl
@[simp] theorem nextFree_ciph (s : State) : (nextFree s).ciph = s.ciph := rfl
@[simp] theorem nextFree_cls (s : State) : (nextFree s).cls = s.cls := rfl
@[simp] theorem nextFree_tally (s : State) : (nextFree s).tally = s.tally := rfl
@[simp] theorem nextFree_circuits (s : State) : (nextFree s).circuits = s.circuits := rfl
@[simp] theorem nextFree_looped (s : State) : (nextFree s).looped = s.looped := rfl
@[simp] theorem nextFree_lanes (s : State) : (nextFree s).lanes = s.lanes := rfl
@[simp] theorem nextFree_chain (s : State) : (nextFree s).chain = s.chain := rfl
@[simp] theorem nextFree_host (s : State) : (nextFree s).host = s.host := rfl

@[simp] theorem dropAtIngress_pending (s : State) : (dropAtIngress s).pending = s.pending := rfl
@[simp] theorem dropAtIngress_cycle (s : State) : (dropAtIngress s).cycle = s.cycle := rfl
@[simp] theorem dropAtIngress_free (s : State) : (dropAtIngress s).free = s.free := rfl
@[simp] theorem dropAtIngress_outs (s : State) : (dropAtIngress s).outs = s.outs := rfl
@[simp] theorem dropAtIngress_regs (s : State) : (dropAtIngress s).regs = s.regs := rfl
@[simp] theorem dropAtIngress_latch (s : State) : (dropAtIngress s).latch = s.latch := rfl
@[simp] theorem dropAtIngress_misaligned (s : State) : (dropAtIngress s).misaligned = s.misaligned := rfl
@[simp] theorem dropAtIngress_tick (s : State) : (dropAtIngress s).tick = s.tick := rfl
@[simp] theorem dropAtIngress_boot (s : State) : (dropAtIngress s).boot = s.boot := rfl
@[simp] theorem dropAtIngress_time (s : State) : (dropAtIngress s).time = s.time := rfl
@[simp] theorem dropAtIngress_keep (s : State) : (dropAtIngress s).keep = s.keep := rfl
@[simp] theorem dropAtIngress_recd (s : State) : (dropAtIngress s).recd = s.recd := rfl
@[simp] theorem dropAtIngress_pwr (s : State) : (dropAtIngress s).pwr = s.pwr := rfl
@[simp] theorem dropAtIngress_assay (s : State) : (dropAtIngress s).assay = s.assay := rfl
@[simp] theorem dropAtIngress_land (s : State) : (dropAtIngress s).land = s.land := rfl
@[simp] theorem dropAtIngress_prot (s : State) : (dropAtIngress s).prot = s.prot := rfl
@[simp] theorem dropAtIngress_seams (s : State) : (dropAtIngress s).seams = s.seams := rfl
@[simp] theorem dropAtIngress_tub (s : State) : (dropAtIngress s).tub = s.tub := rfl
@[simp] theorem dropAtIngress_wnd (s : State) : (dropAtIngress s).wnd = s.wnd := rfl
@[simp] theorem dropAtIngress_sched (s : State) : (dropAtIngress s).sched = s.sched := rfl
@[simp] theorem dropAtIngress_ports (s : State) : (dropAtIngress s).ports = s.ports := rfl
@[simp] theorem dropAtIngress_mdio (s : State) : (dropAtIngress s).mdio = s.mdio := rfl
@[simp] theorem dropAtIngress_ingress (s : State) : (dropAtIngress s).ingress = s.ingress := rfl
@[simp] theorem dropAtIngress_join (s : State) : (dropAtIngress s).join = s.join := rfl
@[simp] theorem dropAtIngress_ciph (s : State) : (dropAtIngress s).ciph = s.ciph := rfl
@[simp] theorem dropAtIngress_cls (s : State) : (dropAtIngress s).cls = s.cls := rfl
@[simp] theorem dropAtIngress_tally (s : State) : (dropAtIngress s).tally = s.tally := rfl
@[simp] theorem dropAtIngress_circuits (s : State) : (dropAtIngress s).circuits = s.circuits := rfl
@[simp] theorem dropAtIngress_looped (s : State) : (dropAtIngress s).looped = s.looped := rfl
@[simp] theorem dropAtIngress_lanes (s : State) : (dropAtIngress s).lanes = s.lanes := rfl
@[simp] theorem dropAtIngress_chain (s : State) : (dropAtIngress s).chain = s.chain := rfl
@[simp] theorem dropAtIngress_host (s : State) : (dropAtIngress s).host = s.host := rfl

@[simp] theorem noteFault_pending (src inst : Nat) (s : State) : (noteFault src inst s).pending = s.pending := rfl
@[simp] theorem noteFault_cycle (src inst : Nat) (s : State) : (noteFault src inst s).cycle = s.cycle := rfl
@[simp] theorem noteFault_free (src inst : Nat) (s : State) : (noteFault src inst s).free = s.free := rfl
@[simp] theorem noteFault_outs (src inst : Nat) (s : State) : (noteFault src inst s).outs = s.outs := rfl
@[simp] theorem noteFault_regs (src inst : Nat) (s : State) : (noteFault src inst s).regs = s.regs := rfl
@[simp] theorem noteFault_latch (src inst : Nat) (s : State) : (noteFault src inst s).latch = s.latch := rfl
@[simp] theorem noteFault_misaligned (src inst : Nat) (s : State) : (noteFault src inst s).misaligned = s.misaligned := rfl
@[simp] theorem noteFault_tick (src inst : Nat) (s : State) : (noteFault src inst s).tick = s.tick := rfl
@[simp] theorem noteFault_boot (src inst : Nat) (s : State) : (noteFault src inst s).boot = s.boot := rfl
@[simp] theorem noteFault_supply (src inst : Nat) (s : State) : (noteFault src inst s).supply = s.supply := rfl
@[simp] theorem noteFault_time (src inst : Nat) (s : State) : (noteFault src inst s).time = s.time := rfl
@[simp] theorem noteFault_keep (src inst : Nat) (s : State) : (noteFault src inst s).keep = s.keep := rfl
@[simp] theorem noteFault_recd (src inst : Nat) (s : State) : (noteFault src inst s).recd = s.recd := rfl
@[simp] theorem noteFault_pwr (src inst : Nat) (s : State) : (noteFault src inst s).pwr = s.pwr := rfl
@[simp] theorem noteFault_land (src inst : Nat) (s : State) : (noteFault src inst s).land = s.land := rfl
@[simp] theorem noteFault_prot (src inst : Nat) (s : State) : (noteFault src inst s).prot = s.prot := rfl
@[simp] theorem noteFault_seams (src inst : Nat) (s : State) : (noteFault src inst s).seams = s.seams := rfl
@[simp] theorem noteFault_tub (src inst : Nat) (s : State) : (noteFault src inst s).tub = s.tub := rfl
@[simp] theorem noteFault_wnd (src inst : Nat) (s : State) : (noteFault src inst s).wnd = s.wnd := rfl
@[simp] theorem noteFault_sched (src inst : Nat) (s : State) : (noteFault src inst s).sched = s.sched := rfl
@[simp] theorem noteFault_ports (src inst : Nat) (s : State) : (noteFault src inst s).ports = s.ports := rfl
@[simp] theorem noteFault_mdio (src inst : Nat) (s : State) : (noteFault src inst s).mdio = s.mdio := rfl
@[simp] theorem noteFault_ingress (src inst : Nat) (s : State) : (noteFault src inst s).ingress = s.ingress := rfl
@[simp] theorem noteFault_join (src inst : Nat) (s : State) : (noteFault src inst s).join = s.join := rfl
@[simp] theorem noteFault_ciph (src inst : Nat) (s : State) : (noteFault src inst s).ciph = s.ciph := rfl
@[simp] theorem noteFault_cls (src inst : Nat) (s : State) : (noteFault src inst s).cls = s.cls := rfl
@[simp] theorem noteFault_tally (src inst : Nat) (s : State) : (noteFault src inst s).tally = s.tally := rfl
@[simp] theorem noteFault_circuits (src inst : Nat) (s : State) : (noteFault src inst s).circuits = s.circuits := rfl
@[simp] theorem noteFault_looped (src inst : Nat) (s : State) : (noteFault src inst s).looped = s.looped := rfl
@[simp] theorem noteFault_lanes (src inst : Nat) (s : State) : (noteFault src inst s).lanes = s.lanes := rfl
@[simp] theorem noteFault_chain (src inst : Nat) (s : State) : (noteFault src inst s).chain = s.chain := rfl
@[simp] theorem noteFault_host (src inst : Nat) (s : State) : (noteFault src inst s).host = s.host := rfl

@[simp] theorem setDom_pending (d : Nat) (x : DomState) (s : State) : (setDom d x s).pending = s.pending := rfl
@[simp] theorem setDom_cycle (d : Nat) (x : DomState) (s : State) : (setDom d x s).cycle = s.cycle := rfl
@[simp] theorem setDom_free (d : Nat) (x : DomState) (s : State) : (setDom d x s).free = s.free := rfl
@[simp] theorem setDom_outs (d : Nat) (x : DomState) (s : State) : (setDom d x s).outs = s.outs := rfl
@[simp] theorem setDom_regs (d : Nat) (x : DomState) (s : State) : (setDom d x s).regs = s.regs := rfl
@[simp] theorem setDom_latch (d : Nat) (x : DomState) (s : State) : (setDom d x s).latch = s.latch := rfl
@[simp] theorem setDom_misaligned (d : Nat) (x : DomState) (s : State) : (setDom d x s).misaligned = s.misaligned := rfl
@[simp] theorem setDom_tick (d : Nat) (x : DomState) (s : State) : (setDom d x s).tick = s.tick := rfl
@[simp] theorem setDom_boot (d : Nat) (x : DomState) (s : State) : (setDom d x s).boot = s.boot := rfl
@[simp] theorem setDom_supply (d : Nat) (x : DomState) (s : State) : (setDom d x s).supply = s.supply := rfl
@[simp] theorem setDom_time (d : Nat) (x : DomState) (s : State) : (setDom d x s).time = s.time := rfl
@[simp] theorem setDom_keep (d : Nat) (x : DomState) (s : State) : (setDom d x s).keep = s.keep := rfl
@[simp] theorem setDom_recd (d : Nat) (x : DomState) (s : State) : (setDom d x s).recd = s.recd := rfl
@[simp] theorem setDom_assay (d : Nat) (x : DomState) (s : State) : (setDom d x s).assay = s.assay := rfl
@[simp] theorem setDom_land (d : Nat) (x : DomState) (s : State) : (setDom d x s).land = s.land := rfl
@[simp] theorem setDom_prot (d : Nat) (x : DomState) (s : State) : (setDom d x s).prot = s.prot := rfl
@[simp] theorem setDom_seams (d : Nat) (x : DomState) (s : State) : (setDom d x s).seams = s.seams := rfl
@[simp] theorem setDom_tub (d : Nat) (x : DomState) (s : State) : (setDom d x s).tub = s.tub := rfl
@[simp] theorem setDom_wnd (d : Nat) (x : DomState) (s : State) : (setDom d x s).wnd = s.wnd := rfl
@[simp] theorem setDom_sched (d : Nat) (x : DomState) (s : State) : (setDom d x s).sched = s.sched := rfl
@[simp] theorem setDom_ports (d : Nat) (x : DomState) (s : State) : (setDom d x s).ports = s.ports := rfl
@[simp] theorem setDom_mdio (d : Nat) (x : DomState) (s : State) : (setDom d x s).mdio = s.mdio := rfl
@[simp] theorem setDom_ingress (d : Nat) (x : DomState) (s : State) : (setDom d x s).ingress = s.ingress := rfl
@[simp] theorem setDom_join (d : Nat) (x : DomState) (s : State) : (setDom d x s).join = s.join := rfl
@[simp] theorem setDom_ciph (d : Nat) (x : DomState) (s : State) : (setDom d x s).ciph = s.ciph := rfl
@[simp] theorem setDom_cls (d : Nat) (x : DomState) (s : State) : (setDom d x s).cls = s.cls := rfl
@[simp] theorem setDom_tally (d : Nat) (x : DomState) (s : State) : (setDom d x s).tally = s.tally := rfl
@[simp] theorem setDom_circuits (d : Nat) (x : DomState) (s : State) : (setDom d x s).circuits = s.circuits := rfl
@[simp] theorem setDom_looped (d : Nat) (x : DomState) (s : State) : (setDom d x s).looped = s.looped := rfl
@[simp] theorem setDom_lanes (d : Nat) (x : DomState) (s : State) : (setDom d x s).lanes = s.lanes := rfl
@[simp] theorem setDom_chain (d : Nat) (x : DomState) (s : State) : (setDom d x s).chain = s.chain := rfl
@[simp] theorem setDom_host (d : Nat) (x : DomState) (s : State) : (setDom d x s).host = s.host := rfl

@[simp] theorem setVotes_pending (c v : Nat) (s : State) : (setVotes c v s).pending = s.pending := rfl
@[simp] theorem setVotes_cycle (c v : Nat) (s : State) : (setVotes c v s).cycle = s.cycle := rfl
@[simp] theorem setVotes_free (c v : Nat) (s : State) : (setVotes c v s).free = s.free := rfl
@[simp] theorem setVotes_outs (c v : Nat) (s : State) : (setVotes c v s).outs = s.outs := rfl
@[simp] theorem setVotes_regs (c v : Nat) (s : State) : (setVotes c v s).regs = s.regs := rfl
@[simp] theorem setVotes_latch (c v : Nat) (s : State) : (setVotes c v s).latch = s.latch := rfl
@[simp] theorem setVotes_misaligned (c v : Nat) (s : State) : (setVotes c v s).misaligned = s.misaligned := rfl
@[simp] theorem setVotes_tick (c v : Nat) (s : State) : (setVotes c v s).tick = s.tick := rfl
@[simp] theorem setVotes_boot (c v : Nat) (s : State) : (setVotes c v s).boot = s.boot := rfl
@[simp] theorem setVotes_supply (c v : Nat) (s : State) : (setVotes c v s).supply = s.supply := rfl
@[simp] theorem setVotes_time (c v : Nat) (s : State) : (setVotes c v s).time = s.time := rfl
@[simp] theorem setVotes_keep (c v : Nat) (s : State) : (setVotes c v s).keep = s.keep := rfl
@[simp] theorem setVotes_recd (c v : Nat) (s : State) : (setVotes c v s).recd = s.recd := rfl
@[simp] theorem setVotes_assay (c v : Nat) (s : State) : (setVotes c v s).assay = s.assay := rfl
@[simp] theorem setVotes_land (c v : Nat) (s : State) : (setVotes c v s).land = s.land := rfl
@[simp] theorem setVotes_prot (c v : Nat) (s : State) : (setVotes c v s).prot = s.prot := rfl
@[simp] theorem setVotes_seams (c v : Nat) (s : State) : (setVotes c v s).seams = s.seams := rfl
@[simp] theorem setVotes_tub (c v : Nat) (s : State) : (setVotes c v s).tub = s.tub := rfl
@[simp] theorem setVotes_wnd (c v : Nat) (s : State) : (setVotes c v s).wnd = s.wnd := rfl
@[simp] theorem setVotes_sched (c v : Nat) (s : State) : (setVotes c v s).sched = s.sched := rfl
@[simp] theorem setVotes_ports (c v : Nat) (s : State) : (setVotes c v s).ports = s.ports := rfl
@[simp] theorem setVotes_mdio (c v : Nat) (s : State) : (setVotes c v s).mdio = s.mdio := rfl
@[simp] theorem setVotes_ingress (c v : Nat) (s : State) : (setVotes c v s).ingress = s.ingress := rfl
@[simp] theorem setVotes_join (c v : Nat) (s : State) : (setVotes c v s).join = s.join := rfl
@[simp] theorem setVotes_ciph (c v : Nat) (s : State) : (setVotes c v s).ciph = s.ciph := rfl
@[simp] theorem setVotes_cls (c v : Nat) (s : State) : (setVotes c v s).cls = s.cls := rfl
@[simp] theorem setVotes_tally (c v : Nat) (s : State) : (setVotes c v s).tally = s.tally := rfl
@[simp] theorem setVotes_circuits (c v : Nat) (s : State) : (setVotes c v s).circuits = s.circuits := rfl
@[simp] theorem setVotes_looped (c v : Nat) (s : State) : (setVotes c v s).looped = s.looped := rfl
@[simp] theorem setVotes_lanes (c v : Nat) (s : State) : (setVotes c v s).lanes = s.lanes := rfl
@[simp] theorem setVotes_chain (c v : Nat) (s : State) : (setVotes c v s).chain = s.chain := rfl
@[simp] theorem setVotes_host (c v : Nat) (s : State) : (setVotes c v s).host = s.host := rfl

@[simp] theorem setLane_pending (l : Nat) (x : LaneState) (s : State) : (setLane l x s).pending = s.pending := rfl
@[simp] theorem setLane_cycle (l : Nat) (x : LaneState) (s : State) : (setLane l x s).cycle = s.cycle := rfl
@[simp] theorem setLane_free (l : Nat) (x : LaneState) (s : State) : (setLane l x s).free = s.free := rfl
@[simp] theorem setLane_outs (l : Nat) (x : LaneState) (s : State) : (setLane l x s).outs = s.outs := rfl
@[simp] theorem setLane_regs (l : Nat) (x : LaneState) (s : State) : (setLane l x s).regs = s.regs := rfl
@[simp] theorem setLane_latch (l : Nat) (x : LaneState) (s : State) : (setLane l x s).latch = s.latch := rfl
@[simp] theorem setLane_misaligned (l : Nat) (x : LaneState) (s : State) : (setLane l x s).misaligned = s.misaligned := rfl
@[simp] theorem setLane_tick (l : Nat) (x : LaneState) (s : State) : (setLane l x s).tick = s.tick := rfl
@[simp] theorem setLane_boot (l : Nat) (x : LaneState) (s : State) : (setLane l x s).boot = s.boot := rfl
@[simp] theorem setLane_supply (l : Nat) (x : LaneState) (s : State) : (setLane l x s).supply = s.supply := rfl
@[simp] theorem setLane_time (l : Nat) (x : LaneState) (s : State) : (setLane l x s).time = s.time := rfl
@[simp] theorem setLane_keep (l : Nat) (x : LaneState) (s : State) : (setLane l x s).keep = s.keep := rfl
@[simp] theorem setLane_recd (l : Nat) (x : LaneState) (s : State) : (setLane l x s).recd = s.recd := rfl
@[simp] theorem setLane_pwr (l : Nat) (x : LaneState) (s : State) : (setLane l x s).pwr = s.pwr := rfl
@[simp] theorem setLane_assay (l : Nat) (x : LaneState) (s : State) : (setLane l x s).assay = s.assay := rfl
@[simp] theorem setLane_land (l : Nat) (x : LaneState) (s : State) : (setLane l x s).land = s.land := rfl
@[simp] theorem setLane_prot (l : Nat) (x : LaneState) (s : State) : (setLane l x s).prot = s.prot := rfl
@[simp] theorem setLane_seams (l : Nat) (x : LaneState) (s : State) : (setLane l x s).seams = s.seams := rfl
@[simp] theorem setLane_tub (l : Nat) (x : LaneState) (s : State) : (setLane l x s).tub = s.tub := rfl
@[simp] theorem setLane_wnd (l : Nat) (x : LaneState) (s : State) : (setLane l x s).wnd = s.wnd := rfl
@[simp] theorem setLane_sched (l : Nat) (x : LaneState) (s : State) : (setLane l x s).sched = s.sched := rfl
@[simp] theorem setLane_ports (l : Nat) (x : LaneState) (s : State) : (setLane l x s).ports = s.ports := rfl
@[simp] theorem setLane_mdio (l : Nat) (x : LaneState) (s : State) : (setLane l x s).mdio = s.mdio := rfl
@[simp] theorem setLane_ingress (l : Nat) (x : LaneState) (s : State) : (setLane l x s).ingress = s.ingress := rfl
@[simp] theorem setLane_join (l : Nat) (x : LaneState) (s : State) : (setLane l x s).join = s.join := rfl
@[simp] theorem setLane_ciph (l : Nat) (x : LaneState) (s : State) : (setLane l x s).ciph = s.ciph := rfl
@[simp] theorem setLane_cls (l : Nat) (x : LaneState) (s : State) : (setLane l x s).cls = s.cls := rfl
@[simp] theorem setLane_tally (l : Nat) (x : LaneState) (s : State) : (setLane l x s).tally = s.tally := rfl
@[simp] theorem setLane_circuits (l : Nat) (x : LaneState) (s : State) : (setLane l x s).circuits = s.circuits := rfl
@[simp] theorem setLane_looped (l : Nat) (x : LaneState) (s : State) : (setLane l x s).looped = s.looped := rfl
@[simp] theorem setLane_lanes (l : Nat) (x : LaneState) (s : State) : (setLane l x s).lanes = tput (fun _ => LaneState.reset) l x s.lanes := rfl
@[simp] theorem setLane_chain (l : Nat) (x : LaneState) (s : State) : (setLane l x s).chain = s.chain := rfl
@[simp] theorem setLane_host (l : Nat) (x : LaneState) (s : State) : (setLane l x s).host = s.host := rfl

@[simp] theorem modLane_pending (l : Nat) (f : LaneState → LaneState) (s : State) : (modLane l f s).pending = s.pending := rfl
@[simp] theorem modLane_cycle (l : Nat) (f : LaneState → LaneState) (s : State) : (modLane l f s).cycle = s.cycle := rfl
@[simp] theorem modLane_free (l : Nat) (f : LaneState → LaneState) (s : State) : (modLane l f s).free = s.free := rfl
@[simp] theorem modLane_outs (l : Nat) (f : LaneState → LaneState) (s : State) : (modLane l f s).outs = s.outs := rfl
@[simp] theorem modLane_regs (l : Nat) (f : LaneState → LaneState) (s : State) : (modLane l f s).regs = s.regs := rfl
@[simp] theorem modLane_latch (l : Nat) (f : LaneState → LaneState) (s : State) : (modLane l f s).latch = s.latch := rfl
@[simp] theorem modLane_misaligned (l : Nat) (f : LaneState → LaneState) (s : State) : (modLane l f s).misaligned = s.misaligned := rfl
@[simp] theorem modLane_tick (l : Nat) (f : LaneState → LaneState) (s : State) : (modLane l f s).tick = s.tick := rfl
@[simp] theorem modLane_boot (l : Nat) (f : LaneState → LaneState) (s : State) : (modLane l f s).boot = s.boot := rfl
@[simp] theorem modLane_supply (l : Nat) (f : LaneState → LaneState) (s : State) : (modLane l f s).supply = s.supply := rfl
@[simp] theorem modLane_time (l : Nat) (f : LaneState → LaneState) (s : State) : (modLane l f s).time = s.time := rfl
@[simp] theorem modLane_keep (l : Nat) (f : LaneState → LaneState) (s : State) : (modLane l f s).keep = s.keep := rfl
@[simp] theorem modLane_recd (l : Nat) (f : LaneState → LaneState) (s : State) : (modLane l f s).recd = s.recd := rfl
@[simp] theorem modLane_pwr (l : Nat) (f : LaneState → LaneState) (s : State) : (modLane l f s).pwr = s.pwr := rfl
@[simp] theorem modLane_assay (l : Nat) (f : LaneState → LaneState) (s : State) : (modLane l f s).assay = s.assay := rfl
@[simp] theorem modLane_land (l : Nat) (f : LaneState → LaneState) (s : State) : (modLane l f s).land = s.land := rfl
@[simp] theorem modLane_prot (l : Nat) (f : LaneState → LaneState) (s : State) : (modLane l f s).prot = s.prot := rfl
@[simp] theorem modLane_seams (l : Nat) (f : LaneState → LaneState) (s : State) : (modLane l f s).seams = s.seams := rfl
@[simp] theorem modLane_tub (l : Nat) (f : LaneState → LaneState) (s : State) : (modLane l f s).tub = s.tub := rfl
@[simp] theorem modLane_wnd (l : Nat) (f : LaneState → LaneState) (s : State) : (modLane l f s).wnd = s.wnd := rfl
@[simp] theorem modLane_sched (l : Nat) (f : LaneState → LaneState) (s : State) : (modLane l f s).sched = s.sched := rfl
@[simp] theorem modLane_ports (l : Nat) (f : LaneState → LaneState) (s : State) : (modLane l f s).ports = s.ports := rfl
@[simp] theorem modLane_mdio (l : Nat) (f : LaneState → LaneState) (s : State) : (modLane l f s).mdio = s.mdio := rfl
@[simp] theorem modLane_ingress (l : Nat) (f : LaneState → LaneState) (s : State) : (modLane l f s).ingress = s.ingress := rfl
@[simp] theorem modLane_join (l : Nat) (f : LaneState → LaneState) (s : State) : (modLane l f s).join = s.join := rfl
@[simp] theorem modLane_ciph (l : Nat) (f : LaneState → LaneState) (s : State) : (modLane l f s).ciph = s.ciph := rfl
@[simp] theorem modLane_cls (l : Nat) (f : LaneState → LaneState) (s : State) : (modLane l f s).cls = s.cls := rfl
@[simp] theorem modLane_tally (l : Nat) (f : LaneState → LaneState) (s : State) : (modLane l f s).tally = s.tally := rfl
@[simp] theorem modLane_circuits (l : Nat) (f : LaneState → LaneState) (s : State) : (modLane l f s).circuits = s.circuits := rfl
@[simp] theorem modLane_looped (l : Nat) (f : LaneState → LaneState) (s : State) : (modLane l f s).looped = s.looped := rfl
@[simp] theorem modLane_chain (l : Nat) (f : LaneState → LaneState) (s : State) : (modLane l f s).chain = s.chain := rfl
@[simp] theorem modLane_host (l : Nat) (f : LaneState → LaneState) (s : State) : (modLane l f s).host = s.host := rfl

@[simp] theorem setPort_pending (p : Nat) (x : PortState) (s : State) : (setPort p x s).pending = s.pending := rfl
@[simp] theorem setPort_cycle (p : Nat) (x : PortState) (s : State) : (setPort p x s).cycle = s.cycle := rfl
@[simp] theorem setPort_free (p : Nat) (x : PortState) (s : State) : (setPort p x s).free = s.free := rfl
@[simp] theorem setPort_outs (p : Nat) (x : PortState) (s : State) : (setPort p x s).outs = s.outs := rfl
@[simp] theorem setPort_regs (p : Nat) (x : PortState) (s : State) : (setPort p x s).regs = s.regs := rfl
@[simp] theorem setPort_latch (p : Nat) (x : PortState) (s : State) : (setPort p x s).latch = s.latch := rfl
@[simp] theorem setPort_misaligned (p : Nat) (x : PortState) (s : State) : (setPort p x s).misaligned = s.misaligned := rfl
@[simp] theorem setPort_tick (p : Nat) (x : PortState) (s : State) : (setPort p x s).tick = s.tick := rfl
@[simp] theorem setPort_boot (p : Nat) (x : PortState) (s : State) : (setPort p x s).boot = s.boot := rfl
@[simp] theorem setPort_supply (p : Nat) (x : PortState) (s : State) : (setPort p x s).supply = s.supply := rfl
@[simp] theorem setPort_time (p : Nat) (x : PortState) (s : State) : (setPort p x s).time = s.time := rfl
@[simp] theorem setPort_keep (p : Nat) (x : PortState) (s : State) : (setPort p x s).keep = s.keep := rfl
@[simp] theorem setPort_recd (p : Nat) (x : PortState) (s : State) : (setPort p x s).recd = s.recd := rfl
@[simp] theorem setPort_pwr (p : Nat) (x : PortState) (s : State) : (setPort p x s).pwr = s.pwr := rfl
@[simp] theorem setPort_assay (p : Nat) (x : PortState) (s : State) : (setPort p x s).assay = s.assay := rfl
@[simp] theorem setPort_land (p : Nat) (x : PortState) (s : State) : (setPort p x s).land = s.land := rfl
@[simp] theorem setPort_prot (p : Nat) (x : PortState) (s : State) : (setPort p x s).prot = s.prot := rfl
@[simp] theorem setPort_seams (p : Nat) (x : PortState) (s : State) : (setPort p x s).seams = s.seams := rfl
@[simp] theorem setPort_tub (p : Nat) (x : PortState) (s : State) : (setPort p x s).tub = s.tub := rfl
@[simp] theorem setPort_wnd (p : Nat) (x : PortState) (s : State) : (setPort p x s).wnd = s.wnd := rfl
@[simp] theorem setPort_sched (p : Nat) (x : PortState) (s : State) : (setPort p x s).sched = s.sched := rfl
@[simp] theorem setPort_ports (p : Nat) (x : PortState) (s : State) : (setPort p x s).ports = tput (fun _ => PortState.reset) p x s.ports := rfl
@[simp] theorem setPort_mdio (p : Nat) (x : PortState) (s : State) : (setPort p x s).mdio = s.mdio := rfl
@[simp] theorem setPort_ingress (p : Nat) (x : PortState) (s : State) : (setPort p x s).ingress = s.ingress := rfl
@[simp] theorem setPort_join (p : Nat) (x : PortState) (s : State) : (setPort p x s).join = s.join := rfl
@[simp] theorem setPort_ciph (p : Nat) (x : PortState) (s : State) : (setPort p x s).ciph = s.ciph := rfl
@[simp] theorem setPort_cls (p : Nat) (x : PortState) (s : State) : (setPort p x s).cls = s.cls := rfl
@[simp] theorem setPort_tally (p : Nat) (x : PortState) (s : State) : (setPort p x s).tally = s.tally := rfl
@[simp] theorem setPort_circuits (p : Nat) (x : PortState) (s : State) : (setPort p x s).circuits = s.circuits := rfl
@[simp] theorem setPort_looped (p : Nat) (x : PortState) (s : State) : (setPort p x s).looped = s.looped := rfl
@[simp] theorem setPort_lanes (p : Nat) (x : PortState) (s : State) : (setPort p x s).lanes = s.lanes := rfl
@[simp] theorem setPort_chain (p : Nat) (x : PortState) (s : State) : (setPort p x s).chain = s.chain := rfl
@[simp] theorem setPort_host (p : Nat) (x : PortState) (s : State) : (setPort p x s).host = s.host := rfl

@[simp] theorem modPort_pending (p : Nat) (f : PortState → PortState) (s : State) : (modPort p f s).pending = s.pending := rfl
@[simp] theorem modPort_cycle (p : Nat) (f : PortState → PortState) (s : State) : (modPort p f s).cycle = s.cycle := rfl
@[simp] theorem modPort_free (p : Nat) (f : PortState → PortState) (s : State) : (modPort p f s).free = s.free := rfl
@[simp] theorem modPort_outs (p : Nat) (f : PortState → PortState) (s : State) : (modPort p f s).outs = s.outs := rfl
@[simp] theorem modPort_regs (p : Nat) (f : PortState → PortState) (s : State) : (modPort p f s).regs = s.regs := rfl
@[simp] theorem modPort_latch (p : Nat) (f : PortState → PortState) (s : State) : (modPort p f s).latch = s.latch := rfl
@[simp] theorem modPort_misaligned (p : Nat) (f : PortState → PortState) (s : State) : (modPort p f s).misaligned = s.misaligned := rfl
@[simp] theorem modPort_tick (p : Nat) (f : PortState → PortState) (s : State) : (modPort p f s).tick = s.tick := rfl
@[simp] theorem modPort_boot (p : Nat) (f : PortState → PortState) (s : State) : (modPort p f s).boot = s.boot := rfl
@[simp] theorem modPort_supply (p : Nat) (f : PortState → PortState) (s : State) : (modPort p f s).supply = s.supply := rfl
@[simp] theorem modPort_time (p : Nat) (f : PortState → PortState) (s : State) : (modPort p f s).time = s.time := rfl
@[simp] theorem modPort_keep (p : Nat) (f : PortState → PortState) (s : State) : (modPort p f s).keep = s.keep := rfl
@[simp] theorem modPort_recd (p : Nat) (f : PortState → PortState) (s : State) : (modPort p f s).recd = s.recd := rfl
@[simp] theorem modPort_pwr (p : Nat) (f : PortState → PortState) (s : State) : (modPort p f s).pwr = s.pwr := rfl
@[simp] theorem modPort_assay (p : Nat) (f : PortState → PortState) (s : State) : (modPort p f s).assay = s.assay := rfl
@[simp] theorem modPort_land (p : Nat) (f : PortState → PortState) (s : State) : (modPort p f s).land = s.land := rfl
@[simp] theorem modPort_prot (p : Nat) (f : PortState → PortState) (s : State) : (modPort p f s).prot = s.prot := rfl
@[simp] theorem modPort_seams (p : Nat) (f : PortState → PortState) (s : State) : (modPort p f s).seams = s.seams := rfl
@[simp] theorem modPort_tub (p : Nat) (f : PortState → PortState) (s : State) : (modPort p f s).tub = s.tub := rfl
@[simp] theorem modPort_wnd (p : Nat) (f : PortState → PortState) (s : State) : (modPort p f s).wnd = s.wnd := rfl
@[simp] theorem modPort_sched (p : Nat) (f : PortState → PortState) (s : State) : (modPort p f s).sched = s.sched := rfl
@[simp] theorem modPort_mdio (p : Nat) (f : PortState → PortState) (s : State) : (modPort p f s).mdio = s.mdio := rfl
@[simp] theorem modPort_ingress (p : Nat) (f : PortState → PortState) (s : State) : (modPort p f s).ingress = s.ingress := rfl
@[simp] theorem modPort_join (p : Nat) (f : PortState → PortState) (s : State) : (modPort p f s).join = s.join := rfl
@[simp] theorem modPort_ciph (p : Nat) (f : PortState → PortState) (s : State) : (modPort p f s).ciph = s.ciph := rfl
@[simp] theorem modPort_cls (p : Nat) (f : PortState → PortState) (s : State) : (modPort p f s).cls = s.cls := rfl
@[simp] theorem modPort_tally (p : Nat) (f : PortState → PortState) (s : State) : (modPort p f s).tally = s.tally := rfl
@[simp] theorem modPort_circuits (p : Nat) (f : PortState → PortState) (s : State) : (modPort p f s).circuits = s.circuits := rfl
@[simp] theorem modPort_looped (p : Nat) (f : PortState → PortState) (s : State) : (modPort p f s).looped = s.looped := rfl
@[simp] theorem modPort_lanes (p : Nat) (f : PortState → PortState) (s : State) : (modPort p f s).lanes = s.lanes := rfl
@[simp] theorem modPort_chain (p : Nat) (f : PortState → PortState) (s : State) : (modPort p f s).chain = s.chain := rfl
@[simp] theorem modPort_host (p : Nat) (f : PortState → PortState) (s : State) : (modPort p f s).host = s.host := rfl

@[simp] theorem setSched_pending (p : Nat) (x : PortSched) (s : State) : (setSched p x s).pending = s.pending := rfl
@[simp] theorem setSched_cycle (p : Nat) (x : PortSched) (s : State) : (setSched p x s).cycle = s.cycle := rfl
@[simp] theorem setSched_free (p : Nat) (x : PortSched) (s : State) : (setSched p x s).free = s.free := rfl
@[simp] theorem setSched_outs (p : Nat) (x : PortSched) (s : State) : (setSched p x s).outs = s.outs := rfl
@[simp] theorem setSched_regs (p : Nat) (x : PortSched) (s : State) : (setSched p x s).regs = s.regs := rfl
@[simp] theorem setSched_latch (p : Nat) (x : PortSched) (s : State) : (setSched p x s).latch = s.latch := rfl
@[simp] theorem setSched_misaligned (p : Nat) (x : PortSched) (s : State) : (setSched p x s).misaligned = s.misaligned := rfl
@[simp] theorem setSched_tick (p : Nat) (x : PortSched) (s : State) : (setSched p x s).tick = s.tick := rfl
@[simp] theorem setSched_boot (p : Nat) (x : PortSched) (s : State) : (setSched p x s).boot = s.boot := rfl
@[simp] theorem setSched_supply (p : Nat) (x : PortSched) (s : State) : (setSched p x s).supply = s.supply := rfl
@[simp] theorem setSched_time (p : Nat) (x : PortSched) (s : State) : (setSched p x s).time = s.time := rfl
@[simp] theorem setSched_keep (p : Nat) (x : PortSched) (s : State) : (setSched p x s).keep = s.keep := rfl
@[simp] theorem setSched_recd (p : Nat) (x : PortSched) (s : State) : (setSched p x s).recd = s.recd := rfl
@[simp] theorem setSched_pwr (p : Nat) (x : PortSched) (s : State) : (setSched p x s).pwr = s.pwr := rfl
@[simp] theorem setSched_assay (p : Nat) (x : PortSched) (s : State) : (setSched p x s).assay = s.assay := rfl
@[simp] theorem setSched_land (p : Nat) (x : PortSched) (s : State) : (setSched p x s).land = s.land := rfl
@[simp] theorem setSched_prot (p : Nat) (x : PortSched) (s : State) : (setSched p x s).prot = s.prot := rfl
@[simp] theorem setSched_seams (p : Nat) (x : PortSched) (s : State) : (setSched p x s).seams = s.seams := rfl
@[simp] theorem setSched_tub (p : Nat) (x : PortSched) (s : State) : (setSched p x s).tub = s.tub := rfl
@[simp] theorem setSched_wnd (p : Nat) (x : PortSched) (s : State) : (setSched p x s).wnd = s.wnd := rfl
@[simp] theorem setSched_ports (p : Nat) (x : PortSched) (s : State) : (setSched p x s).ports = s.ports := rfl
@[simp] theorem setSched_mdio (p : Nat) (x : PortSched) (s : State) : (setSched p x s).mdio = s.mdio := rfl
@[simp] theorem setSched_ingress (p : Nat) (x : PortSched) (s : State) : (setSched p x s).ingress = s.ingress := rfl
@[simp] theorem setSched_join (p : Nat) (x : PortSched) (s : State) : (setSched p x s).join = s.join := rfl
@[simp] theorem setSched_ciph (p : Nat) (x : PortSched) (s : State) : (setSched p x s).ciph = s.ciph := rfl
@[simp] theorem setSched_cls (p : Nat) (x : PortSched) (s : State) : (setSched p x s).cls = s.cls := rfl
@[simp] theorem setSched_tally (p : Nat) (x : PortSched) (s : State) : (setSched p x s).tally = s.tally := rfl
@[simp] theorem setSched_circuits (p : Nat) (x : PortSched) (s : State) : (setSched p x s).circuits = s.circuits := rfl
@[simp] theorem setSched_looped (p : Nat) (x : PortSched) (s : State) : (setSched p x s).looped = s.looped := rfl
@[simp] theorem setSched_lanes (p : Nat) (x : PortSched) (s : State) : (setSched p x s).lanes = s.lanes := rfl
@[simp] theorem setSched_chain (p : Nat) (x : PortSched) (s : State) : (setSched p x s).chain = s.chain := rfl
@[simp] theorem setSched_host (p : Nat) (x : PortSched) (s : State) : (setSched p x s).host = s.host := rfl

@[simp] theorem setAllocQ_pending (a : Nat) (x : AllocQueue) (s : State) : (setAllocQ a x s).pending = s.pending := rfl
@[simp] theorem setAllocQ_cycle (a : Nat) (x : AllocQueue) (s : State) : (setAllocQ a x s).cycle = s.cycle := rfl
@[simp] theorem setAllocQ_free (a : Nat) (x : AllocQueue) (s : State) : (setAllocQ a x s).free = s.free := rfl
@[simp] theorem setAllocQ_outs (a : Nat) (x : AllocQueue) (s : State) : (setAllocQ a x s).outs = s.outs := rfl
@[simp] theorem setAllocQ_regs (a : Nat) (x : AllocQueue) (s : State) : (setAllocQ a x s).regs = s.regs := rfl
@[simp] theorem setAllocQ_latch (a : Nat) (x : AllocQueue) (s : State) : (setAllocQ a x s).latch = s.latch := rfl
@[simp] theorem setAllocQ_misaligned (a : Nat) (x : AllocQueue) (s : State) : (setAllocQ a x s).misaligned = s.misaligned := rfl
@[simp] theorem setAllocQ_tick (a : Nat) (x : AllocQueue) (s : State) : (setAllocQ a x s).tick = s.tick := rfl
@[simp] theorem setAllocQ_boot (a : Nat) (x : AllocQueue) (s : State) : (setAllocQ a x s).boot = s.boot := rfl
@[simp] theorem setAllocQ_supply (a : Nat) (x : AllocQueue) (s : State) : (setAllocQ a x s).supply = s.supply := rfl
@[simp] theorem setAllocQ_time (a : Nat) (x : AllocQueue) (s : State) : (setAllocQ a x s).time = s.time := rfl
@[simp] theorem setAllocQ_keep (a : Nat) (x : AllocQueue) (s : State) : (setAllocQ a x s).keep = s.keep := rfl
@[simp] theorem setAllocQ_recd (a : Nat) (x : AllocQueue) (s : State) : (setAllocQ a x s).recd = s.recd := rfl
@[simp] theorem setAllocQ_pwr (a : Nat) (x : AllocQueue) (s : State) : (setAllocQ a x s).pwr = s.pwr := rfl
@[simp] theorem setAllocQ_assay (a : Nat) (x : AllocQueue) (s : State) : (setAllocQ a x s).assay = s.assay := rfl
@[simp] theorem setAllocQ_land (a : Nat) (x : AllocQueue) (s : State) : (setAllocQ a x s).land = s.land := rfl
@[simp] theorem setAllocQ_prot (a : Nat) (x : AllocQueue) (s : State) : (setAllocQ a x s).prot = s.prot := rfl
@[simp] theorem setAllocQ_seams (a : Nat) (x : AllocQueue) (s : State) : (setAllocQ a x s).seams = s.seams := rfl
@[simp] theorem setAllocQ_tub (a : Nat) (x : AllocQueue) (s : State) : (setAllocQ a x s).tub = s.tub := rfl
@[simp] theorem setAllocQ_wnd (a : Nat) (x : AllocQueue) (s : State) : (setAllocQ a x s).wnd = s.wnd := rfl
@[simp] theorem setAllocQ_ports (a : Nat) (x : AllocQueue) (s : State) : (setAllocQ a x s).ports = s.ports := rfl
@[simp] theorem setAllocQ_mdio (a : Nat) (x : AllocQueue) (s : State) : (setAllocQ a x s).mdio = s.mdio := rfl
@[simp] theorem setAllocQ_ingress (a : Nat) (x : AllocQueue) (s : State) : (setAllocQ a x s).ingress = s.ingress := rfl
@[simp] theorem setAllocQ_join (a : Nat) (x : AllocQueue) (s : State) : (setAllocQ a x s).join = s.join := rfl
@[simp] theorem setAllocQ_ciph (a : Nat) (x : AllocQueue) (s : State) : (setAllocQ a x s).ciph = s.ciph := rfl
@[simp] theorem setAllocQ_cls (a : Nat) (x : AllocQueue) (s : State) : (setAllocQ a x s).cls = s.cls := rfl
@[simp] theorem setAllocQ_tally (a : Nat) (x : AllocQueue) (s : State) : (setAllocQ a x s).tally = s.tally := rfl
@[simp] theorem setAllocQ_circuits (a : Nat) (x : AllocQueue) (s : State) : (setAllocQ a x s).circuits = s.circuits := rfl
@[simp] theorem setAllocQ_looped (a : Nat) (x : AllocQueue) (s : State) : (setAllocQ a x s).looped = s.looped := rfl
@[simp] theorem setAllocQ_lanes (a : Nat) (x : AllocQueue) (s : State) : (setAllocQ a x s).lanes = s.lanes := rfl
@[simp] theorem setAllocQ_chain (a : Nat) (x : AllocQueue) (s : State) : (setAllocQ a x s).chain = s.chain := rfl
@[simp] theorem setAllocQ_host (a : Nat) (x : AllocQueue) (s : State) : (setAllocQ a x s).host = s.host := rfl

@[simp] theorem setMdio_pending (g : Nat) (x : MdioState) (s : State) : (setMdio g x s).pending = s.pending := rfl
@[simp] theorem setMdio_cycle (g : Nat) (x : MdioState) (s : State) : (setMdio g x s).cycle = s.cycle := rfl
@[simp] theorem setMdio_free (g : Nat) (x : MdioState) (s : State) : (setMdio g x s).free = s.free := rfl
@[simp] theorem setMdio_outs (g : Nat) (x : MdioState) (s : State) : (setMdio g x s).outs = s.outs := rfl
@[simp] theorem setMdio_regs (g : Nat) (x : MdioState) (s : State) : (setMdio g x s).regs = s.regs := rfl
@[simp] theorem setMdio_latch (g : Nat) (x : MdioState) (s : State) : (setMdio g x s).latch = s.latch := rfl
@[simp] theorem setMdio_misaligned (g : Nat) (x : MdioState) (s : State) : (setMdio g x s).misaligned = s.misaligned := rfl
@[simp] theorem setMdio_tick (g : Nat) (x : MdioState) (s : State) : (setMdio g x s).tick = s.tick := rfl
@[simp] theorem setMdio_boot (g : Nat) (x : MdioState) (s : State) : (setMdio g x s).boot = s.boot := rfl
@[simp] theorem setMdio_supply (g : Nat) (x : MdioState) (s : State) : (setMdio g x s).supply = s.supply := rfl
@[simp] theorem setMdio_time (g : Nat) (x : MdioState) (s : State) : (setMdio g x s).time = s.time := rfl
@[simp] theorem setMdio_keep (g : Nat) (x : MdioState) (s : State) : (setMdio g x s).keep = s.keep := rfl
@[simp] theorem setMdio_recd (g : Nat) (x : MdioState) (s : State) : (setMdio g x s).recd = s.recd := rfl
@[simp] theorem setMdio_pwr (g : Nat) (x : MdioState) (s : State) : (setMdio g x s).pwr = s.pwr := rfl
@[simp] theorem setMdio_assay (g : Nat) (x : MdioState) (s : State) : (setMdio g x s).assay = s.assay := rfl
@[simp] theorem setMdio_land (g : Nat) (x : MdioState) (s : State) : (setMdio g x s).land = s.land := rfl
@[simp] theorem setMdio_prot (g : Nat) (x : MdioState) (s : State) : (setMdio g x s).prot = s.prot := rfl
@[simp] theorem setMdio_seams (g : Nat) (x : MdioState) (s : State) : (setMdio g x s).seams = s.seams := rfl
@[simp] theorem setMdio_tub (g : Nat) (x : MdioState) (s : State) : (setMdio g x s).tub = s.tub := rfl
@[simp] theorem setMdio_wnd (g : Nat) (x : MdioState) (s : State) : (setMdio g x s).wnd = s.wnd := rfl
@[simp] theorem setMdio_sched (g : Nat) (x : MdioState) (s : State) : (setMdio g x s).sched = s.sched := rfl
@[simp] theorem setMdio_ports (g : Nat) (x : MdioState) (s : State) : (setMdio g x s).ports = s.ports := rfl
@[simp] theorem setMdio_mdio (g : Nat) (x : MdioState) (s : State) : (setMdio g x s).mdio = tput (fun _ => MdioState.reset) g x s.mdio := rfl
@[simp] theorem setMdio_ingress (g : Nat) (x : MdioState) (s : State) : (setMdio g x s).ingress = s.ingress := rfl
@[simp] theorem setMdio_join (g : Nat) (x : MdioState) (s : State) : (setMdio g x s).join = s.join := rfl
@[simp] theorem setMdio_ciph (g : Nat) (x : MdioState) (s : State) : (setMdio g x s).ciph = s.ciph := rfl
@[simp] theorem setMdio_cls (g : Nat) (x : MdioState) (s : State) : (setMdio g x s).cls = s.cls := rfl
@[simp] theorem setMdio_tally (g : Nat) (x : MdioState) (s : State) : (setMdio g x s).tally = s.tally := rfl
@[simp] theorem setMdio_circuits (g : Nat) (x : MdioState) (s : State) : (setMdio g x s).circuits = s.circuits := rfl
@[simp] theorem setMdio_looped (g : Nat) (x : MdioState) (s : State) : (setMdio g x s).looped = s.looped := rfl
@[simp] theorem setMdio_lanes (g : Nat) (x : MdioState) (s : State) : (setMdio g x s).lanes = s.lanes := rfl
@[simp] theorem setMdio_chain (g : Nat) (x : MdioState) (s : State) : (setMdio g x s).chain = s.chain := rfl
@[simp] theorem setMdio_host (g : Nat) (x : MdioState) (s : State) : (setMdio g x s).host = s.host := rfl

@[simp] theorem setSeam_pending (side n : Nat) (x : SeamState) (s : State) : (setSeam side n x s).pending = s.pending := rfl
@[simp] theorem setSeam_cycle (side n : Nat) (x : SeamState) (s : State) : (setSeam side n x s).cycle = s.cycle := rfl
@[simp] theorem setSeam_free (side n : Nat) (x : SeamState) (s : State) : (setSeam side n x s).free = s.free := rfl
@[simp] theorem setSeam_outs (side n : Nat) (x : SeamState) (s : State) : (setSeam side n x s).outs = s.outs := rfl
@[simp] theorem setSeam_regs (side n : Nat) (x : SeamState) (s : State) : (setSeam side n x s).regs = s.regs := rfl
@[simp] theorem setSeam_latch (side n : Nat) (x : SeamState) (s : State) : (setSeam side n x s).latch = s.latch := rfl
@[simp] theorem setSeam_misaligned (side n : Nat) (x : SeamState) (s : State) : (setSeam side n x s).misaligned = s.misaligned := rfl
@[simp] theorem setSeam_tick (side n : Nat) (x : SeamState) (s : State) : (setSeam side n x s).tick = s.tick := rfl
@[simp] theorem setSeam_boot (side n : Nat) (x : SeamState) (s : State) : (setSeam side n x s).boot = s.boot := rfl
@[simp] theorem setSeam_supply (side n : Nat) (x : SeamState) (s : State) : (setSeam side n x s).supply = s.supply := rfl
@[simp] theorem setSeam_time (side n : Nat) (x : SeamState) (s : State) : (setSeam side n x s).time = s.time := rfl
@[simp] theorem setSeam_keep (side n : Nat) (x : SeamState) (s : State) : (setSeam side n x s).keep = s.keep := rfl
@[simp] theorem setSeam_recd (side n : Nat) (x : SeamState) (s : State) : (setSeam side n x s).recd = s.recd := rfl
@[simp] theorem setSeam_pwr (side n : Nat) (x : SeamState) (s : State) : (setSeam side n x s).pwr = s.pwr := rfl
@[simp] theorem setSeam_assay (side n : Nat) (x : SeamState) (s : State) : (setSeam side n x s).assay = s.assay := rfl
@[simp] theorem setSeam_land (side n : Nat) (x : SeamState) (s : State) : (setSeam side n x s).land = s.land := rfl
@[simp] theorem setSeam_prot (side n : Nat) (x : SeamState) (s : State) : (setSeam side n x s).prot = s.prot := rfl
@[simp] theorem setSeam_seams (side n : Nat) (x : SeamState) (s : State) : (setSeam side n x s).seams = tput (fun _ => SeamState.reset) (seamKey side n) x s.seams := rfl
@[simp] theorem setSeam_tub (side n : Nat) (x : SeamState) (s : State) : (setSeam side n x s).tub = s.tub := rfl
@[simp] theorem setSeam_wnd (side n : Nat) (x : SeamState) (s : State) : (setSeam side n x s).wnd = s.wnd := rfl
@[simp] theorem setSeam_sched (side n : Nat) (x : SeamState) (s : State) : (setSeam side n x s).sched = s.sched := rfl
@[simp] theorem setSeam_ports (side n : Nat) (x : SeamState) (s : State) : (setSeam side n x s).ports = s.ports := rfl
@[simp] theorem setSeam_mdio (side n : Nat) (x : SeamState) (s : State) : (setSeam side n x s).mdio = s.mdio := rfl
@[simp] theorem setSeam_ingress (side n : Nat) (x : SeamState) (s : State) : (setSeam side n x s).ingress = s.ingress := rfl
@[simp] theorem setSeam_join (side n : Nat) (x : SeamState) (s : State) : (setSeam side n x s).join = s.join := rfl
@[simp] theorem setSeam_ciph (side n : Nat) (x : SeamState) (s : State) : (setSeam side n x s).ciph = s.ciph := rfl
@[simp] theorem setSeam_cls (side n : Nat) (x : SeamState) (s : State) : (setSeam side n x s).cls = s.cls := rfl
@[simp] theorem setSeam_tally (side n : Nat) (x : SeamState) (s : State) : (setSeam side n x s).tally = s.tally := rfl
@[simp] theorem setSeam_circuits (side n : Nat) (x : SeamState) (s : State) : (setSeam side n x s).circuits = s.circuits := rfl
@[simp] theorem setSeam_looped (side n : Nat) (x : SeamState) (s : State) : (setSeam side n x s).looped = s.looped := rfl
@[simp] theorem setSeam_lanes (side n : Nat) (x : SeamState) (s : State) : (setSeam side n x s).lanes = s.lanes := rfl
@[simp] theorem setSeam_chain (side n : Nat) (x : SeamState) (s : State) : (setSeam side n x s).chain = s.chain := rfl
@[simp] theorem setSeam_host (side n : Nat) (x : SeamState) (s : State) : (setSeam side n x s).host = s.host := rfl

@[simp] theorem setIdent_pending (i : Nat) (x : Identity) (s : State) : (setIdent i x s).pending = s.pending := rfl
@[simp] theorem setIdent_cycle (i : Nat) (x : Identity) (s : State) : (setIdent i x s).cycle = s.cycle := rfl
@[simp] theorem setIdent_free (i : Nat) (x : Identity) (s : State) : (setIdent i x s).free = s.free := rfl
@[simp] theorem setIdent_outs (i : Nat) (x : Identity) (s : State) : (setIdent i x s).outs = s.outs := rfl
@[simp] theorem setIdent_regs (i : Nat) (x : Identity) (s : State) : (setIdent i x s).regs = s.regs := rfl
@[simp] theorem setIdent_latch (i : Nat) (x : Identity) (s : State) : (setIdent i x s).latch = s.latch := rfl
@[simp] theorem setIdent_misaligned (i : Nat) (x : Identity) (s : State) : (setIdent i x s).misaligned = s.misaligned := rfl
@[simp] theorem setIdent_tick (i : Nat) (x : Identity) (s : State) : (setIdent i x s).tick = s.tick := rfl
@[simp] theorem setIdent_boot (i : Nat) (x : Identity) (s : State) : (setIdent i x s).boot = s.boot := rfl
@[simp] theorem setIdent_supply (i : Nat) (x : Identity) (s : State) : (setIdent i x s).supply = s.supply := rfl
@[simp] theorem setIdent_time (i : Nat) (x : Identity) (s : State) : (setIdent i x s).time = s.time := rfl
@[simp] theorem setIdent_keep (i : Nat) (x : Identity) (s : State) : (setIdent i x s).keep = s.keep := rfl
@[simp] theorem setIdent_recd (i : Nat) (x : Identity) (s : State) : (setIdent i x s).recd = s.recd := rfl
@[simp] theorem setIdent_pwr (i : Nat) (x : Identity) (s : State) : (setIdent i x s).pwr = s.pwr := rfl
@[simp] theorem setIdent_assay (i : Nat) (x : Identity) (s : State) : (setIdent i x s).assay = s.assay := rfl
@[simp] theorem setIdent_land (i : Nat) (x : Identity) (s : State) : (setIdent i x s).land = s.land := rfl
@[simp] theorem setIdent_prot (i : Nat) (x : Identity) (s : State) : (setIdent i x s).prot = s.prot := rfl
@[simp] theorem setIdent_seams (i : Nat) (x : Identity) (s : State) : (setIdent i x s).seams = s.seams := rfl
@[simp] theorem setIdent_tub (i : Nat) (x : Identity) (s : State) : (setIdent i x s).tub = s.tub := rfl
@[simp] theorem setIdent_wnd (i : Nat) (x : Identity) (s : State) : (setIdent i x s).wnd = s.wnd := rfl
@[simp] theorem setIdent_sched (i : Nat) (x : Identity) (s : State) : (setIdent i x s).sched = s.sched := rfl
@[simp] theorem setIdent_ports (i : Nat) (x : Identity) (s : State) : (setIdent i x s).ports = s.ports := rfl
@[simp] theorem setIdent_mdio (i : Nat) (x : Identity) (s : State) : (setIdent i x s).mdio = s.mdio := rfl
@[simp] theorem setIdent_ingress (i : Nat) (x : Identity) (s : State) : (setIdent i x s).ingress = s.ingress := rfl
@[simp] theorem setIdent_ciph (i : Nat) (x : Identity) (s : State) : (setIdent i x s).ciph = s.ciph := rfl
@[simp] theorem setIdent_cls (i : Nat) (x : Identity) (s : State) : (setIdent i x s).cls = s.cls := rfl
@[simp] theorem setIdent_tally (i : Nat) (x : Identity) (s : State) : (setIdent i x s).tally = s.tally := rfl
@[simp] theorem setIdent_circuits (i : Nat) (x : Identity) (s : State) : (setIdent i x s).circuits = s.circuits := rfl
@[simp] theorem setIdent_looped (i : Nat) (x : Identity) (s : State) : (setIdent i x s).looped = s.looped := rfl
@[simp] theorem setIdent_lanes (i : Nat) (x : Identity) (s : State) : (setIdent i x s).lanes = s.lanes := rfl
@[simp] theorem setIdent_chain (i : Nat) (x : Identity) (s : State) : (setIdent i x s).chain = s.chain := rfl
@[simp] theorem setIdent_host (i : Nat) (x : Identity) (s : State) : (setIdent i x s).host = s.host := rfl

@[simp] theorem setKeyDir_pending (i : Nat) (up : Bool) (x : KeyDir) (s : State) : (setKeyDir i up x s).pending = s.pending := rfl
@[simp] theorem setKeyDir_cycle (i : Nat) (up : Bool) (x : KeyDir) (s : State) : (setKeyDir i up x s).cycle = s.cycle := rfl
@[simp] theorem setKeyDir_free (i : Nat) (up : Bool) (x : KeyDir) (s : State) : (setKeyDir i up x s).free = s.free := rfl
@[simp] theorem setKeyDir_outs (i : Nat) (up : Bool) (x : KeyDir) (s : State) : (setKeyDir i up x s).outs = s.outs := rfl
@[simp] theorem setKeyDir_regs (i : Nat) (up : Bool) (x : KeyDir) (s : State) : (setKeyDir i up x s).regs = s.regs := rfl
@[simp] theorem setKeyDir_latch (i : Nat) (up : Bool) (x : KeyDir) (s : State) : (setKeyDir i up x s).latch = s.latch := rfl
@[simp] theorem setKeyDir_misaligned (i : Nat) (up : Bool) (x : KeyDir) (s : State) : (setKeyDir i up x s).misaligned = s.misaligned := rfl
@[simp] theorem setKeyDir_tick (i : Nat) (up : Bool) (x : KeyDir) (s : State) : (setKeyDir i up x s).tick = s.tick := rfl
@[simp] theorem setKeyDir_boot (i : Nat) (up : Bool) (x : KeyDir) (s : State) : (setKeyDir i up x s).boot = s.boot := rfl
@[simp] theorem setKeyDir_supply (i : Nat) (up : Bool) (x : KeyDir) (s : State) : (setKeyDir i up x s).supply = s.supply := rfl
@[simp] theorem setKeyDir_time (i : Nat) (up : Bool) (x : KeyDir) (s : State) : (setKeyDir i up x s).time = s.time := rfl
@[simp] theorem setKeyDir_keep (i : Nat) (up : Bool) (x : KeyDir) (s : State) : (setKeyDir i up x s).keep = s.keep := rfl
@[simp] theorem setKeyDir_recd (i : Nat) (up : Bool) (x : KeyDir) (s : State) : (setKeyDir i up x s).recd = s.recd := rfl
@[simp] theorem setKeyDir_pwr (i : Nat) (up : Bool) (x : KeyDir) (s : State) : (setKeyDir i up x s).pwr = s.pwr := rfl
@[simp] theorem setKeyDir_assay (i : Nat) (up : Bool) (x : KeyDir) (s : State) : (setKeyDir i up x s).assay = s.assay := rfl
@[simp] theorem setKeyDir_land (i : Nat) (up : Bool) (x : KeyDir) (s : State) : (setKeyDir i up x s).land = s.land := rfl
@[simp] theorem setKeyDir_prot (i : Nat) (up : Bool) (x : KeyDir) (s : State) : (setKeyDir i up x s).prot = s.prot := rfl
@[simp] theorem setKeyDir_seams (i : Nat) (up : Bool) (x : KeyDir) (s : State) : (setKeyDir i up x s).seams = s.seams := rfl
@[simp] theorem setKeyDir_tub (i : Nat) (up : Bool) (x : KeyDir) (s : State) : (setKeyDir i up x s).tub = s.tub := rfl
@[simp] theorem setKeyDir_wnd (i : Nat) (up : Bool) (x : KeyDir) (s : State) : (setKeyDir i up x s).wnd = s.wnd := rfl
@[simp] theorem setKeyDir_sched (i : Nat) (up : Bool) (x : KeyDir) (s : State) : (setKeyDir i up x s).sched = s.sched := rfl
@[simp] theorem setKeyDir_ports (i : Nat) (up : Bool) (x : KeyDir) (s : State) : (setKeyDir i up x s).ports = s.ports := rfl
@[simp] theorem setKeyDir_mdio (i : Nat) (up : Bool) (x : KeyDir) (s : State) : (setKeyDir i up x s).mdio = s.mdio := rfl
@[simp] theorem setKeyDir_ingress (i : Nat) (up : Bool) (x : KeyDir) (s : State) : (setKeyDir i up x s).ingress = s.ingress := rfl
@[simp] theorem setKeyDir_join (i : Nat) (up : Bool) (x : KeyDir) (s : State) : (setKeyDir i up x s).join = s.join := rfl
@[simp] theorem setKeyDir_cls (i : Nat) (up : Bool) (x : KeyDir) (s : State) : (setKeyDir i up x s).cls = s.cls := rfl
@[simp] theorem setKeyDir_tally (i : Nat) (up : Bool) (x : KeyDir) (s : State) : (setKeyDir i up x s).tally = s.tally := rfl
@[simp] theorem setKeyDir_circuits (i : Nat) (up : Bool) (x : KeyDir) (s : State) : (setKeyDir i up x s).circuits = s.circuits := rfl
@[simp] theorem setKeyDir_looped (i : Nat) (up : Bool) (x : KeyDir) (s : State) : (setKeyDir i up x s).looped = s.looped := rfl
@[simp] theorem setKeyDir_lanes (i : Nat) (up : Bool) (x : KeyDir) (s : State) : (setKeyDir i up x s).lanes = s.lanes := rfl
@[simp] theorem setKeyDir_chain (i : Nat) (up : Bool) (x : KeyDir) (s : State) : (setKeyDir i up x s).chain = s.chain := rfl
@[simp] theorem setKeyDir_host (i : Nat) (up : Bool) (x : KeyDir) (s : State) : (setKeyDir i up x s).host = s.host := rfl

@[simp] theorem setCircuit_pending (c : Nat) (x : Circuit) (s : State) : (setCircuit c x s).pending = s.pending := rfl
@[simp] theorem setCircuit_cycle (c : Nat) (x : Circuit) (s : State) : (setCircuit c x s).cycle = s.cycle := rfl
@[simp] theorem setCircuit_free (c : Nat) (x : Circuit) (s : State) : (setCircuit c x s).free = s.free := rfl
@[simp] theorem setCircuit_outs (c : Nat) (x : Circuit) (s : State) : (setCircuit c x s).outs = s.outs := rfl
@[simp] theorem setCircuit_regs (c : Nat) (x : Circuit) (s : State) : (setCircuit c x s).regs = s.regs := rfl
@[simp] theorem setCircuit_latch (c : Nat) (x : Circuit) (s : State) : (setCircuit c x s).latch = s.latch := rfl
@[simp] theorem setCircuit_misaligned (c : Nat) (x : Circuit) (s : State) : (setCircuit c x s).misaligned = s.misaligned := rfl
@[simp] theorem setCircuit_tick (c : Nat) (x : Circuit) (s : State) : (setCircuit c x s).tick = s.tick := rfl
@[simp] theorem setCircuit_boot (c : Nat) (x : Circuit) (s : State) : (setCircuit c x s).boot = s.boot := rfl
@[simp] theorem setCircuit_supply (c : Nat) (x : Circuit) (s : State) : (setCircuit c x s).supply = s.supply := rfl
@[simp] theorem setCircuit_time (c : Nat) (x : Circuit) (s : State) : (setCircuit c x s).time = s.time := rfl
@[simp] theorem setCircuit_keep (c : Nat) (x : Circuit) (s : State) : (setCircuit c x s).keep = s.keep := rfl
@[simp] theorem setCircuit_recd (c : Nat) (x : Circuit) (s : State) : (setCircuit c x s).recd = s.recd := rfl
@[simp] theorem setCircuit_pwr (c : Nat) (x : Circuit) (s : State) : (setCircuit c x s).pwr = s.pwr := rfl
@[simp] theorem setCircuit_assay (c : Nat) (x : Circuit) (s : State) : (setCircuit c x s).assay = s.assay := rfl
@[simp] theorem setCircuit_land (c : Nat) (x : Circuit) (s : State) : (setCircuit c x s).land = s.land := rfl
@[simp] theorem setCircuit_prot (c : Nat) (x : Circuit) (s : State) : (setCircuit c x s).prot = s.prot := rfl
@[simp] theorem setCircuit_seams (c : Nat) (x : Circuit) (s : State) : (setCircuit c x s).seams = s.seams := rfl
@[simp] theorem setCircuit_tub (c : Nat) (x : Circuit) (s : State) : (setCircuit c x s).tub = s.tub := rfl
@[simp] theorem setCircuit_wnd (c : Nat) (x : Circuit) (s : State) : (setCircuit c x s).wnd = s.wnd := rfl
@[simp] theorem setCircuit_sched (c : Nat) (x : Circuit) (s : State) : (setCircuit c x s).sched = s.sched := rfl
@[simp] theorem setCircuit_ports (c : Nat) (x : Circuit) (s : State) : (setCircuit c x s).ports = s.ports := rfl
@[simp] theorem setCircuit_mdio (c : Nat) (x : Circuit) (s : State) : (setCircuit c x s).mdio = s.mdio := rfl
@[simp] theorem setCircuit_ingress (c : Nat) (x : Circuit) (s : State) : (setCircuit c x s).ingress = s.ingress := rfl
@[simp] theorem setCircuit_join (c : Nat) (x : Circuit) (s : State) : (setCircuit c x s).join = s.join := rfl
@[simp] theorem setCircuit_ciph (c : Nat) (x : Circuit) (s : State) : (setCircuit c x s).ciph = s.ciph := rfl
@[simp] theorem setCircuit_cls (c : Nat) (x : Circuit) (s : State) : (setCircuit c x s).cls = s.cls := rfl
@[simp] theorem setCircuit_tally (c : Nat) (x : Circuit) (s : State) : (setCircuit c x s).tally = s.tally := rfl
@[simp] theorem setCircuit_looped (c : Nat) (x : Circuit) (s : State) : (setCircuit c x s).looped = s.looped := rfl
@[simp] theorem setCircuit_lanes (c : Nat) (x : Circuit) (s : State) : (setCircuit c x s).lanes = s.lanes := rfl
@[simp] theorem setCircuit_chain (c : Nat) (x : Circuit) (s : State) : (setCircuit c x s).chain = s.chain := rfl
@[simp] theorem setCircuit_host (c : Nat) (x : Circuit) (s : State) : (setCircuit c x s).host = s.host := rfl

@[simp] theorem setLatch_pending (src : Source) (a : Nat) (v : Word) (s : State) : (setLatch src a v s).pending = s.pending := rfl
@[simp] theorem setLatch_cycle (src : Source) (a : Nat) (v : Word) (s : State) : (setLatch src a v s).cycle = s.cycle := rfl
@[simp] theorem setLatch_free (src : Source) (a : Nat) (v : Word) (s : State) : (setLatch src a v s).free = s.free := rfl
@[simp] theorem setLatch_outs (src : Source) (a : Nat) (v : Word) (s : State) : (setLatch src a v s).outs = s.outs := rfl
@[simp] theorem setLatch_regs (src : Source) (a : Nat) (v : Word) (s : State) : (setLatch src a v s).regs = s.regs := rfl
@[simp] theorem setLatch_misaligned (src : Source) (a : Nat) (v : Word) (s : State) : (setLatch src a v s).misaligned = s.misaligned := rfl
@[simp] theorem setLatch_tick (src : Source) (a : Nat) (v : Word) (s : State) : (setLatch src a v s).tick = s.tick := rfl
@[simp] theorem setLatch_boot (src : Source) (a : Nat) (v : Word) (s : State) : (setLatch src a v s).boot = s.boot := rfl
@[simp] theorem setLatch_supply (src : Source) (a : Nat) (v : Word) (s : State) : (setLatch src a v s).supply = s.supply := rfl
@[simp] theorem setLatch_time (src : Source) (a : Nat) (v : Word) (s : State) : (setLatch src a v s).time = s.time := rfl
@[simp] theorem setLatch_keep (src : Source) (a : Nat) (v : Word) (s : State) : (setLatch src a v s).keep = s.keep := rfl
@[simp] theorem setLatch_recd (src : Source) (a : Nat) (v : Word) (s : State) : (setLatch src a v s).recd = s.recd := rfl
@[simp] theorem setLatch_pwr (src : Source) (a : Nat) (v : Word) (s : State) : (setLatch src a v s).pwr = s.pwr := rfl
@[simp] theorem setLatch_assay (src : Source) (a : Nat) (v : Word) (s : State) : (setLatch src a v s).assay = s.assay := rfl
@[simp] theorem setLatch_land (src : Source) (a : Nat) (v : Word) (s : State) : (setLatch src a v s).land = s.land := rfl
@[simp] theorem setLatch_prot (src : Source) (a : Nat) (v : Word) (s : State) : (setLatch src a v s).prot = s.prot := rfl
@[simp] theorem setLatch_seams (src : Source) (a : Nat) (v : Word) (s : State) : (setLatch src a v s).seams = s.seams := rfl
@[simp] theorem setLatch_tub (src : Source) (a : Nat) (v : Word) (s : State) : (setLatch src a v s).tub = s.tub := rfl
@[simp] theorem setLatch_wnd (src : Source) (a : Nat) (v : Word) (s : State) : (setLatch src a v s).wnd = s.wnd := rfl
@[simp] theorem setLatch_sched (src : Source) (a : Nat) (v : Word) (s : State) : (setLatch src a v s).sched = s.sched := rfl
@[simp] theorem setLatch_ports (src : Source) (a : Nat) (v : Word) (s : State) : (setLatch src a v s).ports = s.ports := rfl
@[simp] theorem setLatch_mdio (src : Source) (a : Nat) (v : Word) (s : State) : (setLatch src a v s).mdio = s.mdio := rfl
@[simp] theorem setLatch_ingress (src : Source) (a : Nat) (v : Word) (s : State) : (setLatch src a v s).ingress = s.ingress := rfl
@[simp] theorem setLatch_join (src : Source) (a : Nat) (v : Word) (s : State) : (setLatch src a v s).join = s.join := rfl
@[simp] theorem setLatch_ciph (src : Source) (a : Nat) (v : Word) (s : State) : (setLatch src a v s).ciph = s.ciph := rfl
@[simp] theorem setLatch_cls (src : Source) (a : Nat) (v : Word) (s : State) : (setLatch src a v s).cls = s.cls := rfl
@[simp] theorem setLatch_tally (src : Source) (a : Nat) (v : Word) (s : State) : (setLatch src a v s).tally = s.tally := rfl
@[simp] theorem setLatch_circuits (src : Source) (a : Nat) (v : Word) (s : State) : (setLatch src a v s).circuits = s.circuits := rfl
@[simp] theorem setLatch_looped (src : Source) (a : Nat) (v : Word) (s : State) : (setLatch src a v s).looped = s.looped := rfl
@[simp] theorem setLatch_lanes (src : Source) (a : Nat) (v : Word) (s : State) : (setLatch src a v s).lanes = s.lanes := rfl
@[simp] theorem setLatch_chain (src : Source) (a : Nat) (v : Word) (s : State) : (setLatch src a v s).chain = s.chain := rfl
@[simp] theorem setLatch_host (src : Source) (a : Nat) (v : Word) (s : State) : (setLatch src a v s).host = s.host := rfl

@[simp] theorem modKeep_pending (f : KeepState → KeepState) (s : State) : (modKeep f s).pending = s.pending := rfl
@[simp] theorem modKeep_cycle (f : KeepState → KeepState) (s : State) : (modKeep f s).cycle = s.cycle := rfl
@[simp] theorem modKeep_free (f : KeepState → KeepState) (s : State) : (modKeep f s).free = s.free := rfl
@[simp] theorem modKeep_outs (f : KeepState → KeepState) (s : State) : (modKeep f s).outs = s.outs := rfl
@[simp] theorem modKeep_regs (f : KeepState → KeepState) (s : State) : (modKeep f s).regs = s.regs := rfl
@[simp] theorem modKeep_latch (f : KeepState → KeepState) (s : State) : (modKeep f s).latch = s.latch := rfl
@[simp] theorem modKeep_misaligned (f : KeepState → KeepState) (s : State) : (modKeep f s).misaligned = s.misaligned := rfl
@[simp] theorem modKeep_tick (f : KeepState → KeepState) (s : State) : (modKeep f s).tick = s.tick := rfl
@[simp] theorem modKeep_boot (f : KeepState → KeepState) (s : State) : (modKeep f s).boot = s.boot := rfl
@[simp] theorem modKeep_supply (f : KeepState → KeepState) (s : State) : (modKeep f s).supply = s.supply := rfl
@[simp] theorem modKeep_time (f : KeepState → KeepState) (s : State) : (modKeep f s).time = s.time := rfl
@[simp] theorem modKeep_keep (f : KeepState → KeepState) (s : State) : (modKeep f s).keep = f s.keep := rfl
@[simp] theorem modKeep_recd (f : KeepState → KeepState) (s : State) : (modKeep f s).recd = s.recd := rfl
@[simp] theorem modKeep_pwr (f : KeepState → KeepState) (s : State) : (modKeep f s).pwr = s.pwr := rfl
@[simp] theorem modKeep_assay (f : KeepState → KeepState) (s : State) : (modKeep f s).assay = s.assay := rfl
@[simp] theorem modKeep_land (f : KeepState → KeepState) (s : State) : (modKeep f s).land = s.land := rfl
@[simp] theorem modKeep_prot (f : KeepState → KeepState) (s : State) : (modKeep f s).prot = s.prot := rfl
@[simp] theorem modKeep_seams (f : KeepState → KeepState) (s : State) : (modKeep f s).seams = s.seams := rfl
@[simp] theorem modKeep_tub (f : KeepState → KeepState) (s : State) : (modKeep f s).tub = s.tub := rfl
@[simp] theorem modKeep_wnd (f : KeepState → KeepState) (s : State) : (modKeep f s).wnd = s.wnd := rfl
@[simp] theorem modKeep_sched (f : KeepState → KeepState) (s : State) : (modKeep f s).sched = s.sched := rfl
@[simp] theorem modKeep_ports (f : KeepState → KeepState) (s : State) : (modKeep f s).ports = s.ports := rfl
@[simp] theorem modKeep_mdio (f : KeepState → KeepState) (s : State) : (modKeep f s).mdio = s.mdio := rfl
@[simp] theorem modKeep_ingress (f : KeepState → KeepState) (s : State) : (modKeep f s).ingress = s.ingress := rfl
@[simp] theorem modKeep_join (f : KeepState → KeepState) (s : State) : (modKeep f s).join = s.join := rfl
@[simp] theorem modKeep_ciph (f : KeepState → KeepState) (s : State) : (modKeep f s).ciph = s.ciph := rfl
@[simp] theorem modKeep_cls (f : KeepState → KeepState) (s : State) : (modKeep f s).cls = s.cls := rfl
@[simp] theorem modKeep_tally (f : KeepState → KeepState) (s : State) : (modKeep f s).tally = s.tally := rfl
@[simp] theorem modKeep_circuits (f : KeepState → KeepState) (s : State) : (modKeep f s).circuits = s.circuits := rfl
@[simp] theorem modKeep_looped (f : KeepState → KeepState) (s : State) : (modKeep f s).looped = s.looped := rfl
@[simp] theorem modKeep_lanes (f : KeepState → KeepState) (s : State) : (modKeep f s).lanes = s.lanes := rfl
@[simp] theorem modKeep_chain (f : KeepState → KeepState) (s : State) : (modKeep f s).chain = s.chain := rfl
@[simp] theorem modKeep_host (f : KeepState → KeepState) (s : State) : (modKeep f s).host = s.host := rfl

@[simp] theorem modPwr_pending (f : PwrState → PwrState) (s : State) : (modPwr f s).pending = s.pending := rfl
@[simp] theorem modPwr_cycle (f : PwrState → PwrState) (s : State) : (modPwr f s).cycle = s.cycle := rfl
@[simp] theorem modPwr_free (f : PwrState → PwrState) (s : State) : (modPwr f s).free = s.free := rfl
@[simp] theorem modPwr_outs (f : PwrState → PwrState) (s : State) : (modPwr f s).outs = s.outs := rfl
@[simp] theorem modPwr_regs (f : PwrState → PwrState) (s : State) : (modPwr f s).regs = s.regs := rfl
@[simp] theorem modPwr_latch (f : PwrState → PwrState) (s : State) : (modPwr f s).latch = s.latch := rfl
@[simp] theorem modPwr_misaligned (f : PwrState → PwrState) (s : State) : (modPwr f s).misaligned = s.misaligned := rfl
@[simp] theorem modPwr_tick (f : PwrState → PwrState) (s : State) : (modPwr f s).tick = s.tick := rfl
@[simp] theorem modPwr_boot (f : PwrState → PwrState) (s : State) : (modPwr f s).boot = s.boot := rfl
@[simp] theorem modPwr_supply (f : PwrState → PwrState) (s : State) : (modPwr f s).supply = s.supply := rfl
@[simp] theorem modPwr_time (f : PwrState → PwrState) (s : State) : (modPwr f s).time = s.time := rfl
@[simp] theorem modPwr_keep (f : PwrState → PwrState) (s : State) : (modPwr f s).keep = s.keep := rfl
@[simp] theorem modPwr_recd (f : PwrState → PwrState) (s : State) : (modPwr f s).recd = s.recd := rfl
@[simp] theorem modPwr_pwr (f : PwrState → PwrState) (s : State) : (modPwr f s).pwr = f s.pwr := rfl
@[simp] theorem modPwr_assay (f : PwrState → PwrState) (s : State) : (modPwr f s).assay = s.assay := rfl
@[simp] theorem modPwr_land (f : PwrState → PwrState) (s : State) : (modPwr f s).land = s.land := rfl
@[simp] theorem modPwr_prot (f : PwrState → PwrState) (s : State) : (modPwr f s).prot = s.prot := rfl
@[simp] theorem modPwr_seams (f : PwrState → PwrState) (s : State) : (modPwr f s).seams = s.seams := rfl
@[simp] theorem modPwr_tub (f : PwrState → PwrState) (s : State) : (modPwr f s).tub = s.tub := rfl
@[simp] theorem modPwr_wnd (f : PwrState → PwrState) (s : State) : (modPwr f s).wnd = s.wnd := rfl
@[simp] theorem modPwr_sched (f : PwrState → PwrState) (s : State) : (modPwr f s).sched = s.sched := rfl
@[simp] theorem modPwr_ports (f : PwrState → PwrState) (s : State) : (modPwr f s).ports = s.ports := rfl
@[simp] theorem modPwr_mdio (f : PwrState → PwrState) (s : State) : (modPwr f s).mdio = s.mdio := rfl
@[simp] theorem modPwr_ingress (f : PwrState → PwrState) (s : State) : (modPwr f s).ingress = s.ingress := rfl
@[simp] theorem modPwr_join (f : PwrState → PwrState) (s : State) : (modPwr f s).join = s.join := rfl
@[simp] theorem modPwr_ciph (f : PwrState → PwrState) (s : State) : (modPwr f s).ciph = s.ciph := rfl
@[simp] theorem modPwr_cls (f : PwrState → PwrState) (s : State) : (modPwr f s).cls = s.cls := rfl
@[simp] theorem modPwr_tally (f : PwrState → PwrState) (s : State) : (modPwr f s).tally = s.tally := rfl
@[simp] theorem modPwr_circuits (f : PwrState → PwrState) (s : State) : (modPwr f s).circuits = s.circuits := rfl
@[simp] theorem modPwr_looped (f : PwrState → PwrState) (s : State) : (modPwr f s).looped = s.looped := rfl
@[simp] theorem modPwr_lanes (f : PwrState → PwrState) (s : State) : (modPwr f s).lanes = s.lanes := rfl
@[simp] theorem modPwr_chain (f : PwrState → PwrState) (s : State) : (modPwr f s).chain = s.chain := rfl
@[simp] theorem modPwr_host (f : PwrState → PwrState) (s : State) : (modPwr f s).host = s.host := rfl

@[simp] theorem modAssay_pending (f : AssayState → AssayState) (s : State) : (modAssay f s).pending = s.pending := rfl
@[simp] theorem modAssay_cycle (f : AssayState → AssayState) (s : State) : (modAssay f s).cycle = s.cycle := rfl
@[simp] theorem modAssay_free (f : AssayState → AssayState) (s : State) : (modAssay f s).free = s.free := rfl
@[simp] theorem modAssay_outs (f : AssayState → AssayState) (s : State) : (modAssay f s).outs = s.outs := rfl
@[simp] theorem modAssay_regs (f : AssayState → AssayState) (s : State) : (modAssay f s).regs = s.regs := rfl
@[simp] theorem modAssay_latch (f : AssayState → AssayState) (s : State) : (modAssay f s).latch = s.latch := rfl
@[simp] theorem modAssay_misaligned (f : AssayState → AssayState) (s : State) : (modAssay f s).misaligned = s.misaligned := rfl
@[simp] theorem modAssay_tick (f : AssayState → AssayState) (s : State) : (modAssay f s).tick = s.tick := rfl
@[simp] theorem modAssay_boot (f : AssayState → AssayState) (s : State) : (modAssay f s).boot = s.boot := rfl
@[simp] theorem modAssay_supply (f : AssayState → AssayState) (s : State) : (modAssay f s).supply = s.supply := rfl
@[simp] theorem modAssay_time (f : AssayState → AssayState) (s : State) : (modAssay f s).time = s.time := rfl
@[simp] theorem modAssay_keep (f : AssayState → AssayState) (s : State) : (modAssay f s).keep = s.keep := rfl
@[simp] theorem modAssay_recd (f : AssayState → AssayState) (s : State) : (modAssay f s).recd = s.recd := rfl
@[simp] theorem modAssay_pwr (f : AssayState → AssayState) (s : State) : (modAssay f s).pwr = s.pwr := rfl
@[simp] theorem modAssay_assay (f : AssayState → AssayState) (s : State) : (modAssay f s).assay = f s.assay := rfl
@[simp] theorem modAssay_land (f : AssayState → AssayState) (s : State) : (modAssay f s).land = s.land := rfl
@[simp] theorem modAssay_prot (f : AssayState → AssayState) (s : State) : (modAssay f s).prot = s.prot := rfl
@[simp] theorem modAssay_seams (f : AssayState → AssayState) (s : State) : (modAssay f s).seams = s.seams := rfl
@[simp] theorem modAssay_tub (f : AssayState → AssayState) (s : State) : (modAssay f s).tub = s.tub := rfl
@[simp] theorem modAssay_wnd (f : AssayState → AssayState) (s : State) : (modAssay f s).wnd = s.wnd := rfl
@[simp] theorem modAssay_sched (f : AssayState → AssayState) (s : State) : (modAssay f s).sched = s.sched := rfl
@[simp] theorem modAssay_ports (f : AssayState → AssayState) (s : State) : (modAssay f s).ports = s.ports := rfl
@[simp] theorem modAssay_mdio (f : AssayState → AssayState) (s : State) : (modAssay f s).mdio = s.mdio := rfl
@[simp] theorem modAssay_ingress (f : AssayState → AssayState) (s : State) : (modAssay f s).ingress = s.ingress := rfl
@[simp] theorem modAssay_join (f : AssayState → AssayState) (s : State) : (modAssay f s).join = s.join := rfl
@[simp] theorem modAssay_ciph (f : AssayState → AssayState) (s : State) : (modAssay f s).ciph = s.ciph := rfl
@[simp] theorem modAssay_cls (f : AssayState → AssayState) (s : State) : (modAssay f s).cls = s.cls := rfl
@[simp] theorem modAssay_tally (f : AssayState → AssayState) (s : State) : (modAssay f s).tally = s.tally := rfl
@[simp] theorem modAssay_circuits (f : AssayState → AssayState) (s : State) : (modAssay f s).circuits = s.circuits := rfl
@[simp] theorem modAssay_looped (f : AssayState → AssayState) (s : State) : (modAssay f s).looped = s.looped := rfl
@[simp] theorem modAssay_lanes (f : AssayState → AssayState) (s : State) : (modAssay f s).lanes = s.lanes := rfl
@[simp] theorem modAssay_chain (f : AssayState → AssayState) (s : State) : (modAssay f s).chain = s.chain := rfl
@[simp] theorem modAssay_host (f : AssayState → AssayState) (s : State) : (modAssay f s).host = s.host := rfl

@[simp] theorem modProt_pending (f : ProtState → ProtState) (s : State) : (modProt f s).pending = s.pending := rfl
@[simp] theorem modProt_cycle (f : ProtState → ProtState) (s : State) : (modProt f s).cycle = s.cycle := rfl
@[simp] theorem modProt_free (f : ProtState → ProtState) (s : State) : (modProt f s).free = s.free := rfl
@[simp] theorem modProt_outs (f : ProtState → ProtState) (s : State) : (modProt f s).outs = s.outs := rfl
@[simp] theorem modProt_regs (f : ProtState → ProtState) (s : State) : (modProt f s).regs = s.regs := rfl
@[simp] theorem modProt_latch (f : ProtState → ProtState) (s : State) : (modProt f s).latch = s.latch := rfl
@[simp] theorem modProt_misaligned (f : ProtState → ProtState) (s : State) : (modProt f s).misaligned = s.misaligned := rfl
@[simp] theorem modProt_tick (f : ProtState → ProtState) (s : State) : (modProt f s).tick = s.tick := rfl
@[simp] theorem modProt_boot (f : ProtState → ProtState) (s : State) : (modProt f s).boot = s.boot := rfl
@[simp] theorem modProt_supply (f : ProtState → ProtState) (s : State) : (modProt f s).supply = s.supply := rfl
@[simp] theorem modProt_time (f : ProtState → ProtState) (s : State) : (modProt f s).time = s.time := rfl
@[simp] theorem modProt_keep (f : ProtState → ProtState) (s : State) : (modProt f s).keep = s.keep := rfl
@[simp] theorem modProt_recd (f : ProtState → ProtState) (s : State) : (modProt f s).recd = s.recd := rfl
@[simp] theorem modProt_pwr (f : ProtState → ProtState) (s : State) : (modProt f s).pwr = s.pwr := rfl
@[simp] theorem modProt_assay (f : ProtState → ProtState) (s : State) : (modProt f s).assay = s.assay := rfl
@[simp] theorem modProt_land (f : ProtState → ProtState) (s : State) : (modProt f s).land = s.land := rfl
@[simp] theorem modProt_prot (f : ProtState → ProtState) (s : State) : (modProt f s).prot = f s.prot := rfl
@[simp] theorem modProt_seams (f : ProtState → ProtState) (s : State) : (modProt f s).seams = s.seams := rfl
@[simp] theorem modProt_tub (f : ProtState → ProtState) (s : State) : (modProt f s).tub = s.tub := rfl
@[simp] theorem modProt_wnd (f : ProtState → ProtState) (s : State) : (modProt f s).wnd = s.wnd := rfl
@[simp] theorem modProt_sched (f : ProtState → ProtState) (s : State) : (modProt f s).sched = s.sched := rfl
@[simp] theorem modProt_ports (f : ProtState → ProtState) (s : State) : (modProt f s).ports = s.ports := rfl
@[simp] theorem modProt_mdio (f : ProtState → ProtState) (s : State) : (modProt f s).mdio = s.mdio := rfl
@[simp] theorem modProt_ingress (f : ProtState → ProtState) (s : State) : (modProt f s).ingress = s.ingress := rfl
@[simp] theorem modProt_join (f : ProtState → ProtState) (s : State) : (modProt f s).join = s.join := rfl
@[simp] theorem modProt_ciph (f : ProtState → ProtState) (s : State) : (modProt f s).ciph = s.ciph := rfl
@[simp] theorem modProt_cls (f : ProtState → ProtState) (s : State) : (modProt f s).cls = s.cls := rfl
@[simp] theorem modProt_tally (f : ProtState → ProtState) (s : State) : (modProt f s).tally = s.tally := rfl
@[simp] theorem modProt_circuits (f : ProtState → ProtState) (s : State) : (modProt f s).circuits = s.circuits := rfl
@[simp] theorem modProt_looped (f : ProtState → ProtState) (s : State) : (modProt f s).looped = s.looped := rfl
@[simp] theorem modProt_lanes (f : ProtState → ProtState) (s : State) : (modProt f s).lanes = s.lanes := rfl
@[simp] theorem modProt_chain (f : ProtState → ProtState) (s : State) : (modProt f s).chain = s.chain := rfl
@[simp] theorem modProt_host (f : ProtState → ProtState) (s : State) : (modProt f s).host = s.host := rfl

@[simp] theorem modChain_pending (f : ChainState → ChainState) (s : State) : (modChain f s).pending = s.pending := rfl
@[simp] theorem modChain_cycle (f : ChainState → ChainState) (s : State) : (modChain f s).cycle = s.cycle := rfl
@[simp] theorem modChain_free (f : ChainState → ChainState) (s : State) : (modChain f s).free = s.free := rfl
@[simp] theorem modChain_outs (f : ChainState → ChainState) (s : State) : (modChain f s).outs = s.outs := rfl
@[simp] theorem modChain_regs (f : ChainState → ChainState) (s : State) : (modChain f s).regs = s.regs := rfl
@[simp] theorem modChain_latch (f : ChainState → ChainState) (s : State) : (modChain f s).latch = s.latch := rfl
@[simp] theorem modChain_misaligned (f : ChainState → ChainState) (s : State) : (modChain f s).misaligned = s.misaligned := rfl
@[simp] theorem modChain_tick (f : ChainState → ChainState) (s : State) : (modChain f s).tick = s.tick := rfl
@[simp] theorem modChain_boot (f : ChainState → ChainState) (s : State) : (modChain f s).boot = s.boot := rfl
@[simp] theorem modChain_supply (f : ChainState → ChainState) (s : State) : (modChain f s).supply = s.supply := rfl
@[simp] theorem modChain_time (f : ChainState → ChainState) (s : State) : (modChain f s).time = s.time := rfl
@[simp] theorem modChain_keep (f : ChainState → ChainState) (s : State) : (modChain f s).keep = s.keep := rfl
@[simp] theorem modChain_recd (f : ChainState → ChainState) (s : State) : (modChain f s).recd = s.recd := rfl
@[simp] theorem modChain_pwr (f : ChainState → ChainState) (s : State) : (modChain f s).pwr = s.pwr := rfl
@[simp] theorem modChain_assay (f : ChainState → ChainState) (s : State) : (modChain f s).assay = s.assay := rfl
@[simp] theorem modChain_land (f : ChainState → ChainState) (s : State) : (modChain f s).land = s.land := rfl
@[simp] theorem modChain_prot (f : ChainState → ChainState) (s : State) : (modChain f s).prot = s.prot := rfl
@[simp] theorem modChain_seams (f : ChainState → ChainState) (s : State) : (modChain f s).seams = s.seams := rfl
@[simp] theorem modChain_tub (f : ChainState → ChainState) (s : State) : (modChain f s).tub = s.tub := rfl
@[simp] theorem modChain_wnd (f : ChainState → ChainState) (s : State) : (modChain f s).wnd = s.wnd := rfl
@[simp] theorem modChain_sched (f : ChainState → ChainState) (s : State) : (modChain f s).sched = s.sched := rfl
@[simp] theorem modChain_ports (f : ChainState → ChainState) (s : State) : (modChain f s).ports = s.ports := rfl
@[simp] theorem modChain_mdio (f : ChainState → ChainState) (s : State) : (modChain f s).mdio = s.mdio := rfl
@[simp] theorem modChain_ingress (f : ChainState → ChainState) (s : State) : (modChain f s).ingress = s.ingress := rfl
@[simp] theorem modChain_join (f : ChainState → ChainState) (s : State) : (modChain f s).join = s.join := rfl
@[simp] theorem modChain_ciph (f : ChainState → ChainState) (s : State) : (modChain f s).ciph = s.ciph := rfl
@[simp] theorem modChain_cls (f : ChainState → ChainState) (s : State) : (modChain f s).cls = s.cls := rfl
@[simp] theorem modChain_tally (f : ChainState → ChainState) (s : State) : (modChain f s).tally = s.tally := rfl
@[simp] theorem modChain_circuits (f : ChainState → ChainState) (s : State) : (modChain f s).circuits = s.circuits := rfl
@[simp] theorem modChain_looped (f : ChainState → ChainState) (s : State) : (modChain f s).looped = s.looped := rfl
@[simp] theorem modChain_lanes (f : ChainState → ChainState) (s : State) : (modChain f s).lanes = s.lanes := rfl
@[simp] theorem modChain_chain (f : ChainState → ChainState) (s : State) : (modChain f s).chain = f s.chain := rfl
@[simp] theorem modChain_host (f : ChainState → ChainState) (s : State) : (modChain f s).host = s.host := rfl

@[simp] theorem modHost_pending (f : HostState → HostState) (s : State) : (modHost f s).pending = s.pending := rfl
@[simp] theorem modHost_cycle (f : HostState → HostState) (s : State) : (modHost f s).cycle = s.cycle := rfl
@[simp] theorem modHost_free (f : HostState → HostState) (s : State) : (modHost f s).free = s.free := rfl
@[simp] theorem modHost_outs (f : HostState → HostState) (s : State) : (modHost f s).outs = s.outs := rfl
@[simp] theorem modHost_regs (f : HostState → HostState) (s : State) : (modHost f s).regs = s.regs := rfl
@[simp] theorem modHost_latch (f : HostState → HostState) (s : State) : (modHost f s).latch = s.latch := rfl
@[simp] theorem modHost_misaligned (f : HostState → HostState) (s : State) : (modHost f s).misaligned = s.misaligned := rfl
@[simp] theorem modHost_tick (f : HostState → HostState) (s : State) : (modHost f s).tick = s.tick := rfl
@[simp] theorem modHost_boot (f : HostState → HostState) (s : State) : (modHost f s).boot = s.boot := rfl
@[simp] theorem modHost_supply (f : HostState → HostState) (s : State) : (modHost f s).supply = s.supply := rfl
@[simp] theorem modHost_time (f : HostState → HostState) (s : State) : (modHost f s).time = s.time := rfl
@[simp] theorem modHost_keep (f : HostState → HostState) (s : State) : (modHost f s).keep = s.keep := rfl
@[simp] theorem modHost_recd (f : HostState → HostState) (s : State) : (modHost f s).recd = s.recd := rfl
@[simp] theorem modHost_pwr (f : HostState → HostState) (s : State) : (modHost f s).pwr = s.pwr := rfl
@[simp] theorem modHost_assay (f : HostState → HostState) (s : State) : (modHost f s).assay = s.assay := rfl
@[simp] theorem modHost_land (f : HostState → HostState) (s : State) : (modHost f s).land = s.land := rfl
@[simp] theorem modHost_prot (f : HostState → HostState) (s : State) : (modHost f s).prot = s.prot := rfl
@[simp] theorem modHost_seams (f : HostState → HostState) (s : State) : (modHost f s).seams = s.seams := rfl
@[simp] theorem modHost_tub (f : HostState → HostState) (s : State) : (modHost f s).tub = s.tub := rfl
@[simp] theorem modHost_wnd (f : HostState → HostState) (s : State) : (modHost f s).wnd = s.wnd := rfl
@[simp] theorem modHost_sched (f : HostState → HostState) (s : State) : (modHost f s).sched = s.sched := rfl
@[simp] theorem modHost_ports (f : HostState → HostState) (s : State) : (modHost f s).ports = s.ports := rfl
@[simp] theorem modHost_mdio (f : HostState → HostState) (s : State) : (modHost f s).mdio = s.mdio := rfl
@[simp] theorem modHost_ingress (f : HostState → HostState) (s : State) : (modHost f s).ingress = s.ingress := rfl
@[simp] theorem modHost_join (f : HostState → HostState) (s : State) : (modHost f s).join = s.join := rfl
@[simp] theorem modHost_ciph (f : HostState → HostState) (s : State) : (modHost f s).ciph = s.ciph := rfl
@[simp] theorem modHost_cls (f : HostState → HostState) (s : State) : (modHost f s).cls = s.cls := rfl
@[simp] theorem modHost_tally (f : HostState → HostState) (s : State) : (modHost f s).tally = s.tally := rfl
@[simp] theorem modHost_circuits (f : HostState → HostState) (s : State) : (modHost f s).circuits = s.circuits := rfl
@[simp] theorem modHost_looped (f : HostState → HostState) (s : State) : (modHost f s).looped = s.looped := rfl
@[simp] theorem modHost_lanes (f : HostState → HostState) (s : State) : (modHost f s).lanes = s.lanes := rfl
@[simp] theorem modHost_chain (f : HostState → HostState) (s : State) : (modHost f s).chain = s.chain := rfl
@[simp] theorem modHost_host (f : HostState → HostState) (s : State) : (modHost f s).host = f s.host := rfl

@[simp] theorem modLand_pending (f : LandState → LandState) (s : State) : (modLand f s).pending = s.pending := rfl
@[simp] theorem modLand_cycle (f : LandState → LandState) (s : State) : (modLand f s).cycle = s.cycle := rfl
@[simp] theorem modLand_free (f : LandState → LandState) (s : State) : (modLand f s).free = s.free := rfl
@[simp] theorem modLand_outs (f : LandState → LandState) (s : State) : (modLand f s).outs = s.outs := rfl
@[simp] theorem modLand_regs (f : LandState → LandState) (s : State) : (modLand f s).regs = s.regs := rfl
@[simp] theorem modLand_latch (f : LandState → LandState) (s : State) : (modLand f s).latch = s.latch := rfl
@[simp] theorem modLand_misaligned (f : LandState → LandState) (s : State) : (modLand f s).misaligned = s.misaligned := rfl
@[simp] theorem modLand_tick (f : LandState → LandState) (s : State) : (modLand f s).tick = s.tick := rfl
@[simp] theorem modLand_boot (f : LandState → LandState) (s : State) : (modLand f s).boot = s.boot := rfl
@[simp] theorem modLand_supply (f : LandState → LandState) (s : State) : (modLand f s).supply = s.supply := rfl
@[simp] theorem modLand_time (f : LandState → LandState) (s : State) : (modLand f s).time = s.time := rfl
@[simp] theorem modLand_keep (f : LandState → LandState) (s : State) : (modLand f s).keep = s.keep := rfl
@[simp] theorem modLand_recd (f : LandState → LandState) (s : State) : (modLand f s).recd = s.recd := rfl
@[simp] theorem modLand_pwr (f : LandState → LandState) (s : State) : (modLand f s).pwr = s.pwr := rfl
@[simp] theorem modLand_assay (f : LandState → LandState) (s : State) : (modLand f s).assay = s.assay := rfl
@[simp] theorem modLand_land (f : LandState → LandState) (s : State) : (modLand f s).land = f s.land := rfl
@[simp] theorem modLand_prot (f : LandState → LandState) (s : State) : (modLand f s).prot = s.prot := rfl
@[simp] theorem modLand_seams (f : LandState → LandState) (s : State) : (modLand f s).seams = s.seams := rfl
@[simp] theorem modLand_tub (f : LandState → LandState) (s : State) : (modLand f s).tub = s.tub := rfl
@[simp] theorem modLand_wnd (f : LandState → LandState) (s : State) : (modLand f s).wnd = s.wnd := rfl
@[simp] theorem modLand_sched (f : LandState → LandState) (s : State) : (modLand f s).sched = s.sched := rfl
@[simp] theorem modLand_ports (f : LandState → LandState) (s : State) : (modLand f s).ports = s.ports := rfl
@[simp] theorem modLand_mdio (f : LandState → LandState) (s : State) : (modLand f s).mdio = s.mdio := rfl
@[simp] theorem modLand_ingress (f : LandState → LandState) (s : State) : (modLand f s).ingress = s.ingress := rfl
@[simp] theorem modLand_join (f : LandState → LandState) (s : State) : (modLand f s).join = s.join := rfl
@[simp] theorem modLand_ciph (f : LandState → LandState) (s : State) : (modLand f s).ciph = s.ciph := rfl
@[simp] theorem modLand_cls (f : LandState → LandState) (s : State) : (modLand f s).cls = s.cls := rfl
@[simp] theorem modLand_tally (f : LandState → LandState) (s : State) : (modLand f s).tally = s.tally := rfl
@[simp] theorem modLand_circuits (f : LandState → LandState) (s : State) : (modLand f s).circuits = s.circuits := rfl
@[simp] theorem modLand_looped (f : LandState → LandState) (s : State) : (modLand f s).looped = s.looped := rfl
@[simp] theorem modLand_lanes (f : LandState → LandState) (s : State) : (modLand f s).lanes = s.lanes := rfl
@[simp] theorem modLand_chain (f : LandState → LandState) (s : State) : (modLand f s).chain = s.chain := rfl
@[simp] theorem modLand_host (f : LandState → LandState) (s : State) : (modLand f s).host = s.host := rfl

@[simp] theorem modBoot_pending (f : BootState → BootState) (s : State) : (modBoot f s).pending = s.pending := rfl
@[simp] theorem modBoot_cycle (f : BootState → BootState) (s : State) : (modBoot f s).cycle = s.cycle := rfl
@[simp] theorem modBoot_free (f : BootState → BootState) (s : State) : (modBoot f s).free = s.free := rfl
@[simp] theorem modBoot_outs (f : BootState → BootState) (s : State) : (modBoot f s).outs = s.outs := rfl
@[simp] theorem modBoot_regs (f : BootState → BootState) (s : State) : (modBoot f s).regs = s.regs := rfl
@[simp] theorem modBoot_latch (f : BootState → BootState) (s : State) : (modBoot f s).latch = s.latch := rfl
@[simp] theorem modBoot_misaligned (f : BootState → BootState) (s : State) : (modBoot f s).misaligned = s.misaligned := rfl
@[simp] theorem modBoot_tick (f : BootState → BootState) (s : State) : (modBoot f s).tick = s.tick := rfl
@[simp] theorem modBoot_boot (f : BootState → BootState) (s : State) : (modBoot f s).boot = f s.boot := rfl
@[simp] theorem modBoot_supply (f : BootState → BootState) (s : State) : (modBoot f s).supply = s.supply := rfl
@[simp] theorem modBoot_time (f : BootState → BootState) (s : State) : (modBoot f s).time = s.time := rfl
@[simp] theorem modBoot_keep (f : BootState → BootState) (s : State) : (modBoot f s).keep = s.keep := rfl
@[simp] theorem modBoot_recd (f : BootState → BootState) (s : State) : (modBoot f s).recd = s.recd := rfl
@[simp] theorem modBoot_pwr (f : BootState → BootState) (s : State) : (modBoot f s).pwr = s.pwr := rfl
@[simp] theorem modBoot_assay (f : BootState → BootState) (s : State) : (modBoot f s).assay = s.assay := rfl
@[simp] theorem modBoot_land (f : BootState → BootState) (s : State) : (modBoot f s).land = s.land := rfl
@[simp] theorem modBoot_prot (f : BootState → BootState) (s : State) : (modBoot f s).prot = s.prot := rfl
@[simp] theorem modBoot_seams (f : BootState → BootState) (s : State) : (modBoot f s).seams = s.seams := rfl
@[simp] theorem modBoot_tub (f : BootState → BootState) (s : State) : (modBoot f s).tub = s.tub := rfl
@[simp] theorem modBoot_wnd (f : BootState → BootState) (s : State) : (modBoot f s).wnd = s.wnd := rfl
@[simp] theorem modBoot_sched (f : BootState → BootState) (s : State) : (modBoot f s).sched = s.sched := rfl
@[simp] theorem modBoot_ports (f : BootState → BootState) (s : State) : (modBoot f s).ports = s.ports := rfl
@[simp] theorem modBoot_mdio (f : BootState → BootState) (s : State) : (modBoot f s).mdio = s.mdio := rfl
@[simp] theorem modBoot_ingress (f : BootState → BootState) (s : State) : (modBoot f s).ingress = s.ingress := rfl
@[simp] theorem modBoot_join (f : BootState → BootState) (s : State) : (modBoot f s).join = s.join := rfl
@[simp] theorem modBoot_ciph (f : BootState → BootState) (s : State) : (modBoot f s).ciph = s.ciph := rfl
@[simp] theorem modBoot_cls (f : BootState → BootState) (s : State) : (modBoot f s).cls = s.cls := rfl
@[simp] theorem modBoot_tally (f : BootState → BootState) (s : State) : (modBoot f s).tally = s.tally := rfl
@[simp] theorem modBoot_circuits (f : BootState → BootState) (s : State) : (modBoot f s).circuits = s.circuits := rfl
@[simp] theorem modBoot_looped (f : BootState → BootState) (s : State) : (modBoot f s).looped = s.looped := rfl
@[simp] theorem modBoot_lanes (f : BootState → BootState) (s : State) : (modBoot f s).lanes = s.lanes := rfl
@[simp] theorem modBoot_chain (f : BootState → BootState) (s : State) : (modBoot f s).chain = s.chain := rfl
@[simp] theorem modBoot_host (f : BootState → BootState) (s : State) : (modBoot f s).host = s.host := rfl

@[simp] theorem modTick_pending (f : TickState → TickState) (s : State) : (modTick f s).pending = s.pending := rfl
@[simp] theorem modTick_cycle (f : TickState → TickState) (s : State) : (modTick f s).cycle = s.cycle := rfl
@[simp] theorem modTick_free (f : TickState → TickState) (s : State) : (modTick f s).free = s.free := rfl
@[simp] theorem modTick_outs (f : TickState → TickState) (s : State) : (modTick f s).outs = s.outs := rfl
@[simp] theorem modTick_regs (f : TickState → TickState) (s : State) : (modTick f s).regs = s.regs := rfl
@[simp] theorem modTick_latch (f : TickState → TickState) (s : State) : (modTick f s).latch = s.latch := rfl
@[simp] theorem modTick_misaligned (f : TickState → TickState) (s : State) : (modTick f s).misaligned = s.misaligned := rfl
@[simp] theorem modTick_tick (f : TickState → TickState) (s : State) : (modTick f s).tick = f s.tick := rfl
@[simp] theorem modTick_boot (f : TickState → TickState) (s : State) : (modTick f s).boot = s.boot := rfl
@[simp] theorem modTick_supply (f : TickState → TickState) (s : State) : (modTick f s).supply = s.supply := rfl
@[simp] theorem modTick_time (f : TickState → TickState) (s : State) : (modTick f s).time = s.time := rfl
@[simp] theorem modTick_keep (f : TickState → TickState) (s : State) : (modTick f s).keep = s.keep := rfl
@[simp] theorem modTick_recd (f : TickState → TickState) (s : State) : (modTick f s).recd = s.recd := rfl
@[simp] theorem modTick_pwr (f : TickState → TickState) (s : State) : (modTick f s).pwr = s.pwr := rfl
@[simp] theorem modTick_assay (f : TickState → TickState) (s : State) : (modTick f s).assay = s.assay := rfl
@[simp] theorem modTick_land (f : TickState → TickState) (s : State) : (modTick f s).land = s.land := rfl
@[simp] theorem modTick_prot (f : TickState → TickState) (s : State) : (modTick f s).prot = s.prot := rfl
@[simp] theorem modTick_seams (f : TickState → TickState) (s : State) : (modTick f s).seams = s.seams := rfl
@[simp] theorem modTick_tub (f : TickState → TickState) (s : State) : (modTick f s).tub = s.tub := rfl
@[simp] theorem modTick_wnd (f : TickState → TickState) (s : State) : (modTick f s).wnd = s.wnd := rfl
@[simp] theorem modTick_sched (f : TickState → TickState) (s : State) : (modTick f s).sched = s.sched := rfl
@[simp] theorem modTick_ports (f : TickState → TickState) (s : State) : (modTick f s).ports = s.ports := rfl
@[simp] theorem modTick_mdio (f : TickState → TickState) (s : State) : (modTick f s).mdio = s.mdio := rfl
@[simp] theorem modTick_ingress (f : TickState → TickState) (s : State) : (modTick f s).ingress = s.ingress := rfl
@[simp] theorem modTick_join (f : TickState → TickState) (s : State) : (modTick f s).join = s.join := rfl
@[simp] theorem modTick_ciph (f : TickState → TickState) (s : State) : (modTick f s).ciph = s.ciph := rfl
@[simp] theorem modTick_cls (f : TickState → TickState) (s : State) : (modTick f s).cls = s.cls := rfl
@[simp] theorem modTick_tally (f : TickState → TickState) (s : State) : (modTick f s).tally = s.tally := rfl
@[simp] theorem modTick_circuits (f : TickState → TickState) (s : State) : (modTick f s).circuits = s.circuits := rfl
@[simp] theorem modTick_looped (f : TickState → TickState) (s : State) : (modTick f s).looped = s.looped := rfl
@[simp] theorem modTick_lanes (f : TickState → TickState) (s : State) : (modTick f s).lanes = s.lanes := rfl
@[simp] theorem modTick_chain (f : TickState → TickState) (s : State) : (modTick f s).chain = s.chain := rfl
@[simp] theorem modTick_host (f : TickState → TickState) (s : State) : (modTick f s).host = s.host := rfl

@[simp] theorem modTally_pending (f : TallyState → TallyState) (s : State) : (modTally f s).pending = s.pending := rfl
@[simp] theorem modTally_cycle (f : TallyState → TallyState) (s : State) : (modTally f s).cycle = s.cycle := rfl
@[simp] theorem modTally_free (f : TallyState → TallyState) (s : State) : (modTally f s).free = s.free := rfl
@[simp] theorem modTally_outs (f : TallyState → TallyState) (s : State) : (modTally f s).outs = s.outs := rfl
@[simp] theorem modTally_regs (f : TallyState → TallyState) (s : State) : (modTally f s).regs = s.regs := rfl
@[simp] theorem modTally_latch (f : TallyState → TallyState) (s : State) : (modTally f s).latch = s.latch := rfl
@[simp] theorem modTally_misaligned (f : TallyState → TallyState) (s : State) : (modTally f s).misaligned = s.misaligned := rfl
@[simp] theorem modTally_tick (f : TallyState → TallyState) (s : State) : (modTally f s).tick = s.tick := rfl
@[simp] theorem modTally_boot (f : TallyState → TallyState) (s : State) : (modTally f s).boot = s.boot := rfl
@[simp] theorem modTally_supply (f : TallyState → TallyState) (s : State) : (modTally f s).supply = s.supply := rfl
@[simp] theorem modTally_time (f : TallyState → TallyState) (s : State) : (modTally f s).time = s.time := rfl
@[simp] theorem modTally_keep (f : TallyState → TallyState) (s : State) : (modTally f s).keep = s.keep := rfl
@[simp] theorem modTally_recd (f : TallyState → TallyState) (s : State) : (modTally f s).recd = s.recd := rfl
@[simp] theorem modTally_pwr (f : TallyState → TallyState) (s : State) : (modTally f s).pwr = s.pwr := rfl
@[simp] theorem modTally_assay (f : TallyState → TallyState) (s : State) : (modTally f s).assay = s.assay := rfl
@[simp] theorem modTally_land (f : TallyState → TallyState) (s : State) : (modTally f s).land = s.land := rfl
@[simp] theorem modTally_prot (f : TallyState → TallyState) (s : State) : (modTally f s).prot = s.prot := rfl
@[simp] theorem modTally_seams (f : TallyState → TallyState) (s : State) : (modTally f s).seams = s.seams := rfl
@[simp] theorem modTally_tub (f : TallyState → TallyState) (s : State) : (modTally f s).tub = s.tub := rfl
@[simp] theorem modTally_wnd (f : TallyState → TallyState) (s : State) : (modTally f s).wnd = s.wnd := rfl
@[simp] theorem modTally_sched (f : TallyState → TallyState) (s : State) : (modTally f s).sched = s.sched := rfl
@[simp] theorem modTally_ports (f : TallyState → TallyState) (s : State) : (modTally f s).ports = s.ports := rfl
@[simp] theorem modTally_mdio (f : TallyState → TallyState) (s : State) : (modTally f s).mdio = s.mdio := rfl
@[simp] theorem modTally_ingress (f : TallyState → TallyState) (s : State) : (modTally f s).ingress = s.ingress := rfl
@[simp] theorem modTally_join (f : TallyState → TallyState) (s : State) : (modTally f s).join = s.join := rfl
@[simp] theorem modTally_ciph (f : TallyState → TallyState) (s : State) : (modTally f s).ciph = s.ciph := rfl
@[simp] theorem modTally_cls (f : TallyState → TallyState) (s : State) : (modTally f s).cls = s.cls := rfl
@[simp] theorem modTally_tally (f : TallyState → TallyState) (s : State) : (modTally f s).tally = f s.tally := rfl
@[simp] theorem modTally_circuits (f : TallyState → TallyState) (s : State) : (modTally f s).circuits = s.circuits := rfl
@[simp] theorem modTally_looped (f : TallyState → TallyState) (s : State) : (modTally f s).looped = s.looped := rfl
@[simp] theorem modTally_lanes (f : TallyState → TallyState) (s : State) : (modTally f s).lanes = s.lanes := rfl
@[simp] theorem modTally_chain (f : TallyState → TallyState) (s : State) : (modTally f s).chain = s.chain := rfl
@[simp] theorem modTally_host (f : TallyState → TallyState) (s : State) : (modTally f s).host = s.host := rfl

@[simp] theorem modCls_pending (f : ClsState → ClsState) (s : State) : (modCls f s).pending = s.pending := rfl
@[simp] theorem modCls_cycle (f : ClsState → ClsState) (s : State) : (modCls f s).cycle = s.cycle := rfl
@[simp] theorem modCls_free (f : ClsState → ClsState) (s : State) : (modCls f s).free = s.free := rfl
@[simp] theorem modCls_outs (f : ClsState → ClsState) (s : State) : (modCls f s).outs = s.outs := rfl
@[simp] theorem modCls_regs (f : ClsState → ClsState) (s : State) : (modCls f s).regs = s.regs := rfl
@[simp] theorem modCls_latch (f : ClsState → ClsState) (s : State) : (modCls f s).latch = s.latch := rfl
@[simp] theorem modCls_misaligned (f : ClsState → ClsState) (s : State) : (modCls f s).misaligned = s.misaligned := rfl
@[simp] theorem modCls_tick (f : ClsState → ClsState) (s : State) : (modCls f s).tick = s.tick := rfl
@[simp] theorem modCls_boot (f : ClsState → ClsState) (s : State) : (modCls f s).boot = s.boot := rfl
@[simp] theorem modCls_supply (f : ClsState → ClsState) (s : State) : (modCls f s).supply = s.supply := rfl
@[simp] theorem modCls_time (f : ClsState → ClsState) (s : State) : (modCls f s).time = s.time := rfl
@[simp] theorem modCls_keep (f : ClsState → ClsState) (s : State) : (modCls f s).keep = s.keep := rfl
@[simp] theorem modCls_recd (f : ClsState → ClsState) (s : State) : (modCls f s).recd = s.recd := rfl
@[simp] theorem modCls_pwr (f : ClsState → ClsState) (s : State) : (modCls f s).pwr = s.pwr := rfl
@[simp] theorem modCls_assay (f : ClsState → ClsState) (s : State) : (modCls f s).assay = s.assay := rfl
@[simp] theorem modCls_land (f : ClsState → ClsState) (s : State) : (modCls f s).land = s.land := rfl
@[simp] theorem modCls_prot (f : ClsState → ClsState) (s : State) : (modCls f s).prot = s.prot := rfl
@[simp] theorem modCls_seams (f : ClsState → ClsState) (s : State) : (modCls f s).seams = s.seams := rfl
@[simp] theorem modCls_tub (f : ClsState → ClsState) (s : State) : (modCls f s).tub = s.tub := rfl
@[simp] theorem modCls_wnd (f : ClsState → ClsState) (s : State) : (modCls f s).wnd = s.wnd := rfl
@[simp] theorem modCls_sched (f : ClsState → ClsState) (s : State) : (modCls f s).sched = s.sched := rfl
@[simp] theorem modCls_ports (f : ClsState → ClsState) (s : State) : (modCls f s).ports = s.ports := rfl
@[simp] theorem modCls_mdio (f : ClsState → ClsState) (s : State) : (modCls f s).mdio = s.mdio := rfl
@[simp] theorem modCls_ingress (f : ClsState → ClsState) (s : State) : (modCls f s).ingress = s.ingress := rfl
@[simp] theorem modCls_join (f : ClsState → ClsState) (s : State) : (modCls f s).join = s.join := rfl
@[simp] theorem modCls_ciph (f : ClsState → ClsState) (s : State) : (modCls f s).ciph = s.ciph := rfl
@[simp] theorem modCls_cls (f : ClsState → ClsState) (s : State) : (modCls f s).cls = f s.cls := rfl
@[simp] theorem modCls_tally (f : ClsState → ClsState) (s : State) : (modCls f s).tally = s.tally := rfl
@[simp] theorem modCls_circuits (f : ClsState → ClsState) (s : State) : (modCls f s).circuits = s.circuits := rfl
@[simp] theorem modCls_looped (f : ClsState → ClsState) (s : State) : (modCls f s).looped = s.looped := rfl
@[simp] theorem modCls_lanes (f : ClsState → ClsState) (s : State) : (modCls f s).lanes = s.lanes := rfl
@[simp] theorem modCls_chain (f : ClsState → ClsState) (s : State) : (modCls f s).chain = s.chain := rfl
@[simp] theorem modCls_host (f : ClsState → ClsState) (s : State) : (modCls f s).host = s.host := rfl

end Sys2Proof.Machine
end

