-- ==== Sys2Proof/Tests/Slice0.lean ====
section
/-! SUPPORT. Tests: the shapes of operands, worked examples of the spec, and a witness for the hypotheses of each obligation. -/
set_option Elab.async false
set_option linter.all false
open Sys2Proof Sys2Proof.Machine
namespace Sys2Proof.Tests

/-! ### The shapes of operands: for each check an ill-formed term that it refuses, beside a well-formed one -/

def tickIn (junction : List Int) : TickInputs :=
  { phaseNs := 0, junction := junction, caseTemp := 40, powerMw := none, shiftDone := none, circDone := none, govLate := false,
    gateLate := false, tallyLate := false }
def cmisIn (serial : Nat) : CmisData :=
  { revision := 0x40, tOptMs := 0, serial := List.replicate serial 0x41, control := false, maxSteps := 0, txPower := [1, 2, 3, 4],
    bias := [5, 6, 7, 8] }
def zeroWord (n : Nat) : Codeword := List.replicate n 0
theorem zeroWord_length (n : Nat) : (zeroWord n).length = n := List.length_replicate

theorem test_wf_tickEdge : (Instr.tickEdge (tickIn (List.replicate 15 40))).wf = false ∧
    (Instr.tickEdge (tickIn (List.replicate 16 40))).wf = true := by decide
theorem test_wf_localTickCountExpiry : (Instr.localTickCountExpiry (tickIn [])).wf = false := by decide
theorem test_wf_refclkMeasure : (Instr.refclkMeasure [some 0, none, none]).wf = false ∧ (Instr.refclkMeasure [some 0, none, none, none]).wf = true := by decide
theorem test_wf_syncSighting : (Instr.syncSighting 0 0 0 (zeroWord 543)).wf = false := by
  simp only [Instr.wf, zeroWord_length, List.length_replicate, List.all_cons, List.length_cons]
  decide
theorem test_wf_candidateExamine : (Instr.candidateExamine 0 0 0 (zeroWord 545)).wf = false := by
  simp only [Instr.wf, zeroWord_length, List.length_replicate, List.all_cons, List.length_cons]
  decide
theorem test_wf_downstreamFrame : (Instr.downstreamFrame 0 0 [zeroWord 544, zeroWord 543] 0).wf = false ∧
    (Instr.downstreamFrame 0 0 (List.replicate 2441 []) 0).wf = false := by
  simp only [Instr.wf, zeroWord_length, List.length_replicate, List.all_cons, List.length_cons]
  decide
theorem test_wf_pfc : (Instr.pfc 0 0 [0, 0, 0, 0, 0, 0, 0]).wf = false := by decide
theorem test_wf_evFiredamp : (Instr.evFiredamp (List.replicate 16 0) (List.replicate 15 0)).wf = false := by decide
theorem test_wf_recordEvent : (Instr.recordEvent 0x0101 0 (List.replicate 241 0)).wf = false ∧
    (Instr.recordEvent 0x0101 0 (List.replicate 240 0)).wf = true := by
  simp only [Instr.wf, List.length_replicate]
  decide
theorem test_wf_eventFwd : (Instr.eventFwd 0 false (List.replicate 39 0)).wf = false ∧
    (Instr.eventFwd 0 false (List.replicate 281 0)).wf = false ∧ (Instr.eventFwd 0 false (List.replicate 40 0)).wf = true := by
  simp only [Instr.wf, List.length_replicate]
  decide
theorem test_wf_excFwd : (Instr.excFwd 0 (List.replicate 15 0)).wf = false ∧ (Instr.excFwd 0 (List.replicate 273 0)).wf = false := by
  simp only [Instr.wf, List.length_replicate]
  decide
theorem test_wf_time : (Instr.time (some (0, List.replicate 31 0))).wf = false ∧ (Instr.time none).wf = true := by decide
theorem test_wf_hostLinkUp : (Instr.hostLinkUp 0 1).wf = false ∧ (Instr.hostLinkUp 5 1).wf = false ∧
    (Instr.hostLinkUp 4 3).wf = false ∧ (Instr.hostLinkUp 4 4).wf = true := by decide
theorem test_wf_landShortRetry : (Instr.landShortRetry 0 [false, false, false]).wf = false := by decide
theorem test_wf_opticInsert : (Instr.opticInsert 0 (cmisIn 15)).wf = false ∧ (Instr.opticInsert 0 (cmisIn 16)).wf = true := by decide
theorem test_wf_cmisPoll : (Instr.cmisPoll 0 false [1, 2, 3] [1, 2, 3, 4]).wf = false := by decide
theorem test_illFormed_is_refused : exec (.refclkMeasure []) State.reset = .refused .illFormed := rfl

/-! ### Reset (R11, R63) -/

theorem test_reset_held_in_cold_reset : State.reset.boot.inReset = some .cold ∧ State.reset.pending = [] := by decide
theorem test_reset_registers : reg Reg.ASSAY_CTRL State.reset = 0x80050018 ∧ reg Reg.PWR_LADDER_CTRL State.reset = 0x80010064 ∧
    reg Reg.TIME_CTRL State.reset = 0x00000D39 := by decide

/-! ### Worked examples of the spec -/

/-- A running terminal with every domain ON and the keep mounted. -/
def running : State := { State.reset with
  cycle := 5000000000
  boot := { BootState.reset with phase := .running, inReset := none, vioReady := true, refPresent := 0xF, applied := true }
  pwr := { PwrState.reset with dom := (List.range 22).map (fun d => (d, .on)) }
  keep := { KeepState.reset with mounted := true }
  tick := { TickState.reset with count := 100 }
  tally := { TallyState.reset with scanning := false } }

/-- "Worked example, reading a 64-bit counter": two frames arrive in the cycle of the clearing read. -/
def counterRead : State :=
  running |> setReg (Reg.CNT_PORT_RX_FRAMES_OK_LO 0) 0xFFFFFFFE |> setReg (Reg.CNT_PORT_RX_FRAMES_OK_LO 0 + 4) 1

def after (c : Instr) (s : State) : State :=
  match exec c s with
  | .next t => t
  | _ => s

theorem test_counter_read : (after (.rcClearingRead .host (word (Reg.CNT_PORT_RX_FRAMES_OK_LO 0)) 2) counterRead).outs =
      [.readReply .host (word (Reg.CNT_PORT_RX_FRAMES_OK_LO 0)) 0xFFFFFFFE] ∧
    reg (Reg.CNT_PORT_RX_FRAMES_OK_LO 0) (after (.rcClearingRead .host (word (Reg.CNT_PORT_RX_FRAMES_OK_LO 0)) 2) counterRead) = 2 := by
  decide

/-- "One warm tick at Marrin Bridge": PHI 798, and 389 with 20.0 mJ. -/
theorem test_warm_tick_phi : phiOf 7801600000 10000000000 false = 798 ∧ phiOf 3801600000 10000000000 false = 389 := by decide
/-- "An afternoon overdraft at Orrick Junction": A of ticks k and k + 1, and PHI 56. -/
def overdraftSettings : State :=
  setReg Reg.PWR_GOV_THERM (word (135 * 2 ^ 24 + rfld Reg.PWR_GOV_THERM 23 16 running * 2 ^ 16 + 64)) running
theorem test_overdraft_allowance : thermalPj (some 150000) 139 overdraftSettings = 16750000000 ∧
    thermalPj (some 134000) 141 overdraftSettings = 13750000000 := by decide
theorem test_overdraft_phi : phiOf 551600000 10000000000 false = 56 := by decide
/-- "One CCTV burst at Orrick Junction": the record and the burst's first block. -/
theorem test_cctv_record :
    let r := planRecord 0x50282EE000642400
    r.allocId = 0x140A ∧ r.start = 12000 ∧ r.length = 400 ∧ r.qr = true ∧ r.rng = false ∧ r.profile = 2 ∧ r.ks = false := by decide
/-- "An E1 from Marrin Bridge cabinet 1": CHDR, and the message bits of a grant of 385 blocks. -/
theorem test_e1_chdr : chdr 2 16 = [0xA8, 0x10] := by decide
theorem test_e1_grant_bits : recordBits 385 = 11420 := by decide
/-- "A gated platform-display port at Stanneth": the start of the list. -/
theorem test_gate_start : gateStart 1700000000000000000 500000 1700000012345678901 = 1700000012346000000 := by decide
/-- "A circular copy with CRC": word 2 of descriptor N, and the wrap of its source. -/
def descN : WndChan := { WndChan.reset with words := [0x000000000123F800, 0x0000000140000000, 0x0400416900001000, 1] }
theorem test_descriptor_fields : descBurst descN = 256 ∧ descReq descN = 0 ∧ descKDst descN = 0 ∧ descKSrc descN = 16 ∧
    descBarrier descN = true ∧ descCrc descN = 1 ∧ descEvtEn descN = true ∧ descEvt descN = 9 ∧ descLen descN = 4096 ∧
    descEoc descN = true := by decide
theorem test_circular_source : wndAddr 16 0x0123F800 2047 = 0x0123FFFF ∧ wndAddr 16 0x0123F800 2048 = 0x01230000 ∧
    wndAddr 16 0x0123F800 4095 = 0x012307FF := by decide
/-- "A PRBS31 run on the cold side at Marrin Bridge": step 2 before step 1 is refused with ERR 2, and accepted after it. -/
theorem test_prbs_order : cfgReason 526 0x90 running = 2 ∧ cfgReason 522 0xA1 running = 0 ∧
    cfgReason 526 0x90 (setReg (Reg.LANE_CFG 522) 0xA1 running) = 0 := by decide
/-- "One line measurement at Pellow Cutting". -/
theorem test_line_delay : lineDelayPs 300000 8622531 1500 = 58801496 := by decide
/-- "A downstream rekey of identity 0": the additional authenticated data, the label, and the counter after a Pin reset. -/
theorem test_rekey_aad : frameAad 0x0A3 false 7 = [0x0A, 0x30, 0x00, 0x00, 0x00, 0x07, 0x00, 0x00] := by decide
theorem test_rekey_label : lineLabel false = [0x4B, 0x49, 0x4C, 0x53, 0x49, 0x4C, 0x2D, 0x44, 0x53] := by decide
theorem test_counter_reserve : (resumeCounter (keepWrite 3 0x00001234 running)).ciph.ctr = 0x0001234000000000 ∧
    keepValue 3 (resumeCounter (keepWrite 3 0x00001234 running)) = 0x00001235 := by decide
/-- "Supply and prediction after twelve years": G 30 ps and 11.4 years. -/
def twelveYears : State := modAssay (fun x => { x with lastSlack := some 435, lastTarget := 760 }) running
theorem test_guard_band : guardBand 410 760 twelveYears = 300 := by decide
theorem test_years_left : yearsLeft (890 - 300) (1510 - 890) 105120 = 114 := by decide

/-! ### States and operands for the witnesses -/

/-- A line header (R77) with FC and HEID. -/
def mkHeader (fc heid : Nat) : Bytes :=
  let h := beBytes 6 fc ++ beBytes 2 heid ++ [0, 0, 0, 0, 0, 0]
  beBytes 8 syncWord ++ h ++ beBytes 2 (crc16 h)
/-- A codeword whose first bytes are the header of frame 101, of HEID 7. -/
def w101 : Codeword := [0x2da, 0x2b3, 0x078, 0x05c, 0x13e, 0x1d2, 0x1c0, 0, 0, 0, 0x019, 0x100, 0x01c, 0, 0, 0, 0, 0x003, 0x3f1, 0x300] ++ List.replicate 494 0 ++ [0x291, 0x238, 0x3e4, 0x256, 0x15c, 0x020, 0x076, 0x101, 0x3ca, 0x384, 0x13d, 0x14f, 0x0d9, 0x115, 0x09c, 0x0b4, 0x00a, 0x373, 0x351, 0x0ca, 0x152, 0x210, 0x308, 0x3bc, 0x086, 0x193, 0x040, 0x34c, 0x2a6, 0x3f5]
/-- The same codeword with a header that its CRC-16 does not pass. -/
def wbad : Codeword := [0x2da, 0x2b3, 0x078, 0x05c, 0x13e, 0x1d2, 0x1c0, 0, 0x154, 0, 0x019, 0x100, 0x01c, 0, 0, 0, 0, 0x003, 0x3f1, 0x300] ++ List.replicate 494 0 ++ [0x096, 0x1ca, 0x14b, 0x02c, 0x009, 0x0b8, 0x108, 0x042, 0x1a1, 0x33c, 0x279, 0x18d, 0x251, 0x054, 0x060, 0x1a5, 0x25d, 0x39b, 0x16b, 0x2c9, 0x38c, 0x202, 0x1d4, 0x06d, 0x088, 0x063, 0x2bd, 0x215, 0x167, 0x1dc]
/-- A codeword of zeros. -/
def w0 : Codeword := List.replicate 544 0
/-- A change of state. -/
abbrev M := State → State
/-- A register set. -/
def sreg (a : Nat) (v : Nat) : M := setReg a (BitVec.ofNat 32 v)
/-- Bits of a register set. -/
def orreg (a : Nat) (v : Nat) : M := fun s => setReg a (reg a s ||| BitVec.ofNat 32 v) s
/-- A domain in a state. -/
def fdom (d : Nat) (x : DomState) : M := setDom d x
/-- Identity 0 changed. -/
def msid (f : Identity → Identity) : M := modIdent 0 f
/-- A frame of 60 bytes (64 with its FCS) whose IPv4 header is malformed. -/
def frame64 : Bytes := (beBytes 6 0x020000000001 ++ beBytes 6 0x020000000002 ++ beBytes 2 0x0800 ++ List.replicate 46 0)
/-- That frame as a port queues it. -/
def qf : QFrame := { bytes := frame64, colour := 0, tubs := [], dram := none, spill := false, held := false, line := false, bad := false }
def addWord (a v : Nat) : M := fun s => { s with tub := { s.tub with sram := (beBytes 8 v).reverse.zipIdx.foldl (fun m e => tput (fun _ => 0) (a + e.2) e.1 m) s.tub.sram } }


/-- A seam in HUNT. -/
def hunt : SeamState := { SeamState.reset with align := .hunt, lof := true }
/-- A seam in SYNC at a frame. -/
def sync (fc : Nat) : SeamState := { SeamState.reset with align := .sync, fc := BitVec.ofNat 48 fc }
/-- A candidate of a seam. -/
def cand (o run conf fc : Nat) : Candidate := { offset := o, run := run, conf := conf, fc := BitVec.ofNat 48 fc, heid := 7 }
/-- An active circuit of two bytes a frame. -/
def circ0 : Circuit := { Circuit.reset with active := true, encap := 0, n := 2, d := 4, pktBytes := 8, dsSeam := 0, dsOffset := 5 }
/-- A circuit packet: its control word and payload. -/
def circPkt (len seq : Nat) : Bytes := [0, BitVec.ofNat 8 (if len < 60 then (len+4) % 64 else 0)] ++ beBytes 2 seq ++ List.replicate len 0x11
/-- A frame as a pipeline takes it. -/
def inf (b : Bytes) (line : Bool) : InFrame := { bytes := b, line := line, src := 0, stamp := 5, bad := false, tubs := [] }
/-- A journal slot of flow 0. -/
def slot0 (st : SlotState) (down : Bool) : SlotCopy := SlotCopy.mark { SlotCopy.blank with down := down, sseq := 4, tally := 77, payload := [1,2,3] } st
/-- The tag of a tub an agent holds. -/
def tag0 (a : Nat) : TubTag := { free := false, owner := a, next := 0xFFFFFFFF }
/-- Planned bursts. -/
def withBursts (l : List Burst) : M := fun s => { s with join := { s.join with bursts := l } }
def aBurst (id : Option Nat) (ranging : Bool) : Burst := { side := 0, seam := 0, fc := 103, ident := id, ranging := ranging, records := [], profile := 0, preamble := 4, first := 10, eqd := 0, rei := 0, missed := false, sent := false, leftAt := none }
/-- The serial number of identity i (R112). -/
def serial (i : Nat) : BitVec 64 := BitVec.ofNat 64 (Config.moduleSerial.toNat * 128 + i)
/-- The head of a message. -/
def lmm (tn : BitVec 12) : LmmHead := { seam := 0, fc := 101, tn := tn, seq := 9, ackReq := false }
/-- Ethernet, IPv4 and UDP headers. -/
def udpHeaders : Bytes := beBytes 6 0x020000000001 ++ beBytes 6 0x020000000002 ++ beBytes 2 0x0800
  ++ [0x45, 0, 0, 0, 0, 0, 0x40, 0, 64, 17, 0, 0, 10, 0, 0, 1, 10, 0, 0, 2] ++ [0x12, 0x34, 0x12, 0x34, 0, 0, 0, 0]
/-- A tally message in a frame. -/
def tallyFrame (type sseq tally : Nat) (payload : Bytes) : Bytes := fillTemplate udpHeaders (encodeTally type 0 sseq tally 0 0 payload)
def tallyMsg (type sseq tally : Nat) (payload : Bytes) : TallyMsg := decodeTally (encodeTally type 0 sseq tally 0 0 payload)
def ringState : M := fun s => { s with cls := { s.cls with excRing := [{ bytes := [0, 2] ++ List.replicate 30 0, tubs := [], stamp := 5 }] } }
/-- A frame with a right FCS. -/
def goodFrame (ethertype opcode : Nat) : Bytes :=
  let b := beBytes 6 0x020000000001 ++ beBytes 6 0x020000000002 ++ beBytes 2 ethertype ++ beBytes 2 opcode ++ List.replicate 44 0
  b ++ fcsOf b
def lanesActive : M := fun s => (List.range 4).foldl (fun s l => setLane l { LaneState.reset with st := .active, cdr := true } s) s
def noRow : RegRow := ⟨"", 0, 0, 0, 0, 0, 0, 0, 0, 0, 0, 0, 0, 0, 0, .plain, []⟩
def rowAt (a : Nat) : RegRow := (regRow a).getD noRow
def boot (f : BootState → BootState) : M := fun s => { s with boot := f s.boot }
def identity (f : Identity → Identity) : State := modIdent 0 f running
def bits (n : Nat) : BitVec 21 := BitVec.ofNat 21 n
/-- A reset release with nothing found. -/
def release : ReleaseInputs := ⟨⟨0, false, 0⟩, .noAnswer, .noAnswer, 0, 0xF⟩
def writeRecord (a v : Nat) : Bytes := beBytes 4 a ++ beBytes 4 v ++ beBytes 4 0xFFFFFFFF
def oneRecord : Image := ⟨1, 2, [⟨2, writeRecord Reg.PWR_WAKE_CFG 5, 0⟩]⟩
def imageSet (im : Image) : M := boot (fun b => { b with phase := .applying, applied := false, image := some im })
def serialOther : BitVec 64 := BitVec.ofNat 64 ((Config.moduleSerial.toNat + 1) % 2 ^ 57 * 128)
theorem identOfSerial_serial (i : Nat) (h : i < 128) : identOfSerial (serial i).toNat = some i := by
  have hs := Config.moduleSerial.isLt
  simp only [identOfSerial, serial, BitVec.toNat_ofNat]
  rw [Nat.mod_eq_of_lt (by omega)]
  rw [if_pos (by omega)]
  congr 1
  omega
theorem identOfSerial_0 : identOfSerial (serial 0).toNat = some 0 := identOfSerial_serial 0 (by decide)
theorem identOfSerial_127 : identOfSerial (serial 127).toNat = some 127 := identOfSerial_serial 127 (by decide)
theorem identOfSerial_other : identOfSerial serialOther.toNat = none := by
  have hs := Config.moduleSerial.isLt
  simp only [identOfSerial, serialOther, BitVec.toNat_ofNat]
  rw [Nat.mod_eq_of_lt (by omega)]
  rw [if_neg (by omega)]
def imageState : State := running |> imageSet oneRecord
/-- The one record of that image. -/
def recordHead : ImageRecord := ((imageRecords oneRecord.sections).head?).getD ⟨0, 0, 0, [], false⟩
/-- The state once that record is applied. -/
def applied : State :=
  let b := recordHead.bytes
  setReg Reg.PWR_WAKE_CFG ((rowAt Reg.PWR_WAKE_CFG).written (reg Reg.PWR_WAKE_CFG imageState) (recordValue Reg.PWR_WAKE_CFG (word (beAt b 4 4))
    (word (beAt b 8 4)) { imageState with boot := { imageState.boot with phase := .applying, cache := oneRecord.sections, records := [recordHead] } }) 0) imageState
def dozing0 (st : Nat) : M := fun s => { (setReg (Reg.JOIN_ID_CFG 0) 1 (msid (fun x => { x with phase := .serving, tn := some 5, doze := some { state := st, f0 := 90, period := 100, aware := 10, ends := none } }) s)) with tick := { s.tick with count := 188 } }
def frag0 (first : Bool) : BondFragment := ⟨4, first, false, 90, 0, [1, 2], [], false⟩
def gap0 (first : Bool) : M := msid (fun x => { x with phase := .serving, tn := some 5, expected := some 1, gapSince := some 3, frags := [frag0 first] })
def sample0 : CircSample := { encap := 0, n := 2, d := 4, ident := 0, allocK := 1, port := 0, pktBytes := 8, tplLen := 14, demux := 0, dsSeam := 0, dsOffset := 0, tpl := [] }
def armed (f : CircSample) : M := setCircuit 0 { Circuit.reset with next := some f }
def fdbData0 : M := fun s => setReg (Reg.CLS_FDB_DATA 0) 0x02000000 (setReg (Reg.CLS_FDB_DATA 1) 0x00010005 s)
def fdbEntry0 : FdbEntry := { mac := 0x020000000001, vid := 5, static := true, age := true, dest := 0 }
def fdbFull : M := fun s => (fdbWays (fdbSet 5 0x020000000001)).foldl (fun s k => setWay k (some { fdbEntry0 with mac := 1 }) s) (fdbData0 s)
def rule0 (action : Word) : Rule := ⟨0, 0, action⟩
def withRule (action : Word) : M := fun s => { s with cls := { s.cls with rules := [(0, rule0 action)] } }
def ingress0 (b : Bytes) : M := fun s => { s with ingress := [(0, [inf b true])] }
def payloadFrame : Bytes := beBytes 6 0x020000000001 ++ beBytes 6 0x020000000002 ++ beBytes 2 0x88B5 ++ List.replicate 46 0
def oneOffer : ExcRecord := { bytes := [0, 2] ++ List.replicate 30 0, tubs := [], stamp := 5 }
def flow0 (cfg : Nat) : M := setReg (Reg.TALLY_FLOW_CFG 0) (BitVec.ofNat 32 cfg)
def heldSlot (down : Bool) : M := fun s => setReg (Reg.TALLY_RTX) 0x101 (flow0 (if down then 0xC0000000 else 0x80000000) { s with tally := { s.tally with journal := [(0, slot0 .held down), (8192, slot0 .held down)], work := [(0, { SlotWork.none with verified := true, due := true, since := 0 })] } })
def heldSlotSent : M := fun s => { s with tally := { s.tally with journal := [(0, slot0 .held true), (8192, slot0 .held true)], work := [(0, { SlotWork.none with verified := true, since := 0 })] } }
def pendingSlot : M := fun s => { s with tally := { s.tally with journal := [(0, slot0 .pending false), (8192, slot0 .pending false)], writes := [⟨0, 256, some 7⟩] } }
def budget : M := fun s => { s with tally := { s.tally with left := 1000000, leftCount := 100 } }
def submit0 : Bytes := tallyFrame 1 7 0 [1, 2, 3]
def submitMsg : TallyMsg := tallyMsg 1 7 0 [1, 2, 3]
def qfs : QFrame := { qf with tubs := [0] }
def ds0 : PtpDataset := ⟨0, 0, 0, 0, 0, 0, 0⟩
def parent : PtpForeign := ⟨ds0, Config.clockIdentity + 1, 1, 4999999000, some 4999998000⟩
/-- Port 0 a SLAVE that has heard one qualified master. -/
def follows : M := fun s => setPtpPort 0 { ptpPort0 with foreign := [parent], syncSeq := 7, reqSeq := 7, t2 := some 55 } (setReg (Reg.TIME_PTP_PORT 0) 0x80000400 s)
def following : State := running |> setPort 0 { PortState.reset with link := true, mode := 3 } |> follows
def followingAll : State := setPtpPort 0 { ptpPort 0 following with t1 := some 1, t3 := some 3 } following
def fromParent0 (k : PtpKind) : PtpMessage := { domain := 248, seq := 7, sender := Config.clockIdentity + 1, senderPort := 1, correction := 0, kind := k }
theorem parent_sender : (parent.sender != Config.clockIdentity) = true := by
  simp only [parent, bne_iff_ne, ne_eq]
  bv_omega
/-- A SLAVE port that has heard one qualified master hears it as its parent, whatever the terminal's own clock identity is. -/
theorem from_parent (k : PtpKind) (p : PtpPort) (s : State) (ht : s.time.ptp = [(0, p)]) (hl : liveForeigns 0 s = [parent])
    (hr : rbit (Reg.TIME_PTP_PORT 0) 31 s = true) (hs : ptpState 0 s = 4) (hi : 1000 ≤ 4 * announceInterval 0 s) :
    fromParent 0 (fromParent0 k) s = true := by
  have hq : foreignQualified 0 parent s = true := by
    unfold foreignQualified
    rw [parent_sender]
    show (true && true && decide (1000 ≤ 4 * announceInterval 0 s)) = true
    simp [hi]
  have hp : portBest 0 s = some (0, parent) := by
    simp only [portBest, hl, List.filter, hq, List.map, List.foldl, betterForeign]
  have hb : bestForeign s = some (0, parent) := by
    simp only [bestForeign, ht, List.filter, hr, List.filterMap, hp, List.foldl, betterForeign]
  simp [fromParent, hs, hb, fromParent0, parent]
theorem from_parent_following (k : PtpKind) : fromParent 0 (fromParent0 k) following = true :=
  from_parent k _ following rfl rfl (by decide +kernel) (by decide +kernel) (by decide +kernel)
theorem from_parent_followingAll (k : PtpKind) : fromParent 0 (fromParent0 k) followingAll = true :=
  from_parent k _ followingAll rfl rfl (by decide +kernel) (by decide +kernel) (by decide +kernel)
theorem answers_followingAll : answersMine 0 (fromParent0 (.delayResp 0 ⟨Config.clockIdentity, 1⟩)) ⟨Config.clockIdentity, 1⟩ followingAll = true := by
  have h : (ptpPort 0 followingAll).reqSeq = 7 := rfl
  simp [answersMine, h, fromParent0, ptpPortNumber]
def setTimeNow (ns : Nat) : M := fun s => { s with time := { s.time with now := ns * 2 ^ 56 } }
/-- A refusal less than a second old, with the votes it met. -/
def refused : State :=
  let b : State := { running with pwr := { running.pwr with target := 2 } }
  { b with pwr := { b.pwr with lastRefusal := some b.cycle, refusedVotes := (List.range 10).map (fun k => votesOf k (orderEntry 2 (refreshVotes b))) } }
def frameOf (type dst : Nat) (payload : Bytes) : ChainFrame :=
  { type := type, wrap := false, resp := false, bcast := false, dst := dst, src := 3, hops := 128, tag := 9, payload := payload }
def chainBytes (f : ChainFrame) : Bytes := withCrc (chainHeader f.type f.wrap f.resp f.bcast f.dst f.src f.hops f.tag f.payload.length ++ f.payload)
def chainAll : M := fun s => { s with chain := { s.chain with east := ⟨true, false⟩, west := ⟨true, false⟩ } }

def stOffgen : M := fdom 18 .off
def stDom15off : M := fdom 15 .off
def stDom16off : M := fdom 16 .off
def stDom17wak : M := fdom 17 .waking
def stDom20off : M := fdom 20 .off
def stDom19off : M := fdom 19 .off
def stDom0wak : M := fdom 0 .waking
def stHeld : M := fun s => { s with boot := { s.boot with phase := .held } }
def stNoImage : M := fun s => { s with boot := { s.boot with phase := .noImage } }
def stRomReset : M := fun s => { s with boot := { s.boot with phase := .rom, inReset := some .cold } }
def stResetPin : M := fun s => { s with boot := { s.boot with inReset := some .pin } }
def stResetChain : M := fun s => { s with boot := { s.boot with inReset := some .chain, domActive := 3 } }
def stDomAct0 : M := fun s => { s with boot := { s.boot with domActive := 1 } }
def stKeepFail : M := fun s => { s with keep := { s.keep with failedDie := some 0 } }
def stUnmounted : M := fun s => { s with keep := { s.keep with mounted := false } }
def stOpRoot : M := fun s => { s with keep := { s.keep with opRoot := some (List.replicate 32 7) } }
def stDip : M := fun s => { s with supply := { s.supply with warning := true, lowestMv := 10000 } }
def stOverrun2 : M := fun s => { s with tick := { s.tick with overruns := [(2, 5, 100)] } }
def stOverrun0 : M := fun s => { s with tick := { s.tick with overruns := [(0, 5, 100)] } }
def stLateGov : M := fun s => { s with pwr := { s.pwr with lateAllowPj := some 7 } }
def stLadder1 : M := fun s => { s with pwr := { s.pwr with ladder := 1 } }
def stLadder4 : M := fun s => { s with pwr := { s.pwr with ladder := 4, target := 4 } }
def stTarget3 : M := fun s => { s with pwr := { s.pwr with target := 3 } }
def stTarget1 : M := fun s => { s with pwr := { s.pwr with target := 1 } }
def stVotes0 : M := fun s => { s with pwr := { s.pwr with votes := [(1, 0x3FFFF), (6, 0x8001)] } }
def stFiredamp : M := fun s => { s with pwr := { s.pwr with firedamp := true } }
def stPhiFull : M := fun s => { s with pwr := { s.pwr with phiFullTicks := 70000, shedBlocks := 3 } }
def stRefs0 : M := fun s => { s with boot := { s.boot with refPresent := 0 } }
def stCandA : M := fun s => { s with boot := { s.boot with candidate := some false, phase := .loading } }
def stImage0 : M := fun s => { s with boot := { s.boot with phase := .loading, applied := false, image := some ⟨1, 2, []⟩ } }
def stSync0 : M := setSeam 0 0 (sync 100)
def stSync1 : M := setSeam 1 0 (sync 100)
def stSync1bad3 : M := setSeam 1 0 { sync 100 with badSync := 3 }
def stLos1 : M := setSeam 1 0 { hunt with los := true }
def stPresync0 : M := setSeam 0 0 { hunt with align := .presync, cands := [cand 0 4 3 100] }
def stSdClosed : M := setSeam 0 0 { sync 100 with sdClosed := [5, 6] }
def stSfClosed : M := setSeam 0 0 { sync 100 with sfClosed := [(3, 4)], eligible := true }
def stEligFail : M := setSeam 0 0 { hunt with eligible := true, failSince := some 0 }
def stTickLine : M := fun s => { (setSeam 0 0 { sync 100 with stamps := [(99, 500), (100, 625)] } s) with tick := { s.tick with line := true, side := 0, seam := 0 } }
def stSel1 : M := fun s => { s with time := { s.time with sel := 1 } }
def stRanging : M := msid (fun x => { x with phase := .ranging, tn := some 5, timer := some 10 })
def stAnnouncing : M := msid (fun x => { x with phase := .announcing })
def stServing : M := msid (fun x => { x with phase := .serving, tn := some 5, allocs := [(1, 5000)] })
def stServing1 : M := modIdent 1 (fun x => { x with phase := .serving, tn := some 6 })
def stHeldHead : M := msid (fun x => { x with phase := .held, cause := .head, tn := some 5 })
def stHeldLine : M := msid (fun x => { x with phase := .held, cause := .line, tn := some 5, timer := some 10 })
def stParked : M := msid (fun x => { x with phase := .parked })
def stExpelled : M := msid (fun x => { x with phase := .expelled })
def stDoze : M := msid (fun x => { x with phase := .serving, tn := some 5, doze := some { state := 2, f0 := 90, period := 100, aware := 10, ends := none } })
def stCiphCur : M := fun s => { s with ciph := { s.ciph with dirs := [(0, { KeyDir.reset with cur := { LineKey.reset with epoch := 0, key := some [1], slot := true } }), (1, { KeyDir.reset with cur := { LineKey.reset with epoch := 1, key := some [1], slot := true } })] } }
def stWakeCfg : M := sreg Reg.PWR_WAKE_CFG 0xFF
def stWakeTimer : M := sreg Reg.PWR_WAKE_TIMER 5
def stCircArmed : M := setCircuit 0 { Circuit.reset with next := some { encap := 0, n := 2, d := 4, ident := 0, allocK := 1, port := 0, pktBytes := 8, tplLen := 14, demux := 0, dsSeam := 0, dsOffset := 0, tpl := [] } }
def stCircOn : M := setCircuit 0 circ0
def stCircIn : M := fun s => { (setCircuit 0 circ0 s) with cls := { s.cls with circIn := [(0, circPkt 8 1)] } }
def stRuleData : M := sreg (Reg.CLS_RULE_DATA 0 40) 0x30000
def stFdbD2b : M := sreg (Reg.CLS_FDB_DATA 2) 0x02805001
def stFdbD1 : M := sreg (Reg.CLS_FDB_DATA 1) 0x00010005
def stFdbD1b : M := sreg (Reg.CLS_FDB_DATA 1) 0x00010FFF
def stFdbAge0 : M := sreg Reg.CLS_FDB_AGE 0
def stFdbAge : M := sreg Reg.CLS_FDB_AGE 300
def stReach : M := fun s => { s with chain := { s.chain with reachable := true, heard := [(0, some 3)] } }
def stBank : M := fun s => { s with host := { s.host with link := true, speed := 3, width := 4 }, chain := { s.chain with reachable := true } }
def stScanning : M := fun s => { s with tally := { s.tally with scanning := true } }
def stFlowOpen : M := fun s => sreg (Reg.TALLY_FLOW_CFG 0) 0xE0000000 s
def stSlotPend : M := fun s => { s with tally := { s.tally with journal := [(0, (slot0 .pending false)), (8192, (slot0 .pending false))], writes := [⟨0, 256, some 7⟩] } }
def stPaused : M := modSched 0 (fun x => { x with lanesPausedTo := 6000000000, circ := [qf] })
def stAdmin : M := fun s => sreg (Reg.SCHED_GATE_CYCLE 0) 1000000 { s with sched := { s.sched with admin := [(0, (255, 1000000)), (1, (1, 100))] } }
def stPendGate : M := modSched 0 (fun x => { x with pend := some ⟨[(255, 1000000)], 1000000, 0, 0, 0⟩ })
def stPolData : M := fun s => sreg (Reg.SCHED_POL_DATA 0) 0x80000000 (sreg (Reg.SCHED_POL_DATA 1) 50 (sreg (Reg.SCHED_POL_DATA 3) 20 s))
def stPortUp : M := setPort 0 { PortState.reset with link := true, mode := 3 }
def stPortM1 : M := setPort 0 { PortState.reset with mode := 1, link := true }
def stPortM4 : M := setPort 0 { PortState.reset with mode := 4, link := true }
def stPortLpi : M := setPort 0 { PortState.reset with link := true, mode := 3, lpiTx := true, lpiTxAt := 4 }
def stPortLldp : M := setPort 0 { PortState.reset with link := true, mode := 3, lldpAt := some 4900000000 }
def stDdr : M := fun s => { s with tub := { s.tub with trained := true, ddrLeft := 1000000 } }
def stEee : M := sreg (Reg.PORT_EEE_CFG 0) 0xC0001005
def stLane0 : M := setLane 0 { LaneState.reset with st := .active, cdr := true, adapted := true, energy := true }
def stLane0t : M := setLane 0 { LaneState.reset with st := .train, energy := true }
def stLane0e : M := setLane 0 { LaneState.reset with st := .eidle }
def stLane0scan : M := setLane 0 { LaneState.reset with st := .active, cdr := true, scan := true }
def stLane0prbs : M := setLane 0 { LaneState.reset with st := .active, cdr := true, prbsLock := true, prbsErr := 3 }
def stLane531t : M := setLane 531 { LaneState.reset with st := .train}
def stLaneLoop : M := sreg (Reg.LANE_CFG 0) 0x201
def stRetired0 : M := fun s => { s with keep := { s.keep with dieA := tput blankCopy 8 ⟨1, 1, true⟩ s.keep.dieA, dieB := tput blankCopy 8 ⟨1, 1, true⟩ s.keep.dieB } }
def stMdio0 : M := fun s => { s with mdio := [(0, { MdioState.reset with op := [(0, 1)] })] }
def stMdio2 : M := fun s => { s with mdio := [(0, { MdioState.reset with op := [(0, 2)] })] }
def stMdio3 : M := fun s => { s with mdio := [(0, { MdioState.reset with op := [(0, 3)] })] }
def stMdio4 : M := fun s => { s with mdio := [(0, { MdioState.reset with op := [(1, 4)] })] }
def stMdio5 : M := fun s => { s with mdio := [(0, { MdioState.reset with op := [(0, 5)] })] }
def stMdio6 : M := fun s => { s with mdio := [(0, { MdioState.reset with op := [(0, 6)] })] }
def stTubs : M := fun s => { s with tub := { s.tub with tags := [(0, tag0 1), (4, tag0 12)], taken := [(0, 1)], cells := [(3, 1)] } }
def stRingPost : M := fun s => { s with tub := { s.tub with posted := [(0, 1)], post := [(0, 1)] } }
def stWndRun : M := setChan 0 { WndChan.reset with phase := .run, fetch := some 0x1000 }
def stWndHalt : M := setChan 0 { WndChan.reset with phase := .halt }
def stWndEn : M := sreg (Reg.WND_CH_CFG 0) 0x80000000
def stWndCopy : M := setChan 0 { WndChan.reset with phase := .run, words := [0x1000000000000040, 0x2000, 0x3000, 0] }
def stTvalid : M := fun s => { s with time := { s.time with now := 5 * 10^9 * 2^56, valid := true } }
def stPpsHigh : M := fun s => { s with time := { s.time with ppsOutHigh := true } }
def stStepNs : M := sreg Reg.TIME_STEP_NS 1000
def stStepOnce : M := fun s => { s with keep := { s.keep with dieA := tput blankCopy 2 ⟨1, 1, true⟩ s.keep.dieA, dieB := tput blankCopy 2 ⟨1, 1, true⟩ s.keep.dieB } }
def stPtpSlave : M := sreg (Reg.TIME_PTP_PORT 0) 0x80000400
def stPtpMaster : M := sreg (Reg.TIME_PTP_PORT 0) 0x80000200
def stPtpP2p : M := sreg (Reg.TIME_PTP_PORT 0) 0xA0000200
def stCanEn : M := fun s => orreg Reg.PROT_CTRL 8 s
def stCanRun : M := fun s => { s with prot := { s.prot with canary := some 1 } }
def stCanRetry : M := fun s => { s with prot := { s.prot with retry := true } }
def stSwi : M := fun s => { s with prot := { s.prot with switching := some ⟨3, 90, 4000000000⟩ } }
def stDecided : M := fun s => { s with prot := { s.prot with decided := some 3 } }
def stLockReq : M := fun s => { s with prot := { s.prot with req := 1 } }
def stWtr : M := fun s => { s with prot := { s.prot with wtrStart := some 0, wtrPasses := 2, active := 1 } }
def stPrbsOk : M := setLane (lineRx 1 0) { LaneState.reset with prbsSeen := true }
def stOptA : M := fun s => orreg (Reg.GEN_OPTIC 0) 0x11 s
def stJob2 : M := fun s => { s with ciph := { s.ciph with jobs := [⟨0, false, true, false⟩], dirs := [(0, { KeyDir.reset with pend := some { LineKey.reset with slot := true, epoch := 4 } })] } }
def stSpare0 : M := fun s => { s with keep := { s.keep with spareA := 0 } }
def stBucket0 : M := fun s => { s with recd := { s.recd with bucket := 0, bucketCycle := s.cycle } }
def stRunning : M := fun s => { s with assay := { s.assay with running := true } }
def stDrain : M := fun s => { s with assay := { s.assay with draining := [0, 5] } }
def stWin7 : M := fun s => { s with assay := { s.assay with windows := [(7 * 65536, ⟨100, s.cycle⟩)] } }
def stChainLanes : M := fun s => [528,529,530,531].foldl (fun s l => setLane l { LaneState.reset with st := .active, cdr := true, energy := true } s) s
def stAlerts : M := fun s => { s with chain := { s.chain with alertSent := 1 } }
def stFwd : M := fun s => orreg Reg.CHAIN_CTRL 0x80000000 { s with recd := { s.recd with newestSeq := 3, oldestSeq := 1 } }
def stInfl : M := fun s => { s with host := { s.host with inflight := [⟨0, 0x40, none, 7⟩, ⟨0, 0x44, some 3, 8⟩] } }
def stLandShortLine : M := sreg Reg.GEN_LAND_SHORT 0x800
def stLandShort0 : M := sreg Reg.GEN_LAND_SHORT 1
def stMism3 : M := fun s => { s with land := { s.land with mismatches := [(0, 3)] } }

/-! ### Witnesses: for each obligation, clause by clause, a state and operands that meet all its hypotheses together -/

theorem witness_StepExecutesTheFrontCommand :
    ∃ (c : Instr) (rest : List Instr) (s : State),
    s.pending = c :: rest :=
  ⟨.tickEdge (tickIn (List.replicate 16 40)), [.tickOverrun 0 none], ({ running with pending := [.tickEdge (tickIn (List.replicate 16 40)), .tickOverrun 0 none] }), rfl⟩

theorem witness_EmptyQueuePassesOneCycle :
    ∃ (s : State),
    s.pending = [] :=
  ⟨running, rfl⟩

theorem witness_StepKeepsMemoriesCanonical :
    ∃ (s : State) (t : State),
    s.wf ∧
    step s = .next t :=
  ⟨running, (idleCycle running), ⟨by dsimp only [State.wf]; decide +kernel, rfl⟩⟩

theorem witness_OperatorRootKeyIsPermanent :
    ∃ (s : State) (t : State) (k : Bytes),
    s.keep.opRoot = some k ∧
    step s = .next t :=
  ⟨(running |> stOpRoot), (idleCycle (running |> stOpRoot)), (List.replicate 32 7), ⟨rfl, rfl⟩⟩

theorem witness_CommandsStopOnlyWhereIllFormed :
    (∃ (s : State),
    s.wfQueue)
    ∧ (∃ (c : Instr),
    c.wf = true) :=
  ⟨⟨running, by
    intro c h
    cases h⟩,
   ⟨(.refclkMeasure [some 0, none, none, none]), by decide⟩⟩

theorem witness_AbsentRegisterReadsZero :
    ∃ (addr : Word) (s : State),
    s.quiet ∧
    addr.toNat % 4 = 0 ∧
    (regRow addr.toNat).isNone = true ∧
    refusesAccess addr.toNat s = false :=
  ⟨0x3a6dbaa0#32, running, by
    try dsimp only [State.quiet, State.wf]
    decide +kernel⟩

theorem witness_MisalignedAccessIsCountedOnly :
    (∃ (addr : Word) (bytes : Nat) (s : State),
    s.quiet ∧
    (bytes = 4 ∧ addr.toNat % 4 = 0))
    ∧ (∃ (addr : Word) (bytes : Nat) (s : State),
    s.quiet ∧
    (¬ (bytes = 4 ∧ addr.toNat % 4 = 0)))
    ∧ (∃ (addr : Word) (s : State),
    s.quiet ∧
    addr.toNat % 4 ≠ 0) :=
  ⟨⟨0x0128001c#32, 4, (running |> stFiredamp), by
    try dsimp only [State.quiet, State.wf]
    decide +kernel⟩,
   ⟨0x01000008#32, 14680076, running, by
    try dsimp only [State.quiet, State.wf]
    decide +kernel⟩,
   ⟨0x00001001#32, running, by
    try dsimp only [State.quiet, State.wf]
    decide +kernel⟩⟩

theorem witness_ClearingReadCarriesIncrements :
    (∃ (addr : Word) (r : RegRow) (s : State),
    s.quiet ∧
    s.wf ∧
    addr.toNat % 4 = 0 ∧
    judge addr.toNat s = .perform ∧
    regRow addr.toNat = some r ∧
    r.kind = .rc)
    ∧ (∃ (addr : Word) (r : RegRow) (s : State),
    s.quiet ∧
    s.wf ∧
    addr.toNat % 4 = 0 ∧
    judge addr.toNat s = .perform ∧
    regRow addr.toNat = some r ∧
    r.kind = .low1) :=
  ⟨⟨(word (Reg.CNT_LOF_ENTRY 1 3)), (rowAt (Reg.CNT_LOF_ENTRY 1 3)), running, by
    try dsimp only [State.quiet, State.wf]
    decide +kernel⟩,
   ⟨(word (Reg.CNT_PORT_RX_FRAMES_OK_LO 511)), (rowAt (Reg.CNT_PORT_RX_FRAMES_OK_LO 511)), running, by
    try dsimp only [State.quiet, State.wf]
    decide +kernel⟩⟩

theorem witness_HighWordAnswersItsOwnLatch :
    (∃ (addr : Word) (r : RegRow) (s : State),
    s.quiet ∧
    s.wf ∧
    addr.toNat % 4 = 0 ∧
    judge addr.toNat s = .perform ∧
    regRow addr.toNat = some r ∧
    r.kind = .low0)
    ∧ (∃ (addr : Word) (r : RegRow) (s : State),
    s.quiet ∧
    s.wf ∧
    addr.toNat % 4 = 0 ∧
    judge addr.toNat s = .perform ∧
    regRow addr.toNat = some r ∧
    r.kind = .high)
    ∧ (∃ (a : Source) (b : Source) (x : Word) (y : Word),
    latchKey a x.toNat = latchKey b y.toNat) :=
  ⟨⟨(word (Reg.LINE_FC_LO 1 3)), (rowAt (Reg.LINE_FC_LO 1 3)), running, by
    try dsimp only [State.quiet, State.wf]
    decide +kernel⟩,
   ⟨(word (Reg.CNT_PORT_RX_FRAMES_OK_LO 0 + 4)), (rowAt (Reg.CNT_PORT_RX_FRAMES_OK_LO 0 + 4)), running, by
    try dsimp only [State.quiet, State.wf]
    decide +kernel⟩,
   ⟨.host, .host, 0xFFFFFFFF, 0xFFFFFFFF, rfl⟩⟩

theorem witness_PlainWriteFollowsAccessCodes :
    ∃ (addr : Word) (r : RegRow) (s : State),
    s.quiet ∧
    s.wf ∧
    addr.toNat % 4 = 0 ∧
    judge addr.toNat s = .perform ∧
    regRow addr.toNat = some r ∧
    actsOnWrite addr.toNat = false :=
  ⟨(word (Reg.PWR_WAKE_CFG)), (rowAt (Reg.PWR_WAKE_CFG)), running, by
    try dsimp only [State.quiet, State.wf]
    decide +kernel⟩

theorem witness_W1cBitSetInSameCycleStaysSet :
    ∃ (addr : Word) (same : Word) (r : RegRow) (s : State) (i : Nat),
    s.quiet ∧
    s.wf ∧
    addr.toNat % 4 = 0 ∧
    judge addr.toNat s = .perform ∧
    regRow addr.toNat = some r ∧
    actsOnWrite addr.toNat = false ∧
    (word r.w1c).getLsbD i = true ∧
    same.getLsbD i = true :=
  ⟨(word (Reg.LINE_DEFECT 1 3)), 1, (rowAt (Reg.LINE_DEFECT 1 3)), running, 0, by
    try dsimp only [State.quiet, State.wf]
    decide +kernel⟩

theorem witness_PersistentWriteReachesBothDies :
    (∃ (value : Word) (s : State) (a : Nat) (i : Nat) (v : Word),
    s.quiet ∧
    s.wf ∧
    ((a = Reg.IMG_MIN_GEN ∧ i = 0 ∧ v = value) ∨ (a = Reg.TIME_STEP_ALLOW ∧ i = 2 ∧ v = value &&& 1)) ∧
    judge a s = .perform ∧
    (keepEntry i s).valid = true ∧
    (keepEntry i s).value = v)
    ∧ (∃ (value : Word) (s : State) (a : Nat) (i : Nat) (v : Word),
    s.quiet ∧
    s.wf ∧
    ((a = Reg.IMG_MIN_GEN ∧ i = 0 ∧ v = value) ∨ (a = Reg.TIME_STEP_ALLOW ∧ i = 2 ∧ v = value &&& 1)) ∧
    judge a s = .perform ∧
    s.keep.failedDie = none ∧
    s.keep.failedUnits = [] ∧
    (keepEntry i s).value ≠ v ∧
    (keepEntry i s).wear + 1 < 500000000000) :=
  ⟨⟨0x00201000#32, running, 14680084, 2, 0x00000000#32, by
    try dsimp only [State.quiet, State.wf]
    decide +kernel⟩,
   ⟨0x01000008#32, running, 65552, 0, 0x01000008#32, by
    try dsimp only [State.quiet, State.wf]
    decide +kernel⟩⟩

theorem witness_HeldTerminalRefusesOtherBlocks :
    (∃ (addr : Word) (s : State),
    s.quiet ∧
    addr.toNat % 4 = 0 ∧
    (s.boot.phase = .held ∨ s.boot.phase = .noImage) ∧
    0x100000 ≤ addr.toNat)
    ∧ (∃ (addr : Word) (s : State),
    s.quiet ∧
    addr.toNat % 4 = 0 ∧
    (s.boot.phase = .held ∨ s.boot.phase = .noImage) ∧
    addr.toNat < 0x100000) :=
  ⟨⟨0x66270b00#32, (running |> stHeld), by
    try dsimp only [State.quiet, State.wf]
    decide +kernel⟩,
   ⟨0x000003e8#32, (running |> stNoImage), by
    try dsimp only [State.quiet, State.wf]
    decide +kernel⟩⟩

theorem witness_TickEdgesAndOverrunsCount :
    (∃ (i : TickInputs) (s : State),
    s.quiet ∧
    i.wf = true ∧
    s.boot.inReset = none ∧
    lowestSync (activeSide s) s = none)
    ∧ (∃ (i : TickInputs) (s : State),
    s.quiet ∧
    i.wf = true ∧
    s.boot.inReset = none ∧
    lowestSync (activeSide s) s ≠ none)
    ∧ (∃ (block : Fin 7) (s : State),
    s.quiet ∧
    s.wf ∧
    (s.tick.overruns.any (fun eZ => eZ.1 == block.val)) = false)
    ∧ (∃ (block : Fin 7) (s : State),
    s.quiet ∧
    s.wf ∧
    (s.tick.overruns.any (fun eZ => eZ.1 == block.val)) = true ∧
    block ≠ 2) :=
  ⟨⟨(tickIn (List.replicate 16 100)), running, by
    try dsimp only [State.quiet, State.wf]
    decide +kernel⟩,
   ⟨(tickIn (List.replicate 16 100)), (running |> stSync0), by
    try dsimp only [State.quiet, State.wf]
    decide +kernel⟩,
   ⟨3, running, by
    try dsimp only [State.quiet, State.wf]
    decide +kernel⟩,
   ⟨0, (running |> stOverrun0), by
    try dsimp only [State.quiet, State.wf]
    decide +kernel⟩⟩

theorem witness_TickWorkRuns :
    (∃ s : State, ∃ a,
    s.quiet ∧
    s.wf ∧
    s.pwr.lateAllowPj = some a)
    ∧ (∃ (s : State),
    s.quiet ∧
    s.wf ∧
    s.pwr.lateAllowPj = none)
    ∧ (∃ (s : State),
    s.quiet ∧
    s.wf ∧
    (s.tick.overruns.any (fun eZ => eZ.1 == 2)) = false)
    ∧ (∃ (s : State),
    s.quiet ∧
    s.wf ∧
    (s.tick.overruns.any (fun eZ => eZ.1 == 2)) = true)
    ∧ (∃ (s : State),
    s.quiet ∧
    s.wf ∧
    supRuns s = true)
    ∧ (∃ (s : State),
    s.quiet ∧
    s.wf ∧
    supRuns s = false) :=
  ⟨⟨(running |> stLateGov), 7, by
    try dsimp only [State.quiet, State.wf]
    decide +kernel⟩,
   ⟨running, by
    try dsimp only [State.quiet, State.wf]
    decide +kernel⟩,
   ⟨running, by
    try dsimp only [State.quiet, State.wf]
    decide +kernel⟩,
   ⟨(running |> stOverrun2), by
    try dsimp only [State.quiet, State.wf]
    decide +kernel⟩,
   ⟨running, by
    try dsimp only [State.quiet, State.wf]
    decide +kernel⟩,
   ⟨(running |> stOffgen), by
    try dsimp only [State.quiet, State.wf]
    decide +kernel⟩⟩

theorem witness_ResetsTakeKeepAndOutrank :
    (∃ (s : State) (p : ResetKind),
    s.quiet ∧
    s.wf ∧
    s.boot.inReset = some p ∧
    p = .pin)
    ∧ (∃ (s : State) (p : ResetKind),
    s.quiet ∧
    s.wf ∧
    s.boot.inReset = some p ∧
    p = .chain)
    ∧ (∃ (s : State) (p : ResetKind),
    s.quiet ∧
    s.wf ∧
    s.boot.inReset = some p ∧
    p = .cold)
    ∧ (∃ (s : State) (p : ResetKind),
    s.quiet ∧
    s.wf ∧
    s.boot.inReset = some p ∧
    resetRank p < 2)
    ∧ (∃ (s : State) (p : ResetKind),
    s.quiet ∧
    s.wf ∧
    s.boot.inReset = some p ∧
    resetRank p < 4)
    ∧ (∃ (s : State) (p : ResetKind),
    s.quiet ∧
    s.wf ∧
    s.boot.inReset = some p ∧
    2 < resetRank p)
    ∧ (∃ (s : State) (p : ResetKind) (code : Word),
    s.quiet ∧
    s.wf ∧
    s.boot.inReset = some p ∧
    code ≠ 0xA5C1) :=
  ⟨⟨(running |> stResetPin), Sys2Proof.ResetKind.pin, by
    try dsimp only [State.quiet, State.wf]
    decide +kernel⟩,
   ⟨(running |> stResetChain), Sys2Proof.ResetKind.chain, by
    try dsimp only [State.quiet, State.wf]
    decide +kernel⟩,
   ⟨(running |> stRomReset), Sys2Proof.ResetKind.cold, by
    try dsimp only [State.quiet, State.wf]
    decide +kernel⟩,
   ⟨(running |> stRomReset), Sys2Proof.ResetKind.cold, by
    try dsimp only [State.quiet, State.wf]
    decide +kernel⟩,
   ⟨(running |> stRomReset), Sys2Proof.ResetKind.cold, by
    try dsimp only [State.quiet, State.wf]
    decide +kernel⟩,
   ⟨(running |> stResetChain), Sys2Proof.ResetKind.chain, by
    try dsimp only [State.quiet, State.wf]
    decide +kernel⟩,
   ⟨(running |> stRomReset), Sys2Proof.ResetKind.cold, 0x01080030#32, by
    try dsimp only [State.quiet, State.wf]
    decide +kernel⟩⟩

theorem witness_DomainResetsHoldAndReload :
    (∃ (s : State) (d : Fin 21),
    s.quiet ∧
    s.boot.inReset = none ∧
    s.boot.domActive = 0 ∧
    s.assay.ddrFailed = 0 ∧
    d.val ≤ 3)
    ∧ (∃ (s : State),
    s.quiet ∧
    s.boot.inReset = none ∧
    s.boot.domActive ≠ 0)
    ∧ (∃ (s : State),
    s.quiet ∧
    s.boot.inReset.isSome = true)
    ∧ (∃ (s : State) (d : Fin 21),
    s.quiet ∧
    s.boot.domActive.getLsbD d.val = false)
    ∧ (∃ (s : State) (d : Fin 21),
    s.quiet ∧
    s.boot.domActive.getLsbD d.val = true ∧
    s.boot.inReset = none ∧
    s.boot.busyReg.isSome = true ∧
    s.boot.replay ≠ some d.val ∧
    (s.boot.releases.any (fun eZ => eZ.1 == d.val)) = false)
    ∧ (∃ (s : State) (d : Fin 21) (ups : List (Nat × Nat × Byte)),
    s.quiet ∧
    s.boot.domActive.getLsbD d.val = true ∧
    s.boot.inReset = none ∧
    s.boot.replay = none ∧
    s.boot.busyReg = none ∧
    s.boot.releases = [] ∧
    s.boot.heldDomains = 0 ∧
    (upsetCache ups s.boot.cache).any (fun xZ => sectionUsed d.val xZ && crc32c xZ.body != xZ.crc) = true)
    ∧ (∃ (s : State) (d : Fin 21) (ups : List (Nat × Nat × Byte)),
    s.quiet ∧
    s.boot.domActive.getLsbD d.val = true ∧
    s.boot.inReset = none ∧
    s.boot.replay = none ∧
    s.boot.busyReg = none ∧
    s.boot.releases = [] ∧
    s.boot.heldDomains = 0 ∧
    (upsetCache ups s.boot.cache).any (fun xZ => sectionUsed d.val xZ && crc32c xZ.body != xZ.crc) = false ∧
    (imageRecords (upsetCache ups s.boot.cache)).filter (recordIn d.val) = []) :=
  ⟨⟨running, 0, by
    try dsimp only [State.quiet, State.wf]
    decide +kernel⟩,
   ⟨(running |> stDomAct0), by
    try dsimp only [State.quiet, State.wf]
    decide +kernel⟩,
   ⟨(running |> stRomReset), by
    try dsimp only [State.quiet, State.wf]
    decide +kernel⟩,
   ⟨running, 20, by
    try dsimp only [State.quiet, State.wf]
    decide +kernel⟩,
   ⟨(running |> boot (fun b => { b with domActive := bits 1, busyReg := some 0xA00108 })), 0, by
    try dsimp only [State.quiet, State.wf]
    decide +kernel⟩,
   ⟨(running |> boot (fun b => { b with domActive := 1, cache := [⟨2, [0, 0], crc32c [0, 0]⟩] })), 0, [(0, 1, 0x80)], by
    try dsimp only [State.quiet, State.wf]
    decide +kernel⟩,
   ⟨(running |> stDomAct0), 0, [], by
    try dsimp only [State.quiet, State.wf]
    decide +kernel⟩⟩

theorem witness_ReleaseStartsUpFromACandidate :
    (∃ s : State, ∃ k : ResetKind, ∃ h,
    s.quiet ∧
    s.boot.inReset = some k ∧
    s.supply.vauxLost = false ∧
    s.boot.heldReset = some h)
    ∧ (∃ (s : State) (k : ResetKind),
    s.quiet ∧
    s.boot.inReset = some k ∧
    s.supply.vauxLost = false ∧
    s.boot.heldReset = none)
    ∧ (∃ (s : State) (r : ReleaseInputs),
    s.quiet ∧
    s.boot.inReset = none ∧
    s.boot.vioReady = false ∧
    s.boot.phase = .rom ∧
    s.boot.heldRelease = some r) :=
  ⟨⟨(State.reset |> boot (fun b => { b with heldReset := some (.chain, 0) })), .cold, (.chain, 0), by
    try dsimp only [State.quiet, State.wf]
    decide +kernel⟩,
   ⟨State.reset, .cold, by
    try dsimp only [State.quiet, State.wf]
    decide +kernel⟩,
   ⟨(State.reset |> boot (fun b => { b with inReset := none, phase := .rom, vioReady := false, heldRelease := some release })), release, by
    try dsimp only [State.quiet, State.wf]
    decide +kernel⟩⟩

theorem witness_ImagesAreVerifiedAndApplied :
    (∃ (s : State),
    s.quiet ∧
    s.boot.phase = .held)
    ∧ (∃ (s : State),
    s.quiet ∧
    s.boot.phase ≠ .held)
    ∧ (∃ (s : State) (im : Image),
    s.quiet ∧
    s.wf ∧
    s.boot.image = some im ∧
    s.boot.inReset = none ∧
    s.boot.lineRefHold = false ∧
    s.boot.applied = false ∧
    s.boot.busyReg = none ∧
    s.boot.replay = none ∧
    (s.boot.phase = .loading ∨ s.boot.phase = .applying) ∧
    imageRecords im.sections = [] ∧
    partitionFaults s = 0)
    ∧ (∃ (s : State) (im : Image) (r : ImageRecord) (row : RegRow) (a : Nat) (u : State),
    s.quiet ∧
    s.wf ∧
    s.boot.image = some im ∧
    s.boot.inReset = none ∧
    s.boot.lineRefHold = false ∧
    s.boot.applied = false ∧
    s.boot.busyReg = none ∧
    s.boot.replay = none ∧
    (s.boot.phase = .loading ∨ s.boot.phase = .applying) ∧
    imageRecords im.sections = [r] ∧
    r.type = 2 ∧
    r.fragment = false ∧
    a = beAt r.bytes 0 4 ∧
    writeSkipped a = false ∧
    regRow a = some row ∧
    actsOnWrite a = false ∧
    isBusyReg a = false ∧
    u = setReg a (row.written (reg a s) (recordValue a (word (beAt r.bytes 4 4)) (word (beAt r.bytes 8 4)) { s with boot := { s.boot with phase := .applying, cache := im.sections, records := [r] } }) 0) s ∧
    partitionFaults u = 0)
    ∧ (∃ (s : State) (im : Image) (v : State) (a : Nat) (r : ImageRecord),
    s.quiet ∧
    s.wf ∧
    s.boot.image = some im ∧
    s.boot.inReset = none ∧
    s.boot.lineRefHold = false ∧
    s.boot.applied = false ∧
    s.boot.busyReg = none ∧
    s.boot.replay = none ∧
    (s.boot.phase = .loading ∨ s.boot.phase = .applying) ∧
    v.quiet ∧
    v.wf ∧
    v.boot.busyReg = some a ∧
    v.boot.records = [r] ∧
    v.boot.replay = none ∧
    busyNow a v = false ∧
    partitionFaults v = 0)
    ∧ (∃ (s : State) (im : Image) (v : State) (a : Nat) (r : ImageRecord),
    s.quiet ∧
    s.wf ∧
    s.boot.image = some im ∧
    s.boot.inReset = none ∧
    s.boot.lineRefHold = false ∧
    s.boot.applied = false ∧
    s.boot.busyReg = none ∧
    s.boot.replay = none ∧
    (s.boot.phase = .loading ∨ s.boot.phase = .applying) ∧
    v.quiet ∧
    v.wf ∧
    v.boot.busyReg = some a ∧
    v.boot.records = [r] ∧
    v.boot.replay = none ∧
    busyNow a v = true ∧
    partitionFaults v = 0) :=
  ⟨⟨(running |> stHeld), by
    try dsimp only [State.quiet, State.wf]
    decide +kernel⟩,
   ⟨running, by
    try dsimp only [State.quiet, State.wf]
    decide +kernel⟩,
   ⟨(running |> stImage0), { generation := 0x00000001#32, fwVersion := 0x00000002#32, sections := [] }, by
    try dsimp only [State.quiet, State.wf]
    decide +kernel⟩,
   ⟨imageState, oneRecord, recordHead, (rowAt Reg.PWR_WAKE_CFG), Reg.PWR_WAKE_CFG, applied, by
    try dsimp only [State.quiet, State.wf]
    decide +kernel⟩,
   ⟨imageState, oneRecord, (running |> boot (fun b => { b with busyReg := some 0xA00108, records := [recordHead] })), 0xA00108, recordHead, by
    try dsimp only [State.quiet, State.wf]
    decide +kernel⟩,
   ⟨imageState, oneRecord, (running |> setReg 0xA00108 0x80000000 |> boot (fun b => { b with busyReg := some 0xA00108, records := [recordHead] })), 0xA00108, recordHead, by
    try dsimp only [State.quiet, State.wf]
    decide +kernel⟩⟩

theorem witness_ReferencesAndSuppliesAreMonitored :
    (∃ (s : State) (n : Fin 4),
    s.quiet ∧
    s.wf ∧
    s.boot.inReset = none ∧
    s.boot.refPresent.getLsbD n.val = true)
    ∧ (∃ (s : State) (n : Fin 4) (v : Int),
    s.quiet ∧
    s.wf ∧
    500 < v ∧
    s.boot.inReset = none ∧
    s.boot.refOut.getLsbD n.val = false ∧
    n = 0)
    ∧ (∃ (s : State) (n : Fin 4),
    s.quiet ∧
    s.wf ∧
    s.boot.refPresent.getLsbD n.val = false)
    ∧ (∃ (s : State) (v : Int),
    s.quiet ∧
    s.wf ∧
    -500 ≤ v ∧
    v ≤ 500)
    ∧ (∃ s : State, ∃ r,
    s.quiet ∧
    s.wf ∧
    s.boot.lineRefHold = true ∧
    s.boot.heldRelease = some r)
    ∧ (∃ (s : State) (mv : BitVec 16),
    s.quiet ∧
    s.wf ∧
    s.supply.warning = false ∧
    mv.toNat < 10400 ∧
    s.boot.inReset = none ∧
    s.pwr.entry = none ∧
    s.pwr.exitTo = none)
    ∧ (∃ (s : State) (mv : BitVec 16),
    s.quiet ∧
    s.wf ∧
    s.supply.warning = true ∧
    mv.toNat < 10400)
    ∧ (∃ (s : State) (mv : BitVec 16),
    s.quiet ∧
    s.wf ∧
    s.supply.warning = true ∧
    10600 ≤ mv.toNat)
    ∧ (∃ (s : State),
    s.quiet ∧
    s.wf ∧
    s.supply.vauxLost = false) :=
  ⟨⟨running, 2, by
    try dsimp only [State.quiet, State.wf]
    decide +kernel⟩,
   ⟨running, 0, 501, by
    try dsimp only [State.quiet, State.wf]
    decide +kernel⟩,
   ⟨(running |> stRefs0), 0, by
    try dsimp only [State.quiet, State.wf]
    decide +kernel⟩,
   ⟨running, 500, by
    try dsimp only [State.quiet, State.wf]
    decide +kernel⟩,
   ⟨(running |> boot (fun b => { b with lineRefHold := true, heldRelease := some release })), release, by
    try dsimp only [State.quiet, State.wf]
    decide +kernel⟩,
   ⟨running, 0x0007#16, by
    try dsimp only [State.quiet, State.wf]
    decide +kernel⟩,
   ⟨(running |> stDip), 0x0040#16, by
    try dsimp only [State.quiet, State.wf]
    decide +kernel⟩,
   ⟨(running |> stDip), 0x7ee0#16, by
    try dsimp only [State.quiet, State.wf]
    decide +kernel⟩,
   ⟨running, by
    try dsimp only [State.quiet, State.wf]
    decide +kernel⟩⟩

theorem witness_SightingsBringASeamIntoSync :
    (∃ (s : State) (side : Fin 2) (n : Fin 4),
    s.quiet ∧
    s.wf ∧
    let x := seam side.val n.val s
    let q := x.cands.filter (fun cZ => 3 ≤ cZ.conf)
    (x.align ≠ .presync ∨ x.los = true ∨ q = []))
    ∧ (∃ (s : State) (side : Fin 2) (n : Fin 4),
    s.quiet ∧
    s.wf ∧
    let x := seam side.val n.val s
    let q := x.cands.filter (fun cZ => 3 ≤ cZ.conf)
    x.align = .presync ∧
    x.los = false ∧
    q ≠ []) :=
  ⟨⟨running, 0, 0, by
    try dsimp only [State.quiet, State.wf]
    decide +kernel⟩,
   ⟨(running |> stPresync0), 0, 0, by
    try dsimp only [State.quiet, State.wf]
    decide +kernel⟩⟩

set_option maxRecDepth 100000 in
theorem witness_SyncFollowsTheHeader :
    (∃ (s : State) (side : Fin 2) (n : Fin 4) (w : Codeword) (ws : List Codeword),
    s.quiet ∧
    s.wf ∧
    (w :: ws).length ≤ 2440 ∧
    (∀ v ∈ w :: ws, v.length = 544) ∧
    let x := seam side.val n.val s
    x.align ≠ .sync)
    ∧ (∃ s : State, ∃ side : Fin 2, ∃ n : Fin 4, ∃ w : Codeword, ∃ ws : List Codeword, ∃ b,
    s.quiet ∧
    s.wf ∧
    (w :: ws).length ≤ 2440 ∧
    (∀ v ∈ w :: ws, v.length = 544) ∧
    let x := seam side.val n.val s
    x.align = .sync ∧
    syncBad side.val n.val (w :: ws) s = false ∧
    rbit (Reg.LINE_CTRL side.val n.val) 8 s = false ∧
    headerOf w = some b ∧
    headerValid b = true ∧
    hdrFc b = x.fc + 1 ∧
    (side.val = activeSide s → s.pwr.ladder < 2))
    ∧ (∃ (s : State) (side : Fin 2) (n : Fin 4) (w : Codeword) (ws : List Codeword),
    s.quiet ∧
    s.wf ∧
    (w :: ws).length ≤ 2440 ∧
    (∀ v ∈ w :: ws, v.length = 544) ∧
    let x := seam side.val n.val s
    x.align = .sync ∧
    syncBad side.val n.val (w :: ws) s = false ∧
    rbit (Reg.LINE_CTRL side.val n.val) 8 s = false ∧
    (∀ b, headerOf w = some b → headerValid b = false) ∧
    side.val ≠ activeSide s)
    ∧ (∃ (s : State) (side : Fin 2) (n : Fin 4) (w : Codeword) (ws : List Codeword),
    s.quiet ∧
    s.wf ∧
    (w :: ws).length ≤ 2440 ∧
    (∀ v ∈ w :: ws, v.length = 544) ∧
    let x := seam side.val n.val s
    x.align = .sync ∧
    syncBad side.val n.val (w :: ws) s = true ∧
    x.badSync = 3 ∧
    side.val ≠ activeSide s) :=
  ⟨⟨running, 1, 3, w101, [], by
    try dsimp only [State.quiet, State.wf]
    decide +kernel⟩,
   ⟨(running |> stSync1), 1, 0, w101, [], (mkHeader 101 7), by
    try dsimp only [State.quiet, State.wf]
    decide +kernel⟩,
   ⟨(running |> stSync1), 1, 0, wbad, [], by
    try dsimp only [State.quiet, State.wf]
    decide +kernel⟩,
   ⟨(running |> stSync1bad3), 1, 0, w0, [], by
    try dsimp only [State.quiet, State.wf]
    decide +kernel⟩⟩

theorem witness_DefectsAndSidesComeAndGo :
    (∃ (s : State) (side : Fin 2) (n : Fin 4) (sd : Bool) (energy : Bool),
    s.quiet ∧
    s.wf ∧
    let x := seam side.val n.val s
    (sourcesLost side.val n.val sd energy s = false ∨ x.align = .off ∨ x.los = true))
    ∧ (∃ (s : State) (side : Fin 2) (n : Fin 4) (sd : Bool) (energy : Bool),
    s.quiet ∧
    s.wf ∧
    let x := seam side.val n.val s
    sourcesLost side.val n.val sd energy s = true ∧
    x.align ≠ .off ∧
    x.los = false)
    ∧ (∃ (s : State) (side : Fin 2) (n : Fin 4) (sd : Bool) (energy : Bool),
    s.quiet ∧
    s.wf ∧
    let x := seam side.val n.val s
    (x.los = false ∨ sourcesPresent side.val n.val sd energy s = false))
    ∧ (∃ (s : State) (side : Fin 2) (n : Fin 4) (sd : Bool) (energy : Bool),
    s.quiet ∧
    s.wf ∧
    let x := seam side.val n.val s
    x.los = true ∧
    laneRetired (lineRx side.val n.val) s = false ∧
    sourcesPresent side.val n.val sd energy s = true)
    ∧ (∃ (s : State) (side : Fin 2) (n : Fin 4),
    s.quiet ∧
    s.wf ∧
    let x := seam side.val n.val s
    x.sdClosed = [])
    ∧ (∃ s : State, ∃ side : Fin 2, ∃ n : Fin 4, ∃ e, ∃ rest,
    s.quiet ∧
    s.wf ∧
    let x := seam side.val n.val s
    x.sdClosed = e :: rest)
    ∧ (∃ s : State, ∃ side : Fin 2, ∃ n : Fin 4, ∃ corr, ∃ unc, ∃ rest,
    s.quiet ∧
    s.wf ∧
    let x := seam side.val n.val s
    x.sfClosed = (corr, unc) :: rest)
    ∧ (∃ (s : State) (side : Fin 2),
    s.quiet ∧
    s.wf ∧
    (domState (lineDomain side.val) s = .on ∨ sideKept side.val s = false))
    ∧ (∃ (s : State) (side : Fin 2),
    s.quiet ∧
    s.wf ∧
    sideKept side.val s = true ∧
    domState (lineDomain side.val) s ≠ .on)
    ∧ (∃ (s : State) (side : Fin 2),
    s.quiet ∧
    s.wf ∧
    domState (lineDomain side.val) s = .off)
    ∧ (∃ (s : State) (side : Fin 2),
    s.quiet ∧
    s.wf ∧
    domState (lineDomain side.val) s ≠ .off) :=
  ⟨⟨(running |> stSync1), 1, 0, true, false, by
    try dsimp only [State.quiet, State.wf]
    decide +kernel⟩,
   ⟨(running |> stSync1), 1, 0, false, true, by
    try dsimp only [State.quiet, State.wf]
    decide +kernel⟩,
   ⟨(running |> stSync1), 1, 0, true, true, by
    try dsimp only [State.quiet, State.wf]
    decide +kernel⟩,
   ⟨(running |> stLos1), 1, 0, true, false, by
    try dsimp only [State.quiet, State.wf]
    decide +kernel⟩,
   ⟨running, 0, 0, by
    try dsimp only [State.quiet, State.wf]
    decide +kernel⟩,
   ⟨(running |> stSdClosed), 0, 0, 5, [6], by
    try dsimp only [State.quiet, State.wf]
    decide +kernel⟩,
   ⟨(running |> stSfClosed), 0, 0, 3, 4, [], by
    try dsimp only [State.quiet, State.wf]
    decide +kernel⟩,
   ⟨running, 0, by
    try dsimp only [State.quiet, State.wf]
    decide +kernel⟩,
   ⟨(setDom 15 .waking (setReg (Reg.PWR_VOTE 0) 0x3FFFFF { running with pwr := { running.pwr with votes := [(1, 0x3FFFF)] } })), 0, by
    try dsimp only [State.quiet, State.wf]
    decide +kernel⟩,
   ⟨(running |> stDom15off), 0, by
    try dsimp only [State.quiet, State.wf]
    decide +kernel⟩,
   ⟨running, 0, by
    try dsimp only [State.quiet, State.wf]
    decide +kernel⟩⟩

theorem witness_MessagesAreActedOnAndSetTheirState :
    (∃ (s : State) (m : LmmHead),
    s.quiet ∧
    s.wf ∧
    concerned m s = [])
    ∧ (∃ (s : State) (m : LmmHead) (i : Fin 128) (id : BitVec 14) (k : BitVec 3),
    s.quiet ∧
    s.wf ∧
    let x := ident i.val s
    let fresh := fun (type : Nat) => concerned m s = [i.val] ∧ (m.tn = 0xFFF ∨ x.lastMsg ≠ some (type, m.seq.toNat))
    fresh 3 ∧
    k.toNat ≠ 0 ∧
    4096 ≤ id.toNat ∧
    id.toNat ≤ 16382 ∧
    (∀ e ∈ allocHolders id.toNat s, e = (i.val, k.toNat)))
    ∧ (∃ (s : State) (m : LmmHead) (i : Fin 128) (id : BitVec 14) (k : BitVec 3),
    s.quiet ∧
    s.wf ∧
    let x := ident i.val s
    let fresh := fun (type : Nat) => concerned m s = [i.val] ∧ (m.tn = 0xFFF ∨ x.lastMsg ≠ some (type, m.seq.toNat))
    fresh 3 ∧
    k.toNat ≠ 0 ∧
    4096 ≤ id.toNat ∧
    id.toNat ≤ 16382 ∧
    hasAlloc i.val k.toNat s = true)
    ∧ (∃ (s : State) (m : LmmHead) (i : Fin 128) (up : Bool) (epoch : Word),
    s.quiet ∧
    s.wf ∧
    let x := ident i.val s
    let fresh := fun (type : Nat) => concerned m s = [i.val] ∧ (m.tn = 0xFFF ∨ x.lastMsg ≠ some (type, m.seq.toNat))
    fresh 7 ∧
    (keyDir i.val up s).cur.epoch ≠ epoch)
    ∧ (∃ (s : State) (m : LmmHead) (i : Fin 128) (up : Bool) (epoch : Word),
    s.quiet ∧
    s.wf ∧
    let x := ident i.val s
    let fresh := fun (type : Nat) => concerned m s = [i.val] ∧ (m.tn = 0xFFF ∨ x.lastMsg ≠ some (type, m.seq.toNat))
    fresh 7 ∧
    (keyDir i.val up s).cur.epoch = epoch ∧
    (keyDir i.val up s).cur.key.isSome = true ∧
    m.ackReq = false)
    ∧ (∃ (s : State) (m : LmmHead) (preamble : BitVec 10),
    s.quiet ∧
    s.wf ∧
    m.tn = 0xFFF ∧
    preamble = 0)
    ∧ (∃ (s : State) (m : LmmHead) (p : BitVec 3) (preamble : BitVec 10),
    s.quiet ∧
    s.wf ∧
    m.tn = 0xFFF ∧
    preamble ≠ 0 ∧
    s.keep.failedDie = none ∧
    s.keep.failedUnits = [] ∧
    (∀ w, w < 4 → (keepEntry (profileEntry (activeSide s) p.toNat w) s).wear + 1 < 500000000000))
    ∧ (∃ (s : State) (m : LmmHead) (i : Fin 128) (st : BitVec 3),
    s.quiet ∧
    s.wf ∧
    let x := ident i.val s
    let fresh := fun (type : Nat) => concerned m s = [i.val] ∧ (m.tn = 0xFFF ∨ x.lastMsg ≠ some (type, m.seq.toNat))
    fresh 9 ∧
    m.ackReq = false ∧
    (x.phase ≠ .serving ∨ 3 < st.toNat))
    ∧ (∃ (s : State) (m : LmmHead) (i : Fin 128) (st : BitVec 3),
    s.quiet ∧
    s.wf ∧
    let x := ident i.val s
    let fresh := fun (type : Nat) => concerned m s = [i.val] ∧ (m.tn = 0xFFF ∨ x.lastMsg ≠ some (type, m.seq.toNat))
    fresh 9 ∧
    m.ackReq = false ∧
    x.phase = .serving ∧
    x.wokeAt ≠ some s.tick.count ∧
    s.pwr.wakeAt ≠ some s.tick.count ∧
    st = 0)
    ∧ (∃ (s : State) (m : LmmHead) (i : Fin 128) (st : BitVec 3) (period : BitVec 16) (aware : BitVec 16),
    s.quiet ∧
    s.wf ∧
    let x := ident i.val s
    let fresh := fun (type : Nat) => concerned m s = [i.val] ∧ (m.tn = 0xFFF ∨ x.lastMsg ≠ some (type, m.seq.toNat))
    fresh 9 ∧
    m.ackReq = false ∧
    x.phase = .serving ∧
    1 ≤ st.toNat ∧
    st.toNat ≤ 2 ∧
    8 ≤ period.toNat ∧
    2 ≤ aware.toNat ∧
    aware.toNat < period.toNat ∧
    (x.wokeAt = some s.tick.count ∨ s.pwr.wakeAt = some s.tick.count))
    ∧ (∃ (s : State) (m : LmmHead) (i : Fin 128) (st : BitVec 3) (period : BitVec 16) (aware : BitVec 16),
    s.quiet ∧
    s.wf ∧
    let x := ident i.val s
    let fresh := fun (type : Nat) => concerned m s = [i.val] ∧ (m.tn = 0xFFF ∨ x.lastMsg ≠ some (type, m.seq.toNat))
    fresh 9 ∧
    m.ackReq = false ∧
    x.phase = .serving ∧
    1 ≤ st.toNat ∧
    st.toNat ≤ 2 ∧
    8 ≤ period.toNat ∧
    2 ≤ aware.toNat ∧
    aware.toNat < period.toNat ∧
    x.wokeAt ≠ some s.tick.count ∧
    s.pwr.wakeAt ≠ some s.tick.count)
    ∧ (∃ (s : State) (m : LmmHead) (i : Fin 128),
    s.quiet ∧
    s.wf ∧
    let x := ident i.val s
    let fresh := fun (type : Nat) => concerned m s = [i.val] ∧ (m.tn = 0xFFF ∨ x.lastMsg ≠ some (type, m.seq.toNat))
    fresh 10 ∧
    m.ackReq = false)
    ∧ (∃ (s : State) (m : LmmHead),
    s.quiet ∧
    s.wf ∧
    m.tn = 0xFFF ∧
    (s.tick.line = false ∨ s.tick.side.val ≠ activeSide s ∨ s.tick.seam ≠ m.seam))
    ∧ (∃ (s : State) (m : LmmHead) (mark : BitVec 48),
    s.quiet ∧
    s.wf ∧
    m.tn = 0xFFF ∧
    s.tick.line = true ∧
    s.tick.side.val = activeSide s ∧
    s.tick.seam = m.seam ∧
    7 < (m.fc - mark).toNat)
    ∧ (∃ (s : State) (m : LmmHead) (mark : BitVec 48),
    s.quiet ∧
    s.wf ∧
    m.tn = 0xFFF ∧
    s.tick.line = true ∧
    s.tick.side.val = activeSide s ∧
    s.tick.seam = m.seam ∧
    (m.fc - mark).toNat ≤ 7 ∧
    (∀ e ∈ (seam (activeSide s) m.seam.val s).stamps, e.1 ≠ mark))
    ∧ (∃ s : State, ∃ m : LmmHead, ∃ mark : BitVec 48, ∃ stamp,
    s.quiet ∧
    s.wf ∧
    m.tn = 0xFFF ∧
    s.tick.line = true ∧
    s.tick.side.val = activeSide s ∧
    s.tick.seam = m.seam ∧
    (m.fc - mark).toNat ≤ 7 ∧
    (seam (activeSide s) m.seam.val s).stamps.find? (fun eZ => eZ.1 == mark) = some (mark, stamp) ∧
    s.time.sel = 1) :=
  ⟨⟨running, (lmm 5), by
    try dsimp only [State.quiet, State.wf]
    decide +kernel⟩,
   ⟨(running |> stServing), (lmm 5), 0, 4096, 7, by
    try dsimp only [State.quiet, State.wf]
    decide +kernel⟩,
   ⟨(running |> stServing), (lmm 5), 0, 16382, 1, by
    try dsimp only [State.quiet, State.wf]
    decide +kernel⟩,
   ⟨(running |> stServing), (lmm 5), 0, true, 7, by
    try dsimp only [State.quiet, State.wf]
    decide +kernel⟩,
   ⟨(running |> stServing |> stCiphCur), (lmm 5), 0, false, 0, by
    try dsimp only [State.quiet, State.wf]
    decide +kernel⟩,
   ⟨running, (lmm 0xFFF), 0, by
    try dsimp only [State.quiet, State.wf]
    decide +kernel⟩,
   ⟨running, (lmm 0xFFF), 7, 1, by
    try dsimp only [State.quiet, State.wf]
    decide +kernel⟩,
   ⟨(running |> stServing), (lmm 5), 0, 4, by
    try dsimp only [State.quiet, State.wf]
    decide +kernel⟩,
   ⟨(running |> stServing), (lmm 5), 0, 0, by
    try dsimp only [State.quiet, State.wf]
    decide +kernel⟩,
   ⟨(running |> msid (fun x => { x with phase := .serving, tn := some 5, wokeAt := some 100 })), (lmm 5), 0, 1, 8, 2, by
    try dsimp only [State.quiet, State.wf]
    decide +kernel⟩,
   ⟨(running |> stServing), (lmm 5), 0, 2, 0xFFFF, 0xFFFE, by
    try dsimp only [State.quiet, State.wf]
    decide +kernel⟩,
   ⟨(running |> stServing), (lmm 5), 0, by
    try dsimp only [State.quiet, State.wf]
    decide +kernel⟩,
   ⟨running, (lmm 0xFFF), by
    try dsimp only [State.quiet, State.wf]
    decide +kernel⟩,
   ⟨(running |> stTickLine), (lmm 0xFFF), 93, by
    try dsimp only [State.quiet, State.wf]
    decide +kernel⟩,
   ⟨(running |> stTickLine), (lmm 0xFFF), 94, by
    try dsimp only [State.quiet, State.wf]
    decide +kernel⟩,
   ⟨(running |> stTickLine |> stSel1), (lmm 0xFFF), 100, 625, by
    try dsimp only [State.quiet, State.wf]
    decide +kernel⟩⟩

theorem witness_RegistrationFollowsTheMessages :
    (∃ (s : State) (idser : BitVec 64),
    s.quiet ∧
    s.wf ∧
    identOfSerial idser.toNat = none)
    ∧ (∃ (s : State) (i : Fin 128) (idser : BitVec 64) (tn : BitVec 12),
    s.quiet ∧
    s.wf ∧
    let x := ident i.val s
    identOfSerial idser.toNat = some i.val ∧
    (tn = 0xFFF ∨ (x.phase ≠ .announcing ∧ ¬ (holdsTn x = true ∧ x.tn = some tn))))
    ∧ (∃ (s : State) (i : Fin 128) (idser : BitVec 64) (tn : BitVec 12),
    s.quiet ∧
    s.wf ∧
    let x := ident i.val s
    identOfSerial idser.toNat = some i.val ∧
    tn ≠ 0xFFF ∧
    x.phase = .announcing ∧
    (identOfTn tn.toNat s).isSome = true)
    ∧ (∃ (s : State) (i : Fin 128) (idser : BitVec 64) (tn : BitVec 12),
    s.quiet ∧
    s.wf ∧
    let x := ident i.val s
    identOfSerial idser.toNat = some i.val ∧
    tn ≠ 0xFFF ∧
    x.phase = .announcing ∧
    identOfTn tn.toNat s = none)
    ∧ (∃ (s : State) (m : LmmHead) (eqd : BitVec 26),
    s.quiet ∧
    s.wf ∧
    concerned m s ≠ [] ∧
    53094400 < eqd.toNat)
    ∧ (∃ (s : State) (m : LmmHead) (i : Fin 128) (eqd : BitVec 26),
    s.quiet ∧
    s.wf ∧
    let x := ident i.val s
    let fresh := fun (type : Nat) => concerned m s = [i.val] ∧ (m.tn = 0xFFF ∨ x.lastMsg ≠ some (type, m.seq.toNat))
    fresh 2 ∧
    eqd.toNat ≤ 53094400)
    ∧ (∃ (s : State) (m : LmmHead) (i : Fin 128),
    s.quiet ∧
    s.wf ∧
    let x := ident i.val s
    let fresh := fun (type : Nat) => concerned m s = [i.val] ∧ (m.tn = 0xFFF ∨ x.lastMsg ≠ some (type, m.seq.toNat))
    fresh 11 ∧
    x.phase = .held ∧
    x.cause ≠ .head)
    ∧ (∃ (s : State) (m : LmmHead) (i : Fin 128),
    s.quiet ∧
    s.wf ∧
    let x := ident i.val s
    let fresh := fun (type : Nat) => concerned m s = [i.val] ∧ (m.tn = 0xFFF ∨ x.lastMsg ≠ some (type, m.seq.toNat))
    fresh 11 ∧
    (x.phase ≠ .held ∨ x.cause = .head))
    ∧ (∃ (s : State) (i : Fin 128),
    s.quiet ∧
    s.wf ∧
    let x := ident i.val s
    (x.phase ≠ .ranging ∨ x.timer = none))
    ∧ (∃ (s : State) (i : Fin 128),
    s.quiet ∧
    s.wf ∧
    let x := ident i.val s
    x.phase = .ranging ∧
    x.timer.isSome = true)
    ∧ (∃ (s : State) (i : Fin 128),
    s.quiet ∧
    s.wf ∧
    let x := ident i.val s
    (x.phase ≠ .held ∨ x.cause = .head ∨ x.timer = none))
    ∧ (∃ (s : State) (i : Fin 128),
    s.quiet ∧
    s.wf ∧
    let x := ident i.val s
    x.phase = .held ∧
    x.cause ≠ .head ∧
    x.timer.isSome = true) :=
  ⟨⟨running, (serialOther), by
    dsimp only [State.quiet, State.wf]
    simp only [identOfSerial_0, identOfSerial_127, identOfSerial_other]
    decide +kernel⟩,
   ⟨running, 127, (serial 127), 0, by
    dsimp only [State.quiet, State.wf]
    simp only [identOfSerial_0, identOfSerial_127, identOfSerial_other]
    decide +kernel⟩,
   ⟨(running |> msid (fun x => { x with phase := .announcing }) |> stServing1), 0, (serial 0), 6, by
    dsimp only [State.quiet, State.wf]
    simp only [identOfSerial_0, identOfSerial_127, identOfSerial_other]
    decide +kernel⟩,
   ⟨(running |> stAnnouncing), 0, (serial 0), 0xFFE, by
    dsimp only [State.quiet, State.wf]
    simp only [identOfSerial_0, identOfSerial_127, identOfSerial_other]
    decide +kernel⟩,
   ⟨(running |> stServing), (lmm 5), 53094401, by
    try dsimp only [State.quiet, State.wf]
    decide +kernel⟩,
   ⟨(running |> stServing), (lmm 5), 0, 53094400, by
    try dsimp only [State.quiet, State.wf]
    decide +kernel⟩,
   ⟨(running |> stHeldLine), (lmm 5), 0, by
    try dsimp only [State.quiet, State.wf]
    decide +kernel⟩,
   ⟨(running |> stHeldHead), (lmm 5), 0, by
    try dsimp only [State.quiet, State.wf]
    decide +kernel⟩,
   ⟨running, 126, by
    try dsimp only [State.quiet, State.wf]
    decide +kernel⟩,
   ⟨(running |> stRanging), 0, by
    try dsimp only [State.quiet, State.wf]
    decide +kernel⟩,
   ⟨running, 126, by
    try dsimp only [State.quiet, State.wf]
    decide +kernel⟩,
   ⟨(running |> stHeldLine), 0, by
    try dsimp only [State.quiet, State.wf]
    decide +kernel⟩⟩

theorem witness_HeadEndEndsAndHolds :
    (∃ (s : State) (m : LmmHead) (i : Fin 128),
    s.quiet ∧
    s.wf ∧
    let x := ident i.val s
    let fresh := fun (type : Nat) => concerned m s = [i.val] ∧ (m.tn = 0xFFF ∨ x.lastMsg ≠ some (type, m.seq.toNat))
    fresh 4)
    ∧ (∃ (s : State) (idser : BitVec 64),
    s.quiet ∧
    s.wf ∧
    identOfSerial idser.toNat = none)
    ∧ (∃ (s : State) (i : Fin 128) (idser : BitVec 64),
    s.quiet ∧
    s.wf ∧
    let x := ident i.val s
    identOfSerial idser.toNat = some i.val ∧
    x.phase = .expelled)
    ∧ (∃ (s : State) (i : Fin 128) (idser : BitVec 64),
    s.quiet ∧
    s.wf ∧
    let x := ident i.val s
    identOfSerial idser.toNat = some i.val ∧
    x.phase = .parked)
    ∧ (∃ (s : State) (i : Fin 128) (idser : BitVec 64),
    s.quiet ∧
    s.wf ∧
    let x := ident i.val s
    identOfSerial idser.toNat = some i.val ∧
    x.phase ≠ .expelled ∧
    x.phase ≠ .parked)
    ∧ (∃ (s : State) (i : Fin 128),
    s.quiet ∧
    s.wf ∧
    let x := ident i.val s
    judge (Reg.JOIN_ID_CFG i.val) s = .perform ∧
    x.phase ≠ .expelled)
    ∧ (∃ (s : State) (i : Fin 128),
    s.quiet ∧
    s.wf ∧
    let x := ident i.val s
    judge (Reg.JOIN_ID_CFG i.val) s = .perform ∧
    x.phase = .expelled)
    ∧ (∃ (s : State) (m : LmmHead) (i : Fin 128),
    s.quiet ∧
    s.wf ∧
    let x := ident i.val s
    let fresh := fun (type : Nat) => concerned m s = [i.val] ∧ (m.tn = 0xFFF ∨ x.lastMsg ≠ some (type, m.seq.toNat))
    fresh 6 ∧
    x.phase = .serving)
    ∧ (∃ (s : State) (m : LmmHead) (i : Fin 128),
    s.quiet ∧
    s.wf ∧
    let x := ident i.val s
    let fresh := fun (type : Nat) => concerned m s = [i.val] ∧ (m.tn = 0xFFF ∨ x.lastMsg ≠ some (type, m.seq.toNat))
    fresh 6 ∧
    x.phase = .held ∧
    x.cause = .head)
    ∧ (∃ (s : State) (m : LmmHead) (i : Fin 128),
    s.quiet ∧
    s.wf ∧
    let x := ident i.val s
    let fresh := fun (type : Nat) => concerned m s = [i.val] ∧ (m.tn = 0xFFF ∨ x.lastMsg ≠ some (type, m.seq.toNat))
    fresh 6 ∧
    x.phase ≠ .serving)
    ∧ (∃ (s : State) (m : LmmHead) (i : Fin 128),
    s.quiet ∧
    s.wf ∧
    let x := ident i.val s
    let fresh := fun (type : Nat) => concerned m s = [i.val] ∧ (m.tn = 0xFFF ∨ x.lastMsg ≠ some (type, m.seq.toNat))
    fresh 6 ∧
    (x.phase ≠ .held ∨ x.cause ≠ .head)) :=
  ⟨⟨(running |> stRanging), { seam := 3, fc := 0x7f512e587cc0#48, tn := 0x005#12, seq := 0x40#8, ackReq := true }, 0, by
    try dsimp only [State.quiet, State.wf]
    decide +kernel⟩,
   ⟨running, serialOther, by
    dsimp only [State.quiet, State.wf]
    simp only [identOfSerial_0, identOfSerial_127, identOfSerial_other]
    decide +kernel⟩,
   ⟨(running |> stExpelled), 0, (serial 0), by
    dsimp only [State.quiet, State.wf]
    simp only [identOfSerial_0, identOfSerial_127, identOfSerial_other]
    decide +kernel⟩,
   ⟨(running |> stParked), 0, (serial 0), by
    dsimp only [State.quiet, State.wf]
    simp only [identOfSerial_0, identOfSerial_127, identOfSerial_other]
    decide +kernel⟩,
   ⟨running, 127, (serial 127), by
    dsimp only [State.quiet, State.wf]
    simp only [identOfSerial_0, identOfSerial_127, identOfSerial_other]
    decide +kernel⟩,
   ⟨running, 126, by
    try dsimp only [State.quiet, State.wf]
    decide +kernel⟩,
   ⟨(running |> stExpelled), 0, by
    try dsimp only [State.quiet, State.wf]
    decide +kernel⟩,
   ⟨(running |> stServing), { seam := 0, fc := 0x000008000000#48, tn := 0xfff#12, seq := 0x20#8, ackReq := true }, 0, by
    try dsimp only [State.quiet, State.wf]
    decide +kernel⟩,
   ⟨(running |> stHeldHead), { seam := 0, fc := 0x000000000080#48, tn := 0x005#12, seq := 0xff#8, ackReq := false }, 0, by
    try dsimp only [State.quiet, State.wf]
    decide +kernel⟩,
   ⟨(running |> stRanging), { seam := 3, fc := 0x7f512e587cc0#48, tn := 0x005#12, seq := 0x40#8, ackReq := true }, 0, by
    try dsimp only [State.quiet, State.wf]
    decide +kernel⟩,
   ⟨(running |> stRanging), { seam := 3, fc := 0x7f512e587cc0#48, tn := 0x005#12, seq := 0x40#8, ackReq := true }, 0, by
    try dsimp only [State.quiet, State.wf]
    decide +kernel⟩⟩

theorem witness_BurstsLeaveAndBondGapsAreVoided :
    (∃ (s : State) (n : Fin 4),
    s.quiet ∧
    s.wf ∧
    nextBurst n.val (fun bZ => !bZ.ranging) s = none)
    ∧ (∃ (s : State) (n : Fin 4) (i : Fin 128) (b : Burst),
    s.quiet ∧
    s.wf ∧
    let x := ident i.val s
    nextBurst n.val (fun bZ => !bZ.ranging) s = some b ∧
    b.ident = some i.val ∧
    x.phase ≠ .serving)
    ∧ (∃ (s : State) (n : Fin 4) (i : Fin 128) (b : Burst),
    s.quiet ∧
    s.wf ∧
    let x := ident i.val s
    nextBurst n.val (fun bZ => !bZ.ranging) s = some b ∧
    b.ident = some i.val ∧
    x.phase = .serving ∧
    lineTxDead b.side n.val s = true)
    ∧ (∃ (s : State) (n : Fin 4) (i : Fin 128) (b : Burst),
    s.quiet ∧
    s.wf ∧
    let x := ident i.val s
    nextBurst n.val (fun bZ => !bZ.ranging) s = some b ∧
    b.ident = some i.val ∧
    x.phase = .serving ∧
    lineTxDead b.side n.val s = false)
    ∧ (∃ (s : State) (n : Fin 4),
    s.quiet ∧
    s.wf ∧
    nextBurst n.val (fun bZ => bZ.ranging && bZ.ident.isNone) s = none)
    ∧ (∃ (s : State) (n : Fin 4) (b : Burst),
    s.quiet ∧
    s.wf ∧
    nextBurst n.val (fun bZ => bZ.ranging && bZ.ident.isNone) s = some b ∧
    lineTxDead b.side n.val s = true)
    ∧ (∃ (s : State) (n : Fin 4) (i : Fin 128) (b : Burst),
    s.quiet ∧
    s.wf ∧
    let x := ident i.val s
    nextBurst n.val (fun bZ => bZ.ranging && bZ.ident.isNone) s = some b ∧
    lineTxDead b.side n.val s = false ∧
    x.phase = .announcing ∧
    x.backoff = 0 ∧
    loadShed s = false)
    ∧ (∃ (s : State) (n : Fin 4),
    s.quiet ∧
    s.wf ∧
    nextBurst n.val (fun bZ => bZ.ranging && bZ.ident.isSome) s = none)
    ∧ (∃ (s : State) (n : Fin 4) (i : Fin 128) (b : Burst),
    s.quiet ∧
    s.wf ∧
    nextBurst n.val (fun bZ => bZ.ranging && bZ.ident.isSome) s = some b ∧
    b.ident = some i.val ∧
    lineTxDead b.side n.val s = true)
    ∧ (∃ (s : State) (n : Fin 4) (i : Fin 128) (b : Burst),
    s.quiet ∧
    s.wf ∧
    let x := ident i.val s
    nextBurst n.val (fun bZ => bZ.ranging && bZ.ident.isSome) s = some b ∧
    b.ident = some i.val ∧
    lineTxDead b.side n.val s = false ∧
    x.phase = .listening)
    ∧ (∃ (s : State) (n : Fin 4) (i : Fin 128) (b : Burst),
    s.quiet ∧
    s.wf ∧
    let x := ident i.val s
    nextBurst n.val (fun bZ => bZ.ranging && bZ.ident.isSome) s = some b ∧
    b.ident = some i.val ∧
    lineTxDead b.side n.val s = false ∧
    (x.phase = .ranging ∨ x.phase = .serving) ∧
    loadShed s = false)
    ∧ (∃ (s : State) (i : Fin 128),
    s.quiet ∧
    s.wf ∧
    mayDoze i.val s = false)
    ∧ (∃ (s : State) (i : Fin 128) (st : BitVec 3),
    s.quiet ∧
    s.wf ∧
    mayDoze i.val s = true ∧
    1 ≤ st.toNat ∧
    st.toNat ≤ rfld (Reg.JOIN_ID_CFG i.val) 10 8 s ∧
    rfld (Reg.JOIN_ID_CFG i.val) 10 8 s ≤ 3)
    ∧ (∃ (s : State) (i : Fin 128),
    s.quiet ∧
    s.wf ∧
    dozeOf i.val s = none)
    ∧ (∃ (s : State) (i : Fin 128),
    s.quiet ∧
    s.wf ∧
    (dozeOf i.val s).isSome = true)
    ∧ (∃ (s : State),
    s.quiet ∧
    s.wf ∧
    (shallowestDoze s < 2 ∨ lineDue s = false))
    ∧ (∃ (s : State),
    s.quiet ∧
    s.wf ∧
    2 ≤ shallowestDoze s ∧
    lineDue s = true ∧
    rbit Reg.PWR_WAKE_CFG 4 s = true ∧
    (s.pwr.ladder = 2 ∨ s.pwr.ladder = 3) ∧
    s.pwr.firedamp = false)
    ∧ (∃ (s : State) (i : Fin 128),
    s.quiet ∧
    s.wf ∧
    let x := ident i.val s
    (x.expected = none ∨ x.gapSince = none))
    ∧ (∃ s : State, ∃ i : Fin 128, ∃ e, ∃ f,
    s.quiet ∧
    s.wf ∧
    let x := ident i.val s
    x.expected = some e ∧
    x.gapSince.isSome = true ∧
    x.frags = [f] ∧
    f.bseq ≠ e ∧
    f.first = true ∧
    f.last = false)
    ∧ (∃ s : State, ∃ i : Fin 128, ∃ e, ∃ f,
    s.quiet ∧
    s.wf ∧
    let x := ident i.val s
    x.expected = some e ∧
    x.gapSince.isSome = true ∧
    x.frags = [f] ∧
    f.bseq ≠ e ∧
    f.first = false ∧
    f.tubs = []) :=
  ⟨⟨running, 2, by
    try dsimp only [State.quiet, State.wf]
    decide +kernel⟩,
   ⟨(running |> withBursts [aBurst (some 0) false]), 0, 0, (aBurst (some 0) false), by
    try dsimp only [State.quiet, State.wf]
    decide +kernel⟩,
   ⟨(running |> withBursts [aBurst (some 0) false] |> stServing |> stLandShortLine), 0, 0, (aBurst (some 0) false), by
    try dsimp only [State.quiet, State.wf]
    decide +kernel⟩,
   ⟨(running |> withBursts [aBurst (some 0) false] |> stServing), 0, 0, (aBurst (some 0) false), by
    try dsimp only [State.quiet, State.wf]
    decide +kernel⟩,
   ⟨running, 2, by
    try dsimp only [State.quiet, State.wf]
    decide +kernel⟩,
   ⟨(running |> withBursts [aBurst none true] |> stLandShortLine), 0, (aBurst none true), by
    try dsimp only [State.quiet, State.wf]
    decide +kernel⟩,
   ⟨(running |> withBursts [aBurst none true] |> stAnnouncing), 0, 0, (aBurst none true), by
    try dsimp only [State.quiet, State.wf]
    decide +kernel⟩,
   ⟨running, 2, by
    try dsimp only [State.quiet, State.wf]
    decide +kernel⟩,
   ⟨(running |> withBursts [aBurst (some 0) true] |> stLandShortLine), 0, 0, (aBurst (some 0) true), by
    try dsimp only [State.quiet, State.wf]
    decide +kernel⟩,
   ⟨(running |> withBursts [aBurst (some 0) true]), 0, 0, (aBurst (some 0) true), by
    try dsimp only [State.quiet, State.wf]
    decide +kernel⟩,
   ⟨(running |> withBursts [aBurst (some 0) true] |> stRanging), 0, 0, (aBurst (some 0) true), by
    try dsimp only [State.quiet, State.wf]
    decide +kernel⟩,
   ⟨running, 126, by
    try dsimp only [State.quiet, State.wf]
    decide +kernel⟩,
   ⟨(running |> stServing |> setReg (Reg.JOIN_ID_CFG 0) 0x303), 0, 3, by
    try dsimp only [State.quiet, State.wf]
    decide +kernel⟩,
   ⟨running, 126, by
    try dsimp only [State.quiet, State.wf]
    decide +kernel⟩,
   ⟨(running |> stDoze), 0, by
    try dsimp only [State.quiet, State.wf]
    decide +kernel⟩,
   ⟨running, by
    try dsimp only [State.quiet, State.wf]
    decide +kernel⟩,
   ⟨(let s := running |> dozing0 2; setReg Reg.PWR_WAKE_CFG 0x10 { s with pwr := { s.pwr with ladder := 2 } }), by
    try dsimp only [State.quiet, State.wf]
    decide +kernel⟩,
   ⟨running, 126, by
    try dsimp only [State.quiet, State.wf]
    decide +kernel⟩,
   ⟨(running |> gap0 true), 0, 1, (frag0 true), by
    try dsimp only [State.quiet, State.wf]
    decide +kernel⟩,
   ⟨(running |> gap0 false), 0, 1, (frag0 false), by
    try dsimp only [State.quiet, State.wf]
    decide +kernel⟩⟩

theorem witness_CircuitsTakeEnablesAndPackets :
    (∃ (s : State) (c : Fin 1024),
    s.quiet ∧
    s.wf ∧
    let x := circuit c.val s
    (x.next = none ∨ x.active = true))
    ∧ (∃ s : State, ∃ c : Fin 1024, ∃ f,
    s.quiet ∧
    s.wf ∧
    let x := circuit c.val s
    x.next = some f ∧
    x.active = false ∧
    circRefusal (circOf f) s ≠ 0)
    ∧ (∃ s : State, ∃ c : Fin 1024, ∃ f,
    s.quiet ∧
    s.wf ∧
    let x := circuit c.val s
    x.next = some f ∧
    x.active = false ∧
    circRefusal (circOf f) s = 0)
    ∧ (∃ (s : State) (c : Fin 1024),
    s.quiet ∧
    s.wf ∧
    let x := circuit c.val s
    let en := rbit (Reg.CIRC_CFG c.val) 31 s
    (en = true ∧ x.next = none ∨ en = true ∧ x.active = false ∨ x.active = false ∧ x.next = none))
    ∧ (∃ (s : State) (c : Fin 1024),
    s.quiet ∧
    s.wf ∧
    let x := circuit c.val s
    let en := rbit (Reg.CIRC_CFG c.val) 31 s
    en = false ∧
    x.active = false ∧
    x.next.isSome = true)
    ∧ (∃ (s : State) (c : Fin 1024),
    s.quiet ∧
    s.wf ∧
    let x := circuit c.val s
    let en := rbit (Reg.CIRC_CFG c.val) 31 s
    x.active = true ∧
    (en = false ∨ x.next.isSome = true))
    ∧ (∃ (s : State),
    s.quiet ∧
    s.wf ∧
    loadShed s = true)
    ∧ (∃ (s : State) (c : Fin 1024) (body : Bytes),
    s.quiet ∧
    s.wf ∧
    let x := circuit c.val s
    x.active = true ∧
    loadShed s = false ∧
    let b := circCut body
    (b.length < 4 ∨ beAt b 1 1 / 64 ≠ 0 ∨ (b.length ≠ 4 + x.pktBytes ∧ b.length ≠ 4)))
    ∧ (∃ (s : State) (c : Fin 1024) (body : Bytes),
    s.quiet ∧
    s.wf ∧
    let x := circuit c.val s
    x.active = true ∧
    loadShed s = false ∧
    let b := circCut body
    b.length = 4 + x.pktBytes ∧
    beAt b 1 1 / 64 = 0 ∧
    beAt b 0 1 / 8 % 2 = 0 ∧
    x.anchor = none ∧
    tget (fun _Z => []) x.packets x.play = [] ∧
    x.pktBytes ≤ 2 * x.d * x.n)
    ∧ (∃ s : State, ∃ c : Fin 1024, ∃ body : Bytes, ∃ rest,
    s.quiet ∧
    s.wf ∧
    s.cls.circIn = (c.val, body) :: rest) :=
  ⟨⟨running, 638, by
    try dsimp only [State.quiet, State.wf]
    decide +kernel⟩,
   ⟨(running |> armed { sample0 with d := 3 }), 0, { sample0 with d := 3 }, by
    try dsimp only [State.quiet, State.wf]
    decide +kernel⟩,
   ⟨(running |> setReg Reg.CIRC_CTRL 1567676 |> armed sample0), 0, sample0, by
    try dsimp only [State.quiet, State.wf]
    decide +kernel⟩,
   ⟨running, 638, by
    try dsimp only [State.quiet, State.wf]
    decide +kernel⟩,
   ⟨(running |> stCircArmed), 0, by
    try dsimp only [State.quiet, State.wf]
    decide +kernel⟩,
   ⟨(running |> stCircOn), 0, by
    try dsimp only [State.quiet, State.wf]
    decide +kernel⟩,
   ⟨(running |> stDip), by
    try dsimp only [State.quiet, State.wf]
    decide +kernel⟩,
   ⟨(running |> stCircOn), 0, [0x01#8], by
    try dsimp only [State.quiet, State.wf]
    decide +kernel⟩,
   ⟨(running |> stCircOn), 0, (circPkt 8 1), by
    try dsimp only [State.quiet, State.wf]
    decide +kernel⟩,
   ⟨(running |> stCircIn), 0, (circPkt 8 1), [], by
    try dsimp only [State.quiet, State.wf]
    decide +kernel⟩⟩

theorem witness_RulesAndVlansAreWrittenAndRead :
    (∃ (s : State) (n : Fin 4),
    s.quiet ∧
    s.wf ∧
    let action := reg (Reg.CLS_RULE_DATA n.val 40) s
    judge (Reg.CLS_RULE_CMD n.val) s = .perform ∧
    actionRefused action = true)
    ∧ (∃ (s : State) (n : Fin 4),
    s.quiet ∧
    s.wf ∧
    let action := reg (Reg.CLS_RULE_DATA n.val 40) s
    judge (Reg.CLS_RULE_CMD n.val) s = .perform ∧
    actionRefused action = false)
    ∧ (∃ (s : State) (v : Word),
    s.quiet ∧
    s.wf ∧
    let vid := fld v 11 0
    judge Reg.CLS_VLAN_CMD s = .perform ∧
    (vid = 0 ∨ vid = 4095))
    ∧ (∃ (s : State) (v : Word),
    s.quiet ∧
    s.wf ∧
    let vid := fld v 11 0
    judge Reg.CLS_VLAN_CMD s = .perform ∧
    vid ≠ 0 ∧
    vid ≠ 4095) :=
  ⟨⟨(running |> stRuleData), 0, by
    try dsimp only [State.quiet, State.wf]
    decide +kernel⟩,
   ⟨running, 2, by
    try dsimp only [State.quiet, State.wf]
    decide +kernel⟩,
   ⟨running, 0x00500000#32, by
    try dsimp only [State.quiet, State.wf]
    decide +kernel⟩,
   ⟨running, 0x01280040#32, by
    try dsimp only [State.quiet, State.wf]
    decide +kernel⟩⟩

theorem witness_ForwardingDatabaseCommands :
    (∃ (s : State) (static : Bool),
    s.quiet ∧
    s.wf ∧
    let x := fdbEntryOf (fdbData s) static true
    let vid := x.vid.toNat
    judge Reg.CLS_FDB_CMD s = .perform ∧
    (0x27F < x.dest.toNat ∨ vidRefused vid = true))
    ∧ (∃ (s : State) (static : Bool),
    s.quiet ∧
    s.wf ∧
    let x := fdbEntryOf (fdbData s) static true
    let vid := x.vid.toNat
    let mac := x.mac.toNat
    judge Reg.CLS_FDB_CMD s = .perform ∧
    x.dest.toNat ≤ 0x27F ∧
    vidRefused vid = false ∧
    ((fdbFind vid mac s).isSome = true ∨ (fdbFree vid mac s).isSome = true))
    ∧ (∃ (s : State) (static : Bool),
    s.quiet ∧
    s.wf ∧
    let x := fdbEntryOf (fdbData s) static true
    let vid := x.vid.toNat
    let mac := x.mac.toNat
    judge Reg.CLS_FDB_CMD s = .perform ∧
    x.dest.toNat ≤ 0x27F ∧
    vidRefused vid = false ∧
    fdbFind vid mac s = none ∧
    fdbFree vid mac s = none)
    ∧ (∃ (s : State) (static : Bool),
    s.quiet ∧
    s.wf ∧
    let x := fdbEntryOf (fdbData s) static true
    let vid := x.vid.toNat
    judge Reg.CLS_FDB_CMD s = .perform ∧
    vidRefused vid = true)
    ∧ (∃ s : State, ∃ static : Bool, ∃ k, ∃ y,
    s.quiet ∧
    s.wf ∧
    let x := fdbEntryOf (fdbData s) static true
    let vid := x.vid.toNat
    let mac := x.mac.toNat
    judge Reg.CLS_FDB_CMD s = .perform ∧
    vidRefused vid = false ∧
    fdbFind vid mac s = some (k, y))
    ∧ (∃ (s : State),
    s.quiet ∧
    s.wf ∧
    let d := beAt (fdbData s) 8 2 % 1024
    judge Reg.CLS_FDB_CMD s = .perform ∧
    0x27F < d)
    ∧ (∃ (s : State),
    s.quiet ∧
    s.wf ∧
    let d := beAt (fdbData s) 8 2 % 1024
    judge Reg.CLS_FDB_CMD s = .perform ∧
    d ≤ 0x27F)
    ∧ (∃ (s : State),
    s.quiet ∧
    s.wf ∧
    rfld Reg.CLS_FDB_AGE 15 0 s = 0)
    ∧ (∃ (s : State),
    s.quiet ∧
    s.wf ∧
    rfld Reg.CLS_FDB_AGE 15 0 s ≠ 0) :=
  ⟨⟨running, false, by
    try dsimp only [State.quiet, State.wf]
    decide +kernel⟩,
   ⟨(running |> stFdbD1), true, by
    try dsimp only [State.quiet, State.wf]
    decide +kernel⟩,
   ⟨(running |> fdbFull), true, by
    try dsimp only [State.quiet, State.wf]
    decide +kernel⟩,
   ⟨running, false, by
    try dsimp only [State.quiet, State.wf]
    decide +kernel⟩,
   ⟨(running |> fdbData0 |> setWay (4 * fdbSet 5 0x020000000001) (some fdbEntry0)), false, (4 * fdbSet 5 0x020000000001), fdbEntry0, by
    try dsimp only [State.quiet, State.wf]
    decide +kernel⟩,
   ⟨(running |> stFdbD2b), by
    try dsimp only [State.quiet, State.wf]
    decide +kernel⟩,
   ⟨running, by
    try dsimp only [State.quiet, State.wf]
    decide +kernel⟩,
   ⟨(running |> stFdbAge0), by
    try dsimp only [State.quiet, State.wf]
    decide +kernel⟩,
   ⟨running, by
    try dsimp only [State.quiet, State.wf]
    decide +kernel⟩⟩

theorem witness_FramesAreClassifiedAndExcepted :
    (∃ (s : State) (n : Fin 4),
    s.quiet ∧
    s.wf ∧
    (inDip s = true ∨ domState n.val s ≠ .on ∨ ingressOf n.val s = []))
    ∧ (∃ (s : State) (n : Fin 4) (f : InFrame) (rest : List InFrame),
    s.quiet ∧
    s.wf ∧
    inDip s = false ∧
    domState n.val s = .on ∧
    ingressOf n.val s = f :: rest ∧
    f.line = true ∧
    f.bad = false ∧
    let p := parse (parseCfg false s) f.bytes
    p.malformed = true)
    ∧ (∃ (s : State) (n : Fin 4) (f : InFrame) (rest : List InFrame),
    s.quiet ∧
    s.wf ∧
    inDip s = false ∧
    domState n.val s = .on ∧
    ingressOf n.val s = f :: rest ∧
    f.line = true ∧
    f.bad = false ∧
    let p := parse (parseCfg false s) f.bytes
    p.malformed = false ∧
    p.deep = false ∧
    p.tally = false ∧
    winLen true f.src s = 0 ∧
    findRule n.val (ruleKey f.bytes p true f.src 0) s = none)
    ∧ (∃ s : State, ∃ n : Fin 4, ∃ f : InFrame, ∃ rest : List InFrame, ∃ r, ∃ x,
    s.quiet ∧
    s.wf ∧
    inDip s = false ∧
    domState n.val s = .on ∧
    ingressOf n.val s = f :: rest ∧
    f.line = true ∧
    f.bad = false ∧
    let p := parse (parseCfg false s) f.bytes
    p.malformed = false ∧
    p.deep = false ∧
    p.tally = false ∧
    winLen true f.src s = 0 ∧
    findRule n.val (ruleKey f.bytes p true f.src 0) s = some (r, x) ∧
    fld x.action 17 16 = 2)
    ∧ (∃ s : State, ∃ n : Fin 4, ∃ f : InFrame, ∃ rest : List InFrame, ∃ r, ∃ x,
    s.quiet ∧
    s.wf ∧
    inDip s = false ∧
    domState n.val s = .on ∧
    ingressOf n.val s = f :: rest ∧
    f.line = true ∧
    f.bad = false ∧
    let p := parse (parseCfg false s) f.bytes
    p.malformed = false ∧
    p.deep = false ∧
    p.tally = false ∧
    winLen true f.src s = 0 ∧
    findRule n.val (ruleKey f.bytes p true f.src 0) s = some (r, x) ∧
    fld x.action 17 16 = 0)
    ∧ (∃ (s : State),
    s.quiet ∧
    s.wf ∧
    let u := settleExceptions s
    u.cls.excRing = [])
    ∧ (∃ s : State, ∃ x, ∃ rest,
    s.quiet ∧
    s.wf ∧
    let u := settleExceptions s
    u.cls.excRing = x :: rest ∧
    let fwd := bitOf (reg Reg.CLS_EXC_CTRL s) (27 + (x.bytes.headD 1).toNat) && s.chain.reachable
    fwd = false)
    ∧ (∃ s : State, ∃ x, ∃ rest,
    s.quiet ∧
    s.wf ∧
    let u := settleExceptions s
    u.cls.excRing = x :: rest ∧
    let fwd := bitOf (reg Reg.CLS_EXC_CTRL s) (27 + (x.bytes.headD 1).toNat) && s.chain.reachable
    fwd = true) :=
  ⟨⟨running, 2, by
    try dsimp only [State.quiet, State.wf]
    decide +kernel⟩,
   ⟨(running |> ingress0 (frame64.take 10)), 0, (inf (frame64.take 10) true), [], by
    try dsimp only [State.quiet, State.wf]
    decide +kernel⟩,
   ⟨(running |> ingress0 payloadFrame), 0, (inf payloadFrame true), [], by
    try dsimp only [State.quiet, State.wf]
    decide +kernel⟩,
   ⟨(running |> withRule 0x80020000 |> ingress0 payloadFrame), 0, (inf payloadFrame true), [], 0, (rule0 0x80020000), by
    try dsimp only [State.quiet, State.wf]
    decide +kernel⟩,
   ⟨(running |> withRule 0x80000000 |> ingress0 payloadFrame), 0, (inf payloadFrame true), [], 0, (rule0 0x80000000), by
    try dsimp only [State.quiet, State.wf]
    decide +kernel⟩,
   ⟨running, by
    try dsimp only [State.quiet, State.wf]
    decide +kernel⟩,
   ⟨(running |> ringState), oneOffer, [], by
    try dsimp only [State.quiet, State.wf]
    decide +kernel⟩,
   ⟨(let s := running |> ringState |> setReg Reg.CLS_EXC_CTRL 0xF8000000; { s with chain := { s.chain with reachable := true } }), oneOffer, [], by
    try dsimp only [State.quiet, State.wf]
    decide +kernel⟩⟩

theorem witness_ConsignmentsAreJudgedAndJournalled :
    (∃ (s : State),
    s.quiet ∧
    s.wf ∧
    s.tally.scanning = true)
    ∧ (∃ (s : State) (b : Bytes),
    s.quiet ∧
    s.wf ∧
    let p := udpPayload b s
    s.tally.scanning = false ∧
    p.length < 24)
    ∧ (∃ (s : State) (b : Bytes),
    s.quiet ∧
    s.wf ∧
    let p := udpPayload b s
    s.tally.scanning = false ∧
    24 ≤ p.length ∧
    tallyCrcOk p = false)
    ∧ (∃ s : State, ∃ port : Fin 512, ∃ b : Bytes, ∃ m,
    s.quiet ∧
    s.wf ∧
    let p := udpPayload b s
    let dest := (port.val, replyHeader b s)
    receiveTally false port.val 1 (.port dest) p s = (some m, s) ∧
    refusesDip s = true)
    ∧ (∃ s : State, ∃ port : Fin 512, ∃ b : Bytes, ∃ m,
    s.quiet ∧
    s.wf ∧
    let p := udpPayload b s
    let dest := (port.val, replyHeader b s)
    receiveTally false port.val 1 (.port dest) p s = (some m, s) ∧
    let next := nextSseq m.flow s
    refusesDip s = false ∧
    s.supply.resumedCycle ≠ some s.cycle ∧
    next.all (fun nZ => !serialBelow 32 m.sseq nZ) = true ∧
    flowOpen m.flow s = false)
    ∧ (∃ s : State, ∃ port : Fin 512, ∃ b : Bytes, ∃ m,
    s.quiet ∧
    s.wf ∧
    let p := udpPayload b s
    let dest := (port.val, replyHeader b s)
    receiveTally false port.val 1 (.port dest) p s = (some m, s) ∧
    let next := nextSseq m.flow s
    refusesDip s = false ∧
    s.supply.resumedCycle ≠ some s.cycle ∧
    next.all (fun nZ => !serialBelow 32 m.sseq nZ) = true ∧
    flowOpen m.flow s = true ∧
    (∃ n, next = some n ∧ n ≠ m.sseq))
    ∧ (∃ s : State, ∃ port : Fin 512, ∃ b : Bytes, ∃ m,
    s.quiet ∧
    s.wf ∧
    let p := udpPayload b s
    let dest := (port.val, replyHeader b s)
    receiveTally false port.val 1 (.port dest) p s = (some m, s) ∧
    let next := nextSseq m.flow s
    refusesDip s = false ∧
    s.supply.resumedCycle ≠ some s.cycle ∧
    next.all (fun nZ => !serialBelow 32 m.sseq nZ) = true ∧
    flowOpen m.flow s = true ∧
    (next = none ∨ next = some m.sseq) ∧
    journalSteps m.len s ≠ (0, 0))
    ∧ (∃ s : State, ∃ port : Fin 512, ∃ b : Bytes, ∃ m,
    s.quiet ∧
    s.wf ∧
    let p := udpPayload b s
    let dest := (port.val, replyHeader b s)
    receiveTally false port.val 1 (.port dest) p s = (some m, s) ∧
    let next := nextSseq m.flow s
    refusesDip s = false ∧
    s.supply.resumedCycle ≠ some s.cycle ∧
    next.all (fun nZ => !serialBelow 32 m.sseq nZ) = true ∧
    flowOpen m.flow s = true ∧
    (next = none ∨ next = some m.sseq) ∧
    journalSteps m.len s = (0, 0))
    ∧ (∃ (s : State),
    s.quiet ∧
    s.wf ∧
    s.cls.tallyIn = [])
    ∧ (∃ (s : State) (j : Fin 8192),
    s.quiet ∧
    s.wf ∧
    let c := slotAt j.val s
    c.st ≠ .pending)
    ∧ (∃ (s : State) (j : Fin 8192),
    s.quiet ∧
    s.wf ∧
    let c := slotAt j.val s
    c.st = .pending ∧
    flowSlots c.flow (· == .pending) s = [(j.val, c)])
    ∧ (∃ (s : State) (j : Fin 8192) (dies : BitVec 2),
    s.quiet ∧
    s.wf ∧
    splitDies j.val dies s = [])
    ∧ (∃ (s : State) (j : Fin 8192) (dies : BitVec 2),
    s.quiet ∧
    s.wf ∧
    splitDies j.val dies s ≠ [] ∧
    let v := settleFaults (splitFaults j.val dies s)
    splitDies j.val dies v = [])
    ∧ (∃ (s : State) (j : Fin 8192) (dies : BitVec 2),
    s.quiet ∧
    s.wf ∧
    let c := slotAt j.val s
    splitDies j.val dies s ≠ [] ∧
    let v := settleFaults (splitFaults j.val dies s)
    splitDies j.val dies v ≠ [] ∧
    flowSlots c.flow (· == .pending) s = [(j.val, c)]) :=
  ⟨⟨(running |> stScanning), by
    try dsimp only [State.quiet, State.wf]
    decide +kernel⟩,
   ⟨running, [0x1c#8, 0x03#8, 0xff#8, 0x08#8], by
    try dsimp only [State.quiet, State.wf]
    decide +kernel⟩,
   ⟨running, (submit0.set 50 0xAA), by
    try dsimp only [State.quiet, State.wf]
    decide +kernel⟩,
   ⟨(running |> stDip), 0, submit0, submitMsg, by
    try dsimp only [State.quiet, State.wf]
    decide +kernel⟩,
   ⟨running, 0, submit0, submitMsg, by
    try dsimp only [State.quiet, State.wf]
    decide +kernel⟩,
   ⟨(running |> heldSlot false), 0, submit0, submitMsg, by
    try dsimp only [State.quiet, State.wf]
    decide +kernel⟩,
   ⟨(running |> flow0 0x80000000), 0, submit0, submitMsg, by
    try dsimp only [State.quiet, State.wf]
    decide +kernel⟩,
   ⟨(running |> flow0 0x80000000 |> budget), 0, submit0, submitMsg, by
    try dsimp only [State.quiet, State.wf]
    decide +kernel⟩,
   ⟨running, by
    try dsimp only [State.quiet, State.wf]
    decide +kernel⟩,
   ⟨running, 638, by
    try dsimp only [State.quiet, State.wf]
    decide +kernel⟩,
   ⟨(running |> stSlotPend), 0, by
    try dsimp only [State.quiet, State.wf]
    decide +kernel⟩,
   ⟨running, 638, 0x0#2, by
    try dsimp only [State.quiet, State.wf]
    decide +kernel⟩,
   ⟨(running |> pendingSlot |> setReg (Reg.ASSAY_FW_CFG 3) 0x00010001), 0, 1, by
    try dsimp only [State.quiet, State.wf]
    decide +kernel⟩,
   ⟨(running |> stSlotPend), 0, 0x1#2, by
    try dsimp only [State.quiet, State.wf]
    decide +kernel⟩⟩

theorem witness_HeldConsignmentsAreSentAndReceipted :
    (∃ (s : State) (f : Fin 2048),
    s.quiet ∧
    s.wf ∧
    (∀ e ∈ flowSlots f.val (· == .held) s, (work e.1 s).due = false ∧ (work e.1 s).sentAt.isSome = true))
    ∧ (∃ (s : State),
    s.quiet ∧
    s.wf ∧
    inDip s = true)
    ∧ (∃ (s : State) (f : Fin 2048) (j : Nat) (c : SlotCopy),
    s.quiet ∧
    s.wf ∧
    flowSlots f.val (· == .held) s = [(j, c)] ∧
    c.down = false ∧
    (work j s).due = true ∧
    maySendUp c.ident s = true ∧
    inDip s = false)
    ∧ (∃ (s : State) (f : Fin 2048) (j : Nat) (c : SlotCopy),
    s.quiet ∧
    s.wf ∧
    flowSlots f.val (· == .held) s = [(j, c)] ∧
    c.down = true ∧
    (work j s).due = true ∧
    inDip s = false)
    ∧ (∃ (s : State) (f : Fin 2048) (j : Nat) (c : SlotCopy),
    s.quiet ∧
    s.wf ∧
    flowSlots f.val (· == .held) s = [(j, c)] ∧
    c.down = true ∧
    (work j s).sentAt = none ∧
    (work j s).resend = false ∧
    0 < rfld Reg.TALLY_RTX 7 0 s)
    ∧ (∃ (s : State) (i : Fin 128) (b : Bytes) (m : TallyMsg),
    s.quiet ∧
    s.wf ∧
    let p := udpPayload b s
    receiveTally true i.val 5 (.head i.val) p s = (some m, s) ∧
    let found := (flowSlots m.flow (· == .held) s).find? (fun eZ => eZ.2.tally == m.tally && !eZ.2.down && eZ.2.ident == i.val)
    found = none)
    ∧ (∃ s : State, ∃ i : Fin 128, ∃ b : Bytes, ∃ m : TallyMsg, ∃ j, ∃ c,
    s.quiet ∧
    s.wf ∧
    let p := udpPayload b s
    receiveTally true i.val 5 (.head i.val) p s = (some m, s) ∧
    let found := (flowSlots m.flow (· == .held) s).find? (fun eZ => eZ.2.tally == m.tally && !eZ.2.down && eZ.2.ident == i.val)
    found = some (j, c))
    ∧ (∃ (s : State) (port : Fin 512) (b : Bytes) (m : TallyMsg),
    s.quiet ∧
    s.wf ∧
    let p := udpPayload b s
    receiveTally false port.val 5 (.port (port.val, [])) p s = (some m, s) ∧
    let found := (flowSlots m.flow (· == .held) s).find? (fun eZ => eZ.2.tally == m.tally && eZ.2.sseq == m.sseq && eZ.2.down)
    found = none)
    ∧ (∃ s : State, ∃ port : Fin 512, ∃ b : Bytes, ∃ m : TallyMsg, ∃ j, ∃ c,
    s.quiet ∧
    s.wf ∧
    let p := udpPayload b s
    receiveTally false port.val 5 (.port (port.val, [])) p s = (some m, s) ∧
    let found := (flowSlots m.flow (· == .held) s).find? (fun eZ => eZ.2.tally == m.tally && eZ.2.sseq == m.sseq && eZ.2.down)
    found = some (j, c))
    ∧ (∃ (s : State) (i : Fin 128) (b : Bytes) (m : TallyMsg),
    s.quiet ∧
    s.wf ∧
    let p := udpPayload b s
    receiveTally true i.val 3 (.head i.val) p s = (some m, s))
    ∧ (∃ (s : State) (port : Fin 512) (b : Bytes) (m : TallyMsg),
    s.quiet ∧
    s.wf ∧
    let p := udpPayload b s
    receiveTally false port.val 6 (.port (port.val, replyHeader b s)) p s = (some m, s))
    ∧ (∃ (s : State) (f : Fin 2048),
    s.quiet ∧
    s.wf ∧
    (overStall f.val s = false ∨ s.tally.stalled.contains f.val = true))
    ∧ (∃ (s : State) (f : Fin 2048),
    s.quiet ∧
    s.wf ∧
    overStall f.val s = true ∧
    s.tally.stalled.contains f.val = false) :=
  ⟨⟨running, 638, by
    try dsimp only [State.quiet, State.wf]
    decide +kernel⟩,
   ⟨(running |> stDip), by
    try dsimp only [State.quiet, State.wf]
    decide +kernel⟩,
   ⟨(running |> heldSlot false |> stServing), 0, 0, (slot0 .held false), by
    try dsimp only [State.quiet, State.wf]
    decide +kernel⟩,
   ⟨(running |> heldSlot true), 0, 0, (slot0 .held true), by
    try dsimp only [State.quiet, State.wf]
    decide +kernel⟩,
   ⟨(running |> heldSlotSent), 0, 0, (slot0 .held true), by
    try dsimp only [State.quiet, State.wf]
    decide +kernel⟩,
   ⟨running, 0, (tallyFrame 5 4 77 []), (tallyMsg 5 4 77 []), by
    try dsimp only [State.quiet, State.wf]
    decide +kernel⟩,
   ⟨(running |> heldSlot false), 0, (tallyFrame 5 4 77 []), (tallyMsg 5 4 77 []), 0, (slot0 .held false), by
    try dsimp only [State.quiet, State.wf]
    decide +kernel⟩,
   ⟨(running |> flow0 0xC0000000), 0, (tallyFrame 5 4 77 []), (tallyMsg 5 4 77 []), by
    try dsimp only [State.quiet, State.wf]
    decide +kernel⟩,
   ⟨(running |> heldSlot true), 0, (tallyFrame 5 4 77 []), (tallyMsg 5 4 77 []), 0, (slot0 .held true), by
    try dsimp only [State.quiet, State.wf]
    decide +kernel⟩,
   ⟨running, 0, (fillTemplate udpHeaders (encodeTally 3 0 4 0 5 7 [])), (decodeTally (encodeTally 3 0 4 0 5 7 [])), by
    try dsimp only [State.quiet, State.wf]
    decide +kernel⟩,
   ⟨running, 0, (tallyFrame 6 4 0 []), (tallyMsg 6 4 0 []), by
    try dsimp only [State.quiet, State.wf]
    decide +kernel⟩,
   ⟨running, 638, by
    try dsimp only [State.quiet, State.wf]
    decide +kernel⟩,
   ⟨(running |> heldSlot false |> setReg Reg.TALLY_STALL 4), 0, by
    try dsimp only [State.quiet, State.wf]
    decide +kernel⟩⟩

theorem witness_FlowsCloseAndTheScanBegins :
    (∃ (s : State) (f : Fin 2048),
    s.quiet ∧
    s.wf ∧
    let a := Reg.TALLY_FLOW_CFG f.val
    judge a s = .perform ∧
    bitOf (reg a s) 29 = false)
    ∧ (∃ (s : State) (f : Fin 2048),
    s.quiet ∧
    s.wf ∧
    let a := Reg.TALLY_FLOW_CFG f.val
    judge a s = .perform ∧
    bitOf (reg a s) 31 = true)
    ∧ (∃ (s : State) (f : Fin 2048),
    s.quiet ∧
    s.wf ∧
    let a := Reg.TALLY_FLOW_CFG f.val
    judge a s = .perform ∧
    bitOf (reg a s) 31 = false)
    ∧ (∃ (s : State),
    s.quiet ∧
    s.wf ∧
    (s.boot.applied = false ∨ s.keep.mounted = false ∨ s.boot.inReset.isSome = true))
    ∧ (∃ (s : State),
    s.quiet ∧
    s.wf ∧
    s.boot.applied = true ∧
    s.keep.mounted = true ∧
    s.boot.inReset = none ∧
    s.tally.scanning = true) :=
  ⟨⟨running, 638, by
    try dsimp only [State.quiet, State.wf]
    decide +kernel⟩,
   ⟨(running |> stFlowOpen), 0, by
    try dsimp only [State.quiet, State.wf]
    decide +kernel⟩,
   ⟨running, 638, by
    try dsimp only [State.quiet, State.wf]
    decide +kernel⟩,
   ⟨State.reset, by
    try dsimp only [State.quiet, State.wf]
    decide +kernel⟩,
   ⟨(running |> stScanning), by
    try dsimp only [State.quiet, State.wf]
    decide +kernel⟩⟩

theorem witness_PausesStopAndExpire :
    (∃ (s : State) (p : Fin 512) (times : List (BitVec 16)),
    s.quiet ∧
    s.wf ∧
    twf (fun _Z => PortQueue.reset) (sched p.val s).queues = true ∧
    times.length = 8 ∧
    let cfg := reg (Reg.SCHED_PORT_CFG p.val) s
    bitOf cfg 30 = false)
    ∧ (∃ (s : State) (p : Fin 512) (times : List (BitVec 16)),
    s.quiet ∧
    s.wf ∧
    twf (fun _Z => PortQueue.reset) (sched p.val s).queues = true ∧
    times.length = 8 ∧
    let cfg := reg (Reg.SCHED_PORT_CFG p.val) s
    bitOf cfg 30 = true ∧
    bitOf cfg 29 = true)
    ∧ (∃ (s : State) (p : Fin 512) (times : List (BitVec 16)),
    s.quiet ∧
    s.wf ∧
    twf (fun _Z => PortQueue.reset) (sched p.val s).queues = true ∧
    times.length = 8 ∧
    let cfg := reg (Reg.SCHED_PORT_CFG p.val) s
    bitOf cfg 30 = true ∧
    bitOf cfg 29 = false)
    ∧ (∃ (s : State) (p : Fin 512) (times : List (BitVec 16)),
    s.quiet ∧
    s.wf ∧
    twf (fun _Z => PortQueue.reset) (sched p.val s).queues = true ∧
    times.length = 8 ∧
    (lanesPaused p.val s = false ∨ (sched p.val s).circ = []))
    ∧ (∃ s : State, ∃ p : Fin 512, ∃ times : List (BitVec 16), ∃ f, ∃ rest,
    s.quiet ∧
    s.wf ∧
    twf (fun _Z => PortQueue.reset) (sched p.val s).queues = true ∧
    times.length = 8 ∧
    lanesPaused p.val s = true ∧
    (sched p.val s).circ = f :: rest) :=
  ⟨⟨(running |> setReg (Reg.SCHED_PORT_CFG 511) 0), 511, (List.replicate 8 0xFFFF), by
    try dsimp only [State.quiet, State.wf]
    decide +kernel⟩,
   ⟨(running |> setReg (Reg.SCHED_PORT_CFG 511) 0x60000000), 511, (List.replicate 8 0xFFFF), by
    try dsimp only [State.quiet, State.wf]
    decide +kernel⟩,
   ⟨(running |> setReg (Reg.SCHED_PORT_CFG 511) 0x40000000), 511, (List.replicate 8 0xFFFF), by
    try dsimp only [State.quiet, State.wf]
    decide +kernel⟩,
   ⟨running, 511, (List.replicate 8 0xFFFF), by
    try dsimp only [State.quiet, State.wf]
    decide +kernel⟩,
   ⟨(running |> stPaused), 0, (List.replicate 8 0xFFFF), qf, [], by
    try dsimp only [State.quiet, State.wf]
    decide +kernel⟩⟩

theorem witness_GateListsAreCommittedAndStart :
    (∃ (s : State),
    s.quiet ∧
    s.wf ∧
    judge Reg.SCHED_GCL_CMD s = .perform)
    ∧ (∃ (s : State) (p : Fin 512) (v : Word),
    s.quiet ∧
    s.wf ∧
    let n := fld v 8 0
    let e := commitErr p.val n s
    judge (Reg.SCHED_GATE_CTRL p.val) s = .perform ∧
    e ≠ 0)
    ∧ (∃ (s : State) (p : Fin 512) (v : Word),
    s.quiet ∧
    s.wf ∧
    let n := fld v 8 0
    let e := commitErr p.val n s
    judge (Reg.SCHED_GATE_CTRL p.val) s = .perform ∧
    e = 0)
    ∧ (∃ (s : State) (p : Fin 512),
    s.quiet ∧
    s.wf ∧
    (sched p.val s).pend = none)
    ∧ (∃ s : State, ∃ p : Fin 512, ∃ g,
    s.quiet ∧
    s.wf ∧
    (sched p.val s).pend = some g)
    ∧ (∃ (b : Nat) (cycle : Nat) (now : Nat),
    0 < cycle ∧
    now + 250000 ≤ b)
    ∧ (∃ (b : Nat) (cycle : Nat) (now : Nat),
    0 < cycle ∧
    b < now + 250000) :=
  ⟨⟨running, by
    try dsimp only [State.quiet, State.wf]
    decide +kernel⟩,
   ⟨running, 126, 0x01000008#32, by
    try dsimp only [State.quiet, State.wf]
    decide +kernel⟩,
   ⟨(running |> stAdmin |> stDom16off |> stFdbAge |> stOptA), 0, 0x00000001#32, by
    try dsimp only [State.quiet, State.wf]
    decide +kernel⟩,
   ⟨running, 126, by
    try dsimp only [State.quiet, State.wf]
    decide +kernel⟩,
   ⟨(running |> stPendGate), 0, ⟨[(255, 1000000)], 1000000, 0, 0, 0⟩, by
    try dsimp only [State.quiet, State.wf]
    decide +kernel⟩,
   ⟨14680104, 512, 80, by
    try dsimp only [State.quiet, State.wf]
    decide +kernel⟩,
   ⟨7, 19398720, 1023, by
    try dsimp only [State.quiet, State.wf]
    decide +kernel⟩⟩

theorem witness_PolicersAreWrittenAndRead :
    (∃ (s : State),
    s.quiet ∧
    s.wf ∧
    judge Reg.SCHED_POL_CMD s = .perform ∧
    let d := fun w => reg (Reg.SCHED_POL_DATA w) s
    bitOf (d 0) 31 = true ∧
    d 3 < d 1)
    ∧ (∃ (s : State),
    s.quiet ∧
    s.wf ∧
    judge Reg.SCHED_POL_CMD s = .perform ∧
    let d := fun w => reg (Reg.SCHED_POL_DATA w) s
    (bitOf (d 0) 31 = false ∨ d 1 ≤ d 3)) :=
  ⟨⟨(running |> stPolData), by
    try dsimp only [State.quiet, State.wf]
    decide +kernel⟩,
   ⟨running, by
    try dsimp only [State.quiet, State.wf]
    decide +kernel⟩⟩

theorem witness_PortsSendInOrder :
    (∃ (s : State) (p : Fin 512),
    s.quiet ∧
    s.wf ∧
    twf (fun _Z => PortQueue.reset) (sched p.val s).queues = true ∧
    portMaySend p.val s = false)
    ∧ (∃ (s : State) (p : Fin 512) (f : QFrame) (rest : List QFrame),
    s.quiet ∧
    s.wf ∧
    twf (fun _Z => PortQueue.reset) (sched p.val s).queues = true ∧
    portMaySend p.val s = true ∧
    (sched p.val s).gateFix = false ∧
    portLoop p.val s = 0 ∧
    lanesPaused p.val s = false ∧
    laneHead (sched p.val s).consign = some (f, rest))
    ∧ (∃ (s : State) (p : Fin 512) (f : QFrame) (rest : List QFrame),
    s.quiet ∧
    s.wf ∧
    twf (fun _Z => PortQueue.reset) (sched p.val s).queues = true ∧
    portMaySend p.val s = true ∧
    (sched p.val s).gateFix = false ∧
    portLoop p.val s = 0 ∧
    lanesPaused p.val s = false ∧
    laneHead (sched p.val s).consign = none ∧
    laneHead (sched p.val s).circ = some (f, rest))
    ∧ (∃ (s : State) (p : Fin 512) (f : QFrame),
    s.quiet ∧
    s.wf ∧
    twf (fun _Z => PortQueue.reset) (sched p.val s).queues = true ∧
    startsNow p.val s = some (8, f)) :=
  ⟨⟨running, 126, by
    try dsimp only [State.quiet, State.wf]
    decide +kernel⟩,
   ⟨(running |> lanesActive |> stPortUp |> modSched 0 (fun x => { x with consign := [qfs, qfs], circ := [qfs] })), 0, qfs, [qfs], by
    try dsimp only [State.quiet, State.wf]
    decide +kernel⟩,
   ⟨(running |> lanesActive |> stPortUp |> modSched 0 (fun x => { x with circ := [qfs] })), 0, qfs, [], by
    try dsimp only [State.quiet, State.wf]
    decide +kernel⟩,
   ⟨(running |> lanesActive |> stPortUp |> modSched 0 (fun x => { x with consign := [qfs] })), 0, qfs, by
    try dsimp only [State.quiet, State.wf]
    decide +kernel⟩⟩

theorem witness_TubsAreTakenFreedAndHandedOver :
    (∃ (s : State) (agent : BitVec 6),
    s.quiet ∧
    s.wf ∧
    twf tagDefault s.tub.tags = true ∧
    12 ≤ agent.toNat ∧
    s.tub.frees = [] ∧
    s.tub.asks = [])
    ∧ (∃ (s : State) (agent : BitVec 6) (h : Word),
    s.quiet ∧
    s.wf ∧
    twf tagDefault s.tub.tags = true ∧
    agent.toNat < 12 ∧
    (tagOf h.toNat s).free = true)
    ∧ (∃ (s : State) (agent : BitVec 6) (h : Word),
    s.quiet ∧
    s.wf ∧
    twf tagDefault s.tub.tags = true ∧
    agent.toNat < 12 ∧
    (tagOf h.toNat s).free = false ∧
    (tagOf h.toNat s).next = 0xFFFFFFFF)
    ∧ (∃ s : State, ∃ agent : BitVec 6, ∃ len : BitVec 16, ∃ known : Bool, ∃ p,
    s.quiet ∧
    s.wf ∧
    twf tagDefault s.tub.tags = true ∧
    agent.toNat < 12 ∧
    s.tub.frees = [] ∧
    s.tub.asks = [] ∧
    known = true ∧
    poolFor len.toNat s = some p ∧
    mayUse agent.toNat (poolCells p) s = true ∧
    (∃ i, i < poolTubs p s ∧ tubOpen p (poolBase p s + i * poolCells p) s = true))
    ∧ (∃ s : State, ∃ agent : BitVec 6, ∃ len : BitVec 16, ∃ known : Bool, ∃ p,
    s.quiet ∧
    s.wf ∧
    twf tagDefault s.tub.tags = true ∧
    agent.toNat < 12 ∧
    s.tub.frees = [] ∧
    s.tub.asks = [] ∧
    known = true ∧
    poolFor len.toNat s = some p ∧
    mayUse agent.toNat (poolCells p) s = false ∧
    holderOf agent.toNat = 3)
    ∧ (∃ s : State, ∃ agent : BitVec 6, ∃ len : BitVec 16, ∃ known : Bool, ∃ p,
    s.quiet ∧
    s.wf ∧
    twf tagDefault s.tub.tags = true ∧
    agent.toNat < 12 ∧
    s.tub.frees = [] ∧
    s.tub.asks = [] ∧
    known = true ∧
    poolFor len.toNat s = some p ∧
    mayUse agent.toNat (poolCells p) s = false ∧
    holderOf agent.toNat < 3)
    ∧ (∃ (s : State) (agent : BitVec 6) (h : Word),
    s.quiet ∧
    s.wf ∧
    twf tagDefault s.tub.tags = true ∧
    agent.toNat < 12 ∧
    s.tub.frees = [] ∧
    s.tub.asks = [] ∧
    s.tub.waiting = [] ∧
    freeReason agent.toNat h.toNat s ≠ 0)
    ∧ (∃ s : State, ∃ agent : BitVec 6, ∃ h : Word, ∃ chain : Bool, ∃ j,
    s.quiet ∧
    s.wf ∧
    twf tagDefault s.tub.tags = true ∧
    agent.toNat < 12 ∧
    s.tub.frees = [] ∧
    s.tub.asks = [] ∧
    s.tub.waiting = [] ∧
    freeReason agent.toNat h.toNat s = 0 ∧
    chain = false ∧
    j ≠ h.toNat) :=
  ⟨⟨running, 0x20#6, by
    try dsimp only [State.quiet, State.wf]
    decide +kernel⟩,
   ⟨running, 0x07#6, 0x00000003#32, by
    try dsimp only [State.quiet, State.wf]
    decide +kernel⟩,
   ⟨(running |> stFdbD1b |> stPrbsOk |> stEligFail |> stTubs |> stCandA |> stPortLldp), 0x04#6, 0x00000000#32, by
    try dsimp only [State.quiet, State.wf]
    decide +kernel⟩,
   ⟨running, 7, 256, true, 0, by
    dsimp only [State.quiet, State.wf]
    refine ⟨by decide +kernel, by decide +kernel, by decide +kernel, by decide +kernel, rfl, rfl, rfl, by decide +kernel, by decide +kernel, 0, ?_, ?_⟩ <;> decide +kernel⟩,
   ⟨(running |> stDip), 0x04#6, 0x0020#16, true, 0, by
    try dsimp only [State.quiet, State.wf]
    decide +kernel⟩,
   ⟨(running |> setReg (Reg.TUB_FLOOR 0) 0), 8, 256, true, 0, by
    try dsimp only [State.quiet, State.wf]
    decide +kernel⟩,
   ⟨running, 0x07#6, 0x00000003#32, by
    try dsimp only [State.quiet, State.wf]
    decide +kernel⟩,
   ⟨(running |> stTubs), 1, 0, false, 1, by
    try dsimp only [State.quiet, State.wf]
    decide +kernel⟩⟩

theorem witness_RingsArePostedAndFilled :
    (∃ (s : State) (r : Fin 8),
    s.quiet ∧
    s.wf ∧
    twf tagDefault s.tub.tags = true ∧
    (ringEnabled r.val s = false ∨ ringSize r.val s ≤ ringPosted r.val s))
    ∧ (∃ (s : State) (r : Fin 8),
    s.quiet ∧
    s.wf ∧
    twf tagDefault s.tub.tags = true ∧
    ringEnabled r.val s = true ∧
    ringPosted r.val s < ringSize r.val s)
    ∧ (∃ (s : State) (r : Fin 8) (producer : BitVec 6) (frame : Bytes),
    s.quiet ∧
    s.wf ∧
    twf tagDefault s.tub.tags = true ∧
    producer.toNat < 12 ∧
    ringEnabled r.val s = true ∧
    0 < ringPosted r.val s ∧
    frame ≠ [] ∧
    let k := ringEntry r.val 0 s
    poolOf k < 4 ∧
    frame.length ≤ tubSize k)
    ∧ (∃ (s : State) (producer : BitVec 6),
    s.quiet ∧
    s.wf ∧
    twf tagDefault s.tub.tags = true ∧
    12 ≤ producer.toNat)
    ∧ (∃ (s : State) (r : Fin 8) (producer : BitVec 6) (frame : Bytes),
    s.quiet ∧
    s.wf ∧
    twf tagDefault s.tub.tags = true ∧
    producer.toNat < 12 ∧
    ringPosted r.val s = 0 ∧
    frame ≠ []) :=
  ⟨⟨running, 6, by
    try dsimp only [State.quiet, State.wf]
    decide +kernel⟩,
   ⟨running, 0, by
    try dsimp only [State.quiet, State.wf]
    decide +kernel⟩,
   ⟨(running |> stRingPost), 0, 0x00#6, [0x04#8], by
    try dsimp only [State.quiet, State.wf]
    decide +kernel⟩,
   ⟨(running |> stTubs), 12, by
    try dsimp only [State.quiet, State.wf]
    decide +kernel⟩,
   ⟨running, 0, 0x01#6, [0xa0#8, 0x20#8], by
    try dsimp only [State.quiet, State.wf]
    decide +kernel⟩⟩

theorem witness_FramesSpillAndRefill :
    (∃ (s : State) (p : Fin 512) (q : Fin 8),
    s.quiet ∧
    s.wf ∧
    (isStrict (sched p.val s).strict q.val = true ∨ inDip s = true))
    ∧ (∃ (s : State) (p : Fin 512) (q : Fin 8),
    s.quiet ∧
    s.wf ∧
    let x := queue p.val q.val s
    x.frames.all (fun fZ => !(fZ.spill && fZ.dram.isNone)) = true)
    ∧ (∃ (s : State) (p : Fin 512) (q : Fin 8) (f : QFrame) (rest : List QFrame),
    s.quiet ∧
    s.wf ∧
    let x := queue p.val q.val s
    let room := fun (others : Nat) => frameL f.bytes + others ≤ s.tub.ddrLeft
    isStrict (sched p.val s).strict q.val = false ∧
    inDip s = false ∧
    x.frames = f :: rest ∧
    f.spill = true ∧
    f.dram = none ∧
    spillOn s = true ∧
    room (winderDue s + refillDue s) ∧
    (takeDram f.bytes.length s).1.isSome = true)
    ∧ (∃ (s : State) (p : Fin 512) (q : Fin 8) (f : QFrame) (rest : List QFrame),
    s.quiet ∧
    s.wf ∧
    let x := queue p.val q.val s
    let room := fun (others : Nat) => frameL f.bytes + others ≤ s.tub.ddrLeft
    isStrict (sched p.val s).strict q.val = false ∧
    inDip s = false ∧
    x.frames = f :: rest ∧
    f.spill = true ∧
    f.dram = none ∧
    (spillOn s = false ∨ ¬ room (winderDue s + refillDue s)) ∧
    x.frames.all (fun fZ => fZ.dram.isNone) = true)
    ∧ (∃ (s : State) (p : Fin 512) (q : Fin 8),
    s.quiet ∧
    s.wf ∧
    let x := queue p.val q.val s
    (inDip s = true ∨ x.frames.all (fun fZ => fZ.dram.isNone) = true))
    ∧ (∃ s : State, ∃ p : Fin 512, ∃ q : Fin 8, ∃ f : QFrame, ∃ h,
    s.quiet ∧
    s.wf ∧
    let x := queue p.val q.val s
    let room := fun (others : Nat) => frameL f.bytes + others ≤ s.tub.ddrLeft
    x.frames = [f] ∧
    f.dram = some h ∧
    inDip s = false ∧
    0 < spillThreshold false s ∧
    room (winderDue s) ∧
    (storeData 11 f.bytes true s).1.isSome = true ∧
    s.tub.waiting = []) :=
  ⟨⟨(running |> stDip), 0, 0, by
    try dsimp only [State.quiet, State.wf]
    decide +kernel⟩,
   ⟨running, 126, 0, by
    try dsimp only [State.quiet, State.wf]
    decide +kernel⟩,
   ⟨(running |> modSched 0 (fun x => { x with strict := 0, queues := [(0, { PortQueue.reset with frames := [{ qf with spill := true }] })] }) |> stDdr |> setReg Reg.TUB_SPILL_CTRL 0x80010001), 0, 0, ({ qf with spill := true }), [], by
    try dsimp only [State.quiet, State.wf]
    decide +kernel⟩,
   ⟨(running |> modSched 0 (fun x => { x with strict := 0, queues := [(0, { PortQueue.reset with frames := [{ qf with spill := true }] })] })), 0, 0, ({ qf with spill := true }), [], by
    try dsimp only [State.quiet, State.wf]
    decide +kernel⟩,
   ⟨running, 126, 0, by
    try dsimp only [State.quiet, State.wf]
    decide +kernel⟩,
   ⟨(running |> modSched 0 (fun x => { x with strict := 0, queues := [(0, { PortQueue.reset with frames := [{ qf with dram := some 2147491840 }] })] }) |> stDdr |> setReg Reg.TUB_SPILL_CTRL 0x80010001), 0, 0, ({ qf with dram := some 2147491840 }), 2147491840, by
    try dsimp only [State.quiet, State.wf]
    decide +kernel⟩⟩

theorem witness_WinderChannelsMoveAndCopy :
    (∃ (s : State) (c : Fin 64),
    s.quiet ∧
    s.wf ∧
    let x := wndChan c.val s
    judge (Reg.WND_CH_DOORBELL c.val) s = .perform ∧
    x.phase = .halt)
    ∧ (∃ (s : State) (c : Fin 64),
    s.quiet ∧
    s.wf ∧
    let x := wndChan c.val s
    judge (Reg.WND_CH_DOORBELL c.val) s = .perform ∧
    x.phase = .idle ∧
    rbit (Reg.WND_CH_CFG c.val) 31 s = false)
    ∧ (∃ (s : State) (c : Fin 64),
    s.quiet ∧
    s.wf ∧
    let x := wndChan c.val s
    judge (Reg.WND_CH_DOORBELL c.val) s = .perform ∧
    x.phase = .idle ∧
    rbit (Reg.WND_CH_CFG c.val) 31 s = true)
    ∧ (∃ (s : State) (c : Fin 64),
    s.quiet ∧
    s.wf ∧
    let x := wndChan c.val s
    judge (Reg.WND_CH_DOORBELL c.val) s = .perform ∧
    x.phase = .run)
    ∧ (∃ (s : State) (c : Fin 64),
    s.quiet ∧
    s.wf ∧
    let x := wndChan c.val s
    (x.phase ≠ .run ∨ x.fetch = none))
    ∧ (∃ s : State, ∃ c : Fin 64, ∃ a,
    s.quiet ∧
    s.wf ∧
    let x := wndChan c.val s
    x.phase = .run ∧
    x.fetch = some a ∧
    inMemory a.toNat 32 = true ∧
    let n := a.toNat
    let y := { x with
      cur := a, fetch := none, moved := 0, words := [memWord n s, memWord (n + 8) s, memWord (n + 16) s, memWord (n + 24) s] }
    descError y = 0)
    ∧ (∃ s : State, ∃ c : Fin 64, ∃ a,
    s.quiet ∧
    s.wf ∧
    let x := wndChan c.val s
    x.phase = .run ∧
    x.fetch = some a ∧
    inMemory a.toNat 32 = true ∧
    let n := a.toNat
    let y := { x with
      cur := a, fetch := none, moved := 0, words := [memWord n s, memWord (n + 8) s, memWord (n + 16) s, memWord (n + 24) s] }
    descError y ≠ 0)
    ∧ (∃ (s : State) (c : Fin 64),
    s.quiet ∧
    s.wf ∧
    let x := wndChan c.val s
    x.landing = [] ∧
    (x.phase ≠ .run ∨ wndDone x = false))
    ∧ (∃ s : State, ∃ c : Fin 64, ∃ e, ∃ rest,
    s.quiet ∧
    s.wf ∧
    let x := wndChan c.val s
    x.landing = e :: rest)
    ∧ (∃ (s : State) (c : Fin 64),
    s.quiet ∧
    s.wf ∧
    let x := wndChan c.val s
    x.landing = [] ∧
    x.phase = .run ∧
    wndDone x = true ∧
    x.stopping = true)
    ∧ (∃ (s : State) (c : Fin 64),
    s.quiet ∧
    s.wf ∧
    let x := wndChan c.val s
    x.landing = [] ∧
    x.phase = .run ∧
    wndDone x = true ∧
    x.stopping = false ∧
    descEoc x = false ∧
    inMemory (descLink x) 32 = true)
    ∧ (∃ (s : State) (c : Fin 64),
    s.quiet ∧
    s.wf ∧
    let x := wndChan c.val s
    x.landing = [] ∧
    x.phase = .run ∧
    wndDone x = true ∧
    x.stopping = false ∧
    descEoc x = true ∧
    x.pend = false)
    ∧ (∃ (s : State) (c : Fin 64),
    s.quiet ∧
    s.wf ∧
    let x := wndChan c.val s
    x.landing = [] ∧
    (x.phase ≠ .run ∨ x.words = []))
    ∧ (∃ (s : State) (c : Fin 64),
    s.quiet ∧
    s.wf ∧
    let x := wndChan c.val s
    x.landing = [] ∧
    x.phase = .run ∧
    x.words ≠ [])
    ∧ (∃ (s : State) (c : Fin 64),
    s.quiet ∧
    s.wf ∧
    judge (Reg.WND_CH_CFG c.val) s = .perform)
    ∧ (∃ (s : State) (req : BitVec 32),
    s.quiet ∧
    s.wf ∧
    wndNext req s = none)
    ∧ (∃ s : State, ∃ req : BitVec 32, ∃ c,
    s.quiet ∧
    s.wf ∧
    wndNext req s = some c ∧
    let x := wndChan c s
    descKSrc x = 0 ∧
    descKDst x = 0 ∧
    descCrc x = 0 ∧
    descSrc x + descLen x ≤ sramEnd ∧
    descDst x + descLen x ≤ sramEnd) :=
  ⟨⟨(running |> stWndHalt), 0, by
    try dsimp only [State.quiet, State.wf]
    decide +kernel⟩,
   ⟨running, 62, by
    try dsimp only [State.quiet, State.wf]
    decide +kernel⟩,
   ⟨(running |> stWndEn), 0, by
    try dsimp only [State.quiet, State.wf]
    decide +kernel⟩,
   ⟨(running |> stWndRun), 0, by
    try dsimp only [State.quiet, State.wf]
    decide +kernel⟩,
   ⟨running, 62, by
    try dsimp only [State.quiet, State.wf]
    decide +kernel⟩,
   ⟨(running |> setChan 0 { WndChan.reset with phase := .run, fetch := some 0x1000 } |> addWord 0x1000 0x2000 |> addWord 0x1008 0x3000 |> addWord 0x1010 0x40 |> addWord 0x1018 1), 0, 0x1000, by
    try dsimp only [State.quiet, State.wf]
    decide +kernel⟩,
   ⟨(running |> stWndRun), 0, 0x0000000000001000#64, by
    try dsimp only [State.quiet, State.wf]
    decide +kernel⟩,
   ⟨running, 62, by
    try dsimp only [State.quiet, State.wf]
    decide +kernel⟩,
   ⟨(running |> setChan 0 { WndChan.reset with landing := [(0, [])] }), 0, (0, []), [], by
    try dsimp only [State.quiet, State.wf]
    decide +kernel⟩,
   ⟨(running |> setChan 0 { WndChan.reset with phase := .run, moved := 64, words := [0, 0, 0x40, 0], stopping := true }), 0, by
    try dsimp only [State.quiet, State.wf]
    decide +kernel⟩,
   ⟨(running |> setChan 0 { WndChan.reset with phase := .run, moved := 64, words := [0, 0, 0x40, 0x1000] }), 0, by
    try dsimp only [State.quiet, State.wf]
    decide +kernel⟩,
   ⟨(running |> setChan 0 { WndChan.reset with phase := .run, moved := 64, words := [0, 0, 0x40, 1] }), 0, by
    try dsimp only [State.quiet, State.wf]
    decide +kernel⟩,
   ⟨running, 62, by
    try dsimp only [State.quiet, State.wf]
    decide +kernel⟩,
   ⟨(running |> stWndCopy), 0, by
    try dsimp only [State.quiet, State.wf]
    decide +kernel⟩,
   ⟨running, 62, by
    try dsimp only [State.quiet, State.wf]
    decide +kernel⟩,
   ⟨running, 0x01280040#32, by
    try dsimp only [State.quiet, State.wf]
    decide +kernel⟩,
   ⟨(running |> setChan 0 { WndChan.reset with phase := .run, words := [0x2000, 0x3000, 0x40, 1] }), 0, 0, by
    try dsimp only [State.quiet, State.wf]
    decide +kernel⟩⟩

theorem witness_PortModesAndReceivedFrames :
    (∃ (s : State) (p : Fin 512) (v : Word),
    s.quiet ∧
    s.wf ∧
    let x := port p.val s
    let mode := if underBlock p.val s then x.mode else fld v 18 16
    judge (Reg.PORT_CFG p.val) s = .perform ∧
    mode = x.mode)
    ∧ (∃ (s : State) (p : Fin 512) (v : Word),
    s.quiet ∧
    s.wf ∧
    let x := port p.val s
    let mode := if underBlock p.val s then x.mode else fld v 18 16
    judge (Reg.PORT_CFG p.val) s = .perform ∧
    mode ≠ x.mode ∧
    modeReason p.val mode s ≠ 0)
    ∧ (∃ (s : State) (p : Fin 512) (v : Word),
    s.quiet ∧
    s.wf ∧
    let x := port p.val s
    let mode := if underBlock p.val s then x.mode else fld v 18 16
    judge (Reg.PORT_CFG p.val) s = .perform ∧
    mode ≠ x.mode ∧
    modeReason p.val mode s = 0)
    ∧ (∃ (s : State) (p : Fin 512),
    s.quiet ∧
    s.wf ∧
    let x := port p.val s
    x.mode = 4 ∧
    inDip s = false)
    ∧ (∃ (s : State) (p : Fin 512) (corr : Nat) (uncorr : Nat),
    s.quiet ∧
    s.wf ∧
    let x := port p.val s
    (x.mode ≠ 4 ∨ (corr = 0 ∧ uncorr = 0)) ∧
    x.link = false)
    ∧ (∃ (s : State) (p : Fin 512) (corr : Nat) (uncorr : Nat),
    s.quiet ∧
    s.wf ∧
    let x := port p.val s
    (x.mode ≠ 4 ∨ (corr = 0 ∧ uncorr = 0)) ∧
    x.link = true ∧
    inDip s = true)
    ∧ (∃ s : State, ∃ p : Fin 512, ∃ frame : Bytes, ∃ corr : Nat, ∃ uncorr : Nat, ∃ code, ∃ a,
    s.quiet ∧
    s.wf ∧
    let x := port p.val s
    (x.mode ≠ 4 ∨ (corr = 0 ∧ uncorr = 0)) ∧
    x.link = true ∧
    inDip s = false ∧
    rxFault p.val frame code s = some a ∧
    frame.length ≤ 128)
    ∧ (∃ (s : State) (p : Fin 512) (frame : Bytes) (corr : Nat) (uncorr : Nat),
    s.quiet ∧
    s.wf ∧
    let x := port p.val s
    (x.mode ≠ 4 ∨ (corr = 0 ∧ uncorr = 0)) ∧
    x.link = true ∧
    inDip s = false ∧
    rxFault p.val frame false s = none ∧
    let b := frame.take (frame.length - 4)
    beAt b 12 2 ≠ 0x8808 ∧
    isLldp p.val b s = false ∧
    domState (p.val / 128) s = .on)
    ∧ (∃ (s : State) (p : Fin 512) (frame : Bytes) (corr : Nat) (uncorr : Nat),
    s.quiet ∧
    s.wf ∧
    let x := port p.val s
    (x.mode ≠ 4 ∨ (corr = 0 ∧ uncorr = 0)) ∧
    x.link = true ∧
    inDip s = false ∧
    rxFault p.val frame false s = none ∧
    let b := frame.take (frame.length - 4)
    beAt b 12 2 = 0x8808 ∧
    beAt b 14 2 ≠ 1 ∧
    beAt b 14 2 ≠ 0x101)
    ∧ (∃ (s : State) (p : Fin 512) (corr : Nat) (uncorr : Nat),
    s.quiet ∧
    s.wf ∧
    let x := port p.val s
    (x.mode ≠ 4 ∨ (corr = 0 ∧ uncorr = 0)) ∧
    s.looped.find? (fun eZ => eZ.1 == p.val) = none) :=
  ⟨⟨running, 126, 0x01000008#32, by
    try dsimp only [State.quiet, State.wf]
    decide +kernel⟩,
   ⟨running, 489, 0x3a6dbaa0#32, by
    try dsimp only [State.quiet, State.wf]
    decide +kernel⟩,
   ⟨(running |> stOffgen), 0, 0x00010010#32, by
    try dsimp only [State.quiet, State.wf]
    decide +kernel⟩,
   ⟨(running |> stPortM4), 0, by
    try dsimp only [State.quiet, State.wf]
    decide +kernel⟩,
   ⟨running, 126, 14680076, 7, by
    try dsimp only [State.quiet, State.wf]
    decide +kernel⟩,
   ⟨(running |> stPortM1 |> stDip), 0, 0, 0, by
    try dsimp only [State.quiet, State.wf]
    decide +kernel⟩,
   ⟨(running |> stPortUp), 0, [], 0, 4096, true, 8389016, by
    try dsimp only [State.quiet, State.wf]
    decide +kernel⟩,
   ⟨(running |> stPortM1), 0, (goodFrame 0x0800 0), 0, 0, by
    try dsimp only [State.quiet, State.wf]
    decide +kernel⟩,
   ⟨(running |> stPortM1), 0, (goodFrame 0x8808 2), 0, 0, by
    try dsimp only [State.quiet, State.wf]
    decide +kernel⟩,
   ⟨running, 126, 1023, 14680076, by
    try dsimp only [State.quiet, State.wf]
    decide +kernel⟩⟩

theorem witness_PortsFollowLinkIdleAndLldp :
    (∃ (s : State) (p : Fin 512),
    s.quiet ∧
    s.wf ∧
    let x := port p.val s
    let may := x.link = false ∧ x.mode ≠ 0 ∧ underBlock p.val s = false ∧ lanesReady p.val s = true ∧ x.locFault = false ∧
      x.remFault = false ∧ inDip s = false
    may)
    ∧ (∃ (s : State) (p : Fin 512),
    s.quiet ∧
    s.wf ∧
    let x := port p.val s
    let may := x.link = false ∧ x.mode ≠ 0 ∧ underBlock p.val s = false ∧ lanesReady p.val s = true ∧ x.locFault = false ∧
      x.remFault = false ∧ inDip s = false
    ¬ may)
    ∧ (∃ (s : State) (p : Fin 512),
    s.quiet ∧
    s.wf ∧
    let x := port p.val s
    (x.link = false ∨ inDip s = true))
    ∧ (∃ (s : State) (p : Fin 512),
    s.quiet ∧
    s.wf ∧
    let x := port p.val s
    x.mode < 2)
    ∧ (∃ (s : State) (p : Fin 512),
    s.quiet ∧
    s.wf ∧
    let x := port p.val s
    (lpiWanted p.val s = false ∨ x.lpiTx = true))
    ∧ (∃ (s : State) (p : Fin 512),
    s.quiet ∧
    s.wf ∧
    let x := port p.val s
    lpiWanted p.val s = true ∧
    x.lpiTx = false)
    ∧ (∃ (s : State) (p : Fin 512),
    s.quiet ∧
    s.wf ∧
    let x := port p.val s
    (lpiWanted p.val s = true ∨ x.lpiTx = false))
    ∧ (∃ (s : State) (p : Fin 512),
    s.quiet ∧
    s.wf ∧
    let x := port p.val s
    lpiWanted p.val s = false ∧
    x.lpiTx = true)
    ∧ (∃ s : State, ∃ p : Fin 512, ∃ enter,
    s.quiet ∧
    s.wf ∧
    let x := port p.val s
    (x.mode < 2 ∨ x.link = false ∨ x.lpiRx = enter))
    ∧ (∃ s : State, ∃ p : Fin 512, ∃ enter,
    s.quiet ∧
    s.wf ∧
    let x := port p.val s
    2 ≤ x.mode ∧
    x.link = true ∧
    x.lpiRx ≠ enter)
    ∧ (∃ (s : State) (p : Fin 512),
    s.quiet ∧
    s.wf ∧
    let on := rbit (Reg.PORT_EEE_CFG p.val) 30 s
    (on = false ∨ supMaySend p.val s = false))
    ∧ (∃ (s : State) (p : Fin 512),
    s.quiet ∧
    s.wf ∧
    let on := rbit (Reg.PORT_EEE_CFG p.val) 30 s
    on = true ∧
    supMaySend p.val s = true)
    ∧ (∃ (s : State) (p : Fin 512),
    s.quiet ∧
    s.wf ∧
    let x := port p.val s
    let on := rbit (Reg.PORT_EEE_CFG p.val) 30 s
    (on = false ∨ x.link = false ∨ inDip s = true))
    ∧ (∃ s : State, ∃ p : Fin 512, ∃ c,
    s.quiet ∧
    s.wf ∧
    let x := port p.val s
    let on := rbit (Reg.PORT_EEE_CFG p.val) 30 s
    on = true ∧
    x.link = true ∧
    inDip s = false ∧
    x.lldpAt = some c ∧
    s.cycle - c < 1000000000)
    ∧ (∃ (s : State) (p : Fin 512),
    s.quiet ∧
    s.wf ∧
    let x := port p.val s
    let on := rbit (Reg.PORT_EEE_CFG p.val) 30 s
    on = true ∧
    x.link = true ∧
    inDip s = false ∧
    x.lldpAt = none) :=
  ⟨⟨(running |> lanesActive |> stPortM1 |> modPort 0 (fun x => { x with link := false })), 0, by
    try dsimp only [State.quiet, State.wf]
    decide +kernel⟩,
   ⟨running, 126, by
    try dsimp only [State.quiet, State.wf]
    decide +kernel⟩,
   ⟨running, 126, by
    try dsimp only [State.quiet, State.wf]
    decide +kernel⟩,
   ⟨running, 126, by
    try dsimp only [State.quiet, State.wf]
    decide +kernel⟩,
   ⟨running, 126, by
    try dsimp only [State.quiet, State.wf]
    decide +kernel⟩,
   ⟨(running |> modPort 0 (fun x => { x with link := true, mode := 2, eeeNeg := true }) |> setReg (Reg.PORT_EEE_CFG 0) 0xC0001005), 0, by
    try dsimp only [State.quiet, State.wf]
    decide +kernel⟩,
   ⟨running, 126, by
    try dsimp only [State.quiet, State.wf]
    decide +kernel⟩,
   ⟨(running |> stPortLpi), 0, by
    try dsimp only [State.quiet, State.wf]
    decide +kernel⟩,
   ⟨running, 126, false, by
    try dsimp only [State.quiet, State.wf]
    decide +kernel⟩,
   ⟨(running |> stPortUp), 0, true, by
    try dsimp only [State.quiet, State.wf]
    decide +kernel⟩,
   ⟨running, 126, by
    try dsimp only [State.quiet, State.wf]
    decide +kernel⟩,
   ⟨(running |> stPortUp |> stEee), 0, by
    try dsimp only [State.quiet, State.wf]
    decide +kernel⟩,
   ⟨running, 126, by
    try dsimp only [State.quiet, State.wf]
    decide +kernel⟩,
   ⟨(running |> modPort 0 (fun x => { x with link := true, lldpAt := some 4000000001 }) |> stEee), 0, 4000000001, by
    try dsimp only [State.quiet, State.wf]
    decide +kernel⟩,
   ⟨(running |> stPortUp |> stEee), 0, by
    try dsimp only [State.quiet, State.wf]
    decide +kernel⟩⟩

theorem witness_MdioFramesGoOut :
    (∃ (s : State),
    s.quiet ∧
    s.wf ∧
    domState 18 s ≠ .on)
    ∧ (∃ (s : State) (g : Fin 8) (x : MdioStart),
    s.quiet ∧
    s.wf ∧
    judge (Reg.PORT_MDIO_CMD g.val x.slot.val) s = .perform)
    ∧ (∃ s : State, ∃ g : Fin 8, ∃ slot,
    s.quiet ∧
    s.wf ∧
    slot < 2 ∧
    domState 18 s = .on ∧
    mdioNext g.val s = some slot ∧
    mdioOp g.val slot s = 1)
    ∧ (∃ s : State, ∃ g : Fin 8, ∃ slot,
    s.quiet ∧
    s.wf ∧
    slot < 2 ∧
    domState 18 s = .on ∧
    mdioNext g.val s = some slot ∧
    mdioOp g.val slot s = 2)
    ∧ (∃ s : State, ∃ g : Fin 8, ∃ slot,
    s.quiet ∧
    s.wf ∧
    slot < 2 ∧
    domState 18 s = .on ∧
    mdioNext g.val s = some slot ∧
    mdioOp g.val slot s = 3)
    ∧ (∃ s : State, ∃ g : Fin 8, ∃ slot,
    s.quiet ∧
    s.wf ∧
    slot < 2 ∧
    domState 18 s = .on ∧
    mdioNext g.val s = some slot ∧
    mdioOp g.val slot s = 4)
    ∧ (∃ s : State, ∃ g : Fin 8, ∃ slot,
    s.quiet ∧
    s.wf ∧
    slot < 2 ∧
    domState 18 s = .on ∧
    mdioNext g.val s = some slot ∧
    mdioOp g.val slot s = 5)
    ∧ (∃ s : State, ∃ g : Fin 8, ∃ slot,
    s.quiet ∧
    s.wf ∧
    slot < 2 ∧
    domState 18 s = .on ∧
    mdioNext g.val s = some slot ∧
    mdioOp g.val slot s = 6)
    ∧ (∃ s : State, ∃ g : Fin 8, ∃ slot,
    s.quiet ∧
    s.wf ∧
    slot < 2 ∧
    domState 18 s = .on ∧
    mdioNext g.val s = some slot ∧
    mdioOp g.val slot s ≠ 1)
    ∧ (∃ s : State, ∃ g : Fin 8, ∃ slot,
    s.quiet ∧
    s.wf ∧
    slot < 2 ∧
    domState 18 s = .on ∧
    mdioNext g.val s = some slot ∧
    mdioOp g.val slot s ≠ 2)
    ∧ (∃ s : State, ∃ g : Fin 8, ∃ slot,
    s.quiet ∧
    s.wf ∧
    slot < 2 ∧
    domState 18 s = .on ∧
    mdioNext g.val s = some slot ∧
    mdioOp g.val slot s ≠ 5)
    ∧ (∃ s : State, ∃ g : Fin 8, ∃ slot,
    s.quiet ∧
    s.wf ∧
    slot < 2 ∧
    domState 18 s = .on ∧
    mdioNext g.val s = some slot ∧
    mdioOp g.val slot s ≠ 3)
    ∧ (∃ s : State, ∃ g : Fin 8, ∃ slot,
    s.quiet ∧
    s.wf ∧
    slot < 2 ∧
    domState 18 s = .on ∧
    mdioNext g.val s = some slot ∧
    mdioOp g.val slot s ≠ 4)
    ∧ (∃ s : State, ∃ g : Fin 8, ∃ slot,
    s.quiet ∧
    s.wf ∧
    slot < 2 ∧
    domState 18 s = .on ∧
    mdioNext g.val s = some slot ∧
    mdioOp g.val slot s ≠ 6) :=
  ⟨⟨(running |> stOffgen), by
    try dsimp only [State.quiet, State.wf]
    decide +kernel⟩,
   ⟨running, 6, { src := Sys2Proof.Source.chain, slot := 0, value := 0x00000010#32 }, by
    try dsimp only [State.quiet, State.wf]
    decide +kernel⟩,
   ⟨(running |> stMdio0), 0, 0, by
    try dsimp only [State.quiet, State.wf]
    decide +kernel⟩,
   ⟨(running |> stMdio2), 0, 0, by
    try dsimp only [State.quiet, State.wf]
    decide +kernel⟩,
   ⟨(running |> stMdio3), 0, 0, by
    try dsimp only [State.quiet, State.wf]
    decide +kernel⟩,
   ⟨(running |> stMdio4), 0, 1, by
    try dsimp only [State.quiet, State.wf]
    decide +kernel⟩,
   ⟨(running |> stMdio5), 0, 0, by
    try dsimp only [State.quiet, State.wf]
    decide +kernel⟩,
   ⟨(running |> stMdio6), 0, 0, by
    try dsimp only [State.quiet, State.wf]
    decide +kernel⟩,
   ⟨(running |> stMdio2), 0, 0, by
    try dsimp only [State.quiet, State.wf]
    decide +kernel⟩,
   ⟨(running |> stMdio0), 0, 0, by
    try dsimp only [State.quiet, State.wf]
    decide +kernel⟩,
   ⟨(running |> stMdio0), 0, 0, by
    try dsimp only [State.quiet, State.wf]
    decide +kernel⟩,
   ⟨(running |> stMdio0), 0, 0, by
    try dsimp only [State.quiet, State.wf]
    decide +kernel⟩,
   ⟨(running |> stMdio0), 0, 0, by
    try dsimp only [State.quiet, State.wf]
    decide +kernel⟩,
   ⟨(running |> stMdio0), 0, 0, by
    try dsimp only [State.quiet, State.wf]
    decide +kernel⟩⟩

theorem witness_LanesTrainSleepAndTest :
    (∃ (s : State) (l : Fin 532),
    s.quiet ∧
    s.wf ∧
    let x := lane l.val s
    let ready := x.st = .train ∧ x.isOpen = false ∧ laneWanted l.val s = true
    ¬ ready)
    ∧ (∃ (s : State) (l : Fin 532),
    s.quiet ∧
    s.wf ∧
    let x := lane l.val s
    let ready := x.st = .train ∧ x.isOpen = false ∧ laneWanted l.val s = true
    let kept := laneHeld l.val s = true
    ready ∧
    kept)
    ∧ (∃ (s : State) (l : Fin 532),
    s.quiet ∧
    s.wf ∧
    let x := lane l.val s
    let ready := x.st = .train ∧ x.isOpen = false ∧ laneWanted l.val s = true
    let kept := laneHeld l.val s = true
    ready ∧
    ¬ kept)
    ∧ (∃ (s : State) (l : Fin 532),
    s.quiet ∧
    s.wf ∧
    laneWanted l.val s = false)
    ∧ (∃ (s : State) (l : Fin 532),
    s.quiet ∧
    s.wf ∧
    let kept := laneHeld l.val s = true
    laneWanted l.val s = true ∧
    kept ∧
    s.pwr.ladder = 0)
    ∧ (∃ (s : State) (l : Fin 532),
    s.quiet ∧
    s.wf ∧
    let x := lane l.val s
    laneHeld l.val s = false ∧
    laneWanted l.val s = true ∧
    s.pwr.ladder = 0 ∧
    x.st = .eidle)
    ∧ (∃ (s : State) (l : Fin 532),
    s.quiet ∧
    s.wf ∧
    let x := lane l.val s
    laneHeld l.val s = false ∧
    laneWanted l.val s = true ∧
    s.pwr.ladder = 0 ∧
    (x.st = .deep ∨ x.st = .off))
    ∧ (∃ (s : State) (l : Fin 532),
    s.quiet ∧
    s.wf ∧
    let x := lane l.val s
    isLocalLane l.val = true ∧
    laneHeld l.val s = false ∧
    (port (portOfLane l.val s) s).link = false ∧
    x.st = .active)
    ∧ (∃ (s : State) (l : Fin 532),
    s.quiet ∧
    s.wf ∧
    let kept := laneHeld l.val s = true
    isLocalLane l.val = true ∧
    kept ∧
    (port (portOfLane l.val s) s).link = false)
    ∧ (∃ (s : State) (l : Fin 532) (v : Word),
    s.quiet ∧
    s.wf ∧
    judge (Reg.LANE_ALIGN l.val) s = .perform ∧
    bitOf v 0 = false)
    ∧ (∃ (s : State) (l : Fin 532) (v : Word),
    s.quiet ∧
    s.wf ∧
    judge (Reg.LANE_ALIGN l.val) s = .perform ∧
    bitOf v 0 = true ∧
    laneRetired l.val s = true)
    ∧ (∃ (s : State) (l : Fin 532) (v : Word),
    s.quiet ∧
    s.wf ∧
    judge (Reg.LANE_ALIGN l.val) s = .perform ∧
    bitOf v 0 = true ∧
    laneRetired l.val s = false ∧
    (rbit (Reg.LANE_CFG l.val) 9 s = true ∨ rfld (Reg.LANE_CFG l.val) 2 0 s ≠ 0))
    ∧ (∃ (s : State) (l : Fin 532) (v : Word),
    s.quiet ∧
    s.wf ∧
    judge (Reg.LANE_EYE_CTRL l.val) s = .perform ∧
    fld v 18 12 ≠ 64 ∧
    bitOf v 30 = true ∧
    isLocalLane l.val = false)
    ∧ (∃ (s : State) (l : Fin 532) (v : Word),
    s.quiet ∧
    s.wf ∧
    let x := lane l.val s
    judge (Reg.LANE_EYE_CTRL l.val) s = .perform ∧
    fld v 18 12 ≠ 64 ∧
    bitOf v 30 = true ∧
    isLocalLane l.val = true ∧
    laneRetired l.val s = false ∧
    x.scan = false ∧
    x.st = .active ∧
    x.cdr = true)
    ∧ (∃ (s : State) (l : Fin 532),
    s.quiet ∧
    s.wf ∧
    let x := lane l.val s
    (x.scan = false ∨ x.scanHeld = true))
    ∧ (∃ (s : State) (l : Fin 532),
    s.quiet ∧
    s.wf ∧
    let x := lane l.val s
    x.scan = true ∧
    x.scanHeld = false)
    ∧ (∃ (s : State) (l : Fin 532) (v : Word),
    s.quiet ∧
    s.wf ∧
    judge (Reg.LANE_CFG l.val) s = .perform ∧
    cfgReason l.val v s ≠ 0)
    ∧ (∃ (s : State) (l : Fin 532) (v : Word),
    s.quiet ∧
    s.wf ∧
    judge (Reg.LANE_CFG l.val) s = .perform ∧
    cfgReason l.val v s = 0)
    ∧ (∃ (s : State) (l : Fin 532),
    s.quiet ∧
    s.wf ∧
    let x := lane l.val s
    let on := rbit (Reg.LANE_CFG l.val) 5 s = true ∧ x.st = .active ∧ x.cdr = true
    ¬ on)
    ∧ (∃ (s : State) (l : Fin 532),
    s.quiet ∧
    s.wf ∧
    let x := lane l.val s
    let on := rbit (Reg.LANE_CFG l.val) 5 s = true ∧ x.st = .active ∧ x.cdr = true
    on)
    ∧ (∃ (s : State) (l : Fin 532),
    s.quiet ∧
    s.wf ∧
    let x := lane l.val s
    x.prbsLock = false)
    ∧ (∃ (s : State) (l : Fin 532),
    s.quiet ∧
    s.wf ∧
    let x := lane l.val s
    x.prbsLock = true) :=
  ⟨⟨running, 262, by
    try dsimp only [State.quiet, State.wf]
    decide +kernel⟩,
   ⟨(running |> stPortM1 |> stLane0t |> stDip), 0, by
    try dsimp only [State.quiet, State.wf]
    decide +kernel⟩,
   ⟨(running |> stLane531t), 531, by
    try dsimp only [State.quiet, State.wf]
    decide +kernel⟩,
   ⟨running, 262, by
    try dsimp only [State.quiet, State.wf]
    decide +kernel⟩,
   ⟨(running |> stDip), 531, by
    try dsimp only [State.quiet, State.wf]
    decide +kernel⟩,
   ⟨(running |> stPortM1 |> stLane0e), 0, by
    try dsimp only [State.quiet, State.wf]
    decide +kernel⟩,
   ⟨(running |> stOffgen), 531, by
    try dsimp only [State.quiet, State.wf]
    decide +kernel⟩,
   ⟨(running |> stLane0), 0, by
    try dsimp only [State.quiet, State.wf]
    decide +kernel⟩,
   ⟨(running |> stDip), 0, by
    try dsimp only [State.quiet, State.wf]
    decide +kernel⟩,
   ⟨running, 262, 0x01000008#32, by
    try dsimp only [State.quiet, State.wf]
    decide +kernel⟩,
   ⟨(running |> stRetired0), 0, 0x00000007#32, by
    try dsimp only [State.quiet, State.wf]
    decide +kernel⟩,
   ⟨(running |> stLaneLoop), 0, 0xffffffff#32, by
    try dsimp only [State.quiet, State.wf]
    decide +kernel⟩,
   ⟨(running |> stReach), 531, 0x7c80d884#32, by
    try dsimp only [State.quiet, State.wf]
    decide +kernel⟩,
   ⟨(running |> stLane0), 0, 0xffffffff#32, by
    try dsimp only [State.quiet, State.wf]
    decide +kernel⟩,
   ⟨running, 262, by
    try dsimp only [State.quiet, State.wf]
    decide +kernel⟩,
   ⟨(running |> stLane0scan), 0, by
    try dsimp only [State.quiet, State.wf]
    decide +kernel⟩,
   ⟨running, 0, 0x0080010c#32, by
    try dsimp only [State.quiet, State.wf]
    decide +kernel⟩,
   ⟨running, 262, 0x01000008#32, by
    try dsimp only [State.quiet, State.wf]
    decide +kernel⟩,
   ⟨running, 262, by
    try dsimp only [State.quiet, State.wf]
    decide +kernel⟩,
   ⟨(running |> stLane0 |> setReg (Reg.LANE_CFG 0) 0x20), 0, by
    try dsimp only [State.quiet, State.wf]
    decide +kernel⟩,
   ⟨running, 262, by
    try dsimp only [State.quiet, State.wf]
    decide +kernel⟩,
   ⟨(running |> stLane0prbs), 0, by
    try dsimp only [State.quiet, State.wf]
    decide +kernel⟩⟩

theorem witness_LaneFaultsAndRetirement :
    (∃ (s : State) (l : Fin 532),
    s.quiet ∧
    s.wf ∧
    let x := lane l.val s
    (hasTx l.val = false ∨ x.st = .active ∨ x.st = .off))
    ∧ (∃ (s : State) (l : Fin 532),
    s.quiet ∧
    s.wf ∧
    let x := lane l.val s
    hasTx l.val = true ∧
    x.st ≠ .active ∧
    x.st ≠ .off ∧
    x.isOpen = false)
    ∧ (∃ (s : State) (l : Fin 532),
    s.quiet ∧
    s.wf ∧
    let x := lane l.val s
    (hasTx l.val = false ∨ x.st = .off ∨ x.short = true))
    ∧ (∃ (s : State) (l : Fin 532),
    s.quiet ∧
    s.wf ∧
    let x := lane l.val s
    hasTx l.val = true ∧
    x.st ≠ .off ∧
    x.short = false)
    ∧ (∃ (s : State) (l : Fin 532),
    s.quiet ∧
    s.wf ∧
    judge (Reg.LANE_RETIRED (l.val / 32)) s = .perform ∧
    laneRetired l.val s = false)
    ∧ (∃ (s : State) (l : Fin 532),
    s.quiet ∧
    s.wf ∧
    let e := 8 + l.val / 32
    s.keep.failedDie = none ∧
    s.keep.failedUnits = [] ∧
    (keepEntry e s).wear + 1 < 500000000000 ∧
    laneRetired l.val s = false)
    ∧ (∃ (s : State) (l : Fin 532),
    s.quiet ∧
    s.wf ∧
    let e := 8 + l.val / 32
    s.keep.failedDie = none ∧
    s.keep.failedUnits = [] ∧
    (keepEntry e s).wear + 1 < 500000000000 ∧
    judge (Reg.LANE_RETIRED (l.val / 32)) s = .perform ∧
    laneRetired l.val s = true) :=
  ⟨⟨running, 262, by
    try dsimp only [State.quiet, State.wf]
    decide +kernel⟩,
   ⟨(running |> stLane0t), 0, by
    try dsimp only [State.quiet, State.wf]
    decide +kernel⟩,
   ⟨running, 262, by
    try dsimp only [State.quiet, State.wf]
    decide +kernel⟩,
   ⟨(running |> stLane0), 0, by
    try dsimp only [State.quiet, State.wf]
    decide +kernel⟩,
   ⟨running, 262, by
    try dsimp only [State.quiet, State.wf]
    decide +kernel⟩,
   ⟨running, 262, by
    try dsimp only [State.quiet, State.wf]
    decide +kernel⟩,
   ⟨(running |> stRetired0), 0, by
    try dsimp only [State.quiet, State.wf]
    decide +kernel⟩⟩

theorem witness_TimeIsWrittenByItsOwner :
    (∃ (src : Source) (s : State),
    s.quiet ∧
    s.wf ∧
    judge Reg.TIME_INC_HI s = .perform ∧
    ownsTime src s = false)
    ∧ (∃ (src : Source) (v : Word) (s : State),
    s.quiet ∧
    s.wf ∧
    let inc := incOf v (reg Reg.TIME_INC_LO s)
    judge Reg.TIME_INC_HI s = .perform ∧
    ownsTime src s = true ∧
    incInRange inc = false)
    ∧ (∃ (src : Source) (v : Word) (s : State),
    s.quiet ∧
    s.wf ∧
    let inc := incOf v (reg Reg.TIME_INC_LO s)
    judge Reg.TIME_INC_HI s = .perform ∧
    ownsTime src s = true ∧
    incInRange inc = true)
    ∧ (∃ (s : State),
    s.quiet ∧
    s.wf ∧
    judge Reg.TIME_CTRL s = .perform)
    ∧ (∃ (src : Source) (s : State),
    s.quiet ∧
    s.wf ∧
    judge Reg.TIME_ADJ_NS s = .perform ∧
    ownsTime src s = false)
    ∧ (∃ (src : Source) (v : Word) (s : State),
    s.quiet ∧
    s.wf ∧
    let ps := (signed 32 (reg Reg.TIME_ADJ_SEC s).toNat * 10 ^ 9 + signed 32 v.toNat) * 1000
    let small := (ps.natAbs : Int) ≤ (reg Reg.TIME_STEP_NS s).toNat * 1000
    judge Reg.TIME_ADJ_NS s = .perform ∧
    ownsTime src s = true ∧
    0 ≤ movedTime ps s ∧
    (s.time.valid = false ∨ small))
    ∧ (∃ (src : Source) (v : Word) (s : State),
    s.quiet ∧
    s.wf ∧
    let ps := (signed 32 (reg Reg.TIME_ADJ_SEC s).toNat * 10 ^ 9 + signed 32 v.toNat) * 1000
    let small := (ps.natAbs : Int) ≤ (reg Reg.TIME_STEP_NS s).toNat * 1000
    judge Reg.TIME_ADJ_NS s = .perform ∧
    ownsTime src s = true ∧
    0 ≤ movedTime ps s ∧
    s.time.valid = true ∧
    ¬ small ∧
    stepOnce s = true ∧
    s.keep.failedDie = none ∧
    s.keep.failedUnits = [] ∧
    (keepEntry 2 s).wear + 1 < 500000000000)
    ∧ (∃ (src : Source) (v : Word) (s : State),
    s.quiet ∧
    s.wf ∧
    let ps := (signed 32 (reg Reg.TIME_ADJ_SEC s).toNat * 10 ^ 9 + signed 32 v.toNat) * 1000
    let small := (ps.natAbs : Int) ≤ (reg Reg.TIME_STEP_NS s).toNat * 1000
    judge Reg.TIME_ADJ_NS s = .perform ∧
    ownsTime src s = true ∧
    (movedTime ps s < 0 ∨ s.time.valid = true ∧ ¬ small ∧ stepOnce s = false))
    ∧ (∃ (s : State),
    s.quiet ∧
    s.wf ∧
    judge Reg.TIME_NOW_NS s = .perform) :=
  ⟨⟨Sys2Proof.Source.host, running, by
    try dsimp only [State.quiet, State.wf]
    decide +kernel⟩,
   ⟨Sys2Proof.Source.sup, 0x01000008#32, running, by
    try dsimp only [State.quiet, State.wf]
    decide +kernel⟩,
   ⟨Sys2Proof.Source.sup, 0x05c53d00#32, (running |> stServing), by
    try dsimp only [State.quiet, State.wf]
    decide +kernel⟩,
   ⟨running, by
    try dsimp only [State.quiet, State.wf]
    decide +kernel⟩,
   ⟨Sys2Proof.Source.host, running, by
    try dsimp only [State.quiet, State.wf]
    decide +kernel⟩,
   ⟨Sys2Proof.Source.sup, 0x01000008#32, running, by
    try dsimp only [State.quiet, State.wf]
    decide +kernel⟩,
   ⟨.sup, 1001, (running |> stTvalid |> stStepNs |> stStepOnce), by
    try dsimp only [State.quiet, State.wf]
    decide +kernel⟩,
   ⟨Sys2Proof.Source.sup, 0xb5facec0#32, (running |> stDom17wak), by
    try dsimp only [State.quiet, State.wf]
    decide +kernel⟩,
   ⟨running, by
    try dsimp only [State.quiet, State.wf]
    decide +kernel⟩⟩

theorem witness_TimeSourcesAreMeasured :
    (∃ (s : State),
    s.quiet ∧
    s.wf ∧
    let lost := s.time.sel ≠ 0 ∧ firstSource (activeSide s) s = 0
    ¬ lost)
    ∧ (∃ (s : State),
    s.quiet ∧
    s.wf ∧
    let lost := s.time.sel ≠ 0 ∧ firstSource (activeSide s) s = 0
    lost)
    ∧ (∃ (l : Fin 512) (s : State),
    s.quiet ∧
    s.wf ∧
    (port l.val s).link = false)
    ∧ (∃ (l : Fin 512) (s : State),
    s.quiet ∧
    s.wf ∧
    (port l.val s).link = true ∧
    inDip s = true)
    ∧ (∃ (l : Fin 512) (m : PtpMessage) (s : State),
    s.quiet ∧
    s.wf ∧
    let up := (port l.val s).link = true ∧ inDip s = false
    let heard := rbit (Reg.TIME_PTP_PORT l.val) 31 s = true ∧ m.domain.toNat = rfld Reg.TIME_PTP_CFG 31 24 s
    up ∧
    ¬ heard)
    ∧ (∃ l : Fin 512, ∃ m : PtpMessage, ∃ s : State, ∃ d,
    s.quiet ∧
    s.wf ∧
    let p := ptpPort l.val s
    let up := (port l.val s).link = true ∧ inDip s = false
    let heard := rbit (Reg.TIME_PTP_PORT l.val) 31 s = true ∧ m.domain.toNat = rfld Reg.TIME_PTP_CFG 31 24 s
    up ∧
    heard ∧
    m.kind = .announce d ∧
    p.foreign = [])
    ∧ (∃ (l : Fin 512) (m : PtpMessage) (s : State),
    s.quiet ∧
    s.wf ∧
    let up := (port l.val s).link = true ∧ inDip s = false
    let heard := rbit (Reg.TIME_PTP_PORT l.val) 31 s = true ∧ m.domain.toNat = rfld Reg.TIME_PTP_CFG 31 24 s
    up ∧
    heard ∧
    m.kind = .sync ∧
    fromParent l.val m s = true)
    ∧ (∃ (l : Fin 512) (m : PtpMessage) (s : State),
    s.quiet ∧
    s.wf ∧
    let up := (port l.val s).link = true ∧ inDip s = false
    let heard := rbit (Reg.TIME_PTP_PORT l.val) 31 s = true ∧ m.domain.toNat = rfld Reg.TIME_PTP_CFG 31 24 s
    up ∧
    heard ∧
    fromParent l.val m s = false ∧
    (m.kind = .sync ∨ (∃ o, m.kind = .followUp o) ∨ (∃ r a, m.kind = .delayResp r a)))
    ∧ (∃ l : Fin 512, ∃ m : PtpMessage, ∃ s : State, ∃ o, ∃ b,
    s.quiet ∧
    s.wf ∧
    let p := ptpPort l.val s
    let up := (port l.val s).link = true ∧ inDip s = false
    let heard := rbit (Reg.TIME_PTP_PORT l.val) 31 s = true ∧ m.domain.toNat = rfld Reg.TIME_PTP_CFG 31 24 s
    up ∧
    heard ∧
    m.kind = .followUp o ∧
    fromParent l.val m s = true ∧
    p.syncSeq = m.seq.toNat ∧
    p.t2 = some b ∧
    p.t1 = none)
    ∧ (∃ l : Fin 512, ∃ m : PtpMessage, ∃ s : State, ∃ r, ∃ a, ∃ x, ∃ y, ∃ z,
    s.quiet ∧
    s.wf ∧
    let p := ptpPort l.val s
    let p2p := rbit (Reg.TIME_PTP_PORT l.val) 29 s
    let up := (port l.val s).link = true ∧ inDip s = false
    let heard := rbit (Reg.TIME_PTP_PORT l.val) 31 s = true ∧ m.domain.toNat = rfld Reg.TIME_PTP_CFG 31 24 s
    up ∧
    heard ∧
    m.kind = .delayResp r a ∧
    fromParent l.val m s = true ∧
    p2p = false ∧
    answersMine l.val m a s = true ∧
    p.t1 = some x ∧
    p.t2 = some y ∧
    p.t3 = some z)
    ∧ (∃ (l : Fin 512) (m : PtpMessage) (s : State),
    s.quiet ∧
    s.wf ∧
    let st := ptpState l.val s
    let p2p := rbit (Reg.TIME_PTP_PORT l.val) 29 s
    let up := (port l.val s).link = true ∧ inDip s = false
    let heard := rbit (Reg.TIME_PTP_PORT l.val) 31 s = true ∧ m.domain.toNat = rfld Reg.TIME_PTP_CFG 31 24 s
    up ∧
    heard ∧
    m.kind = .delayReq ∧
    st = 2 ∧
    p2p = false)
    ∧ (∃ (l : Fin 512) (m : PtpMessage) (s : State),
    s.quiet ∧
    s.wf ∧
    let st := ptpState l.val s
    let p2p := rbit (Reg.TIME_PTP_PORT l.val) 29 s
    let up := (port l.val s).link = true ∧ inDip s = false
    let heard := rbit (Reg.TIME_PTP_PORT l.val) 31 s = true ∧ m.domain.toNat = rfld Reg.TIME_PTP_CFG 31 24 s
    up ∧
    heard ∧
    m.kind = .delayReq ∧
    (st ≠ 2 ∨ p2p = true))
    ∧ (∃ (l : Fin 512) (m : PtpMessage) (s : State),
    s.quiet ∧
    s.wf ∧
    let p2p := rbit (Reg.TIME_PTP_PORT l.val) 29 s
    let up := (port l.val s).link = true ∧ inDip s = false
    let heard := rbit (Reg.TIME_PTP_PORT l.val) 31 s = true ∧ m.domain.toNat = rfld Reg.TIME_PTP_CFG 31 24 s
    let wire := portLoop l.val s = 0
    up ∧
    heard ∧
    m.kind = .pdelayReq ∧
    p2p = true ∧
    wire ∧
    supMaySend l.val s = true)
    ∧ (∃ (l : Fin 512) (m : PtpMessage) (s : State),
    s.quiet ∧
    s.wf ∧
    let up := (port l.val s).link = true ∧ inDip s = false
    let heard := rbit (Reg.TIME_PTP_PORT l.val) 31 s = true ∧ m.domain.toNat = rfld Reg.TIME_PTP_CFG 31 24 s
    up ∧
    heard ∧
    m.kind = .other)
    ∧ (∃ (l : Fin 512) (s : State),
    s.quiet ∧
    s.wf ∧
    let st := ptpState l.val s
    st = 2 ∧
    supMaySend l.val s = true)
    ∧ (∃ (s : State),
    s.quiet ∧
    s.wf ∧
    let e := toWholeSecond (ppsStamp s)
    let ok := e.natAbs ≤ 10 ^ 8 ∧ ∀ c, s.time.ppsLast = some c → 9 * 10 ^ 8 ≤ s.cycle - c
    ok)
    ∧ (∃ (s : State),
    s.quiet ∧
    s.wf ∧
    let e := toWholeSecond (ppsStamp s)
    let ok := e.natAbs ≤ 10 ^ 8 ∧ ∀ c, s.time.ppsLast = some c → 9 * 10 ^ 8 ≤ s.cycle - c
    ¬ ok)
    ∧ (∃ (s : State),
    s.quiet ∧
    s.wf ∧
    rbit Reg.GEN_LAND_SHORT 5 s = false ∧
    rbit Reg.TIME_CTRL 10 s = true ∧
    domState 18 s = .on ∧
    (∀ k, s.time.ppsOutSecond = some k → k < (ppsOutSecondNow s).toNat))
    ∧ (∃ (s : State),
    s.quiet ∧
    s.wf ∧
    rbit Reg.GEN_LAND_SHORT 5 s = false ∧
    s.time.ppsOutHigh = true)
    ∧ (∃ (s : State),
    s.quiet ∧
    s.wf ∧
    (rbit Reg.TIME_CTRL 10 s = false ∨ domState 18 s ≠ .on)) :=
  ⟨⟨running, by
    try dsimp only [State.quiet, State.wf]
    decide +kernel⟩,
   ⟨(running |> stSel1), by
    try dsimp only [State.quiet, State.wf]
    decide +kernel⟩,
   ⟨511, running, by
    try dsimp only [State.quiet, State.wf]
    decide +kernel⟩,
   ⟨0, (running |> stPortUp |> stDip), by
    try dsimp only [State.quiet, State.wf]
    decide +kernel⟩,
   ⟨0, ({ domain := 7, seq := 7, sender := 0x55, senderPort := 1, correction := 0, kind := .sync }), (running |> stPortUp), by
    try dsimp only [State.quiet, State.wf]
    decide +kernel⟩,
   ⟨0, ({ domain := 248, seq := 7, sender := 0x55, senderPort := 1, correction := 0, kind := (.announce ds0) }), (running |> stPortUp |> stPtpSlave), ds0, by
    try dsimp only [State.quiet, State.wf]
    decide +kernel⟩,
   ⟨0, (fromParent0 .sync), following, by
    refine ⟨by dsimp only [State.quiet]; decide +kernel, by dsimp only [State.wf]; decide +kernel, ?_⟩
    dsimp only
    exact ⟨by decide +kernel, by decide +kernel, rfl, from_parent_following _⟩⟩,
   ⟨0, ({ domain := 248, seq := 7, sender := 0x55, senderPort := 1, correction := 0, kind := .sync }), (running |> stPortUp |> stPtpMaster), by
    refine ⟨by dsimp only [State.quiet]; decide +kernel, by dsimp only [State.wf]; decide +kernel, ?_⟩
    dsimp only
    exact ⟨by decide +kernel, by decide +kernel, by decide +kernel, Or.inl rfl⟩⟩,
   ⟨0, (fromParent0 (.followUp 0)), following, 0, 55, by
    refine ⟨by dsimp only [State.quiet]; decide +kernel, by dsimp only [State.wf]; decide +kernel, ?_⟩
    dsimp only
    exact ⟨by decide +kernel, by decide +kernel, rfl, from_parent_following _, by decide +kernel, by decide +kernel, by decide +kernel⟩⟩,
   ⟨0, (fromParent0 (.delayResp 0 ⟨Config.clockIdentity, 1⟩)), followingAll, 0, ⟨Config.clockIdentity, 1⟩, 1, 55, 3, by
    refine ⟨by dsimp only [State.quiet]; decide +kernel, by dsimp only [State.wf]; decide +kernel, ?_⟩
    dsimp only
    exact ⟨by decide +kernel, by decide +kernel, rfl, from_parent_followingAll _, by decide +kernel, answers_followingAll, by decide +kernel, by decide +kernel, by decide +kernel⟩⟩,
   ⟨0, ({ domain := 248, seq := 7, sender := 0x55, senderPort := 1, correction := 0, kind := .delayReq }), (running |> stPortUp |> stPtpMaster), by
    try dsimp only [State.quiet, State.wf]
    decide +kernel⟩,
   ⟨0, ({ domain := 248, seq := 7, sender := 0x55, senderPort := 1, correction := 0, kind := .delayReq }), (running |> stPortUp |> stPtpP2p), by
    try dsimp only [State.quiet, State.wf]
    decide +kernel⟩,
   ⟨0, ({ domain := 248, seq := 7, sender := 0x55, senderPort := 1, correction := 0, kind := .pdelayReq }), (running |> stPortUp |> stPtpP2p), by
    try dsimp only [State.quiet, State.wf]
    decide +kernel⟩,
   ⟨0, ({ domain := 248, seq := 7, sender := 0x55, senderPort := 1, correction := 0, kind := .other }), (running |> stPortUp |> stPtpMaster), by
    try dsimp only [State.quiet, State.wf]
    decide +kernel⟩,
   ⟨0, (running |> stPortUp |> stPtpMaster), by
    try dsimp only [State.quiet, State.wf]
    decide +kernel⟩,
   ⟨running, by
    try dsimp only [State.quiet, State.wf]
    decide +kernel⟩,
   ⟨(running |> setTimeNow 500000000), by
    try dsimp only [State.quiet, State.wf]
    decide +kernel⟩,
   ⟨running, by
    try dsimp only [State.quiet, State.wf]
    decide +kernel⟩,
   ⟨(running |> stPpsHigh), by
    try dsimp only [State.quiet, State.wf]
    decide +kernel⟩,
   ⟨(running |> stOffgen), by
    try dsimp only [State.quiet, State.wf]
    decide +kernel⟩⟩

theorem witness_CanaryRunsAreMadeAndJudged :
    (∃ (s : State),
    s.quiet ∧
    s.wf ∧
    let due := rbit Reg.PROT_CTRL 3 s = true ∧ s.prot.canary = none ∧ s.prot.switching = none
    ¬ due)
    ∧ (∃ (s : State),
    s.quiet ∧
    s.wf ∧
    let due := rbit Reg.PROT_CTRL 3 s = true ∧ s.prot.canary = none ∧ s.prot.switching = none
    due ∧
    canarySkips s = true ∧
    s.prot.retry = true)
    ∧ (∃ (s : State),
    s.quiet ∧
    s.wf ∧
    let due := rbit Reg.PROT_CTRL 3 s = true ∧ s.prot.canary = none ∧ s.prot.switching = none
    due ∧
    canarySkips s = true ∧
    s.prot.retry = false)
    ∧ (∃ (s : State),
    s.quiet ∧
    s.wf ∧
    let due := rbit Reg.PROT_CTRL 3 s = true ∧ s.prot.canary = none ∧ s.prot.switching = none
    due ∧
    canarySkips s = false)
    ∧ (∃ (s : State),
    s.quiet ∧
    s.wf ∧
    s.prot.canary = none)
    ∧ (∃ s : State, ∃ c,
    s.quiet ∧
    s.wf ∧
    s.prot.canary = some c) :=
  ⟨⟨(running |> stCanRun), by
    try dsimp only [State.quiet, State.wf]
    decide +kernel⟩,
   ⟨(running |> stCanEn |> stCanRetry |> (fun s => { s with sched := { s.sched with phi := 0 } })), by
    try dsimp only [State.quiet, State.wf]
    decide +kernel⟩,
   ⟨(running |> stDip), by
    try dsimp only [State.quiet, State.wf]
    decide +kernel⟩,
   ⟨running, by
    try dsimp only [State.quiet, State.wf]
    decide +kernel⟩,
   ⟨running, by
    try dsimp only [State.quiet, State.wf]
    decide +kernel⟩,
   ⟨(running |> stCanRun), 1, by
    try dsimp only [State.quiet, State.wf]
    decide +kernel⟩⟩

theorem witness_ProtectionRequestsSwitchSides :
    (∃ (s : State),
    s.quiet ∧
    s.wf ∧
    domState (lineDomain (activeSide s)) s = .on)
    ∧ (∃ (s : State),
    s.quiet ∧
    s.wf ∧
    domState (lineDomain (activeSide s)) s ≠ .on)
    ∧ (∃ (s : State),
    s.quiet ∧
    s.wf ∧
    anySeamFailed s = false)
    ∧ (∃ (s : State),
    s.quiet ∧
    s.wf ∧
    anySeamFailed s = true)
    ∧ (∃ (s : State),
    s.quiet ∧
    s.wf ∧
    let p := s.prot
    judge Reg.PROT_CMD s = .perform ∧
    p.req = 1)
    ∧ (∃ (s : State),
    s.quiet ∧
    s.wf ∧
    let p := s.prot
    judge Reg.PROT_CMD s = .perform ∧
    p.canary = none ∧
    p.req ≠ 1)
    ∧ (∃ (s : State),
    s.quiet ∧
    s.wf ∧
    let p := s.prot
    (p.decided = none ∨ p.switching.isSome = true ∨ inDip s = true))
    ∧ (∃ s : State, ∃ req,
    s.quiet ∧
    s.wf ∧
    let p := s.prot
    p.decided = some req ∧
    p.switching = none ∧
    inDip s = false)
    ∧ (∃ s : State, ∃ r,
    s.quiet ∧
    s.wf ∧
    let p := s.prot
    p.switching = some r ∧
    (lowestSync (activeSide s) s).isSome = true)
    ∧ (∃ s : State, ∃ r,
    s.quiet ∧
    s.wf ∧
    let p := s.prot
    p.switching = some r ∧
    (lowestSync (activeSide s) s).isSome = false)
    ∧ (∃ (s : State),
    s.quiet ∧
    s.wf ∧
    let p := s.prot
    let wtr := wtrRuns s = true ∧ p.wtrStart.isSome = true ∧ 2 ≤ p.wtrPasses
    wtr)
    ∧ (∃ (s : State),
    s.quiet ∧
    s.wf ∧
    let p := s.prot
    let wtr := wtrRuns s = true ∧ p.wtrStart.isSome = true ∧ 2 ≤ p.wtrPasses
    ¬ wtr) :=
  ⟨⟨running, by
    try dsimp only [State.quiet, State.wf]
    decide +kernel⟩,
   ⟨(running |> stDom15off), by
    try dsimp only [State.quiet, State.wf]
    decide +kernel⟩,
   ⟨running, by
    try dsimp only [State.quiet, State.wf]
    decide +kernel⟩,
   ⟨(running |> stEligFail), by
    try dsimp only [State.quiet, State.wf]
    decide +kernel⟩,
   ⟨(running |> stLockReq), by
    try dsimp only [State.quiet, State.wf]
    decide +kernel⟩,
   ⟨running, by
    try dsimp only [State.quiet, State.wf]
    decide +kernel⟩,
   ⟨running, by
    try dsimp only [State.quiet, State.wf]
    decide +kernel⟩,
   ⟨(running |> stDecided), 3, by
    try dsimp only [State.quiet, State.wf]
    decide +kernel⟩,
   ⟨(running |> stSwi |> stSync0), ⟨3, 90, 4000000000⟩, by
    try dsimp only [State.quiet, State.wf]
    decide +kernel⟩,
   ⟨(running |> stSwi), { req := 3, tick := 0x00000000005a#48, cycle := 4000000000 }, by
    try dsimp only [State.quiet, State.wf]
    decide +kernel⟩,
   ⟨(running |> stWtr), by
    try dsimp only [State.quiet, State.wf]
    decide +kernel⟩,
   ⟨running, by
    try dsimp only [State.quiet, State.wf]
    decide +kernel⟩⟩

theorem witness_KeysAreCommittedDerivedAndErased :
    (∃ (s : State),
    s.quiet ∧
    s.wf ∧
    judge Reg.CIPH_OPROOT_CMD s = .perform)
    ∧ (∃ (s : State),
    s.quiet ∧
    s.wf ∧
    s.ciph.jobs = [])
    ∧ (∃ s : State, ∃ j, ∃ rest, ∃ k,
    s.quiet ∧
    s.wf ∧
    s.ciph.jobs = j :: rest ∧
    jobKey j s = some k ∧
    k.slot = true)
    ∧ (∃ (s : State),
    s.quiet ∧
    s.wf ∧
    twf (fun _Z => KeyDir.reset) s.ciph.dirs = true)
    ∧ (∃ (s : State),
    s.quiet ∧
    s.wf ∧
    judge Reg.CIPH_UNWRAP_CMD s = .perform ∧
    twf (fun _Z => ([] : Bytes)) s.keep.loaded = true)
    ∧ (∃ (s : State),
    s.quiet ∧
    s.wf ∧
    judge Reg.CIPH_STORE_CMD s = .perform ∧
    let refused := s.tally.scanning = true ∨
      ((usedSlotsOf s).any fun x => inHand x.2.st && x.2.epoch != journalEpoch s) = true
    refused)
    ∧ (∃ (s : State),
    s.quiet ∧
    s.wf ∧
    judge Reg.CIPH_STORE_CMD s = .perform ∧
    let refused := s.tally.scanning = true ∨
      ((usedSlotsOf s).any fun x => inHand x.2.st && x.2.epoch != journalEpoch s) = true
    ¬ refused ∧
    s.keep.failedDie = none ∧
    s.keep.failedUnits = [] ∧
    (keepEntry 33 s).wear + 1 < 500000000000) :=
  ⟨⟨running, by
    try dsimp only [State.quiet, State.wf]
    decide +kernel⟩,
   ⟨running, by
    try dsimp only [State.quiet, State.wf]
    decide +kernel⟩,
   ⟨(running |> stJob2), ⟨0, false, true, false⟩, [], { LineKey.reset with slot := true, epoch := 4 }, by
    try dsimp only [State.quiet, State.wf]
    decide +kernel⟩,
   ⟨running, by
    try dsimp only [State.quiet, State.wf]
    decide +kernel⟩,
   ⟨running, by
    try dsimp only [State.quiet, State.wf]
    decide +kernel⟩,
   ⟨(running |> stScanning), by
    try dsimp only [State.quiet, State.wf]
    decide +kernel⟩,
   ⟨running, by
    try dsimp only [State.quiet, State.wf]
    decide +kernel⟩⟩

theorem witness_KeepIsMountedScrubbedAndRemapped :
    (∃ (die : Fin 2) (s : State),
    s.quiet ∧
    s.wf ∧
    s.keep.mounted = true ∧
    s.keep.failedDie ≠ some die)
    ∧ (∃ (die : Fin 2) (s : State),
    s.quiet ∧
    s.wf ∧
    s.keep.failedDie = some die)
    ∧ (∃ (die : Fin 2) (s : State),
    s.quiet ∧
    s.wf ∧
    s.keep.failedDie ≠ some die ∧
    spareLeft die.val s = 0)
    ∧ (∃ (die : Fin 2) (s : State),
    s.quiet ∧
    s.wf ∧
    s.keep.failedDie ≠ some die ∧
    0 < spareLeft die.val s ∧
    spareLeft die.val s ≤ 8000)
    ∧ (∃ (code : BitVec 16) (payload : Bytes) (s : State),
    s.quiet ∧
    s.wf ∧
    let len := recordLength payload.length
    payload.length ≤ 240 ∧
    s.keep.mounted = true ∧
    bucketAllows code len (bucketNow s.cycle s.recd) = true)
    ∧ (∃ (code : BitVec 16) (payload : Bytes) (s : State),
    s.quiet ∧
    s.wf ∧
    let len := recordLength payload.length
    payload.length ≤ 240 ∧
    s.keep.mounted = true ∧
    bucketAllows code len (bucketNow s.cycle s.recd) = false)
    ∧ (∃ (payload : Bytes) (s : State),
    s.quiet ∧
    s.wf ∧
    let len := recordLength payload.length
    payload.length ≤ 240 ∧
    s.keep.mounted = false ∧
    waitingBytes s.recd + len ≤ 4096) :=
  ⟨⟨0, running, by
    try dsimp only [State.quiet, State.wf]
    decide +kernel⟩,
   ⟨0, (running |> stKeepFail), by
    try dsimp only [State.quiet, State.wf]
    decide +kernel⟩,
   ⟨0, (running |> stSpare0), by
    try dsimp only [State.quiet, State.wf]
    decide +kernel⟩,
   ⟨0, running, by
    try dsimp only [State.quiet, State.wf]
    decide +kernel⟩,
   ⟨0x0101, (List.replicate 240 0), running, by
    try dsimp only [State.quiet, State.wf]
    decide +kernel⟩,
   ⟨0x9180#16, [], (running |> stBucket0), by
    try dsimp only [State.quiet, State.wf]
    decide +kernel⟩,
   ⟨(List.replicate 240 0), (running |> stUnmounted), by
    try dsimp only [State.quiet, State.wf]
    decide +kernel⟩⟩

theorem witness_LadderFollowsTargetAndVotes :
    (∃ (s : State),
    s.quiet ∧
    s.wf ∧
    let k := s.pwr.target
    k ≤ s.pwr.ladder)
    ∧ (∃ (s : State),
    s.quiet ∧
    s.wf ∧
    let k := s.pwr.target
    s.pwr.ladder ≤ k)
    ∧ (∃ (s : State),
    s.quiet ∧
    s.wf ∧
    let r := refreshVotes s
    let k := s.pwr.target
    let o := orderEntry k r
    s.pwr.ladder < k ∧
    ladderMoving s = false ∧
    (s.pwr.firedamp = true ∨ refusalHolds o = false ∧ ¬ (k = 4 ∧ 85 < s.pwr.caseTemp) ∧ refusingDomains k o = []))
    ∧ (∃ (s : State),
    s.quiet ∧
    s.wf ∧
    let r := refreshVotes s
    let k := s.pwr.target
    let o := orderEntry k r
    s.pwr.ladder < k ∧
    ladderMoving s = false ∧
    s.pwr.firedamp = false ∧
    refusalHolds o = true)
    ∧ (∃ (s : State),
    s.quiet ∧
    s.wf ∧
    let r := refreshVotes s
    let k := s.pwr.target
    let o := orderEntry k r
    s.pwr.ladder < k ∧
    ladderMoving s = false ∧
    s.pwr.firedamp = false ∧
    refusalHolds o = false ∧
    (¬ (k = 4 ∧ 85 < s.pwr.caseTemp)) ∧
    refusingDomains k o ≠ [])
    ∧ (∃ (s : State),
    s.quiet ∧
    s.wf ∧
    let k := s.pwr.target
    k < s.pwr.ladder ∧
    ladderMoving s = false)
    ∧ (∃ (s : State) (d : Fin 23),
    s.quiet ∧
    s.wf ∧
    d.val ≠ 22 ∧
    s.boot.domActive.getLsbD d.val = false ∧
    domState d.val s = .waking)
    ∧ (∃ (s : State) (c : Int),
    s.quiet ∧
    s.wf ∧
    (¬ (s.pwr.ladder = 4 ∧ 85 < c)))
    ∧ (∃ (s : State) (c : Int),
    s.quiet ∧
    s.wf ∧
    s.pwr.ladder = 4 ∧
    85 < c)
    ∧ (∃ (s : State),
    s.quiet ∧
    s.wf ∧
    s.pwr.phiFullTicks < rfld Reg.PWR_GOV_HYST 15 0 s)
    ∧ (∃ (s : State),
    s.quiet ∧
    s.wf ∧
    rfld Reg.PWR_GOV_HYST 15 0 s ≤ s.pwr.phiFullTicks)
    ∧ (∃ (s : State) (first : List Int) (second : List Int),
    s.quiet ∧
    s.wf ∧
    first.length = 16 ∧
    second.length = 16 ∧
    (tripSensor first second = none ∨ s.pwr.firedamp = true))
    ∧ (∃ s : State, ∃ first : List Int, ∃ second : List Int, ∃ n,
    s.quiet ∧
    s.wf ∧
    first.length = 16 ∧
    second.length = 16 ∧
    tripSensor first second = some n ∧
    s.pwr.firedamp = false)
    ∧ (∃ (s : State) (highest : Int),
    s.quiet ∧
    s.wf ∧
    let tripped := s.pwr.firedamp = true ∧ highest < (rfld Reg.PWR_FIREDAMP 31 24 s : Int)
    ¬ tripped)
    ∧ (∃ (s : State) (highest : Int),
    s.quiet ∧
    s.wf ∧
    let tripped := s.pwr.firedamp = true ∧ highest < (rfld Reg.PWR_FIREDAMP 31 24 s : Int)
    tripped) :=
  ⟨⟨running, by
    try dsimp only [State.quiet, State.wf]
    decide +kernel⟩,
   ⟨running, by
    try dsimp only [State.quiet, State.wf]
    decide +kernel⟩,
   ⟨(running |> stTarget1), by
    try dsimp only [State.quiet, State.wf]
    decide +kernel⟩,
   ⟨refused, by
    try dsimp only [State.quiet, State.wf]
    decide +kernel⟩,
   ⟨(running |> stTarget3), by
    try dsimp only [State.quiet, State.wf]
    decide +kernel⟩,
   ⟨(running |> stLadder1), by
    try dsimp only [State.quiet, State.wf]
    decide +kernel⟩,
   ⟨(running |> stDom0wak), 0, by
    try dsimp only [State.quiet, State.wf]
    decide +kernel⟩,
   ⟨running, 500, by
    try dsimp only [State.quiet, State.wf]
    decide +kernel⟩,
   ⟨(running |> stLadder4), 250, by
    try dsimp only [State.quiet, State.wf]
    decide +kernel⟩,
   ⟨running, by
    try dsimp only [State.quiet, State.wf]
    decide +kernel⟩,
   ⟨(running |> stPhiFull), by
    try dsimp only [State.quiet, State.wf]
    decide +kernel⟩,
   ⟨running, (List.replicate 16 85), (List.replicate 16 85), by
    try dsimp only [State.quiet, State.wf]
    decide +kernel⟩,
   ⟨running, (List.replicate 16 150), (List.replicate 16 150), 0, by
    try dsimp only [State.quiet, State.wf]
    decide +kernel⟩,
   ⟨running, 500, by
    try dsimp only [State.quiet, State.wf]
    decide +kernel⟩,
   ⟨(running |> stFiredamp), 85, by
    try dsimp only [State.quiet, State.wf]
    decide +kernel⟩⟩

theorem witness_WakesAndVotesMoveDomains :
    (∃ (s : State),
    s.quiet ∧
    s.wf ∧
    let fires := fun (k : Nat) => rbit Reg.PWR_WAKE_CFG k s = true ∧ wakeActive k s.pwr.ladder = true
    fires 0)
    ∧ (∃ (s : State),
    s.quiet ∧
    s.wf ∧
    reg Reg.PWR_WAKE_TIMER s = 0)
    ∧ (∃ (s : State),
    s.quiet ∧
    s.wf ∧
    let fires := fun (k : Nat) => rbit Reg.PWR_WAKE_CFG k s = true ∧ wakeActive k s.pwr.ladder = true
    reg Reg.PWR_WAKE_TIMER s ≠ 0 ∧
    fires 1)
    ∧ (∃ (s : State) (k : Fin 8),
    s.quiet ∧
    s.wf ∧
    rbit Reg.PWR_WAKE_CFG k.val s = false)
    ∧ (∃ (s : State) (k : Fin 8),
    s.quiet ∧
    s.wf ∧
    let fires := fun (k : Nat) => rbit Reg.PWR_WAKE_CFG k s = true ∧ wakeActive k s.pwr.ladder = true
    fires k.val)
    ∧ (∃ (addr : Word) (d : Fin 23) (s : State),
    s.quiet ∧
    s.wf ∧
    (¬ (aligned addr 4 = true ∧ regDomain addr.toNat = d.val ∧ domState d.val s ≠ .on)))
    ∧ (∃ (addr : Word) (d : Fin 23) (s : State),
    s.quiet ∧
    s.wf ∧
    aligned addr 4 = true ∧
    regDomain addr.toNat = d.val ∧
    judge addr.toNat s = .stall ∧
    s.pwr.entry = none)
    ∧ (∃ (d : Fin 23) (x : StalledAccess) (s : State),
    s.quiet ∧
    s.wf ∧
    domState d.val s = .waking ∧
    x.domain = d.val ∧
    x.tag = none ∧
    x.write = none)
    ∧ (∃ (d : Fin 23) (s : State),
    s.quiet ∧
    s.wf ∧
    s.pwr.ladder ≤ 1 ∧
    d.val ≠ 22 ∧
    domState d.val s ≠ .off ∧
    domState d.val s ≠ .waking ∧
    lowestVoter d.val s = none)
    ∧ (∃ d : Fin 23, ∃ s : State, ∃ c,
    s.quiet ∧
    s.wf ∧
    s.pwr.ladder ≤ 1 ∧
    d.val ≠ 22 ∧
    domState d.val s ≠ .off ∧
    domState d.val s ≠ .waking ∧
    lowestVoter d.val s = some c)
    ∧ (∃ (s : State),
    s.quiet ∧
    s.wf ∧
    judge (Reg.PWR_VOTE 0) s = .perform) :=
  ⟨⟨(running |> stLadder1), by
    try dsimp only [State.quiet, State.wf]
    decide +kernel⟩,
   ⟨running, by
    try dsimp only [State.quiet, State.wf]
    decide +kernel⟩,
   ⟨(running |> stWakeCfg |> stWakeTimer |> (fun s => { s with pwr := { s.pwr with ladder := 2 } })), by
    try dsimp only [State.quiet, State.wf]
    decide +kernel⟩,
   ⟨(running |> setReg Reg.PWR_WAKE_CFG 0x7F), 7, by
    try dsimp only [State.quiet, State.wf]
    decide +kernel⟩,
   ⟨(running |> stLadder1), 7, by
    try dsimp only [State.quiet, State.wf]
    decide +kernel⟩,
   ⟨0x01000008#32, 0, running, by
    try dsimp only [State.quiet, State.wf]
    decide +kernel⟩,
   ⟨(word (Reg.CLS_RULE_CMD 0)), 0, (running |> setDom 0 .ret), by
    try dsimp only [State.quiet, State.wf]
    decide +kernel⟩,
   ⟨0, { src := .host, addr := 0x500000, write := none, domain := 0, tag := none }, (running |> stDom0wak), by
    try dsimp only [State.quiet, State.wf]
    decide +kernel⟩,
   ⟨20, running, by
    try dsimp only [State.quiet, State.wf]
    decide +kernel⟩,
   ⟨10, (running |> stVotes0), 1, by
    try dsimp only [State.quiet, State.wf]
    decide +kernel⟩,
   ⟨running, by
    try dsimp only [State.quiet, State.wf]
    decide +kernel⟩⟩

theorem witness_RunsHoursAndFaultsAreCounted :
    (∃ (asked : Bool) (s : State),
    s.quiet ∧
    s.wf ∧
    let a := s.assay
    let due := a.running = false ∧ (asked = true ∨ rbit Reg.ASSAY_CTRL 31 s = true)
    ¬ due)
    ∧ (∃ (asked : Bool) (s : State),
    s.quiet ∧
    s.wf ∧
    let a := s.assay
    let due := a.running = false ∧ (asked = true ∨ rbit Reg.ASSAY_CTRL 31 s = true)
    let late := inDip s = true ∨ 2 ≤ s.pwr.ladder
    due ∧
    late)
    ∧ (∃ (asked : Bool) (s : State),
    s.quiet ∧
    s.wf ∧
    let a := s.assay
    let due := a.running = false ∧ (asked = true ∨ rbit Reg.ASSAY_CTRL 31 s = true)
    let late := inDip s = true ∨ 2 ≤ s.pwr.ladder
    due ∧
    ¬ late)
    ∧ (∃ (s : State),
    s.quiet ∧
    s.wf ∧
    let a := s.assay
    a.running = false)
    ∧ (∃ (s : State),
    s.quiet ∧
    s.wf ∧
    let a := s.assay
    a.running = true)
    ∧ (∃ (v : Int) (s : State),
    s.quiet ∧
    s.wf ∧
    let e := 4 + (if v ≤ 85 then 0 else if v ≤ 105 then 1 else if v ≤ 125 then 2 else 3)
    s.keep.failedDie = none ∧
    s.keep.failedUnits = [] ∧
    (keepEntry e s).wear + 1 < 500000000000)
    ∧ (∃ (src : FaultSource) (inst : BitVec 16) (s : State),
    s.quiet ∧
    s.wf ∧
    faultInstances src ≤ inst.toNat)
    ∧ (∃ (src : FaultSource) (inst : BitVec 16) (s : State),
    s.quiet ∧
    s.wf ∧
    inst.toNat < faultInstances src)
    ∧ (∃ (inst : BitVec 16) (s : State),
    s.quiet ∧
    s.wf ∧
    let a := s.assay
    inst.toNat < 7 ∧
    let w := tget noWindow a.windows (7 * 65536 + inst.toNat)
    let fresh := w.count = 0 ∨ windowCycles 7 s ≤ s.cycle - w.start
    let n := if fresh then 1 else w.count + 1
    n < effectiveThreshold 7 inst.toNat s)
    ∧ (∃ (inst : BitVec 16) (s : State),
    s.quiet ∧
    s.wf ∧
    let a := s.assay
    inst.toNat < 7 ∧
    let w := tget noWindow a.windows (7 * 65536 + inst.toNat)
    let fresh := w.count = 0 ∨ windowCycles 7 s ≤ s.cycle - w.start
    let n := if fresh then 1 else w.count + 1
    effectiveThreshold 7 inst.toNat s ≤ n)
    ∧ (∃ (bank : Fin 384) (s : State),
    s.quiet ∧
    s.wf ∧
    let a := s.assay
    let drained := a.draining.contains bank.val = true ∧ bankEmpty bank.val s = true
    ¬ drained)
    ∧ (∃ (bank : Fin 384) (s : State),
    s.quiet ∧
    s.wf ∧
    let a := s.assay
    let drained := a.draining.contains bank.val = true ∧ bankEmpty bank.val s = true
    drained) :=
  ⟨⟨true, (running |> stRunning), by
    try dsimp only [State.quiet, State.wf]
    decide +kernel⟩,
   ⟨false, (running |> stDip), by
    try dsimp only [State.quiet, State.wf]
    decide +kernel⟩,
   ⟨false, running, by
    try dsimp only [State.quiet, State.wf]
    decide +kernel⟩,
   ⟨running, by
    try dsimp only [State.quiet, State.wf]
    decide +kernel⟩,
   ⟨(running |> stRunning), by
    try dsimp only [State.quiet, State.wf]
    decide +kernel⟩,
   ⟨500, running, by
    try dsimp only [State.quiet, State.wf]
    decide +kernel⟩,
   ⟨Sys2Proof.FaultSource.seam, 0xb4d0#16, running, by
    try dsimp only [State.quiet, State.wf]
    decide +kernel⟩,
   ⟨Sys2Proof.FaultSource.sramUe, 0x0003#16, running, by
    try dsimp only [State.quiet, State.wf]
    decide +kernel⟩,
   ⟨0x0001#16, running, by
    try dsimp only [State.quiet, State.wf]
    decide +kernel⟩,
   ⟨0x0000#16, (running |> stWin7), by
    try dsimp only [State.quiet, State.wf]
    decide +kernel⟩,
   ⟨382, running, by
    try dsimp only [State.quiet, State.wf]
    decide +kernel⟩,
   ⟨0, (running |> stDrain), by
    try dsimp only [State.quiet, State.wf]
    decide +kernel⟩⟩

theorem witness_ChainFramesAreSentOnAndTaken :
    (∃ (s : State),
    s.quiet ∧
    s.wf ∧
    domState 20 s ≠ .on)
    ∧ (∃ (b : Bytes) (s : State),
    s.quiet ∧
    s.wf ∧
    domState 20 s = .on ∧
    chainParse b = none)
    ∧ (∃ port : Fin 2, ∃ b : Bytes, ∃ s : State, ∃ f,
    s.quiet ∧
    s.wf ∧
    let d := port.val
    domState 20 s = .on ∧
    chainParse b = some f ∧
    chainTypeOk f.type f.resp f.payload.length = true ∧
    chainUp d s = false)
    ∧ (∃ port : Fin 2, ∃ b : Bytes, ∃ s : State, ∃ f,
    s.quiet ∧
    s.wf ∧
    let d := port.val
    domState 20 s = .on ∧
    chainParse b = some f ∧
    chainTypeOk f.type f.resp f.payload.length = true ∧
    chainUp d s = true ∧
    f.type = 8)
    ∧ (∃ port : Fin 2, ∃ b : Bytes, ∃ s : State, ∃ f,
    s.quiet ∧
    s.wf ∧
    let d := port.val
    domState 20 s = .on ∧
    chainParse b = some f ∧
    chainTypeOk f.type f.resp f.payload.length = true ∧
    chainUp d s = true ∧
    f.type ≠ 8 ∧
    f.bcast = false ∧
    f.dst ≠ chainAddr s)
    ∧ (∃ (port : Fin 2) (s : State),
    s.quiet ∧
    s.wf ∧
    let d := port.val
    let may := domState 20 s = .on ∧ s.boot.refPresent.getLsbD 3 = true ∧ laneRetired (529 + 2 * d) s = false ∧
      (lane (529 + 2 * d) s).short = false ∧ (lane (528 + 2 * d) s).energy = true
    ¬ may)
    ∧ (∃ (port : Fin 2) (s : State),
    s.quiet ∧
    s.wf ∧
    let d := port.val
    let may := domState 20 s = .on ∧ s.boot.refPresent.getLsbD 3 = true ∧ laneRetired (529 + 2 * d) s = false ∧
      (lane (529 + 2 * d) s).short = false ∧ (lane (528 + 2 * d) s).energy = true
    may)
    ∧ (∃ (port : Fin 2) (s : State),
    s.quiet ∧
    s.wf ∧
    let d := port.val
    let may := domState 20 s = .on ∧ s.boot.refPresent.getLsbD 3 = true ∧ chainLanesGood d s = true
    (chainUp d s = true ∨ ¬ may))
    ∧ (∃ (port : Fin 2) (s : State),
    s.quiet ∧
    s.wf ∧
    let d := port.val
    let may := domState 20 s = .on ∧ s.boot.refPresent.getLsbD 3 = true ∧ chainLanesGood d s = true
    chainUp d s = false ∧
    may)
    ∧ (∃ (s : State),
    s.quiet ∧
    s.wf ∧
    judge Reg.CHAIN_CTRL s = .perform)
    ∧ (∃ (b : Bytes) (src : Fin 64) (s : State),
    s.quiet ∧
    s.wf ∧
    b.length = 32 ∧
    (b.getD 28 0).getLsbD 7 = false ∧
    src.val ≠ chainAddr s)
    ∧ (∃ (b : Bytes) (s : State),
    s.quiet ∧
    s.wf ∧
    b.length = 32 ∧
    (b.getD 28 0).getLsbD 7 = true)
    ∧ (∃ (cause : Word) (s : State),
    s.quiet ∧
    s.wf ∧
    (isBanksman s = false ∨ cause = 0))
    ∧ (∃ (cause : Word) (s : State),
    s.quiet ∧
    s.wf ∧
    isBanksman s = true ∧
    cause ≠ 0)
    ∧ (∃ (s : State),
    s.quiet ∧
    s.wf ∧
    let c := maskedCauses s
    (s.chain.reachable = false ∨ c = s.chain.alertSent ∧ c = 0))
    ∧ (∃ (s : State),
    s.quiet ∧
    s.wf ∧
    let c := maskedCauses s
    s.chain.reachable = true ∧
    (¬ (c = s.chain.alertSent ∧ c = 0)) ∧
    s.chain.banksman ≠ chainAddr s ∧
    chainUp 0 s = true)
    ∧ (∃ (s : State),
    s.quiet ∧
    s.wf ∧
    twf (fun _Z => (none : Option Nat)) s.chain.heard = true)
    ∧ (∃ (s : State),
    s.quiet ∧
    s.wf ∧
    let r := s.recd
    let may := rbit Reg.CHAIN_CTRL 31 s = true ∧ s.chain.reachable = true ∧ s.keep.mounted = true ∧ r.fwdSeq < r.newestSeq
    ¬ may)
    ∧ (∃ (s : State),
    s.quiet ∧
    s.wf ∧
    let r := s.recd
    let may := rbit Reg.CHAIN_CTRL 31 s = true ∧ s.chain.reachable = true ∧ s.keep.mounted = true ∧ r.fwdSeq < r.newestSeq
    may) :=
  ⟨⟨(running |> stDom20off), by
    try dsimp only [State.quiet, State.wf]
    decide +kernel⟩,
   ⟨[0x1c#8, 0x03#8, 0xff#8, 0x08#8], running, by
    try dsimp only [State.quiet, State.wf]
    decide +kernel⟩,
   ⟨0, (chainBytes (frameOf 8 0 [])), running, (frameOf 8 0 []), by
    try dsimp only [State.quiet, State.wf]
    decide +kernel⟩,
   ⟨0, (chainBytes (frameOf 8 0 [])), (running |> chainAll), (frameOf 8 0 []), by
    try dsimp only [State.quiet, State.wf]
    decide +kernel⟩,
   ⟨0, (chainBytes (frameOf 1 62 (beBytes 4 0x100))), (running |> chainAll), (frameOf 1 62 (beBytes 4 0x100)), by
    try dsimp only [State.quiet, State.wf]
    decide +kernel⟩,
   ⟨0, running, by
    try dsimp only [State.quiet, State.wf]
    decide +kernel⟩,
   ⟨0, (running |> stChainLanes), by
    try dsimp only [State.quiet, State.wf]
    decide +kernel⟩,
   ⟨0, running, by
    try dsimp only [State.quiet, State.wf]
    decide +kernel⟩,
   ⟨0, (running |> stChainLanes), by
    try dsimp only [State.quiet, State.wf]
    decide +kernel⟩,
   ⟨running, by
    try dsimp only [State.quiet, State.wf]
    decide +kernel⟩,
   ⟨(List.replicate 32 0), 62, running, by
    try dsimp only [State.quiet, State.wf]
    decide +kernel⟩,
   ⟨(List.replicate 28 0 ++ [0x80, 0, 0, 0]), running, by
    try dsimp only [State.quiet, State.wf]
    decide +kernel⟩,
   ⟨0x01000008#32, running, by
    try dsimp only [State.quiet, State.wf]
    decide +kernel⟩,
   ⟨0x00000007#32, (running |> stBank), by
    try dsimp only [State.quiet, State.wf]
    decide +kernel⟩,
   ⟨running, by
    try dsimp only [State.quiet, State.wf]
    decide +kernel⟩,
   ⟨(running |> setReg Reg.CHAIN_ALERT_EN 0xFFFFFFFF |> chainAll |> stAlerts |> (fun s => { s with chain := { s.chain with banksman := 5, reachable := true } })), by
    try dsimp only [State.quiet, State.wf]
    decide +kernel⟩,
   ⟨running, by
    try dsimp only [State.quiet, State.wf]
    decide +kernel⟩,
   ⟨running, by
    try dsimp only [State.quiet, State.wf]
    decide +kernel⟩,
   ⟨(running |> stFwd |> (fun s => { s with chain := { s.chain with reachable := true } })), by
    try dsimp only [State.quiet, State.wf]
    decide +kernel⟩⟩

theorem witness_HostRequestsAreCarriedAndCompleted :
    (∃ addr : Word, ∃ s : State, ∃ r,
    s.quiet ∧
    s.wf ∧
    judge addr.toNat s = .perform ∧
    regRow addr.toNat = some r ∧
    addr.toNat % 4 = 0 ∧
    r.kind = .plain ∧
    showsFree addr.toNat = false)
    ∧ (∃ addr : Word, ∃ s : State, ∃ r,
    s.quiet ∧
    s.wf ∧
    let plain := fun (r : RegRow) (x : Word) => judge x.toNat s = .perform ∧ regRow x.toNat = some r ∧ x.toNat % 4 = 0 ∧
      actsOnWrite x.toNat = false
    plain r addr)
    ∧ (∃ (tag : BitVec 16) (s : State),
    s.quiet ∧
    s.wf ∧
    let mine := fun (q : HostRequest) (w : Bool) => q.tag = tag.toNat ∧ q.write.isSome = w
    (∀ q ∈ s.host.inflight, ¬ mine q false))
    ∧ (∃ (tag : BitVec 16) (s : State),
    s.quiet ∧
    s.wf ∧
    let mine := fun (q : HostRequest) (w : Bool) => q.tag = tag.toNat ∧ q.write.isSome = w
    (∀ q ∈ s.host.inflight, ¬ mine q true))
    ∧ (∃ tag : BitVec 16, ∃ s : State, ∃ before, ∃ q, ∃ after,
    s.quiet ∧
    s.wf ∧
    let mine := fun (q : HostRequest) (w : Bool) => q.tag = tag.toNat ∧ q.write.isSome = w
    s.host.inflight = before ++ q :: after ∧
    s.host.waiting = [] ∧
    mine q false ∧
    (∀ x ∈ before, ¬ mine x false))
    ∧ (∃ tag : BitVec 16, ∃ s : State, ∃ before, ∃ q, ∃ after,
    s.quiet ∧
    s.wf ∧
    let mine := fun (q : HostRequest) (w : Bool) => q.tag = tag.toNat ∧ q.write.isSome = w
    s.host.inflight = before ++ q :: after ∧
    s.host.waiting = [] ∧
    mine q true ∧
    (∀ x ∈ before, ¬ mine x true))
    ∧ (∃ d : Fin 64, ∃ s : State, ∃ before, ∃ q, ∃ after,
    s.quiet ∧
    s.wf ∧
    s.host.inflight = before ++ q :: after ∧
    s.host.waiting = [] ∧
    q.member = d.val ∧
    (∀ x ∈ before, x.member ≠ d.val))
    ∧ (∃ (s : State),
    s.quiet ∧
    s.wf ∧
    isBanksman s = false)
    ∧ (∃ (s : State) (x : Bar0Access),
    s.quiet ∧
    s.wf ∧
    isBanksman s = true ∧
    chainUp 0 s = true ∧
    x.member.val ≠ chainAddr s ∧
    x.addr.toNat % 4 = 0 ∧
    x.write = none ∧
    s.host.inflight = [] ∧
    s.host.waiting = [])
    ∧ (∃ (v : Word) (s : State) (x : Bar0Access),
    s.quiet ∧
    s.wf ∧
    isBanksman s = true ∧
    chainUp 0 s = true ∧
    x.member.val ≠ chainAddr s ∧
    x.addr.toNat % 4 = 0 ∧
    x.write = some v ∧
    rbit Reg.HOST_CTRL 0 s = false)
    ∧ (∃ (s : State) (y : BitVec 25) (r : RegRow),
    s.quiet ∧
    s.wf ∧
    let plain := fun (r : RegRow) (x : Word) => judge x.toNat s = .perform ∧ regRow x.toNat = some r ∧ x.toNat % 4 = 0 ∧
      actsOnWrite x.toNat = false
    isBanksman s = true ∧
    chainUp 0 s = true ∧
    plain r (y.setWidth 32))
    ∧ (∃ (s : State) (speed : BitVec 3) (width : BitVec 4),
    s.quiet ∧
    s.wf ∧
    (Instr.hostLinkUp speed width).wf = true ∧
    let may := s.host.link = false ∧ domState 19 s = .on ∧ s.boot.refPresent.getLsbD 3 = true ∧ s.land.perstLow = false
    ¬ may)
    ∧ (∃ (s : State) (speed : BitVec 3) (width : BitVec 4),
    s.quiet ∧
    s.wf ∧
    (Instr.hostLinkUp speed width).wf = true ∧
    let may := s.host.link = false ∧ domState 19 s = .on ∧ s.boot.refPresent.getLsbD 3 = true ∧ s.land.perstLow = false
    may) :=
  ⟨⟨(word Reg.PWR_WAKE_CFG), running, (rowAt Reg.PWR_WAKE_CFG), by
    try dsimp only [State.quiet, State.wf]
    decide +kernel⟩,
   ⟨(word Reg.PWR_WAKE_CFG), running, (rowAt Reg.PWR_WAKE_CFG), by
    try dsimp only [State.quiet, State.wf]
    decide +kernel⟩,
   ⟨0xb4d0#16, running, by
    try dsimp only [State.quiet, State.wf]
    decide +kernel⟩,
   ⟨0xb4d0#16, running, by
    try dsimp only [State.quiet, State.wf]
    decide +kernel⟩,
   ⟨7, (running |> stInfl), [], ⟨0, 0x40, none, 7⟩, [⟨0, 0x44, some 3, 8⟩], by
    try dsimp only [State.quiet, State.wf]
    decide +kernel⟩,
   ⟨8, (running |> stInfl), [⟨0, 0x40, none, 7⟩], ⟨0, 0x44, some 3, 8⟩, [], by
    try dsimp only [State.quiet, State.wf]
    decide +kernel⟩,
   ⟨0, (running |> stInfl), [], ⟨0, 0x40, none, 7⟩, [⟨0, 0x44, some 3, 8⟩], by
    try dsimp only [State.quiet, State.wf]
    decide +kernel⟩,
   ⟨running, by
    try dsimp only [State.quiet, State.wf]
    decide +kernel⟩,
   ⟨(running |> stBank |> chainAll), { member := 62, addr := 0x40, write := none }, by
    try dsimp only [State.quiet, State.wf]
    decide +kernel⟩,
   ⟨5, (running |> stBank |> chainAll), { member := 62, addr := 0x40, write := some 5 }, by
    try dsimp only [State.quiet, State.wf]
    decide +kernel⟩,
   ⟨(running |> stBank |> chainAll), (BitVec.ofNat 25 Reg.PWR_WAKE_CFG), (rowAt Reg.PWR_WAKE_CFG), by
    try dsimp only [State.quiet, State.wf]
    decide +kernel⟩,
   ⟨(running |> stDom19off), 0x4#3, 0x1#4, by
    try dsimp only [State.quiet, State.wf]
    decide +kernel⟩,
   ⟨running, 0x2#3, 0x2#4, by
    try dsimp only [State.quiet, State.wf]
    decide +kernel⟩⟩

theorem witness_OutputsOpticsAndLandsAreWatched :
    (∃ (out : Fin 27) (s : State),
    s.quiet ∧
    s.wf ∧
    let n := out.val
    (rbit Reg.GEN_LAND_SHORT n s = true ∨ landDriven n s = false))
    ∧ (∃ (out : Fin 27) (s : State),
    s.quiet ∧
    s.wf ∧
    let n := out.val
    let bad := tget (fun _Z => 0) s.land.mismatches n
    rbit Reg.GEN_LAND_SHORT n s = false ∧
    landDriven n s = true ∧
    bad < 3)
    ∧ (∃ (out : Fin 27) (s : State),
    s.quiet ∧
    s.wf ∧
    let n := out.val
    let bad := tget (fun _Z => 0) s.land.mismatches n
    rbit Reg.GEN_LAND_SHORT n s = false ∧
    landDriven n s = true ∧
    3 ≤ bad)
    ∧ (∃ (out : Fin 27) (s : State),
    s.quiet ∧
    s.wf ∧
    let n := out.val
    rbit Reg.GEN_LAND_SHORT n s = false ∧
    landDriven n s = true ∧
    twf (fun _Z => 0) s.land.mismatches = true)
    ∧ (∃ (out : Fin 27) (s : State) (l : List Bool),
    s.quiet ∧
    s.wf ∧
    let n := out.val
    l.length = 4 ∧
    (rbit Reg.GEN_LAND_SHORT n s = false ∨ false ∈ l))
    ∧ (∃ (out : Fin 27) (s : State) (l : List Bool),
    s.quiet ∧
    s.wf ∧
    let n := out.val
    l.length = 4 ∧
    rbit Reg.GEN_LAND_SHORT n s = true ∧
    false ∉ l)
    ∧ (∃ (side : Fin 2) (cmis : CmisData) (s : State),
    s.quiet ∧
    s.wf ∧
    let g := Reg.GEN_OPTIC side.val
    cmis.wf = true ∧
    rbit g 0 s = true)
    ∧ (∃ (side : Fin 2) (cmis : CmisData) (s : State),
    s.quiet ∧
    s.wf ∧
    let g := Reg.GEN_OPTIC side.val
    cmis.wf = true ∧
    rbit g 0 s = false)
    ∧ (∃ (side : Fin 2) (txPower : List Nat) (bias : List Nat) (s : State),
    s.quiet ∧
    s.wf ∧
    let g := Reg.GEN_OPTIC side.val
    txPower.length = 4 ∧
    bias.length = 4 ∧
    rbit g 0 s = false)
    ∧ (∃ (side : Fin 2) (txPower : List Nat) (bias : List Nat) (s : State),
    s.quiet ∧
    s.wf ∧
    let g := Reg.GEN_OPTIC side.val
    txPower.length = 4 ∧
    bias.length = 4 ∧
    rbit g 0 s = true)
    ∧ (∃ (s : State),
    s.quiet ∧
    s.wf ∧
    rbit Reg.GEN_LED_CFG 31 s = false)
    ∧ (∃ (s : State),
    s.quiet ∧
    s.wf ∧
    rbit Reg.GEN_LED_CFG 31 s = true ∧
    rfld Reg.GEN_LAND_SHORT 4 2 s = 0) :=
  ⟨⟨1, (running |> stWakeTimer), by
    try dsimp only [State.quiet, State.wf]
    decide +kernel⟩,
   ⟨7, running, by
    try dsimp only [State.quiet, State.wf]
    decide +kernel⟩,
   ⟨0, (running |> stMism3), by
    try dsimp only [State.quiet, State.wf]
    decide +kernel⟩,
   ⟨7, running, by
    try dsimp only [State.quiet, State.wf]
    decide +kernel⟩,
   ⟨7, running, [false, false, true, false], by
    try dsimp only [State.quiet, State.wf]
    decide +kernel⟩,
   ⟨0, (running |> stLandShort0), [true, true, true, true], by
    try dsimp only [State.quiet, State.wf]
    decide +kernel⟩,
   ⟨0, (cmisIn 16), (running |> stOptA), by
    try dsimp only [State.quiet, State.wf]
    decide +kernel⟩,
   ⟨1, (cmisIn 16), (running |> setReg (Reg.GEN_OPTIC 1) 0), by
    try dsimp only [State.quiet, State.wf]
    decide +kernel⟩,
   ⟨0, [1, 8, 511, 1], [6, 255, 14680084, 16], (running |> stOffgen), by
    try dsimp only [State.quiet, State.wf]
    decide +kernel⟩,
   ⟨0, [1, 2, 3, 4], [5, 6, 7, 8], (running |> stOptA), by
    try dsimp only [State.quiet, State.wf]
    decide +kernel⟩,
   ⟨(running |> setReg Reg.GEN_LED_CFG 0), by
    try dsimp only [State.quiet, State.wf]
    decide +kernel⟩,
   ⟨running, by
    try dsimp only [State.quiet, State.wf]
    decide +kernel⟩⟩

end Sys2Proof.Tests
end

section
/-! The register accesses of the scope chapter (R7 to R15): what each command of an access does as its address is judged, and the
statements settled from that. -/
namespace Sys2Proof.Machine

/-! ### Reset -/

theorem reg_reset (a : Nat) : reg a State.reset = resetValue a := rfl

/-- No client votes at reset, the host's register included (R454). -/
theorem votesOf_reset (c : Nat) : votesOf c State.reset = 0 := by
  unfold votesOf
  split
  · decide
  · rfl

theorem reset_wf : State.reset.wf := by
  unfold State.wf
  repeat' apply And.intro
  all_goals exact twf_nil

theorem reset_quiet : State.reset.quiet := ⟨rfl, rfl⟩

/-- Settles O3: at reset every table is empty, so each register and vote reads its default. -/
theorem resetLeavesResetValues : Obligations.ResetLeavesResetValues :=
  ⟨reg_reset, rfl, rfl, rfl, votesOf_reset, rfl, reset_wf, List.forall_mem_nil _, reset_quiet⟩

/-! ### The commands of an access: two writes and two reads that differ in what they carry only -/

theorem aligned_four (addr : Word) : aligned addr 4 = (addr.toNat % 4 == 0) := rfl

theorem exec_regWrite_aligned {addr : Word} (al : addr.toNat % 4 = 0) (src : Source) (value same : Word) (s : State) :
    exec (.regWrite src addr value same) s = finish (access src none addr (some (value, same)) 0 s) :=
  congrArg finish (if_pos al)

theorem exec_regWrite_misaligned {addr : Word} (mis : addr.toNat % 4 ≠ 0) (src : Source) (value same : Word) (s : State) :
    exec (.regWrite src addr value same) s = finish (misalignedAccess src none addr true s) :=
  congrArg finish (if_neg mis)

theorem exec_rcClearingRead_aligned {addr : Word} (al : addr.toNat % 4 = 0) (src : Source) (inc : Word) (s : State) :
    exec (.rcClearingRead src addr inc) s = finish (access src none addr none inc.toNat s) :=
  congrArg finish (if_pos al)

theorem exec_rcClearingRead_misaligned {addr : Word} (mis : addr.toNat % 4 ≠ 0) (src : Source) (inc : Word) (s : State) :
    exec (.rcClearingRead src addr inc) s = finish (misalignedAccess src none addr false s) :=
  congrArg finish (if_neg mis)

/-- A write of a register coded PW is a write in whose cycle no source sets a bit. -/
theorem exec_pwWrite (src : Source) (addr value : Word) (s : State) :
    exec (.pwWrite src addr value) s = exec (.regWrite src addr value 0) s := by
  change execPwWrite src addr value s = execRegWrite src addr value 0 s
  simp only [execPwWrite, execRegWrite, aligned_four, beq_iff_eq]

/-- What a read does depends on the register, not on the command that makes it. -/
theorem exec_lrLowWordRead (src : Source) (addr inc : Word) (s : State) :
    exec (.lrLowWordRead src addr inc) s = exec (.rcClearingRead src addr inc) s := by
  change execLrLowWordRead src addr inc s = execRcClearingRead src addr inc s
  simp only [execLrLowWordRead, execRcClearingRead, aligned_four, beq_iff_eq]

/-! ### An address that holds no register (R9) -/

theorem judge_of_no_register {a : Nat} {s : State} (absent : (regRow a).isNone = true) (ok : refusesAccess a s = false) :
    judge a s = .absent := by
  simp [judge, ok, absent]

section
variable {addr : Word} {s : State}

theorem exec_regWrite_absent (q : s.quiet) (al : addr.toNat % 4 = 0) (hj : judge addr.toNat s = .absent) (src : Source)
    (value same : Word) : exec (.regWrite src addr value same) s = .next s := by
  rw [exec_regWrite_aligned al]
  simp only [access, hj, performAbsent, answerAccess, Option.map_some, Option.isSome_some, if_true]
  exact finish_quiet q.1 q.2

theorem exec_rcClearingRead_absent (q : s.quiet) (al : addr.toNat % 4 = 0) (hj : judge addr.toNat s = .absent) (src : Source)
    (inc : Word) : exec (.rcClearingRead src addr inc) s = .next (emit (.readReply src addr 0) s) := by
  rw [exec_rcClearingRead_aligned al]
  simp only [access, hj, performAbsent, answerAccess, Option.map_none, Option.isSome_none, Bool.false_eq_true, if_false]
  exact finish_quiet q.1 q.2

end

/-- Settles O7: an access to an address without a register is judged absent, by whichever command it is made. -/
theorem absentRegisterReadsZero : Obligations.AbsentRegisterReadsZero := by
  intro src addr value same inc s q al absent ok
  have hj := judge_of_no_register absent ok
  have hw := fun same => exec_regWrite_absent q al hj src value same
  have hr := exec_rcClearingRead_absent q al hj src inc
  exact ⟨hw same, (exec_pwWrite ..).trans (hw 0), hr, (exec_lrLowWordRead ..).trans hr⟩

/-! ### A misaligned access (R8) -/

theorem aligned_iff {addr : Word} {bytes : Nat} : aligned addr bytes = true ↔ bytes = 4 ∧ addr.toNat % 4 = 0 := by
  simp [aligned]

theorem finish_misalignedAccess {s : State} (q : s.quiet) (src : Source) (tag : Option (Nat × Nat)) (addr : Word) (isWrite : Bool) :
    finish (misalignedAccess src tag addr isWrite s) = .next (misalignedAccess src tag addr isWrite s) :=
  finish_of_frame (m := 44) q (misalignedAccess_frame Frame.rfl' rfl) rfl rfl

section
variable {addr : Word} {s : State}

theorem exec_read_misaligned (mis : addr.toNat % 4 ≠ 0) (dst : Fin 64) (tag : BitVec 16) :
    exec (.read dst tag addr) s = finish (misalignedAccess .chain (some (dst.val, tag.toNat)) addr false s) :=
  congrArg finish (if_neg fun al => mis (aligned_iff.mp al).2)

theorem exec_write_misaligned (mis : addr.toNat % 4 ≠ 0) (dst : Fin 64) (tag : BitVec 16) (value : Word) :
    exec (.write dst tag addr value) s = finish (misalignedAccess .chain (some (dst.val, tag.toNat)) addr true s) :=
  congrArg finish (if_neg fun al => mis (aligned_iff.mp al).2)

end

/-- Settles O8: every command of a misaligned access comes down to `misalignedAccess`, which leaves nothing to settle. -/
theorem misalignedAccessIsCountedOnly : Obligations.MisalignedAccessIsCountedOnly := by
  intro src addr value same inc bytes s q
  have counted := fun src tag isWrite => finish_misalignedAccess q src tag addr isWrite
  refine ⟨fun a b al => ?_, fun mis => ?_, fun mis => ?_⟩
  · exact (execRegMisaligned_eq a addr bytes b q).trans (congrArg _ (if_pos (aligned_iff.mpr al)))
  · have not_aligned : ¬ aligned addr bytes = true := fun al => mis (aligned_iff.mp al)
    exact ⟨(execRegMisaligned_eq src addr bytes true q).trans (congrArg _ (if_neg not_aligned)),
      (execRegMisaligned_eq src addr bytes false q).trans (congrArg _ (if_neg not_aligned))⟩
  · have hw := fun same => (exec_regWrite_misaligned mis src value same s).trans (counted src none true)
    have hr := (exec_rcClearingRead_misaligned mis src inc s).trans (counted src none false)
    exact ⟨hw same, (exec_pwWrite ..).trans (hw 0), hr, (exec_lrLowWordRead ..).trans hr, fun dst tag =>
      ⟨(exec_read_misaligned mis dst tag).trans (counted _ _ false),
        (exec_write_misaligned mis dst tag value).trans (counted _ _ true)⟩⟩

/-! ### A write of a register without an effect of its own (R12, R13) -/

theorem not_resetCmd_of_plain {a : Nat} (h : actsOnWrite a = false) : a ≠ Reg.GEN_RESET_CMD := by
  rintro rfl
  exact absurd h (by decide)

/-- The write sets its register by the access codes, and that is the whole change. -/
theorem exec_regWrite_plain {addr : Word} {r : RegRow} {s : State} (q : s.quiet) (al : addr.toNat % 4 = 0)
    (hj : judge addr.toNat s = .perform) (hr : regRow addr.toNat = some r) (h : actsOnWrite addr.toNat = false) (src : Source)
    (value same : Word) :
    exec (.regWrite src addr value same) s = .next (setReg addr.toNat (r.written (reg addr.toNat s) value same) s) := by
  rw [exec_regWrite_aligned al]
  simp only [access, hj, performWrite, not_resetCmd_of_plain h, if_false, answerAccess, writeReg_plain hr h]
  exact finish_quiet q.1 q.2

theorem setReg_regsBut (a : Nat) (v : Word) (s : State) : RegsBut [a] s (setReg a v s) :=
  fun _ hb => reg_setReg_ne (List.ne_of_not_mem_cons hb)

theorem setReg_sameBut (a : Nat) (v : Word) (s : State) : SameBut [.regs] s (setReg a v s) :=
  (setReg_frame (m := 8) Frame.rfl' rfl).sameBut (by decide)

/-- Settles O11: the register takes `RegRow.written`, whose terms are those of R12 and R13. -/
theorem plainWriteFollowsAccessCodes : Obligations.PlainWriteFollowsAccessCodes := by
  intro src addr value same r s q w al hj hr h
  exact ⟨_, exec_regWrite_plain q al hj hr h src value same, reg_setReg_same w.1, setReg_regsBut _ _ _,
    setReg_sameBut _ _ _⟩

/-- A W1C bit that its source sets in the cycle of a write is set after it (R13). -/
theorem written_getLsbD_of_same {r : RegRow} {old value same : Word} {i : Nat} (hc : (word r.w1c).getLsbD i = true)
    (hs : same.getLsbD i = true) : (r.written old value same).getLsbD i = true := by
  simp [RegRow.written, hc, hs]

/-- Settles O12: the bits that are set in the same cycle are the last term of what the register takes. -/
theorem w1cBitSetInSameCycleStaysSet : Obligations.W1cBitSetInSameCycleStaysSet := by
  intro src addr value same r s i q w al hj hr h hc hs
  refine ⟨_, exec_regWrite_plain q al hj hr h src value same, ?_⟩
  rw [reg_setReg_same w.1]
  exact written_getLsbD_of_same hc hs

/-! ### Reads that clear and reads that latch (R14, R15) -/

theorem word_satTo_toNat (w : Word) : word (satTo 32 w.toNat) = w := by
  simp [satTo, word, w.isLt]

theorem loWord_toNat (w : Word) : loWord w.toNat = w := by
  simp [loWord, word]

theorem hiWord_toNat (w : Word) : hiWord w.toNat = 0 := by
  simp [hiWord, word, Nat.div_eq_of_lt w.isLt]

section
variable {addr : Word} {r : RegRow} {s : State}

/-- A read that is performed answers what `readReg` returns and leaves its state. -/
theorem exec_rcClearingRead_perform (q : s.quiet) (al : addr.toNat % 4 = 0) (hj : judge addr.toNat s = .perform) (src : Source)
    (inc : Word) :
    exec (.rcClearingRead src addr inc) s =
      .next (emit (.readReply src addr (readReg src addr.toNat inc.toNat s).1) (readReg src addr.toNat inc.toNat s).2) := by
  rw [exec_rcClearingRead_aligned al]
  simp only [access, hj, performRead, answerAccess]
  exact finish_of_frame (m := 30) q (emit_frame (readReg_frame Frame.rfl' rfl) rfl) rfl rfl

/-! What a read returns and leaves, by the kind of its register. -/

theorem readReg_rc {a : Nat} (hr : regRow a = some r) (hk : r.kind = .rc) (src : Source) (inc : Nat) :
    readReg src a inc s = (reg a s, setReg a (word (satTo 32 inc)) s) := by
  simp only [readReg, hr, hk]

/-- The pair of a 64-bit counter after a read of its low word: high word latched, increments in. -/
def clearedPair (src : Source) (a inc : Nat) (high : Word) (s : State) : State :=
  s |> setLatch src (a + 4) high |> setReg a (loWord inc) |> setReg (a + 4) (hiWord inc)

theorem clearedPair_frame {m : Nat} (hm : m &&& 24 = 24) (src : Source) (a inc : Nat) (high : Word) (s : State) :
    Frame m s (clearedPair src a inc high s) :=
  setReg_frame (setReg_frame (setLatch_frame Frame.rfl' (land_trans hm rfl)) (land_trans hm rfl)) (land_trans hm rfl)

/-- The low word holds the increments of the cycle, the high word 0. -/
theorem reg_clearedPair (w : s.wf) (src : Source) (a : Nat) (inc high : Word) :
    reg a (clearedPair src a inc.toNat high s) = inc ∧ reg (a + 4) (clearedPair src a inc.toNat high s) = 0 ∧
      RegsBut [a, a + 4] s (clearedPair src a inc.toNat high s) := by
  obtain ⟨hregs, -⟩ := w
  unfold clearedPair
  rw [loWord_toNat, hiWord_toNat]
  refine ⟨?_, reg_setReg_same (twf_tput hregs), fun b hb => ?_⟩
  · rw [reg_setReg_ne (by omega)]
    exact reg_setReg_same hregs
  · obtain ⟨hlow, hhigh⟩ : b ≠ a ∧ b ≠ a + 4 := by simpa using hb
    rw [reg_setReg_ne hhigh, reg_setReg_ne hlow]
    rfl

theorem readReg_low1 {a : Nat} (hr : regRow a = some r) (hk : r.kind = .low1) (shown : fecHidden a s = false) (src : Source)
    (inc : Nat) : readReg src a inc s = (reg a s, clearedPair src a inc (reg (a + 4) s) s) := by
  simp only [readReg, hr, hk, shown, clearedPair, Bool.false_eq_true, if_false]

theorem readReg_low1_hidden {a : Nat} (hr : regRow a = some r) (hk : r.kind = .low1) (hidden : fecHidden a s = true) (src : Source)
    (inc : Nat) : (readReg src a inc s).1 = 0 := by
  simp only [readReg, hr, hk, hidden, if_true]

theorem readReg_low0 {a : Nat} (hr : regRow a = some r) (hk : r.kind = .low0) (src : Source) (inc : Nat) :
    readReg src a inc s = (regView src a s, latchGroup src 3 (a + 4) s) := by
  simp only [readReg, hr, hk]

theorem readReg_high {a : Nat} (hr : regRow a = some r) (hk : r.kind = .high) (src : Source) (inc : Nat) :
    readReg src a inc s = (if fecHidden a s then 0 else tget (fun _ => 0) s.latch (latchKey src a), s) := by
  simp only [readReg, hr, hk]

end

/-! ### Latches (R15) -/

theorem srcCode_injective {a b : Source} (h : srcCode a = srcCode b) : a = b :=
  match a, b, h with
  | .host, .host, _ => rfl
  | .chain, .chain, _ => rfl
  | .sup, .sup, _ => rfl

/-- A latch belongs to one source and one address. -/
theorem latchKey_injective {a b : Source} {x y : Nat} (hx : x < 2 ^ 32) (hy : y < 2 ^ 32) (h : latchKey a x = latchKey b y) :
    a = b ∧ x = y := by
  unfold latchKey at h
  exact ⟨srcCode_injective (by omega), by omega⟩

theorem latch_setLatch_ne {src : Source} {a k : Nat} {v : Word} {s : State} (h : k ≠ latchKey src a) :
    tget (fun _ => 0) (setLatch src a v s).latch k = tget (fun _ => 0) s.latch k :=
  tget_tput_ne h

theorem latch_setLatch_same {src : Source} {a : Nat} {v : Word} {s : State} (w : s.wf) :
    tget (fun _ => 0) (setLatch src a v s).latch (latchKey src a) = v := by
  obtain ⟨-, -, -, -, hlatch, -⟩ := w
  exact tget_tput hlatch

/-- Latching a group for one source leaves the latches of the others. -/
theorem latch_latchGroup_other {src b : Source} (hb : b ≠ src) {x : Nat} (hx : x < 2 ^ 32) (n a : Nat) (s : State) :
    tget (fun _ => 0) (latchGroup src n a s).latch (latchKey b x) = tget (fun _ => 0) s.latch (latchKey b x) := by
  induction n generalizing a s with
  | zero => rfl
  | succ n ih =>
    unfold latchGroup
    split
    next high =>
      rw [ih, latch_setLatch_ne fun e => hb (latchKey_injective hx (isHigh_lt high) e).1]
    next => rfl

/-- A group of one high word. -/
theorem latchGroup_pair {src : Source} {n a : Nat} {s : State} (high : isHigh a = true) (last : isHigh (a + 4) = false) :
    latchGroup src (n + 2) a s = setLatch src a (regView src a s) s := by
  simp [latchGroup, high, last]

/-! ### What R14 and R15 come to in the model

The counters FEC_CORR and FEC_UNCORR of a port in modes 1 to 3 read 0 (R362, `fecHidden`), whatever they or their latches hold. O9
and O10 leave that case in; without it, their clauses hold. -/

section
variable {addr : Word} {r : RegRow} {s : State}

/-- R14 for a 32-bit counter. -/
theorem rcClearingRead_counter (q : s.quiet) (w : s.wf) (al : addr.toNat % 4 = 0) (hj : judge addr.toNat s = .perform)
    (hr : regRow addr.toNat = some r) (hk : r.kind = .rc) (src : Source) (inc : Word) :
    ∃ t, exec (.rcClearingRead src addr inc) s = .next t ∧ t.outs = .readReply src addr (reg addr.toNat s) :: s.outs ∧
      reg addr.toNat t = inc ∧ RegsBut [addr.toNat] s t ∧ SameBut [.outs, .regs] s t := by
  have h := exec_rcClearingRead_perform q al hj src inc
  rw [readReg_rc hr hk, word_satTo_toNat] at h
  refine ⟨_, h, rfl, reg_setReg_same w.1, setReg_regsBut addr.toNat inc s, ?_⟩
  exact Frame.sameBut (m := 12) (emit_frame (setReg_frame Frame.rfl' rfl) rfl) (by decide)

/-- R14 for a 64-bit counter that is shown. -/
theorem rcClearingRead_pair (q : s.quiet) (w : s.wf) (al : addr.toNat % 4 = 0) (hj : judge addr.toNat s = .perform)
    (hr : regRow addr.toNat = some r) (hk : r.kind = .low1) (shown : fecHidden addr.toNat s = false) (src : Source) (inc : Word) :
    ∃ t, exec (.rcClearingRead src addr inc) s = .next t ∧ exec (.lrLowWordRead src addr inc) s = .next t ∧
      t.outs = .readReply src addr (reg addr.toNat s) :: s.outs ∧ reg addr.toNat t = inc ∧ reg (addr.toNat + 4) t = 0 ∧
      tget (fun _ => 0) t.latch (latchKey src (addr.toNat + 4)) = reg (addr.toNat + 4) s ∧
      (∀ k, k ≠ latchKey src (addr.toNat + 4) → tget (fun _ => 0) t.latch k = tget (fun _ => 0) s.latch k) ∧
      RegsBut [addr.toNat, addr.toNat + 4] s t ∧ SameBut [.outs, .regs, .latch] s t := by
  have h := exec_rcClearingRead_perform q al hj src inc
  rw [readReg_low1 hr hk shown] at h
  obtain ⟨low, high, others⟩ := reg_clearedPair w src addr.toNat inc (reg (addr.toNat + 4) s)
  exact ⟨_, h, (exec_lrLowWordRead ..).trans h, rfl, low, high, latch_setLatch_same w, fun _ => latch_setLatch_ne, others,
    Frame.sameBut (m := 28) (emit_frame (clearedPair_frame rfl ..) rfl) (by decide)⟩

/-- R15 for a low word that a read does not clear. -/
theorem lrLowWordRead_low (q : s.quiet) (w : s.wf) (al : addr.toNat % 4 = 0) (hj : judge addr.toNat s = .perform)
    (hr : regRow addr.toNat = some r) (hk : r.kind = .low0) (src : Source) (inc : Word) :
    ∃ t, exec (.lrLowWordRead src addr inc) s = .next t ∧
      t.outs = .readReply src addr (regView src addr.toNat s) :: s.outs ∧
      (isHigh (addr.toNat + 4) = true → isHigh (addr.toNat + 8) = false →
        tget (fun _ => 0) t.latch (latchKey src (addr.toNat + 4)) = regView src (addr.toNat + 4) s ∧
        ∀ k, k ≠ latchKey src (addr.toNat + 4) → tget (fun _ => 0) t.latch k = tget (fun _ => 0) s.latch k) ∧
      (∀ (b : Source) (x : Word), b ≠ src →
        tget (fun _ => 0) t.latch (latchKey b x.toNat) = tget (fun _ => 0) s.latch (latchKey b x.toNat)) ∧
      SameBut [.outs, .latch] s t := by
  have h := (exec_lrLowWordRead ..).trans (exec_rcClearingRead_perform q al hj src inc)
  rw [readReg_low0 hr hk] at h
  have outs : (latchGroup src 3 (addr.toNat + 4) s).outs = s.outs :=
    (latchGroup_frame (m := 16) Frame.rfl' rfl).outs rfl
  refine ⟨_, h, congrArg _ outs, fun high last => ?_, fun b x hb => latch_latchGroup_other hb x.isLt .., ?_⟩
  · rw [latchGroup_pair high last]
    exact ⟨latch_setLatch_same w, fun _ => latch_setLatch_ne⟩
  · exact Frame.sameBut (m := 20) (emit_frame (latchGroup_frame Frame.rfl' rfl) rfl) (by decide)

/-- R15 for a high word, with R362 for one that is hidden. -/
theorem lrLowWordRead_high (q : s.quiet) (al : addr.toNat % 4 = 0) (hj : judge addr.toNat s = .perform)
    (hr : regRow addr.toNat = some r) (hk : r.kind = .high) (src : Source) (inc : Word) :
    exec (.lrLowWordRead src addr inc) s = .next { s with
      outs := .readReply src addr (if fecHidden addr.toNat s then 0 else tget (fun _ => 0) s.latch (latchKey src addr.toNat))
        :: s.outs } := by
  rw [exec_lrLowWordRead, exec_rcClearingRead_perform q al hj, readReg_high hr hk]
  rfl

end

/-! ### The refutations -/

/-- The low word of a hidden counter answers 0 (R362). -/
theorem rcClearingRead_hidden_pair {addr : Word} {r : RegRow} {s : State} (q : s.quiet) (al : addr.toNat % 4 = 0)
    (hj : judge addr.toNat s = .perform) (hr : regRow addr.toNat = some r) (hk : r.kind = .low1)
    (hidden : fecHidden addr.toNat s = true) (src : Source) (inc : Word) :
    ∃ t, exec (.rcClearingRead src addr inc) s = .next t ∧ t.outs = .readReply src addr 0 :: s.outs := by
  have outs : (readReg src addr.toNat inc.toNat s).2.outs = s.outs := (readReg_frame (m := 26) Frame.rfl' rfl).outs rfl
  refine ⟨_, exec_rcClearingRead_perform q al hj src inc, ?_⟩
  rw [emit_outs, readReg_low1_hidden hr hk hidden, outs]

/-- A port whose FEC counters are hidden while they hold something: port 0 in MODE 1, its domain ON, a codeword it
corrected in MODE 4 still counted (R340 keeps the counters), and a high word latched for the host. -/
def fecCountedBefore : State :=
  State.reset |> setDom 7 .on |> modPort 0 (fun p => { p with mode := 1 }) |> setReg (Reg.CNT_PORT_FEC_CORR_LO 0) 1
    |> setLatch .host (Reg.CNT_PORT_FEC_CORR_LO 0 + 4) 1

theorem fecCountedBefore_wf : fecCountedBefore.wf := by
  unfold State.wf
  decide

theorem fecCountedBefore_quiet : fecCountedBefore.quiet := ⟨rfl, rfl⟩

/-- Refutes O9: in `fecCountedBefore` FEC_CORR_LO of port 0 holds 1 and answers 0, as R362 has it for MODE 1. -/
theorem not_clearingReadCarriesIncrements : ¬ Obligations.ClearingReadCarriesIncrements := by
  intro h
  have hj : judge (0x800230#32).toNat fecCountedBefore = .perform := by decide
  have hidden : fecHidden (0x800230#32).toNat fecCountedBefore = true := by decide
  have held : reg (0x800230#32).toNat fecCountedBefore = 1 := by decide
  obtain ⟨t, ht, -, answered, -⟩ := (h .host 0x800230#32 0 _ _ fecCountedBefore_quiet fecCountedBefore_wf rfl hj rfl).2 rfl
  obtain ⟨u, hu, zero⟩ := rcClearingRead_hidden_pair fecCountedBefore_quiet rfl hj rfl rfl hidden .host 0
  obtain rfl : t = u := by rw [hu] at ht; injection ht with ht; exact ht.symm
  rw [zero, held] at answered
  exact absurd answered (by decide)

/-- Refutes O10: in `fecCountedBefore` the host's latch of FEC_CORR_HI of port 0 holds 1, and the register answers 0. -/
theorem not_highWordAnswersItsOwnLatch : ¬ Obligations.HighWordAnswersItsOwnLatch := by
  rintro ⟨h, -⟩
  have hj : judge (0x800234#32).toNat fecCountedBefore = .perform := by decide
  have hidden : fecHidden (0x800234#32).toNat fecCountedBefore = true := by decide
  have latched : tget (fun _ => 0) fecCountedBefore.latch (latchKey .host (0x800234#32).toNat) = 1 := by decide
  have answered := (h .host 0x800234#32 0 _ _ fecCountedBefore_quiet fecCountedBefore_wf rfl hj rfl).2 rfl
  rw [lrLowWordRead_high fecCountedBefore_quiet rfl hj rfl rfl, latched, if_pos hidden] at answered
  injection answered with answered
  exact absurd (congrArg State.outs answered) (by decide)

end Sys2Proof.Machine
end

section
/-! Rules of the tick that its statements share: lists of changes, the caps of SCHED, the fields of the power controller that
an evaluation of T and the payment of a tick leave. -/
namespace Sys2Proof.Machine

/-! ### Changes over a list and under a condition -/

theorem each_induct {α : Type} {P : State → Prop} {l : List α} {f : α → State → State} {s : State} (base : P s)
    (step : ∀ x u, P u → P (f x u)) : P (each l f s) := by
  unfold each
  induction l generalizing s with
  | nil => exact base
  | cons x l ih => exact ih (step x s base)

theorem when'_induct {P : State → Prop} {c : Bool} {f : State → State} {s : State} (base : P s)
    (step : c = true → P s → P (f s)) : P (when' c f s) := by
  cases c
  · exact base
  · exact step rfl base

theorem when'_true (f : State → State) (s : State) : when' true f s = f s := rfl

/-! ### The caps of SCHED (R302, R305) -/

/-- A key a table does not list reads as its default. -/
theorem tget_of_not_mem {α : Type} {d : Nat → α} {t : Table α} {k : Nat} (h : k ∉ t.map Prod.fst) : tget d t k = d k := by
  induction t with
  | nil => rfl
  | cons x t ih =>
    obtain ⟨hk, ht⟩ := not_or.mp fun e => h (List.mem_cons.mpr e)
    rw [tget, if_neg hk, ih ht]

/-- The caps of a port as its demand and its overshoot at the edge form them. -/
def takeCaps (x : PortSched) : PortSched := { x with capDemand := x.edgeDemand, capOver := x.edgeOver }

theorem sched_modSched_same {p : Nat} {f : PortSched → PortSched} {s : State}
    (w : twf (fun _ => PortSched.reset) s.sched.ports = true) : sched p (modSched p f s) = f (sched p s) :=
  tget_tput w

theorem sched_modSched_ne {p q : Nat} {f : PortSched → PortSched} {s : State} (h : p ≠ q) :
    sched p (modSched q f s) = sched p s :=
  tget_tput_ne h

theorem sched_each_takeCaps (p : Nat) (l : List Nat) {s : State} (w : twf (fun _ => PortSched.reset) s.sched.ports = true) :
    sched p (each l (fun q => modSched q takeCaps) s) = if p ∈ l then takeCaps (sched p s) else sched p s := by
  unfold each
  induction l generalizing s with
  | nil => rfl
  | cons q l ih =>
    rw [List.foldl_cons, ih (twf_tput w)]
    by_cases h : p = q
    · subst h
      simp [sched_modSched_same w, takeCaps]
    · simp [sched_modSched_ne h, h]

/-- The allocation queues' caps leave the ports. -/
theorem sched_each_setAllocQ (p : Nat) (l : List Nat) (f : AllocQueue → AllocQueue) (s : State) :
    sched p (each l (fun a u => setAllocQ a (f (allocQ a u)) u) s) = sched p s :=
  each_induct (P := fun u => sched p u = sched p s) rfl fun _ _ h => h

/-- Every port has the caps of its edge, listed or not. -/
theorem sched_formCaps {s : State} (w : s.wf) (p : Nat) : sched p (formCaps s) = takeCaps (sched p s) := by
  obtain ⟨-, -, -, -, -, -, -, -, -, -, -, -, -, hports, -, -⟩ := w
  refine (sched_each_setAllocQ p _ (fun x => { x with capDemand := x.edgeDemand, capOver := x.edgeOver }) _).trans
    ((sched_each_takeCaps p _ hports).trans ?_)
  split
  next => rfl
  next unlisted =>
    rw [sched, tget_of_not_mem unlisted]
    rfl

/-- Of SCHED's state the caps change ports and allocation queues only: the plan stands. -/
theorem formCaps_keeps {α : Type} {g : SchedState → α} (hg : ∀ x ports aqs, g { x with ports := ports, aqs := aqs } = g x)
    (s : State) : g (formCaps s).sched = g s.sched :=
  each_induct (P := fun u => g u.sched = g s.sched)
    (each_induct (P := fun u => g u.sched = g s.sched) rfl fun _ _ h => (hg _ _ _).trans h)
    fun _ _ h => (hg _ _ _).trans h

theorem formCaps_phi (s : State) : (formCaps s).sched.phi = s.sched.phi := formCaps_keeps (fun _ _ _ => rfl) s

theorem formCaps_prev (s : State) : (formCaps s).sched.prev = s.sched.prev := formCaps_keeps (fun _ _ _ => rfl) s

theorem formCaps_eW (s : State) : (formCaps s).sched.eW = s.sched.eW := formCaps_keeps (fun _ _ _ => rfl) s

theorem formCaps_eWd (s : State) : (formCaps s).sched.eWd = s.sched.eWd := formCaps_keeps (fun _ _ _ => rfl) s

/-! ### The power controller over the payment of a tick (R466) and an evaluation of T (R446) -/

/-- Domains that a vote wakes are the whole change (R455). -/
theorem raiseVoted_pwr (s : State) : ∃ dom, (raiseVoted s).pwr = { s.pwr with dom := dom } := by
  refine each_induct (P := fun u => ∃ dom, u.pwr = { s.pwr with dom := dom }) ⟨_, rfl⟩ ?_
  rintro d u ⟨dom, h⟩
  split
  · exact ⟨_, congrArg (fun x : PwrState => { x with dom := (setDom d .waking u).pwr.dom }) h⟩
  · exact ⟨dom, h⟩

theorem refreshVotes_pwr (s : State) :
    ∃ votes dom, (refreshVotes s).pwr = { s.pwr with votes := votes, dom := dom } := by
  obtain ⟨dom, h⟩ := raiseVoted_pwr (s |> (fun s => setVotes 1 (supVotes s) s) |> (fun s => setVotes 2 (schedVotes s) s)
    |> (fun s => setVotes 3 (tallyVotes s) s) |> (fun s => setVotes 4 (timeVotes s) s)
    |> (fun s => setVotes 5 (protVotes s) s) |> (fun s => setVotes 7 (chainVotes s) s))
  exact ⟨_, dom, h⟩

/-- An evaluation writes T, takes the wake as seen, and moves votes and domains. -/
theorem evaluateTarget_pwr (s : State) : ∃ target votes dom,
    (evaluateTarget s).pwr = { s.pwr with target := target, wake := false, votes := votes, dom := dom } := by
  unfold evaluateTarget
  cases s.pwr.wake <;> exact ⟨_, (refreshVotes_pwr _).imp fun _ => Exists.imp fun _ h => h⟩

theorem evaluateTarget_wake (s : State) : (evaluateTarget s).pwr.wake = false := by
  obtain ⟨target, votes, dom, h⟩ := evaluateTarget_pwr s
  rw [h]

theorem evaluateTarget_lateAllowPj (s : State) : (evaluateTarget s).pwr.lateAllowPj = s.pwr.lateAllowPj := by
  obtain ⟨target, votes, dom, h⟩ := evaluateTarget_pwr s
  rw [h]

theorem lpiEnter_pwr (p : Nat) (s : State) : (lpiEnter p s).pwr = s.pwr :=
  (lpiEnter_frame (m := 1048588) Frame.rfl' rfl).pwr rfl

theorem event_pwr (code : BitVec 16) (payload : Bytes) (s : State) : (event code payload s).pwr = s.pwr :=
  (event_frame (m := 70368744179720) Frame.rfl' rfl).pwr rfl

theorem shedBlock_lateAllowPj (b : Nat) (s : State) : (shedBlock b s).pwr.lateAllowPj = s.pwr.lateAllowPj := by
  unfold shedBlock
  split
  next => rfl
  next =>
    split
    next => split <;> rfl
    next =>
      exact each_induct (P := fun u => u.pwr.lateAllowPj = s.pwr.lateAllowPj) rfl fun p u h =>
        (congrArg PwrState.lateAllowPj (lpiEnter_pwr p u)).trans h

theorem when'_shedAll_lateAllowPj (c : Bool) (s : State) : (when' c shedAll s).pwr.lateAllowPj = s.pwr.lateAllowPj :=
  when'_induct (P := fun u => u.pwr.lateAllowPj = s.pwr.lateAllowPj) rfl fun _ _ =>
    each_induct (P := fun u => u.pwr.lateAllowPj = s.pwr.lateAllowPj) rfl fun b u h => (shedBlock_lateAllowPj b u).trans h

theorem when'_pwr {c : Bool} {f : State → State} {s : State} (h : ∀ u, (f u).pwr = u.pwr) : (when' c f s).pwr = s.pwr :=
  when'_induct (P := fun u => u.pwr = s.pwr) rfl fun _ e => (h _).trans e

theorem payTick_lateAllowPj (late : Bool) (a : Nat) (s : State) :
    (payTick late a s).pwr.lateAllowPj = s.pwr.lateAllowPj := by
  simp only [payTick, when'_pwr (event_pwr _ _), when'_pwr (count_pwr _), modPwr_pwr, when'_shedAll_lateAllowPj]

/-- A grant of a GOV that is late waits to be shown (R23, R25). -/
theorem govGrant_lateAllowPj {i : TickInputs} (h : i.govLate = true) (s : State) :
    (govGrant i s).pwr.lateAllowPj.isSome = true := by
  unfold govGrant
  rw [h, payTick_lateAllowPj]
  rfl

end Sys2Proof.Machine
end

section
/-! The work of a tick after its edge (R22 to R25, R300, R305): GOV's late grant, the plan of SCHED, and the supervisor's
loops. -/
namespace Sys2Proof.Machine

theorem exec_govLateComplete {s : State} (q : s.quiet) : exec .govLateComplete s = .next (govLate s) :=
  execGovLateComplete_eq q

theorem exec_schedPlan {s : State} (q : s.quiet) : exec .schedPlan s = .next (planRow s) := execSchedPlan_eq q

theorem exec_supLoops {s : State} (q : s.quiet) : exec .supLoops s = .next (supLoops s) := execSupLoops_eq q

theorem planRow_of_no_overrun {s : State} (h : (s.tick.overruns.any fun e => e.1 == 2) = false) : planRow s = schedPlan s :=
  if_neg (by rw [h]; exact Bool.false_ne_true)

theorem planRow_of_overrun {s : State} (h : (s.tick.overruns.any fun e => e.1 == 2) = true) : planRow s = formCaps s :=
  if_pos h

theorem planRow_sameBut (s : State) : SameBut [.sched, .cls] s (planRow s) :=
  (planRow_frame (m := 34078720) Frame.rfl' rfl).sameBut (by decide)

theorem formCaps_sameBut (s : State) : SameBut [.sched] s (formCaps s) :=
  (formCaps_frame (m := 524288) Frame.rfl' rfl).sameBut (by decide)

/-- The plan a tick is given, before the caps are formed from it. -/
def plannedState (s : State) : State :=
  { s with sched := { s.sched with
      phi := phiOf (leftPj s) (weightedPj s) s.pwr.shortfall, prev := false, eW := leftPj s, eWd := weightedPj s } }

theorem plannedState_plan (s : State) :
    (plannedState s).sched.prev = false ∧ (plannedState s).sched.eW = leftPj s ∧ (plannedState s).sched.eWd = weightedPj s ∧
      (plannedState s).sched.phi = phiOf (leftPj s) (weightedPj s) s.pwr.shortfall :=
  ⟨rfl, rfl, rfl, rfl⟩

theorem sched_plannedState (p : Nat) (s : State) : sched p (plannedState s) = sched p s := rfl

theorem plannedState_wf {s : State} (w : s.wf) : (plannedState s).wf := w

theorem schedPlan_eq (s : State) : schedPlan s = formCaps (plannedState (settleExc s)) := rfl

theorem settleExc_frame_self (s : State) : Frame 33554432 s (settleExc s) := settleExc_frame Frame.rfl' rfl

/-- The credits of the exception path, settled first, take no part in the weighted demand. -/
theorem weightedPj_settleExc (s : State) : weightedPj (settleExc s) = weightedPj s := by
  have frame := settleExc_frame_self s
  simp only [weightedPj, rfld, reg, frame.sched rfl, frame.regs rfl]

theorem sched_schedPlan {s : State} (w : s.wf) (p : Nat) : sched p (schedPlan s) = takeCaps (sched p s) := by
  have frame := settleExc_frame_self s
  rw [schedPlan_eq, sched_formCaps (plannedState_wf (frame.lasting.wf w)), sched_plannedState, sched, frame.sched rfl]
  rfl

/-- The plan of a tick in which SCHED works (R300). -/
theorem schedPlan_plan (s : State) :
    (schedPlan s).sched.prev = false ∧ (schedPlan s).sched.eW = leftPj (settleExc s) ∧
      (schedPlan s).sched.eWd = weightedPj s ∧
      (schedPlan s).sched.phi = phiOf (leftPj (settleExc s)) (weightedPj s) s.pwr.shortfall := by
  have shortfall : (settleExc s).pwr.shortfall = s.pwr.shortfall :=
    congrArg PwrState.shortfall ((settleExc_frame_self s).pwr rfl)
  rw [schedPlan_eq, formCaps_prev, formCaps_eW, formCaps_eWd, formCaps_phi, ← weightedPj_settleExc s, ← shortfall]
  exact plannedState_plan _

theorem supLoops_of_runs {s : State} (h : supRuns s = true) :
    supLoops s = (s |> actLmms |> runBmca |> servoLoop |> protDecide |> canaryStep3 |> canaryRetry |> evaluateTarget) :=
  if_pos h

theorem supLoops_of_not_runs {s : State} (h : supRuns s = false) : supLoops s = s :=
  if_neg (by rw [h]; exact Bool.false_ne_true)

/-- The last loop is the evaluation of T, which takes the wakes of the tick as seen. -/
theorem supLoops_wake {s : State} (h : supRuns s = true) : (supLoops s).pwr.wake = false := by
  rw [supLoops_of_runs h]
  exact evaluateTarget_wake _

theorem supLoops_sameBut (s : State) :
    SameBut [.free, .outs, .regs, .time, .now, .keep, .recd, .ring, .pwr, .dom, .votes, .land, .prot, .tub, .sram, .dram,
      .sched, .ports, .lanes, .join, .ciph, .tally] s (supLoops s) :=
  (supLoops_frame (m := 85006623628814) Frame.rfl' rfl).sameBut (by decide)

/-- Settles O16: each command of the tick's work by the case its state is in. -/
theorem tickWorkRuns : Obligations.TickWorkRuns := by
  intro s q w
  refine ⟨fun a late => ?_, fun none_late => ?_, fun in_time => ?_, fun overrun => ?_, fun runs => ?_, fun stands => ?_⟩
  · rw [exec_govLateComplete q, govLate, late]
    rfl
  · rw [exec_govLateComplete q, govLate, none_late]
  · obtain ⟨prev, energy, demand, phi⟩ := schedPlan_plan s
    have frame := planRow_sameBut s
    rw [planRow_of_no_overrun in_time] at frame
    refine ⟨schedPlan s, (exec_schedPlan q).trans (congrArg _ (planRow_of_no_overrun in_time)), prev, energy, demand, ?_,
      fun p => ?_, frame⟩
    · rw [energy, demand, phi]
    · rw [sched_schedPlan w]
      exact ⟨rfl, rfl⟩
  · refine ⟨formCaps s, (exec_schedPlan q).trans (congrArg _ (planRow_of_overrun overrun)), formCaps_phi s, formCaps_prev s,
      fun p => ?_, formCaps_sameBut s⟩
    rw [sched_formCaps w]
    exact ⟨rfl, rfl⟩
  · exact ⟨_, exec_supLoops q, supLoops_of_runs runs, supLoops_wake runs, supLoops_sameBut s⟩
  · rw [exec_supLoops q, supLoops_of_not_runs stands]

end Sys2Proof.Machine
end

section
/-! The tick's edge and its overruns (R18 to R21, R24, R26, R305, R504). -/
namespace Sys2Proof.Machine

/-! ### What an overrun marks -/

theorem markOverrun_of_marked {block : Nat} {s : State} (h : (s.tick.overruns.any fun e => e.1 == block) = true) :
    markOverrun block s = s :=
  if_pos h

/-- The first overrun of a block in a tick (R24, R26, R504). -/
theorem markOverrun_of_first {block : Nat} {s : State} (h : (s.tick.overruns.any fun e => e.1 == block) = false) :
    markOverrun block s =
      (s |> setReg Reg.GEN_TICK_OVERRUN (reg Reg.GEN_TICK_OVERRUN s ||| word (2 ^ block)) |> count (Reg.GEN_TICK_OVR_CNT block)
        |> modTick (fun t => { t with overruns := t.overruns ++ [(block, 0xFFFF, t.count)] }) |> noteFault 7 block) :=
  if_neg (by rw [h]; exact Bool.false_ne_true)

theorem markOverrun_marks (block : Nat) (s : State) :
    ((markOverrun block s).tick.overruns.any fun e => e.1 == block) = true := by
  by_cases h : (s.tick.overruns.any fun e => e.1 == block) = true
  · rw [markOverrun_of_marked h, h]
  · rw [markOverrun_of_first (Bool.of_not_eq_true h)]
    simp

theorem markOverrun_pwr (block : Nat) (s : State) : (markOverrun block s).pwr = s.pwr :=
  (markOverrun_frame (m := 8589942856) Frame.rfl' rfl).pwr rfl

/-! ### The work of an edge leaves the edge: of the tick it only marks the blocks whose budgets end early -/

/-- The blocks that the operands of an edge may have overrun (R22's codes). -/
def mayOverrun (i : TickInputs) : Nat → Bool
  | 0 => i.shiftDone.isSome
  | 1 => i.govLate
  | 3 => i.circDone.isSome
  | 4 => i.gateLate
  | 5 => i.tallyLate
  | _ => false

/-- The tick is the same but for overruns added, of blocks that may have overrun. -/
def MarksLate (i : TickInputs) (t u : TickState) : Prop :=
  ∃ l, u = { t with overruns := t.overruns ++ l } ∧ ∀ e ∈ l, mayOverrun i e.1 = true

section
variable {i : TickInputs} {t : TickState} {s : State}

theorem MarksLate.refl (i : TickInputs) (t : TickState) : MarksLate i t t :=
  ⟨[], by rw [List.append_nil], List.forall_mem_nil _⟩

theorem MarksLate.keep {f : State → State} (h : MarksLate i t s.tick) (e : (f s).tick = s.tick) : MarksLate i t (f s).tick :=
  e ▸ h

theorem MarksLate.when {c : Bool} {f : State → State} (h : MarksLate i t s.tick)
    (hf : c = true → MarksLate i t s.tick → MarksLate i t (f s).tick) : MarksLate i t (when' c f s).tick :=
  when'_induct (P := fun u => MarksLate i t u.tick) h hf

theorem MarksLate.mark {block : Nat} (h : MarksLate i t s.tick) (late : mayOverrun i block = true) :
    MarksLate i t (markOverrun block s).tick := by
  by_cases marked : (s.tick.overruns.any fun e => e.1 == block) = true
  · rwa [markOverrun_of_marked marked]
  · obtain ⟨l, hl, hlate⟩ := h
    rw [markOverrun_of_first (Bool.of_not_eq_true marked)]
    refine ⟨l ++ [(block, 0xFFFF, s.tick.count)], ?_, ?_⟩
    · simp [hl]
    · simpa [or_imp, forall_and, late] using hlate

theorem MarksLate.shiftEdge (h : MarksLate i t s.tick) : MarksLate i t (shiftEdge i s).tick := by
  have applied := h.keep (f := shiftApplyAll i.shiftDone) ((shiftApplyAll_frame (m := 70368769412106) Frame.rfl' rfl).tick rfl)
  refine applied.when fun ended g => g.mark ?_
  unfold mayOverrun
  cases hd : i.shiftDone with
  | none => rw [hd] at ended; exact ended
  | some k => rfl

theorem MarksLate.circEdge (h : MarksLate i t s.tick) : MarksLate i t (circEdge i s).tick := by
  have moved := h.keep (f := circTick s.tick.count i.circDone (hasGrant s))
    ((circTick_frame (m := 83563019634702) Frame.rfl' rfl).tick rfl)
  refine moved.when fun ended g => g.mark ?_
  unfold mayOverrun
  cases hd : i.circDone with
  | none => rw [hd] at ended; exact ended
  | some k => rfl

theorem MarksLate.gateEdge (h : MarksLate i t s.tick) : MarksLate i t (gateEdge i s).tick := by
  have corrected := h.keep (f := gateLateDue) ((gateLateDue_frame (m := 524288) Frame.rfl' rfl).tick rfl)
  unfold Machine.gateEdge
  split
  next late => exact corrected.mark late
  next => exact corrected.keep ((gateCheck_frame (m := 524288) Frame.rfl' rfl).tick rfl)

theorem MarksLate.tallyEdge (h : MarksLate i t s.tick) : MarksLate i t (tallyEdge i s).tick := by
  unfold Machine.tallyEdge
  split
  next late => exact h.mark late
  next =>
    have settled := h.keep (f := settleReceipts) ((settleReceipts_frame (m := 13194241900558) Frame.rfl' rfl).tick rfl)
    exact settled.keep ((tallyWindow_frame (m := 83562951477262) Frame.rfl' rfl).tick rfl)

end

theorem circEdges_tick (s : State) : (circEdges s).tick = s.tick :=
  (circEdges_frame (m := 83563018586126) Frame.rfl' rfl).tick rfl

theorem schedEdge_tick (s : State) : (schedEdge s).tick = s.tick := (schedEdge_frame (m := 655360) Frame.rfl' rfl).tick rfl

theorem planEdge_tick (s : State) : (planEdge s).tick = s.tick := rfl

theorem govGrant_tick (i : TickInputs) (s : State) : (govGrant i s).tick = s.tick :=
  (govGrant_frame (m := 70368745756684) Frame.rfl' rfl).tick rfl

theorem grantBudget_tick (s : State) : (grantBudget s).tick = s.tick :=
  (grantBudget_frame (m := 67108864) Frame.rfl' rfl).tick rfl

/-- The blocks in the order of R22 and R23. -/
theorem edgeWork_marksLate (i : TickInputs) (s : State) : MarksLate i s.tick (edgeWork i s).tick := by
  have configured := (MarksLate.refl i s.tick).when (c := works 4 s) fun _ h => h.keep (circEdges_tick s)
  have shifted := configured.when (c := works 18 s) fun _ h => h.shiftEdge
  have moved := shifted.when (c := works 4 s) fun _ h => h.circEdge
  have checked := moved.when (c := works 4 s) fun _ h => h.gateEdge
  have counted := checked.when (c := works 17 s) fun _ h => h.tallyEdge
  have demanded := counted.when (c := works 4 s) fun _ h => h.keep (schedEdge_tick _)
  have granted := (demanded.keep (planEdge_tick _)).keep (govGrant_tick i _)
  have marked := granted.when (c := i.govLate) fun late h => h.mark (block := 1) late
  exact marked.when fun _ h => h.keep (grantBudget_tick _)

/-- GOV's overrun is marked, and its grant waits to be shown (R23, R24). -/
def GovOverran (s : State) : Prop :=
  (s.tick.overruns.any fun e => e.1 == 1) = true ∧ s.pwr.lateAllowPj.isSome = true

theorem GovOverran.of_eq {s u : State} (h : GovOverran s) (tick : u.tick = s.tick)
    (late : u.pwr.lateAllowPj = s.pwr.lateAllowPj) : GovOverran u := by
  unfold GovOverran
  rwa [tick, late]

/-- A late grant is followed by its overrun and by the acceptance budget alone. -/
theorem edgeWork_govLate {i : TickInputs} (late : i.govLate = true) (s : State) : GovOverran (edgeWork i s) := by
  have marked : ∀ u, GovOverran (when' i.govLate (markOverrun 1) (govGrant i u)) := fun u => by
    rw [late, when'_true]
    have waits := govGrant_lateAllowPj late u
    rw [← markOverrun_pwr 1] at waits
    exact ⟨markOverrun_marks 1 _, waits⟩
  have budgeted : ∀ c u, GovOverran u → GovOverran (when' c grantBudget u) := fun c u h => by
    have frame : Frame 67108864 u (when' c grantBudget u) := when'_frame Frame.rfl' fun _ g => grantBudget_frame g rfl
    exact h.of_eq (frame.tick rfl) (congrArg _ (frame.pwr rfl))
  exact budgeted _ _ (marked _)

/-! ### What the other units take at an edge -/

theorem edgeRest_tick (s : State) : (edgeRest s).tick = s.tick :=
  (edgeRest_frame (m := 71547712716296) Frame.rfl' rfl).tick rfl

theorem edgeRest_vectorSent (s : State) : (edgeRest s).host.vectorSent = [] := by
  unfold edgeRest
  rw [(when'_frame Frame.rfl' fun v h => evaluateTarget_frame (m := 1168231108608) h rfl).host rfl]
  rfl

theorem when'_evaluateTarget_lateAllowPj (c : Bool) (s : State) :
    (when' c evaluateTarget s).pwr.lateAllowPj = s.pwr.lateAllowPj :=
  when'_induct (P := fun u => u.pwr.lateAllowPj = s.pwr.lateAllowPj) rfl fun _ h => (evaluateTarget_lateAllowPj _).trans h

theorem edgeRest_lateAllowPj (s : State) : (edgeRest s).pwr.lateAllowPj = s.pwr.lateAllowPj := by
  have owner : (ownerAtEdge s).pwr = s.pwr := (ownerAtEdge_frame (m := 512) Frame.rfl' rfl).pwr rfl
  have source : ∀ u, (selectSource (activeSide u) u).pwr = u.pwr := fun u =>
    (selectSource_frame (m := 70368744180232) Frame.rfl' rfl).pwr rfl
  have vcore : ∀ u, (vcoreEdge u).pwr = u.pwr := fun u => (vcoreEdge_frame (m := 70377334123528) Frame.rfl' rfl).pwr rfl
  simp only [edgeRest, when'_evaluateTarget_lateAllowPj, modHost_pwr, noteIdle, modPwr_pwr, when'_pwr vcore,
    when'_pwr source, owner]

/-! ### The edge (R18 to R21) -/

/-- The state in which the edge comes: what the cycle had open is settled, the overruns before it are recorded (R26). -/
def beforeEdge (s : State) : State := s |> settleTubs |> settleExceptions |> recordOverruns

theorem edge_eq (i : TickInputs) (s : State) : edge i s = edgeRest (edgeWork i (newEdge i.phaseNs (beforeEdge s))) := rfl

theorem beforeEdge_frame (s : State) : Frame 83562917922894 s (beforeEdge s) :=
  recordOverruns_frame (settleExceptions_frame (settleTubs_frame Frame.rfl' rfl) rfl) rfl

/-- No overrun is left to record. -/
theorem recordOverruns_tick (s : State) : (recordOverruns s).tick = { s.tick with overruns := [] } :=
  each_induct (P := fun u => u.tick = { s.tick with overruns := [] }) rfl fun _ _ h =>
    ((event_frame (m := 70368744179720) Frame.rfl' rfl).tick rfl).trans h

theorem beforeEdge_tick (s : State) : (beforeEdge s).tick = { s.tick with overruns := [] } := by
  have settled : Frame 83562917922830 s (settleExceptions (settleTubs s)) :=
    settleExceptions_frame (settleTubs_frame Frame.rfl' rfl) rfl
  rw [beforeEdge, recordOverruns_tick, settled.tick rfl]

theorem activeSide_beforeEdge (s : State) : activeSide (beforeEdge s) = activeSide s := by
  rw [activeSide, (beforeEdge_frame s).prot rfl, activeSide]

theorem seam_beforeEdge (side n : Nat) (s : State) : seam side n (beforeEdge s) = seam side n s := by
  rw [seam, (beforeEdge_frame s).seams rfl, seam]

theorem lowestSync_beforeEdge (s : State) :
    lowestSync (activeSide (beforeEdge s)) (beforeEdge s) = lowestSync (activeSide s) s := by
  simp only [lowestSync, inSync, activeSide_beforeEdge, seam_beforeEdge]

/-- The tick of an edge generated locally: one count on, the phase of the last edge moved toward its target (R19 to R21). -/
def localTick (t : TickState) : TickState :=
  { t with line := false, count := t.count + 1, phaseNs := slewNs t.phaseNs,
           slewing := decide (8 ≤ (slewNs t.phaseNs).natAbs) }

/-- The tick of an edge from a seam, after its move (R18, R20, R21). -/
def lineTick (side n : Nat) (fc : BitVec 48) (phase : Int) (t : TickState) : TickState :=
  { t with line := true, side := sideOf side, seam := Fin.ofNat 4 n, count := fc, phaseNs := phase,
           slewing := decide (8 ≤ phase.natAbs) }

theorem newEdge_tick_local {phaseNs : Int} {s : State} (h : lowestSync (activeSide s) s = none) :
    (newEdge phaseNs s).tick = localTick s.tick := by
  simp only [newEdge, h]
  rfl

theorem newEdge_tick_line {phaseNs : Int} {s : State} {n : Nat} (h : lowestSync (activeSide s) s = some n) :
    ∃ phase, (newEdge phaseNs s).tick = lineTick (activeSide s) n ((seam (activeSide s) n s).fc + 1) phase s.tick := by
  simp only [newEdge, h]
  exact ⟨_, (when'_frame Frame.rfl' fun _ h => event_frame (m := 70368744179720) h rfl).tick rfl⟩

/-- An edge moves the phase by at most 2 µs (R20). -/
theorem natAbs_slewNs_sub_le (x : Int) : (slewNs x - x).natAbs ≤ 2000 := by
  unfold slewNs
  split
  · omega
  · split <;> omega

section
variable {i : TickInputs} {s : State}

theorem edge_marksLate (i : TickInputs) (s : State) : MarksLate i (newEdge i.phaseNs (beforeEdge s)).tick (edge i s).tick := by
  rw [edge_eq, edgeRest_tick]
  exact edgeWork_marksLate i _

/-- The tick of a locally generated edge. -/
theorem edge_tick_local (h : lowestSync (activeSide s) s = none) :
    MarksLate i (localTick { s.tick with overruns := [] }) (edge i s).tick := by
  have marks := edge_marksLate i s
  rwa [newEdge_tick_local ((lowestSync_beforeEdge s).trans h), beforeEdge_tick] at marks

/-- The tick of a line-derived edge. -/
theorem edge_tick_line {n : Nat} (h : lowestSync (activeSide s) s = some n) : ∃ phase,
    MarksLate i (lineTick (activeSide s) n ((seam (activeSide s) n s).fc + 1) phase { s.tick with overruns := [] })
      (edge i s).tick := by
  have marks := edge_marksLate i s
  obtain ⟨phase, e⟩ := newEdge_tick_line (phaseNs := i.phaseNs) ((lowestSync_beforeEdge s).trans h)
  rw [e, beforeEdge_tick, activeSide_beforeEdge, seam_beforeEdge] at marks
  exact ⟨phase, marks⟩

theorem edge_line {n : Nat} (h : lowestSync (activeSide s) s = some n) :
    (edge i s).tick.line = true ∧ (edge i s).tick.seam = Fin.ofNat 4 n ∧
      (edge i s).tick.count = (seam (activeSide s) n s).fc + 1 := by
  obtain ⟨phase, l, e, -⟩ := edge_tick_line (i := i) h
  rw [e]
  exact ⟨rfl, rfl, rfl⟩

theorem edge_local (h : lowestSync (activeSide s) s = none) :
    (edge i s).tick.line = false ∧ (edge i s).tick.count = s.tick.count + 1 ∧
      ((edge i s).tick.phaseNs - s.tick.phaseNs).natAbs ≤ 2000 := by
  obtain ⟨l, e, -⟩ := edge_tick_local (i := i) h
  rw [e]
  exact ⟨rfl, rfl, natAbs_slewNs_sub_le _⟩

theorem edge_slewing : (edge i s).tick.slewing = true ↔ 8 ≤ (edge i s).tick.phaseNs.natAbs := by
  cases h : lowestSync (activeSide s) s with
  | none =>
    obtain ⟨l, e, -⟩ := edge_tick_local (i := i) h
    rw [e]
    exact decide_eq_true_iff
  | some n =>
    obtain ⟨phase, l, e, -⟩ := edge_tick_line (i := i) h
    rw [e]
    exact decide_eq_true_iff

/-- Every overrun of a new tick is of a block whose budget its operands end. -/
theorem edge_overruns {e : Nat × BitVec 16 × BitVec 48} (he : e ∈ (edge i s).tick.overruns) : mayOverrun i e.1 = true := by
  cases h : lowestSync (activeSide s) s with
  | none =>
    obtain ⟨l, t, late⟩ := edge_tick_local (i := i) h
    rw [t] at he
    exact late e he
  | some n =>
    obtain ⟨phase, l, t, late⟩ := edge_tick_line (i := i) h
    rw [t] at he
    exact late e he

theorem not_mayOverrun_of_in_time (shift : i.shiftDone = none) (circ : i.circDone = none) (gate : i.gateLate = false)
    (tally : i.tallyLate = false) (gov : i.govLate = false) (block : Nat) : mayOverrun i block = false := by
  unfold mayOverrun
  split <;> simp [shift, circ, gate, tally, gov]

theorem edge_govLate (late : i.govLate = true) : GovOverran (edge i s) := by
  rw [edge_eq]
  exact (edgeWork_govLate late _).of_eq (edgeRest_tick _) (edgeRest_lateAllowPj _)

theorem edge_vectorSent : (edge i s).host.vectorSent = [] := by
  rw [edge_eq, edgeRest_vectorSent]

theorem edge_sameBut : SameBut [.free, .outs, .regs, .tick, .tickCount, .time, .keep, .recd, .ring, .pwr, .dom, .votes, .assay,
    .faultsIn, .seams, .tub, .sram, .dram, .sched, .ports, .join, .ciph, .cls, .tally, .circuits, .host] s (edge i s) :=
  (edge_frame (m := 84776473804366) Frame.rfl' rfl).sameBut (by decide)

theorem exec_tickEdge (q : s.quiet) (wi : i.wf = true) (running : s.boot.inReset = none) :
    exec (.tickEdge i) s = .next (settleFaults (edge i s)) := by
  have open_edge : tickEdge i s = edge i s := if_neg (by rw [running]; exact Bool.false_ne_true)
  exact (execTickEdge_eq i q wi).trans (by rw [open_edge])

theorem exec_localTickCountExpiry (q : s.quiet) (wi : i.wf = true) (running : s.boot.inReset = none)
    (h : lowestSync (activeSide s) s = none) : exec (.localTickCountExpiry i) s = .next (settleFaults (edge i s)) := by
  have open_edge : localExpiry i s = edge i s := if_neg (by rw [running, h]; exact Bool.false_ne_true)
  exact (execLocalTickCountExpiry_eq i q wi).trans (by rw [open_edge])

/-- Where a seam gives the tick, the local count expires without effect (R18, R19). -/
theorem exec_localTickCountExpiry_line (q : s.quiet) (wi : i.wf = true) (h : lowestSync (activeSide s) s ≠ none) :
    exec (.localTickCountExpiry i) s = .next s := by
  have no_edge : localExpiry i s = s := if_pos (by rw [Option.isSome_iff_ne_none.mpr h, Bool.or_true])
  exact (execLocalTickCountExpiry_eq i q wi).trans (by rw [no_edge, settleFaults_nil q.2])

end

/-! ### TICK_OVERRUN (R24, R26, R305) -/

theorem exec_tickOverrun {s : State} (q : s.quiet) (block : Fin 7) (lateUs : Option (BitVec 16)) :
    exec (.tickOverrun block lateUs) s = .next (settleFaults (tickOverrun block lateUs s)) :=
  execTickOverrun_eq block lateUs q

/-- LATE_US of the work's completion, in the record of its block's overrun. -/
def tellLate (block : Nat) (us : BitVec 16) (l : List (Nat × BitVec 16 × BitVec 48)) : List (Nat × BitVec 16 × BitVec 48) :=
  l.map fun e => if e.1 = block then (block, us, e.2.2) else e

theorem tellLate_of_unmarked {block : Nat} {us : BitVec 16} {l : List (Nat × BitVec 16 × BitVec 48)}
    (h : (l.any fun e => e.1 == block) = false) : tellLate block us l = l := by
  refine List.map_congr_left (g := id) (fun e he => if_neg ?_) |>.trans (List.map_id l)
  simpa using List.any_eq_false.mp h e he

section
variable {block : Nat} {s : State}

/-- TICK_OVERRUN of a block other than SCHED and GATE, its work completed late: the mark, and LATE_US. -/
theorem tickOverrun_some (us : BitVec 16) (h2 : block ≠ 2) (h4 : block ≠ 4) (s : State) :
    tickOverrun block (some us) s =
      modTick (fun t => { t with overruns := tellLate block us t.overruns }) (markOverrun block s) := by
  simp only [tickOverrun, beq_false_of_ne h2, beq_false_of_ne h4]
  rfl

theorem tickOverrun_none (h2 : block ≠ 2) (s : State) : tickOverrun block none s = markOverrun block s := by
  simp only [tickOverrun, beq_false_of_ne h2]
  rfl

/-- After the mark, TICK_OVERRUN touches the tick's records and what SCHED and GATE hold, and nothing else. -/
theorem tickOverrun_after_mark (block : Nat) (lateUs : Option (BitVec 16)) (s : State) :
    Frame 524352 (markOverrun block s) (tickOverrun block lateUs s) := by
  have capped : Frame 524352 (markOverrun block s) (when' (block == 2) formCaps (markOverrun block s)) :=
    when'_frame Frame.rfl' fun _ h => formCaps_frame h rfl
  cases lateUs with
  | none => exact capped
  | some us =>
    exact when'_frame (modTick_frame capped rfl (.inr fun _ => rfl)) fun _ h => gateCheck_frame h rfl

/-- The records of the tick after TICK_OVERRUN, whatever its block. -/
theorem tickOverrun_tick (block : Nat) (lateUs : Option (BitVec 16)) (s : State) :
    (tickOverrun block lateUs s).tick = { (markOverrun block s).tick with
      overruns := lateUs.elim id (tellLate block) (markOverrun block s).tick.overruns } := by
  have capped : (when' (block == 2) formCaps (markOverrun block s)).tick = (markOverrun block s).tick :=
    (when'_frame (m := 524288) Frame.rfl' fun _ h => formCaps_frame h rfl).tick rfl
  cases lateUs with
  | none => exact capped
  | some us =>
    refine ((when'_frame (m := 524288) Frame.rfl' fun _ h => gateCheck_frame h rfl).tick rfl).trans ?_
    rw [modTick_tick, capped]
    rfl

theorem tickOverrun_sched_of_other (h2 : block ≠ 2) (h4 : block ≠ 4) (lateUs : Option (BitVec 16)) (s : State) :
    (tickOverrun block lateUs s).sched = s.sched := by
  have marked : (markOverrun block s).sched = s.sched := (markOverrun_frame (m := 8589942856) Frame.rfl' rfl).sched rfl
  cases lateUs with
  | none => rw [tickOverrun_none h2, marked]
  | some us => rw [tickOverrun_some us h2 h4, modTick_sched, marked]

/-- SCHED's overrun forms the caps of the tick from the plan in force (R305). -/
theorem sched_tickOverrun_sched (w : s.wf) (lateUs : Option (BitVec 16)) (p : Nat) :
    sched p (tickOverrun 2 lateUs s) = takeCaps (sched p s) := by
  have frame : Frame 8589942856 s (markOverrun 2 s) := markOverrun_frame Frame.rfl' rfl
  have capped : sched p (tickOverrun 2 lateUs s) = sched p (formCaps (markOverrun 2 s)) := by cases lateUs <;> rfl
  rw [capped, sched_formCaps (frame.lasting.wf w), sched, frame.sched rfl, sched]

/-- A block that has overrun in this tick is not counted again: only LATE_US is told. -/
theorem tickOverrun_of_marked (h : (s.tick.overruns.any fun e => e.1 == block) = true) (h2 : block ≠ 2) :
    tickOverrun block none s = s ∧ ∀ us, block ≠ 4 →
      tickOverrun block (some us) s = modTick (fun t => { t with overruns := tellLate block us t.overruns }) s := by
  refine ⟨?_, fun us h4 => ?_⟩
  · rw [tickOverrun_none h2, markOverrun_of_marked h]
  · rw [tickOverrun_some us h2 h4, markOverrun_of_marked h]

end

section
variable {block : Nat} {lateUs : Option (BitVec 16)} {s : State}
  (h : (s.tick.overruns.any fun e => e.1 == block) = false)
include h

/-- The first overrun's record, its work completed or abandoned. -/
theorem tickOverrun_tick_of_first : (tickOverrun block lateUs s).tick =
    { s.tick with overruns := s.tick.overruns ++ [(block, lateUs.getD 0xFFFF, s.tick.count)] } := by
  rw [tickOverrun_tick, markOverrun_of_first h]
  cases lateUs with
  | none => rfl
  | some us =>
    have old : tellLate block us s.tick.overruns = s.tick.overruns := tellLate_of_unmarked h
    have told : tellLate block us (s.tick.overruns ++ [(block, 0xFFFF, s.tick.count)]) =
        s.tick.overruns ++ [(block, us, s.tick.count)] := by
      rw [tellLate, List.map_append, ← tellLate, old]
      simp
    exact congrArg (fun l => { s.tick with overruns := l }) told

theorem tickOverrun_faultsIn_of_first (q : s.quiet) : (tickOverrun block lateUs s).assay.faultsIn = [(7, block)] := by
  rw [(tickOverrun_after_mark block lateUs s).assay rfl, markOverrun_of_first h]
  exact congrArg (· ++ [(7, block)]) q.2

theorem reg_tickOverrun_of_first (a : Nat) : reg a (tickOverrun block lateUs s) =
    reg a (s |> setReg Reg.GEN_TICK_OVERRUN (reg Reg.GEN_TICK_OVERRUN s ||| word (2 ^ block))
      |> count (Reg.GEN_TICK_OVR_CNT block)) := by
  rw [reg, (tickOverrun_after_mark block lateUs s).regs rfl, markOverrun_of_first h]
  rfl

end

theorem tickOvrCnt_ne_tickOverrun (block : Nat) : Reg.GEN_TICK_OVR_CNT block ≠ Reg.GEN_TICK_OVERRUN := by
  unfold Reg.GEN_TICK_OVR_CNT Reg.GEN_TICK_OVERRUN
  omega

/-- The bit and the counter of a first overrun, and no other register (R24). -/
theorem tickOverrun_regs_of_first {block : Nat} {lateUs : Option (BitVec 16)} {s : State} (w : s.wf)
    (h : (s.tick.overruns.any fun e => e.1 == block) = false) :
    reg Reg.GEN_TICK_OVERRUN (tickOverrun block lateUs s) = reg Reg.GEN_TICK_OVERRUN s ||| word (2 ^ block) ∧
      reg (Reg.GEN_TICK_OVR_CNT block) (tickOverrun block lateUs s) = satAdd (reg (Reg.GEN_TICK_OVR_CNT block) s) 1 ∧
      RegsBut [Reg.GEN_TICK_OVERRUN, Reg.GEN_TICK_OVR_CNT block] s (tickOverrun block lateUs s) := by
  obtain ⟨hregs, -⟩ := w
  have ne := tickOvrCnt_ne_tickOverrun block
  refine ⟨?_, ?_, fun a ha => ?_⟩ <;> rw [reg_tickOverrun_of_first h, count, countN]
  · rw [reg_setReg_ne ne.symm, reg_setReg_same hregs]
  · rw [reg_setReg_same (twf_tput hregs), reg_setReg_ne ne]
  · obtain ⟨hbits, hcount⟩ : a ≠ Reg.GEN_TICK_OVERRUN ∧ a ≠ Reg.GEN_TICK_OVR_CNT block := by simpa using ha
    rw [reg_setReg_ne hcount, reg_setReg_ne hbits]

/-- Settles O15: an edge by the marks its work leaves, an overrun by whether it is its block's first of the tick. -/
theorem tickEdgesAndOverrunsCount : Obligations.TickEdgesAndOverrunsCount := by
  refine ⟨fun i s q wi running => ⟨⟨edge i s, exec_tickEdge q wi running, fun n => edge_line, edge_local, edge_slewing,
    edge_vectorSent, ?_, edge_govLate, edge_sameBut⟩, fun unsynced => ?_, exec_localTickCountExpiry_line q wi⟩,
    fun block lateUs s q w => ⟨fun first => ?_, fun marked h2 => ?_⟩⟩
  · intro shift circ gate tally gov
    refine List.eq_nil_iff_forall_not_mem.mpr fun e he => ?_
    exact absurd (edge_overruns he) (by rw [not_mayOverrun_of_in_time shift circ gate tally gov]; exact Bool.false_ne_true)
  · have expires := exec_localTickCountExpiry q wi running unsynced
    obtain ⟨line, count, -⟩ := edge_local (i := i) unsynced
    exact ⟨edge i s, expires, line, count, expires.trans (exec_tickEdge q wi running).symm⟩
  · obtain ⟨bit, counted, others⟩ := tickOverrun_regs_of_first (lateUs := lateUs) w first
    refine ⟨tickOverrun block lateUs s, exec_tickOverrun q block lateUs, ?_, fun h2 h4 => ?_, bit, counted,
      tickOverrun_tick_of_first first, tickOverrun_faultsIn_of_first first q, others,
      (tickOverrun_frame (m := 8590467144) Frame.rfl' rfl).sameBut (by decide)⟩
    · rintro rfl p
      have caps : sched p (tickOverrun 2 lateUs s) = takeCaps (sched p s) := sched_tickOverrun_sched w lateUs p
      exact ⟨congrArg PortSched.capDemand caps, congrArg PortSched.capOver caps⟩
    · exact tickOverrun_sched_of_other (fun e => h2 (Fin.ext e)) (fun e => h4 (Fin.ext e)) lateUs s
  · obtain ⟨abandoned, told⟩ := tickOverrun_of_marked marked fun e => h2 (Fin.ext e)
    refine ⟨?_, fun us h4 => ?_⟩
    · rw [exec_tickOverrun q, abandoned, settleFaults_nil q.2]
    · rw [exec_tickOverrun q, told us fun e => h4 (Fin.ext e), settleFaults_nil]
      · rfl
      · exact q.2

end Sys2Proof.Machine
end

section
/-! The resets that load from flash and the phases that stop a start-up (R52, R53, R58, R61, R63, R576). -/
namespace Sys2Proof.Machine

/-! ### Registers of PD_AON: no phase refuses them and no access waits for them -/

theorem refusesAccess_of_low {a : Nat} (low : a < 0x100000) (s : State) : refusesAccess a s = false := by
  simp [refusesAccess, Nat.not_le.mpr low]

theorem judge_of_low {a : Nat} (low : a < 0x100000) (held : (regRow a).isNone = false) (s : State) : judge a s = .perform := by
  simp [judge, refusesAccess_of_low low, held, regDomain, low, domState]

/-! ### HELD and NO_IMAGE (R52, R53) -/

theorem judge_of_held {a : Nat} {s : State} (stopped : s.boot.phase = .held ∨ s.boot.phase = .noImage) (high : 0x100000 ≤ a) :
    judge a s = .refused := by
  rcases stopped with h | h <;> simp [judge, refusesAccess, high, h]

/-- Only a phase refuses an access. -/
theorem judge_ne_refused {a : Nat} {s : State} (h : refusesAccess a s = false) : judge a s ≠ .refused := by
  rw [judge, h, if_neg Bool.false_ne_true]
  repeat' split
  all_goals exact nofun

section
variable {addr : Word} {s : State}

theorem exec_regWrite_refused (q : s.quiet) (al : addr.toNat % 4 = 0) (hj : judge addr.toNat s = .refused) (src : Source)
    (value same : Word) : exec (.regWrite src addr value same) s = .next (emit (.accessRefused src addr) s) := by
  rw [exec_regWrite_aligned al]
  simp only [access, hj, refuseAccess]
  exact finish_quiet q.1 q.2

theorem exec_rcClearingRead_refused (q : s.quiet) (al : addr.toNat % 4 = 0) (hj : judge addr.toNat s = .refused) (src : Source)
    (inc : Word) : exec (.rcClearingRead src addr inc) s = .next (emit (.accessRefused src addr) s) := by
  rw [exec_rcClearingRead_aligned al]
  simp only [access, hj, refuseAccess]
  exact finish_quiet q.1 q.2

end

/-- Settles O14: the phase refuses every address outside the GEN and IMG blocks, by whichever command it is accessed. -/
theorem heldTerminalRefusesOtherBlocks : Obligations.HeldTerminalRefusesOtherBlocks := by
  intro src addr value same inc s q al stopped
  refine ⟨fun high => ?_, fun low => judge_ne_refused (refusesAccess_of_low low s)⟩
  have hj := judge_of_held stopped high
  have hw := fun same => exec_regWrite_refused q al hj src value same
  have hr := exec_rcClearingRead_refused q al hj src inc
  exact ⟨hw same, (exec_pwWrite ..).trans (hw 0), hr, (exec_lrLowWordRead ..).trans hr⟩

/-! ### What a reset that loads from flash takes and keeps (R58, R63) -/

section
variable (k : ResetKind) (sub : Nat) (s : State)

/-- Every access that waited is given up (R63). -/
theorem fullReset_stalled : (fullReset k sub s).pwr.stalled = [] := by
  cases k <;> rfl

theorem finish_fullReset (n : Nat) :
    finish (countN Reg.CNT_RESET_MERGED n (fullReset k sub s)) = .next (countN Reg.CNT_RESET_MERGED n (fullReset k sub s)) :=
  finish_quiet (fullReset_stalled k sub s) rfl

theorem reg_fullReset (a : Nat) : reg a (fullReset k sub s) = if keepsReg k a then reg a s else resetValue a :=
  tget_filter

theorem fullReset_ring : (fullReset k sub s).recd.ring = s.recd.ring ∧ (fullReset k sub s).recd.newestSeq = s.recd.newestSeq ∧
    (fullReset k sub s).recd.oldestSeq = s.recd.oldestSeq := by
  cases k <;> exact ⟨rfl, rfl, rfl⟩

theorem fullReset_time :
    (losesTime k = true → (fullReset k sub s).time = TimeState.reset ∧ (fullReset k sub s).tick = TickState.reset) ∧
      (losesTime k = false → (fullReset k sub s).time = s.time ∧ (fullReset k sub s).tick.count = s.tick.count) := by
  refine ⟨fun lost => ?_, fun kept => ?_⟩
  · exact ⟨if_pos lost, if_pos lost⟩
  · simp [fullReset, kept]

theorem fullReset_pwr : (k = .cold → (fullReset k sub s).pwr = PwrState.reset) ∧
    (k ≠ .cold → (fullReset k sub s).pwr.votes = s.pwr.votes ∧ (fullReset k sub s).pwr.ladder = 0) := by
  refine ⟨?_, fun warm => ?_⟩
  · rintro rfl
    rfl
  · simp only [fullReset, resetPwr, if_neg warm, and_self]

end

/-! ### The requests (R61) -/

section
variable {k : ResetKind} {s : State}

/-- A request made while no reset is in progress is carried out; the Domain resets it overrides are counted. -/
theorem requestReset_of_idle (idle : s.boot.inReset = none) (sub : Nat) :
    requestReset k sub s = countN Reg.CNT_RESET_MERGED (domainsAsked s) (fullReset k sub s) := by
  simp only [requestReset, idle]

theorem requestReset_of_same (busy : s.boot.inReset = some k) (sub : Nat) :
    requestReset k sub s = modBoot (fun b => { b with heldReset := some (k, sub) }) s := by
  simp only [requestReset, busy, if_true]

theorem requestReset_of_lower {p : ResetKind} (busy : s.boot.inReset = some p) (lower : resetRank p < resetRank k) (sub : Nat) :
    requestReset k sub s = count Reg.CNT_RESET_MERGED s := by
  have other : p ≠ k := fun e => Nat.lt_irrefl _ (e ▸ lower)
  simp only [requestReset, busy, if_neg other, if_pos lower]

theorem requestReset_of_higher {p : ResetKind} (busy : s.boot.inReset = some p) (higher : resetRank k < resetRank p) (sub : Nat) :
    requestReset k sub s =
      countN Reg.CNT_RESET_MERGED (1 + b2n s.boot.heldReset.isSome) (fullReset k sub s) := by
  have other : p ≠ k := fun e => Nat.lt_irrefl _ (e ▸ higher)
  simp only [requestReset, busy, if_neg other, if_neg (Nat.lt_asymm higher)]

end

/-! ### The commands that request one -/

theorem exec_coldReset (s : State) :
    exec .coldReset s = finish (requestReset .cold 0 (modSupply (fun x => { x with vauxLost := false }) s)) := rfl

theorem exec_pinReset (s : State) : exec .pinReset s = finish (requestReset .pin 0 s) := rfl

theorem exec_dipReset {mv : BitVec 16} {s : State} (low : mv.toNat ≤ 9600) (vaux : s.supply.vauxLost = false) :
    exec (.dipReset mv) s = finish (requestReset .dip 0 (modSupply (fun x => { x with vinMv := mv }) s)) :=
  congrArg finish (if_pos ⟨low, congrArg not vaux⟩)

theorem exec_vinOvercurrentDisconnect {s : State} (vaux : s.supply.vauxLost = false) :
    exec .vinOvercurrentDisconnect s =
      finish (requestReset .dip 0 (modSupply (fun x => { x with disconnected := true, vinMv := 0 }) s)) :=
  congrArg finish (if_pos (congrArg not vaux))

theorem exec_watchdogReset_refclk {s : State} (commit : s.supply.commitAt.isSome = true) :
    exec (.watchdogReset true) s = finish (requestReset .watchdog 1 s) :=
  congrArg finish ((if_pos rfl).trans (if_pos commit))

theorem exec_watchdogReset_sup {s : State} (running : s.boot.phase = .running) (on : domState 18 s = .on) :
    exec (.watchdogReset false) s = finish (requestReset .watchdog 3 s) :=
  congrArg finish ((if_neg Bool.false_ne_true).trans (if_pos ⟨running, on⟩))

theorem exec_chainReset (code : Word) (s : State) : exec (.chainReset code) s = finish (chainReset code s) :=
  congrArg finish (commandWrite_perform (judge_of_low (by decide) (by decide) s))

theorem exec_chainReset_right (s : State) : exec (.chainReset 0xA5C1) s = finish (requestReset .chain 0 s) :=
  exec_chainReset 0xA5C1 s

theorem exec_chainReset_wrong {code : Word} (wrong : code ≠ 0xA5C1) {s : State} (q : s.quiet) :
    exec (.chainReset code) s = .next (count Reg.CNT_RESET_CMD_BAD s) := by
  rw [exec_chainReset, chainReset, if_neg wrong]
  exact finish_quiet q.1 q.2

/-- Settles O17: each trigger requests its kind in a state that differs in the supply monitor alone; then by the ranks of R61. -/
theorem resetsTakeKeepAndOutrank : Obligations.ResetsTakeKeepAndOutrank := by
  refine ⟨fun s mv c k sub q idle trigger => ?_, fun s p q w busy => ⟨?_, ?_, ?_, ?_, ?_, ?_, ?_⟩⟩
  · have asked : ∃ f : SupplyState → SupplyState, exec c s = finish (requestReset k sub (modSupply f s)) := by
      rcases trigger with ⟨rfl, rfl, rfl⟩ | ⟨rfl, low, vaux, rfl, rfl⟩ | ⟨rfl, vaux, rfl, rfl⟩ | ⟨rfl, rfl, rfl⟩ |
        ⟨rfl, commit, rfl, rfl⟩ | ⟨rfl, running, on, rfl, rfl⟩ | ⟨rfl, rfl, rfl⟩
      · exact ⟨_, exec_coldReset s⟩
      · exact ⟨_, exec_dipReset low vaux⟩
      · exact ⟨_, exec_vinOvercurrentDisconnect vaux⟩
      · exact ⟨id, exec_pinReset s⟩
      · exact ⟨id, exec_watchdogReset_refclk commit⟩
      · exact ⟨id, exec_watchdogReset_sup running on⟩
      · exact ⟨id, exec_chainReset_right s⟩
    obtain ⟨f, asked⟩ := asked
    rw [requestReset_of_idle (s := modSupply f s) idle, finish_fullReset] at asked
    obtain ⟨lost, kept⟩ := fullReset_time k sub (modSupply f s)
    obtain ⟨ring, newest, oldest⟩ := fullReset_ring k sub (modSupply f s)
    obtain ⟨cold, warm⟩ := fullReset_pwr k sub (modSupply f s)
    refine ⟨_, asked, rfl, rfl, rfl, rfl, rfl, rfl, fun a other => ?_, lost, kept, rfl, rfl, rfl, rfl, rfl, ring, newest,
      oldest, rfl, cold, warm, rfl, rfl, rfl, rfl, rfl, rfl, rfl, rfl, rfl, rfl, rfl, rfl, rfl, rfl⟩
    exact (reg_setReg_ne other).trans (reg_fullReset k sub (modSupply f s) a)
  · rintro rfl
    exact (congrArg finish (requestReset_of_same busy 0)).trans (finish_quiet q.1 q.2)
  · rintro rfl
    exact (exec_chainReset_right s).trans ((congrArg finish (requestReset_of_same busy 0)).trans (finish_quiet q.1 q.2))
  · rintro rfl
    rw [exec_coldReset, requestReset_of_same (s := modSupply _ s) busy]
    exact finish_quiet q.1 q.2
  · intro lower
    exact (congrArg finish (requestReset_of_lower (k := .pin) busy lower 0)).trans (finish_quiet q.1 q.2)
  · intro lower
    rw [exec_chainReset_right, requestReset_of_lower (k := .chain) busy lower]
    exact finish_quiet q.1 q.2
  · intro higher
    have taken := requestReset_of_higher (k := .pin) busy higher 0
    refine ⟨_, (congrArg finish taken).trans (finish_fullReset ..), rfl, ?_⟩
    have canonical : twf resetValue (fullReset .pin 0 s).regs = true := twf_filter w.1
    rw [countN, reg_setReg_same canonical, reg_fullReset]
    cases s.boot.heldReset <;> rfl
  · exact fun code wrong => exec_chainReset_wrong wrong q

end Sys2Proof.Machine
end

section
/-! Domain resets: the one of a pipeline, those that meet another reset, and the release (R45, R58, R59, R61, R62, R576). -/
namespace Sys2Proof.Machine

/-! ### DOMAIN_RESET -/

theorem exec_domainReset (mask : BitVec 21) (s : State) : exec (.domainReset mask) s = finish (domainResets mask s) :=
  congrArg finish (commandWrite_perform (judge_of_low (by decide) (by decide) s))

theorem maskDomains_single (d : Fin 21) : maskDomains (BitVec.ofNat 21 (2 ^ d.val)) = [d.val] := by
  revert d
  decide

section
variable {s : State} {d : Fin 21}

theorem domainResets_single (free : ¬ (s.boot.inReset.isNone = true ∧ s.boot.domActive ≠ 0)) :
    domainResets (BitVec.ofNat 21 (2 ^ d.val)) s = domainReset d.val s := by
  rw [domainResets, if_neg free, maskDomains_single]
  rfl

/-- A request that meets another Domain reset waits for its end (R61). -/
theorem domainResets_of_active (idle : s.boot.inReset = none) (active : s.boot.domActive ≠ 0) (mask : BitVec 21) :
    domainResets mask s = modBoot (fun b => { b with heldDomains := b.heldDomains ||| mask }) s :=
  if_pos ⟨by rw [idle]; rfl, active⟩

theorem domainReset_of_reset (busy : s.boot.inReset.isSome = true) : domainReset d.val s = count Reg.CNT_RESET_MERGED s :=
  if_pos busy

/-- A domain held in reset, and no other (R576). -/
def onlyDomain (d : Fin 21) (s : State) : State := modBoot (fun b => { b with domActive := BitVec.ofNat 21 (2 ^ d.val) }) s

theorem domainResets_of_idle (idle : s.boot.inReset = none) (calm : s.boot.domActive = 0) (packages : s.assay.ddrFailed = 0) :
    domainResets (BitVec.ofNat 21 (2 ^ d.val)) s = assertDomain d.val (onlyDomain d s) := by
  have alone : s.boot.domActive ||| BitVec.ofNat 21 (2 ^ d.val) = BitVec.ofNat 21 (2 ^ d.val) := by
    rw [calm]
    exact BitVec.zero_or
  rw [domainResets_single fun e => e.2 calm, domainReset, if_neg (by rw [idle]; exact Bool.false_ne_true),
    if_neg (not_not_intro packages), modBoot, alone]
  rfl

end

/-! ### A pipeline's reset (R59) -/

section
variable {n : Nat}

theorem assertDomain_pipe (pipe : n ≤ 3) (s : State) :
    assertDomain n s = setDom n .off (resetPipe n (clearDomainRegs n s)) := by
  have h4 : (n == 4) = false := beq_false_of_ne (by omega)
  have h18 : (n == 18) = false := beq_false_of_ne (by omega)
  simp only [assertDomain, h4, h18, if_pos pipe]
  rfl

theorem resetPipe_rules {s : State} {e : Nat × Rule} (he : e ∈ (resetPipe n s).cls.rules) : e.1 / 16384 ≠ n := by
  unfold resetPipe at he
  split at he <;> simpa using (List.mem_filter.mp he).2

/-- With nothing waiting in a pipeline its reset returns no tub. -/
theorem resetPipe_of_empty {s : State} (waits : ingressOf n s = []) (parts : (seam (activeSide s) n s).partials = []) :
    (resetPipe n s).tub = s.tub ∧ (resetPipe n s).outs = s.outs ∧ (resetPipe n s).regs = s.regs := by
  rw [resetPipe, waits, parts]
  split <;> exact ⟨rfl, rfl, rfl⟩

theorem reg_clearDomainRegs (n : Nat) (s : State) (a : Nat) :
    reg a (clearDomainRegs n s) = if resetsWith n a = false ∨ inTime a = true then reg a s else resetValue a := by
  refine (tget_filter (p := fun a => !resetsWith n a || inTime a)).trans ?_
  simp only [Bool.or_eq_true, Bool.not_eq_true']
  rfl

/-- A pipeline after its reset is asserted. -/
theorem assertDomain_pipe_frame (pipe : n ≤ 3) (s : State) : Frame 83631641663502 s (assertDomain n s) := by
  rw [assertDomain_pipe pipe]
  exact setDom_frame (resetPipe_frame (clearDomainRegs_frame Frame.rfl' rfl) rfl) rfl

theorem assertDomain_pipe_pwr (pipe : n ≤ 3) (s : State) :
    (assertDomain n s).pwr = { s.pwr with dom := tput (fun _ => .off) n .off s.pwr.dom } := by
  have frame : Frame 83562922182670 s (resetPipe n (clearDomainRegs n s)) :=
    resetPipe_frame (clearDomainRegs_frame Frame.rfl' rfl) rfl
  rw [assertDomain_pipe pipe]
  exact congrArg (fun x : PwrState => { x with dom := tput (fun _ => .off) n .off x.dom }) (frame.pwr rfl)

end

/-! ### DOMAIN_RESET_RELEASE (R45, R59, R62) -/

theorem exec_domainResetRelease (d : Fin 21) (ups : List (Nat × Nat × Byte)) (s : State) :
    exec (.domainResetRelease d ups) s = finish (domainRelease d.val ups s) := rfl

section
variable {s : State} {d : Nat} {ups : List (Nat × Nat × Byte)}

theorem domainRelease_of_not_held (h : s.boot.domActive.getLsbD d = false) : domainRelease d ups s = s :=
  if_pos (.inl (congrArg not h))

/-- Where its release is not answered yet, a held domain is released, or waits for the command of a record (R45). -/
theorem domainRelease_of_held (held : s.boot.domActive.getLsbD d = true) (idle : s.boot.inReset = none)
    (apart : s.boot.replay ≠ some d) (first : (s.boot.releases.any fun e => e.1 == d) = false) :
    domainRelease d ups s =
      if s.boot.busyReg.isSome then modBoot (fun b => { b with releases := b.releases ++ [(d, ups)] }) s
      else replayDomain d ups s :=
  if_neg (by simp only [held, idle, apart, first]; decide)

/-- The release with the cache it finds. -/
theorem replayDomain_of_bad_cache (idle : s.boot.inReset = none)
    (bad : (upsetCache ups s.boot.cache).any (fun x => sectionUsed d x && crc32c x.body != x.crc) = true) :
    ∃ n u, replayDomain d ups s = countN Reg.CNT_RESET_MERGED n (fullReset .chain 2 u) :=
  ⟨_, _, (if_pos bad).trans (requestReset_of_idle (by exact idle) 2)⟩

theorem heldDomainsBegin_of_none (h : s.boot.heldDomains = 0) : heldDomainsBegin s = s :=
  if_neg fun e => e.2 h

/-- The start-up state once a domain's records have been replayed. -/
def reloadedBoot (d : Nat) (b : BootState) : BootState :=
  { b with records := [], busyReg := none, replay := none, domActive := b.domActive &&& ~~~ BitVec.ofNat 21 (2 ^ d),
           lastKind := 5, lastSub := 0, lastDomain := d }

/-- Of the start-up state, only the Domain resets held meanwhile follow a domain's reload. -/
theorem domainReloaded_eq (d : Nat) (s : State) :
    ∃ u, domainReloaded d s = heldDomainsBegin u ∧ Frame 83643978202142 (modBoot (reloadedBoot d) s) u := by
  refine ⟨_, rfl, resetEvent_frame (reachDom_frame (when'_frame (when'_frame Frame.rfl' ?_) ?_) rfl) rfl⟩
  · exact fun _ h => checkPartition_frame h rfl
  · exact fun _ h => resumeCounter_frame (requestSaved_frame h rfl) rfl

theorem domainReloaded_of_none_held (h : s.boot.heldDomains = 0) :
    (domainReloaded d s).boot = reloadedBoot d s.boot ∧ (domainReloaded d s).pwr.stalled = s.pwr.stalled := by
  obtain ⟨u, reloaded, frame⟩ := domainReloaded_eq d s
  have boot : u.boot = reloadedBoot d s.boot := frame.boot rfl
  rw [reloaded, heldDomainsBegin_of_none (by rw [boot]; exact h)]
  exact ⟨boot, frame.stalled_ rfl⟩

theorem replayDomain_of_no_records (none_held : s.boot.heldDomains = 0)
    (good : (upsetCache ups s.boot.cache).any (fun x => sectionUsed d x && crc32c x.body != x.crc) = false)
    (bare : (imageRecords (upsetCache ups s.boot.cache)).filter (recordIn d) = []) :
    (replayDomain d ups s).boot = reloadedBoot d { s.boot with cache := upsetCache ups s.boot.cache } ∧
      (replayDomain d ups s).pwr.stalled = s.pwr.stalled := by
  have checked : ¬ (upsetCache ups s.boot.cache).any (fun x => sectionUsed d x && crc32c x.body != x.crc) = true := by
    rw [good]
    exact Bool.false_ne_true
  have reloaded : replayDomain d ups s =
      domainReloaded d (modBoot (fun b => { b with cache := upsetCache ups b.cache, replay := some d, records := [] }) s) := by
    refine (if_neg checked).trans ?_
    rw [modBoot_boot, bare]
    rfl
  rw [reloaded]
  exact domainReloaded_of_none_held none_held

end

/-- Settles O18: the reset by what else is in progress, the release by the cache it finds. -/
theorem domainResetsHoldAndReload : Obligations.DomainResetsHoldAndReload := by
  refine ⟨fun s d q => ⟨fun idle calm packages pipe => ?_, fun mask idle active => ?_, fun busy => ?_⟩,
    fun s d ups q => ⟨fun apart => ?_, fun held idle waits apart first => ?_,
      fun held idle replay busy releases none_held => ?_⟩⟩
  · have held : Frame 128 s (onlyDomain d s) := modBoot_frame Frame.rfl' rfl (.inr fun _ => rfl)
    have frame := assertDomain_pipe_frame pipe (onlyDomain d s)
    have whole : Frame 83631641663630 s (assertDomain d.val (onlyDomain d s)) := (held.mono rfl).trans (frame.mono rfl)
    refine ⟨_, ?_, frame.boot rfl, assertDomain_pipe_pwr pipe (onlyDomain d s), fun waits parts => ?_, fun e he => ?_,
      whole.sameBut (by decide)⟩
    · rw [exec_domainReset, domainResets_of_idle idle calm packages]
      exact finish_of_frame q whole rfl rfl
    · rw [assertDomain_pipe pipe]
      obtain ⟨tub, outs, regs⟩ := resetPipe_of_empty (s := clearDomainRegs d.val (onlyDomain d s)) waits parts
      refine ⟨tub, outs, fun a => ?_⟩
      exact (congrArg (tget resetValue · a) regs).trans (reg_clearDomainRegs d.val (onlyDomain d s) a)
    · rw [assertDomain_pipe pipe] at he
      exact resetPipe_rules he
  · rw [exec_domainReset, domainResets_of_active idle active]
    exact finish_quiet q.1 q.2
  · have other : ¬ (s.boot.inReset.isNone = true ∧ s.boot.domActive ≠ 0) := fun e => by
      rw [Option.isNone_iff_eq_none.mp e.1] at busy
      exact nomatch busy
    rw [exec_domainReset, domainResets_single other, domainReset_of_reset busy]
    exact finish_quiet q.1 q.2
  · rw [exec_domainResetRelease, domainRelease_of_not_held apart]
    exact finish_quiet q.1 q.2
  · rw [exec_domainResetRelease, domainRelease_of_held held idle apart first, if_pos waits]
    exact finish_quiet q.1 q.2
  · have released := domainRelease_of_held (ups := ups) held idle (by rw [replay]; exact nofun) (by rw [releases]; rfl)
    rw [busy, Option.isSome_none, if_neg Bool.false_ne_true] at released
    refine ⟨fun bad => ?_, fun good bare => ?_⟩
    · obtain ⟨n, u, reset⟩ := replayDomain_of_bad_cache idle bad
      exact ⟨_, (congrArg finish (released.trans reset)).trans (finish_fullReset ..), rfl, rfl⟩
    · obtain ⟨boot, stalled⟩ := replayDomain_of_no_records none_held good bare
      refine ⟨_, (congrArg finish released).trans (finish_stalled (stalled.trans q.1)), ?_⟩
      rw [boot]
      exact ⟨rfl, rfl, rfl, rfl, idle⟩

end Sys2Proof.Machine
end

section
/-! The release of a reset and the start-up it leads to (R47 to R49, R56, R57, R61, R538). -/
namespace Sys2Proof.Machine

/-- An entry's value is of the keep alone. -/
theorem keepValue_congr {s t : State} (h : t.keep = s.keep) (i : Nat) : keepValue i t = keepValue i s :=
  (show keepValue i t = keepValue i { s with keep := t.keep } from rfl).trans (by rw [h])

/-! ### The boot ROM (R48, R49, R52) -/

/-- The candidate of R49, `min` being the least GENERATION accepted. -/
def chosenFlash (r : ReleaseInputs) (min : Word) : Option Bool :=
  firstCandidate r.straps.imgsel (flashGen r.flashA min) (flashGen r.flashB min)

/-- The start-up state as the boot ROM judges headers and reference inputs. -/
def judgedBoot (r : ReleaseInputs) (min : Word) (b : BootState) : BootState :=
  { b with
    genA := flashGen r.flashA min, genB := flashGen r.flashB min, codeA := flashCode r.flashA min,
    codeB := flashCode r.flashB min, candidate := chosenFlash r min, phase := .loading, refPresent := r.refs,
    lineRefHold := !r.refs.getLsbD 2, heldRelease := some r }

/-- Once the headers are judged, only the absence of a candidate changes the start-up state. -/
theorem startUp_eq (r : ReleaseInputs) (s : State) :
    ∃ u, startUp r s = (if (chosenFlash r (keepValue 0 s)).isNone then noImage u else u) ∧
      Frame 70437463792648 (modBoot (judgedBoot r (keepValue 0 s)) s) u := by
  refine ⟨_, rfl, when'_frame (when'_frame (each_frame (keepWrite_frame Frame.rfl' rfl) ?_) ?_) ?_⟩
  · exact fun _ _ h => refclkEvent_frame h rfl
  · exact fun _ h => setDom_frame (setDom_frame h rfl) rfl
  · exact fun _ h => startStep3_frame h rfl

theorem startUp_frame_self (r : ReleaseInputs) (s : State) : Frame 70574902746248 s (startUp r s) :=
  startUp_frame Frame.rfl' rfl

theorem noImage_boot (s : State) : (noImage s).boot = { s.boot with phase := .noImage, candidate := none } :=
  (romEvent_frame (m := 70368744179720) Frame.rfl' rfl).boot rfl

theorem startUp_boot (r : ReleaseInputs) (s : State) :
    (startUp r s).boot = { judgedBoot r (keepValue 0 s) s.boot with
      phase := if chosenFlash r (keepValue 0 s) = none then .noImage else .loading } := by
  obtain ⟨u, start, frame⟩ := startUp_eq r s
  have boot : u.boot = judgedBoot r (keepValue 0 s) s.boot := frame.boot rfl
  rw [start]
  cases chosen : chosenFlash r (keepValue 0 s) with
  | none =>
    refine (noImage_boot u).trans ?_
    rw [boot, judgedBoot, chosen]
    rfl
  | some flashB =>
    refine boot.trans ?_
    rw [if_neg nofun]
    rfl

/-! ### RESET_RELEASE (R47, R56, R61, R62) -/

theorem exec_resetRelease (straps : Straps) (fa fb : FlashRead) (ddr refs : BitVec 4) (s : State) :
    exec (.resetRelease straps fa fb ddr refs) s = finish (resetRelease ⟨straps, fa, fb, ddr, refs⟩ s) := rfl

/-- The start-up state at the release, with what the straps and the flashes show. -/
def releasedBoot (r : ReleaseInputs) (b : BootState) : BootState :=
  { b with inReset := none, heldReset := none, straps := r.straps, heldRelease := some r }

/-- The edge t_r: the reset is over, and EV_RESET is taken. -/
def released (r : ReleaseInputs) (s : State) : State :=
  s |> modBoot (releasedBoot r) |> modSupply (fun x => { x with disconnected := false })
    |> resetEvent s.boot.lastKind s.boot.lastSub 0

section
variable (r : ReleaseInputs) (s : State)

theorem released_frame : Frame 70368744180104 s (released r s) :=
  resetEvent_frame (modSupply_frame (modBoot_frame Frame.rfl' rfl (.inr fun _ => rfl)) rfl (.inr fun _ => rfl)) rfl

theorem released_event_frame :
    Frame 70368744179720 (s |> modBoot (releasedBoot r) |> modSupply (fun x => { x with disconnected := false }))
      (released r s) :=
  resetEvent_frame Frame.rfl' rfl

theorem released_boot : (released r s).boot = releasedBoot r s.boot := (released_event_frame r s).boot rfl

theorem released_supply : (released r s).supply = { s.supply with disconnected := false } :=
  (released_event_frame r s).supply rfl

end

section
variable {r : ReleaseInputs} {s : State} {k : ResetKind} (busy : s.boot.inReset = some k) (vaux : s.supply.vauxLost = false)
include busy vaux

theorem resetRelease_of_held {h : ResetKind × Nat} (held : s.boot.heldReset = some h) :
    resetRelease r s = fullReset h.1 h.2 (released r s) := by
  simp only [resetRelease, busy, vaux, held]
  rfl

theorem resetRelease_of_none_held (held : s.boot.heldReset = none) :
    resetRelease r s = if s.boot.vioReady then startUp r (released r s) else released r s := by
  have ready : (released r s).boot.vioReady = s.boot.vioReady := by
    rw [released_boot]
    rfl
  rw [← ready]
  simp only [resetRelease, busy, vaux, held]
  rfl

end

/-! ### VIO_READY (R538) -/

theorem vioReady_of_waiting {r : ReleaseInputs} {s : State} (idle : s.boot.inReset = none) (low : s.boot.vioReady = false)
    (rom : s.boot.phase = .rom) (waits : s.boot.heldRelease = some r) :
    vioReady s = startUp r (modBoot (fun x => { x with vioReady := true }) s) := by
  simp [vioReady, modBoot, idle, low, rom, waits]

/-- Settles O19: a release by the reset held meanwhile and by VIO, a start-up by its candidate. -/
theorem releaseStartsUpFromACandidate : Obligations.ReleaseStartsUpFromACandidate := by
  refine ⟨fun s straps fa fb ddr refs k q busy vaux => ⟨fun h held => ?_, fun held => ?_⟩,
    fun s r q idle low rom waits => ?_⟩
  · refine ⟨fullReset h.1 h.2 (released ⟨straps, fa, fb, ddr, refs⟩ s), ?_, rfl, rfl, rfl⟩
    rw [exec_resetRelease, resetRelease_of_held busy vaux held]
    exact finish_quiet (fullReset_stalled ..) rfl
  · let r : ReleaseInputs := ⟨straps, fa, fb, ddr, refs⟩
    have answer : exec (.resetRelease straps fa fb ddr refs) s = finish _ :=
      congrArg finish (resetRelease_of_none_held (r := r) busy vaux held)
    have edge := released_frame r s
    have boot := released_boot r s
    have supply := released_supply r s
    have entry : keepValue 0 (released r s) = keepValue 0 s := keepValue_congr (edge.keep rfl) 0
    cases ready : s.boot.vioReady with
    | false =>
      rw [ready, if_neg Bool.false_ne_true] at answer
      refine ⟨_, answer.trans (finish_of_frame q edge rfl rfl), ?_, ?_, supply, ?_, nofun, edge.sameBut (by decide)⟩
      all_goals rw [boot]
      · rfl
      · rfl
      · exact fun _ => ⟨rfl, rfl⟩
    | true =>
      rw [ready, if_pos rfl] at answer
      have start := startUp_frame_self r (released r s)
      have whole : Frame 70574902746504 s (startUp r (released r s)) := (edge.mono rfl).trans (start.mono rfl)
      refine ⟨_, answer.trans (finish_of_frame q whole rfl rfl), ?_, ?_, (start.supply rfl).trans supply, nofun, fun _ => ?_,
        whole.sameBut (by decide)⟩
      all_goals rw [startUp_boot, entry, boot]
      · rfl
      · rfl
      · exact ⟨rfl, rfl, rfl, rfl, rfl, rfl, rfl, fun absent => if_pos absent, fun found => if_neg found⟩
  · have edge : Frame 128 s (modBoot (fun x => { x with vioReady := true }) s) :=
      modBoot_frame Frame.rfl' rfl (.inr fun _ => rfl)
    have whole : Frame 70574902746248 s (startUp r (modBoot (fun x => { x with vioReady := true }) s)) :=
      (edge.mono rfl).trans (startUp_frame_self r _)
    refine ⟨_, (execVioReady_eq q).trans (congrArg _ (vioReady_of_waiting idle low rom waits)), ?_, ?_, ?_,
      whole.sameBut (by decide)⟩
    all_goals rw [startUp_boot]
    · rfl
    · rfl
    · by_cases absent : chosenFlash r (keepValue 0 s) = none
      · exact .inr (if_pos absent)
      · exact .inl (if_neg absent)

end Sys2Proof.Machine
end

section
/-! A Domain release that waited for the command of an image's record (R45, R59). O20's clauses on IMG_RECORD_BUSY_WAIT have no
premise that no release waits; one that does goes on once the last record is applied. -/
namespace Sys2Proof.Machine

theorem exec_imgRecordBusyWait (expired : Bool) (s : State) :
    exec (.imgRecordBusyWait expired) s = finish (recordBusyWait expired s) := rfl

/-- The start-up state after the last record: the partition's judgement is no part of it. -/
theorem recordsApplied_boot (s : State) :
    (recordsApplied s).boot = { s.boot with records := [], busyReg := none, applied := true } :=
  (checkPartition_frame (m := 70368744179720) Frame.rfl' rfl).boot rfl

theorem recordsDone_of_start {s : State} (start : s.boot.replay = none) : recordsDone s = recordsApplied s := by
  simp only [recordsDone, start]

section
variable {s : State} {d : Nat} {ups : List (Nat × Nat × Byte)} (waits : s.boot.releases = [(d, ups)])
include waits

theorem releaseWaiting_single (done : s.boot.busyReg = none) (held : s.boot.domActive.getLsbD d = true)
    (idle : s.boot.inReset = none) :
    releaseWaiting 1 s = replayDomain d ups (modBoot (fun b => { b with releases := [] }) s) := by
  simp only [releaseWaiting, waits, done, held, idle, modBoot_boot]
  rfl

/-- A release that waited for the last record's command meets a bad cache: the Chain reset of R59 follows at once. -/
theorem recordBusyWait_of_bad_cache {a : Nat} {r : ImageRecord} (busy : s.boot.busyReg = some a) (last : s.boot.records = [r])
    (start : s.boot.replay = none) (done : busyNow a s = false) (held : s.boot.domActive.getLsbD d = true)
    (idle : s.boot.inReset = none)
    (bad : (upsetCache ups s.boot.cache).any (fun x => sectionUsed d x && crc32c x.body != x.crc) = true) (expired : Bool) :
    ∃ n u, recordBusyWait expired s = countN Reg.CNT_RESET_MERGED n (fullReset .chain 2 u) := by
  have boot := recordsApplied_boot (modBoot (fun b => { b with busyReg := none }) s)
  have released : recordBusyWait expired s =
      releaseWaiting 1 (recordsApplied (modBoot (fun b => { b with busyReg := none }) s)) := by
    simp only [recordBusyWait, busy, last, done, waits]
    exact congrArg (releaseWaiting 1) (recordsDone_of_start start)
  rw [released, releaseWaiting_single (by rw [boot]; exact waits) (by rw [boot]) (by rw [boot]; exact held)
    (by rw [boot]; exact idle)]
  exact replayDomain_of_bad_cache (by rw [modBoot_boot, boot]; exact idle) (by rw [modBoot_boot, boot]; exact bad)

end

/-- The record that begins an eye scan of lane 0, and the section that holds it. -/
def scanRecord : ImageRecord :=
  { sect := 0, type := 2, offset := 0, bytes := beBytes 4 (Reg.LANE_EYE_CTRL 0) ++ beBytes 4 0x80000000 ++ beBytes 4 0x80000000,
    fragment := false }

def scanSection : Section := { type := 2, body := scanRecord.bytes, crc := crc32c scanRecord.bytes }

/-- A start-up with its image verified, before the image is applied. -/
def verifiedTerminal : State :=
  { State.reset with boot := { BootState.reset with
      phase := .loading, inReset := none, image := some { generation := 0, fwVersion := 0, sections := [scanSection] } } }

/-- The application of the image waits for the scan, which has just ended; PD_PIPE0's release waits for it, and finds a bit of
the cache changed. -/
def releaseBehindScan : State :=
  { verifiedTerminal with boot := { verifiedTerminal.boot with
      phase := .applying, cache := [scanSection], records := [scanRecord], busyReg := some (Reg.LANE_EYE_CTRL 0), domActive := 1,
      releases := [(0, [(0, 11, 1)])] } }

theorem verifiedTerminal_wf : verifiedTerminal.wf := reset_wf

theorem releaseBehindScan_bad_cache : (upsetCache [(0, 11, 1)] releaseBehindScan.boot.cache).any
    (fun x => sectionUsed 0 x && crc32c x.body != x.crc) = true := by
  decide +kernel

/-- Refutes O20: from `releaseBehindScan` IMG_RECORD_BUSY_WAIT applies the image, and the release that waited then begins a Chain
reset, in which no image is applied. -/
theorem not_imagesAreVerifiedAndApplied : ¬ Obligations.ImagesAreVerifiedAndApplied := by
  rintro ⟨-, h⟩
  obtain ⟨-, -, busyWait⟩ := h verifiedTerminal _ ⟨rfl, rfl⟩ verifiedTerminal_wf rfl rfl rfl rfl rfl rfl (.inl rfl)
  obtain ⟨-, ended, -⟩ :=
    busyWait releaseBehindScan (Reg.LANE_EYE_CTRL 0) scanRecord ⟨rfl, rfl⟩ verifiedTerminal_wf rfl rfl rfl
  have done : busyNow (Reg.LANE_EYE_CTRL 0) releaseBehindScan = false := by decide
  have sound : partitionFaults releaseBehindScan = 0 := by decide
  obtain ⟨t, ht, -, applied, -⟩ := ended done sound false
  obtain ⟨n, u, reset⟩ := recordBusyWait_of_bad_cache (s := releaseBehindScan) rfl rfl rfl rfl done rfl rfl
    releaseBehindScan_bad_cache false
  rw [exec_imgRecordBusyWait, reset, finish_fullReset] at ht
  injection ht with ht
  rw [← ht] at applied
  exact Bool.false_ne_true applied

end Sys2Proof.Machine
end

section
/-! The loss of a local half's reference input while a frame waits for a tub (R57, R312, R345). The frame of O21's clause leaves
packet SRAM as it is, which is so where no take waits (`NoTakeWaits`); a frame that waits for a tub is stored as one is freed. -/
namespace Sys2Proof.Machine

/-! ### Frees while no take waits write no memory (R312, R313) -/

/-- No take waits, and packet SRAM holds `mem`. -/
def NoTakeWaits (mem : Table Byte) (s : State) : Prop := s.tub.waiting = [] ∧ s.tub.sram = mem

section
variable {mem : Table Byte} {s : State}

theorem NoTakeWaits.of_tub {t : State} (h : NoTakeWaits mem s) (same : t.tub = s.tub) : NoTakeWaits mem t := by
  unfold NoTakeWaits
  rwa [same]

theorem NoTakeWaits.badAgent (h : NoTakeWaits mem s) (agent : Nat) (x : Option Nat) : NoTakeWaits mem (badAgent agent x s) :=
  h.of_tub ((badAgent_frame (m := 70368744179722) Frame.rfl' rfl).tub rfl)

theorem NoTakeWaits.freeWalk (h : NoTakeWaits mem s) (agent : Nat) (chain : Bool) (fuel x : Nat) :
    NoTakeWaits mem (freeWalk agent chain fuel x s) := by
  induction fuel generalizing x s with
  | zero => exact h
  | succ fuel ih =>
    unfold Machine.freeWalk
    dsimp only
    split
    · exact h.of_tub ((badFree_frame (m := 70368744179720) Frame.rfl' rfl).tub rfl)
    · have marked : NoTakeWaits mem (markFree x s) := h
      split
      · exact ih marked _
      · exact marked

theorem NoTakeWaits.serveWaits (h : NoTakeWaits mem s) : NoTakeWaits mem (serveWaits s) := by
  obtain ⟨none, held⟩ := h
  unfold Machine.serveWaits
  rw [none]
  exact ⟨rfl, held⟩

theorem NoTakeWaits.tubFree (h : NoTakeWaits mem s) (agent x : Nat) (chain : Bool) :
    NoTakeWaits mem (tubFree agent x chain s) := by
  unfold Machine.tubFree
  split
  · exact h.badAgent agent _
  · exact (h.freeWalk agent chain _ x).serveWaits

theorem NoTakeWaits.freeFrame (h : NoTakeWaits mem s) (agent : Nat) (f : QFrame) : NoTakeWaits mem (freeFrame agent f s) := by
  have onDie : NoTakeWaits mem (freeTubsOf agent f.tubs s) := by
    unfold freeTubsOf
    split
    · exact h
    · exact h.tubFree ..
  unfold Machine.freeFrame
  split
  · exact onDie.tubFree ..
  · exact onDie

theorem NoTakeWaits.freeFrames (h : NoTakeWaits mem s) (agent : Nat) (fs : List QFrame) :
    NoTakeWaits mem (freeFrames agent fs s) :=
  each_induct h fun f _ h => h.freeFrame agent f

theorem NoTakeWaits.flushPort (h : NoTakeWaits mem s) (p counter : Nat) : NoTakeWaits mem (flushPort p counter s) :=
  each_induct (P := NoTakeWaits mem) ((h.freeFrames 8 _).freeFrames 7 _) fun _ _ h => h.freeFrames 4 _

theorem NoTakeWaits.portDown (h : NoTakeWaits mem s) (p counter : Nat) : NoTakeWaits mem (portDown p counter s) := by
  unfold Machine.portDown
  split
  · refine NoTakeWaits.flushPort (h.of_tub ?_) p counter
    exact (lpiRxEnd_frame (m := 70368745752588) (loseEee_frame (portLinkEvent_frame (modPort_frame Frame.rfl' rfl) rfl) rfl)
      rfl).tub rfl
  · exact h.flushPort p counter

theorem NoTakeWaits.laneOff (h : NoTakeWaits mem s) (l : Nat) : NoTakeWaits mem (laneOff l s) :=
  h.of_tub ((laneOff_frame (m := 536870912) Frame.rfl' rfl).tub rfl)

theorem each_cons {α : Type} (x : α) (l : List α) (f : α → State → State) (s : State) :
    each (x :: l) f s = each l f (f x s) := rfl

/-- Once no take waits, the other ports of a half go down, and its lanes OFF, without a write. -/
theorem NoTakeWaits.halfDown {half : Nat}
    (h : NoTakeWaits mem (Machine.portDown (256 * half) (Reg.CNT_PORT_LINK_DROP (256 * half)) s)) :
    NoTakeWaits mem (halfDown half s) := by
  have ports : (List.range (255 + 1)).map (256 * half + ·) =
      256 * half :: ((List.range 255).map Nat.succ).map (256 * half + ·) := by
    rw [List.range_succ_eq_map, List.map_cons, Nat.add_zero]
  refine each_induct (P := NoTakeWaits mem) ?_ fun l _ h => h.laneOff l
  rw [ports, each_cons]
  exact each_induct (P := NoTakeWaits mem) h fun p _ h => h.portDown p _

end

theorem refclkLoss_half {n : Nat} {s : State} (idle : s.boot.inReset = none) (there : s.boot.refPresent.getLsbD n = true)
    (half : n ≠ 2 ∧ n ≠ 3) : refclkLoss n s = halfDown n
      (s |> modBoot (fun x => { x with refPresent := x.refPresent &&& ~~~ BitVec.ofNat 4 (2 ^ n) }) |> refclkEvent n) := by
  simp [refclkLoss, idle, there, half]

/-! ### A take that waits, and the tub that a free gives it (R312) -/

/-- A pool of one tub leaves no choice. -/
theorem chooseTub_of_single {p : Nat} {s : State} (single : poolTubs p s = 1) : chooseTub p s = handleOf p (poolBase p s) := by
  unfold chooseTub
  simp only [single, Nat.mod_one, Nat.zero_mul, Nat.add_zero]
  split <;> rfl

theorem takeTubs_known {agent len p : Nat} {s : State} (pool : poolFor len s = some p)
    (may : mayUse agent (poolCells p) s = true) :
    takeTubs agent len true s = (some [chooseTub p s], (giveTub p agent s).2) := by
  simp only [takeTubs, if_true, pool, may]
  rfl

/-- The state in which the takes that waited are served. -/
def takesServed (s : State) : State := { s with tub := { s.tub with waiting := [] } }

theorem serveWaits_single {w : TubWait} {hs : List Nat} {s t : State} (waits : s.tub.waiting = [w])
    (still : stillWaits w (takesServed s) = true) (given : takeTubs w.agent w.len w.known (takesServed s) = (some hs, t)) :
    serveWaits s = giveWait w hs t := by
  unfold takesServed at still given
  simp only [serveWaits, waits, each, List.foldl_cons, List.foldl_nil, still, given, if_true]

/-- The frame a take has waited for is written into the tubs given (R280). -/
theorem giveWait_tub {w : TubWait} {f : QFrame} {p : Nat} {s : State} (dest : w.dest = .consign p)
    (frame : unstored w.len (sched p s).consign = some f) (hs : List Nat) :
    (giveWait w hs s).tub = (writeTubs hs f.bytes s).tub := by
  simp only [giveWait, dest, waitFrames, frame]
  rfl

/-! ### The counterexample -/

/-- A packet SRAM of one tub of 256 bytes, held by a frame queued for port 0, and a consignment for port 256 that waits for one
(R312). The reference input of the half of port 0 is there. -/
def spentPool : State :=
  { State.reset with
    regs := [(Reg.TUB_POOL_END 0, 1), (Reg.TUB_POOL_END 1, 0x30000), (Reg.TUB_POOL_END 2, 0x48000), (Reg.TUB_POOL_END 3, 0x58000)]
    boot := { BootState.reset with phase := .running, inReset := none, refPresent := 1 }
    sched := { SchedState.reset with ports :=
      [(0, { PortSched.reset with
          queues := [(0, { PortQueue.reset with frames := [⟨[0], 0, [0], none, false, false, false, false⟩] })] }),
       (256, { PortSched.reset with consign := [⟨[1], 0, [], none, false, false, false, false⟩] })] }
    tub := { TubState.reset with
      tags := [(0, { free := false, owner := 4, next := 0xFFFFFFFF })], taken := [(0, 1)], cells := [(3, 1)],
      waiting := [{ agent := 8, len := 1, known := true, dest := .consign 256 }] } }

theorem spentPool_wf : spentPool.wf := by
  unfold State.wf
  decide

/-- `spentPool` as the loss is recorded, before the half goes down. -/
def lossRecorded : State :=
  spentPool |> modBoot (fun x => { x with refPresent := x.refPresent &&& ~~~ BitVec.ofNat 4 (2 ^ 0) }) |> refclkEvent 0

theorem refclkLoss_spentPool : refclkLoss 0 spentPool = halfDown 0 lossRecorded :=
  refclkLoss_half rfl (by decide) (by decide)

/-- The tub of port 0's frame is free. -/
def tubReturned : State := freeWalk 4 true 2 0 lossRecorded

theorem chooseTub_tubReturned : chooseTub 0 (takesServed tubReturned) = 0 :=
  (chooseTub_of_single (by decide)).trans (by decide)

theorem takeTubs_tubReturned :
    takeTubs 8 1 true (takesServed tubReturned) = (some [0], (giveTub 0 8 (takesServed tubReturned)).2) := by
  rw [takeTubs_known (p := 0) (by decide) (by decide), chooseTub_tubReturned]

/-- The consignment of port 256 is stored in the tub that port 0's frame leaves. -/
theorem noTakeWaits_portDown : NoTakeWaits [(0, 1)] (portDown 0 (Reg.CNT_PORT_LINK_DROP 0) lossRecorded) := by
  have served := serveWaits_single (s := tubReturned) rfl (by decide) takeTubs_tubReturned
  have flushed : (portDown 0 (Reg.CNT_PORT_LINK_DROP 0) lossRecorded).tub = (serveWaits tubReturned).tub := rfl
  have stored := giveWait_tub (w := { agent := 8, len := 1, known := true, dest := .consign 256 })
    (s := (giveTub 0 8 (takesServed tubReturned)).2) rfl rfl [0]
  unfold NoTakeWaits
  rw [flushed, served, stored]
  exact ⟨rfl, rfl⟩

/-- Refutes O21: from `spentPool` the loss of input 0 takes port 0 down, whose frame's tub goes to the consignment that waits, and
packet SRAM is written. -/
theorem not_referencesAndSuppliesAreMonitored : ¬ Obligations.ReferencesAndSuppliesAreMonitored := by
  rintro ⟨h, -⟩
  obtain ⟨loss, -⟩ := h spentPool ⟨rfl, rfl⟩ spentPool_wf
  obtain ⟨t, ht, -, -, -, same⟩ := loss 0 rfl (by decide)
  obtain ⟨-, written⟩ := noTakeWaits_portDown.halfDown (half := 0)
  have lost : exec (.evRefclkLoss 0) spentPool = .next (refclkLoss 0 spentPool) := execEvRefclkLoss_eq 0 ⟨rfl, rfl⟩
  rw [lost, refclkLoss_spentPool] at ht
  injection ht with ht
  have sram : t.tub.sram = [] := same .sram (by decide)
  rw [← ht, written] at sram
  exact absurd sram (by decide)

end Sys2Proof.Machine
end

section
/-! A circuit's enable and the tubs of its de-jitter buffer (R184, R185). The accepted clause of O29 bounds the tubs by 1, which is
so for buffers of at most 256 bytes only; R185 needs ceiling(2 × D × N / 256). -/
namespace Sys2Proof.Machine

theorem exec_circEnable (c : Fin 1024) {s : State} (q : s.quiet) : exec (.circEnable c) s = .next (circEnable c.val s) :=
  execCircEnable_eq c q

theorem circuit_setCircuit_same {c : Nat} {x : Circuit} {s : State} (w : twf (fun _ => Circuit.reset) s.circuits = true) :
    circuit c (setCircuit c x s) = x :=
  tget_tput w

/-- A chain has as many tubs as are asked for. -/
theorem giveChain_length (agent n : Nat) (s : State) : (giveChain agent n s).1.length = n := by
  induction n generalizing s with
  | zero => rfl
  | succ n ih => exact congrArg Nat.succ (ih (giveTub 0 agent s).2)

theorem giveChain_circuits (agent n : Nat) (s : State) : (giveChain agent n s).2.circuits = s.circuits :=
  (giveChain_frame (m := 131074) Frame.rfl' rfl).circuits rfl

section
variable {c : Nat} {f : CircSample} {s : State} (sampled : (circuit c s).next = some f) (off : (circuit c s).active = false)
  (passes : circRefusal (circOf f) s = 0)
include sampled off passes

/-- A sampled circuit that passes the checks takes its chain of tubs and becomes active. -/
theorem circEnable_of_accepted :
    circEnable c s =
      setCircuit c { circOf f with active := true, tubs := (giveChain 7 (circTubs (circOf f)) s).1, tx := (circuit c s).tx }
        (giveChain 7 (circTubs (circOf f)) s).2 := by
  simp only [circEnable, sampled, off, passes, Bool.false_eq_true, if_false]

/-- An enabled circuit holds the tubs of R185. -/
theorem circEnable_tubs_length (w : s.wf) : (circuit c (circEnable c s)).tubs.length = circTubs (circOf f) := by
  obtain ⟨-, -, -, -, -, -, -, -, -, -, circuits, -⟩ := w
  rw [circEnable_of_accepted sampled off passes, circuit_setCircuit_same (by rw [giveChain_circuits]; exact circuits)]
  exact giveChain_length ..

end

/-! ### The counterexample: the worked example that follows R185 -/

/-- The E1 of the worked example: N = 32, D = 16 and PKT_BYTES 256, for identity 0's allocation 1; its buffer of 1,024 bytes takes
four tubs. -/
def e1Sample : CircSample :=
  { encap := 0, n := 32, d := 16, ident := 0, allocK := 1, port := 0, pktBytes := 256, tplLen := 42, demux := 0x1000, dsSeam := 0,
    dsOffset := 0, tpl := List.replicate 64 0 }

/-- A running terminal with a downstream circuit region of 1,400 bytes, in which circuit 7 waits for its tick edge. -/
def e1Sampled : State :=
  { State.reset with
    regs := [(Reg.CIRC_CTRL, 1400)]
    boot := { BootState.reset with phase := .running, inReset := none }
    circuits := [(7, { Circuit.reset with next := some e1Sample })] }

theorem e1Sampled_wf : e1Sampled.wf := by
  unfold State.wf
  decide

theorem circRefusal_e1Sampled : circRefusal (circOf e1Sample) e1Sampled = 0 := by decide

/-- Refutes O29: from `e1Sampled` circuit 7 becomes active with the four tubs of R185, where the statement allows it one. -/
theorem not_circuitsTakeEnablesAndPackets : ¬ Obligations.CircuitsTakeEnablesAndPackets := by
  intro h
  obtain ⟨-, enable, -⟩ := h e1Sampled 7 [] ⟨rfl, rfl⟩ e1Sampled_wf
  obtain ⟨-, accepted⟩ := enable e1Sample rfl rfl
  obtain ⟨t, ht, -, -, -, -, -, -, -, bound, -⟩ := accepted circRefusal_e1Sampled
  rw [exec_circEnable 7 ⟨rfl, rfl⟩] at ht
  injection ht with ht
  have held : (circuit 7 t).tubs.length = 4 := ht ▸ circEnable_tubs_length rfl rfl circRefusal_e1Sampled e1Sampled_wf
  have atMostOne : (circuit 7 t).tubs.length ≤ 1 := bound
  omega

end Sys2Proof.Machine
end

section
/-! Gate lists and policers (R281 to R284, R289 to R291): the commands that move their words through the data registers, and how a
committed list becomes the operating one. -/
namespace Sys2Proof.Machine

/-! ### Fields of a command's word -/

theorem bitOf_eq_getLsbD (w : Word) (i : Nat) : bitOf w i = w.getLsbD i :=
  Nat.testBit_eq_decide_div_mod_eq.symm

/-- A field depends on the bits up to its highest. -/
theorem fld_congr {v w : Word} {hi lo : Nat} (same : ∀ i ≤ hi, v.getLsbD i = w.getLsbD i) : fld v hi lo = fld w hi lo := by
  refine Nat.eq_of_testBit_eq fun k => ?_
  simp only [fld, Nat.testBit_mod_two_pow, Nat.testBit_div_two_pow]
  by_cases h : k < hi + 1 - lo
  · have := same (lo + k) (by omega)
    simp only [BitVec.getLsbD] at this
    simp only [h, decide_true, Nat.add_comm k lo, this, Bool.true_and]
  · simp only [h, decide_false, Bool.false_and]

theorem ofNat_shifted_getLsbD_below {n lo i : Nat} (below : i < lo) : (BitVec.ofNat 32 (n * 2 ^ lo)).getLsbD i = false := by
  simp only [BitVec.getLsbD_ofNat, Nat.testBit_mul_two_pow, decide_eq_false (Nat.not_le.mpr below), Bool.false_and,
    Bool.and_false]

theorem maskOf_getLsbD_below {hi lo i : Nat} (order : lo ≤ hi) (below : i < lo) : (maskOf hi lo).getLsbD i = false := by
  have scaled : 2 ^ (hi + 1) - 2 ^ lo = (2 ^ (hi + 1 - lo) - 1) * 2 ^ lo := by
    rw [Nat.sub_mul, ← Nat.pow_add, Nat.sub_add_cancel (by omega), Nat.one_mul]
  rw [maskOf, scaled, ofNat_shifted_getLsbD_below below]

/-- A field that is replaced leaves the bits below it. -/
theorem putFld_getLsbD_below {w : Word} {hi lo v i : Nat} (order : lo ≤ hi) (below : i < lo) :
    (putFld w hi lo v).getLsbD i = w.getLsbD i := by
  simp only [putFld, BitVec.getLsbD_or, BitVec.getLsbD_and, BitVec.getLsbD_not, maskOf_getLsbD_below order below,
    ofNat_shifted_getLsbD_below below, Bool.not_false, Bool.and_true, Bool.or_false]
  by_cases h : i < 32
  · simp only [h, decide_true, Bool.and_true]
  · simp only [BitVec.getLsbD_of_ge w i (by omega), Bool.false_and]

theorem fld_putFld_below {w : Word} {hi lo v h l : Nat} (order : lo ≤ hi) (below : h < lo) :
    fld (putFld w hi lo v) h l = fld w h l :=
  fld_congr fun _ le => putFld_getLsbD_below order (by omega)

theorem putFld_and_below {w m : Word} {hi lo v : Nat} (order : lo ≤ hi) (below : m.toNat < 2 ^ lo) :
    putFld w hi lo v &&& m = w &&& m := by
  refine BitVec.eq_of_getLsbD_eq fun i _ => ?_
  simp only [BitVec.getLsbD_and]
  by_cases h : i < lo
  · rw [putFld_getLsbD_below order h]
  · have clear : m.getLsbD i = false :=
      Nat.testBit_lt_two_pow (Nat.lt_of_lt_of_le below (Nat.pow_le_pow_right (by decide) (Nat.not_lt.mp h)))
    rw [clear, Bool.and_false, Bool.and_false]

theorem word_toNat (w : Word) : word w.toNat = w := by
  simp only [word, BitVec.ofNat_toNat, BitVec.setWidth_eq]

/-! ### Registers written one after the other -/

/-- A row of registers written through their index: each that is named holds its new word. -/
theorem reg_each_setReg {addr : Nat → Nat} (inj : Function.Injective addr) (g : Nat → Word) (i : Nat) {s : State}
    (w : twf resetValue s.regs = true) (l : List Nat) :
    reg (addr i) (each l (fun k => setReg (addr k) (g k)) s) = if i ∈ l then g i else reg (addr i) s := by
  unfold each
  induction l generalizing s with
  | nil => rfl
  | cons k l ih =>
    rw [List.foldl_cons, ih (twf_tput w)]
    by_cases h : i = k
    · subst h
      simp only [reg_setReg_same w, List.mem_cons, true_or, if_true, ite_self]
    · simp only [reg_setReg_ne (inj.ne h), List.mem_cons, h, false_or]

/-! ### The policers (R281 to R284) -/

theorem exec_policerWrite {s : State} (q : s.quiet) (hj : judge Reg.SCHED_POL_CMD s = .perform) (v : Word) :
    exec (.policerWrite v) s = .next (policerWrite (putFld v 29 28 1) s) := execPolicerWrite_eq v q hj

theorem exec_policerRead {s : State} (q : s.quiet) (hj : judge Reg.SCHED_POL_CMD s = .perform) (v : Word) :
    exec (.policerRead v) s = .next (policerRead (putFld v 29 28 2) s) := execPolicerRead_eq v q hj

theorem exec_policerReadClear {s : State} (q : s.quiet) (hj : judge Reg.SCHED_POL_CMD s = .perform) (v : Word) :
    exec (.policerReadClear v) s = .next (policerReadClear (putFld v 29 28 3) s) := execPolicerReadClear_eq v q hj

/-- The words that POLICER_WRITE takes from the data registers (R283). -/
def policerData (s : State) : List Word :=
  let d := fun w => reg (Reg.SCHED_POL_DATA w) s
  [d 0 &&& 0xE0000000, d 1, d 2 &&& 0xFFFFFF, d 3, d 4 &&& 0xFFFFFF]

/-- A policer with the words of the data registers and both buckets full. -/
def filledPolicer (i : Nat) (s : State) : Policer :=
  { policer i s with
    words := policerData s, cycle := s.cycle, tc := polUnits (polWord { policer i s with words := policerData s } 2),
    te := polUnits (polWord { policer i s with words := policerData s } 4) }

/-- A two-rate policer whose PIR lies below its CIR is refused (R283). -/
def policerRefused (s : State) : Prop :=
  bitOf (reg (Reg.SCHED_POL_DATA 0) s) 31 = true ∧ reg (Reg.SCHED_POL_DATA 3) s < reg (Reg.SCHED_POL_DATA 1) s

theorem polMode_policerData {x : Policer} {s : State} (words : x.words = policerData s) :
    polMode x = bitOf (reg (Reg.SCHED_POL_DATA 0) s) 31 := by
  have masked : polMode x = bitOf (reg (Reg.SCHED_POL_DATA 0) s &&& 0xE0000000) 31 := by
    rw [polMode, polWord, words]
    rfl
  have top : (0xE0000000 : Word).getLsbD 31 = true := by decide
  rw [masked, bitOf_eq_getLsbD, bitOf_eq_getLsbD, BitVec.getLsbD_and, top, Bool.and_true]

theorem policerWrite_of_refused {s : State} (bad : policerRefused s) (v : Word) :
    policerWrite v s = setReg Reg.SCHED_POL_CMD (word (2 ^ 30 + fld v 12 0)) s :=
  if_pos ⟨(polMode_policerData rfl).trans bad.1, bad.2⟩

theorem policerWrite_of_accepted {s : State} (ok : ¬ policerRefused s) (v : Word) :
    policerWrite v s = setPolicer (fld v 12 0) (filledPolicer (fld v 12 0) s)
      (setReg Reg.SCHED_POL_CMD (word (fld v 12 0)) s) :=
  if_neg fun h => ok ⟨(polMode_policerData rfl).symm.trans h.1, h.2⟩

theorem polData_injective : Function.Injective Reg.SCHED_POL_DATA := fun a b h => by
  simp only [Reg.SCHED_POL_DATA] at h
  omega

/-- POLICER_READ leaves the policers as they are. -/
theorem policerRead_sched (v : Word) (s : State) : (policerRead v s).sched = s.sched :=
  (policerRead_frame (m := 8) Frame.rfl' rfl).sched rfl

/-- The operation of a command's word is no part of the policer's number. -/
theorem policerIndex {v : Word} {op : Nat} : fld (putFld v 29 28 op) 12 0 = fld v 12 0 := fld_putFld_below (by decide) (by decide)

/-- What data register `k` shows of a policer (R282): its five words and its three counts. -/
def policerShown (x : Policer) : Nat → Word
  | 5 => x.green
  | 6 => x.yellow
  | 7 => x.red
  | k => word (polWord x k)

/-- POLICER_READ writes the eight data registers in their order. -/
theorem policerRead_eq (v : Word) (s : State) :
    policerRead v s = each (List.range 8) (fun k => setReg (Reg.SCHED_POL_DATA k) (policerShown (policer (fld v 12 0) s) k))
      (setRfld Reg.SCHED_POL_CMD 12 0 (fld v 12 0) s) := rfl

theorem reg_policerRead {s : State} (w : s.wf) (v : Word) {k : Nat} (h : k < 8) :
    reg (Reg.SCHED_POL_DATA k) (policerRead v s) = policerShown (policer (fld v 12 0) s) k := by
  rw [policerRead_eq, reg_each_setReg polData_injective _ _ (twf_tput w.1), if_pos (List.mem_range.mpr h)]

theorem policerShown_word {x : Policer} {k : Nat} (h : k < 5) : policerShown x k = x.words.getD k 0 := by
  have shown : policerShown x k = word (polWord x k) := by
    unfold policerShown
    split
    · omega
    · omega
    · omega
    · rfl
  rw [shown, polWord, word_toNat]

/-- The words and the counts stand in the data registers (R282), whichever operation the command's word names. -/
theorem policerRead_shows {s : State} (w : s.wf) (v : Word) (op : Nat) :
    (∀ k, k < 5 → reg (Reg.SCHED_POL_DATA k) (policerRead (putFld v 29 28 op) s) = (policer (fld v 12 0) s).words.getD k 0) ∧
    reg (Reg.SCHED_POL_DATA 5) (policerRead (putFld v 29 28 op) s) = (policer (fld v 12 0) s).green ∧
    reg (Reg.SCHED_POL_DATA 6) (policerRead (putFld v 29 28 op) s) = (policer (fld v 12 0) s).yellow ∧
    reg (Reg.SCHED_POL_DATA 7) (policerRead (putFld v 29 28 op) s) = (policer (fld v 12 0) s).red := by
  have shows := fun {k} => reg_policerRead w (putFld v 29 28 op) (k := k)
  rw [policerIndex] at shows
  exact ⟨fun k h => (shows (by omega)).trans (policerShown_word h), shows (by decide), shows (by decide), shows (by decide)⟩

theorem policerReadClear_sched (v : Word) (s : State) :
    (policerReadClear v s).sched = { s.sched with
      policers := tput (fun _ => Policer.reset) (fld v 12 0)
        { policer (fld v 12 0) s with green := 0, yellow := 0, red := 0 } s.sched.policers } := by
  simp only [policerReadClear, setPolicer, policer, policerRead_sched]

/-- Settles O38: a write by whether it is refused, a read by what its data registers show. -/
theorem policersAreWrittenAndRead : Obligations.PolicersAreWrittenAndRead := by
  intro s v q w hj
  refine ⟨fun two below => ?_, fun ok => ?_, ?_⟩
  · rw [exec_policerWrite q hj, policerWrite_of_refused ⟨two, below⟩, policerIndex]
  · have accepted : ¬ policerRefused s := fun ⟨two, below⟩ =>
      ok.elim (fun one => Bool.false_ne_true (one.symm.trans two)) (BitVec.not_le.mpr below)
    have frame : Frame 524296 s (policerWrite (putFld v 29 28 1) s) := policerWrite_frame Frame.rfl' rfl
    refine ⟨_, exec_policerWrite q hj v, ?_⟩
    rw [policerWrite_of_accepted accepted, policerIndex] at frame ⊢
    exact ⟨rfl, reg_setReg_same w.1, setReg_regsBut _ _ s, frame.sameBut (by decide)⟩
  · rintro c (rfl | rfl)
    · obtain ⟨words, green, yellow, red⟩ := policerRead_shows w v 2
      refine ⟨_, exec_policerRead q hj v, words, green, yellow, red, ?_,
        (policerRead_frame (m := 524296) Frame.rfl' rfl).sameBut (by decide)⟩
      rw [if_pos rfl, policerRead_sched]
    · obtain ⟨words, green, yellow, red⟩ := policerRead_shows w v 3
      refine ⟨_, exec_policerReadClear q hj v, words, green, yellow, red, ?_,
        (policerReadClear_frame (m := 524296) Frame.rfl' rfl).sameBut (by decide)⟩
      rw [if_neg nofun, policerReadClear_sched, policerIndex]

/-! ### The administrative lists (R289) -/

theorem exec_gclWrite {s : State} (q : s.quiet) (hj : judge Reg.SCHED_GCL_CMD s = .perform) (v : Word) :
    exec (.gclWrite v) s = .next (gclWrite (putFld v 29 28 1) s) := execGclWrite_eq v q hj

theorem exec_gclRead {s : State} (q : s.quiet) (hj : judge Reg.SCHED_GCL_CMD s = .perform) (v : Word) :
    exec (.gclRead v) s = .next (gclRead (putFld v 29 28 2) s) := execGclRead_eq v q hj

/-- The operation of a command's word is no part of its port, its index or the copy the register keeps. -/
theorem gclOperand {v : Word} {op : Nat} :
    fld (putFld v 29 28 op) 16 8 = fld v 16 8 ∧ fld (putFld v 29 28 op) 7 0 = fld v 7 0 ∧
      putFld v 29 28 op &&& 0x1FFFF = v &&& 0x1FFFF :=
  ⟨fld_putFld_below (by decide) (by decide), fld_putFld_below (by decide) (by decide), putFld_and_below (by decide) (by decide)⟩

theorem gclWrite_of_op (v : Word) (op : Nat) (s : State) :
    gclWrite (putFld v 29 28 op) s =
      setAdminEntry (fld v 16 8) (fld v 7 0) (rfld Reg.SCHED_GCL_DATA1 7 0 s, (reg Reg.SCHED_GCL_DATA0 s).toNat)
        (setReg Reg.SCHED_GCL_CMD (v &&& 0x1FFFF) s) := by
  obtain ⟨port, index, copy⟩ := gclOperand (v := v) (op := op)
  rw [gclWrite, port, index, copy]

theorem gclRead_of_op (v : Word) (op : Nat) (s : State) :
    gclRead (putFld v 29 28 op) s =
      setReg Reg.SCHED_GCL_DATA1 (word (adminEntry (fld v 16 8) (fld v 7 0) s).1)
        (setReg Reg.SCHED_GCL_DATA0 (word (adminEntry (fld v 16 8) (fld v 7 0) s).2)
          (setReg Reg.SCHED_GCL_CMD (v &&& 0x1FFFF) s)) := by
  obtain ⟨port, index, copy⟩ := gclOperand (v := v) (op := op)
  rw [gclRead, port, index, copy]

/-- GCL_READ shows the entry, and the other registers stand. -/
theorem gclRead_regs {s : State} (w : s.wf) (v : Word) (op : Nat) :
    reg Reg.SCHED_GCL_DATA0 (gclRead (putFld v 29 28 op) s) = word (adminEntry (fld v 16 8) (fld v 7 0) s).2 ∧
    reg Reg.SCHED_GCL_DATA1 (gclRead (putFld v 29 28 op) s) = word (adminEntry (fld v 16 8) (fld v 7 0) s).1 ∧
    reg Reg.SCHED_GCL_CMD (gclRead (putFld v 29 28 op) s) = v &&& 0x1FFFF ∧
    RegsBut [Reg.SCHED_GCL_CMD, Reg.SCHED_GCL_DATA0, Reg.SCHED_GCL_DATA1] s (gclRead (putFld v 29 28 op) s) := by
  obtain ⟨regs, -⟩ := w
  rw [gclRead_of_op]
  refine ⟨?_, reg_setReg_same (twf_tput (twf_tput regs)), ?_, fun a other => ?_⟩
  · exact (reg_setReg_ne (by decide)).trans (reg_setReg_same (twf_tput regs))
  · exact (reg_setReg_ne (by decide)).trans ((reg_setReg_ne (by decide)).trans (reg_setReg_same regs))
  · simp only [List.mem_cons, List.not_mem_nil, or_false, not_or] at other
    obtain ⟨cmd, data0, data1⟩ := other
    rw [reg_setReg_ne data1, reg_setReg_ne data0, reg_setReg_ne cmd]

/-! ### The start of a list (R291) -/

theorem gateStart_of_ahead {b now : Nat} (ahead : now + 250000 ≤ b) (cycle : Nat) : gateStart b cycle now = b := if_pos ahead

/-- A base less than 250 µs ahead is put off by whole cycles, as many as the time that lacks rounds up to. -/
theorem gateStart_of_near {b now : Nat} (near : b < now + 250000) (cycle : Nat) :
    gateStart b cycle now = b + (now + 250000 - b + cycle - 1) / cycle * cycle :=
  if_neg (Nat.not_le.mpr near)

/-- That many cycles, and no fewer, lie 250 µs ahead. -/
theorem gateStart_first {b cycle now : Nat} (positive : 0 < cycle) (near : b < now + 250000) :
    ∃ k, gateStart b cycle now = b + k * cycle ∧ now + 250000 ≤ gateStart b cycle now ∧
      ∀ j, now + 250000 ≤ b + j * cycle → k ≤ j := by
  have covers : ∀ j, now + 250000 ≤ b + j * cycle ↔ (now + 250000 - b + cycle - 1) / cycle ≤ j := fun j => by
    rw [Nat.div_le_iff_le_mul positive]
    omega
  refine ⟨_, gateStart_of_near near cycle, ?_, fun j => (covers j).mp⟩
  rw [gateStart_of_near near]
  exact (covers _).mpr (Nat.le_refl _)

/-! ### Commits (R289) -/

theorem exec_gateCommit {s : State} (q : s.quiet) {p : Fin 512} (hj : judge (Reg.SCHED_GATE_CTRL p.val) s = .perform) (v : Word) :
    exec (.gateCommit p v) s = .next (gateCommit p.val (v ||| 0x80000000) s) := execGateCommit_eq p v q hj

theorem fld_commitWord (v : Word) : fld (v ||| 0x80000000) 8 0 = fld v 8 0 :=
  fld_congr fun i le => by
    have clear : (0x80000000 : Word).getLsbD i = false := Nat.testBit_two_pow_of_ne (n := 31) (by omega)
    rw [BitVec.getLsbD_or, clear, Bool.or_false]

theorem bitOf_commitWord (v : Word) : bitOf (v ||| 0x80000000) 31 = true := by
  rw [bitOf_eq_getLsbD, BitVec.getLsbD_or]
  exact Bool.or_true _

section
variable {p : Nat} {s : State}

/-- The registers a commit reads are others than the one whose write commits. -/
theorem gateRegs_setCtrl (x : Word) :
    reg (Reg.SCHED_GATE_CYCLE p) (setReg (Reg.SCHED_GATE_CTRL p) x s) = reg (Reg.SCHED_GATE_CYCLE p) s ∧
    gateBase p (setReg (Reg.SCHED_GATE_CTRL p) x s) = gateBase p s := by
  have other : ∀ {a}, a ≠ Reg.SCHED_GATE_CTRL p → reg a (setReg (Reg.SCHED_GATE_CTRL p) x s) = reg a s := reg_setReg_ne
  refine ⟨other ?_, ?_⟩
  · simp only [Reg.SCHED_GATE_CYCLE, Reg.SCHED_GATE_CTRL]
    omega
  · unfold gateBase
    rw [other, other, other]
    all_goals
      simp only [Reg.SCHED_GATE_BASE_NS, Reg.SCHED_GATE_BASE_SEC_LO, Reg.SCHED_GATE_BASE_SEC_HI, Reg.SCHED_GATE_CTRL]
      omega

theorem commitErr_setCtrl (n : Nat) (x : Word) : commitErr p n (setReg (Reg.SCHED_GATE_CTRL p) x s) = commitErr p n s := by
  unfold commitErr
  rw [(gateRegs_setCtrl x).1]
  rfl

/-- A commit that is refused: the reason is kept and told (R289). -/
theorem gateCommit_of_refused {v : Word} (bad : commitErr p (fld v 8 0) s ≠ 0) :
    gateCommit p (v ||| 0x80000000) s =
      event 0x0801 (beBytes 2 p ++ [BitVec.ofNat 8 (commitErr p (fld v 8 0) s)])
        (modSched p (fun x => { x with gateErr := commitErr p (fld v 8 0) s })
          (setReg (Reg.SCHED_GATE_CTRL p) ((v ||| 0x80000000) &&& 0x1FF) s)) := by
  simp only [gateCommit, bitOf_commitWord, fld_commitWord, commitErr_setCtrl, if_true, bad, if_false]

theorem gateCommit_of_accepted {v : Word} (ok : commitErr p (fld v 8 0) s = 0) :
    gateCommit p (v ||| 0x80000000) s =
      acceptCommit p (fld v 8 0) (setReg (Reg.SCHED_GATE_CTRL p) ((v ||| 0x80000000) &&& 0x1FF) s) := by
  simp only [gateCommit, bitOf_commitWord, fld_commitWord, commitErr_setCtrl, if_true, ok]

/-- The list that a commit of `n` entries makes pending. -/
def committedList (p n : Nat) (s : State) : GateList :=
  { entries := (List.range n).map (fun e => adminEntry p e s), cycleNs := (reg (Reg.SCHED_GATE_CYCLE p) s).toNat,
    startNs := gateStart (gateBase p s) (reg (Reg.SCHED_GATE_CYCLE p) s).toNat (timeInNs s), setTime := 0, setCycle := 0 }

theorem committedList_setCtrl (n : Nat) (x : Word) :
    committedList p n (setReg (Reg.SCHED_GATE_CTRL p) x s) = committedList p n s := by
  obtain ⟨cycle, base⟩ := gateRegs_setCtrl (p := p) (s := s) x
  unfold committedList
  rw [cycle, base]
  rfl

theorem sched_event (c : BitVec 16) (b : Bytes) : sched p (event c b s) = sched p s := by
  rw [sched, (event_frame (m := 70368744179720) Frame.rfl' rfl).sched rfl]
  rfl

/-- The list is pending; one whose base was less than 250 µs ahead is told besides (R291). -/
theorem acceptCommit_of_ahead (n : Nat) (ahead : timeInNs s + 250000 ≤ gateBase p s) :
    acceptCommit p n s = modSched p (fun x => { x with pend := some (committedList p n s), gateErr := 0 }) s := if_pos ahead

theorem acceptCommit_sched (n : Nat) :
    sched p (acceptCommit p n s) = sched p (modSched p (fun x => { x with pend := some (committedList p n s), gateErr := 0 }) s) := by
  unfold acceptCommit
  dsimp only
  split
  · rfl
  · exact sched_event ..

end

/-! ### The pending list takes over (R291) -/

theorem exec_gateListStart {s : State} (q : s.quiet) (p : Fin 512) : exec (.gateListStart p) s = .next (gateListStart p.val s) :=
  execGateListStart_eq p q

theorem gateListStart_of_none {p : Nat} {s : State} (none_pending : (sched p s).pend = none) : gateListStart p s = s := by
  simp only [gateListStart, none_pending]

/-- The scheduler whose pending list becomes the operating one at this time. -/
def listStarted (g : GateList) (s : State) (x : PortSched) : PortSched :=
  { x with
    oper := some { g with setTime := (timeInNs s : Int), setCycle := s.cycle }, pend := none, gateFix := false, gateLate := false }

/-- The list starts, and at most the overrun of the frame in flight is counted. -/
theorem gateListStart_of_pending {p : Nat} {s : State} {g : GateList} (pending : (sched p s).pend = some g) :
    gateListStart p s = modSched p (listStarted g s) s ∨
    gateListStart p s = count (Reg.CNT_SCHED_GATE_OVERRUN p) (modSched p (listStarted g s) s) := by
  simp only [gateListStart, pending]
  split
  · split
    · exact .inr rfl
    · exact .inl rfl
  · exact .inl rfl

theorem gateListStart_starts {p : Nat} {s : State} {g : GateList} (w : s.wf) (pending : (sched p s).pend = some g) :
    sched p (gateListStart p s) = listStarted g s (sched p s) ∧
      RegsBut [Reg.CNT_SCHED_GATE_OVERRUN p] s (gateListStart p s) := by
  obtain ⟨-, -, -, -, -, -, -, -, -, -, -, -, -, ports, -, -⟩ := w
  have started : sched p (modSched p (listStarted g s) s) = listStarted g s (sched p s) := sched_modSched_same ports
  obtain h | h := gateListStart_of_pending pending
  · rw [h]
    exact ⟨started, fun _ _ => rfl⟩
  · rw [h]
    exact ⟨started, setReg_regsBut _ _ (modSched p (listStarted g s) s)⟩

/-- Settles O37: a commit by its reason, a start by what is pending, the start's time by whether the base lies ahead. -/
theorem gateListsAreCommittedAndStart : Obligations.GateListsAreCommittedAndStart := by
  refine ⟨fun s p v q w => ⟨fun hj => ⟨?_, ?_⟩, fun hj => ⟨fun bad => ?_, fun ok => ?_⟩, fun idle => ?_, fun g pending => ?_⟩,
    fun b cycle now positive => ⟨fun ahead => gateStart_of_ahead ahead cycle, gateStart_first positive⟩⟩
  · have frame : Frame 524296 s (gclWrite (putFld v 29 28 1) s) := gclWrite_frame Frame.rfl' rfl
    refine ⟨_, exec_gclWrite q hj v, ?_⟩
    rw [gclWrite_of_op] at frame ⊢
    exact ⟨rfl, reg_setReg_same w.1, setReg_regsBut _ _ s, frame.sameBut (by decide)⟩
  · obtain ⟨data0, data1, copy, others⟩ := gclRead_regs w v 2
    exact ⟨_, exec_gclRead q hj v, data0, data1, copy, others, (gclRead_frame (m := 8) Frame.rfl' rfl).sameBut (by decide)⟩
  · refine ⟨_, exec_gateCommit q hj v, ?_, (gateCommit_frame (m := 70368744704008) Frame.rfl' rfl).sameBut (by decide)⟩
    obtain ⟨-, -, -, -, -, -, -, -, -, -, -, -, -, ports, -, -⟩ := w
    rw [gateCommit_of_refused bad, sched_event]
    exact sched_modSched_same ports
  · refine ⟨_, committedList p.val (fld v 8 0) s, exec_gateCommit q hj v, ?_, rfl, rfl, rfl, fun ahead => ?_,
      (gateCommit_frame (m := 70368744704008) Frame.rfl' rfl).sameBut (by decide)⟩
    · obtain ⟨-, -, -, -, -, -, -, -, -, -, -, -, -, ports, -, -⟩ := w
      rw [gateCommit_of_accepted ok, acceptCommit_sched, committedList_setCtrl]
      exact sched_modSched_same ports
    · rw [gateCommit_of_accepted ok, acceptCommit_of_ahead _ (by rwa [(gateRegs_setCtrl _).2])]
      exact (modSched_frame (m := 524296) (setReg_frame Frame.rfl' rfl) rfl).sameBut (by decide)
  · rw [exec_gateListStart q, gateListStart_of_none idle]
  · obtain ⟨started, counted⟩ := gateListStart_starts w pending
    exact ⟨_, exec_gateListStart q p, started, counted, (gateListStart_frame (m := 524296) Frame.rfl' rfl).sameBut (by decide)⟩

end Sys2Proof.Machine
end

section
/-! A frame that leaves a lane while the next frame of the lane waits for tubs (R272, R296, R312, R315). The accepted clauses of O36
and O39 leave the rest of the lane as it was, which is so where no frame of it waits; the tubs that the first frame frees are given
to the one behind it. -/
namespace Sys2Proof.Machine

/-! ### What the frame that waits is given (R312) -/

theorem waitFrames_setWaitFrames {d : WaitFor} {s : State} (lane : d ≠ .agent) (w : s.wf) (fs : List QFrame) :
    waitFrames d (setWaitFrames d fs s) = fs := by
  obtain ⟨-, -, -, -, -, -, -, -, -, -, -, -, -, ports, aqs, -⟩ := w
  cases d with
  | agent => exact absurd rfl lane
  | consign p => exact congrArg PortSched.consign (sched_modSched_same ports)
  | circ p => exact congrArg PortSched.circ (sched_modSched_same ports)
  | tally a => exact congrArg AllocQueue.tally (tget_tput aqs)

theorem giveWait_of_lane {w : TubWait} {f : QFrame} {s : State} (lane : w.dest ≠ .agent)
    (frame : unstored w.len (waitFrames w.dest s) = some f) (hs : List Nat) :
    giveWait w hs s =
      setWaitFrames w.dest (storeFirst w.len hs (waitFrames w.dest s)) (writeTubs hs f.bytes s) := by
  unfold giveWait
  split
  next agent => exact absurd agent lane
  next => rw [frame]

theorem stillWaits_of_lane {w : TubWait} {s : State} (lane : w.dest ≠ .agent) :
    stillWaits w s = (unstored w.len (waitFrames w.dest s)).isSome := by
  unfold stillWaits
  split
  next agent => exact absurd agent lane
  next => rfl

section
variable {w : TubWait} {f : QFrame} {p : Nat} {s : State} (lane : w.dest ≠ .agent) (waits : s.tub.waiting = [w])
  (frame : unstored w.len (waitFrames w.dest s) = some f) (pool : poolFor w.len (takesServed s) = some p)
  (may : mayUse w.agent (poolCells p) (takesServed s) = true) (known : w.known = true)
include lane waits frame pool may known

/-- The only take that waits is met: the frame it waits for stands in the tub given. -/
theorem waitFrames_serveWaits (wf : s.wf) :
    waitFrames w.dest (serveWaits s) = storeFirst w.len [chooseTub p (takesServed s)] (waitFrames w.dest s) := by
  have same : ∀ t : State, t.sched = s.sched → waitFrames w.dest t = waitFrames w.dest s := by
    intro t h
    cases hd : w.dest <;> simp only [waitFrames, sched, allocQ, h]
  have given : takeTubs w.agent w.len w.known (takesServed s) =
      (some [chooseTub p (takesServed s)], (giveTub p w.agent (takesServed s)).2) := by
    rw [known, takeTubs_known pool may]
  have gave : waitFrames w.dest (giveTub p w.agent (takesServed s)).2 = waitFrames w.dest s :=
    same _ ((giveTub_frame (m := 131074) Frame.rfl' rfl).sched rfl)
  have kept : (writeTubs [chooseTub p (takesServed s)] f.bytes (giveTub p w.agent (takesServed s)).2).wf :=
    (writeTubs_frame (m := 13194139664386) (giveTub_frame Frame.rfl' rfl) rfl).lasting.wf (s := takesServed s) wf
  rw [serveWaits_single waits (by rw [stillWaits_of_lane lane, same (takesServed s) rfl, frame]; rfl) given,
    giveWait_of_lane lane (gave ▸ frame), waitFrames_setWaitFrames lane kept, gave]

end

/-- The on-die tubs of a frame are freed, and the takes that wait are served. -/
theorem freeFrame_of_tub {agent h : Nat} {f : QFrame} (assigned : agent < 12) (tubs : f.tubs = [h]) (dram : f.dram = none)
    (s : State) : freeFrame agent f s = serveWaits (freeWalk agent true (s.tub.tags.length + 1) h s) := by
  simp only [freeFrame, freeTubsOf, tubFree, tubs, dram, Nat.not_le.mpr assigned, if_false]

/-! ### A frame boundary at which the consignment lane sends (R272) -/

theorem exec_portFrameStart_good {s : State} (q : s.quiet) (p : Fin 512) :
    exec (.portFrameStart p .good) s = .next (portFrameStart p.val s) :=
  finish_of_frame (m := 83563152820238) q (portFrameStart_frame Frame.rfl' rfl) rfl rfl

/-- The consignment lane goes first, whatever else waits. -/
theorem portFrameStart_of_consign {p : Nat} {s : State} {f : QFrame} {rest : List QFrame} (may : portMaySend p s = true)
    (fix : (sched p s).gateFix = false) (free : lanesPaused p s = false) (head : laneHead (sched p s).consign = some (f, rest)) :
    portFrameStart p s = sendConsign p f rest s := by
  have correct : gateCorrect p s = s := by simp only [gateCorrect, fix]
  simp only [portFrameStart, may, correct, free, head, if_true]

/-! ### Counterexamples: the floor is spent (R312) -/

/-- A frame that stands in tub 0, of 256 bytes. -/
def storedFrame : QFrame := ⟨[0], 0, [0], none, false, false, false, false⟩

/-- A frame of a lane that waits for its tub (R280). -/
def waitingFrame : QFrame := ⟨[1], 0, [], none, false, false, false, false⟩

/-- A frame that has been given its tub is not the frame that waited. -/
theorem storedWaiting_ne (h : Nat) : [{ waitingFrame with tubs := [h] }] ≠ [waitingFrame] := by
  intro same
  injection same with same
  exact absurd (congrArg QFrame.tubs same) nofun

/-- A running terminal whose port 0 is up, where the floor of an agent is one cell, in use for `storedFrame`, and a frame waits for
it (R312). -/
def spentFloor (holder agent : Nat) (d : WaitFor) (x : PortSched) : State :=
  { State.reset with
    regs := [(Reg.TUB_FLOOR holder, 1)]
    boot := { BootState.reset with phase := .running, inReset := none }
    ports := [(0, { PortState.reset with link := true, mode := 2 })]
    lanes := [(0, { LaneState.reset with st := .active })]
    sched := { SchedState.reset with ports := [(0, x)] }
    tub := { TubState.reset with
      tags := [(0, { free := false, owner := agent, next := 0xFFFFFFFF })], taken := [(0, 1)], cells := [(holder, 1)],
      waiting := [{ agent := agent, len := 1, known := true, dest := d }] } }

/-- Port 0 is paused with two circuit packets in its lane, the second waiting. -/
def pausedLane : State :=
  spentFloor 1 7 (.circ 0) { PortSched.reset with circ := [storedFrame, waitingFrame], lanesPausedTo := 1 }

theorem pausedLane_wf : pausedLane.wf := by
  unfold State.wf
  decide

/-- The packet in front has left the lane, and its tub is free. -/
def packetDropped : State := freeWalk 7 true 2 0 (modSched 0 (fun x => { x with circ := [waitingFrame] }) pausedLane)

theorem packetDropped_wf : packetDropped.wf :=
  (freeWalk_frame (m := 70368744835080) (modSched_frame Frame.rfl' rfl) rfl).lasting.wf pausedLane_wf

theorem lanePauseDrop_pausedLane :
    lanePauseDrop 0 pausedLane = count (Reg.CNT_SCHED_LANE_PAUSE_DROP 0) (serveWaits packetDropped) := by
  have drop : lanePauseDrop 0 pausedLane = count (Reg.CNT_SCHED_LANE_PAUSE_DROP 0)
      (freeFrame 7 storedFrame (modSched 0 (fun x => { x with circ := [waitingFrame] }) pausedLane)) := rfl
  rw [drop, freeFrame_of_tub (by decide) rfl rfl]
  rfl

/-- The packet that is dropped leaves its tub to the one behind it. -/
theorem circ_lanePauseDrop_pausedLane : ∃ h, (sched 0 (lanePauseDrop 0 pausedLane)).circ = [{ waitingFrame with tubs := [h] }] := by
  have served := waitFrames_serveWaits (w := { agent := 7, len := 1, known := true, dest := .circ 0 }) (p := 0) (s := packetDropped)
    nofun rfl (f := waitingFrame) (by decide) (by decide) (by decide) rfl packetDropped_wf
  have waits : waitFrames (.circ 0) packetDropped = [waitingFrame] := rfl
  rw [waits] at served
  generalize chooseTub 0 (takesServed packetDropped) = h at served
  have counted : ∀ u, (sched 0 (count (Reg.CNT_SCHED_LANE_PAUSE_DROP 0) u)).circ = waitFrames (.circ 0) u := fun _ => rfl
  rw [lanePauseDrop_pausedLane, counted, served]
  exact ⟨h, rfl⟩

/-- Refutes O36: from `pausedLane` the dropped packet's tub is given to the packet behind it, which the lane then holds stored. -/
theorem not_pausesStopAndExpire : ¬ Obligations.PausesStopAndExpire := by
  intro h
  obtain ⟨-, -, -, -, -, -, -, -, drop⟩ :=
    h pausedLane 0 0 0 (List.replicate 8 0) 0 ⟨rfl, rfl⟩ pausedLane_wf (by decide) (by decide)
  obtain ⟨t, ht, rest, -⟩ := drop storedFrame [waitingFrame] (by decide) rfl
  have dropped : exec (.lanePauseDrop 0) pausedLane = .next (lanePauseDrop 0 pausedLane) := execLanePauseDrop_eq 0 ⟨rfl, rfl⟩
  rw [dropped] at ht
  injection ht with ht
  obtain ⟨tub, given⟩ := circ_lanePauseDrop_pausedLane
  exact storedWaiting_ne tub (given.symm.trans ((congrArg (fun u => (sched 0 u).circ) ht).trans rest))

/-- Port 0 is at a frame boundary with two consignments in its lane, the second waiting. -/
def readyLane : State := spentFloor 0 8 (.consign 0) { PortSched.reset with consign := [storedFrame, waitingFrame] }

theorem readyLane_wf : readyLane.wf := by
  unfold State.wf
  decide

/-- The consignment in front is on the wire, and its tub is free. -/
def consignmentSent : State :=
  freeWalk 8 true 2 0 (transmit 0 none storedFrame (modSched 0 (fun x => { x with consign := [waitingFrame] }) readyLane))

theorem consignmentSent_wf : consignmentSent.wf :=
  (freeWalk_frame (m := 70369013286924) (transmit_frame (modSched_frame Frame.rfl' rfl) rfl) rfl).lasting.wf readyLane_wf

theorem sendConsign_readyLane :
    ∃ pj, sendConsign 0 storedFrame [waitingFrame] readyLane = noteStrict pj (serveWaits consignmentSent) := by
  have sent : sendConsign 0 storedFrame [waitingFrame] readyLane =
      noteStrict (frameL storedFrame.bytes * portCoef storedFrame.line readyLane) (freeFrame 8 storedFrame
        (transmit 0 none storedFrame (modSched 0 (fun x => { x with consign := [waitingFrame] }) readyLane))) := rfl
  rw [sent, freeFrame_of_tub (by decide) rfl rfl]
  exact ⟨_, rfl⟩

/-- The consignment that is sent leaves its tub to the one behind it. -/
theorem consign_portFrameStart_readyLane :
    ∃ h, (sched 0 (portFrameStart 0 readyLane)).consign = [{ waitingFrame with tubs := [h] }] := by
  have served := waitFrames_serveWaits (w := { agent := 8, len := 1, known := true, dest := .consign 0 }) (p := 0)
    (s := consignmentSent) nofun rfl (f := waitingFrame) (by decide) (by decide) (by decide) rfl consignmentSent_wf
  have waits : waitFrames (.consign 0) consignmentSent = [waitingFrame] := rfl
  rw [waits] at served
  generalize chooseTub 0 (takesServed consignmentSent) = h at served
  have noted : ∀ pj u, (sched 0 (noteStrict pj u)).consign = waitFrames (.consign 0) u := fun _ _ => rfl
  obtain ⟨pj, sent⟩ := sendConsign_readyLane
  rw [portFrameStart_of_consign (by decide) rfl (by decide) rfl, sent, noted, served]
  exact ⟨h, rfl⟩

/-- Refutes O39: from `readyLane` the tub of the consignment that starts is given to the one behind it, which the lane then holds
stored. -/
theorem not_portsSendInOrder : ¬ Obligations.PortsSendInOrder := by
  intro h
  obtain ⟨-, sends, -⟩ := h readyLane 0 storedFrame [waitingFrame] ⟨rfl, rfl⟩ readyLane_wf (by decide)
  obtain ⟨lane, -⟩ := sends (by decide) rfl (by decide)
  obtain ⟨t, l, ht, -, rest, -⟩ := lane (by decide) rfl
  rw [exec_portFrameStart_good ⟨rfl, rfl⟩] at ht
  injection ht with ht
  obtain ⟨tub, given⟩ := consign_portFrameStart_readyLane
  exact storedWaiting_ne tub (given.symm.trans ((congrArg (fun u => (sched 0 u).consign) ht).trans rest))

end Sys2Proof.Machine
end

section
/-! The MDIO buses (R353 to R356): what the command of a slot sends, and what its end leaves on the bus. -/
namespace Sys2Proof.Machine

/-! ### The frames of a command -/

/-- What a sideband output has sent once `l`, latest first, goes out at it (R543). -/
def landed (k : Nat) (l : List Output) (s : State) : List Output :=
  if rbit Reg.GEN_LAND_SHORT k s then s.outs else l ++ s.outs

/-- A frame of the command in a slot: its operation bits and its address or data. -/
def mdioOut (g slot : Nat) (s : State) (bits : Nat) (x : Option Nat) : Output :=
  .mdio g (rfld (Reg.PORT_MDIO_CFG g) 7 0 s) (!rbit (Reg.PORT_MDIO_CFG g) 8 s) bits
    (fld (reg (mdioCmd g slot) s) 9 5) (fld (reg (mdioCmd g slot) s) 4 0) x

/-- The frames of operation `op` (R354, R355), latest first. -/
def mdioSent (op g slot : Nat) (s : State) : List Output :=
  (if op == 4 then [mdioOut g slot s 2 none] else []) ++ (if op == 3 || op == 6 then [mdioOut g slot s 3 none] else []) ++
    (if op == 2 || op == 5 then [mdioOut g slot s 1 (some (fld (reg (mdioArg g slot) s) 15 0))] else []) ++
    (if op == 1 || op == 5 || op == 6 then [mdioOut g slot s 0 (some (fld (reg (mdioArg g slot) s) 31 16))] else [])

/-- The frames go out one after the other. -/
def mdioSend (op g slot : Nat) (s : State) : State :=
  s |> when' (op == 1 || op == 5 || op == 6)
      (emitLand (19 + g) (mdioOut g slot s 0 (some (fld (reg (mdioArg g slot) s) 31 16))))
    |> when' (op == 2 || op == 5) (emitLand (19 + g) (mdioOut g slot s 1 (some (fld (reg (mdioArg g slot) s) 15 0))))
    |> when' (op == 3 || op == 6) (emitLand (19 + g) (mdioOut g slot s 3 none))
    |> when' (op == 4) (emitLand (19 + g) (mdioOut g slot s 2 none))

/-- The slot is free and its turn is over. -/
def mdioFreed (slot : Nat) (x : MdioState) : MdioState := { x with op := tput (fun _ => 0) slot 0 x.op, last := slot }

/-- What a read leaves in its slot: the PHY's answer, or ERR and 0xFFFF without a turnaround (R356). -/
def mdioAnswered (slot : Nat) (answer : Option (BitVec 16)) (x : MdioState) : MdioState :=
  match answer with
  | some d => { x with err := tput (fun _ => false) slot false x.err, rdata := tput (fun _ => 0) slot d.toNat x.rdata }
  | none => { x with err := tput (fun _ => false) slot true x.err, rdata := tput (fun _ => 0) slot 0xFFFF x.rdata }

/-- The bus after operation `op`. -/
def mdioEnd (op slot : Nat) (answer : Option (BitVec 16)) (x : MdioState) : MdioState :=
  if op = 3 ∨ op = 4 ∨ op = 6 then mdioAnswered slot answer (mdioFreed slot x) else mdioFreed slot x

theorem mdioSend_frame {m : Nat} (hm : m &&& 4 = 4) (op g slot : Nat) (s : State) : Frame m s (mdioSend op g slot s) :=
  when'_frame (when'_frame (when'_frame (when'_frame Frame.rfl' fun _ h => emitLand_frame h hm) fun _ h => emitLand_frame h hm)
    fun _ h => emitLand_frame h hm) fun _ h => emitLand_frame h hm

theorem mdioFrames_eq (g slot : Nat) (answer : Option (BitVec 16)) (s : State) :
    mdioFrames g slot answer s = setMdio g (mdioEnd (mdioOp g slot s) slot answer (mdioBus g s)) (mdioSend (mdioOp g slot s) g slot s) := by
  have same : mdioBus g (mdioSend (mdioOp g slot s) g slot s) = mdioBus g s :=
    congrArg (fun t => tget (fun _ => MdioState.reset) t g) ((mdioSend_frame (m := 4) rfl _ g slot s).mdio rfl)
  rw [← same, mdioEnd]
  split
  · next reads =>
    cases answer <;> exact if_pos reads
  · next writes => exact if_neg writes

theorem emitLand_landed {k : Nat} {c : Bool} {o : Output} {l : List Output} {s t : State} (regs : t.regs = s.regs)
    (before : t.outs = landed k l s) : (when' c (emitLand k o) t).outs = landed k ((if c then [o] else []) ++ l) s := by
  have short : rbit Reg.GEN_LAND_SHORT k t = rbit Reg.GEN_LAND_SHORT k s := by simp only [rbit, reg, regs]
  cases c
  · exact before
  · rw [when'_true, emitLand, short]
    unfold landed at before ⊢
    split
    · next closed => rw [before, if_pos closed]
    · next opened =>
      rw [if_neg opened] at before
      exact congrArg (o :: ·) before

theorem mdioSend_outs (op g slot : Nat) (s : State) : (mdioSend op g slot s).outs = landed (19 + g) (mdioSent op g slot s) s := by
  have regs : ∀ c o t, t.regs = s.regs → (when' c (emitLand (19 + g) o) t).regs = s.regs := fun c o t h =>
    ((when'_frame (m := 4) Frame.rfl' fun _ h => emitLand_frame h rfl).regs rfl).trans h
  have start : s.outs = landed (19 + g) [] s := (ite_self _).symm
  rw [mdioSent, List.append_assoc, List.append_assoc, ← List.append_nil (if op == 1 || op == 5 || op == 6 then _ else _)]
  exact emitLand_landed (regs _ _ _ (regs _ _ _ (regs _ _ _ rfl))) (emitLand_landed (regs _ _ _ (regs _ _ _ rfl))
    (emitLand_landed (regs _ _ _ rfl) (emitLand_landed rfl start)))

/-! ### A row of the bus -/

theorem mdioTurn_of_asleep {s : State} (asleep : domState 18 s ≠ .on) (op g : Nat) (answer : Option (BitVec 16)) :
    mdioTurn op g answer s = s := if_pos asleep

section
variable {s : State} {g slot : Nat} (on : domState 18 s = .on) (turn : mdioNext g s = some slot)
include on turn

theorem mdioTurn_of_other {op : Nat} (other : mdioOp g slot s ≠ op) (answer : Option (BitVec 16)) : mdioTurn op g answer s = s := by
  simp only [mdioTurn, on, turn, other, ne_eq, not_true_eq_false, if_false]

theorem mdioTurn_of_op {op : Nat} (waits : mdioOp g slot s = op) (answer : Option (BitVec 16)) :
    mdioTurn op g answer s = setMdio g (mdioEnd op slot answer (mdioBus g s)) (mdioSend op g slot s) := by
  simp only [mdioTurn, on, turn, waits, mdioFrames_eq, ne_eq, not_true_eq_false, if_false, if_true]

end

theorem finish_mdioTurn {s : State} (q : s.quiet) (op g : Nat) (answer : Option (BitVec 16)) :
    finish (mdioTurn op g answer s) = .next (mdioTurn op g answer s) :=
  finish_of_frame (m := 2097156) q (mdioTurn_frame Frame.rfl' rfl) rfl rfl

/-- Settles O46: each row is `mdioTurn` for its operation, by whether that operation waits in the slot whose turn it is. -/
theorem mdioFramesGoOut : Obligations.MdioFramesGoOut := by
  intro s g d q w
  refine ⟨fun asleep => ?_, fun x hj => ?_, fun slot _ on turn => ?_⟩
  · have still : ∀ op answer, finish (mdioRow op g.val none answer s) = .next s := fun op answer =>
      (finish_mdioTurn q op g.val answer).trans (congrArg _ (mdioTurn_of_asleep asleep op g.val answer))
    exact ⟨still 1 none, still 2 none, still 5 none, fun a => ⟨still 3 a, still 4 a, still 6 a⟩⟩
  · have starts : ∀ op answer, finish (mdioRow op g.val (some x) answer s) =
        finish (mdioRow op g.val none answer (mdioStart g.val x.slot.val x.src x.value s)) := fun op answer =>
      congrArg (fun t => finish (mdioTurn op g.val answer t)) (commandWrite_perform hj)
    exact ⟨starts 1 none, starts 2 none, starts 5 none, fun a => ⟨starts 3 a, starts 4 a, starts 6 a⟩⟩
  · have other : ∀ {op}, mdioOp g.val slot s ≠ op → ∀ answer, finish (mdioRow op g.val none answer s) = .next s := fun h answer =>
      (finish_mdioTurn q _ g.val answer).trans (congrArg _ (mdioTurn_of_other on turn h answer))
    have row : ∀ {op}, mdioOp g.val slot s = op → ∀ answer, ∃ t, finish (mdioRow op g.val none answer s) = .next t ∧
        t.outs = landed (19 + g.val) (mdioSent op g.val slot s) s ∧ mdioBus g.val t = mdioEnd op slot answer (mdioBus g.val s) ∧
        SameBut [.outs, .mdio] s t := by
      intro op h answer
      obtain ⟨-, -, -, -, -, -, -, -, -, wfMdio, -⟩ := w
      refine ⟨_, finish_mdioTurn q op g.val answer, ?_, ?_, (mdioTurn_frame (m := 2097156) Frame.rfl' rfl).sameBut (by decide)⟩
      · rw [mdioTurn_of_op on turn h, setMdio_outs, mdioSend_outs]
      · rw [mdioTurn_of_op on turn h]
        exact tget_tput ((mdioSend_frame (m := 4) rfl op g.val slot s).lasting.mdio wfMdio)
    exact ⟨fun h => row h none, fun h => row h none, fun h => ⟨row h (some d), row h none⟩, fun h => ⟨row h (some d), row h none⟩,
      fun h => row h none, fun h => ⟨row h (some d), row h none⟩, fun h => other h none, fun h => other h none,
      fun h => other h none, fun a => ⟨fun h => other h a, fun h => other h a, fun h => other h a⟩⟩

end Sys2Proof.Machine
end

section
/-! The boundary clock's ports (R393). `State.wf` says nothing of `TimeState.ptp`, the table they are held in: the clauses of O50 that
read a port back after `setPtpPort` need it in canonical form. -/
namespace Sys2Proof.Machine

theorem exec_ptpSyncInterval {s : State} (q : s.quiet) (l : Fin 512) (announce : Bool) :
    exec (.ptpSyncInterval l announce) s = .next (ptpSyncInterval l.val announce s) := execPtpSyncInterval_eq l announce q

theorem sendPtp_time (l seq : Nat) (m : PtpSend) (s : State) : (sendPtp l seq m s).time = s.time :=
  (sendPtp_frame (m := 16396) Frame.rfl' rfl).time rfl

/-- An Announce takes the next sequence number of its port (R393). -/
theorem ptp_ptpSyncInterval_announce {l : Nat} {s : State} (master : ptpState l s = 2) (may : supMaySend l s = true) :
    (ptpSyncInterval l true s).time.ptp =
      tput (fun _ => ptpPort0) l { ptpPort l s with txAnnSeq := ((ptpPort l s).txAnnSeq + 1) % 2 ^ 16 } s.time.ptp := by
  rw [ptpSyncInterval, if_pos ⟨master, may⟩, if_pos rfl, setPtpPort]
  exact congrArg (fun x : TimeState => tput (fun _ => ptpPort0) l _ x.ptp) (sendPtp_time _ _ _ s)

/-- Port 0 is up and MASTER. Its table lists it twice, first with the last sequence number of the Announces. -/
def masterListedTwice : State :=
  { State.reset with
    regs := [(Reg.TIME_PTP_PORT 0, 0x80000200)]
    boot := { BootState.reset with phase := .running, inReset := none }
    time := { TimeState.reset with ptp := [(0, { ptpPort0 with txAnnSeq := 0xFFFF }), (0, { ptpPort0 with txAnnSeq := 1 })] }
    ports := [(0, { PortState.reset with link := true, mode := 2 })] }

theorem masterListedTwice_wf : masterListedTwice.wf := by
  unfold State.wf
  decide

/-- Refutes O50: from `masterListedTwice` the sequence number wraps, the first entry is that of an idle port and goes, and the port
reads as the second one. -/
theorem not_timeSourcesAreMeasured : ¬ Obligations.TimeSourcesAreMeasured := by
  intro h
  obtain ⟨-, -, -, -, -, -, -, sends, -⟩ := h 0 ⟨0, 0, 0, 0, 0, .other⟩ masterListedTwice ⟨rfl, rfl⟩ masterListedTwice_wf
  have master : ptpState 0 masterListedTwice = 2 := by decide
  have may : supMaySend 0 masterListedTwice = true := by decide
  obtain ⟨-, t, ht, wrapped, -⟩ := sends master may
  rw [exec_ptpSyncInterval ⟨rfl, rfl⟩] at ht
  injection ht with ht
  have read : ptpPort 0 t = { ptpPort0 with txAnnSeq := 1 } := by
    rw [← ht, ptpPort, Fin.val_zero, ptp_ptpSyncInterval_announce master may]
    rfl
  exact absurd (congrArg PtpPort.txAnnSeq (wrapped.symm.trans read)) (by decide)

end Sys2Proof.Machine
end

section
/-! The modes of local ports (R337 to R340) and the frames their MACs receive (R341 to R343, R348, R362). -/
namespace Sys2Proof.Machine

/-! ### 64-bit counters (R14) -/

theorem tget_of_lt {α : Type} [DecidableEq α] {d : Nat → α} {t : Table α} {k lo : Nat} (h : k < lo)
    (e : twfFrom d lo t = true) : tget d t k = d k := by
  induction t generalizing lo with
  | nil => rfl
  | cons x t ih =>
    simp only [twfFrom, Bool.and_eq_true, decide_eq_true_eq] at e
    obtain ⟨⟨above, -⟩, rest⟩ := e
    rw [tget, if_neg (by omega)]
    exact ih (by omega) rest

theorem tput_tget_from {α : Type} [DecidableEq α] {d : Nat → α} {t : Table α} {k lo : Nat} (e : twfFrom d lo t = true) :
    tput d k (tget d t k) t = t := by
  induction t generalizing lo with
  | nil => exact if_pos rfl
  | cons x t ih =>
    simp only [twfFrom, Bool.and_eq_true, decide_eq_true_eq, Bool.not_eq_true', decide_eq_false_iff_not] at e
    obtain ⟨⟨-, listed⟩, rest⟩ := e
    rcases Nat.lt_trichotomy k x.1 with below | same | above
    · rw [tget, if_neg (by omega), tget_of_lt (by omega) rest, tput, if_pos below, if_pos rfl]
    · rw [tget, if_pos same, tput, if_neg (by omega), if_pos same, if_neg (by rwa [same]), same]
    · rw [tget, if_neg (by omega), tput, if_neg (by omega), if_neg (by omega), ih rest]

/-- Writing the content a table holds changes nothing. -/
theorem tput_tget {α : Type} [DecidableEq α] {d : Nat → α} {t : Table α} {k : Nat} (e : twf d t = true) :
    tput d k (tget d t k) t = t := tput_tget_from e

theorem setReg_reg {a : Nat} {v : Word} {s : State} (w : twf resetValue s.regs = true) (h : reg a s = v) : setReg a v s = s := by
  rw [setReg, ← h, reg, tput_tget w]

section
variable {a b n : Nat} {s : State}

theorem reg_count64_ne (low : b ≠ a) (high : b ≠ a + 4) : reg b (count64 a n s) = reg b s :=
  (reg_setReg_ne high).trans (reg_setReg_ne low)

theorem reg_count64_low (w : twf resetValue s.regs = true) : reg a (count64 a n s) = reg a s + word n := by
  refine (reg_setReg_ne (by omega)).trans ((reg_setReg_same w).trans (BitVec.eq_of_toNat_eq ?_))
  simp only [word, BitVec.toNat_ofNat, BitVec.toNat_add]
  omega

theorem count64_wf (w : twf resetValue s.regs = true) : twf resetValue (count64 a n s).regs = true := twf_tput (twf_tput w)

theorem count64_zero (w : twf resetValue s.regs = true) : count64 a 0 s = s := by
  have low : word ((reg a s).toNat + (reg (a + 4) s).toNat * 2 ^ 32 + 0) = reg a s := by
    apply BitVec.eq_of_toNat_eq
    simp only [word, BitVec.toNat_ofNat]
    omega
  have high : word (((reg a s).toNat + (reg (a + 4) s).toNat * 2 ^ 32 + 0) / 2 ^ 32) = reg (a + 4) s := by
    apply BitVec.eq_of_toNat_eq
    simp only [word, BitVec.toNat_ofNat]
    omega
  simp only [count64, low, high, setReg_reg w rfl]

end

/-! ### LPI is deasserted (R351) -/

/-- The credit of a port and of its queues is settled. -/
def creditSettled (p : Nat) (s : State) : State :=
  each (List.range 8) (fun q s => settleQueueCredit p q s) (settlePortCredit p s)

/-- The port earns no credit until `till`, and its partner is told. -/
def creditFrom (p till : Nat) (s : State) : State :=
  s |> modSched p (fun y => { y with credit := { y.credit with cycle := till } })
    |> each (List.range 8) (fun q s => setQueue p q { queue p q s with credit := { (queue p q s).credit with cycle := till } } s)
    |> emit (.lpi p false)

section
variable {p : Nat} {s : State}

theorem creditSettled_frame : Frame 524288 s (creditSettled p s) :=
  each_frame (settlePortCredit_frame Frame.rfl' rfl) fun _ _ h => settleQueueCredit_frame h rfl

theorem creditFrom_frame {till : Nat} : Frame 524292 s (creditFrom p till s) :=
  emit_frame (each_frame (modSched_frame Frame.rfl' rfl) fun _ _ h => setQueue_frame h rfl) rfl

theorem lpiDrop_of_lpi (lpi : (port p s).lpiTx = true) : ∃ till us,
    lpiDrop p s = creditFrom p till (setPort p { port p s with lpiTx := false, wakeTo := till }
      (count64 (Reg.CNT_PORT_TX_LPI_US_LO p) us (creditSettled p s))) := ⟨_, _, if_pos lpi⟩

theorem lpiDrop_of_awake (awake : ¬ (port p s).lpiTx = true) : lpiDrop p s = s := if_neg awake

end

/-! ### A port goes down: PORT_CFG stays (R340, R347) -/

/-- An event changes no register but the count of the records lost (R488). -/
theorem regs_event (code : BitVec 16) (payload : Bytes) (s : State) :
    (event code payload s).regs = s.regs ∨ ∃ u : State, u.regs = s.regs ∧ event code payload s = count Reg.CNT_REC_LOST u := by
  unfold event recordEvent
  dsimp only
  split
  · split
    · exact .inl rfl
    · exact .inr ⟨_, by rfl, rfl⟩
  · split <;> exact .inl rfl

/-- PORT_CFG of a port holds `v`. -/
def PortCfgHolds (p : Nat) (v : Word) (s : State) : Prop := reg (Reg.PORT_CFG p) s = v

section
variable {p : Nat} {v : Word} {s : State}

theorem PortCfgHolds.of_regs {t : State} (h : PortCfgHolds p v s) (same : t.regs = s.regs) : PortCfgHolds p v t := by
  unfold PortCfgHolds reg
  rwa [same]

theorem PortCfgHolds.countN (h : PortCfgHolds p v s) {a : Nat} (other : Reg.PORT_CFG p ≠ a) (n : Nat) :
    PortCfgHolds p v (countN a n s) := (reg_setReg_ne other).trans h

theorem PortCfgHolds.count64 (h : PortCfgHolds p v s) {a : Nat} (low : Reg.PORT_CFG p ≠ a) (high : Reg.PORT_CFG p ≠ a + 4) (n : Nat) :
    PortCfgHolds p v (count64 a n s) := (reg_count64_ne low high).trans h

theorem PortCfgHolds.event (h : PortCfgHolds p v s) (code : BitVec 16) (payload : Bytes) : PortCfgHolds p v (event code payload s) := by
  obtain same | ⟨u, same, lost⟩ := regs_event code payload s
  · exact h.of_regs same
  · rw [lost]
    exact (h.of_regs same).countN (by unfold Reg.PORT_CFG Reg.CNT_REC_LOST; omega) 1

theorem PortCfgHolds.badFree (h : PortCfgHolds p v s) (agent reason handle owner : Nat) :
    PortCfgHolds p v (badFree agent reason handle owner s) :=
  (h.countN (by unfold Reg.PORT_CFG Reg.CNT_TUB_BAD_FREE; omega) 1).event _ _

theorem PortCfgHolds.freeWalk (h : PortCfgHolds p v s) (agent : Nat) (chain : Bool) (fuel x : Nat) :
    PortCfgHolds p v (freeWalk agent chain fuel x s) := by
  induction fuel generalizing x s with
  | zero => exact h
  | succ fuel ih =>
    unfold Machine.freeWalk
    dsimp only
    split
    · exact h.badFree ..
    · have marked : PortCfgHolds p v (markFree x s) := h
      split
      · exact ih marked _
      · exact marked

theorem PortCfgHolds.tubFree (h : PortCfgHolds p v s) (agent x : Nat) (chain : Bool) : PortCfgHolds p v (tubFree agent x chain s) := by
  unfold Machine.tubFree
  split
  · exact h.badFree ..
  · exact (h.freeWalk agent chain _ x).of_regs ((serveWaits_frame (m := 13194140188678) Frame.rfl' rfl).regs rfl)

theorem PortCfgHolds.freeFrame (h : PortCfgHolds p v s) (agent : Nat) (f : QFrame) : PortCfgHolds p v (freeFrame agent f s) := by
  have onDie : PortCfgHolds p v (freeTubsOf agent f.tubs s) := by
    unfold freeTubsOf
    split
    · exact h
    · exact h.tubFree ..
  unfold Machine.freeFrame
  split
  · exact onDie.tubFree ..
  · exact onDie

theorem PortCfgHolds.freeFrames (h : PortCfgHolds p v s) (agent : Nat) (fs : List QFrame) :
    PortCfgHolds p v (freeFrames agent fs s) :=
  each_induct h fun f _ h => h.freeFrame agent f

theorem PortCfgHolds.flushPort (h : PortCfgHolds p v s) (q : Nat) {counter : Nat} (other : Reg.PORT_CFG p ≠ counter) :
    PortCfgHolds p v (flushPort q counter s) :=
  PortCfgHolds.countN (each_induct (P := PortCfgHolds p v) ((h.freeFrames 8 _).freeFrames 7 _) fun _ _ h => h.freeFrames 4 _) other _

theorem PortCfgHolds.lpiDrop (h : PortCfgHolds p v s) (q : Nat) : PortCfgHolds p v (lpiDrop q s) := by
  by_cases lpi : (port q s).lpiTx = true
  · obtain ⟨till, us, dropped⟩ := lpiDrop_of_lpi lpi
    have counted : PortCfgHolds p v (Machine.count64 (Reg.CNT_PORT_TX_LPI_US_LO q) us (creditSettled q s)) := by
      refine (h.of_regs (creditSettled_frame.regs rfl)).count64 ?_ ?_ us <;> unfold Reg.PORT_CFG Reg.CNT_PORT_TX_LPI_US_LO <;> omega
    rw [dropped]
    exact counted.of_regs (creditFrom_frame.regs rfl)
  · rwa [lpiDrop_of_awake lpi]

theorem PortCfgHolds.lpiRxEnd (h : PortCfgHolds p v s) (q : Nat) : PortCfgHolds p v (lpiRxEnd q s) := by
  unfold Machine.lpiRxEnd
  dsimp only
  split
  · refine when'_induct (P := PortCfgHolds p v) h fun _ h => h.count64 ?_ ?_ _ <;>
      unfold Reg.PORT_CFG Reg.CNT_PORT_RX_LPI_US_LO <;> omega
  · exact h

theorem PortCfgHolds.portDown (h : PortCfgHolds p v s) (q : Nat) {counter : Nat} (other : Reg.PORT_CFG p ≠ counter) :
    PortCfgHolds p v (portDown q counter s) := by
  unfold Machine.portDown
  split
  · have unlinked : PortCfgHolds p v (modPort q (fun x => { x with link := false }) s) := h
    have quiet : PortCfgHolds p v (loseEee q (portLinkEvent q false (modPort q (fun x => { x with link := false }) s))) :=
      (unlinked.event _ _).lpiDrop q
    exact (quiet.lpiRxEnd q).flushPort q other
  · exact h.flushPort q other

end

/-! ### A port goes down: its link is lost (R345, R347) -/

/-- The table of ports is canonical and port `l` is down. -/
def LinkLost (l : Nat) (s : State) : Prop := twf (fun _ => PortState.reset) s.ports = true ∧ (port l s).link = false

section
variable {l : Nat} {s : State}

theorem LinkLost.of_ports {t : State} (h : LinkLost l s) (same : t.ports = s.ports) : LinkLost l t := by
  unfold LinkLost port
  rwa [same]

theorem port_setPort_same {x : PortState} (w : twf (fun _ => PortState.reset) s.ports = true) : port l (setPort l x s) = x := tget_tput w

theorem LinkLost.setPort (h : LinkLost l s) {q : Nat} {x : PortState} (keeps : x.link = (port q s).link) : LinkLost l (setPort q x s) := by
  obtain ⟨canonical, down⟩ := h
  refine ⟨twf_tput canonical, ?_⟩
  by_cases same : l = q
  · subst same
    rw [port_setPort_same canonical, keeps, down]
  · exact (congrArg PortState.link (tget_tput_ne same)).trans down

theorem LinkLost.lpiDrop (h : LinkLost l s) (q : Nat) : LinkLost l (lpiDrop q s) := by
  by_cases lpi : (port q s).lpiTx = true
  · obtain ⟨till, us, dropped⟩ := lpiDrop_of_lpi lpi
    have ports : (Machine.count64 (Reg.CNT_PORT_TX_LPI_US_LO q) us (creditSettled q s)).ports = s.ports := creditSettled_frame.ports rfl
    rw [dropped]
    refine ((h.of_ports ports).setPort ?_).of_ports (creditFrom_frame.ports rfl)
    rw [port, port, ports]
  · rwa [lpiDrop_of_awake lpi]

theorem LinkLost.lpiRxEnd (h : LinkLost l s) (q : Nat) : LinkLost l (lpiRxEnd q s) := by
  unfold Machine.lpiRxEnd
  dsimp only
  split
  · exact when'_induct (P := LinkLost l) (h.setPort rfl) fun _ h => h.of_ports rfl
  · exact h

theorem LinkLost.flushPort (h : LinkLost l s) (q counter : Nat) : LinkLost l (flushPort q counter s) :=
  h.of_ports ((flushPort_frame (m := 83562884368398) Frame.rfl' rfl).ports rfl)

/-- What follows the loss of a link leaves every port down that is. -/
theorem LinkLost.rest (h : LinkLost l s) (q counter : Nat) :
    LinkLost l (Machine.flushPort q counter (Machine.lpiRxEnd q (loseEee q (portLinkEvent q false s)))) := by
  have told : LinkLost l (portLinkEvent q false s) :=
    h.of_ports ((portLinkEvent_frame (m := 70368744179720) Frame.rfl' rfl).ports rfl)
  have quiet : LinkLost l (loseEee q (portLinkEvent q false s)) := (told.lpiDrop q).setPort rfl
  exact (quiet.lpiRxEnd q).flushPort q counter

theorem LinkLost.portDown (h : LinkLost l s) (q counter : Nat) : LinkLost l (portDown q counter s) := by
  unfold Machine.portDown
  split
  · next up =>
    have other : l ≠ q := fun same => Bool.false_ne_true (h.2.symm.trans (same ▸ up))
    have unlinked : LinkLost l (modPort q (fun x => { x with link := false }) s) :=
      ⟨twf_tput h.1, (congrArg PortState.link (tget_tput_ne other)).trans h.2⟩
    exact unlinked.rest q counter
  · exact h.flushPort q counter

theorem portDown_linkLost (w : twf (fun _ => PortState.reset) s.ports = true) (counter : Nat) : LinkLost l (portDown l counter s) := by
  unfold Machine.portDown
  split
  · have unlinked : LinkLost l (modPort l (fun x => { x with link := false }) s) :=
      ⟨twf_tput w, congrArg PortState.link (port_setPort_same w)⟩
    exact unlinked.rest l counter
  · next down => exact LinkLost.flushPort ⟨w, Bool.eq_false_iff.mpr down⟩ l counter

end

/-! ### PORT_MODE_WRITE (R337 to R340) -/

/-- The ports that a change of MODE takes down: the whole block into and out of MODE 4. -/
def flushedPorts (l old mode : Nat) : List Nat := if old = 4 ∨ mode = 4 then [l, l + 1, l + 2, l + 3] else [l]

/-- The ports of a change of MODE are down. -/
def blockDown (l mode : Nat) (s : State) : State :=
  each (flushedPorts l (port l s).mode mode) (fun p s => portDown p (Reg.CNT_PORT_MODE_FLUSH p) s) s

theorem changeMode_eq (l mode : Nat) (s : State) :
    changeMode l mode s = (blockDown l mode s
      |> modPort l (fun x => { x with mode := mode, locFault := false, remFault := false })
      |> event 0x0A02 (beBytes 2 l ++ [BitVec.ofNat 8 (port l s).mode, BitVec.ofNat 8 mode])
      |> retrainLanes (flushedPorts l (port l s).mode mode)) := rfl

section
variable {l mode : Nat} {s : State}

theorem flushedPorts_cons (l old mode : Nat) : ∃ rest, flushedPorts l old mode = l :: rest := by
  unfold flushedPorts
  split <;> exact ⟨_, rfl⟩

theorem blockDown_linkLost (w : twf (fun _ => PortState.reset) s.ports = true) : LinkLost l (blockDown l mode s) := by
  obtain ⟨rest, ports⟩ := flushedPorts_cons l (port l s).mode mode
  rw [blockDown, ports, each_cons]
  exact each_induct (portDown_linkLost w _) fun p _ h => h.portDown p _

theorem PortCfgHolds.changeMode {p : Nat} {v : Word} (h : PortCfgHolds p v s) (l mode : Nat) : PortCfgHolds p v (changeMode l mode s) := by
  have down : PortCfgHolds p v (blockDown l mode s) :=
    each_induct h fun q _ h => h.portDown q (by unfold Reg.PORT_CFG Reg.CNT_PORT_MODE_FLUSH; omega)
  have set : PortCfgHolds p v (modPort l (fun x => { x with mode := mode, locFault := false, remFault := false }) (blockDown l mode s)) :=
    down
  rw [changeMode_eq]
  exact (set.event _ _).of_regs ((retrainLanes_frame (m := 536870912) Frame.rfl' rfl).regs rfl)

theorem port_event (p : Nat) (code : BitVec 16) (payload : Bytes) (s : State) : port p (event code payload s) = port p s :=
  congrArg (fun t => tget (fun _ => PortState.reset) t p) ((event_frame (m := 70368744179720) Frame.rfl' rfl).ports rfl)

theorem port_retrainLanes (p : Nat) (ls : List Nat) (s : State) : port p (retrainLanes ls s) = port p s :=
  congrArg (fun t => tget (fun _ => PortState.reset) t p) ((retrainLanes_frame (m := 536870912) Frame.rfl' rfl).ports rfl)

theorem port_changeMode (w : twf (fun _ => PortState.reset) s.ports = true) :
    port l (changeMode l mode s) = { port l (blockDown l mode s) with mode := mode, locFault := false, remFault := false } := by
  rw [changeMode_eq, port_retrainLanes, port_event]
  exact port_setPort_same (blockDown_linkLost w).1

end

/-- The MODE a write of PORT_CFG asks for: none of its own under a 100G block (R337). -/
def modeWritten (l : Nat) (v : Word) (s : State) : Nat := if underBlock l s then (port l s).mode else fld v 18 16

/-- PORT_CFG as an accepted write leaves it: a MAX_FRAME out of range is ignored (R339). -/
def cfgWritten (l : Nat) (v : Word) (s : State) : Word :=
  let mf := if 1518 ≤ fld v 13 0 ∧ fld v 13 0 ≤ 12288 then fld v 13 0 else rfld (Reg.PORT_CFG l) 13 0 s
  word (modeWritten l v s * 2 ^ 16 + b2n (bitOf v 15) * 2 ^ 15 + mf)

section
variable {l : Nat} {v : Word} {s : State}

theorem portModeWrite_of_same (same : modeWritten l v s = (port l s).mode) :
    portModeWrite l v s = setReg (Reg.PORT_CFG l) (cfgWritten l v s) s := by
  unfold modeWritten at same
  simp only [portModeWrite, cfgWritten, modeWritten, same, bne_self_eq_false, Bool.false_eq_true, if_false, ne_eq, not_true_eq_false]
  rfl

theorem portModeWrite_of_refused (change : modeWritten l v s ≠ (port l s).mode) (bad : modeReason l (modeWritten l v s) s ≠ 0) :
    ∃ payload, portModeWrite l v s =
      event 0x0A03 payload (modPort l (fun x => { x with err := modeReason l (modeWritten l v s) s }) s) := by
  unfold modeWritten at change bad ⊢
  exact ⟨_, by simp only [portModeWrite, bne_iff_ne.mpr change, bad, if_true, ne_eq, not_false_eq_true]; rfl⟩

theorem portModeWrite_of_accepted (change : modeWritten l v s ≠ (port l s).mode) (ok : modeReason l (modeWritten l v s) s = 0) :
    portModeWrite l v s = changeMode l (modeWritten l v s) (setReg (Reg.PORT_CFG l) (cfgWritten l v s) s) := by
  unfold modeWritten at change ok
  simp only [portModeWrite, cfgWritten, modeWritten, bne_iff_ne.mpr change, ok, if_true, ne_eq, not_true_eq_false, if_false, when'_true]
  rfl

/-- A refused MODE shows in ERR only (R339). -/
theorem portModeWrite_refused (w : s.wf) (change : modeWritten l v s ≠ (port l s).mode)
    (bad : modeReason l (modeWritten l v s) s ≠ 0) :
    port l (portModeWrite l v s) = { port l s with err := modeReason l (modeWritten l v s) s } ∧
      reg (Reg.PORT_CFG l) (portModeWrite l v s) = reg (Reg.PORT_CFG l) s ∧
      SameBut [.regs, .recd, .ring, .ports] s (portModeWrite l v s) := by
  obtain ⟨payload, refused⟩ := portModeWrite_of_refused change bad
  obtain ⟨-, -, -, -, -, -, -, -, ports, -⟩ := w
  rw [refused]
  exact ⟨(port_event ..).trans (port_setPort_same ports), PortCfgHolds.event (s := modPort l _ s) rfl _ payload,
    (event_frame (m := 70368745228296) (modPort_frame Frame.rfl' rfl) rfl).sameBut (by decide)⟩

/-- An accepted MODE takes its port down (R340). -/
theorem portModeWrite_accepted (w : s.wf) (change : modeWritten l v s ≠ (port l s).mode)
    (ok : modeReason l (modeWritten l v s) s = 0) :
    reg (Reg.PORT_CFG l) (portModeWrite l v s) = cfgWritten l v s ∧
      ∃ x : PortState, port l (portModeWrite l v s) = { x with mode := modeWritten l v s, locFault := false, remFault := false } ∧
        x.link = false := by
  obtain ⟨regs, -, -, -, -, -, -, -, ports, -⟩ := w
  have down : LinkLost l (blockDown l (modeWritten l v s) (setReg (Reg.PORT_CFG l) (cfgWritten l v s) s)) := blockDown_linkLost ports
  rw [portModeWrite_of_accepted change ok]
  exact ⟨PortCfgHolds.changeMode (reg_setReg_same regs) l _, _, port_changeMode ports, down.2⟩

end

theorem exec_portModeWrite {s : State} (q : s.quiet) {p : Fin 512} (hj : judge (Reg.PORT_CFG p.val) s = .perform) (v : Word) :
    exec (.portModeWrite p v) s = .next (portModeWrite p.val v s) := execPortModeWrite_eq p v q hj

/-! ### Frames received (R341 to R343, R348, R362) -/

/-- A good frame is counted by its length and address (R362), and its port has moved one (R554). -/
def goodRx (p : Nat) (frame : Bytes) (s : State) : State := s |> countRx p frame |> noteActivity p

section
variable {p : Nat} {frame : Bytes} {s : State}

theorem goodRx_frame : Frame 16392 s (goodRx p frame s) := noteActivity_frame (countRx_frame Frame.rfl' rfl) rfl

theorem rxAddrReg_bounds (da : Nat) : 0x800110 + 0x1000 * p ≤ rxAddrReg p da ∧ rxAddrReg p da ≤ 0x800120 + 0x1000 * p := by
  unfold rxAddrReg Reg.CNT_PORT_RX_BCAST_LO Reg.CNT_PORT_RX_MCAST_LO Reg.CNT_PORT_RX_UCAST_LO
  repeat' split
  all_goals omega

theorem rxSizeReg_bounds (l : Nat) : 0x800140 + 0x1000 * p ≤ rxSizeReg p l ∧ rxSizeReg p l ≤ 0x800170 + 0x1000 * p := by
  unfold rxSizeReg Reg.CNT_PORT_RX_64_LO Reg.CNT_PORT_RX_65_127_LO Reg.CNT_PORT_RX_128_255_LO Reg.CNT_PORT_RX_256_511_LO
    Reg.CNT_PORT_RX_512_1023_LO Reg.CNT_PORT_RX_1024_1518_LO Reg.CNT_PORT_RX_1519_MAX_LO
  repeat' split
  all_goals omega

theorem reg_goodRx (a : Nat) : reg a (goodRx p frame s) = reg a (count64 (rxSizeReg p frame.length) 1
    (count64 (rxAddrReg p (beAt frame 0 6)) 1 (count64 (Reg.CNT_PORT_RX_FRAMES_OK_LO p) 1
      (count64 (Reg.CNT_PORT_RX_OCTETS_OK_LO p) frame.length s)))) :=
  congrArg (fun t => tget resetValue t a) ((noteActivity_frame (m := 16384) Frame.rfl' rfl).regs rfl)

/-- No register outside the counters of good frames changes. -/
theorem reg_goodRx_ne {a : Nat} (other : a < 0x800100 + 0x1000 * p ∨ 0x800124 + 0x1000 * p < a ∧ a < 0x800140 + 0x1000 * p) :
    reg a (goodRx p frame s) = reg a s := by
  have frames : Reg.CNT_PORT_RX_FRAMES_OK_LO p = 0x800108 + 0x1000 * p := rfl
  have octets : Reg.CNT_PORT_RX_OCTETS_OK_LO p = 0x800100 + 0x1000 * p := rfl
  obtain ⟨addrLow, addrHigh⟩ := rxAddrReg_bounds (p := p) (beAt frame 0 6)
  obtain ⟨sizeLow, sizeHigh⟩ := rxSizeReg_bounds (p := p) frame.length
  rw [reg_goodRx, reg_count64_ne, reg_count64_ne, reg_count64_ne, reg_count64_ne] <;> omega

theorem framesOk_goodRx (w : s.wf) :
    reg (Reg.CNT_PORT_RX_FRAMES_OK_LO p) (goodRx p frame s) = reg (Reg.CNT_PORT_RX_FRAMES_OK_LO p) s + 1 := by
  obtain ⟨regs, -⟩ := w
  have frames : Reg.CNT_PORT_RX_FRAMES_OK_LO p = 0x800108 + 0x1000 * p := rfl
  have octets : Reg.CNT_PORT_RX_OCTETS_OK_LO p = 0x800100 + 0x1000 * p := rfl
  obtain ⟨addrLow, addrHigh⟩ := rxAddrReg_bounds (p := p) (beAt frame 0 6)
  obtain ⟨sizeLow, sizeHigh⟩ := rxSizeReg_bounds (p := p) frame.length
  rw [reg_goodRx, reg_count64_ne (by omega) (by omega), reg_count64_ne (by omega) (by omega), reg_count64_low (count64_wf regs),
    reg_count64_ne (by omega) (by omega)]
  rfl

theorem rxStamp_goodRx : rxStamp p (goodRx p frame s) = rxStamp p s := by
  have adj : reg (Reg.PORT_TS_ADJ p) (goodRx p frame s) = reg (Reg.PORT_TS_ADJ p) s :=
    reg_goodRx_ne (by unfold Reg.PORT_TS_ADJ; omega)
  simp only [rxStamp, rfld, adj, stampNow, stampBase, goodRx_frame.time rfl, goodRx_frame.cycle rfl]

theorem isLldp_goodRx (b : Bytes) : isLldp p b (goodRx p frame s) = isLldp p b s := by
  have eee : reg (Reg.PORT_EEE_CFG p) (goodRx p frame s) = reg (Reg.PORT_EEE_CFG p) s :=
    reg_goodRx_ne (by unfold Reg.PORT_EEE_CFG; omega)
  simp only [isLldp, rbit, eee]

theorem macRx_of_fault {codeErr : Bool} {a : Nat} (fault : rxFault p frame codeErr s = some a) (short : frame.length ≤ 128) :
    macRx p frame codeErr s = count64 a 1 s := by
  simp only [macRx, fault, if_neg (Nat.not_lt.mpr short)]

section
variable (good : rxFault p frame false s = none)
include good

theorem macRx_of_good : macRx p frame false s =
    let b := frame.take (frame.length - 4)
    if beAt b 12 2 = 0x8808 then macControl p b (goodRx p frame s)
    else if isLldp p b s then lldpReceive p (eeeTlv 64 (b.drop 14)) (goodRx p frame s)
    else presentFrame p { bytes := b, line := false, src := p, stamp := rxStamp p s, bad := false, tubs := [] }
      (goodRx p frame s) := by
  dsimp only
  rw [← isLldp_goodRx (frame := frame), ← rxStamp_goodRx (frame := frame), macRx, good]
  rfl

/-- A MAC control frame of an opcode that is not PAUSE or PFC is counted besides (R343). -/
theorem macRx_of_badControl (control : beAt (frame.take (frame.length - 4)) 12 2 = 0x8808)
    (pause : beAt (frame.take (frame.length - 4)) 14 2 ≠ 1) (pfc : beAt (frame.take (frame.length - 4)) 14 2 ≠ 0x101) :
    macRx p frame false s = count64 (Reg.CNT_PORT_RX_CTRL_BAD_LO p) 1 (goodRx p frame s) := by
  rw [macRx_of_good good, if_pos control, macControl, if_neg pause, if_neg pfc]

/-- Any other frame goes to the pipeline of its port. -/
theorem macRx_of_pipeline (control : beAt (frame.take (frame.length - 4)) 12 2 ≠ 0x8808)
    (lldp : isLldp p (frame.take (frame.length - 4)) s = false) (on : domState (p / 128) s = .on) :
    macRx p frame false s = storeIngress (p / 128)
      { bytes := frame.take (frame.length - 4), line := false, src := p, stamp := rxStamp p s, bad := false, tubs := [] }
      (goodRx p frame s) := by
  have still_on : domState (p / 128) (goodRx p frame s) = .on := by rwa [domState, goodRx_frame.dom_ rfl]
  rw [macRx_of_good good, if_neg control, lldp, if_neg Bool.false_ne_true, presentFrame, if_pos still_on]

end

end

/-- A frame handed over stands last at its pipeline, in the tubs it was given (R311). -/
theorem ingressOf_storeIngress (n : Nat) (f : InFrame) (bare : f.tubs = []) (s : State) :
    ∃ hs, ingressOf n (storeIngress n f s) = ingressOf n s ++ [{ f with tubs := hs }] := by
  have pushed : ∀ (g : InFrame) (u : State), u.ingress = s.ingress → ingressOf n (pushIngress n g u) = ingressOf n s ++ [g] :=
    fun g u same => (tget_tput_nd (List.append_ne_nil_of_right_ne_nil _ (List.cons_ne_nil _ _))).trans
      (by rw [ingressOf, ingressOf, same])
  have same : (storeData n f.bytes f.line s).2.ingress = s.ingress :=
    (storeData_frame (m := 13194139664386) Frame.rfl' rfl).ingress rfl
  unfold storeIngress
  split
  · next hs u stored => exact ⟨hs, pushed _ u (by rw [← same, stored])⟩
  · next u refused => exact ⟨[], (pushed f u (by rw [← same, refused])).trans (by rw [← bare])⟩

section
variable {p : Nat} {frame : Bytes} {s : State} (w : s.wf) (good : rxFault p frame false s = none)
include w good

/-- A good frame for the pipeline is counted and handed over with its receive stamp (R341, R359). -/
theorem macRx_handsOver (control : beAt (frame.take (frame.length - 4)) 12 2 ≠ 0x8808)
    (lldp : isLldp p (frame.take (frame.length - 4)) s = false) (on : domState (p / 128) s = .on) :
    (∃ hs, ingressOf (p / 128) (macRx p frame false s) = ingressOf (p / 128) s ++
      [{ bytes := frame.take (frame.length - 4), line := false, src := p, stamp := rxStamp p s, bad := false, tubs := hs }]) ∧
      reg (Reg.CNT_PORT_RX_FRAMES_OK_LO p) (macRx p frame false s) = reg (Reg.CNT_PORT_RX_FRAMES_OK_LO p) s + 1 ∧
      SameBut [.free, .regs, .land, .tub, .sram, .dram, .ingress] s (macRx p frame false s) := by
  have waiting : ingressOf (p / 128) (goodRx p frame s) = ingressOf (p / 128) s :=
    congrArg (fun t => tget (fun _ => []) t (p / 128)) (goodRx_frame.ingress rfl)
  rw [macRx_of_pipeline good control lldp on, ← framesOk_goodRx w, ← waiting]
  exact ⟨ingressOf_storeIngress _ _ rfl _,
    congrArg (fun t => tget resetValue t _) ((storeIngress_frame (m := 13194143858690) Frame.rfl' rfl).regs rfl),
    (storeIngress_frame (m := 13194143875082) (goodRx_frame.mono rfl) rfl).sameBut (by decide)⟩

/-- A MAC control frame of another opcode is counted and goes no further (R343). -/
theorem macRx_countsBadControl (control : beAt (frame.take (frame.length - 4)) 12 2 = 0x8808)
    (pause : beAt (frame.take (frame.length - 4)) 14 2 ≠ 1) (pfc : beAt (frame.take (frame.length - 4)) 14 2 ≠ 0x101) :
    reg (Reg.CNT_PORT_RX_CTRL_BAD_LO p) (macRx p frame false s) = reg (Reg.CNT_PORT_RX_CTRL_BAD_LO p) s + 1 ∧
      (macRx p frame false s).ingress = s.ingress ∧ SameBut [.regs, .land] s (macRx p frame false s) := by
  have uncounted : reg (Reg.CNT_PORT_RX_CTRL_BAD_LO p) (goodRx p frame s) = reg (Reg.CNT_PORT_RX_CTRL_BAD_LO p) s :=
    reg_goodRx_ne (by unfold Reg.CNT_PORT_RX_CTRL_BAD_LO; omega)
  have kept := count64_frame (x0 := Reg.CNT_PORT_RX_CTRL_BAD_LO p) (x1 := 1) (goodRx_frame (p := p) (frame := frame) (s := s)) rfl
  obtain ⟨regs, -⟩ := w
  rw [macRx_of_badControl good control pause pfc, reg_count64_low (goodRx_frame.lasting.regs regs), uncounted]
  exact ⟨rfl, kept.ingress rfl, kept.sameBut (by decide)⟩

end

/-- The codewords of the RS-FEC are counted in MODE 4, but not in a dip episode (R348). -/
def fecCounted (p corr uncorr : Nat) (s : State) : State :=
  when' ((port p s).mode == 4 && !inDip s)
    (fun s => s |> count64 (Reg.CNT_PORT_FEC_CORR_LO p) corr |> count64 (Reg.CNT_PORT_FEC_UNCORR_LO p) uncorr) s

/-- A frame given, or the next that a loopback returns, once the codewords are counted. -/
def macTaken (p : Nat) (frame : Option Bytes) (codeErr : Bool) (s : State) : State :=
  match frame with
  | some b => receive p b codeErr s
  | none =>
    match s.looped.find? (fun e => e.1 == p) with
    | none => s
    | some e => receive p e.2 codeErr { s with looped := s.looped.erase e }

theorem macRxFrame_eq (p : Nat) (frame : Option Bytes) (codeErr : Bool) (corr uncorr : Nat) (s : State) :
    macRxFrame p frame codeErr corr uncorr s = macTaken p frame codeErr (fecCounted p corr uncorr s) := rfl

section
variable {p corr uncorr : Nat} {s : State}

theorem fecCounted_zero (w : s.wf) : fecCounted p 0 0 s = s := by
  obtain ⟨regs, -⟩ := w
  unfold fecCounted when'
  split
  · exact (congrArg _ (count64_zero regs)).trans (count64_zero regs)
  · rfl

theorem fecCounted_of_uncounted (w : s.wf) (none_counted : (port p s).mode ≠ 4 ∨ (corr = 0 ∧ uncorr = 0)) :
    fecCounted p corr uncorr s = s := by
  rcases none_counted with other | ⟨rfl, rfl⟩
  · exact if_neg fun h => other (beq_iff_eq.mp (Bool.and_eq_true_iff.mp h).1)
  · exact fecCounted_zero w

theorem fecCounted_of_mode4 (mode : (port p s).mode = 4) (calm : inDip s = false) :
    fecCounted p corr uncorr s =
      count64 (Reg.CNT_PORT_FEC_UNCORR_LO p) uncorr (count64 (Reg.CNT_PORT_FEC_CORR_LO p) corr s) := by
  simp only [fecCounted, mode, calm]
  rfl

theorem receive_of_down {b : Bytes} {codeErr : Bool} (down : (port p s).link = false) : receive p b codeErr s = s := by
  simp only [receive, down, Bool.not_false, if_true]

theorem receive_of_dip {b : Bytes} {codeErr : Bool} (up : (port p s).link = true) (dip : inDip s = true) :
    receive p b codeErr s = dropAtIngress s := by
  simp only [receive, up, dip, Bool.not_true, Bool.false_eq_true, if_false, if_true]

theorem receive_of_up {b : Bytes} {codeErr : Bool} (up : (port p s).link = true) (calm : inDip s = false) :
    receive p b codeErr s = macRx p b codeErr s := by
  simp only [receive, up, calm, Bool.not_true, Bool.false_eq_true, if_false]

end

theorem exec_macRxFrame {s : State} (q : s.quiet) (p : Fin 512) (frame : Option Bytes) (codeErr : Bool) (corr uncorr : Nat) :
    exec (.macRxFrame p frame codeErr corr uncorr) s = .next (macTaken p.val frame codeErr (fecCounted p.val corr uncorr s)) :=
  execMacRxFrame_eq p frame codeErr corr uncorr q

/-- Settles O44: a write of PORT_CFG by whether MODE changes and is refused, a frame by the state of its port and its first fault. -/
theorem portModesAndReceivedFrames : Obligations.PortModesAndReceivedFrames := by
  intro s p v frame corr uncorr q w
  have write := fun hj => exec_portModeWrite q (p := p) hj v
  refine ⟨fun hj => ⟨fun same => ?_, fun change bad => ?_, fun change ok => ?_⟩, fun f code mode calm => ?_, fun uncounted => ?_⟩
  · rw [write hj, portModeWrite_of_same same]
    rfl
  · exact ⟨_, write hj, portModeWrite_refused w change bad⟩
  · obtain ⟨cfg, x, shown, down⟩ := portModeWrite_accepted w change ok
    exact ⟨_, write hj, cfg, congrArg PortState.mode shown, (congrArg PortState.link shown).trans down,
      congrArg PortState.locFault shown, congrArg PortState.remFault shown,
      (portModeWrite_frame (m := 83563422287886) Frame.rfl' rfl).sameBut (by decide)⟩
  · have counted : Frame 8 s (count64 (Reg.CNT_PORT_FEC_UNCORR_LO p.val) uncorr (count64 (Reg.CNT_PORT_FEC_CORR_LO p.val) corr s)) :=
      count64_frame (count64_frame Frame.rfl' rfl) rfl
    rw [exec_macRxFrame q, fecCounted_of_mode4 mode calm,
      exec_macRxFrame ⟨(counted.stalled_ rfl).trans q.1, (counted.faultsIn_ rfl).trans q.2⟩, fecCounted_zero (counted.lasting.wf w)]
  · have taken : ∀ f code, exec (.macRxFrame p f code corr uncorr) s = .next (macTaken p.val f code s) := fun f code => by
      rw [exec_macRxFrame q, fecCounted_of_uncounted w uncounted]
    refine ⟨fun down => ?_, fun up dip => ?_, fun up calm => ⟨fun code a fault short => ?_, fun good => ⟨fun control lldp on => ?_,
      fun control pause pfc => ?_⟩⟩, fun none_looped => ?_⟩
    · exact (taken _ _).trans (congrArg _ (receive_of_down down))
    · exact (taken _ _).trans (congrArg _ (receive_of_dip up dip))
    · exact (taken _ _).trans (congrArg _ ((receive_of_up up calm).trans (macRx_of_fault fault short)))
    · obtain ⟨⟨hs, stands⟩, rest⟩ := macRx_handsOver w good control lldp on
      exact ⟨_, hs, (taken _ _).trans (congrArg _ (receive_of_up up calm)), stands, rest⟩
    · exact ⟨_, (taken _ _).trans (congrArg _ (receive_of_up up calm)), macRx_countsBadControl w good control pause pfc⟩
    · rw [taken, macTaken, none_looped]

end Sys2Proof.Machine
end
